-- ==== Sys2Proof/Word.lean ====
section
/-! DEFINITION. The word types of the model: bytes, parcels, words and lane masks. -/

namespace Sys2Proof

/-- One byte of any memory. -/
abbrev Byte := BitVec 8

/-- One 16-bit parcel of a stream image (R298). -/
abbrev Parcel := BitVec 16

/-- A 32-bit word: a vector lane, a ring element, a long-form instruction. -/
abbrev W32 := BitVec 32

/-- A 64-bit word: an x register, an exchange register, a packet word. -/
abbrev W64 := BitVec 64

/-- One bit per lane of a vector register: lane `i·64 + j` is bit `i·64 + j` (R202). -/
abbrev LaneMask := BitVec 1024

end Sys2Proof
end

