-- ==== Sys2Proof/Machine/Float.lean ====
section
/-! DEFINITION. The floating-point arithmetic of chapter 12: binary32 with round to nearest, ties to even, subnormals
kept, one NaN, no flags. Values are exact dyadic or rational numbers until one rounding at the end. -/

namespace Sys2Proof.Machine

/-- The one NaN the device writes (R238, R243). -/
def nan32 : W32 := 0x7FC00000

/-- The infinity of a sign. -/
def inf32 (neg : Bool) : W32 := if neg then 0xFF800000 else 0x7F800000

/-- The zero of a sign. -/
def zero32 (neg : Bool) : W32 := if neg then 0x80000000 else 0

/-- What a binary32 word stands for: a finite value is (-1)^neg · m · 2^e. -/
inductive Fp where
  | nan
  | inf (neg : Bool)
  | fin (neg : Bool) (m : Nat) (e : Int)
  deriving DecidableEq, Repr

/-- Read a binary32 word. -/
def fp (w : W32) : Fp :=
  let s := w.getLsbD 31
  let x := (w.extractLsb' 23 8).toNat
  let m := (w.extractLsb' 0 23).toNat
  if x = 255 then (if m = 0 then .inf s else .nan)
  else if x = 0 then .fin s m (-149)
  else .fin s (m + 0x800000) (x - 150 : Int)

/-- Read BF16 as binary32, exactly (R244). -/
def bfTo32 (b : BitVec 16) : W32 := b ++ (0 : BitVec 16)

/-- `n · 2^k` for a nonnegative `k`, else `n`. -/
def shl (n : Nat) (k : Int) : Nat := n * 2 ^ k.toNat

/-- The exponent `x` with 2^x ≤ n/d < 2^(x+1), for n, d > 0. -/
def ratLog2 (n d : Nat) : Int :=
  let g : Int := (n.log2 : Int) - (d.log2 : Int)
  if shl d g ≤ shl n (-g) then g else g - 1

/-- The integer nearest to n/d, ties to even. -/
def rneDiv (n d : Nat) : Nat :=
  let q := n / d
  let r := n % d
  if d < 2 * r ∨ (2 * r = d ∧ q % 2 = 1) then q + 1 else q

/-- `rne32` of R237 on the rational (-1)^neg · n/d, d > 0: round to nearest, ties to even; subnormals are kept and a
magnitude at or above 2^128·(1 - 2^-25) becomes infinite. -/
def roundRat (neg : Bool) (n d : Nat) : W32 :=
  if n = 0 then zero32 neg
  else
    let u : Int := max (ratLog2 n d - 23) (-149)
    let m := rneDiv (shl n (-u)) (shl d u)
    let b := (u + 149).toNat * 0x800000 + m
    if 0x7F800000 ≤ b then inf32 neg else BitVec.ofNat 32 (if neg then b + 0x80000000 else b)

/-- `rne32` of the dyadic value v · 2^e; an exact zero takes the sign `z`. -/
def roundDy (z : Bool) (v e : Int) : W32 :=
  if v = 0 then zero32 z else roundRat (v < 0) (shl v.natAbs e) (2 ^ (-e).toNat)

/-- A signed mantissa. -/
def signed (neg : Bool) (m : Nat) : Int := if neg then -(m : Int) else m

/-- a · 2^ea + b · 2^eb as v · 2^e. -/
def alignAdd (a : Int) (ea : Int) (b : Int) (eb : Int) : Int × Int :=
  let e := min ea eb
  (a * (2 ^ (ea - e).toNat : Nat) + b * (2 ^ (eb - e).toNat : Nat), e)

/-- Sum of two values, rounded once (R237 add32). -/
def addFp : Fp → Fp → W32
  | .nan, _ => nan32
  | _, .nan => nan32
  | .inf s, .inf t => if s = t then inf32 s else nan32
  | .inf s, .fin _ _ _ => inf32 s
  | .fin _ _ _, .inf t => inf32 t
  | .fin s m e, .fin t n f =>
    let r := alignAdd (signed s m) e (signed t n) f
    roundDy (m = 0 ∧ n = 0 ∧ s ∧ t) r.1 r.2

/-- The exact product of two values. -/
def mulFp : Fp → Fp → Fp
  | .nan, _ => .nan
  | _, .nan => .nan
  | .inf s, .inf t => .inf (s != t)
  | .inf s, .fin t n _ => if n = 0 then .nan else .inf (s != t)
  | .fin s m _, .inf t => if m = 0 then .nan else .inf (s != t)
  | .fin s m e, .fin t n f => .fin (s != t) (m * n) (e + f)

/-- Round a value. -/
def roundFp : Fp → W32
  | .nan => nan32
  | .inf s => inf32 s
  | .fin s m e => roundDy s (signed s m) e

/-- Negate a value. -/
def negFp : Fp → Fp
  | .nan => .nan
  | .inf s => .inf !s
  | .fin s m e => .fin (!s) m e

/-- Binary32 addition (R237, R243). -/
def add32 (a b : W32) : W32 := addFp (fp a) (fp b)

/-- Binary32 subtraction. -/
def sub32 (a b : W32) : W32 := addFp (fp a) (negFp (fp b))

/-- Binary32 multiplication. -/
def mul32 (a b : W32) : W32 := roundFp (mulFp (fp a) (fp b))

/-- b·c + a with one rounding (R381). -/
def fma32 (b c a : W32) : W32 := addFp (mulFp (fp b) (fp c)) (fp a)

/-- b·c - a. -/
def fms32 (b c a : W32) : W32 := addFp (mulFp (fp b) (fp c)) (negFp (fp a))

/-- -(b·c) - a. -/
def fnma32 (b c a : W32) : W32 := addFp (negFp (mulFp (fp b) (fp c))) (negFp (fp a))

/-- -(b·c) + a. -/
def fnms32 (b c a : W32) : W32 := addFp (negFp (mulFp (fp b) (fp c))) (fp a)

/-- n·2^e / (m·2^f) rounded, for m > 0. -/
def divDy (neg : Bool) (n : Nat) (e : Int) (m : Nat) (f : Int) : W32 :=
  roundRat neg (shl n (e - f)) (shl m (f - e))

/-- Binary32 division (R245 VFDIV). -/
def div32 (a b : W32) : W32 :=
  match fp a, fp b with
  | .nan, _ => nan32
  | _, .nan => nan32
  | .inf _, .inf _ => nan32
  | .inf s, .fin t _ _ => inf32 (s != t)
  | .fin s _ _, .inf t => zero32 (s != t)
  | .fin s m e, .fin t n f =>
    if n = 0 then (if m = 0 then nan32 else inf32 (s != t)) else divDy (s != t) m e n f

/-- 1/x (R245). -/
def rcp32 (a : W32) : W32 := div32 0x3F800000 a

/-! ### Order -/

/-- An integer with the order of the finite and infinite values: -0 and +0 both give 0. -/
def orderKey (w : W32) : Int :=
  let m : Int := (w.extractLsb' 0 31).toNat
  if w.getLsbD 31 then -m else m

/-- Whether a word is a NaN. -/
def isNan (w : W32) : Bool := decide (0x7F800000 < (w.extractLsb' 0 31).toNat)

/-- FP equal, less than, less or equal, unordered (R388). -/
def feq (a b : W32) : Bool := !isNan a && !isNan b && decide (orderKey a = orderKey b)
def flt (a b : W32) : Bool := !isNan a && !isNan b && decide (orderKey a < orderKey b)
def fle (a b : W32) : Bool := !isNan a && !isNan b && decide (orderKey a ≤ orderKey b)
def fun32 (a b : W32) : Bool := isNan a || isNan b

/-- The smaller; -0 counts as smaller than +0; a NaN gives the NaN (R381). -/
def fmin32 (a b : W32) : W32 :=
  if isNan a || isNan b then nan32
  else if orderKey a < orderKey b then a
  else if orderKey b < orderKey a then b
  else if a.getLsbD 31 then a else b

/-- The larger. -/
def fmax32 (a b : W32) : W32 :=
  if isNan a || isNan b then nan32
  else if orderKey a < orderKey b then b
  else if orderKey b < orderKey a then a
  else if a.getLsbD 31 then b else a

/-! ### One operand (R382) -/

def fabs32 (a : W32) : W32 := if isNan a then nan32 else a &&& 0x7FFFFFFF
def fneg32 (a : W32) : W32 := if isNan a then nan32 else a ^^^ 0x80000000

/-- The largest integral value not above. -/
def floor32 (a : W32) : W32 :=
  match fp a with
  | .nan => nan32
  | .inf s => inf32 s
  | .fin s m e =>
    if 0 ≤ e ∨ m = 0 then a
    else
      let d := 2 ^ (-e).toNat
      let q := if s then (m + d - 1) / d else m / d
      roundRat s q 1

/-- The nearest integral value, ties to even; the sign is kept. -/
def rint32 (a : W32) : W32 :=
  match fp a with
  | .nan => nan32
  | .inf s => inf32 s
  | .fin s m e => if 0 ≤ e ∨ m = 0 then a else roundRat s (rneDiv m (2 ^ (-e).toNat)) 1

/-- The class bits of VFCLASS. -/
def fclass32 (a : W32) : W32 :=
  let s := a.getLsbD 31
  let x := (a.extractLsb' 23 8).toNat
  let m := (a.extractLsb' 0 23).toNat
  let n : Nat :=
    if x = 255 then
      (if m = 0 then (if s then 0 else 7) else if a.getLsbD 22 then 9 else 8)
    else if x = 0 then
      (if m = 0 then (if s then 3 else 4) else if s then 2 else 5)
    else if s then 1 else 6
  BitVec.ofNat 32 (2 ^ n)

/-! ### Conversions (R244, R246, R394) -/

/-- Binary32 to BF16: round to nearest even on the low half; NaN becomes 0x7FC0. -/
def toBf (a : W32) : BitVec 16 :=
  if isNan a then 0x7FC0
  else
    let m := rneDiv (a.extractLsb' 0 31).toNat 65536
    BitVec.ofNat 16 (if a.getLsbD 31 then m + 0x8000 else m)

/-- The OK16 order key. -/
def okey (a : W32) : BitVec 16 :=
  if isNan a then 0
  else
    let b := if toBf a = 0x8000 then 0 else toBf a
    if b.getLsbD 15 then b ^^^ 0xFFFF else b ||| 0x8000

/-- Clamp an integer. -/
def sat (v lo hi : Int) : Int := max lo (min v hi)

/-- Binary32 to a signed 32-bit integer, saturated; NaN gives 0. -/
def toInt32 (a : W32) : W32 :=
  match fp a with
  | .nan => 0
  | .inf s => if s then 0x80000000 else 0x7FFFFFFF
  | .fin s m e =>
    BitVec.ofInt 32 (sat (signed s (rneDiv (shl m e) (2 ^ (-e).toNat))) (-2147483648) 2147483647)

/-- A signed 32-bit integer to binary32. -/
def ofInt32 (a : W32) : W32 := roundDy false a.toInt 0

/-- VDOT2.BF of one lane (R387). -/
def dot2 (acc b c : W32) : W32 :=
  let bf (w : W32) (i : Nat) : Fp := fp (bfTo32 (w.extractLsb' (16 * i) 16))
  let t := addFp (fp acc) (mulFp (bf b 0) (bf c 0))
  addFp (fp t) (mulFp (bf b 1) (bf c 1))

/-! ### Square roots -/

/-- The integer square root, from bit `k` down: the largest r ≥ `r` with r² ≤ n that adds bits below 2^k. -/
def isqrtFrom (n : Nat) : Nat → Nat → Nat
  | 0, r => r
  | k + 1, r => if (r + 2 ^ k) * (r + 2 ^ k) ≤ n then isqrtFrom n k (r + 2 ^ k) else isqrtFrom n k r

/-- The integer square root. -/
def isqrt (n : Nat) : Nat := isqrtFrom n (n.log2 / 2 + 1) 0

/-- √(n/d) rounded: the root to 80 more bits, with a half unit added where it is not exact. -/
def sqrtRat (n d : Nat) : W32 :=
  let k := 80 + (if d.log2 ≤ n.log2 then 0 else d.log2 - n.log2)
  let q := n * 4 ^ k / d
  let r := isqrt q
  if r * r = q ∧ n * 4 ^ k % d = 0 then roundRat false r (2 ^ k) else roundRat false (2 * r + 1) (2 * 2 ^ k)

/-- √x (R245). -/
def sqrt32 (a : W32) : W32 :=
  match fp a with
  | .nan => nan32
  | .inf s => if s then nan32 else inf32 false
  | .fin s m e =>
    if m = 0 then zero32 s else if s then nan32 else sqrtRat (shl m e) (2 ^ (-e).toNat)

/-- 1/√x. -/
def rsq32 (a : W32) : W32 :=
  match fp a with
  | .nan => nan32
  | .inf s => if s then nan32 else zero32 false
  | .fin s m e =>
    if m = 0 then inf32 s else if s then nan32 else sqrtRat (2 ^ (-e).toNat) (shl m e)

/-! ### Exponential and logarithm, correctly rounded

Each value is enclosed between two rationals with denominator 2^P. Where both round to one word that word is the exact
value rounded once, by monotonicity of rounding (R245). No binary32 argument needs more than the 360 bits carried. -/

/-- Fraction bits carried. -/
def prec : Nat := 360

/-- 2^P. -/
def one : Nat := 2 ^ prec

/-- Sum of z^(2i+1)/(2i+1) for the next `n` terms; `z2` is z² and `t` the current power, in units of 2^-P. -/
def atanhTerms (z2 : Nat) : Nat → Nat → Nat → Nat
  | 0, _, _ => 0
  | n + 1, i, t => t / (2 * i + 1) + atanhTerms z2 n (i + 1) (t * z2 / one)

/-- atanh z from below, for 0 ≤ z ≤ 1/3 in units of 2^-P; it is short by less than 2^10 units. -/
def atanhLo (z : Nat) : Nat := atanhTerms (z * z / one) 120 0 z

/-- ln 2 from below, in units of 2^-P; short by less than 2^11 units. -/
def ln2Lo : Nat := 2 * atanhLo (one / 3)

/-- An error bound of `ln2Lo` and of twice `atanhLo`. -/
def errLn : Nat := 2 ^ 12

/-- Sum of the terms t^i/i! from term `i` on, whose value is `c`. -/
def expTerms (t : Nat) : Nat → Nat → Nat → Nat
  | 0, _, _ => 0
  | n + 1, i, c => c + expTerms t n (i + 1) (c * t / (one * (i + 1)))

/-- e^t from below, for 0 ≤ t ≤ 1 in units of 2^-P; short by less than 2^10 units. -/
def expLo (t : Nat) : Nat := expTerms t 110 0 one

/-- An enclosure of e^t for t between `lo` and `hi`. -/
def expBounds (lo hi : Nat) : Nat × Nat := (expLo lo, expLo hi + 2 ^ 10)

/-- The word that both ends of an enclosure n/d round to; where they differ, that of the lower end: PRESUMED (log entry 68). -/
def roundBoth (neg : Bool) (lo hi d : Nat) : W32 :=
  let a := roundRat neg lo d
  if a = roundRat neg hi d then a else a

/-- 2^x for finite x = (-1)^s·m·2^e (R245). Arguments at or beyond ±256 give infinity or zero. -/
def exp2Fin (s : Bool) (m : Nat) (e : Int) : W32 :=
  let d := 2 ^ (-e).toNat
  let n := shl m e
  if 256 * d ≤ n then (if s then zero32 false else inf32 false)
  else
    let i : Int := if s then -((n + d - 1) / d : Nat) else (n / d : Nat)
    let f := if s then ((n + d - 1) / d) * d - n else n % d
    if f = 0 then roundDy false 1 i
    else
      let x := expBounds (ln2Lo * f / d) ((ln2Lo + errLn) * f / d + 1)
      roundBoth false (shl x.1 i) (shl x.2 i) (shl one (-i))

/-- VFEXP2. -/
def exp2f (a : W32) : W32 :=
  match fp a with
  | .nan => nan32
  | .inf s => if s then zero32 false else inf32 false
  | .fin s m e => exp2Fin s m e

/-- log2 of m·2^e for m > 0. With m = 2^k·y, 1 ≤ y < 2, it is k + e + log2 y, and log2 y = 2·atanh((y-1)/(y+1))/ln 2. -/
def log2Fin (m : Nat) (e : Int) : W32 :=
  let k := m.log2
  let c := 2 ^ k
  let x : Int := e + k
  if m = c then roundDy false x 0
  else
    let z := one * (m - c) / (m + c)
    let lo := 2 * atanhLo z
    let hi := 2 * atanhLo (z + 1) + errLn
    let l := lo * one / (ln2Lo + errLn)
    let h := hi * one / ln2Lo + 1
    let base : Int := x * (one : Nat)
    let u := base + l
    let v := base + h
    if 0 ≤ u then roundBoth false u.toNat v.toNat one else roundBoth true (-v).toNat (-u).toNat one

/-- VFLOG2. -/
def log2f (a : W32) : W32 :=
  match fp a with
  | .nan => nan32
  | .inf s => if s then nan32 else inf32 false
  | .fin s m e => if m = 0 then inf32 true else if s then nan32 else log2Fin m e

/-- An enclosure of e^-u for u = n/d with 0 < u < 256, in units of 2^-P: with k = floor(u/ln 2) + 1 it is
2^-k·e^(k·ln 2 - u). -/
def expNeg (n d : Nat) : Nat × Nat :=
  let u := one * n / d
  let k := u / (ln2Lo + errLn) + 1
  let lo := k * ln2Lo - (u + 1)
  let hi := k * (ln2Lo + errLn) - u
  let x := expBounds lo hi
  (x.1 / 2 ^ k, x.2 / 2 ^ k + 1)

/-- VFTANH: tanh x = (1 - E)/(1 + E) with E = e^-2|x|; at |x| ≥ 100 it rounds to ±1. -/
def tanhf (a : W32) : W32 :=
  match fp a with
  | .nan => nan32
  | .inf s => if s then 0xBF800000 else 0x3F800000
  | .fin s m e =>
    let d := 2 ^ (-e).toNat
    let n := shl m e
    if m = 0 then zero32 s
    else if 100 * d ≤ n then (if s then 0xBF800000 else 0x3F800000)
    else
      let x := expNeg (2 * n) d
      let lo := (one - x.2) * one / (one + x.2)
      let hi := (one - x.1) * one / (one + x.1) + 1
      roundBoth s lo hi one

/-- VFSIGM: 1/(1 + E) for x > 0 and E/(1 + E) for x < 0, with E = e^-|x|; beyond ±110 it rounds to 1 or +0. -/
def sigmf (a : W32) : W32 :=
  match fp a with
  | .nan => nan32
  | .inf s => if s then 0 else 0x3F800000
  | .fin s m e =>
    let d := 2 ^ (-e).toNat
    let n := shl m e
    if m = 0 then 0x3F000000
    else if 110 * d ≤ n then (if s then 0 else 0x3F800000)
    else
      let x := expNeg n d
      if s then roundBoth false (x.1 * one / (one + x.1)) (x.2 * one / (one + x.2) + 1) one
      else roundBoth false (one * one / (one + x.2)) (one * one / (one + x.1) + 1) one

/-! ### Quantisation (R240, R242) -/

/-- floor(log2 |x|) of a finite nonzero value. -/
def Fp.log2 : Fp → Int
  | .fin _ m e => e + m.log2
  | _ => 0

/-- floor(v · 2^e + 1/2). -/
def floorHalf (v e : Int) : Int :=
  if 0 ≤ e then v * (2 ^ e.toNat : Nat) else (2 * v + (2 ^ (-e).toNat : Nat)) / (2 * 2 ^ (-e).toNat : Nat)

/-- The nearest integer to v · 2^e, ties to even. -/
def rneInt (v e : Int) : Int :=
  if 0 ≤ e then v * (2 ^ e.toNat : Nat) else signed (v < 0) (rneDiv v.natAbs (2 ^ (-e).toNat))

/-- Signed mantissa and exponent of a finite value. -/
def Fp.dy : Fp → Int × Int
  | .fin s m e => (signed s m, e)
  | _ => (0, 0)

/-- What a block of 32 elements is. -/
inductive BlockKind where
  | nan | zero | num (e : Int)
  deriving DecidableEq, Repr

/-- Classify a block: NaN block, zero block, or its largest finite magnitude's floor(log2). -/
def blockKind (xs : List W32) : BlockKind :=
  let vs := xs.map fp
  if vs.any fun v => match v with | .fin _ _ _ => false | _ => true then .nan
  else
    let nz := vs.filter fun v => match v with | .fin _ m _ => decide (m ≠ 0) | _ => false
    match nz with
    | [] => .zero
    | v :: l => .num (l.foldl (fun a v => max a v.log2) v.log2)

/-- The exponent of a block in single mode, n-bit mantissas (R242). -/
def blockExp (n : Nat) (xs : List W32) : Nat :=
  match blockKind xs with
  | .nan => 255
  | .zero => 0
  | .num e => (sat (e - (n - 2 : Int) + 127) 1 254).toNat

/-- The mantissa of an element of a block in single mode. -/
def blockQ (n : Nat) (e : Nat) (x : W32) : Int :=
  if e = 0 ∨ e = 255 then 0
  else
    let v := (fp x).dy
    sat (rneInt v.1 (v.2 + 127 - e)) (-(2 ^ (n - 1) : Nat)) ((2 ^ (n - 1) : Nat) - 1)

/-- The exponent E of a block in slice mode (R240); 255 for a NaN block, 0 for a zero block. -/
def sliceExp (xs : List W32) : Nat :=
  match blockKind xs with
  | .nan => 255
  | .zero => 0
  | .num e =>
    let x := (sat (e - 6 + 127) 1 254).toNat
    let q (w : W32) : Int := let v := (fp w).dy; floorHalf v.1 (v.2 + 127 - x)
    if xs.any fun w => decide (127 < q w) then x + 1 else x

/-- The exponent of slice `s`. -/
def sliceE (e s : Nat) : Nat := if e = 0 ∨ e = 255 then e else if e < 8 * s + 1 then 0 else e - 8 * s

/-- The three slice mantissas of an element under block exponent E: y0 = v·2^k; each further slice takes 256 times what
the last left. -/
def sliceQ (e s : Nat) (x : W32) : Int :=
  if sliceE e s = 0 ∨ e = 255 then 0
  else
    let v := (fp x).dy
    let k := v.2 + 127 - e
    let q0 := floorHalf v.1 k
    let r1 := alignAdd v.1 k (-q0) 0
    let q1 := floorHalf r1.1 (r1.2 + 8)
    let r2 := alignAdd r1.1 (r1.2 + 8) (-q1) 0
    let q2 := floorHalf r2.1 (r2.2 + 8)
    if s = 0 then q0 else if s = 1 then q1 else q2

end Sys2Proof.Machine
end

