-- ==== Sys2Proof/Machine/Store.lean ====
section
/-! DEFINITION. The two containers the state is made of. `Cells w` is a memory: a list of (address, value) pairs in one
canonical form, addresses strictly rising and no entry equal to 0, which an unlisted address reads as. `Tab α` is a
table of records by index, the indices strictly rising; an unlisted index reads as the table's blank record. -/

namespace Sys2Proof.Machine

/-! ### Memories -/

/-- A memory of `w`-bit cells: (address, value) pairs in canonical form. -/
abbrev Cells (w : Nat) := List (Nat × BitVec w)

/-- The value at an address; an unlisted address reads 0: DESIGN CHOICE (log entry 2). -/
def cget {w : Nat} : Cells w → Nat → BitVec w
  | [], _ => 0
  | (b, v) :: m, a => if a = b then v else cget m a

/-- List a cell that is not 0. -/
def cput {w : Nat} : Cells w → Nat → BitVec w → Cells w
  | [], a, v => [(a, v)]
  | (b, u) :: m, a, v =>
    if a < b then (a, v) :: (b, u) :: m
    else if a = b then (a, v) :: m
    else (b, u) :: cput m a v

/-- Write one cell, keeping the canonical form: writing 0 removes the entry. -/
def cset {w : Nat} (m : Cells w) (a : Nat) (v : BitVec w) : Cells w :=
  if v = 0 then m.filter fun (b, _) => b ≠ a else cput m a v

/-- Every listed address is above `lo`, addresses rise, and no entry holds 0. -/
def cwfFrom {w : Nat} : Nat → Cells w → Bool
  | _, [] => true
  | lo, (a, v) :: m => decide (lo ≤ a) && decide (v ≠ 0) && cwfFrom (a + 1) m

/-- The canonical form of a memory. -/
def cwf {w : Nat} (m : Cells w) : Bool := cwfFrom 0 m

/-- Read `n` cells from address `a` upward. -/
def cgets {w : Nat} (m : Cells w) (a : Nat) : Nat → List (BitVec w)
  | 0 => []
  | n + 1 => cget m a :: cgets m (a + 1) n

/-- Write a list of cells from address `a` upward. -/
def csets {w : Nat} (m : Cells w) (a : Nat) : List (BitVec w) → Cells w
  | [] => m
  | v :: vs => csets (cset m a v) (a + 1) vs

/-- Write a list of (address, value) pairs, in order. -/
def cputs {w : Nat} (m : Cells w) : List (Nat × BitVec w) → Cells w
  | [] => m
  | (a, v) :: vs => cputs (cset m a v) vs

/-- The cells whose address lies in `[lo, lo + n)`, moved down by `lo`. -/
def cslice {w : Nat} (m : Cells w) (lo n : Nat) : Cells w :=
  m.filterMap fun (a, v) => if lo ≤ a ∧ a < lo + n then some (a - lo, v) else none

/-- Zero the cells of `[lo, lo + n)`. -/
def czero {w : Nat} (m : Cells w) (lo n : Nat) : Cells w :=
  m.filter fun (a, _) => ¬ (lo ≤ a ∧ a < lo + n)

/-- Replace the cells of `[lo, lo + n)` by those of `r`, whose addresses count from 0. -/
def cblit {w : Nat} (m : Cells w) (lo n : Nat) (r : Cells w) : Cells w :=
  cputs (czero m lo n) (r.filterMap fun (a, v) => if a < n then some (lo + a, v) else none)

/-- The memory whose cell `k` is `f k`, for `k < n`. -/
def ctab {w : Nat} (n : Nat) (f : Nat → BitVec w) : Cells w :=
  (List.range n).filterMap fun k => if f k = 0 then none else some (k, f k)

/-! ### Bytes and words -/

/-- The little-endian value of a list of bytes (R2). -/
def leNat : List Byte → Nat
  | [] => 0
  | b :: bs => b.toNat + 256 * leNat bs

/-- The `n` little-endian bytes of a number (R2). -/
def natLe : Nat → Nat → List Byte
  | 0, _ => []
  | n + 1, v => BitVec.ofNat 8 v :: natLe n (v / 256)

/-- The little-endian number in `n` bytes of a memory. -/
def readLe (m : Cells 8) (a n : Nat) : Nat := leNat (cgets m a n)

/-- Write a number little-endian into `n` bytes of a memory. -/
def writeLe (m : Cells 8) (a n v : Nat) : Cells 8 := csets m a (natLe n v)

/-! ### Tables -/

/-- A table of records by index. -/
abbrev Tab (α : Type) := List (Nat × α)

/-- The record at an index, `d` where none is listed. -/
def tget {α : Type} (d : α) : Tab α → Nat → α
  | [], _ => d
  | (j, v) :: t, i => if i = j then v else tget d t i

/-- Write the record at an index. -/
def tset {α : Type} : Tab α → Nat → α → Tab α
  | [], i, v => [(i, v)]
  | (j, u) :: t, i, v =>
    if i < j then (i, v) :: (j, u) :: t
    else if i = j then (i, v) :: t
    else (j, u) :: tset t i v

/-- The record at an index, if one is listed. -/
def tfind {α : Type} : Tab α → Nat → Option α
  | [], _ => none
  | (j, v) :: t, i => if i = j then some v else tfind t i

/-- Remove the record at an index. -/
def tdel {α : Type} (t : Tab α) (i : Nat) : Tab α := t.filter fun (j, _) => j ≠ i

/-- Apply a function to the record at an index. -/
def tmod {α : Type} (d : α) (t : Tab α) (i : Nat) (f : α → α) : Tab α := tset t i (f (tget d t i))

/-- Apply a function to every listed record. -/
def tmap {α : Type} (t : Tab α) (f : Nat → α → α) : Tab α := t.map fun (j, v) => (j, f j v)

/-! ### Sets of numbers, kept in rising order -/

/-- Insert into a rising list without repeats. -/
def sins (a : Nat) : List Nat → List Nat
  | [] => [a]
  | b :: l => if a < b then a :: b :: l else if a = b then b :: l else b :: sins a l

/-- Remove from a list. -/
def sdel (a : Nat) (l : List Nat) : List Nat := l.filter (· ≠ a)

/-- Insert every member of a list. -/
def sall (l s : List Nat) : List Nat := l.foldl (fun s a => sins a s) s

end Sys2Proof.Machine
end

