-- ==== Sys2Proof/Machine/Context.lean ====
section
/-! DEFINITION. What a strand is and holds: its owners' values with what they still have to do, its faults, and the packet that
launched it. A live migration carries these as they stand (R125, R195, R231), so that the syntax of its final round names
them. -/

namespace Sys2Proof

/-- The instruction streams: the five of every owner, in the order C, L, M, V, S of the ring (R183), and
`f`, the firmware context Cobbler of the core (R82). -/
inductive StreamId where
  | c | l | m | v | s | f
  deriving DecidableEq, Repr

/-- The atomic and SC operations on 8 aligned bytes (R353, R354). -/
inductive AtOp where
  | add | swp | cas | max | min | and | or | xor | ld | st
  deriving DecidableEq, Repr

namespace Machine

/-! ### Values of one owner (R172) -/

/-- An x register: its value and its poison tag; a poisoned register's value is the byte address that failed (R192). -/
structure XReg where
  val : W64 := 0
  poison : Bool := false
  deriving DecidableEq, Repr

/-- An address-generator set (R203). -/
structure Ag where
  base : BitVec 32 := 0
  len0 : BitVec 17 := 0
  str1 : BitVec 32 := 0
  cnt1 : BitVec 16 := 0
  step : BitVec 32 := 0
  deriving DecidableEq, Repr

/-- One operand-memory slot as an instruction captures it: 2,048 mantissa bytes and 64 sidecar bytes (R200). -/
structure SlotData where
  mant : Cells 8 := []
  side : Cells 8 := []
  deriving DecidableEq, Repr

/-- One product of a pending MMA or MMAW: the format word it runs under and the captured slots (R361, R363). -/
structure KStep where
  fw : W32
  a : SlotData
  b : SlotData
  deriving DecidableEq, Repr

/-- A pending write into a ring tile (R359). -/
inductive TileWrite where
  /-- products added in order; `clear` sets every element to +0 first -/
  | products (clear : Bool) (ks : List KStep)
  /-- the whole tile is replaced -/
  | whole (rows : Cells 32)
  deriving DecidableEq, Repr

/-- The ring operations of R201. -/
inductive RingOp where
  | radv | rskip | rfree
  deriving DecidableEq, Repr

/-- The vector loads of R343. -/
inductive LdvKind where
  | w | h | hu | b | bu | rw | cw
  deriving DecidableEq, Repr

/-- The vector stores of R346 and R347. -/
inductive StvKind where
  | w | h | hs | b | bs | c
  deriving DecidableEq, Repr

/-- The steps of the threshold store's instructions (R370, R372, R375). Masks are kept as complements, so that all
ones reads 0. -/
inductive ThrOp where
  /-- the store is unconfigured and its previous configuration discarded -/
  | begin
  /-- TCFG takes slot `i` of its 22 as captured -/
  | cfgSlot (i : Nat) (d : SlotData)
  /-- TCFG reads slot `oa + i` in a later tick -/
  | cfgRead (oa i : Nat)
  /-- TCFG's configuration takes effect, with W = 64 >> w -/
  | cfgDone (w : Nat)
  /-- the column masks of sample `s` as tested at issue -/
  | acc (s : Nat) (m : Cells 64)
  /-- TEVAL tests sample `s` in a later tick -/
  | sample (oa s : Nat)
  /-- TEVAL replaces the saved column masks by those of its samples; its exits go to physical tile `t` -/
  | evalDone (t : Nat)
  /-- TCLR -/
  | clear
  deriving DecidableEq, Repr

/-- A read of the window that falls in a later tick of an instruction's occupancy (R198). -/
inductive LateRead where
  /-- the second half of a vector load -/
  | ldv (k : LdvKind) (v : Nat) (ag : Ag) (act : LaneMask)
  /-- row `i` of an LDTF -/
  | ldtf (o : Nat) (ag : Ag) (i : Nat)
  /-- piece `n` of the table of an LDG: destination, exits, band, width W, activity, BASE -/
  | ldg (v : Nat) (exits : Cells 32) (band w : Nat) (act : LaneMask) (base n : Nat)
  deriving DecidableEq, Repr

/-- The kinds of transfer (R204). -/
inductive XKind where
  | rd | rdSp | rdm | wr | wrZ | put | get | sumF | sumI
  | atom (op : AtOp)
  | sc (op : AtOp)
  deriving DecidableEq, Repr

/-- Where an instruction stands: the parcel offset of its section, its block depth, the iterations of its innermost and
outermost blocks, and the engine's status word (R265). -/
structure Loc where
  parcel : Nat := 0
  depth : Nat := 0
  inner : Nat := 0
  outer : Nat := 0
  status : W32 := 0
  deriving DecidableEq, Repr

/-- Where a transfer stands. -/
inductive XState where
  /-- issued; waits for its lane subclass and for the transfers it must follow (R137, R218) -/
  | waiting
  /-- held on a demand page of its VD (R211) -/
  | held (page : Nat)
  /-- an SC operation that waits for its wheel position (R225) -/
  | wheel
  /-- sent to its memory or target -/
  | sent
  /-- performed at its memory or target, its answer on the way -/
  | performed
  /-- landed, its element kept while the completion FIFO is full (R205) -/
  | element
  /-- ended in a fault; its report has not reached the issuing core (R260) -/
  | failed
  deriving DecidableEq, Repr

/-- A line of a core's scratchpad whose bank port an unscheduled requester wants: the row of the time-lost matrix that its wait
goes to, and whether it is the write port (R198, R199). -/
structure PortReq where
  row : Nat
  core : Nat
  wid : Nat
  line : Nat
  wr : Bool
  deriving DecidableEq, Repr

/-- An access to device memory that performs in two parts (R226): the free value at which the choices of its words begin, its
translated lines (address, bytes, dirty bit), and what a read has found first: bytes and poisoned lines. -/
structure Torn where
  f : Nat
  lines : List (Nat × Nat × Bool)
  first : List Byte := []
  bad : List Nat := []
  deriving DecidableEq, Repr

/-- A transfer of an owner (R204, R349), from its issue until it lands. -/
structure Xfer where
  tid : Nat
  core : Nat
  wid : Nat
  sid : Nat
  cid : Nat
  kind : XKind
  cls : Nat
  post : Bool
  seq : Nat
  tick : Nat
  ag : Ag
  /-- e[E] as it stood at the issue tick -/
  ereg : W64
  /-- e[E+1] and e[E+2] -/
  opx : W64
  opnew : W64
  /-- the scratchpad source as it stood at the issue tick, in pattern order, and its poisoned lines (R220) -/
  src : List Byte
  srcPoison : List Nat
  /-- the transfers that must have performed first (R218, R219, R221, R222, R225) -/
  after : List Nat
  state : XState
  /-- an access of which a first part has performed (R226) -/
  torn : Option Torn := none
  /-- the cycle at which its second part is due -/
  landAt : Nat := 0
  /-- its lines' passage through HBM channels: channel, first cycle, cycle after the last (R138); the cycles from there to its landing;
  and the cycle at which its bytes of module memory have passed -/
  pass : List (Nat × Nat × Nat) := []
  hops : Nat := 0
  modAt : Nat := 0
  /-- the bank ports that it still waits for, once it has begun to take them (R199) -/
  todo : Option (List PortReq) := none
  /-- the cause that ended it, 0 if none -/
  status : Nat := 0
  bytes : Nat := 0
  /-- the old value of an atomic or SC operation, as it returns -/
  old : W64 := 0
  /-- the address that its fault record shows, and whether the report has been made -/
  fva : W64 := 0
  reported : Bool := false
  loc : Loc := {}
  deriving DecidableEq, Repr

/-- A completion element (R205), with the transfer it stands for. -/
structure Elem where
  tid : Nat
  cls : BitVec 4
  kind : BitVec 4
  status : BitVec 8
  seq : BitVec 16
  bytes : BitVec 32
  deriving DecidableEq, Repr

/-- What an instruction that issued still has to do, at its due tick (R185). An effect at the end of the issue tick is
due in the next tick. -/
inductive Effect where
  | x (r : BitVec 4) (v : XReg)
  | pred (r : BitVec 3) (b : Bool)
  | ereg (r : BitVec 3) (v : W64)
  | lc (r : BitVec 3) (v : W32)
  | agField (a f : BitVec 3) (v : W64)
  | agUse (a : BitVec 3)
  | fqPush (v : W32)
  | fqPop
  | claim (o n : Nat) (set : Bool)
  | ring (op : RingOp)
  | token (ctr : Nat) (give : Bool)
  /-- bytes of the window, by window address (R217) -/
  | win (bytes : List (Nat × Byte))
  /-- lanes of a vector register; only the active lanes are written (R377) -/
  | vreg (r : Nat) (val : Cells 32) (act : LaneMask)
  | mask (r : BitVec 3) (val act : LaneMask)
  | lam (val : LaneMask)
  | omMant (o : Nat) (val : Cells 8)
  | omSide (o : Nat) (val : Cells 8)
  | tile (t : Nat) (w : TileWrite)
  | thr (op : ThrOp)
  | read (r : LateRead)
  /-- the second half of a vector store: it writes its lines in the tick after its issue (R346) -/
  | port (lines : List Nat) (bytes : List (Nat × Byte))
  | xfer (x : Xfer)
  | fence (mask : BitVec 16)
  /-- removes the completion element of a transfer and acquires the transfer (R221) -/
  | acquire (tid : Nat)
  /-- the stream has executed END (R191) -/
  | ended
  /-- the stream has issued a SYNC (with its domain and budget) or a JOIN (with its id) in this tick (R160, R190) -/
  | rdv (sync : Bool) (dom arg : Nat)
  /-- trace records: MARK, PRODUCT, and the TLM records at the exit from an outermost block (R271, R274) -/
  | mark (tag : BitVec 12)
  | product (fw : W32)
  | tlm
  deriving DecidableEq, Repr

/-- An effect with its due tick, its issue tick, its stream and its instruction. -/
structure Pend where
  due : Nat
  iss : Nat
  str : StreamId
  eff : Effect
  loc : Loc := {}
  deriving DecidableEq, Repr

/-- An open block of a stream (R176, R177): the parcels of its body, its count fixed at entry, the execution in
progress, its stages, and whether an eviction or a resumption changed its course (R188, R189). -/
structure Block where
  start : Nat
  len : Nat
  count : Nat
  stages : Nat
  iter : Nat := 0
  /-- executions the block runs in all from here: count + stages - 1 -/
  total : Nat
  /-- fs cleared by an eviction drain (R118) -/
  drain : Bool := false
  deriving DecidableEq, Repr

/-- One stream of an owner: its image, its program counter, its block state, the tick of its next issue (R179), and
where its last instruction stood, for the heads of the cut (R262). -/
structure Stream where
  img : List Parcel := []
  pc : Nat := 0
  blocks : List Block := []
  next : Nat := 0
  ended : Bool := false
  /-- stopped by a fault of its own (R261, R263) -/
  stopped : Bool := false
  /-- holds for an eviction (R118) -/
  hold : Bool := false
  /-- an eviction drain's depth and restart point (R118, R189) -/
  drainTo : Option (Nat × Nat × List Block) := none
  /-- the last instruction issued: pc, blocks and tick -/
  prevPc : Nat := 0
  prevBlocks : List Block := []
  prevTick : Nat := 0
  deriving DecidableEq, Repr

/-- A bank port in use in the tick, by a scheduled access: the line, whether it is the write port (R198), and the stream that has it,
`f` for an access of an earlier instruction. -/
structure Port where
  line : Nat
  wr : Bool
  str : StreamId := .f
  deriving DecidableEq, Repr

/-- An owner of a core (R172, R132). -/
structure Owner where
  sid : Nat := 0
  cid : Nat := 0
  /-- index of the core in the strand's region (R163 CORE) -/
  region : Nat := 0
  winBase : Nat := 0
  winSize : Nat := 0
  /-- physical OM slots, o0 upward; physical ring tiles in ring order; physical vector registers -/
  oms : List Nat := []
  tiles : List Nat := []
  vbase : Nat := 0
  vcnt : Nat := 0
  /-- matrix context bank, threshold store, wheel position (R133, R135) -/
  mx : Bool := false
  bank : Nat := 0
  thr : Bool := false
  wheel : Bool := false
  /-- the tick in progress; the strand's tick less this one, not 0 where PARK or a weave table has held this owner alone (R134, R414) -/
  tick : Nat := 0
  lag : Int := 0
  /-- parked by PARK; the first cycle at which it goes on after UNPARK; draining, or drained, by PARK (R414, R415) -/
  parked : Bool := false
  resumeAt : Nat := 0
  draining : Bool := false
  x : Tab XReg := []
  p : BitVec 8 := 0
  e : Cells 64 := []
  lc : Cells 32 := []
  ag : Tab Ag := []
  lreg : Cells 64 := []
  fq : List W32 := []
  tok : Cells 4 := []
  claims : BitVec 32 := 0
  full : BitVec 8 := 0
  head : Nat := 0
  tail : Nat := 0
  m : Tab LaneMask := []
  /-- bytes of m0-m7 that fail their parity, as 128·register + byte (R213) -/
  mErr : List Nat := []
  lam : LaneMask := BitVec.allOnes 1024
  sc : Stream := {}
  sl : Stream := {}
  sm : Stream := {}
  sv : Stream := {}
  ss : Stream := {}
  pend : List Pend := []
  ports : List Port := []
  fifo : List Elem := []
  /-- transfers issued, for SEQ (R205) -/
  seq : Nat := 0
  /-- transfers that every later transfer follows (R219, R221, R222, R225) -/
  fenced : List Nat := []
  /-- classes in which a transfer has ended in a fault: no later one performs (R231) -/
  barred : BitVec 16 := 0
  /-- the own transfers that have landed since the last SYNC of this core ended: issue tick, cycle of the landing, and bank of the
  first line of the scratchpad side (R164, R274) -/
  lands : List (Nat × Nat × Nat) := []
  /-- time-lost counters, row·32 + bank (R274); as they stood at the last SYNC boundary; and for the windows of R105:
  the window, the counters at its start, and what the last closed window counted -/
  tlm : Cells 32 := []
  tlmSync : Cells 32 := []
  tlmWin : Nat × Cells 32 × Cells 32 := (0, [], [])
  /-- energy accumulator in nJ (R170) -/
  energy : Nat := 0
  /-- parcels of owner instruction memory that fail SEC-DED: stream section (0-4) and parcel (R213) -/
  imErr : List (Nat × Nat) := []
  /-- it has faulted its strand with CORE_LOST (R268) -/
  lost : Bool := false
  deriving DecidableEq, Repr

/-! ### Strands (chapters 06-08, 14) -/

/-- Where a strand stands. -/
inductive StrandState where
  | staging | armed | running | stalled | parked | draining | evicted | resuming | stopping | faultHeld | done
  deriving DecidableEq, Repr

/-- The fault causes of R260, by code. -/
inductive Cause where
  | scheduleMiss | tokenOverflow | fqUnderflow | fqOverflow | formatInvalid | omUnclaimed | omClaimConflict
  | ringOverrun | ringUnderrun | laneFault | poisonConsumed | predConflict | bankConflict | patternMismatch
  | windowFault | rendezvousMismatch | transferTranslation | transferAccess | transferUncorrectable | trap
  | watchdog | thresholdBusy | sourceLost | replayDivergence | operandParity | coreLost
  deriving DecidableEq, Repr

/-- A fault as it arises: its cause, where, in which stream (`f` stands for none), and what the record shows (R265). -/
structure FaultEv where
  cause : Cause
  core : Nat
  wid : Nat
  region : Nat
  str : StreamId
  async : Bool := false
  addr : W64 := 0
  lanes : LaneMask := 0
  loc : Loc := {}
  /-- the token counters that the instruction would have given to: one that cannot take the give decides its fault (R184, R317) -/
  gives : List Nat := []
  deriving DecidableEq, Repr

/-- The primary fault of a strand: its tick, its stop tick, its secondary count (R261, R263). -/
structure Primary where
  ev : FaultEv
  tick : Nat
  stop : Nat
  secondary : Nat := 0
  deriving DecidableEq, Repr

/-- A SYNC in progress on some cores of a strand (R160-R164): its tick, budget, level, and the region cores that
issued it. -/
structure SyncRec where
  tick : Nat
  budget : Nat
  level : Nat
  cores : List Nat
  deriving DecidableEq, Repr

/-- Why a strand's streams are to be cut at a tick. -/
inductive CutKind where
  /-- `discard`: the strand stops there and is discarded (R33) -/
  | park | halt | breakpoint | discard
  deriving DecidableEq, Repr

/-- A re-phasing in progress (R149-R151): the switch cycle, the new class and the new subclass phases. -/
structure Rephase where
  cyc : Nat
  stride : Nat
  phase : Nat
  lanes : List (Nat × Nat)
  hbmP : Nat
  deriving DecidableEq, Repr

/-- A strand: one admitted timetable across its cores. -/
structure Strand where
  /-- the LAUNCH: its packet run, function, queue, TAG, container and argument block -/
  run : Nat := 0
  fn : Nat := 0
  q : Nat := 0
  tag : W32 := 0
  cont : Nat := 0
  args : Nat := 0
  cid : Nat := 0
  prio : Nat := 0
  /-- order of admission, latest highest; the timebase at admission (R91) -/
  order : Nat := 0
  admitted : Nat := 0
  /-- the region: shape and origin core -/
  w : Nat := 1
  h : Nat := 1
  x0 : Nat := 0
  y0 : Nat := 0
  /-- weave id on each core of the region, in region order; 8 where its owner has departed -/
  wids : List Nat := []
  smin : Nat := 1
  smax : Nat := 32
  stride : Nat := 1
  phase : Nat := 0
  /-- what it holds per core: the window bytes of its VD (R197); the OM slots, ring tiles, vector registers, matrix
  context, threshold store and bytes of owner instruction memory that its container needs; and the domain levels it uses,
  as a bit mask (R296) -/
  win : Nat := 4096
  om : Nat := 0
  ring : Nat := 0
  vregs : Nat := 0
  matrix : Bool := false
  thr : Bool := false
  imem : Nat := 0
  levels : Nat := 0
  /-- transfer lane and subclass phase of each region core, HBM subclass, module-memory share (R137-R139) -/
  txrate : Nat := 1
  lanes : List (Nat × Nat) := []
  hbmrate : Nat := 1
  hbmP : Nat := 0
  mmrate : Nat := 0
  scuse : Bool := false
  remote : Bool := false
  /-- the first cycle left on each HBM channel, and on the module-memory share, by its requests so far (R138, R55) -/
  hbmFree : Tab Nat := []
  /-- lines that its transfers have read, by 64 KiB page of its VD (R143) -/
  reads : Tab Nat := []
  modFree : Nat := 0
  gid : Nat := 0
  g5 : Bool := false
  /-- heads of the container's eviction points, five parcel offsets each (R296) -/
  evPoints : List (List Nat) := []
  state : StrandState := .staging
  start : Nat := 0
  /-- ticks executed; the tick in progress is `tick - 1` while it runs -/
  tick : Nat := 0
  /-- a tick runs in the present cycle -/
  inTick : Bool := false
  /-- first cycle at which the next tick may fall (after a stall or park) -/
  notBefore : Nat := 0
  /-- the stop distance D (R261) -/
  dist : Nat := 0
  syncs : List SyncRec := []
  /-- barrier generation of level-5 SYNCs, and whether the release has arrived (R53) -/
  gen : Nat := 0
  released : Bool := true
  /-- the barrier of this generation has failed (R45, R53) -/
  barLost : Bool := false
  /-- stalled at this tick's end; the cycle of the last covered landing, if all have landed (R164) -/
  overdue : Bool := false
  stallAt : Nat := 0
  stallFrom : Nat := 0
  /-- cycle in which the release of a level-5 SYNC arrived -/
  relAt : Nat := 0
  stallCount : Nat := 0
  overrun : Nat := 0
  /-- strand watchdog: limit and count (R167) -/
  wdLimit : Nat := 0
  wd : Nat := 0
  /-- faults of the tick in progress, and the primary fault -/
  faults : List FaultEv := []
  primary : Option Primary := none
  /-- a cut at the end of a tick -/
  cut : Option (Nat × CutKind) := none
  /-- an eviction request's first allowed tick (R118), and the saved tick -/
  evict : Option Nat := none
  /-- what an eviction saved of each owner beside the memory images (R112, R119) -/
  savedOwners : List Owner := []
  /-- its records in the context region, by region core, and the Cobbler SVN that wrote them (R112) -/
  ctxRecs : List Nat := []
  savedSvn : BitVec 16 := 0
  /-- evicted, its resumption was tried and nothing has changed since -/
  tried : Bool := false
  /-- every core has reported ready, and the start cycle names this start (R155) -/
  ready : Bool := false
  savedTick : Nat := 0
  parkFlag : Bool := false
  rephase : Option Rephase := none
  /-- residency lease: ns at which it expires while it runs, or ns left while parked (R122) -/
  leaseEnd : Nat := 0
  leaseLeft : Nat := 0
  /-- energy charged to the launch so far, in pJ (R169, R170) -/
  energy : Nat := 0
  /-- that energy at its last SYNC boundary (R105) -/
  energySync : Nat := 0
  status : Nat := 0
  /-- it is to be discarded at its stop (R33) -/
  doomed : Bool := false
  /-- replay mode at admission, recording VA, superstep number (R276-R278) -/
  replay : Nat := 0
  recVa : Nat := 0
  /-- divergences met so far -/
  diverged : Bool := false
  step : Nat := 0
  /-- bytes of its container and of its argument block that staging has read and counted (R97) -/
  staged : Nat × Nat := (0, 0)
  /-- index of the record of a divergence that halted it: its kind-3 entry shows the status of the LAUNCH (R75) -/
  divRec : Option Nat := none
  /-- transfers that delivered data and that no SYNC has covered yet: region core, SEQ, issue tick, bytes (R277) -/
  delivered : List (Nat × Nat × Nat × List Byte) := []
  deriving DecidableEq, Repr

/-- Whether a strand holds its grants: it is not evicted, nor done, and an owner of it has not departed (R147). -/
def Strand.granted (t : Strand) : Bool := decide (t.state ≠ .evicted ∧ t.state ≠ .done) && t.wids.any (· < 8)

/-! ### The packet of a LAUNCH -/

/-- A packet: eight 64-bit words (R60). -/
structure Packet where
  w0 : W64 := 0
  w1 : W64 := 0
  w2 : W64 := 0
  w3 : W64 := 0
  w4 : W64 := 0
  w5 : W64 := 0
  w6 : W64 := 0
  w7 : W64 := 0
  deriving DecidableEq, Repr

end Machine

end Sys2Proof
end

