-- ==== Sys2Proof/Syntax.lean ====
section
/-! DEFINITION. The abstract syntax: `Instr`, one constructor for every row of spec/opcode_table.json (388; Lean's runtime builds
no constructor with fields past the 244th, so definitions that build a V- or S-stream instruction are marked
noncomputable: the kernel evaluates them all the same).
The rows with an encoding carry the operand fields of their format (R298-R311). The rows without one are
the part's operations and events (95_what_each_step_holds.md); they carry the operands their rule names. -/

namespace Sys2Proof

/-- What every encoded instruction carries beside its operands: the idle count, the token bits
(GL, GR, TL, TR from the high bit, R281) and the guard field (R181). A short form has a 2-bit idle count
and no guard; an unguarded long form has no guard. `Instr.wellFormed` says so. -/
structure Hd where
  idle : BitVec 4
  tok : BitVec 4
  g : BitVec 4
  deriving DecidableEq, Repr

/-- A TDISP request (R38). -/
inductive TdispOp where
  | lock | start | stop | report
  deriving DecidableEq, Repr

/-- Where an access of the host lands: the offset in the window, the IDE stream on which it fails its check, if it does (R37), and, of a
write of a register, the EP bit of its TLP (R22). -/
structure HostAddr where
  off : Nat
  ide : Option Nat
  ep : Bool := false
  deriving DecidableEq, Repr

/-- A read of host memory for a queue that gets no data: the queue, and the IDE stream on which its completion failed its check and was
dropped, if one did (R37). -/
structure HostRead where
  q : Nat
  ide : Option Nat
  deriving DecidableEq, Repr

/-- What the MF's BAR2 is written with: the bytes, and the EP bit of the TLP (R22). -/
structure HostData where
  bytes : List Byte
  ep : Bool
  deriving DecidableEq, Repr

/-- A 64 KiB page as post-copy moves it: its bytes, and its poisoned 64-byte lines (R126). -/
structure PageImage where
  bytes : List Byte
  poison : List Nat
  deriving DecidableEq, Repr

/-- What a peer asks of the target hub (R49). -/
inductive PeerOp where
  /-- a read of `len` bytes -/
  | read (len : Nat)
  /-- a write, of memory or of packets into a ring; `poison` marks 64-byte lines of the target that the
  data poisons -/
  | write (data : List Byte) (poison : List Nat)
  /-- an `XAT.*` -/
  | atomic (op : AtOp) (x new : W64)
  /-- an `XSC.*`, at a fabric-proxy position (R224) -/
  | sc (op : AtOp) (x new : W64)
  /-- a notify of a queue -/
  | notify (q : Nat) (v : BitVec 32)
  /-- the decrement of a signal for a completed packet (R72) -/
  | signalDec (w3 : W64) (tag : BitVec 32) (q : Nat)
  /-- the value that a SIGNAL packet writes to a signal of the target (R70, R72) -/
  | signalSet (w3 v : W64) (tag : BitVec 32) (q : Nat)
  /-- the read of a WAIT's signal by the CFE of the source -/
  | signalRead
  deriving DecidableEq, Repr

/-- A request of a peer device as it reaches this hub (R49): the source device and CID, the target CID,
the ordering class, and the target VA. `back` numbers the request at its source. -/
structure PeerReq where
  src : Nat
  scid : Nat
  tcid : Nat
  cls : Nat
  va : Nat
  op : PeerOp
  back : Nat
  deriving DecidableEq, Repr

/-- What a peer answers to a request this device sent (R45, R49): a status (0, or the fault cause code)
and the bytes read or the old value. -/
structure RemoteResp where
  status : Nat
  data : List Byte
  poison : List Nat
  deriving DecidableEq, Repr

/-- A 256-byte flit of the Kallitu Link (R40), field by field. -/
structure Flit where
  seq : BitVec 12
  kind : BitVec 4
  dst : BitVec 16
  src : BitVec 16
  cid : BitVec 16
  payload : List Byte
  crc : W64
  deriving DecidableEq, Repr

/-- What the final round of a live migration carries (R125 step 5): pages by number (VA >> 16) with their
bytes, the context region, the QCBs and CQ descriptors as words, the COPY progress records, the pending
mailbox entries, the HANDOFF records, and with post-copy the outstanding pages instead of their bytes. -/
structure MigImage where
  /-- the source device and CID -/
  src : Nat × Nat
  /-- pages with their bytes and their poisoned 64-byte lines -/
  pages : List (Nat × List Byte × List Nat)
  context : List Byte
  /-- the strands of the context region, as they were saved, each with the packet of its LAUNCH -/
  strands : List (Machine.Strand × Machine.Packet)
  qcbs : List (Nat × List W64)
  cqs : List (Nat × List W64)
  copies : List (List W64)
  mailbox : List (List W64)
  handoffs : List (List Byte)
  outstanding : List Nat
  post : Bool
  deriving DecidableEq, Repr

/-- The operations of the part, one constructor per row of spec/opcode_table.json. -/
inductive Instr where
  /-- `COLD_RESET` (R14): The BMC asserts cold reset with PERST#; on leaving it the timebase and every other state are zeroed. -/
  | coldReset
  /-- `POWER_UP_SEQUENCE` (R11): The BMC raises the rails in order and releases cold reset when every rail reports good. -/
  | powerUpSequence
  /-- `RAIL_FAULT` (R11): A rail fault makes the BMC remove every rail in reverse order, losing all package state. -/
  | railFault
  /-- `FIRMWARE_BOOT` (R87): After cold reset the boot ROM loads and verifies the hub, Cobbler, base-die and module-memory-controller images. -/
  | firmwareBoot
  /-- `JUNCTION_SENSOR_READ` (R12): Every 2,048 cycles the hub reads the junction sensors and acts on the temperature thresholds. -/
  | junctionSensorRead (temps : List Nat)
  /-- `GOVERNOR_REVOLUTION` (R16): At the end of each 2,048-cycle revolution the governor averages power and lowers, raises or holds the frequency step. -/
  | governorRevolution (meanMw : Nat)
  /-- `CEILING_SET` (R18): The BMC imposes a ceiling step CEIL over I3C, and the governor moves to it at the next revolution boundary if it runs faster. -/
  | ceilingSet (ceil : Nat)
  /-- `HB_PWR_CAP_WRITE` (R19): A write of the power cap is clamped to 500-2000 W and applies from the next revolution boundary. -/
  | hbPwrCapWrite (v : BitVec 64)
  /-- `HBM_REFRESH` (R7): Each base die refreshes in its reserved channel slot, one in every 16 cycles. -/
  | hbmRefresh
  /-- `HOT_RESET` (R32): A PCIe hot reset, link disable or link down resets all functions and the hub blocks, keeping partitions, meters and clocks. -/
  | hotReset
  /-- `MF_FLR` (R32): An FLR of function 0 resets the MF's queues, CQs, MSI-X and HB_MF_APR. -/
  | mfFlr
  /-- `PF_FLR` (R32): An FLR of PF n destroys its VD and every VF's VD and clears VF Enable and NumVFs. -/
  | pfFlr (pf : Nat)
  /-- `VF_FLR` (R33): An FLR destroys the function's VD: drop accesses, stop strands, drain transfers, checkpoint meters and reset registers. -/
  | vfFlr (fn : Nat)
  /-- `VF_ENABLE_WRITE` (R24): A write of VF Enable creates the VFs unless the VF pool would exceed 256 or the partition does not exist. -/
  | vfEnableWrite (pf : Nat) (en : Bool)
  /-- `NUMVFS_WRITE` (R24): A NumVFs write sets the VF count and First VF Offsets, and is ignored while VF Enable is 1. -/
  | numvfsWrite (pf : Nat) (n : Nat)
  /-- `TDISP_REQUEST` (R38): A TDISP request over DOE locks, starts, stops or reports on a PF or VF TDI. -/
  | tdispRequest (fn : Nat) (r : TdispOp)
  /-- `IDE_KEY_PROGRAMMING` (R37): IDE_KM over the MF's DOE mailbox programs the keys of a link or selective IDE stream. -/
  | ideKeyProgramming (stream : Nat) (key : Nat)
  /-- `HOST_BAR2_READ` (R30): A host read through a function's BAR2 window is translated as a transfer and counted in unsealed meters. -/
  | hostBar2Read (fn : Nat) (at_ : HostAddr) (len : Nat)
  /-- `HOST_BAR2_WRITE` (R30): A host write through a function's BAR2 window is translated and performed, or dropped and logged as Completer Abort. -/
  | hostBar2Write (fn : Nat) (off : Nat) (data : List Byte) (ep : Bool) (ide : Option Nat)
  /-- `MF_APERTURE_ACCESS` (R31): An MF BAR2 access reaches HBM physical addresses through HB_MF_APR. -/
  | mfApertureAccess (at_ : HostAddr) (len : Nat) (wr : Option HostData)
  /-- `UNDECODED_REQUEST` (R25): A memory request that no BAR decodes completes with Unsupported Request, logged in the MF's AER. -/
  | undecodedRequest (addr : HostAddr)
  /-- `HOST_READ_COMPLETION_TIMEOUT` (R35): A device read of host memory that times out is logged in the issuing function and posted to its VD's error CQ. -/
  | hostReadCompletionTimeout (fn : Nat) (q : HostRead)
  /-- `MSIX_VECTOR_UNMASK` (R36): Unmasking a vector with its PBA bit set sends one message. -/
  | msixVectorUnmask (fn : Nat) (vec : Nat)
  /-- `REGISTER_WRITE` (R3): A write to a register with no row of its own acts by its access code. -/
  | registerWrite (fn : Nat) (at_ : HostAddr) (size : Nat) (v : BitVec 64)
  /-- `HB_ACT_DENY_READ` (R50): A read of the denial FIFO word returns and removes the oldest record and latches its VA. -/
  | hbActDenyRead
  /-- `KLK_FLIT_RECEIVE` (R40): A KLK port receives a 256-byte flit and checks its CRC, kind and reserved fields. -/
  | klkFlitReceive (port : Nat) (f : Flit)
  /-- `KLK_NAK_RECEIVE` (R41): A nak makes the sender replay from the named flit; eight failures in a row take the port down to retrain. -/
  | klkNakReceive (port : Nat) (seq : Nat)
  /-- `KLK_ACK_RECEIVE` (R41): An ack frees acknowledged flits from the replay buffer. -/
  | klkAckReceive (port : Nat) (seq : Nat)
  /-- `KLK_PORT_TRAINED` (R41): A port that trains resumes replay from its unacknowledged flits and sends waiting requests. -/
  | klkPortTrained (port : Nat)
  /-- `KLK_RETRAIN_TIMEOUT` (R41): A port that has not trained again within 10 ms stays down. -/
  | klkRetrainTimeout (port : Nat)
  /-- `HB_KLK_ID_WRITE` (R43): A write of the device id or join bit, ignored while any VD has a remote window enabled. -/
  | hbKlkIdWrite (v : BitVec 64)
  /-- `HB_KLK_ROUTE_WRITE` (R44): A write of a route entry, held until every request already sent to that destination has completed. -/
  | hbKlkRouteWrite (dst : Nat) (v : BitVec 64)
  /-- `ROUTE_CHANGE_APPLY` (R44): The held route entry takes effect once the old path's requests have completed. -/
  | routeChangeApply (dst : Nat)
  /-- `KLK_REQUEST_TIMEOUT` (R45): A remote request that has waited HB_KLK_TMO ends with poisoned data, TRANSFER_UNCORRECTABLE or SOURCE_LOST. -/
  | klkRequestTimeout (rid : Nat)
  /-- `PEER_REQUEST_ARRIVAL` (R49): The target hub checks an incoming remote request against HB_ACT and performs it as the target VD, or denies it. -/
  | peerRequestArrival (r : PeerReq)
  /-- `BARRIER_ARRIVAL` (R53): A barrier flit reaches the root; with N arrivals it sends a release flit to every member. -/
  | barrierArrival (gid : Nat) (gen : Nat) (dev : Nat)
  /-- `BARRIER_RELEASE` (R53): A release flit reaches a member and ends its level-5 SYNC. -/
  | barrierRelease (gid : Nat) (gen : Nat)
  /-- `NOTIFY` (R29): A write to a queue's notify register sets its notified write index and starts validation. -/
  | notify (fn : Nat) (q : Nat) (v : BitVec 32)
  /-- `QUEUE_DISABLE` (R58): Writing STATE = 0 stops fetching while started packets complete. -/
  | queueDisable (fn : Nat) (q : Nat)
  /-- `QUEUE_ENABLE` (R65): Writing STATE = 1 from 0 resumes at RIDX and runs the ring checks at once. -/
  | queueEnable (fn : Nat) (q : Nat)
  /-- `PACKET_FETCH` (R66): While RIDX differs from WIDX the CFE reads the packet at slot RIDX and makes it the head or stops. -/
  | packetFetch (fn : Nat) (q : Nat)
  /-- `NOP_PACKET` (R70): A NOP packet performs nothing and completes at once. -/
  | nopPacket (fn : Nat) (q : Nat)
  /-- `LAUNCH_PACKET` (R70): A LAUNCH packet requests admission, staging and start of its container. -/
  | launchPacket (fn : Nat) (q : Nat)
  /-- `WAIT_PACKET` (R70): A WAIT head completes when its signal's value is at most w5. -/
  | waitPacket (fn : Nat) (q : Nat)
  /-- `SIGNAL_PACKET` (R70): A SIGNAL packet writes w5 to its signal's value with release. -/
  | signalPacket (fn : Nat) (q : Nat)
  /-- `COPY_PACKET` (R78): A COPY packet starts moving w5 bytes in 4 KiB chunks as transfers of the VD. -/
  | copyPacket (fn : Nat) (q : Nat)
  /-- `INVAL_PACKET` (R70): An INVAL packet invalidates a VD's translations for a range or all pages. -/
  | invalPacket (fn : Nat) (q : Nat)
  /-- `WAIT_REREAD` (R70): Every 1 microsecond the CFE rereads a WAIT head's signal. -/
  | waitReread (fn : Nat) (q : Nat)
  /-- `LAUNCH_AGING_STEP` (R69): Each 10 ms that a LAUNCH head waits adds one aging level, up to priority 7. -/
  | launchAgingStep (fn : Nat) (q : Nat)
  /-- `COPY_CHUNK` (R78): A COPY chunk completes, and the next chunk is read, or the copy ends. -/
  | copyChunk (id : Nat)
  /-- `INVAL_COMPLETION` (R212): An INVAL completes once every transfer that used an old translation has landed. -/
  | invalCompletion (id : Nat)
  /-- `PACKET_COMPLETION` (R72): A packet completes; its signal is decremented and its completion entry is posted. -/
  | packetCompletion (id : Nat)
  /-- `CQ_ENABLE` (R73): Setting EN zeroes WIDX, and is ignored for a misaligned BASE or bad SIZE. -/
  | cqEnable (fn : Nat) (n : Nat) (v : BitVec 64)
  /-- `CQ_COALESCE_TIMEOUT` (R76): TMR microseconds after the first pending entry the CQ sends its message. -/
  | cqCoalesceTimeout (fn : Nat) (n : Nat)
  /-- `ATTESTATION_REQUEST` (R92): GO in HB_ATT, or an SPDM request, captures a report's fields. -/
  | attestationRequest (fn : Nat) (nonce : Option (List Byte))
  /-- `ATTESTATION_REPORT_WRITE` (R93): The signed report is written at DEST and ST records the outcome. -/
  | attestationReportWrite (fn : Nat)
  /-- `FIRMWARE_WATCHDOG_EXPIRY` (R86): When a core's count reaches LIMIT the Cobbler context is reset, or the core is locked out on a second reset. -/
  | firmwareWatchdogExpiry (core : Nat)
  /-- `CORE_LOCKOUT` (R85): An uncorrectable firmware-memory error locks the core out; its strands fault with CORE_LOST. -/
  | coreLockout (core : Nat)
  /-- `COBBLER_EVENT_DISPATCH` (R407): An idle Cobbler takes the oldest event, loads its word and arguments, and starts its handler. -/
  | cobblerEventDispatch (core : Nat)
  /-- `METER_OPEN` (R96): Writing V = 1 opens a meter with a random MID and marks the region's PTEs. -/
  | meterOpen (i : Nat)
  /-- `METER_SEAL` (R96): Writing SEAL = 1 digests the region, writes a SEAL record and refuses later writes. -/
  | meterSeal (i : Nat)
  /-- `METER_RETIRE` (R96): Writing RETIRE = 1 writes a RETIRE record and closes the meter. -/
  | meterRetire (i : Nat)
  /-- `METER_CHECKPOINT` (R99): Every WM_CKPT.SEC seconds each open meter captures a CHECKPOINT record. -/
  | meterCheckpoint
  /-- `METER_RECORD_WRITE` (R100): A captured record is signed, chained and written to the tenant and operator logs when room allows. -/
  | meterRecordWrite (i : Nat)
  /-- `TENANT_LOG_RIDX_WRITE` (R101): A write of the tenant log's RIDX frees room, or is ignored if it would exceed the capacity. -/
  | tenantLogRidxWrite (cid : Nat) (v : BitVec 32)
  /-- `METER_CONTINUATION` (R103): WM_CONT GO verifies a last record and opens a meter with CONTINUATION and GAP records. -/
  | meterContinuation
  /-- `PARTITION_CREATE` (R108): Writing V from 0 to 1 creates a partition if its rectangle fits and overlaps none. -/
  | partitionCreate (n : Nat) (v : BitVec 64)
  /-- `PARTITION_RESIZE` (R108): A field write to an existing partition changes its rectangle, only by growth while it holds VDs. -/
  | partitionResize (n : Nat) (v : BitVec 64)
  /-- `PARTITION_REMOVE` (R108): Writing V = 0 to an empty partition removes it and clears its PF's VF state. -/
  | partitionRemove (n : Nat)
  /-- `VD_CREATE` (R110): HB_VDCMD OP 1 checks the descriptor and policy and creates a VD. -/
  | vdCreate
  /-- `VD_DESTROY` (R110): HB_VDCMD OP 2 destroys a VD as by FLR and frees its CID. -/
  | vdDestroy
  /-- `VD_CREATE_INCOMING` (R110): HB_VDCMD OP 3 creates a VD in INCOMING state as a migration destination. -/
  | vdCreateIncoming
  /-- `STRAND_PARK` (R116): A park cut freezes a strand at tick T with its classes held. -/
  | strandPark (sid : Nat) (tick : Nat)
  /-- `STRAND_UNPARK` (R116): Unpark resumes the strand at tick T+1. -/
  | strandUnpark (sid : Nat) (cyc : Nat)
  /-- `EVICTION_REQUEST` (R118): An eviction request waits for the first eviction point at or after Q + D. -/
  | evictionRequest (sid : Nat)
  /-- `EVICTION_DRAIN` (R118): At the eviction point the streams drain their pipelined blocks and hold while issued work lands. -/
  | evictionDrain (sid : Nat)
  /-- `EVICTION_SAVE` (R119): When the drain has ended the CSE writes the core records and strand entry, and the cores are freed. -/
  | evictionSave (sid : Nat)
  /-- `STRAND_RESUME` (R121): An evicted strand is re-admitted, zeroed, restored and restarted at E' + 1. -/
  | strandResume (sid : Nat)
  /-- `LEASE_EXPIRY` (R122): A strand's residency lease expires, so it may be evicted for a higher-priority waiting LAUNCH. -/
  | leaseExpiry (sid : Nat)
  /-- `MIGRATION_START` (R123): PLC_MIG OP 1 checks the destination VD and sets every dirty bit. -/
  | migrationStart
  /-- `MIGRATION_PRECOPY_ROUND` (R124): OP 2 fetches and clears the dirty bitmaps and copies the dirty pages. -/
  | migrationPrecopyRound
  /-- `MIGRATION_STOP` (R125): OP 3 suspends queues, evicts strands, stops the VD, hands off meters and sends the final round. -/
  | migrationStop
  /-- `MIGRATION_ABORT` (R125): OP 4 before the stop returns the VD to ACTIVE. -/
  | migrationAbort
  /-- `MIGRATION_LINK_LOST` (R125): A lost link after the stop ends the migration with ST = 4, and the source stays STOPPED. -/
  | migrationLinkLost
  /-- `MIGRATION_FINAL_ARRIVAL` (R126): The final round arrives; the destination resumes strands and COPYs and enters ACTIVE or POSTCOPY. -/
  | migrationFinalArrival (cid : Nat) (img : MigImage)
  /-- `POSTCOPY_PAGE_PULL` (R126): An access to an outstanding page holds and pulls the page from the source. -/
  | postcopyPagePull (cid : Nat) (page : Nat)
  /-- `POSTCOPY_PAGE_PUSH` (R126): The source pushes outstanding pages in page order. -/
  | postcopyPagePush (cid : Nat)
  /-- `POSTCOPY_PAGE_ARRIVAL` (R126): A page arrives and is installed once; with none outstanding the VD enters ACTIVE. -/
  | postcopyPageArrival (cid : Nat) (page : Nat) (data : PageImage)
  /-- `POSTCOPY_PULL_TIMEOUT` (R127): A pull beyond its limit loses the page; strands fault with SOURCE_LOST and the VD fails. -/
  | postcopyPullTimeout (cid : Nat) (page : Nat)
  /-- `ADMISSION_ATTEMPT` (R145): The placer examines a LAUNCH head, checks it and searches for a placement, or refuses it or leaves it waiting. -/
  | admissionAttempt (fn : Nat) (q : Nat)
  /-- `CONTAINER_STAGING` (R297): Staging reads, checks and decodes the container for every core of the region. -/
  | containerStaging (sid : Nat)
  /-- `START_DECISION` (R155): At s - 320 the CFE injects the start pulse if every core is ready, or slips the start. -/
  | startDecision (sid : Nat)
  /-- `WEAVE_SWITCH` (R134): At the switch cycle the core takes the pending weave table and records. -/
  | weaveSwitch (core : Nat)
  /-- `REPHASE_SWITCH` (R149): At switch cycle C every core of a strand moves it to its new class and subclasses. -/
  | rephaseSwitch (sid : Nat)
  /-- `OWNER_DEPART` (R147): An owner departs and frees its grants. -/
  | ownerDepart (core : Nat) (wid : Nat)
  /-- `NSCLK_WRITE` (R159): A write sets the nanosecond clock from the next edge, unless it is below the current reading. -/
  | nsclkWrite (v : BitVec 64)
  /-- `TRANSFER_DISPATCH` (R137): A queued transfer takes its lane subclass cycle, translates and is sent to its memory or target. -/
  | transferDispatch (tid : Nat)
  /-- `PAGE_REQUEST_POST` (R211): The hub posts one page request per page to the VD's page-request queue when room allows. -/
  | pageRequestPost (cid : Nat)
  /-- `PAGE_DONE` (R211): A write to DONE retries every request held on that page. -/
  | pageDone (cid : Nat) (page : Nat)
  /-- `PRQ_ENABLE` (R211): Setting EN in HB_PRQ zeroes WIDX, and is ignored for a bad BASE or SIZE. -/
  | prqEnable (cid : Nat) (v : BitVec 64)
  /-- `TRANSFER_LANDING` (R161): A transfer lands; it posts its completion element and counts against the covering SYNC. -/
  | transferLanding (tid : Nat) (resp : Option RemoteResp)
  /-- `REMOTE_PUT_ARRIVAL` (R223): A remote put or sum writes the target window as an unscheduled request. -/
  | remotePutArrival (tid : Nat)
  /-- `SC_OPERATION_PERFORM` (R224): An SC operation performs at its core's wheel position in the device's total order. -/
  | scOperationPerform (tid : Nat)
  /-- `SYNC_STALL_END` (R164): N cycles after the last covered transfer lands, an overrun strand resumes at the next class cycle. -/
  | syncStallEnd (sid : Nat)
  /-- `STRAND_WATCHDOG_EXPIRY` (R167): The strand watchdog reaches its limit and raises WATCHDOG. -/
  | strandWatchdogExpiry (sid : Nat)
  /-- `RESULT_WRITEBACK` (R185): An issued instruction's result becomes visible at its due tick. -/
  | resultWriteback (core : Nat) (wid : Nat)
  /-- `ASYNC_FAULT_REPORT` (R260): A transfer unit's or the hub's fault report reaches the issuing core and fixes fault tick T. -/
  | asyncFaultReport (tid : Nat)
  /-- `STRAND_STOP` (R261): At stop tick T + D every stream stops at the cut and the strand departs or holds. -/
  | strandStop (sid : Nat)
  /-- `FAULT_RING_ENABLE` (R266): Setting EN in HB_FLT zeroes WIDX, and is ignored for a bad BASE or SIZE. -/
  | faultRingEnable (fn : Nat) (v : BitVec 64)
  /-- `DEBUG_HALT` (R270): HB_DBG OP 1 cuts the strand at Q + D and parks it. -/
  | debugHalt (cid : Nat)
  /-- `DEBUG_RESUME` (R270): HB_DBG OP 2 unparks a halted strand. -/
  | debugResume (cid : Nat)
  /-- `BREAKPOINT_SET` (R270): HB_DBG OP 3 sets a breakpoint on an instruction and iteration, or on a tick. -/
  | breakpointSet (cid : Nat)
  /-- `BREAKPOINT_CLEAR` (R270): HB_DBG OP 4 clears a breakpoint. -/
  | breakpointClear (cid : Nat)
  /-- `DEBUG_DUMP` (R270): HB_DBG OP 5 writes each core's record of a parked strand at DVA. -/
  | debugDump (cid : Nat)
  /-- `DEBUG_RELEASE` (R270): HB_DBG OP 6 lets a fault-held strand depart. -/
  | debugRelease (cid : Nat)
  /-- `TRACE_ENABLE` (R272): Setting EN in TRC_ starts tracing, and is ignored for a bad base or size. -/
  | traceEnable (cid : Nat) (v : BitVec 64)
  /-- `CSE_DONE` (R418): A CSE save or restore completes and posts CSE_DONE with its status. -/
  | cseDone (core : Nat)
  /-- `XPHY_DONE` (R419): A Cobbler physical transfer lands and posts XPHY_DONE. -/
  | xphyDone (core : Nat) (n : Nat)
  /-- `RC_REGISTER_READ` (R3): A read of an RC field returns the field and clears it to 0 in the same access, with a coinciding hardware update applied after the clear. -/
  | rcRegisterRead (fn : Nat) (at_ : HostAddr)
  /-- `PCIE_LINK_TRAINING` (R21): The host port trains or retrains its link to a supported rate and width, or changes width under L0p. -/
  | pcieLinkTraining (gen : Nat) (width : Nat) (flit : Bool)
  /-- `KLK_PORT_DOWN` (R41): A trained Kallitu Link port loses its link, clears its PORTUP bit and stops carrying flits while keeping its replay buffer. -/
  | klkPortDown (port : Nat)
  /-- `ZFILL_ZEROED` (R417): Every part selected by a ZFILL has been zeroed at free write ports, and ZFILL releases Cobbler with x[A] := 0. -/
  | zfillZeroed (core : Nat)
  /-- `POSTCOPY_SOURCE_FREE` (R126): The source receives the destination's notice that no page is outstanding and frees its pages of the VD. -/
  | postcopySourceFree (cid : Nat)
  /-- `BLOCK_HEADER` (R301): Opens a block whose count is fixed at entry. -/
  | blockHeader (len : BitVec 12) (cs : BitVec 1) (stg : BitVec 3) (cnt : BitVec 12)
  /-- `NOP` (R318): Does nothing. -/
  | nop (h : Hd)
  /-- `END` (R191): Ends the stream. -/
  | endS (h : Hd)
  /-- `IDLE` (R318): Idles n ticks. -/
  | idle (h : Hd) (k : BitVec 12)
  /-- `JOIN` (R190): Rendezvous of the core's five streams. -/
  | join (h : Hd) (k : BitVec 12)
  /-- `SYNC` (R160): Closes a superstep with a domain and budget. -/
  | sync (h : Hd) (a : BitVec 4) (k : BitVec 12)
  /-- `MARK` (R319): Writes a MARK trace record. -/
  | mark (h : Hd) (k : BitVec 12)
  /-- `INC` (R336): x[A] + 1. -/
  | inc (h : Hd) (a : BitVec 4)
  /-- `DEC` (R336): x[A] - 1. -/
  | dec (h : Hd) (a : BitVec 4)
  /-- `NEG` (R336): 0 - x[A]. -/
  | neg (h : Hd) (a : BitVec 4)
  /-- `NOT` (R336): NOT x[A]. -/
  | not (h : Hd) (a : BitVec 4)
  /-- `CLR` (R336): Clears x[A] and its tag. -/
  | clr (h : Hd) (a : BitVec 4)
  /-- `PCLR` (R335): Clears a predicate. -/
  | pclr (h : Hd) (a : BitVec 3)
  /-- `PSET` (R335): Sets a predicate. -/
  | pset (h : Hd) (a : BitVec 3)
  /-- `PNOT` (R335): Inverts a predicate. -/
  | pnot (h : Hd) (a : BitVec 3)
  /-- `RDTK` (R331): Reads the issue tick. -/
  | rdtk (h : Hd) (a : BitVec 4)
  /-- `ADD` (R321): Adds. -/
  | add (h : Hd) (a : BitVec 4) (b : BitVec 4) (c : BitVec 4)
  /-- `SUB` (R321): Subtracts. -/
  | sub (h : Hd) (a : BitVec 4) (b : BitVec 4) (c : BitVec 4)
  /-- `AND` (R321): Bitwise AND. -/
  | and (h : Hd) (a : BitVec 4) (b : BitVec 4) (c : BitVec 4)
  /-- `OR` (R321): Bitwise OR. -/
  | or (h : Hd) (a : BitVec 4) (b : BitVec 4) (c : BitVec 4)
  /-- `XOR` (R321): Bitwise XOR. -/
  | xor (h : Hd) (a : BitVec 4) (b : BitVec 4) (c : BitVec 4)
  /-- `SHL` (R321): Shift left. -/
  | shl (h : Hd) (a : BitVec 4) (b : BitVec 4) (c : BitVec 4)
  /-- `SHR` (R321): Logical shift right. -/
  | shr (h : Hd) (a : BitVec 4) (b : BitVec 4) (c : BitVec 4)
  /-- `SAR` (R321): Arithmetic shift right. -/
  | sar (h : Hd) (a : BitVec 4) (b : BitVec 4) (c : BitVec 4)
  /-- `MUL` (R321): Low 64-bit product. -/
  | mul (h : Hd) (a : BitVec 4) (b : BitVec 4) (c : BitVec 4)
  /-- `MULH` (R321): High signed product. -/
  | mulh (h : Hd) (a : BitVec 4) (b : BitVec 4) (c : BitVec 4)
  /-- `MULHU` (R321): High unsigned product. -/
  | mulhu (h : Hd) (a : BitVec 4) (b : BitVec 4) (c : BitVec 4)
  /-- `MIN` (R321): Signed minimum. -/
  | min (h : Hd) (a : BitVec 4) (b : BitVec 4) (c : BitVec 4)
  /-- `MAX` (R321): Signed maximum. -/
  | max (h : Hd) (a : BitVec 4) (b : BitVec 4) (c : BitVec 4)
  /-- `MINU` (R321): Unsigned minimum. -/
  | minu (h : Hd) (a : BitVec 4) (b : BitVec 4) (c : BitVec 4)
  /-- `MAXU` (R321): Unsigned maximum. -/
  | maxu (h : Hd) (a : BitVec 4) (b : BitVec 4) (c : BitVec 4)
  /-- `ROTL` (R321): Rotate left. -/
  | rotl (h : Hd) (a : BitVec 4) (b : BitVec 4) (c : BitVec 4)
  /-- `ROTR` (R321): Rotate right. -/
  | rotr (h : Hd) (a : BitVec 4) (b : BitVec 4) (c : BitVec 4)
  /-- `DIV` (R322): Signed division. -/
  | div (h : Hd) (a : BitVec 4) (b : BitVec 4) (c : BitVec 4)
  /-- `DIVU` (R322): Unsigned division. -/
  | divu (h : Hd) (a : BitVec 4) (b : BitVec 4) (c : BitVec 4)
  /-- `REM` (R322): Signed remainder. -/
  | rem (h : Hd) (a : BitVec 4) (b : BitVec 4) (c : BitVec 4)
  /-- `REMU` (R322): Unsigned remainder. -/
  | remu (h : Hd) (a : BitVec 4) (b : BitVec 4) (c : BitVec 4)
  /-- `CLZ` (R323): Counts leading zeros. -/
  | clz (h : Hd) (a : BitVec 4) (b : BitVec 4)
  /-- `CTZ` (R323): Counts trailing zeros. -/
  | ctz (h : Hd) (a : BitVec 4) (b : BitVec 4)
  /-- `POPC` (R323): Counts one bits. -/
  | popc (h : Hd) (a : BitVec 4) (b : BitVec 4)
  /-- `ABS` (R323): Absolute value. -/
  | abs (h : Hd) (a : BitVec 4) (b : BitVec 4)
  /-- `SEXT_B` (R323): Sign-extends a byte. -/
  | sextB (h : Hd) (a : BitVec 4) (b : BitVec 4)
  /-- `SEXT_H` (R323): Sign-extends a half. -/
  | sextH (h : Hd) (a : BitVec 4) (b : BitVec 4)
  /-- `SEXT_W` (R323): Sign-extends a word. -/
  | sextW (h : Hd) (a : BitVec 4) (b : BitVec 4)
  /-- `ZEXT_B` (R323): Zero-extends a byte. -/
  | zextB (h : Hd) (a : BitVec 4) (b : BitVec 4)
  /-- `ZEXT_H` (R323): Zero-extends a half. -/
  | zextH (h : Hd) (a : BitVec 4) (b : BitVec 4)
  /-- `ZEXT_W` (R323): Zero-extends a word. -/
  | zextW (h : Hd) (a : BitVec 4) (b : BitVec 4)
  /-- `BSWAP` (R323): Reverses the bytes. -/
  | bswap (h : Hd) (a : BitVec 4) (b : BitVec 4)
  /-- `SEL` (R324): Selects by a predicate, consuming poison of either source. -/
  | sel (h : Hd) (s : BitVec 4) (a : BitVec 4) (b : BitVec 4) (c : BitVec 4)
  /-- `CSEL` (R324): Commit select that examines only the kept arm. -/
  | csel (h : Hd) (s : BitVec 4) (a : BitVec 4) (b : BitVec 4) (c : BitVec 4)
  /-- `CEQ` (R325): Compare equal into a predicate. -/
  | ceq (h : Hd) (a : BitVec 3) (b : BitVec 4) (c : BitVec 4)
  /-- `CNE` (R325): Compare not equal. -/
  | cne (h : Hd) (a : BitVec 3) (b : BitVec 4) (c : BitVec 4)
  /-- `CLT` (R325): Signed less than. -/
  | clt (h : Hd) (a : BitVec 3) (b : BitVec 4) (c : BitVec 4)
  /-- `CLTU` (R325): Unsigned less than. -/
  | cltu (h : Hd) (a : BitVec 3) (b : BitVec 4) (c : BitVec 4)
  /-- `CLE` (R325): Signed less or equal. -/
  | cle (h : Hd) (a : BitVec 3) (b : BitVec 4) (c : BitVec 4)
  /-- `CLEU` (R325): Unsigned less or equal. -/
  | cleu (h : Hd) (a : BitVec 3) (b : BitVec 4) (c : BitVec 4)
  /-- `ADDI` (R326): Adds an immediate. -/
  | addi (h : Hd) (a : BitVec 4) (k : BitVec 8)
  /-- `ANDI` (R326): ANDs an immediate. -/
  | andi (h : Hd) (a : BitVec 4) (k : BitVec 8)
  /-- `ORI` (R326): ORs an immediate. -/
  | ori (h : Hd) (a : BitVec 4) (k : BitVec 8)
  /-- `XORI` (R326): XORs an immediate. -/
  | xori (h : Hd) (a : BitVec 4) (k : BitVec 8)
  /-- `SHLI` (R326): Shift left by an immediate. -/
  | shli (h : Hd) (a : BitVec 4) (k : BitVec 6)
  /-- `SHRI` (R326): Logical shift right by an immediate. -/
  | shri (h : Hd) (a : BitVec 4) (k : BitVec 6)
  /-- `SARI` (R326): Arithmetic shift right by an immediate. -/
  | sari (h : Hd) (a : BitVec 4) (k : BitVec 6)
  /-- `CEQI` (R326): Compare equal with an immediate. -/
  | ceqi (h : Hd) (a : BitVec 4) (p : BitVec 3) (k : BitVec 5)
  /-- `CLTI` (R326): Signed less than an immediate. -/
  | clti (h : Hd) (a : BitVec 4) (p : BitVec 3) (k : BitVec 5)
  /-- `CLTUI` (R326): Unsigned less than an immediate. -/
  | cltui (h : Hd) (a : BitVec 4) (p : BitVec 3) (k : BitVec 5)
  /-- `MOVI` (R327): Loads a sign-extended 12-bit immediate. -/
  | movi (h : Hd) (a : BitVec 4) (k : BitVec 12)
  /-- `MOVH` (R327): Shifts left 12 and inserts an immediate. -/
  | movh (h : Hd) (a : BitVec 4) (k : BitVec 12)
  /-- `LD_B` (R328): Loads a signed byte. -/
  | ldB (h : Hd) (a : BitVec 4) (b : BitVec 4) (d : BitVec 4)
  /-- `LD_BU` (R328): Loads an unsigned byte. -/
  | ldBu (h : Hd) (a : BitVec 4) (b : BitVec 4) (d : BitVec 4)
  /-- `LD_H` (R328): Loads a signed half. -/
  | ldH (h : Hd) (a : BitVec 4) (b : BitVec 4) (d : BitVec 4)
  /-- `LD_HU` (R328): Loads an unsigned half. -/
  | ldHu (h : Hd) (a : BitVec 4) (b : BitVec 4) (d : BitVec 4)
  /-- `LD_W` (R328): Loads a signed word. -/
  | ldW (h : Hd) (a : BitVec 4) (b : BitVec 4) (d : BitVec 4)
  /-- `LD_WU` (R328): Loads an unsigned word. -/
  | ldWu (h : Hd) (a : BitVec 4) (b : BitVec 4) (d : BitVec 4)
  /-- `LD_D` (R328): Loads a doubleword. -/
  | ldD (h : Hd) (a : BitVec 4) (b : BitVec 4) (d : BitVec 4)
  /-- `LDS_D` (R329): Speculative doubleword load that yields poison instead of faulting. -/
  | ldsD (h : Hd) (a : BitVec 4) (b : BitVec 4) (d : BitVec 4)
  /-- `ST_B` (R330): Stores a byte. -/
  | stB (h : Hd) (a : BitVec 4) (b : BitVec 4) (d : BitVec 4)
  /-- `ST_H` (R330): Stores a half. -/
  | stH (h : Hd) (a : BitVec 4) (b : BitVec 4) (d : BitVec 4)
  /-- `ST_W` (R330): Stores a word. -/
  | stW (h : Hd) (a : BitVec 4) (b : BitVec 4) (d : BitVec 4)
  /-- `ST_D` (R330): Stores a doubleword. -/
  | stD (h : Hd) (a : BitVec 4) (b : BitVec 4) (d : BitVec 4)
  /-- `RDL` (R331): Reads a launch register. -/
  | rdl (h : Hd) (a : BitVec 4) (k : BitVec 6)
  /-- `RDS` (R331): Reads a state register. -/
  | rds (h : Hd) (a : BitVec 4) (k : BitVec 4)
  /-- `SETLC` (R332): Sets a loop count register. -/
  | setlc (h : Hd) (a : BitVec 3) (b : BitVec 4)
  /-- `AGS` (R332): Sets one field of an ag set. -/
  | ags (h : Hd) (a : BitVec 3) (b : BitVec 4) (c : BitVec 3)
  /-- `PUTE` (R332): Writes an exchange register. -/
  | pute (h : Hd) (a : BitVec 3) (b : BitVec 4)
  /-- `FMT` (R334): Pushes a format word into the format queue. -/
  | fmt (h : Hd) (b : BitVec 4)
  /-- `PAND` (R335): Predicate AND. -/
  | pand (h : Hd) (a : BitVec 3) (b : BitVec 3) (c : BitVec 3)
  /-- `POR` (R335): Predicate OR. -/
  | por (h : Hd) (a : BitVec 3) (b : BitVec 3) (c : BitVec 3)
  /-- `PXOR` (R335): Predicate XOR. -/
  | pxor (h : Hd) (a : BitVec 3) (b : BitVec 3) (c : BitVec 3)
  /-- `PMOV` (R335): Predicate move. -/
  | pmov (h : Hd) (a : BitVec 3) (b : BitVec 3)
  /-- `TRAP` (R337): Traps when A = 0 or x[A] is nonzero. -/
  | trap (h : Hd) (a : BitVec 4) (k : BitVec 12)
  /-- `CLAIM` (R340): Claims a range of OM slots. -/
  | claim (h : Hd) (oa : BitVec 5) (n : BitVec 5)
  /-- `RELEASE` (R340): Releases a range of OM slots. -/
  | release (h : Hd) (oa : BitVec 5) (n : BitVec 5)
  /-- `LDTA` (R341): Loads an A tile. -/
  | ldta (h : Hd) (oa : BitVec 5) (ag : BitVec 3)
  /-- `LDTB` (R341): Loads a B tile transposed. -/
  | ldtb (h : Hd) (oa : BitVec 5) (ag : BitVec 3)
  /-- `LDE` (R341): Loads a sidecar. -/
  | lde (h : Hd) (oa : BitVec 5) (ag : BitVec 3)
  /-- `LDTF` (R341): Raw fill of up to 16 slots' mantissas. -/
  | ldtf (h : Hd) (oa : BitVec 5) (ag : BitVec 3) (n : BitVec 4)
  /-- `LDV_W` (R343): Vector load of words. -/
  | ldvW (h : Hd) (a : BitVec 4) (ag : BitVec 3)
  /-- `LDV_H` (R343): Vector load of BF16 halves, widened or packed by LEN0. -/
  | ldvH (h : Hd) (a : BitVec 4) (ag : BitVec 3)
  /-- `LDV_HU` (R343): Vector load of unsigned halves. -/
  | ldvHu (h : Hd) (a : BitVec 4) (ag : BitVec 3)
  /-- `LDV_B` (R343): Vector load of signed bytes. -/
  | ldvB (h : Hd) (a : BitVec 4) (ag : BitVec 3)
  /-- `LDV_BU` (R343): Vector load of unsigned bytes. -/
  | ldvBu (h : Hd) (a : BitVec 4) (ag : BitVec 3)
  /-- `LDVR_W` (R343): Loads one row into every row. -/
  | ldvrW (h : Hd) (a : BitVec 4) (ag : BitVec 3)
  /-- `LDVC_W` (R343): Loads one word per row into every column. -/
  | ldvcW (h : Hd) (a : BitVec 4) (ag : BitVec 3)
  /-- `LDG` (R345): Gathers leaf values by exit. -/
  | ldg (h : Hd) (a : BitVec 4) (b : BitVec 4) (ag : BitVec 3) (band : BitVec 2)
  /-- `MMA` (R361): Block floating-point K-step into the head tile. -/
  | mma (h : Hd) (oa : BitVec 5) (n : BitVec 5)
  /-- `MMAW` (R363): Synthesised FP32 product from slices. -/
  | mmaw (h : Hd) (oa : BitVec 5) (n : BitVec 5)
  /-- `RADV` (R367): Marks the head tile full and advances the head. -/
  | radv (h : Hd)
  /-- `RSKIP` (R367): Advances the head without marking. -/
  | rskip (h : Hd)
  /-- `TCFG` (R370): Loads the threshold store from 22 slots. -/
  | tcfg (h : Hd) (oa : BitVec 5) (w : BitVec 2)
  /-- `TEVAL` (R372): Evaluates 16 samples on the threshold array. -/
  | teval (h : Hd) (oa : BitVec 5)
  /-- `TMASK` (R374): Writes a sample's saved column masks into the head tile. -/
  | tmask (h : Hd) (k : BitVec 4)
  /-- `TCLR` (R375): Zeroes and unconfigures the threshold store. -/
  | tclr (h : Hd)
  /-- `MCLR` (R369): Clears the head tile to +0. -/
  | mclr (h : Hd)
  /-- `WRS` (R411): Writes a Cobbler system register. -/
  | wrs (h : Hd) (a : BitVec 4) (k : BitVec 8)
  /-- `RDSP` (R411): Reads a Cobbler system register. -/
  | rdsp (h : Hd) (a : BitVec 4) (k : BitVec 8)
  /-- `ERET` (R409): Reports EVRES and ends the current event. -/
  | eret (h : Hd)
  /-- `WAITEV` (R410): Waits for and removes a completion of the selected kinds. -/
  | waitev (h : Hd) (a : BitVec 4) (b : BitVec 4)
  /-- `WVSET` (R413): Loads the pending weave table and names the switch cycle. -/
  | wvset (h : Hd) (b : BitVec 4) (c : BitVec 4)
  /-- `CSE` (R418): Starts a context save or restore. -/
  | cse (h : Hd) (a : BitVec 4) (b : BitVec 4) (c : BitVec 4)
  /-- `ZFILL` (R417): Zeroes the selected resources of a pending owner. -/
  | zfill (h : Hd) (a : BitVec 4) (b : BitVec 4)
  /-- `PARK` (R414): Arms a park or drain cut for an owner. -/
  | park (h : Hd) (a : BitVec 4) (b : BitVec 4) (c : BitVec 4)
  /-- `UNPARK` (R415): Unparks an owner at an origin cycle. -/
  | unpark (h : Hd) (a : BitVec 4) (b : BitVec 4) (c : BitVec 4)
  /-- `XPHY` (R419): Moves data between the reserved area and a physical address. -/
  | xphy (h : Hd) (e : BitVec 2) (cls : BitVec 4) (p : BitVec 1)
  /-- `STV_W` (R346): Vector store of words. -/
  | stvW (h : Hd) (a : BitVec 4) (ag : BitVec 3)
  /-- `STV_H` (R346): Vector store as BF16. -/
  | stvH (h : Hd) (a : BitVec 4) (ag : BitVec 3)
  /-- `STV_HS` (R346): Vector store of saturated halves. -/
  | stvHs (h : Hd) (a : BitVec 4) (ag : BitVec 3)
  /-- `STV_B` (R346): Vector store of low bytes. -/
  | stvB (h : Hd) (a : BitVec 4) (ag : BitVec 3)
  /-- `STV_BS` (R346): Vector store of saturated bytes. -/
  | stvBs (h : Hd) (a : BitVec 4) (ag : BitVec 3)
  /-- `STVC` (R347): Compressed store of selected lanes. -/
  | stvc (h : Hd) (a : BitVec 4) (ag : BitVec 3) (s : BitVec 1) (m : BitVec 3)
  /-- `XRD` (R350): Reads device memory into the window. -/
  | xrd (h : Hd) (e : BitVec 3) (ag : BitVec 3) (cls : BitVec 4) (p : BitVec 1)
  /-- `XRD_SP` (R206): Sparse read expanded into a dense pattern. -/
  | xrdSp (h : Hd) (e : BitVec 3) (ag : BitVec 3) (cls : BitVec 4) (p : BitVec 1)
  /-- `XRDM` (R351): Reads device memory into every core of the quad. -/
  | xrdm (h : Hd) (e : BitVec 3) (ag : BitVec 3) (cls : BitVec 4) (p : BitVec 1)
  /-- `XWR` (R350): Writes the window to device memory. -/
  | xwr (h : Hd) (e : BitVec 3) (ag : BitVec 3) (cls : BitVec 4) (p : BitVec 1)
  /-- `XWR_Z` (R350): Writes zeros to device memory. -/
  | xwrZ (h : Hd) (e : BitVec 3) (ag : BitVec 3) (cls : BitVec 4) (p : BitVec 1)
  /-- `XPUT` (R352): Puts into another core's window. -/
  | xput (h : Hd) (e : BitVec 3) (ag : BitVec 3) (cls : BitVec 4) (p : BitVec 1)
  /-- `XGET` (R352): Gets from another core's window. -/
  | xget (h : Hd) (e : BitVec 3) (ag : BitVec 3) (cls : BitVec 4) (p : BitVec 1)
  /-- `XSUM_F` (R352): FP32 sum into another core's window. -/
  | xsumF (h : Hd) (e : BitVec 3) (ag : BitVec 3) (cls : BitVec 4) (p : BitVec 1)
  /-- `XSUM_I` (R352): Integer sum into another core's window. -/
  | xsumI (h : Hd) (e : BitVec 3) (ag : BitVec 3) (cls : BitVec 4) (p : BitVec 1)
  /-- `XAT_ADD` (R353): Atomic add. -/
  | xatAdd (h : Hd) (e : BitVec 2) (ag : BitVec 3) (cls : BitVec 4) (p : BitVec 1)
  /-- `XAT_SWP` (R353): Atomic swap. -/
  | xatSwp (h : Hd) (e : BitVec 2) (ag : BitVec 3) (cls : BitVec 4) (p : BitVec 1)
  /-- `XAT_CAS` (R353): Atomic compare-and-swap. -/
  | xatCas (h : Hd) (e : BitVec 2) (ag : BitVec 3) (cls : BitVec 4) (p : BitVec 1)
  /-- `XAT_MAX` (R353): Atomic signed max. -/
  | xatMax (h : Hd) (e : BitVec 2) (ag : BitVec 3) (cls : BitVec 4) (p : BitVec 1)
  /-- `XAT_MIN` (R353): Atomic signed min. -/
  | xatMin (h : Hd) (e : BitVec 2) (ag : BitVec 3) (cls : BitVec 4) (p : BitVec 1)
  /-- `XAT_AND` (R353): Atomic AND. -/
  | xatAnd (h : Hd) (e : BitVec 2) (ag : BitVec 3) (cls : BitVec 4) (p : BitVec 1)
  /-- `XAT_OR` (R353): Atomic OR. -/
  | xatOr (h : Hd) (e : BitVec 2) (ag : BitVec 3) (cls : BitVec 4) (p : BitVec 1)
  /-- `XAT_XOR` (R353): Atomic XOR. -/
  | xatXor (h : Hd) (e : BitVec 2) (ag : BitVec 3) (cls : BitVec 4) (p : BitVec 1)
  /-- `XSC_LD` (R354): SC load. -/
  | xscLd (h : Hd) (e : BitVec 2) (ag : BitVec 3) (cls : BitVec 4) (p : BitVec 1)
  /-- `XSC_ST` (R354): SC store. -/
  | xscSt (h : Hd) (e : BitVec 2) (ag : BitVec 3) (cls : BitVec 4) (p : BitVec 1)
  /-- `XSC_ADD` (R354): SC add. -/
  | xscAdd (h : Hd) (e : BitVec 2) (ag : BitVec 3) (cls : BitVec 4) (p : BitVec 1)
  /-- `XSC_SWP` (R354): SC swap. -/
  | xscSwp (h : Hd) (e : BitVec 2) (ag : BitVec 3) (cls : BitVec 4) (p : BitVec 1)
  /-- `XSC_CAS` (R354): SC compare-and-swap. -/
  | xscCas (h : Hd) (e : BitVec 2) (ag : BitVec 3) (cls : BitVec 4) (p : BitVec 1)
  /-- `XSC_MAX` (R354): SC signed max. -/
  | xscMax (h : Hd) (e : BitVec 2) (ag : BitVec 3) (cls : BitVec 4) (p : BitVec 1)
  /-- `FENCE` (R355): Orders later transfers after the named classes. -/
  | fence (h : Hd) (k : BitVec 16)
  /-- `XPOP` (R356): Pops and acquires a completion element of a class. -/
  | xpop (h : Hd) (a : BitVec 3) (cls : BitVec 4)
  /-- `XPEEK` (R356): Tests for a completion element of a class. -/
  | xpeek (h : Hd) (a : BitVec 3) (cls : BitVec 4)
  /-- `VZERO` (R389): Zeroes a vector register. -/
  | vzero (h : Hd) (a : BitVec 4)
  /-- `VFADD` (R381): FP add. -/
  | vfadd (h : Hd) (a : BitVec 4) (b : BitVec 4) (c : BitVec 4)
  /-- `VFSUB` (R381): FP subtract. -/
  | vfsub (h : Hd) (a : BitVec 4) (b : BitVec 4) (c : BitVec 4)
  /-- `VFMUL` (R381): FP multiply. -/
  | vfmul (h : Hd) (a : BitVec 4) (b : BitVec 4) (c : BitVec 4)
  /-- `VFMA` (R381): Fused multiply-add. -/
  | vfma (h : Hd) (a : BitVec 4) (b : BitVec 4) (c : BitVec 4)
  /-- `VFMS` (R381): Fused multiply-subtract. -/
  | vfms (h : Hd) (a : BitVec 4) (b : BitVec 4) (c : BitVec 4)
  /-- `VFNMA` (R381): Negated fused multiply-add. -/
  | vfnma (h : Hd) (a : BitVec 4) (b : BitVec 4) (c : BitVec 4)
  /-- `VFNMS` (R381): Negated fused multiply-subtract. -/
  | vfnms (h : Hd) (a : BitVec 4) (b : BitVec 4) (c : BitVec 4)
  /-- `VFDIV` (R381): FP divide. -/
  | vfdiv (h : Hd) (a : BitVec 4) (b : BitVec 4) (c : BitVec 4)
  /-- `VFMIN` (R381): FP minimum. -/
  | vfmin (h : Hd) (a : BitVec 4) (b : BitVec 4) (c : BitVec 4)
  /-- `VFMAX` (R381): FP maximum. -/
  | vfmax (h : Hd) (a : BitVec 4) (b : BitVec 4) (c : BitVec 4)
  /-- `VFABS` (R382): FP absolute value. -/
  | vfabs (h : Hd) (a : BitVec 4) (b : BitVec 4)
  /-- `VFNEG` (R382): FP negation. -/
  | vfneg (h : Hd) (a : BitVec 4) (b : BitVec 4)
  /-- `VFFLOOR` (R382): FP floor. -/
  | vffloor (h : Hd) (a : BitVec 4) (b : BitVec 4)
  /-- `VFROUND` (R382): FP round to nearest even. -/
  | vfround (h : Hd) (a : BitVec 4) (b : BitVec 4)
  /-- `VFCLASS` (R382): Classifies FP values. -/
  | vfclass (h : Hd) (a : BitVec 4) (b : BitVec 4)
  /-- `VFRCP` (R383): Reciprocal. -/
  | vfrcp (h : Hd) (a : BitVec 4) (b : BitVec 4)
  /-- `VFSQRT` (R383): Square root. -/
  | vfsqrt (h : Hd) (a : BitVec 4) (b : BitVec 4)
  /-- `VFRSQ` (R383): Reciprocal square root. -/
  | vfrsq (h : Hd) (a : BitVec 4) (b : BitVec 4)
  /-- `VFEXP2` (R383): Power of two. -/
  | vfexp2 (h : Hd) (a : BitVec 4) (b : BitVec 4)
  /-- `VFLOG2` (R383): Base-2 logarithm. -/
  | vflog2 (h : Hd) (a : BitVec 4) (b : BitVec 4)
  /-- `VFTANH` (R383): Hyperbolic tangent. -/
  | vftanh (h : Hd) (a : BitVec 4) (b : BitVec 4)
  /-- `VFSIGM` (R383): Logistic sigmoid. -/
  | vfsigm (h : Hd) (a : BitVec 4) (b : BitVec 4)
  /-- `VADD` (R384): Integer add. -/
  | vadd (h : Hd) (a : BitVec 4) (b : BitVec 4) (c : BitVec 4)
  /-- `VSUB` (R384): Integer subtract. -/
  | vsub (h : Hd) (a : BitVec 4) (b : BitVec 4) (c : BitVec 4)
  /-- `VADDS` (R384): Saturating add. -/
  | vadds (h : Hd) (a : BitVec 4) (b : BitVec 4) (c : BitVec 4)
  /-- `VSUBS` (R384): Saturating subtract. -/
  | vsubs (h : Hd) (a : BitVec 4) (b : BitVec 4) (c : BitVec 4)
  /-- `VMUL` (R384): Integer multiply low. -/
  | vmul (h : Hd) (a : BitVec 4) (b : BitVec 4) (c : BitVec 4)
  /-- `VMULH` (R384): Integer multiply high. -/
  | vmulh (h : Hd) (a : BitVec 4) (b : BitVec 4) (c : BitVec 4)
  /-- `VMIN` (R384): Signed minimum. -/
  | vmin (h : Hd) (a : BitVec 4) (b : BitVec 4) (c : BitVec 4)
  /-- `VMAX` (R384): Signed maximum. -/
  | vmax (h : Hd) (a : BitVec 4) (b : BitVec 4) (c : BitVec 4)
  /-- `VMINU` (R384): Unsigned minimum. -/
  | vminu (h : Hd) (a : BitVec 4) (b : BitVec 4) (c : BitVec 4)
  /-- `VMAXU` (R384): Unsigned maximum. -/
  | vmaxu (h : Hd) (a : BitVec 4) (b : BitVec 4) (c : BitVec 4)
  /-- `VABS` (R384): Integer absolute value. -/
  | vabs (h : Hd) (a : BitVec 4) (b : BitVec 4)
  /-- `VAND` (R384): Bitwise AND. -/
  | vand (h : Hd) (a : BitVec 4) (b : BitVec 4) (c : BitVec 4)
  /-- `VOR` (R384): Bitwise OR. -/
  | vor (h : Hd) (a : BitVec 4) (b : BitVec 4) (c : BitVec 4)
  /-- `VXOR` (R384): Bitwise XOR. -/
  | vxor (h : Hd) (a : BitVec 4) (b : BitVec 4) (c : BitVec 4)
  /-- `VNOT` (R384): Bitwise NOT. -/
  | vnot (h : Hd) (a : BitVec 4) (b : BitVec 4)
  /-- `VSHL` (R385): Shift left by register. -/
  | vshl (h : Hd) (a : BitVec 4) (b : BitVec 4) (c : BitVec 4)
  /-- `VSHR` (R385): Logical shift right by register. -/
  | vshr (h : Hd) (a : BitVec 4) (b : BitVec 4) (c : BitVec 4)
  /-- `VSAR` (R385): Arithmetic shift right by register. -/
  | vsar (h : Hd) (a : BitVec 4) (b : BitVec 4) (c : BitVec 4)
  /-- `VSHLI` (R385): Shift left by immediate. -/
  | vshli (h : Hd) (a : BitVec 4) (b : BitVec 4) (k : BitVec 5)
  /-- `VSHRI` (R385): Logical shift right by immediate. -/
  | vshri (h : Hd) (a : BitVec 4) (b : BitVec 4) (k : BitVec 5)
  /-- `VSARI` (R385): Arithmetic shift right by immediate. -/
  | vsari (h : Hd) (a : BitVec 4) (b : BitVec 4) (k : BitVec 5)
  /-- `VPOPC` (R385): Counts one bits per lane. -/
  | vpopc (h : Hd) (a : BitVec 4) (b : BitVec 4)
  /-- `VCLZ` (R385): Counts leading zeros per lane. -/
  | vclz (h : Hd) (a : BitVec 4) (b : BitVec 4)
  /-- `VCTZ` (R385): Counts trailing zeros per lane. -/
  | vctz (h : Hd) (a : BitVec 4) (b : BitVec 4)
  /-- `VCLMUL_L` (R386): Carry-less multiply, low half. -/
  | vclmulL (h : Hd) (a : BitVec 4) (b : BitVec 4) (c : BitVec 4)
  /-- `VCLMUL_H` (R386): Carry-less multiply, high half. -/
  | vclmulH (h : Hd) (a : BitVec 4) (b : BitVec 4) (c : BitVec 4)
  /-- `VDOT2_BF` (R387): BF16 pair dot product into an accumulator. -/
  | vdot2Bf (h : Hd) (a : BitVec 4) (b : BitVec 4) (c : BitVec 4)
  /-- `VDOT4_I8` (R387): INT8 quad dot product into an accumulator. -/
  | vdot4I8 (h : Hd) (a : BitVec 4) (b : BitVec 4) (c : BitVec 4)
  /-- `VFCMP_EQ` (R388): FP equal into a mask. -/
  | vfcmpEq (h : Hd) (a : BitVec 3) (b : BitVec 4) (c : BitVec 4)
  /-- `VFCMP_NE` (R388): FP not equal into a mask. -/
  | vfcmpNe (h : Hd) (a : BitVec 3) (b : BitVec 4) (c : BitVec 4)
  /-- `VFCMP_LT` (R388): FP less than into a mask. -/
  | vfcmpLt (h : Hd) (a : BitVec 3) (b : BitVec 4) (c : BitVec 4)
  /-- `VFCMP_LE` (R388): FP less or equal into a mask. -/
  | vfcmpLe (h : Hd) (a : BitVec 3) (b : BitVec 4) (c : BitVec 4)
  /-- `VFCMP_UN` (R388): FP unordered into a mask. -/
  | vfcmpUn (h : Hd) (a : BitVec 3) (b : BitVec 4) (c : BitVec 4)
  /-- `VCMP_EQ` (R388): Integer equal into a mask. -/
  | vcmpEq (h : Hd) (a : BitVec 3) (b : BitVec 4) (c : BitVec 4)
  /-- `VCMP_NE` (R388): Integer not equal into a mask. -/
  | vcmpNe (h : Hd) (a : BitVec 3) (b : BitVec 4) (c : BitVec 4)
  /-- `VCMP_LT` (R388): Signed less than into a mask. -/
  | vcmpLt (h : Hd) (a : BitVec 3) (b : BitVec 4) (c : BitVec 4)
  /-- `VCMP_LE` (R388): Signed less or equal into a mask. -/
  | vcmpLe (h : Hd) (a : BitVec 3) (b : BitVec 4) (c : BitVec 4)
  /-- `VCMP_LTU` (R388): Unsigned less than into a mask. -/
  | vcmpLtu (h : Hd) (a : BitVec 3) (b : BitVec 4) (c : BitVec 4)
  /-- `VCMP_LEU` (R388): Unsigned less or equal into a mask. -/
  | vcmpLeu (h : Hd) (a : BitVec 3) (b : BitVec 4) (c : BitVec 4)
  /-- `VMOV` (R389): Vector move. -/
  | vmov (h : Hd) (a : BitVec 4) (b : BitVec 4)
  /-- `VSPL` (R389): Splats an exchange register into every lane. -/
  | vspl (h : Hd) (a : BitVec 4) (b : BitVec 3)
  /-- `VIMM` (R389): Splats a sign-extended immediate. -/
  | vimm (h : Hd) (a : BitVec 4) (k : BitVec 8)
  /-- `VSEL` (R390): Selects lanes by mask. -/
  | vsel (h : Hd) (a : BitVec 4) (b : BitVec 4) (c : BitVec 4) (s : BitVec 1) (m : BitVec 3)
  /-- `MAND` (R391): Mask AND. -/
  | mand (h : Hd) (a : BitVec 3) (b : BitVec 3) (c : BitVec 3)
  /-- `MOR` (R391): Mask OR. -/
  | mor (h : Hd) (a : BitVec 3) (b : BitVec 3) (c : BitVec 3)
  /-- `MXOR` (R391): Mask XOR. -/
  | mxor (h : Hd) (a : BitVec 3) (b : BitVec 3) (c : BitVec 3)
  /-- `MNOT` (R391): Mask NOT. -/
  | mnot (h : Hd) (a : BitVec 3) (b : BitVec 3)
  /-- `VANY` (R391): Any active lane set. -/
  | vany (h : Hd) (a : BitVec 3) (b : BitVec 3)
  /-- `VALL` (R391): All active lanes set. -/
  | vall (h : Hd) (a : BitVec 3) (b : BitVec 3)
  /-- `VLAM` (R392): Sets the lane-activity mask. -/
  | vlam (h : Hd) (b : BitVec 3)
  /-- `VMPACK` (R393): Packs a mask into a vector register. -/
  | vmpack (h : Hd) (a : BitVec 4) (b : BitVec 3)
  /-- `VMUNPK` (R393): Unpacks a vector register into a mask. -/
  | vmunpk (h : Hd) (a : BitVec 3) (b : BitVec 4)
  /-- `VCVT_FI` (R394): FP32 to signed integer. -/
  | vcvtFi (h : Hd) (a : BitVec 4) (b : BitVec 4)
  /-- `VCVT_IF` (R394): Signed integer to FP32. -/
  | vcvtIf (h : Hd) (a : BitVec 4) (b : BitVec 4)
  /-- `VCVT_FB` (R394): FP32 to BF16. -/
  | vcvtFb (h : Hd) (a : BitVec 4) (b : BitVec 4)
  /-- `VCVT_BF` (R394): BF16 to FP32. -/
  | vcvtBf (h : Hd) (a : BitVec 4) (b : BitVec 4)
  /-- `VCVT_FK` (R394): FP32 to OK16 key. -/
  | vcvtFk (h : Hd) (a : BitVec 4) (b : BitVec 4)
  /-- `VQUANT` (R397): Quantises blocks to BFPn or slices. -/
  | vquant (h : Hd) (a : BitVec 4) (b : BitVec 4) (e : BitVec 3) (s : BitVec 2)
  /-- `VQEXP` (R397): Extracts block exponents. -/
  | vqexp (h : Hd) (a : BitVec 4) (b : BitVec 4) (e : BitVec 3) (s : BitVec 2)
  /-- `VROT_R` (R398): Row rotate. -/
  | vrotR (h : Hd) (a : BitVec 4) (b : BitVec 4) (p : BitVec 1) (k : BitVec 6)
  /-- `VROT_C` (R398): Column rotate. -/
  | vrotC (h : Hd) (a : BitVec 4) (b : BitVec 4) (p : BitVec 1) (k : BitVec 4)
  /-- `VBC_R` (R398): Row broadcast. -/
  | vbcR (h : Hd) (a : BitVec 4) (b : BitVec 4) (p : BitVec 1) (k : BitVec 6)
  /-- `VBC_C` (R398): Column broadcast. -/
  | vbcC (h : Hd) (a : BitVec 4) (b : BitVec 4) (p : BitVec 1) (k : BitVec 4)
  /-- `VPERM_R` (R399): Row permute. -/
  | vpermR (h : Hd) (a : BitVec 4) (b : BitVec 4) (c : BitVec 4) (p : BitVec 1)
  /-- `VPERM_C` (R399): Column permute. -/
  | vpermC (h : Hd) (a : BitVec 4) (b : BitVec 4) (c : BitVec 4) (p : BitVec 1)
  /-- `VRED_R_FADD` (R400): Row FP sum reduction. -/
  | vredRFadd (h : Hd) (a : BitVec 4) (b : BitVec 4) (p : BitVec 1)
  /-- `VRED_R_IADD` (R400): Row integer sum reduction. -/
  | vredRIadd (h : Hd) (a : BitVec 4) (b : BitVec 4) (p : BitVec 1)
  /-- `VRED_R_XOR` (R400): Row XOR reduction. -/
  | vredRXor (h : Hd) (a : BitVec 4) (b : BitVec 4) (p : BitVec 1)
  /-- `VRED_R_MAX` (R400): Row max reduction. -/
  | vredRMax (h : Hd) (a : BitVec 4) (b : BitVec 4) (p : BitVec 1)
  /-- `VRED_R_MIN` (R400): Row min reduction. -/
  | vredRMin (h : Hd) (a : BitVec 4) (b : BitVec 4) (p : BitVec 1)
  /-- `VRED_C_FADD` (R400): Column FP sum reduction. -/
  | vredCFadd (h : Hd) (a : BitVec 4) (b : BitVec 4) (p : BitVec 1)
  /-- `VRED_C_IADD` (R400): Column integer sum reduction. -/
  | vredCIadd (h : Hd) (a : BitVec 4) (b : BitVec 4) (p : BitVec 1)
  /-- `VRED_C_XOR` (R400): Column XOR reduction. -/
  | vredCXor (h : Hd) (a : BitVec 4) (b : BitVec 4) (p : BitVec 1)
  /-- `VRED_C_MAX` (R400): Column max reduction. -/
  | vredCMax (h : Hd) (a : BitVec 4) (b : BitVec 4) (p : BitVec 1)
  /-- `VRED_C_MIN` (R400): Column min reduction. -/
  | vredCMin (h : Hd) (a : BitVec 4) (b : BitVec 4) (p : BitVec 1)
  /-- `VSCAN_R_FADD` (R401): Row FP inclusive scan. -/
  | vscanRFadd (h : Hd) (a : BitVec 4) (b : BitVec 4) (p : BitVec 1)
  /-- `VSCAN_R_IADD` (R401): Row integer inclusive scan. -/
  | vscanRIadd (h : Hd) (a : BitVec 4) (b : BitVec 4) (p : BitVec 1)
  /-- `VSCAN_R_XOR` (R401): Row XOR inclusive scan. -/
  | vscanRXor (h : Hd) (a : BitVec 4) (b : BitVec 4) (p : BitVec 1)
  /-- `VSCAN_C_FADD` (R401): Column FP inclusive scan. -/
  | vscanCFadd (h : Hd) (a : BitVec 4) (b : BitVec 4) (p : BitVec 1)
  /-- `VSCAN_C_IADD` (R401): Column integer inclusive scan. -/
  | vscanCIadd (h : Hd) (a : BitVec 4) (b : BitVec 4) (p : BitVec 1)
  /-- `VSCAN_C_XOR` (R401): Column XOR inclusive scan. -/
  | vscanCXor (h : Hd) (a : BitVec 4) (b : BitVec 4) (p : BitVec 1)
  /-- `VCPR` (R402): Compresses selected lanes. -/
  | vcpr (h : Hd) (a : BitVec 4) (b : BitVec 4) (s : BitVec 1) (m : BitVec 3)
  /-- `VIDX` (R389): Writes each lane's number. -/
  | vidx (h : Hd) (a : BitVec 4)
  /-- `RPOP` (R403): Reads a quarter of the tail tile. -/
  | rpop (h : Hd) (a : BitVec 4) (k : BitVec 2)
  /-- `RFREE` (R404): Empties the tail tile and advances the tail. -/
  | rfree (h : Hd)
  /-- `VBREV` (R385): Reverses bits per lane. -/
  | vbrev (h : Hd) (a : BitVec 4) (b : BitVec 4)
  deriving DecidableEq, Repr

end Sys2Proof
end

