-- ==== Sys2Proof/Machine/State.lean ====
section
/-! DEFINITION. The state of the machine: plain data, everything the specification gives the part, and `State.reset`,
the part right after cold reset (R14, R32). Every register that the specification gives no reset value holds 0, or
what the log says. -/

namespace Sys2Proof.Machine

/-! ### The core -/

/-- A cell of the threshold store (R248). -/
structure ThrCell where
  t : BitVec 16 := 0
  fi : BitVec 8 := 0
  d : Bool := false
  v : Bool := false
  mask : W64 := 0
  deriving DecidableEq, Repr

/-- The threshold store of a core (R248-R254). -/
structure Threshold where
  cells : Tab ThrCell := []
  /-- band width W of the configuration in force -/
  w : Nat := 64
  conf : Bool := false
  /-- raw bytes that a TCFG in progress has read: slot i at i·2112 -/
  load : Cells 8 := []
  /-- complements of the saved column masks: sample·64 + column (all ones reads 0 here) -/
  saved : Cells 64 := []
  /-- complements of the masks of the TEVAL in progress -/
  cur : Cells 64 := []
  deriving DecidableEq, Repr

/-- The kinds of event that Cobbler handles (R408). -/
inductive CobKind where
  | reset | grant | depart | rephase | zero | park | unpark | evict | restore | qcb | start
  deriving DecidableEq, Repr

/-- An event in a core's event queue (R407, R408). -/
structure CobEvent where
  kind : CobKind
  wid : Nat
  sid : Nat
  redo : Bool := false
  args : List W64
  deriving DecidableEq, Repr

/-- A completion of a long operation (R410). -/
structure Completion where
  kind : BitVec 4
  wid : BitVec 3
  status : BitVec 8
  seq : BitVec 16
  detail : W32
  deriving DecidableEq, Repr

/-- A pending owner record of a weave id (R412). -/
structure PendRec where
  attr : BitVec 26 := 0
  strand : W32 := 0
  wbase : BitVec 7 := 0
  wsize : BitVec 7 := 0
  ommap : BitVec 32 := 0
  rmap : BitVec 8 := 0
  vbase : BitVec 5 := 0
  vcnt : BitVec 5 := 0
  /-- OTICK written for a restored id -/
  tick : W64 := 0
  /-- whether WRS has written the record since the last switch -/
  dirty : Bool := false
  /-- the owner state that a CSE restore has read for it (R418) -/
  restored : Option Owner := none
  deriving DecidableEq, Repr

/-- A Cobbler physical transfer in flight (R419). -/
structure Xphy where
  num : Nat
  cls : Nat
  post : Bool
  pa : Nat
  off : Nat
  len : Nat
  write : Bool
  /-- the reserved area's bytes as released at issue, for a write -/
  src : List Byte
  srcPoison : List Nat
  status : Nat
  /-- the bank ports that it still waits for -/
  todo : Option (List PortReq) := none
  deriving DecidableEq, Repr

/-- Cobbler, the firmware context of a core (R82, R405-R420). -/
structure Cobbler where
  x : Cells 64 := []
  p : BitVec 8 := 0
  e : Cells 64 := []
  /-- firmware instruction memory: the vector table's entries, then the image's parcels (R407) -/
  vectors : Cells 32 := []
  img : List Parcel := []
  svn : BitVec 16 := 0
  pc : Nat := 0
  blocks : List Block := []
  /-- issue cycles to leave unused before the next instruction (R405) -/
  wait : Nat := 0
  /-- the event being handled -/
  cur : Option CobEvent := none
  queue : List CobEvent := []
  evres : W64 := 0
  wsel : BitVec 3 := 0
  recs : Tab PendRec := []
  compl : List Completion := []
  cseBusy : Bool := false
  /-- the CSE operation in flight: save or restore, weave id, record PA; and the bank ports that it still waits for -/
  cse : Option (Bool × Nat × Nat) := none
  cseTodo : Option (List PortReq) := none
  /-- parcels of firmware instruction memory that fail SEC-DED (R213) -/
  imErr : List Nat := []
  xphy : List Xphy := []
  xcount : Nat := 0
  /-- ids with an unconsumed DRAINED completion, or parked: a CSE save may run (R418) -/
  drained : List Nat := []
  /-- the ZFILL in progress: weave id, parts, destination register -/
  zfill : Option (Nat × BitVec 64 × BitVec 4) := none
  zfillTodo : Option (List PortReq) := none
  lockc : W32 := 0
  /-- the firmware watchdog's count, and the cycle of its last reset (R86, R409) -/
  wd : Nat := 0
  lastReset : Option Nat := none
  /-- per weave id: a strand, an aligned group of 32 of its ticks, and the idling ticks of it that Cobbler has taken (R84) -/
  taken : Tab (Nat × Nat × Nat) := []
  deriving DecidableEq, Repr

/-- A switch of the weave table: its cycle, and the entries of a weave id that it gives to a class, or the whole table that WVSET gave
(R134, R413). -/
structure SwReq where
  cyc : Nat
  wid : Nat := 8
  stride : Nat := 1
  phase : Nat := 0
  raw : Option (Tab Nat) := none
  deriving DecidableEq, Repr

/-- A line that a transfer has filled before its target acquired it (R223, R228): the transfer, its strand, the region index of its core,
its issue tick, the line, what stood there and whether that was poisoned, and the cycle from which scheduled reads find the new
contents. -/
structure Unseen where
  tid : Nat
  sid : Nat
  region : Nat
  tick : Int
  line : Nat
  old : List Byte
  poison : Bool
  until_ : Nat
  deriving DecidableEq, Repr

/-- A cut that PARK has armed on one core (R414). -/
structure ArmedCut where
  wid : Nat
  tick : Nat
  drain : Bool
  deriving DecidableEq, Repr

/-- A core: its shared stores, its weave table, its owners and its firmware context. -/
structure CoreSt where
  /-- the 512 KiB scratchpad, by core address (R197) -/
  win : Cells 8 := []
  /-- poisoned 64-byte lines, and 8-byte words that fail SEC-DED (R213, R214) -/
  winPoison : List Nat := []
  winErr : List Nat := []
  /-- operand memory: slot·2112 + byte, sidecar bytes from 2048 (R200), and bytes that fail parity -/
  om : Cells 8 := []
  omErr : List Nat := []
  /-- ring tiles: tile·4096 + m·64 + n (R201), and 8-byte words that fail SEC-DED -/
  ring : Cells 32 := []
  ringErr : List Nat := []
  /-- physical vector registers: register·1024 + lane (R202), and bytes that fail parity -/
  vreg : Cells 32 := []
  vErr : List Nat := []
  thr : Threshold := {}
  /-- the weave table, the pending one, its switch cycle (R132, R134) -/
  table : Tab Nat := []
  ptable : Tab Nat := []
  swc : Nat := 0
  swPend : Bool := false
  /-- the switches asked for, the pending one first, in the order of their cycles -/
  swQueue : List SwReq := []
  owners : Tab Owner := []
  cuts : List ArmedCut := []
  /-- lines that transfers have filled and their target has not acquired, and which its scheduled reads still find as they were (R223,
  R228) -/
  unseen : List Unseen := []
  /-- the ports that trace waits for (R199) -/
  traceTodo : List PortReq := []
  /-- the bank ports that unscheduled requesters took last: the cycle, banks and whether the write port (R199) -/
  used : Nat × List (Nat × Bool) := (0, [])
  /-- the cycle in which an SC operation last took the core's wheel position (R140) -/
  scUsed : Nat := 0
  cob : Cobbler := {}
  /-- the last holder (CID, creation count) per 4 KiB unit, OM slot, ring tile and vector register (R115) -/
  lastWin : Tab (Nat × Nat) := []
  lastOm : Tab (Nat × Nat) := []
  lastTile : Tab (Nat × Nat) := []
  lastV : Tab (Nat × Nat) := []
  /-- time-lost counters of the last owner that departed, by CID (R105) -/
  tlmPrev : Tab (Cells 32) := []
  /-- in lockout (R85, R268) -/
  locked : Bool := false
  deriving DecidableEq, Repr

/-! ### Functions, queues and completion (chapters 02, 04) -/

/-- The TDISP states of a TDI (R38). -/
inductive TdiState where
  | configUnlocked | configLocked | run | error
  deriving DecidableEq, Repr

/-- The errors a function's AER capability logs (R35, R37). -/
inductive AerError where
  | unsupportedRequest | completerAbort | malformedTlp | poisonedTlp | completionTimeout | ideCheckFailed
  /-- a link-level error -/
  | link
  /-- a data-link error -/
  | dataLink
  deriving DecidableEq, Repr

/-- The registers of a function's configuration space that the specification names (R21, R38): Command, the BARs, the power
state (0 D0, 3 D3hot), and the payload and read-request sizes in force, in bytes. Reset values: PRESUMED, PCI Express (log entry 4). -/
structure PciCfg where
  command : BitVec 16 := 0
  bar0 : W64 := 0
  bar2 : W64 := 0
  power : BitVec 2 := 0
  payload : Nat := 128
  readReq : Nat := 512
  /-- MSI-X Enable and Function Mask -/
  msixOn : Bool := false
  msixAll : Bool := false
  /-- what software has written to registers of capabilities that no rule describes, by capability·16 + register (R26) -/
  other : Tab W64 := []
  deriving DecidableEq, Repr

/-- A function of the port (R23, R24, R30, R36, R38). -/
structure Fn where
  vfEnable : Bool := false
  numVfs : Nat := 0
  firstVf : Nat := 0
  aer : List AerError := []
  /-- the MSI-X table's message addresses and data, by vector·2 + word; masked vectors and the pending bits;
  masked after reset: PRESUMED, PCI Express (log entry 4) -/
  msixTab : Cells 64 := []
  msixMask : W64 := BitVec.allOnes 64
  pba : W64 := 0
  tdi : TdiState := .configUnlocked
  apr : BitVec 36 := 0
  cfg : PciCfg := {}
  deriving DecidableEq, Repr

/-- A queue and its QCB (R57), with what the CFE keeps for it. -/
structure Queue where
  rbase : BitVec 60 := 0
  size : BitVec 5 := 0
  host : Bool := false
  prio : BitVec 3 := 0
  state : BitVec 2 := 0
  cq : BitVec 6 := 0
  ridx : W32 := 0
  widx : W32 := 0
  gen : W64 := 0
  ecq : BitVec 6 := 0
  /-- the head packet; and, as the QCB gave them when it was read: its place in the ring, and its CQ,
  ECQ and PRIO (R94) -/
  head : Option Packet := none
  headAt : Bool × Nat := (false, 0)
  headCq : BitVec 6 := 0
  headEcq : BitVec 6 := 0
  headPrio : BitVec 3 := 0
  /-- fetching stopped at V = 0 until the next notify (R66) -/
  idle : Bool := false
  /-- the ring read holds on a demand page (R66); the ring line has been read in part (R64, R226) -/
  held : Option Nat := none
  torn : Option Torn := none
  aging : Nat := 0
  /-- a WAIT read faulted and its notice was posted; a WAIT read holds on a demand page (R70) -/
  waitFault : Bool := false
  waitHeld : Option Nat := none
  /-- the condition of a WAIT has been found to hold -/
  waitMet : Bool := false
  /-- the head is a LAUNCH that waits for admission (R145, R148) -/
  awaits : Bool := false
  /-- the head was examined and passed over; nothing that could let it start has happened since (R68) -/
  tried : Bool := false
  /-- notifies and software writes held while GEN is odd, oldest first (R29, R94) -/
  heldOps : List Instr := []
  deriving DecidableEq, Repr

/-- A completion queue (R73) with its coalescing state (R76) and the entries held on a demand page (R74). -/
structure Cq where
  base : W64 := 0
  size : BitVec 4 := 0
  host : Bool := false
  en : Bool := false
  ovf : Bool := false
  vec : BitVec 6 := 0
  cnt : BitVec 8 := 1
  tmr : BitVec 10 := 1
  widx : W32 := 0
  ridx : W32 := 0
  lost : W32 := 0
  pending : Nat := 0
  heldPage : Option Nat := none
  held : List (W64 × W64) := []
  deriving DecidableEq, Repr

/-- An entry that the CFE is to post (R74): the function, the CQ, the ECQ of the queue that it concerns, and its two words. -/
structure CqPost where
  fn : Nat
  n : Nat
  ecq : BitVec 6
  w0 : W64
  w1 : W64
  deriving DecidableEq, Repr

/-- A packet that has started (R67). -/
structure Run where
  id : Nat
  fn : Nat
  q : Nat
  pkt : Packet
  /-- CQ and ECQ of its queue as the QCB gave them when it was read (R94) -/
  cq : BitVec 6 := 0
  ecq : BitVec 6 := 0
  /-- bytes of a COPY moved so far, in whole chunks (R78, R80) -/
  done : Nat := 0
  /-- a COPY held on a demand page; its chunk as read, with its poisoned lines, until it is written; whether its read
  or write waits for a peer; its energy in pJ -/
  held : Option Nat := none
  buf : Option (List (Byte × Bool)) := none
  /-- bytes of the chunk that are written -/
  put : Nat := 0
  /-- a piece of which a first part has been read or written (R226) -/
  torn : Option Torn := none
  asked : Bool := false
  energy : Nat := 0
  /-- the transfers that an INVAL waits for (R212) -/
  waits : List Nat := []
  /-- and the accesses in parts, by the free value at which their choices begin (R212, R226) -/
  tears : List Nat := []
  /-- its signal operation has been performed -/
  signalled : Bool := false
  status : Nat := 0
  /-- DATA of the completion entry -/
  data : W64 := 0
  /-- strand of a LAUNCH -/
  sid : Nat := 0
  /-- the packet has performed and waits only to complete -/
  ended : Bool := false
  deriving DecidableEq, Repr

/-- A signal operation: the page it is held on, the VD and the signal's address there, w3 of the packet, TAG, function, queue and its ECQ, the
value a SIGNAL writes, or none for a decrement, and the request of a peer that it performs (R72). -/
structure SigOp where
  page : Nat
  cid : Nat
  va : Nat
  fn : Nat
  q : Nat
  ecq : BitVec 6 := 0
  tag : W32
  w3 : W64
  write : Option W64
  peer : Option PeerReq := none
  deriving DecidableEq, Repr

/-! ### Virtual devices (chapter 06) -/

/-- The states of a VD (R114). -/
inductive VdState where
  | active | migOut | stopped | incoming | postcopy | failed
  deriving DecidableEq, Repr

/-- A record ring such as HB_FLT (R266). -/
structure FaultRing where
  base : W64 := 0
  size : BitVec 4 := 0
  en : Bool := false
  widx : W32 := 0
  ridx : W32 := 0
  lost : W32 := 0
  deriving DecidableEq, Repr

/-- The page-request queue HB_PRQ (R211): registers, requests that wait to be posted (page, write, timebase), and
pages with an open request. -/
structure Prq where
  base : W64 := 0
  size : BitVec 4 := 0
  en : Bool := false
  vec : BitVec 6 := 0
  widx : W32 := 0
  ridx : W32 := 0
  waiting : List (Nat × Bool × Nat) := []
  openPages : List Nat := []
  deriving DecidableEq, Repr

/-- A breakpoint of HB_DBG (R269). -/
structure Breakpoint where
  strand : Nat
  str : Nat
  parcel : Nat
  iter : W32
  tick : W64
  deriving DecidableEq, Repr

/-- HB_DBG (R269). -/
structure Dbg where
  strand : W32 := 0
  op : BitVec 3 := 0
  bp : BitVec 2 := 0
  busy : Bool := false
  st : BitVec 3 := 0
  fhold : Bool := false
  bstr : BitVec 3 := 0
  bpar : BitVec 16 := 0
  bitr : W32 := 0
  btick : W64 := 0
  dva : W64 := 0
  /-- the operation in progress, its strand and its destination (R269) -/
  goOp : BitVec 3 := 0
  goStrand : W32 := 0
  goDva : W64 := 0
  points : Tab Breakpoint := []
  deriving DecidableEq, Repr

/-- A trace buffer (R272), of a VD or the operator copy (R273). -/
structure Trc where
  base : W64 := 0
  size : W32 := 0
  en : Bool := false
  mode : Bool := false
  tmask : BitVec 8 := 0xFF
  last : W32 := 0
  drop : W32 := 0
  wrap : W32 := 0
  off : Nat := 0
  /-- linear mode has met its end -/
  full : Bool := false
  deriving DecidableEq, Repr

/-- HB_RPL (R276). -/
structure Rpl where
  mode : BitVec 2 := 0
  act : Bool := false
  va : BitVec 56 := 0
  count : W32 := 0
  deriving DecidableEq, Repr

/-- HB_ATT (R92). -/
structure Att where
  dest : W64 := 0
  nonce : List W64 := [0, 0, 0, 0]
  busy : Bool := false
  st : BitVec 2 := 0
  /-- the report's bytes as captured at GO -/
  report : List Byte := []
  /-- the write holds on a demand page -/
  held : Bool := false
  deriving DecidableEq, Repr

/-- A virtual device (R109-R114, R91, R104). -/
structure Vd where
  count : Nat := 0
  state : VdState := .active
  maxCores : Nat := 1
  window : Nat := 4096
  om : Nat := 0
  ring : Nat := 0
  vregs : Nat := 0
  demand : Bool := false
  wdog : Nat := 0
  root : Nat := 0
  ctx : Nat := 0
  policyPa : Nat := 0
  logVa : Nat := 0
  logCap : Nat := 1
  pullMs : Nat := 100
  /-- the 256 descriptor bytes and the configuration digest (R111) -/
  desc : List Byte := []
  digest : List Byte := []
  /-- class entries, tenant key and digest of the disclosure policy (R104) -/
  policy : List W32 := []
  polKey : List Byte := []
  polDigest : List Byte := []
  /-- a replaced policy that applies from the next launch start -/
  polNext : Option (List W32 × List Byte) := none
  /-- container chain C and containers admitted (R91) -/
  chain : List Byte := []
  admitted : Nat := 0
  prq : Prq := {}
  flt : FaultRing := {}
  dbg : Dbg := {}
  trc : Trc := {}
  rpl : Rpl := {}
  att : Att := {}
  /-- tenant meter log indices (R101) -/
  mlogW : W32 := 0
  mlogR : W32 := 0
  mlogF : W32 := 0
  /-- post-copy: pages outstanding, pages lost, pulls in progress (R126, R127) -/
  outstanding : List Nat := []
  lost : List Nat := []
  pulls : List Nat := []
  /-- source device and CID of a migration, at the destination; device and CID of the destination, at the source -/
  source : Nat × Nat := (0, 0)
  dest : Nat × Nat := (0, 0)
  /-- new accesses are dropped: the function is being reset (R33) -/
  closing : Bool := false
  /-- its strands are gone and its event is in the meters (R33 steps 4, 5), and the event -/
  flr : Nat := 0
  /-- its queues are suspended by a migration's stop, and the strands that the stop has parked (R125) -/
  suspended : Bool := false
  migParked : List Nat := []
  failStatus : Nat := 0
  /-- lines that its completed launches have read, by page (R143) -/
  reads : Tab Nat := []
  /-- pJ charged to the VD's launches since its creation (R171) -/
  energy : Nat := 0
  /-- values the filters show: the previous launch's total, the last SYNC boundary's value (R105) -/
  prevLaunch : Nat := 0
  lastSync : Nat := 0
  /-- for the windows of R105: the window, the value at its start, and what the last closed window measured -/
  enWin : Nat × Nat × Nat := (0, 0, 0)
  deriving DecidableEq, Repr

/-- A partition (R107). -/
structure Part where
  qx : BitVec 2 := 0
  qy : BitVec 3 := 0
  qw : BitVec 2 := 0
  qh : BitVec 3 := 0
  v : Bool := false
  deriving DecidableEq, Repr

/-- HB_VDCMD (R110). -/
structure VdCmd where
  pa : BitVec 44 := 0
  op : BitVec 4 := 0
  busy : Bool := false
  st : BitVec 4 := 0
  /-- the function whose VD a destroy waits for -/
  fn : Nat := 0
  deriving DecidableEq, Repr

/-! ### The fabric (chapter 03) -/

/-- A KLK port (R39, R41): trained, the next sequence numbers, the flits not yet acknowledged, the flit awaited after a
failure, the failures of the flit at the head, down until retrained. -/
structure KlkPort where
  up : Bool := false
  seqOut : Nat := 0
  seqIn : Nat := 0
  replay : List Flit := []
  awaiting : Option Nat := none
  failSeq : Nat := 0
  fails : Nat := 0
  /-- failures in a row of the flit awaited -/
  rxFails : Nat := 0
  /-- down for good after 10 ms without training (R41) -/
  dead : Bool := false
  deriving DecidableEq, Repr

/-- A route (R44): the port, valid, and a write held until the requests already sent have completed. -/
structure Route where
  port : BitVec 4 := 0
  v : Bool := false
  next : Option (BitVec 4 × Bool) := none
  deriving DecidableEq, Repr

/-- What waits for the answer of a peer (R45). -/
inductive RemoteFor where
  /-- a transfer of an owner -/
  | xfer (tid : Nat)
  /-- a signal decrement of a completed packet: run's function, queue, ECQ, TAG, w3 -/
  | signal (fn q : Nat) (ecq : BitVec 6) (tag : W32) (w3 : W64)
  /-- a SIGNAL's write -/
  | signalSet (fn q : Nat) (ecq : BitVec 6) (tag : W32) (w3 : W64)
  /-- the read of a WAIT head -/
  | wait (fn q : Nat)
  /-- a COPY chunk: its read, or its write -/
  | copy (run : Nat)
  /-- a level-5 barrier arrival of a strand -/
  | barrier (sid gen : Nat)
  /-- a post-copy page pull; a page that a migration copies -/
  | pull (cid page : Nat)
  | migPage (cid page : Nat)
  deriving DecidableEq, Repr

/-- A request to a peer that has not completed (R44, R45). -/
structure RemoteReq where
  rid : Nat
  dst : Nat
  sent : Bool
  req : PeerReq
  why : RemoteFor
  deriving DecidableEq, Repr

/-- An entry of HB_ACT (R48). -/
structure ActEntry where
  src : BitVec 10 := 0
  tcid : BitVec 10 := 0
  v : Bool := false
  pkt : Bool := false
  ntf : Bool := false
  sig : Bool := false
  rd : Bool := false
  wr : Bool := false
  qmask : W64 := 0
  deriving DecidableEq, Repr

/-- A record of HB_ACT_DENY (R49, R50). -/
structure DenyRec where
  src : Nat
  scid : Nat
  tcid : Nat
  kind : Nat
  va : Nat
  deriving DecidableEq, Repr

/-- The fabric registers and queues of the hub (R43-R53). -/
structure Klk where
  dev : BitVec 10 := 0
  jn : Bool := false
  ports : Tab KlkPort := []
  routes : Tab Route := []
  tmo : BitVec 20 := 10000
  rwin : Tab W64 := []
  fgrp : Tab W64 := []
  act : Tab ActEntry := []
  deny : List DenyRec := []
  denyVa : W64 := 0
  denyOvfl : W32 := 0
  reqs : List RemoteReq := []
  nextRid : Nat := 0
  /-- answers and barrier flits that wait for a route (R44) -/
  unsent : List Flit := []
  /-- barrier arrivals at this root: group, generation, device (R53) -/
  arrivals : List (Nat × Nat × Nat) := []
  /-- granted peer requests that hold on a demand page (R49) -/
  heldPeer : List (Nat × PeerReq) := []
  /-- granted peer requests that have not performed: held, or waiting for a wheel position or for a queue's GEN; and those that
  follow one of the same source owner and class (R51, R230), oldest first -/
  busyPeer : List PeerReq := []
  waitPeer : List PeerReq := []
  /-- peer requests whose signal operation has been performed, with the status of the answer -/
  readyPeer : List (PeerReq × Nat) := []
  /-- peers' reads and writes of which a first part has performed (R226) -/
  tornPeer : List (PeerReq × Torn) := []
  deriving DecidableEq, Repr

/-! ### Power, firmware, meters, placer -/

/-- Power, clock governor and thermal state (R11-R20). -/
structure Power where
  /-- rails raised: VHUB, VIO, VSRAM, VCORE0-3, VHBM, VMM, in the order raised -/
  rails : List Nat := [0, 1, 2, 3, 4, 5, 6, 7, 8]
  on : Bool := true
  trip : Bool := false
  cap : BitVec 11 := 2000
  /-- the cap in force since the last revolution boundary (R19) -/
  capNow : BitVec 11 := 2000
  step : BitVec 4 := 0
  ceil : BitVec 4 := 0
  therm : Bool := false
  floor : Bool := false
  lowered : W32 := 0
  /-- consecutive revolutions with the mean below 95 % of the cap, and with every junction below 100 °C -/
  lowRev : Nat := 0
  coolRev : Nat := 0
  /-- last refresh cycle of the base dies (R7) -/
  refresh : Nat := 0
  /-- revolutions completed -/
  revs : Nat := 0
  deriving DecidableEq, Repr

/-- A page-table entry that a cluster's transfer unit keeps (R210): the cluster, the VD, the level, the VA bits from the level's index
up, and the entry. -/
structure TlbEntry where
  clu : Nat
  cid : Nat
  lv : Nat
  key : Nat
  entry : Nat
  deriving DecidableEq, Repr

/-- The energy estimators as the governor averages them (R16, R169): the pJ charged in the present revolution, and for each of
the last 1,024 revolutions, newest first, the pJ charged and the frequency step it ran at. -/
structure Estimator where
  now : Nat := 0
  revs : List (Nat × Nat) := []
  deriving DecidableEq, Repr

/-- A core record that the context-save engine of this device wrote (R112, R418): its place, the Cobbler SVN that wrote it, the owner as it
was saved, and the free value that chose the bytes of its control area. -/
structure SavedRec where
  pa : Nat
  svn : BitVec 16
  owner : Owner
  free : Nat
  deriving DecidableEq, Repr

/-- The DOE mailbox of the MF (R26, R37): the words written and not yet taken, those to be read, the bytes exchanged since the last
session, and whether the device has signed one of them with its identity key. -/
structure Doe where
  inp : List W32 := []
  out : List W32 := []
  transcript : List Byte := []
  signed : Bool := false
  deriving DecidableEq, Repr

/-- The host link (R21, R37). -/
structure Link where
  up : Bool := false
  gen : Nat := 0
  width : Nat := 0
  flit : Bool := false
  /-- lanes that L0p leaves active -/
  active : Nat := 0
  /-- tag of the next request of the device, of 14 bits -/
  tag : Nat := 0
  /-- an SPDM session stands at the MF's DOE mailbox, authenticated with the device identity key -/
  session : Bool := false
  doe : Doe := {}
  /-- IDE streams with programmed keys: stream and key; stream 0 is the link stream, 1-32 selective -/
  ideKeys : Tab Nat := []
  insecure : List Nat := []
  deriving DecidableEq, Repr

/-- Firmware control (R84-R89). -/
structure Firmware where
  share : BitVec 5 := 8
  limit : W32 := 0x01000000
  fires : BitVec 16 := 0
  failKind : BitVec 3 := 0
  failCause : BitVec 3 := 0
  /-- the boot has accepted every image -/
  booted : Bool := false
  rpa : BitVec 44 := 0
  use : Bool := false
  meas : List (List Byte) := [[], [], [], []]
  /-- the module's firmware store: four images (R89) -/
  store : List (List Byte) := [[], [], [], []]
  deriving DecidableEq, Repr

/-- A captured trigger of a meter record (R98, R100): TYPE, EVENT, LATE, sequence fields and the values at the trigger. -/
structure MeterTrig where
  type : Nat
  event : Nat
  late : Bool
  count : Nat
  timebase : Nat
  ns : Nat
  /-- the region digest at the trigger, and what the last closed window of R105 counted -/
  digest : List Byte := []
  window : Nat := 0
  /-- GRAN of class 6 at the trigger -/
  gran : Nat := 0
  extra : List Byte := []
  deriving DecidableEq, Repr

/-- A weight meter (R96-R98). -/
structure Meter where
  base : BitVec 56 := 0
  pages : W32 := 0
  cid : BitVec 10 := 0
  v : Bool := false
  sealed : Bool := false
  count : Nat := 0
  mid : W64 := 0
  digest : List Byte := []
  seqNo : Nat := 0
  prev : List Byte := []
  /-- for R105: the window, COUNT at its start and what the last closed window counted; COUNT when a launch last ended;
  COUNT at the last SYNC boundary -/
  win : Nat × Nat × Nat := (0, 0, 0)
  atLaunch : Nat := 0
  atSync : Nat := 0
  /-- the nanosecond clock of the HANDOFF record that opened it (R127) -/
  handNs : Nat := 0
  waiting : List MeterTrig := []
  /-- triggers of an FLR or a loss that found the 8 places taken: TYPE, EVENT and bytes 0xD0 on (R100) -/
  late : List (Nat × Nat × List Byte) := []
  deriving DecidableEq, Repr

/-- The weight meters and their operator log (R96-R103). -/
structure Weights where
  meters : Tab Meter := []
  ckpt : BitVec 12 := 10
  logBase : BitVec 44 := 0
  logSize : BitVec 16 := 0
  widx : W32 := 0
  ridx : W32 := 0
  skip : W32 := 0
  contPa : BitVec 44 := 0
  contSlot : BitVec 12 := 0
  contSt : BitVec 3 := 0
  draws : Nat := 0
  /-- MF operations that wait for a trigger's place (R100) -/
  held : List Instr := []
  /-- HANDOFF records written, by CID, each followed by its region's BASE and PAGES (R102) -/
  handoffs : List (Nat × List Byte) := []
  deriving DecidableEq, Repr

/-- The placer's registers (R122, R123, R144, R148, R451). -/
structure Placer where
  slow : Bool := true
  fast : Bool := true
  rph : BitVec 16 := 0
  slip : BitVec 16 := 0
  lease : BitVec 20 := 10000
  lead : BitVec 24 := 0x040000
  migCid : BitVec 10 := 0
  migDev : BitVec 10 := 0
  migDcid : BitVec 10 := 0
  migOp : BitVec 3 := 0
  migBusy : Bool := false
  migSt : BitVec 4 := 0
  migPost : Bool := false
  migPages : W32 := 0
  /-- of the operation in progress: its VD, POST as it stood at GO, and whether its link was lost (R125) -/
  migVd : Nat := 0
  migKeep : Bool := false
  migLost : Bool := false
  /-- the flits of its final round are on their way -/
  migFinal : Bool := false
  vdq : Tab W32 := []
  /-- order numbers given to admissions -/
  orders : Nat := 0
  deriving DecidableEq, Repr

/-- A request of the device to the host (R21): its function, a write or a read, address, bytes, tag, and the attributes
Relaxed Ordering and ID-Based Ordering. -/
structure HostTlp where
  fn : Nat
  wr : Bool
  addr : Nat
  len : Nat
  tag : Nat
  ro : Bool := false
  ido : Bool := false
  deriving DecidableEq, Repr

/-- What the device sends out: host read data, error completions, MSI-X messages, notices to the BMC, flits. -/
inductive Out where
  | readData (fn off : Nat) (data : List Byte)
  | completerAbort (fn : Nat)
  | unsupported
  | hostTlp (t : HostTlp)
  | msix (fn vec : Nat)
  | thermalTrip
  | flit (port : Nat) (f : Flit)
  | request (r : RemoteReq)
  | answer (r : PeerReq) (status : Nat) (data : List Byte)
  | barrier (gid gen dev : Nat)
  | release (gid gen dev : Nat)
  | migImage (dev dcid : Nat) (img : MigImage)
  | migDone (dev cid : Nat)
  | evres (core : Nat) (word res : W64)
  | tdispReport (fn : Nat) (data : List Byte)
  | attest (data : List Byte)
  deriving DecidableEq, Repr

/-- The issue slot whose instruction runs: a core, a weave id and a stream. -/
structure Slot where
  core : Nat
  wid : Nat
  str : StreamId
  deriving DecidableEq, Repr

/-- The machine. -/
structure State where
  /-- cycles of origin time since cold reset; the timebase is this count modulo 2^64 (R157) -/
  cycle : Nat := 0
  /-- the nanosecond clock, 0 until the MF sets it (R14), and whether it has; a write that awaits the next reference edge (R159) -/
  ns : Nat := 0
  nsSet : Bool := false
  nsWrite : Option Nat := none
  /-- nanoseconds of the reference since cold reset, by which times run; the time since its last edge, in parts of `edgeUnits` to
  10 ns (R13) -/
  ref : Nat := 0
  nsPhase : Nat := 0
  /-- operations to carry out now, oldest first; then the issue slots left in this cycle; the slot in issue -/
  agenda : List Instr := []
  /-- what performs in this cycle, each with all that it asks for before the next, in the order of R216 -/
  due : List Instr := []
  issue : List Slot := []
  cur : Slot := ⟨0, 0, .c⟩
  /-- where the present cycle stands: 0 its instructions issue; 1 the SC operations that are due in it perform, 2 those of the cores,
  3 those of the CFE, the host proxy and the fabric proxy (R216); 4 it has begun, and the accesses to registers that reach it perform
  (R3); 5 its table switches are made; 6 its stalls are decided, and its ticks begin -/
  phase : Nat := 0
  /-- what arrives from outside, with the cycle of its arrival -/
  inputs : List (Nat × Instr) := []
  /-- an access of the host to memory of which a first part has performed (R226) -/
  tornHost : Option Torn := none
  /-- operations due at an origin cycle, and at a time of the reference -/
  timers : List (Nat × Instr) := []
  nsTimers : List (Nat × Instr) := []
  /-- cycles of the wheel's CFE and fabric-proxy positions last used (R140, R224) -/
  wheel : Nat × Nat := (0, 0)
  /-- the model's own counter of free values taken: DESIGN CHOICE (log entry 23) -/
  free : Nat := 0
  pwr : Power := {}
  est : Estimator := {}
  link : Link := {}
  fns : Tab Fn := []
  mfApr : BitVec 8 := 0
  parts : Tab Part := []
  vdcmd : VdCmd := {}
  vds : Tab Vd := []
  /-- creation count of each CID (R109) -/
  counts : Tab Nat := []
  queues : Tab Queue := []
  cqs : Tab Cq := []
  /-- the CFE's rotation: function·64 + queue of the last head started or refused (R68) -/
  rot : Nat := 0
  runs : List Run := []
  nextRun : Nat := 0
  sigHeld : List SigOp := []
  /-- the entries that the CFE posts at its turn in this cycle (R216) -/
  posts : List CqPost := []
  klk : Klk := {}
  fw : Firmware := {}
  wm : Weights := {}
  plc : Placer := {}
  strands : Tab Strand := []
  nextSid : Nat := 1
  cores : Tab CoreSt := []
  xfers : List Xfer := []
  nextTid : Nat := 0
  saves : List SavedRec := []
  /-- device memory by physical address (R54), its poisoned 64-byte lines, and the dirty 64 KiB pages (R56, R124) -/
  mem : Cells 8 := []
  memPoison : List Nat := []
  dirty : List Nat := []
  /-- frames that a VD held and no VD maps since: first frame, number, and the CID and creation count of that VD (R56, R115) -/
  stale : List (Nat × Nat × Nat × Nat) := []
  /-- entries that the clusters' transfer units keep (R210) -/
  tlb : List TlbEntry := []
  host : Cells 8 := []
  /-- 64-byte lines of host memory whose read completions come with EP set (R22) -/
  hostPoison : List Nat := []
  /-- the MF's fault ring, the operator trace entries, the time-lost selection (R266, R273, R275) -/
  mfFlt : FaultRing := {}
  optrc : Tab Trc := []
  tlmSel : W32 := 0
  /-- operator energy account in pJ (R169, R171) -/
  enOper : Nat := 0
  /-- corrected errors by source unit: soft errors come from outside this model, and no register shows them (R213, log entry 115) -/
  corrected : Tab Nat := []
  out : List Out := []
  deriving DecidableEq, Repr

/-- Why the machine stops: DESIGN CHOICE (log entry 10). -/
inductive Fault where
  /-- The package is dark and nothing outside raises its rails: no cycle passes (R10, R11). Raised by `step`. Safe:
  the hardware does nothing either. -/
  | dark
  /-- An owner's stream stands at parcels that do not decode, or at a system instruction of the firmware context. Staging
  refuses such an image (R312, R421), so no strand reaches it. Raised by `step` and by the system instructions. Safe. -/
  | undecodable
  deriving DecidableEq, Repr

/-- Why an instruction has no meaning here. -/
inductive Refusal where
  /-- The instruction's meaning is not written yet. Raised by `exec`. Safe. -/
  | notModelled (mnemonic : String)
  deriving DecidableEq, Repr

/-- The machine right after cold reset: the boot ROM is about to run (R87); every field has the value its register map gives, memories have nothing
listed, no owner on any core, the frequency step 0 (R14, R16, R32). DESIGN CHOICE for what the spec does not give
(log entries 1-5); how a program comes to run stands in log entry 3. -/
def State.reset : State := { agenda := [.firmwareBoot] }

end Sys2Proof.Machine
end

