-- ==== Sys2Proof/Config.lean ====
section
/-! DEFINITION. What is fixed for the part (the figures of its tables), and the free values: constants with no body
for every value the specification leaves open. A claim about a free value holds for every value of it. -/

namespace Sys2Proof.Config

/-! ### Figures -/

/-- Columns of the mesh (chapter 01, The package). -/
def meshW : Nat := 48

/-- Rows of the mesh. -/
def meshH : Nat := 32

/-- Cores of the device. -/
def cores : Nat := 1536

/-- Revolution of the SC wheel and of the governor, in cycles (R16, R140). -/
def revolution : Nat := 2048

/-- Largest frequency step (R16). -/
def maxStep : Nat := 13

/-- Bytes of HBM (R54). -/
def hbmBytes : Nat := 0x80_0000_0000

/-- First physical address of module memory (R54). -/
def modBase : Nat := 0x800_0000_0000

/-- Bytes of module memory (R54). -/
def modBytes : Nat := 0x200_0000_0000

/-- Window bytes of a core: the lower 496 KiB of its scratchpad (R197). -/
def windowArea : Nat := 0x7_C000

/-- Core address of Cobbler's reserved area (R82, R406). -/
def reservedBase : Nat := 0x7_C000

/-- Owner instruction memory of a core in bytes (R175). -/
def imemBytes : Nat := 65536

/-- Outstanding transfers of one owner on a core (R204). -/
def maxOutstanding : Nat := 32

/-- Depth of the completion FIFO (R205). -/
def fifoDepth : Nat := 64

/-- Depth of the format queue (R334). -/
def fqDepth : Nat := 16

/-- Bytes of a core's record in the context region (R112). -/
def coreRecord : Nat := 0xB_4000

/-- Module-memory bandwidth in bytes per revolution of 2,048 cycles at 2.5 GHz: 3,200 GB/s (R55). -/
def moduleShareMax : Nat := 2621440

/-! ### Free values: cryptography, identity and randomness (chapter 05) -/

/-- ML-DSA-65 verification: key, message, signature. DESIGN CHOICE (log entry 12). -/
opaque mldsaVerify : List Byte → List Byte → List Byte → Bool

/-- The ML-DSA-65 key pair derived from a secret: its public key, and its signature of a message (R90). DESIGN CHOICE (log entry 12). -/
opaque mldsaPublic : List Byte → List Byte
opaque mldsaSign : List Byte → List Byte → List Byte

/-- The fused device-unique secret (R90). DESIGN CHOICE (log entry 12). -/
opaque deviceSecret : List Byte

/-- The public key of the device identity key, the same at each boot (R90). -/
def deviceKey : List Byte := mldsaPublic deviceSecret

/-- The signature with the device identity key (R90). -/
def deviceSign : List Byte → List Byte := mldsaSign deviceSecret

/-- The key digest in the hub fuses, 32 bytes (R88). DESIGN CHOICE (log entry 12). -/
opaque fuseKeyDigest : List Byte

/-- The fused minimum SVN of an image kind (R88). DESIGN CHOICE (log entry 12). -/
opaque fuseMinSvn : Nat → Nat

/-- The journal of QCB updates in the reserved area (R94, R95), whose layout is the firmware's: its offset and length; and its entries,
each with the place of its VALID bit, the function, the queue and the six words of the QCB. DESIGN CHOICE (log entry 85). -/
opaque journalPlace : Nat × Nat
opaque journal : List Byte → List (Nat × Nat × Nat × List W64)

/-- Verification of an identity certificate against the Gelvel root: certificate bytes, and the certified key (R103). DESIGN CHOICE (log entry 12). -/
opaque certKey : List Byte → Option (List Byte)

/-- The random 64-bit id drawn for a meter at the n-th draw (R96). DESIGN CHOICE (log entry 12). -/
opaque randomMid : Nat → W64

/-- CRC-64 over bytes 0-247 of a flit; the polynomial is not given (R40). DESIGN CHOICE (log entry 13). -/
opaque flitCrc : List Byte → W64

/-- What the payload of a flit carries; the layouts are not given (R40, R53): the request of a data flit; the answer of a data
flit, by the number of the request; for a barrier flit whether it is a release, with group id and generation; and whether an
ack/nak flit is a nak. DESIGN CHOICE (log entry 13). -/
opaque flitRequest : Flit → Option PeerReq
opaque flitAnswer : Flit → Option (Nat × RemoteResp)
opaque flitBarrier : Flit → Option (Bool × Nat × Nat)
opaque flitNak : Flit → Bool

/-- What the flit with which it ends carries of a migration (R40, R125, R126): a VD of this device and the final round that arrives for it;
or a source VD of this device that may free its pages. DESIGN CHOICE (log entry 13). -/
opaque flitImage : Flit → Option (Nat × MigImage)
opaque flitFree : Flit → Option Nat

/-- The payloads of the flits that a request or an answer takes, of a barrier or release flit (group id, generation), and
of an ack (`false`) or nak (`true`). DESIGN CHOICE (log entry 13). -/
opaque requestPayloads : PeerReq → List (List Byte)
opaque answerPayloads : PeerReq → RemoteResp → List (List Byte)
opaque barrierPayload : Bool → Nat → Nat → List Byte
opaque ackPayload : Bool → List Byte

/-- The payloads of the flits that the final round of a migration takes, and of the notice that a source may free its pages (R125,
R126). DESIGN CHOICE (log entry 13). -/
opaque imagePayloads : MigImage → List (List Byte)
opaque freePayload : Nat → List Byte

/-- A byte of a line that arrives poisoned without data, for the n-th free value (R45). DESIGN CHOICE (log entry 22). -/
opaque poisonByte : Nat → Byte

/-! ### Free values: time and physics -/

/-- Junction temperature in degrees C of die `d` (4 for the hub) at the n-th reading (R12). DESIGN CHOICE (log entry 14). -/
opaque junction : Nat → Nat → Nat

/-- Whether a cluster's transfer unit still has its copy of an entry of a level, at the n-th free value (R210 states no replacement
of its TLB and walk cache). DESIGN CHOICE (log entry 86). -/
opaque tlbKept : Nat → Nat → Nat → Bool

/-- Cycles from a transfer's lane grant to its landing, for the n-th free value. No figure is given (R136, R199). DESIGN CHOICE (log entry 15). -/
opaque landCycles : Nat → Nat

/-- Cycles that staging takes, for the n-th free value (R155). DESIGN CHOICE (log entry 15). -/
opaque stageCycles : Nat → Nat

/-- Whether every core has reported ready by s - 320, for the n-th free value: the device sets no bound on the
time a core takes (R155). DESIGN CHOICE (log entry 15). -/
opaque coresReady : Nat → Bool

/-- Cycles of a hub operation whose time the specification does not give (a ring read, an entry write, a report, a
context save), for the n-th free value. DESIGN CHOICE (log entry 15). -/
opaque hubCycles : Nat → Nat

/-- Whether a 64-byte line of a transfer's source that a later scheduled write met is read after that write, for the
n-th free value (R228). DESIGN CHOICE (log entry 16). -/
opaque lineNew : Nat → Bool

/-- The launch status that the record of a divergence shows before its LAUNCH completes, for the n-th free value (R75, R265). DESIGN
CHOICE (log entry 116). -/
opaque laterStatus : Nat → Nat

/-- Whether the placer speeds a survivor that is stalled or parked, for the n-th free value (R147). DESIGN CHOICE (log entry 118). -/
opaque speedsStill : Nat → Bool

/-- The line of the scratchpad that the trace unit reads for a record, for the n-th free value (R199). DESIGN CHOICE (log entry 114). -/
opaque traceLine : Nat → Nat

/-- Whether Cobbler gets an idling tick it may take, for the n-th free value (R83, R84: at most SHARE of 32). DESIGN CHOICE (log entry 17). -/
opaque cobblerTakes : Nat → Bool

/-- Dynamic and leakage energy in nJ of a core in a cycle, from estimators calibrated at test, for the n-th free
value (R169). DESIGN CHOICE (log entry 14). -/
opaque coreEnergy : Nat → Nat

/-- The contents of the control area of a core record, whose layout the Cobbler SVN fixes: the byte at an offset, of
what was saved (R112). DESIGN CHOICE (log entry 18). -/
opaque controlArea : Nat → Nat → Byte

/-- Words after the header of a trace record of a type, modulo 14, less one; and word `i` of them, packed from the
record's fields: the specification lists the fields and not their places (R271). DESIGN CHOICE (log entry 19). -/
opaque traceLen : Nat → Nat
opaque traceWord : Nat → Nat → List Nat → W64

/-- Bytes, less one and modulo 8, of the superstep number and of the count in a recording's entry (R277). DESIGN CHOICE (log entry 19). -/
opaque rplWidth : Nat

/-- The digest of a region of which a part cannot be read, for the n-th free value (R96 states none). DESIGN CHOICE (log entry 20). -/
opaque regionDigest : Nat → List Byte

/-- Bytes of an identity certificate (R103 gives no length). DESIGN CHOICE (log entry 12). -/
opaque certBytes : Nat

/-- The owner state that a core record's control area holds which no save of this device wrote, and the Cobbler SVN it names
(R112). DESIGN CHOICE (log entry 18). -/
opaque controlOwner : List Byte → Option Machine.Owner
opaque controlSvn : List Byte → BitVec 16

/-- Whether the destination of a migration, another device, holds a VD that fits, for the n-th free value: how it is asked
is not given (R123). DESIGN CHOICE (log entry 21). -/
opaque destAccepts : Nat → Bool

/-- The public key of the device of a fabric id, with which its HANDOFF records verify (R102). DESIGN CHOICE (log entry 12). -/
opaque peerKey : Nat → List Byte

/-- The serial number of the device, and a register of a capability that no rule describes: its value where software has not written it,
and the bits that a write sets (R26). PCI Express gives them; DESIGN CHOICE (log entry 99). -/
opaque serialNumber : W64
opaque capReg : Nat → Nat → Nat → W64
opaque capMask : Nat → Nat → Nat → W64

/-- What the device answers to an object that the DOE mailbox has taken, after a transcript (R37): the bytes, and what the answer is: 1 one
that it signs with its identity key; 2 the acceptance of the end of an exchange; 3 the end of a session; else none of these. The messages
of SPDM are its standard's; DESIGN CHOICE (log entry 99). -/
opaque spdmAnswer : List Byte → List Byte → List Byte × Nat

/-- Whether a data-link error made a link that was up train anew, for the n-th free value: no input tells (R35). DESIGN CHOICE (log
entry 127). -/
opaque linkFailed : Nat → Bool

/-- Which of several reads of host memory for one queue a time-out means, for the n-th free value (R35). DESIGN CHOICE (log entry 105). -/
opaque timedOutRead : Nat → Nat

end Sys2Proof.Config
end

