-- ==== Sys2Proof/Machine/Keccak.lean ====
section
/-! DEFINITION. SHAKE256, by which the specification names every digest (R88-R104, R297): FIPS 202, PRESUMED (log entry 84); and
the digests that the device's keys give. -/

namespace Sys2Proof.Machine

/-- The 25 lanes of the permutation's state, lane x + 5·y. -/
abbrev Lanes := List W64

/-- Lane (x, y), both modulo 5. -/
def lane (a : Lanes) (x y : Nat) : W64 := a.getD (x % 5 + 5 * (y % 5)) 0

/-- The state whose lane (x, y) is `f x y`. -/
def lanes (f : Nat → Nat → W64) : Lanes := (List.range 25).map fun i => f (i % 5) (i / 5)

/-- Rotation offsets, lane x + 5·y. -/
def rhoOffsets : List Nat :=
  [0, 1, 62, 28, 27, 36, 44, 6, 55, 20, 3, 10, 43, 25, 39, 41, 45, 15, 21, 8, 18, 2, 61, 56, 14]

/-- The constant that each round adds to lane (0, 0). -/
def iotaConstants : List W64 :=
  [0x0000000000000001, 0x0000000000008082, 0x800000000000808A, 0x8000000080008000, 0x000000000000808B, 0x0000000080000001,
   0x8000000080008081, 0x8000000000008009, 0x000000000000008A, 0x0000000000000088, 0x0000000080008009, 0x000000008000000A]
  ++ [0x000000008000808B, 0x800000000000008B, 0x8000000000008089, 0x8000000000008003, 0x8000000000008002, 0x8000000000000080,
      0x000000000000800A, 0x800000008000000A, 0x8000000080008081, 0x8000000000008080, 0x0000000080000001, 0x8000000080008008]

/-- θ: each lane takes the parities of two columns. -/
def theta (a : Lanes) : Lanes :=
  let c := (List.range 5).map fun x => (List.range 5).foldl (fun v y => v ^^^ lane a x y) 0
  lanes fun x y => lane a x y ^^^ c.getD ((x + 4) % 5) 0 ^^^ (c.getD ((x + 1) % 5) 0).rotateLeft 1

/-- ρ and π: lane (x, y), rotated, goes to lane (y, 2x + 3y). -/
def rhoPi (a : Lanes) : Lanes :=
  lanes fun x y =>
    let i := (x + 3 * y) % 5
    (lane a i x).rotateLeft (rhoOffsets.getD (i + 5 * x) 0)

/-- χ: each lane takes the two after it in its row. -/
def chi (a : Lanes) : Lanes := lanes fun x y => lane a x y ^^^ (~~~(lane a (x + 1) y) &&& lane a (x + 2) y)

/-- One round with its constant. -/
def keccakRound (a : Lanes) (rc : W64) : Lanes :=
  let b := chi (rhoPi (theta a))
  b.set 0 (b.headD 0 ^^^ rc)

/-- The permutation. -/
def keccakF (a : Lanes) : Lanes := iotaConstants.foldl keccakRound a

/-- Bytes of a block of SHAKE256. -/
def shakeRate : Nat := 136

/-- The lanes of a block. -/
def blockLanes (b : List Byte) : Lanes := (List.range 25).map fun i => BitVec.ofNat 64 (leNat ((b.drop (8 * i)).take 8))

/-- Take in one block. -/
def absorb (a : Lanes) (b : List Byte) : Lanes := keccakF ((List.zip a (blockLanes b)).map fun (x, y) => x ^^^ y)

/-- The message with its suffix and padding, to a whole number of blocks. -/
def shakePad (m : List Byte) : List Byte :=
  let z := shakeRate - 1 - m.length % shakeRate
  if z = 0 then m ++ [0x9F] else m ++ 0x1F :: List.replicate (z - 1) 0 ++ [0x80]

/-- Take in `n` blocks. -/
def absorbAll : Nat → List Byte → Lanes → Lanes
  | 0, _, a => a
  | n + 1, m, a => absorbAll n (m.drop shakeRate) (absorb a (m.take shakeRate))

/-- The bytes of `n` blocks of output. -/
def squeeze : Nat → Lanes → List Byte
  | 0, _ => []
  | n + 1, a => (a.flatMap fun v => natLe 8 v.toNat).take shakeRate ++ squeeze n (keccakF a)

/-- SHAKE256 with an output of `n` bytes. -/
def shake256 (n : Nat) (m : List Byte) : List Byte :=
  let p := shakePad m
  (squeeze ((n + shakeRate - 1) / shakeRate) (absorbAll (p.length / shakeRate) p (List.replicate 25 0))).take n

/-- The device identity: SHAKE256, 32 bytes, of the device's public key (R90). -/
def deviceIdentity : List Byte := shake256 32 Config.deviceKey

/-- The identity of the device of a fabric id, from its public key (R90, R98). -/
def peerIdentity (d : Nat) : List Byte := shake256 32 (Config.peerKey d)

end Sys2Proof.Machine
end

