-- ==== Sys2Proof/Machine/Ops.lean ====
section
/-! DEFINITION. The shared operations over the state: accessors, timers, the token counters, taking a fault
(`raise`) and resuming, and the issue of one instruction of a stream (R179-R185, R317, R339). -/

namespace Sys2Proof.Machine

/-- What a step answers. -/
abbrev Res := Host.Outcome State Fault Refusal

/-! ### Accessors -/

/-- Core `c`. -/
def State.core (s : State) (c : Nat) : CoreSt := tget {} s.cores c

/-- Replace core `c`. -/
def State.setCore (s : State) (c : Nat) (k : CoreSt) : State := { s with cores := tset s.cores c k }

/-- Owner `w` of a core. -/
def CoreSt.owner (k : CoreSt) (w : Nat) : Owner := tget {} k.owners w

/-- Replace owner `w` of a core. -/
def CoreSt.setOwner (k : CoreSt) (w : Nat) (o : Owner) : CoreSt := { k with owners := tset k.owners w o }

/-- Owner `w` of core `c`. -/
def State.owner (s : State) (c w : Nat) : Owner := (s.core c).owner w

/-- Replace owner `w` of core `c`. -/
def State.setOwner (s : State) (c w : Nat) (o : Owner) : State := s.setCore c ((s.core c).setOwner w o)

/-- The owner of the slot in issue. -/
def State.curOwner (s : State) : Owner := s.owner s.cur.core s.cur.wid

/-- Replace the owner of the slot in issue. -/
def State.setCurOwner (s : State) (o : Owner) : State := s.setOwner s.cur.core s.cur.wid o

/-- A core as scheduled reads find it in cycle `now`: lines that a transfer has filled and their target has not acquired may still read as
they were, until a cycle that a free value gives (R223, R228): DEDUCED (log entry 16). -/
def CoreSt.seen (now : Nat) (k : CoreSt) : CoreSt :=
  k.unseen.foldr (fun u k => if now < u.until_ then
    { k with win := csets k.win (64 * u.line) u.old
             winPoison := if u.poison then sins u.line k.winPoison else sdel u.line k.winPoison } else k) k

/-- The core of the slot in issue, as its scheduled reads find it. -/
def State.curCore (s : State) : CoreSt := (s.core s.cur.core).seen s.cycle

/-- Strand `i`. -/
def State.strand (s : State) (i : Nat) : Strand := tget {} s.strands i

/-- Replace strand `i`. -/
def State.setStrand (s : State) (i : Nat) (t : Strand) : State := { s with strands := tset s.strands i t }

/-- Virtual device `c`. -/
def State.vd (s : State) (c : Nat) : Vd := tget {} s.vds c

/-- Replace virtual device `c`. -/
def State.setVd (s : State) (c : Nat) (v : Vd) : State := { s with vds := tset s.vds c v }

/-- Function `f`. -/
def State.fn (s : State) (f : Nat) : Fn := tget {} s.fns f

/-- Replace function `f`. -/
def State.setFn (s : State) (f : Nat) (v : Fn) : State := { s with fns := tset s.fns f v }

/-- Queue `q` of function `f`; queues are numbered 64·f + q. -/
def State.queue (s : State) (f q : Nat) : Queue := tget {} s.queues (64 * f + q)

/-- Replace queue `q` of function `f`. -/
def State.setQueue (s : State) (f q : Nat) (v : Queue) : State := { s with queues := tset s.queues (64 * f + q) v }

/-- Completion queue `n` of function `f`. -/
def State.cq (s : State) (f n : Nat) : Cq := tget {} s.cqs (64 * f + n)

/-- Replace completion queue `n` of function `f`. -/
def State.setCq (s : State) (f n : Nat) (v : Cq) : State := { s with cqs := tset s.cqs (64 * f + n) v }

/-- The firmware context of core `c`. -/
def State.cob (s : State) (c : Nat) : Cobbler := (s.core c).cob

/-- Replace the firmware context of core `c`. -/
def State.setCob (s : State) (c : Nat) (b : Cobbler) : State := s.setCore c { s.core c with cob := b }

/-- One stream of an owner. -/
def Owner.stream (o : Owner) : StreamId → Stream
  | .c => o.sc
  | .l => o.sl
  | .m => o.sm
  | .v => o.sv
  | .s => o.ss
  | .f => {}

/-- Replace one stream of an owner. -/
def Owner.setStream (o : Owner) (st : StreamId) (t : Stream) : Owner :=
  match st with
  | .c => { o with sc := t }
  | .l => { o with sl := t }
  | .m => { o with sm := t }
  | .v => { o with sv := t }
  | .s => { o with ss := t }
  | .f => o

/-- A stream's number, as in a fault record (R265). -/
def streamNum : StreamId → Nat
  | .c => 0
  | .l => 1
  | .m => 2
  | .v => 3
  | .s => 4
  | .f => 7

/-- The five streams of an owner in ring order (R183). -/
def streams : List StreamId := [.c, .l, .m, .v, .s]

/-- The timebase: cycles since cold reset modulo 2^64 (R157). -/
def State.timebase (s : State) : W64 := BitVec.ofNat 64 s.cycle

/-! ### Operations to come -/

/-- Carry out `i` after what already waits. -/
def State.push (s : State) (i : Instr) : State := { s with agenda := s.agenda ++ [i] }

/-- Carry out `i` among what performs in this cycle, or in the next where that is under way (R216). -/
def State.soon (s : State) (i : Instr) : State := { s with timers := s.timers ++ [(s.cycle, i)] }

/-- Carry out a list of operations. -/
def State.pushAll (s : State) (l : List Instr) : State := { s with agenda := s.agenda ++ l }

/-- Carry out `i` at origin cycle `c`. -/
def State.at (s : State) (c : Nat) (i : Instr) : State := { s with timers := s.timers ++ [(c, i)] }

/-- Carry out `i` when `d` ns of the reference have passed. -/
def State.afterNs (s : State) (d : Nat) (i : Instr) : State := { s with nsTimers := s.nsTimers ++ [(s.ref + d, i)] }

/-- Drop every timer for `i`. -/
def State.cancel (s : State) (i : Instr) : State :=
  { s with timers := s.timers.filter fun (_, j) => j ≠ i, nsTimers := s.nsTimers.filter fun (_, j) => j ≠ i
           due := s.due.filter (· ≠ i) }

/-- Send something out of the device. -/
def State.emit (s : State) (x : Out) : State := { s with out := s.out ++ [x] }

/-- Take the next free value's number. -/
def State.tick1 (s : State) : State := { s with free := s.free + 1 }

/-! ### Regions (R162, R163) -/

/-- Number of core (x, y). -/
def coreAt (x y : Nat) : Nat := y * Config.meshW + x

/-- The physical cores of a strand's region, in region order. -/
def Strand.cores (t : Strand) : List Nat :=
  (List.range (t.w * t.h)).map fun i => coreAt (t.x0 + i % t.w) (t.y0 + i / t.w)

/-- The (core, weave id) pairs of a strand's owners that have not departed, in region order. -/
def Strand.slots (t : Strand) : List (Nat × Nat) := (t.cores.zip t.wids).filter fun x => x.2 < 8

/-- Barrier-net latency of a region, N = 4·(w + h) (R164). -/
def Strand.net (t : Strand) : Nat := 4 * (t.w + t.h)

/-- The stop distance D = ceil(4·(w + h)/S_min) + 2 (R261). -/
def stopDistance (w h smin : Nat) : Nat := (4 * (w + h) + smin - 1) / smin + 2

/-! ### Tokens (R183, R184) -/

/-- The left neighbour of a stream in the ring C-L-M-V-S-C, by number. -/
def leftOf (a : Nat) : Nat := (a + 4) % 5

/-- The right neighbour. -/
def rightOf (a : Nat) : Nat := (a + 1) % 5

/-- The counter that a stream gives to, giver·2 + d, d = 0 to the right and 1 to the left (R265). -/
def tokenCtr (giver d : Nat) : Nat := giver * 2 + d

/-- Counters taken from by token bits `t` of stream number `a`: TL, TR. -/
def tokenTakes (a : Nat) (t : BitVec 4) : List Nat :=
  (if t.getLsbD 1 then [tokenCtr (leftOf a) 0] else []) ++ (if t.getLsbD 0 then [tokenCtr (rightOf a) 1] else [])

/-- Counters given to by token bits `t` of stream number `a`: GL, GR. -/
def tokenGives (a : Nat) (t : BitVec 4) : List Nat :=
  (if t.getLsbD 3 then [tokenCtr a 1] else []) ++ (if t.getLsbD 2 then [tokenCtr a 0] else [])

/-- The first counter of a list that holds 0 at the start of the tick. -/
def missingTake (tok : Cells 4) : List Nat → Option Nat
  | [] => none
  | c :: l => if cget tok c = 0 then some c else missingTake tok l

/-- The token operations of an instruction as effects at the end of its tick. -/
def tokenEffects (a : Nat) (t : BitVec 4) : List (Nat × Effect) :=
  (tokenTakes a t).map (fun c => (1, .token c false)) ++ (tokenGives a t).map (fun c => (1, .token c true))

/-! ### The guard (R181) -/

/-- Predicate `r` as an owner sees it. -/
def predOf (p : BitVec 8) (r : Nat) : Bool := p.getLsbD r

/-- The fs predicate: 1 in the executions 0 to n - 1 of the pipelined block that encloses the instruction, unless an
eviction has cleared it (R188, R189). -/
def fsOf : List Block → Bool
  | [] => false
  | b :: bs => if b.stages = 0 then fsOf bs else decide (b.iter < b.count) && !b.drain

/-- What a selector code tests: always, a predicate, fs, or the complement of a predicate. -/
def selects (p : BitVec 8) (blocks : List Block) (g : BitVec 4) : Bool :=
  if g = 0 then true
  else if g.toNat < 8 then predOf p g.toNat
  else if g = 8 then fsOf blocks
  else !predOf p (g.toNat - 8)

/-! ### Where an instruction stands -/

/-- The parcel at an offset of an image. -/
def parcelAt (img : List Parcel) (k : Nat) : Parcel := img.getD k 0

/-- Parcels of the instruction at an offset: one for a short form, two for a long form or a header (R298). -/
def plen (img : List Parcel) (k : Nat) : Nat := if (parcelAt img k).getLsbD 15 then 2 else 1

/-- Whether the long form `op` of a stream has a G field (R302, R306-R311). -/
def hasG (st : StreamId) (op : Nat) : Bool :=
  match st with
  | .c | .f => decide (4 ≤ op) && !(decide (op = 0x36) || decide (op = 0x37) || decide (op = 0x4E))
  | .l => decide (4 ≤ op) && decide (op ≠ 0x11)
  | .m => decide (4 ≤ op)
  | .v => decide (4 ≤ op) && !(decide (0x2C ≤ op ∧ op ≤ 0x2E) || decide (op = 0x44) || decide (0x53 ≤ op ∧ op ≤ 0x6B))
  | .s => decide (4 ≤ op) && decide (op ≠ 0x21)

/-- The engine's status word of the instruction at an offset, with its detail field (R265). -/
def statusWord (st : StreamId) (img : List Parcel) (k detail : Nat) : W32 :=
  let p := parcelAt img k
  let d := (detail % 65536) * 65536
  if p.getLsbD 15 then
    let op := (p.extractLsb' 8 7).toNat
    let g := if hasG st op then ((parcelAt img (k + 1)).extractLsb' 12 4).toNat else 0
    BitVec.ofNat 32 (op + 128 + g * 256 + (p.extractLsb' 0 4).toNat * 4096 + d)
  else
    BitVec.ofNat 32 ((p.extractLsb' 10 5).toNat + (p.extractLsb' 4 4).toNat * 4096 + d)

/-- Where the instruction at a program counter stands: innermost block first in the list. -/
def locOf (st : StreamId) (img : List Parcel) (pc : Nat) (blocks : List Block) (detail : Nat) : Loc :=
  { parcel := pc, depth := blocks.length, inner := (blocks.head?.map (·.iter)).getD 0,
    outer := (blocks.getLast?.map (·.iter)).getD 0, status := statusWord st img pc detail }

/-- Where the next instruction of a stream stands. -/
def Stream.loc (t : Stream) (st : StreamId) (detail : Nat) : Loc := locOf st t.img t.pc t.blocks detail

/-- Leave every block whose body ends at `pc`, or begin its next execution (R177, R188). Returns the program counter
and the open blocks. -/
def wrap : Nat → List Block → Nat × List Block
  | pc, [] => (pc, [])
  | pc, b :: bs =>
    if pc = b.start + b.len then
      if b.iter + 1 < b.total then (b.start, { b with iter := b.iter + 1 } :: bs)
      else wrap pc bs
    else (pc, b :: bs)

/-- Step a stream past the instruction that issued at tick `k` with idle count `idle` and occupancy `occ` (R179). -/
def Stream.advance (t : Stream) (k idle occ : Nat) : Stream :=
  let r := wrap (t.pc + plen t.img t.pc) t.blocks
  { t with pc := r.1, blocks := r.2, next := k + max (1 + idle) occ,
           prevPc := t.pc, prevBlocks := t.blocks, prevTick := k }

/-- Put a stream back at the instruction it issued last, and stop it there: that instruction is its head (R261). -/
def Stream.unissue (t : Stream) : Stream :=
  { t with pc := t.prevPc, blocks := t.prevBlocks, next := t.prevTick, stopped := true, ended := false }

/-! ### Taking a fault (R260-R263)

A fault of the hardware is no end of the machine: the strand records it, the faulting stream issues nothing from this
tick on, and the strand stops at T + D. The primary fault of the tick is chosen when the tick ends (R263). -/

/-- Why an instruction does not perform: its cause, the address and the lane mask that its record shows, the detail
field of its status word, and what takes effect at the end of the tick all the same. -/
structure Bad where
  cause : Cause
  addr : W64 := 0
  lanes : LaneMask := 0
  detail : Nat := 0
  /-- what takes effect all the same: the format word is popped (R236), the threshold store is unconfigured (R370) -/
  still : List Effect := []
  deriving DecidableEq, Repr

/-- The effects of an instruction as pending work of its owner. -/
def pendOf (k : Nat) (st : StreamId) (loc : Loc) (l : List (Nat × Effect)) : List Pend :=
  l.map fun (d, e) => { due := k + d, iss := k, str := st, eff := e, loc := loc }

/-- Record a fault of a strand. -/
def State.addFault (s : State) (sid : Nat) (e : FaultEv) : State :=
  let t := s.strand sid
  s.setStrand sid { t with faults := t.faults ++ [e] }

/-- The instruction in issue raises a fault: its stream stops with that instruction as its head. `gives` are the token
counters that it would have given to. -/
def raiseGiving (gives : List Nat) (b : Bad) (s : State) : State :=
  let o := s.curOwner
  let st := s.cur.str
  let t := o.stream st
  let e : FaultEv := { cause := b.cause, core := s.cur.core, wid := s.cur.wid, region := o.region, str := st,
                       addr := b.addr, lanes := b.lanes, loc := t.loc st b.detail, gives := gives }
  let o' := o.setStream st { t with stopped := true }
  let o' := { o' with pend := o'.pend ++ pendOf o.tick st {} (b.still.map fun e => (1, e)) }
  (s.setCurOwner o').addFault o.sid e

/-- The instruction in issue raises a fault, and gives to no token counter. -/
def raise (b : Bad) (s : State) : State := raiseGiving [] b s

/-- An instruction that issued earlier in its occupancy raises a fault in this tick: its stream goes back to it and
stops, and what it has still to do is dropped (R339). -/
def raiseLate (c w : Nat) (st : StreamId) (iss : Nat) (loc : Loc) (b : Bad) (s : State) : State :=
  let o := s.owner c w
  let e : FaultEv := { cause := b.cause, core := c, wid := w, region := o.region, str := st, addr := b.addr,
                       lanes := b.lanes, loc := loc }
  let live (p : Pend) : Bool :=
    !(decide (p.str = st) && decide (p.iss = iss) &&
      match p.eff with | .read _ => true | .port _ _ => true | .thr _ => true | _ => false)
  let o := { o with pend := o.pend.filter live }
  (s.setOwner c w (o.setStream st (o.stream st).unissue)).addFault o.sid e

/-- A strand-wide fault, or one that a transfer unit or the hub reports: no stream stops before the cut (R261). -/
def raiseAt (sid core wid : Nat) (st : StreamId) (async : Bool) (cause : Cause) (addr : W64) (loc : Loc) (s : State) :
    State :=
  s.addFault sid { cause := cause, core := core, wid := wid, region := (s.owner core wid).region, str := st,
                   async := async, addr := addr, loc := loc }

/-- The code of a fault cause (R260). -/
def Cause.code : Cause → Nat
  | .scheduleMiss => 0x01
  | .tokenOverflow => 0x02
  | .fqUnderflow => 0x03
  | .fqOverflow => 0x04
  | .formatInvalid => 0x05
  | .omUnclaimed => 0x06
  | .omClaimConflict => 0x07
  | .ringOverrun => 0x08
  | .ringUnderrun => 0x09
  | .laneFault => 0x0A
  | .poisonConsumed => 0x0B
  | .predConflict => 0x0C
  | .bankConflict => 0x0D
  | .patternMismatch => 0x0E
  | .windowFault => 0x0F
  | .rendezvousMismatch => 0x10
  | .transferTranslation => 0x11
  | .transferAccess => 0x12
  | .transferUncorrectable => 0x13
  | .trap => 0x14
  | .watchdog => 0x15
  | .thresholdBusy => 0x16
  | .sourceLost => 0x17
  | .replayDivergence => 0x18
  | .operandParity => 0x19
  | .coreLost => 0x1A

/-- The cause of a code. -/
def causeOf (n : Nat) : Cause :=
  match n with
  | 0x0E => .patternMismatch
  | 0x0F => .windowFault
  | 0x11 => .transferTranslation
  | 0x12 => .transferAccess
  | 0x17 => .sourceLost
  | 0x1A => .coreLost
  | _ => .transferUncorrectable

/-! ### The issue of one instruction -/

/-- What an instruction that performs does: effects with their delays from the issue tick, and the bank ports it uses
in the issue tick. -/
structure Act where
  effs : List (Nat × Effect) := []
  ports : List Port := []
  deriving DecidableEq, Repr

/-- The ports of an access, as a stream has them. -/
def portsFor (st : StreamId) (l : List Port) : List Port := l.map fun p => { p with str := st }

/-- An instruction's own part: its checks in order, and what it does when they pass. -/
abbrev Body := State → Owner → Except Bad Act

/-- The TLM records that an exit from an outermost block writes (R274). -/
def exitEffects (t t' : Stream) : List (Nat × Effect) :=
  if !t.blocks.isEmpty && t'.blocks.isEmpty then [(1, .tlm)] else []

/-- Issue for an owner's stream (R179-R184, R317, R339): the takes, then the guard, then the instruction's checks. A
faulting instruction performs nothing, its token operations included. One that is guarded off performs its tokens and
spends its tick, its occupancy and its idle count. -/
def issueOwner (h : Hd) (guarded : Bool) (occ : Nat) (body : Body) (s : State) : State :=
  let o := s.curOwner
  let st := s.cur.str
  let t := o.stream st
  let k := o.tick
  match missingTake o.tok (tokenTakes (streamNum st) h.tok) with
  | some c => raise { cause := .scheduleMiss, detail := c } s
  | none =>
    let loc := t.loc st 0
    let t' := t.advance k h.idle.toNat occ
    let o' := o.setStream st t'
    let toks := tokenEffects (streamNum st) h.tok ++ exitEffects t t'
    if guarded && !selects o.p t.blocks h.g then
      s.setCurOwner { o' with pend := o'.pend ++ pendOf k st loc toks }
    else
      match body s o with
      | .error b => raiseGiving (tokenGives (streamNum st) h.tok) b s
      | .ok a =>
        s.setCurOwner { o' with pend := o'.pend ++ pendOf k st loc (a.effs ++ toks), ports := o'.ports ++ portsFor st a.ports }

/-! ### Writes of the scratchpad -/

/-- Units of `size` bytes that a list of addresses covers whole. -/
def wholeUnits (size : Nat) (l : List Nat) : List Nat :=
  (sall (l.map (· / size)) []).filter fun u => (List.range size).all fun i => l.contains (u * size + i)

/-- Write bytes at core addresses of the scratchpad: a whole 8-byte word renews its check bits (R213), a whole line
clears its poison (R214). -/
def winWrite (k : CoreSt) (l : List (Nat × Byte)) : CoreSt :=
  let as := l.map (·.1)
  { k with win := cputs k.win l
           winErr := if k.winErr.isEmpty then [] else k.winErr.filter fun w => !(wholeUnits 8 as).contains w
           winPoison := if k.winPoison.isEmpty then [] else k.winPoison.filter fun n => !(wholeUnits 64 as).contains n }

/-! ### The firmware context -/

/-- Cobbler's registers in the form of an owner's, so that the C-stream instructions are written once (R405): no
register is poisoned. -/
def Cobbler.view (b : Cobbler) : Owner :=
  { x := b.x.map fun (r, v) => (r, { val := v }), p := b.p, e := b.e }

/-- Put a core into lockout (R85). -/
def lockCore (c : Nat) (s : State) : State := s.push (.coreLockout c)

/-- One immediate result in the firmware context. Window addresses are offsets of the reserved area (R406). -/
def cobEffect (k : CoreSt) : Effect → CoreSt
  | .x r v => if r = 0 then k else { k with cob := { k.cob with x := cset k.cob.x r.toNat v.val } }
  | .pred r v =>
    { k with cob := { k.cob with p := if v then k.cob.p ||| (1#8 <<< r.toNat) else k.cob.p &&& ~~~(1#8 <<< r.toNat) } }
  | .ereg r v => { k with cob := { k.cob with e := cset k.cob.e r.toNat v } }
  | .win l => winWrite k (l.map fun (a, v) => (Config.reservedBase + a, v))
  | _ => k

/-- Step Cobbler past its instruction, with `idle` issue cycles left unused before the next one. -/
def Cobbler.advance (b : Cobbler) (idle : Nat) : Cobbler :=
  let r := wrap (b.pc + plen b.img b.pc) b.blocks
  { b with pc := r.1, blocks := r.2, wait := idle }

/-- Issue in the firmware context (R405): a token bit or the guard fs is an encoding without meaning there, so the core
enters lockout; results are there at once, since the context is interlocked: DESIGN CHOICE (log entry 80). An IDLE leaves
its further issue cycles unused, as an idle count does. -/
def issueCob (h : Hd) (guarded : Bool) (occ : Nat) (fw : Bool) (body : Body) (s : State) : State :=
  let c := s.cur.core
  let b := s.cob c
  if !fw || decide (h.tok ≠ 0) || decide (h.g = 8) then lockCore c s
  else
    let k := (s.core c)
    let idle := max h.idle.toNat (occ - 1)
    if guarded && !selects b.p b.blocks h.g then s.setCore c { k with cob := b.advance idle }
    else
      match body s b.view with
      | .error _ => lockCore c s
      | .ok a =>
        let k := a.effs.foldl (fun k e => cobEffect k e.2) k
        s.setCore c { k with cob := k.cob.advance idle }

/-- The issue of an instruction of the slot's stream: `guarded` for formats with a guard, `occ` its occupancy, `fw`
whether it has a meaning in the firmware context. -/
def issue (h : Hd) (guarded : Bool) (occ : Nat) (fw : Bool) (body : Body) (s : State) : Res :=
  .next (if s.cur.str = .f then issueCob h guarded occ fw body s else issueOwner h guarded occ body s)

/-! ### Small lists -/

/-- Insert by a key, after equal keys. -/
def insertBy {α : Type} (key : α → Nat) (a : α) : List α → List α
  | [] => [a]
  | b :: l => if key a < key b then a :: b :: l else b :: insertBy key a l

/-- Stable sort by a key. -/
def sortBy {α : Type} (key : α → Nat) (l : List α) : List α := l.foldl (fun acc a => insertBy key a acc) []

/-- The largest of a list of numbers, 0 for none. -/
def maxOf (l : List Nat) : Nat := l.foldl max 0

/-- Numbers below 2^n as bit vectors. -/
abbrev bv (n v : Nat) : BitVec n := BitVec.ofNat n v

/-- Whether a Bool, as 0 or 1. -/
def b01 (b : Bool) : Nat := if b then 1 else 0

/-- Bits [hi:lo] of a number. -/
def bits (v hi lo : Nat) : Nat := (v / 2 ^ lo) % 2 ^ (hi - lo + 1)

/-- Bit n of a number. -/
def bit (v n : Nat) : Bool := v.testBit n

end Sys2Proof.Machine
end

