-- ==== Sys2Proof/Machine/Operands.lean ====
section
/-! DEFINITION. Operand forms: scalar registers with poison, the window and its banks, ag patterns, device addresses,
operand-memory slots, vector registers and masks (chapters 09 and 10). -/

namespace Sys2Proof.Machine

/-! ### Scalar registers -/

/-- Register x[r]: x0 reads 0 and is never poisoned (R172). -/
def rx (o : Owner) (r : BitVec 4) : XReg := if r = 0 then {} else tget {} o.x r.toNat

/-- A value with a clean tag. -/
def clean (v : W64) : XReg := { val := v }

/-- Ag set `a` as visible (R203). -/
def rag (o : Owner) (a : BitVec 3) : Ag := tget {} o.ag a.toNat

/-- Exchange register. -/
def re (o : Owner) (r : Nat) : W64 := cget o.e r

/-! ### The window (R197, R198) -/

/-- Byte address in the core's scratchpad of window address `a`. -/
def winAt (o : Owner) (a : Nat) : Nat := o.winBase + a

/-- `n` bytes of the window. -/
def winBytes (k : CoreSt) (o : Owner) (a n : Nat) : List Byte := cgets k.win (winAt o a) n

/-- The bank of a 64-byte line of the window: a[10:6] (R197). -/
def bankOf (line : Nat) : Nat := line % 32

/-- Two different lines of one bank among the lines of one access; the lines hold no repeats. -/
def selfClash : List Nat → Option Nat
  | [] => none
  | a :: l => if l.any fun b => bankOf b = bankOf a then some a else selfClash l

/-- Whether an access to a line in this tick meets a bank port already in use (R198): reads of one line share a port,
a write shares none. -/
def portTaken (ports : List Port) (wr : Bool) (line : Nat) : Bool :=
  ports.any fun p => p.wr = wr && decide (bankOf p.line = bankOf line) && (wr || decide (p.line ≠ line))

/-- Take the bank ports for the lines of one access, or BANK_CONFLICT with the address of a line that has none. -/
def takePorts (ports : List Port) (lines : List Nat) (wr : Bool) : Except Bad (List Port) :=
  match selfClash lines with
  | some l => .error { cause := .bankConflict, addr := bv 64 (64 * l) }
  | none =>
    match lines.find? (portTaken ports wr) with
    | some l => .error { cause := .bankConflict, addr := bv 64 (64 * l) }
    | none => .ok (lines.map fun l => { line := l, wr := wr })

/-- Whether a window line holds an 8-byte word that fails SEC-DED (R213). -/
def lineErr (k : CoreSt) (o : Owner) (line : Nat) : Bool :=
  k.winErr.any fun w => decide (w / 8 = winAt o (64 * line) / 64)

/-- Whether a window line carries the poison of a landed transfer (R214). -/
def linePoison (k : CoreSt) (o : Owner) (line : Nat) : Bool := k.winPoison.contains (winAt o (64 * line) / 64)

/-- The checks on the lines that a scheduled read meets: OPERAND_PARITY, then TRANSFER_UNCORRECTABLE (R339): DEDUCED
(log entries 26, 27). -/
def readable (k : CoreSt) (o : Owner) (lines : List Nat) : Except Bad Unit :=
  match lines.find? (lineErr k o) with
  | some l => .error { cause := .operandParity, addr := bv 64 (64 * l) }
  | none =>
    match lines.find? (linePoison k o) with
    | some l => .error { cause := .transferUncorrectable, addr := bv 64 (64 * l) }
    | none => .ok ()

/-! ### Patterns (R203) -/

/-- Start of row `i`. -/
def Ag.row (g : Ag) (i : Nat) : Int := (g.base.toNat : Int) + (i : Int) * g.str1.toInt

/-- Bytes of a pattern. -/
def Ag.bytes (g : Ag) : Nat := g.len0.toNat * g.cnt1.toNat

/-- Window address of byte `n` of a pattern, in pattern order: row by row, upward within a row. -/
def Ag.byteAt (g : Ag) (n : Nat) : Int := g.row (n / g.len0.toNat) + (n % g.len0.toNat : Nat)

/-- Whether a row lies in a window of `size` bytes. -/
def Ag.rowIn (g : Ag) (size i : Nat) : Bool := decide (0 ≤ g.row i ∧ g.row i + g.len0.toNat ≤ size)

/-- Whether every row lies in the window: the rows rise or fall evenly, so the first and the last decide (R197). -/
def Ag.inside (g : Ag) (size : Nat) : Bool := g.rowIn size 0 && g.rowIn size (g.cnt1.toNat - 1)

/-- The first address of a pattern outside the window, as a fault shows it. -/
def Ag.firstOut (g : Ag) (size : Nat) : W64 :=
  match (List.range g.cnt1.toNat).find? fun i => !g.rowIn size i with
  | none => 0
  | some i =>
    if 0 ≤ g.row i ∧ g.row i < size then bv 64 size else (BitVec.ofInt 32 (g.row i)).setWidth 64

/-- The lines that bytes [lo, hi) of a pattern inside the window touch, each once. -/
def Ag.lines (g : Ag) (lo hi : Nat) : List Nat :=
  let n := g.len0.toNat
  let rows := (List.range ((hi - 1) / n + 1 - lo / n)).map (· + lo / n)
  rows.foldl (fun acc r =>
    let a := (g.row r).toNat + (max lo (r * n) - r * n)
    let b := (g.row r).toNat + (min hi ((r + 1) * n) - r * n) - 1
    sall ((List.range (b / 64 + 1 - a / 64)).map (· + a / 64)) acc) []

/-- Bytes [lo, hi) of a pattern, in pattern order. -/
def Ag.read (g : Ag) (k : CoreSt) (o : Owner) (lo hi : Nat) : List Byte :=
  (List.range (hi - lo)).map fun i => cget k.win (winAt o (g.byteAt (lo + i)).toNat)

/-- The shape of a pattern as an instruction needs it, or PATTERN_MISMATCH (R203). -/
def Ag.shape (g : Ag) (len0 cnt1 : Nat) : Bool := decide (g.len0.toNat = len0 ∧ g.cnt1.toNat = cnt1)

/-- A pattern with a zero length or count (R203). -/
def Ag.empty (g : Ag) : Bool := decide (g.len0 = 0 ∨ g.cnt1 = 0)

/-- PATTERN_MISMATCH unless a condition holds. -/
def needPattern (b : Bool) : Except Bad Unit := if b then .ok () else .error { cause := .patternMismatch }

/-- WINDOW_FAULT unless the pattern lies in the owner's window. -/
def needWindow (o : Owner) (g : Ag) : Except Bad Unit :=
  if g.inside o.winSize then .ok () else .error { cause := .windowFault, addr := g.firstOut o.winSize }

/-- The use of an ag set: BASE advances by STEP at the end of the issue tick (R203). -/
def useAg (a : BitVec 3) : Nat × Effect := (1, .agUse a)

/-! ### The window as transfers see it (R220) -/

/-- The key by which pending results of one tick apply: stream order, then issue order (R186). -/
def pendKey (p : Pend) : Nat := (p.due * 8 + streamNum p.str) * 2 ^ 64 + p.iss

/-- Write bytes of a transfer at core addresses, each with whether it is poisoned: a line that receives a poisoned
byte is poisoned (R206, R214). -/
def winLand (k : CoreSt) (l : List (Nat × Byte × Bool)) : CoreSt :=
  let k' := winWrite k (l.map fun (a, b, _) => (a, b))
  { k' with winPoison := sall ((l.filter fun x => x.2.2).map fun (a, _, _) => a / 64) k'.winPoison }

/-- Write a sum element by element (R227): each is a partial write, which renews no check bits and clears no poison of
the target (R213, R214): DEDUCED (log entry 82). -/
def sumLand (k : CoreSt) : List (Nat × Byte × Bool) → CoreSt
  | a :: b :: c :: d :: l => sumLand (winLand k [a, b, c, d]) l
  | l => winLand k l

/-- Write what a put or a sum brings to its target. -/
def putLand (kind : XKind) (k : CoreSt) (l : List (Nat × Byte × Bool)) : CoreSt :=
  match kind with
  | .sumF | .sumI => sumLand k l
  | _ => winLand k l

/-- A core as its owner's transfers see its scratchpad: with every scheduled write of the owner issued before its
present tick, in the order in which the writes fall due, whether or not their latency has elapsed. -/
def released (k : CoreSt) (o : Owner) : CoreSt :=
  let key (p : Pend) : Nat := match p.eff with
    | .port _ _ => pendKey { p with due := p.due + 3 }
    | _ => pendKey p
  (sortBy key (o.pend.filter fun p => decide (p.iss < o.tick))).foldl
    (fun k p => match p.eff with
      | .win l => winWrite k (l.map fun (a, v) => (winAt o a, v))
      | .port _ l => winWrite k (l.map fun (a, v) => (winAt o a, v))
      | _ => k) k

/-! ### Device addresses -/

/-- The VA an exchange register names (R348). -/
def dva (e : W64) : Nat :=
  if e.toNat / 2 ^ 60 = 15 then (e.toNat / 2 ^ 56) * 2 ^ 64 + e.toNat % 2 ^ 56 else e.toNat

/-! ### Operand memory (R200) -/

/-- Physical slot of o[i]. -/
def omPhys (o : Owner) (i : Nat) : Nat := o.oms.getD i i

/-- Address of the first byte of a slot: 2,048 mantissa bytes and 64 sidecar bytes. -/
def omBase (slot : Nat) : Nat := slot * 2112

/-- The contents of slot o[i]. -/
def omSlot (k : CoreSt) (o : Owner) (i : Nat) : SlotData :=
  let b := omBase (omPhys o i)
  { mant := cslice k.om b 2048, side := cslice k.om (b + 2048) 64 }

/-- Whether every slot of a range is claimed. -/
def claimed (o : Owner) (a n : Nat) : Bool := (List.range n).all fun i => o.claims.getLsbD (a + i)

/-- OM_UNCLAIMED unless every slot of a range is claimed (R340). -/
def needClaim (o : Owner) (a n : Nat) : Except Bad Unit :=
  if claimed o a n then .ok () else .error { cause := .omUnclaimed }

/-- OPERAND_PARITY if a byte of [lo, lo + n) of slot o[i] fails its parity (R202). -/
def omParity (k : CoreSt) (o : Owner) (i lo n : Nat) : Except Bad Unit :=
  let b := omBase (omPhys o i) + lo
  if k.omErr.any fun a => decide (b ≤ a ∧ a < b + n) then .error { cause := .operandParity } else .ok ()

/-! ### Vector registers and masks (R202) -/

/-- Physical register of v[r]. -/
def vPhys (o : Owner) (r : Nat) : Nat := o.vbase + r

/-- The lanes of v[r]. -/
def vlanes (k : CoreSt) (o : Owner) (r : BitVec 4) : Cells 32 := cslice k.vreg (vPhys o r.toNat * 1024) 1024

/-- Mask m[r]. -/
def rmask (o : Owner) (r : BitVec 3) : LaneMask := tget 0 o.m r.toNat

/-- Bytes of v[r] in the lanes of `act` that fail their parity. -/
def vBad (k : CoreSt) (o : Owner) (r : Nat) (act : LaneMask) : Bool :=
  k.vErr.any fun b => decide (b / 4096 = vPhys o r) && act.getLsbD (b % 4096 / 4)

/-- OPERAND_PARITY if a lane read of a vector register fails its parity. -/
def needParity (k : CoreSt) (o : Owner) (l : List (BitVec 4 × LaneMask)) : Except Bad Unit :=
  if l.any fun (r, act) => vBad k o r.toNat act then .error { cause := .operandParity } else .ok ()

/-- OPERAND_PARITY if a mask read fails its parity. -/
def needMask (o : Owner) (l : List (BitVec 3)) : Except Bad Unit :=
  if l.any fun r => o.mErr.any fun b => decide (b / 128 = r.toNat) then .error { cause := .operandParity } else .ok ()

/-- Every lane. -/
def allLanes : LaneMask := BitVec.allOnes 1024

/-- The mask whose bit `l` is `f l`. -/
def maskOf (f : Nat → Bool) : LaneMask := BitVec.ofNat 1024 ((List.range 1024).foldr (fun l n => 2 * n + b01 (f l)) 0)

end Sys2Proof.Machine
end

