-- ==== Sys2Proof/Machine/Flags.lean ====
section
/-! DEFINITION. The conditions that write predicates and masks (R325, R326, R335, R388, R391). The machine has no other
flags: no arithmetic sets one (R238, R243, R321). -/

namespace Sys2Proof.Machine

/-- A condition of two scalar registers; a poisoned source makes it 0 (R192, R325). -/
def cond2 (f : W64 → W64 → Bool) (x y : XReg) : Bool := !x.poison && !y.poison && f x.val y.val

def eq64 (a b : W64) : Bool := decide (a = b)
def ne64 (a b : W64) : Bool := decide (a ≠ b)
def slt64 (a b : W64) : Bool := decide (a.toInt < b.toInt)
def ult64 (a b : W64) : Bool := decide (a.toNat < b.toNat)
def sle64 (a b : W64) : Bool := decide (a.toInt ≤ b.toInt)
def ule64 (a b : W64) : Bool := decide (a.toNat ≤ b.toNat)

/-- The integer conditions of two lanes (R388). -/
def eq32 (a b : W32) : Bool := decide (a = b)
def ne32 (a b : W32) : Bool := decide (a ≠ b)
def slt32 (a b : W32) : Bool := decide (a.toInt < b.toInt)
def sle32 (a b : W32) : Bool := decide (a.toInt ≤ b.toInt)
def ult32 (a b : W32) : Bool := decide (a.toNat < b.toNat)
def ule32 (a b : W32) : Bool := decide (a.toNat ≤ b.toNat)

/-- FP not equal: the complement of equal, so a NaN makes it true (R388). -/
def fne (a b : W32) : Bool := !feq a b

/-- Set or clear one bit of the predicates. -/
def setPred (p : BitVec 8) (r : BitVec 3) (b : Bool) : BitVec 8 :=
  if b then p ||| (1#8 <<< r.toNat) else p &&& ~~~(1#8 <<< r.toNat)

/-- The bits of a mask register after a write to its active lanes (R377). -/
def mergeMask (old val act : LaneMask) : LaneMask := (old &&& ~~~act) ||| (val &&& act)

/-- The lane bits of a condition of two registers. -/
def laneCond (f : W32 → W32 → Bool) (a b : Cells 32) : LaneMask := maskOf fun l => f (cget a l) (cget b l)

end Sys2Proof.Machine
end

