-- ==== Sys2Proof/Machine/Control.lean ====
section
/-! DEFINITION. The common instructions without a rendezvous, and the control stream's arithmetic, selects, compares,
immediates and predicate operations (R318, R321-R327, R335, R336). The firmware context runs the same definitions on
its own registers (R405). -/

namespace Sys2Proof.Machine

/-! ### Shared forms -/

/-- Result of two sources: the first poisoned source in the order B, C makes it poison (R192). -/
def result2 (f : W64 → W64 → W64) (x y : XReg) : XReg :=
  if x.poison then x else if y.poison then y else clean (f x.val y.val)

/-- Result of one source; a poisoned source stays as it is. -/
def result1 (f : W64 → W64) (x : XReg) : XReg := if x.poison then x else clean (f x.val)

/-- Three registers: x[A] := f x[B] x[C], visible `lat` ticks after issue (R321). -/
def alu3 (lat : Nat) (f : W64 → W64 → W64) (a b c : BitVec 4) : Body := fun _ o =>
  .ok { effs := [(lat, .x a (result2 f (rx o b) (rx o c)))] }

/-- One source: x[A] := f x[B] (R323). -/
def alu2 (f : W64 → W64) (a b : BitVec 4) : Body := fun _ o => .ok { effs := [(1, .x a (result1 f (rx o b)))] }

/-- P(A) := a condition of x[B] and x[C] (R325). -/
def cmp3 (f : W64 → W64 → Bool) (p : BitVec 3) (b c : BitVec 4) : Body := fun _ o =>
  .ok { effs := [(1, .pred p (cond2 f (rx o b) (rx o c)))] }

/-- P(pd) := a condition of x[A] and a constant (R326). -/
def cmpi (f : W64 → W64 → Bool) (p : BitVec 3) (a : BitVec 4) (k : W64) : Body := fun _ o =>
  .ok { effs := [(1, .pred p (cond2 f (rx o a) (clean k)))] }

/-- P(A) := a function of the predicates visible (R335). -/
def predOp (p : BitVec 3) (f : BitVec 8 → Bool) : Body := fun _ o => .ok { effs := [(1, .pred p (f o.p))] }

/-! ### Integer functions -/

def shlBy (x y : W64) : W64 := x <<< (y.toNat % 64)
def shrBy (x y : W64) : W64 := x >>> (y.toNat % 64)
def sarBy (x y : W64) : W64 := x.sshiftRight (y.toNat % 64)
def mulh64 (x y : W64) : W64 := BitVec.ofInt 64 (x.toInt * y.toInt / 2 ^ 64)
def mulhu64 (x y : W64) : W64 := BitVec.ofNat 64 (x.toNat * y.toNat / 2 ^ 64)
def smin64 (x y : W64) : W64 := if x.toInt ≤ y.toInt then x else y
def smax64 (x y : W64) : W64 := if x.toInt ≤ y.toInt then y else x
def umin64 (x y : W64) : W64 := if x.toNat ≤ y.toNat then x else y
def umax64 (x y : W64) : W64 := if x.toNat ≤ y.toNat then y else x
def rotl64 (x y : W64) : W64 := x.rotateLeft (y.toNat % 64)
def rotr64 (x y : W64) : W64 := x.rotateRight (y.toNat % 64)

/-- Division (R322): truncated toward zero; by zero all ones; the overflowing case gives x[B]. -/
def div64 (x y : W64) : W64 := if y = 0 then BitVec.allOnes 64 else BitVec.ofInt 64 (x.toInt.tdiv y.toInt)
def divu64 (x y : W64) : W64 := if y = 0 then BitVec.allOnes 64 else BitVec.ofNat 64 (x.toNat / y.toNat)

/-- Remainder (R322): its sign follows the dividend; by zero x[B]; the overflowing case gives 0. -/
def rem64 (x y : W64) : W64 := if y = 0 then x else BitVec.ofInt 64 (x.toInt.tmod y.toInt)
def remu64 (x y : W64) : W64 := if y = 0 then x else BitVec.ofNat 64 (x.toNat % y.toNat)

/-- Leading zeros of an `n`-bit number: what is left above its highest one bit. -/
def clzNat (n v : Nat) : Nat := if v = 0 then n else n - 1 - v.log2

/-- Trailing zeros of the low `n` bits of a number, `n` if there is no one bit. -/
def ctzNat : Nat → Nat → Nat
  | 0, _ => 0
  | n + 1, v => if v % 2 = 1 then 0 else 1 + ctzNat n (v / 2)

/-- One bits among the low `n` bits. -/
def popNat : Nat → Nat → Nat
  | 0, _ => 0
  | n + 1, v => v % 2 + popNat n (v / 2)

def clz64 (x : W64) : W64 := bv 64 (clzNat 64 x.toNat)
def ctz64 (x : W64) : W64 := bv 64 (ctzNat 64 x.toNat)
def popc64 (x : W64) : W64 := bv 64 (popNat 64 x.toNat)
def abs64 (x : W64) : W64 := if x.toInt < 0 then -x else x

/-- Sign extension of the low `n` bits (sx). -/
def sx (n : Nat) (x : W64) : W64 := (x.setWidth n).signExtend 64

/-- Zero extension of the low `n` bits (zx). -/
def zx (n : Nat) (x : W64) : W64 := (x.setWidth n).setWidth 64

/-- Byte i moves to byte 7 - i. -/
def bswap64 (x : W64) : W64 := bv 64 (leNat (natLe 8 x.toNat).reverse)

/-! ### Common instructions (R318) -/

/-- NOP does nothing; its tick, tokens and idle count are the issue's. -/
def execNop (h : Hd) (s : State) : Res := issue h false 1 true (fun _ _ => .ok {}) s

/-- IDLE #n occupies n + 1 ticks. -/
def execIdle (h : Hd) (k : BitVec 12) (s : State) : Res := issue h false (k.toNat + 1) true (fun _ _ => .ok {}) s

/-- END ends the stream; its tokens are performed and its idle count has no effect (R191). -/
def execEndS (h : Hd) (s : State) : Res :=
  issue h false 1 false (fun _ _ => .ok { effs := [(1, .ended)] }) s

/-- A block header opens a block whose count is fixed at entry; it takes no tick, and the stream's next instruction
issues in the tick the header would have taken. A count of 0 skips the body (R176, R177, R188). Cobbler's blocks have
constant counts and no stages; any other header gives lockout (R405). -/
def execBlockHeader (len : BitVec 12) (cs : BitVec 1) (stg : BitVec 3) (cnt : BitVec 12) (s : State) : Res :=
  let open_ (pc : Nat) (blocks : List Block) (n : Nat) : Nat × List Block :=
    let start := pc + 2
    if n = 0 then wrap (start + len.toNat) blocks
    else (start, { start := start, len := len.toNat, count := n, stages := stg.toNat,
                   total := if stg = 0 then n else n + stg.toNat - 1 } :: blocks)
  if s.cur.str = .f then
    let c := s.cur.core
    let b := s.cob c
    if cs = 1 ∨ stg ≠ 0 then .next (lockCore c s)
    else
      let r := open_ b.pc b.blocks cnt.toNat
      .next { s.setCob c { b with pc := r.1, blocks := r.2 } with issue := s.cur :: s.issue }
  else
    let o := s.curOwner
    let t := o.stream s.cur.str
    let n := if cs = 1 then (cget o.lc (cnt.toNat % 8)).toNat else cnt.toNat
    let r := open_ t.pc t.blocks n
    let t' := { t with pc := r.1, blocks := r.2 }
    let o' := o.setStream s.cur.str t'
    let o' := { o' with pend := o'.pend ++ pendOf o.tick s.cur.str {} (exitEffects t t') }
    .next { s.setCurOwner o' with issue := s.cur :: s.issue }

/-! ### Arithmetic and logic (R321, R322, R323) -/

/-- ADD (R321): x[A] := w64(x[B] + x[C]). -/
def execAdd (h : Hd) (a b c : BitVec 4) (s : State) : Res := issue h true 1 true (alu3 1 (fun x y => x + y) a b c) s

/-- SUB (R321): x[A] := w64(x[B] - x[C]). -/
def execSub (h : Hd) (a b c : BitVec 4) (s : State) : Res := issue h true 1 true (alu3 1 (fun x y => x - y) a b c) s

/-- AND (R321): x[A] := x[B] AND x[C]. -/
def execAnd (h : Hd) (a b c : BitVec 4) (s : State) : Res := issue h true 1 true (alu3 1 (fun x y => x &&& y) a b c) s

/-- OR (R321): x[A] := x[B] OR x[C]. -/
def execOr (h : Hd) (a b c : BitVec 4) (s : State) : Res := issue h true 1 true (alu3 1 (fun x y => x ||| y) a b c) s

/-- XOR (R321): x[A] := x[B] XOR x[C]. -/
def execXor (h : Hd) (a b c : BitVec 4) (s : State) : Res := issue h true 1 true (alu3 1 (fun x y => x ^^^ y) a b c) s

/-- SHL (R321): x[A] := x[B] shifted left by x[C][5:0]. -/
def execShl (h : Hd) (a b c : BitVec 4) (s : State) : Res := issue h true 1 true (alu3 1 shlBy a b c) s

/-- SHR (R321): x[A] := x[B] shifted right by x[C][5:0], zeros in. -/
def execShr (h : Hd) (a b c : BitVec 4) (s : State) : Res := issue h true 1 true (alu3 1 shrBy a b c) s

/-- SAR (R321): x[A] := x[B] shifted right by x[C][5:0], the sign in. -/
def execSar (h : Hd) (a b c : BitVec 4) (s : State) : Res := issue h true 1 true (alu3 1 sarBy a b c) s

/-- MUL (R321): x[A] := the low 64 bits of the product. -/
def execMul (h : Hd) (a b c : BitVec 4) (s : State) : Res := issue h true 1 true (alu3 3 (fun x y => x * y) a b c) s

/-- MULH (R321): x[A] := bits [127:64] of the signed product. -/
def execMulh (h : Hd) (a b c : BitVec 4) (s : State) : Res := issue h true 1 true (alu3 3 mulh64 a b c) s

/-- MULHU (R321): x[A] := bits [127:64] of the unsigned product. -/
def execMulhu (h : Hd) (a b c : BitVec 4) (s : State) : Res := issue h true 1 true (alu3 3 mulhu64 a b c) s

/-- MIN (R321): x[A] := the smaller, signed. -/
def execMin (h : Hd) (a b c : BitVec 4) (s : State) : Res := issue h true 1 true (alu3 1 smin64 a b c) s

/-- MAX (R321): x[A] := the larger, signed. -/
def execMax (h : Hd) (a b c : BitVec 4) (s : State) : Res := issue h true 1 true (alu3 1 smax64 a b c) s

/-- MINU (R321): x[A] := the smaller, unsigned. -/
def execMinu (h : Hd) (a b c : BitVec 4) (s : State) : Res := issue h true 1 true (alu3 1 umin64 a b c) s

/-- MAXU (R321): x[A] := the larger, unsigned. -/
def execMaxu (h : Hd) (a b c : BitVec 4) (s : State) : Res := issue h true 1 true (alu3 1 umax64 a b c) s

/-- ROTL (R321): x[A] := x[B] rotated left. -/
def execRotl (h : Hd) (a b c : BitVec 4) (s : State) : Res := issue h true 1 true (alu3 1 rotl64 a b c) s

/-- ROTR (R321): x[A] := x[B] rotated right. -/
def execRotr (h : Hd) (a b c : BitVec 4) (s : State) : Res := issue h true 1 true (alu3 1 rotr64 a b c) s

/-- DIV (R322): x[A] := the signed quotient. -/
def execDiv (h : Hd) (a b c : BitVec 4) (s : State) : Res := issue h true 1 true (alu3 12 div64 a b c) s

/-- DIVU (R322): x[A] := the unsigned quotient. -/
def execDivu (h : Hd) (a b c : BitVec 4) (s : State) : Res := issue h true 1 true (alu3 12 divu64 a b c) s

/-- REM (R322): x[A] := the signed remainder. -/
def execRem (h : Hd) (a b c : BitVec 4) (s : State) : Res := issue h true 1 true (alu3 12 rem64 a b c) s

/-- REMU (R322): x[A] := the unsigned remainder. -/
def execRemu (h : Hd) (a b c : BitVec 4) (s : State) : Res := issue h true 1 true (alu3 12 remu64 a b c) s

/-- CLZ (R323): x[A] := leading zeros, 64 for 0 of x[B]. -/
def execClz (h : Hd) (a b : BitVec 4) (s : State) : Res := issue h true 1 true (alu2 clz64 a b) s

/-- CTZ (R323): x[A] := trailing zeros, 64 for 0 of x[B]. -/
def execCtz (h : Hd) (a b : BitVec 4) (s : State) : Res := issue h true 1 true (alu2 ctz64 a b) s

/-- POPC (R323): x[A] := one bits of x[B]. -/
def execPopc (h : Hd) (a b : BitVec 4) (s : State) : Res := issue h true 1 true (alu2 popc64 a b) s

/-- ABS (R323): x[A] := the absolute value; -2^63 stays of x[B]. -/
def execAbs (h : Hd) (a b : BitVec 4) (s : State) : Res := issue h true 1 true (alu2 abs64 a b) s

/-- SEXT_B (R323): x[A] := the low byte sign-extended of x[B]. -/
def execSextB (h : Hd) (a b : BitVec 4) (s : State) : Res := issue h true 1 true (alu2 (sx 8) a b) s

/-- SEXT_H (R323): x[A] := the low half sign-extended of x[B]. -/
def execSextH (h : Hd) (a b : BitVec 4) (s : State) : Res := issue h true 1 true (alu2 (sx 16) a b) s

/-- SEXT_W (R323): x[A] := the low word sign-extended of x[B]. -/
def execSextW (h : Hd) (a b : BitVec 4) (s : State) : Res := issue h true 1 true (alu2 (sx 32) a b) s

/-- ZEXT_B (R323): x[A] := the low byte zero-extended of x[B]. -/
def execZextB (h : Hd) (a b : BitVec 4) (s : State) : Res := issue h true 1 true (alu2 (zx 8) a b) s

/-- ZEXT_H (R323): x[A] := the low half zero-extended of x[B]. -/
def execZextH (h : Hd) (a b : BitVec 4) (s : State) : Res := issue h true 1 true (alu2 (zx 16) a b) s

/-- ZEXT_W (R323): x[A] := the low word zero-extended of x[B]. -/
def execZextW (h : Hd) (a b : BitVec 4) (s : State) : Res := issue h true 1 true (alu2 (zx 32) a b) s

/-- BSWAP (R323): x[A] := the bytes in reverse order of x[B]. -/
def execBswap (h : Hd) (a b : BitVec 4) (s : State) : Res := issue h true 1 true (alu2 bswap64 a b) s

/-! ### Selects (R324): G is a selector, so the instructions are unguarded -/

/-- Whether the selector of the slot's stream holds. -/
def selected (s : State) (o : Owner) (g : BitVec 4) : Bool := selects o.p (o.stream s.cur.str).blocks g

/-- POISON_CONSUMED with the held address if a register is poisoned (R193). -/
def needClean (x : XReg) : Except Bad Unit :=
  if x.poison then .error { cause := .poisonConsumed, addr := x.val } else .ok ()

/-- SEL: either source poisoned consumes poison, B first. -/
def execSel (h : Hd) (sl a b c : BitVec 4) (s : State) : Res :=
  issue { h with g := sl } false 1 true (fun s o => do
    needClean (rx o b)
    needClean (rx o c)
    .ok { effs := [(1, .x a (if selected s o sl then rx o b else rx o c))] }) s

/-- CSEL: only the arm it keeps is examined. -/
def execCsel (h : Hd) (sl a b c : BitVec 4) (s : State) : Res :=
  issue { h with g := sl } false 1 true (fun s o => do
    let x := if selected s o sl then rx o b else rx o c
    needClean x
    .ok { effs := [(1, .x a x)] }) s

/-! ### Compares (R325) -/

/-- CEQ: P(A) := x[B] = x[C]. -/
def execCeq (h : Hd) (a : BitVec 3) (b c : BitVec 4) (s : State) : Res := issue h true 1 true (cmp3 eq64 a b c) s

/-- CNE: P(A) := x[B] ≠ x[C]. -/
def execCne (h : Hd) (a : BitVec 3) (b c : BitVec 4) (s : State) : Res := issue h true 1 true (cmp3 ne64 a b c) s

/-- CLT: P(A) := x[B] < x[C], signed. -/
def execClt (h : Hd) (a : BitVec 3) (b c : BitVec 4) (s : State) : Res := issue h true 1 true (cmp3 slt64 a b c) s

/-- CLTU: P(A) := x[B] < x[C], unsigned. -/
def execCltu (h : Hd) (a : BitVec 3) (b c : BitVec 4) (s : State) : Res := issue h true 1 true (cmp3 ult64 a b c) s

/-- CLE: P(A) := x[B] ≤ x[C], signed. -/
def execCle (h : Hd) (a : BitVec 3) (b c : BitVec 4) (s : State) : Res := issue h true 1 true (cmp3 sle64 a b c) s

/-- CLEU: P(A) := x[B] ≤ x[C], unsigned. -/
def execCleu (h : Hd) (a : BitVec 3) (b c : BitVec 4) (s : State) : Res := issue h true 1 true (cmp3 ule64 a b c) s

/-! ### Immediates (R326, R327) -/

/-- ADDI: x[A] := x[A] + sx(IMM8). -/
def execAddi (h : Hd) (a : BitVec 4) (k : BitVec 8) (s : State) : Res :=
  issue h true 1 true (alu2 (fun x => x + k.signExtend 64) a a) s

/-- ANDI: x[A] := x[A] AND sx(IMM8). -/
def execAndi (h : Hd) (a : BitVec 4) (k : BitVec 8) (s : State) : Res :=
  issue h true 1 true (alu2 (fun x => x &&& k.signExtend 64) a a) s

/-- ORI: x[A] := x[A] OR sx(IMM8). -/
def execOri (h : Hd) (a : BitVec 4) (k : BitVec 8) (s : State) : Res :=
  issue h true 1 true (alu2 (fun x => x ||| k.signExtend 64) a a) s

/-- XORI: x[A] := x[A] XOR sx(IMM8). -/
def execXori (h : Hd) (a : BitVec 4) (k : BitVec 8) (s : State) : Res :=
  issue h true 1 true (alu2 (fun x => x ^^^ k.signExtend 64) a a) s

/-- SHLI: x[A] shifted left by k. -/
def execShli (h : Hd) (a : BitVec 4) (k : BitVec 6) (s : State) : Res :=
  issue h true 1 true (alu2 (fun x => shlBy x (k.setWidth 64)) a a) s

/-- SHRI: x[A] shifted right, zeros in by k. -/
def execShri (h : Hd) (a : BitVec 4) (k : BitVec 6) (s : State) : Res :=
  issue h true 1 true (alu2 (fun x => shrBy x (k.setWidth 64)) a a) s

/-- SARI: x[A] shifted right, the sign in by k. -/
def execSari (h : Hd) (a : BitVec 4) (k : BitVec 6) (s : State) : Res :=
  issue h true 1 true (alu2 (fun x => sarBy x (k.setWidth 64)) a a) s

/-- CEQI: P(pd) := x[A] = sx(imm). -/
def execCeqi (h : Hd) (a : BitVec 4) (p : BitVec 3) (k : BitVec 5) (s : State) : Res :=
  issue h true 1 true (cmpi eq64 p a (k.signExtend 64)) s

/-- CLTI: P(pd) := x[A] < sx(imm), signed. -/
def execClti (h : Hd) (a : BitVec 4) (p : BitVec 3) (k : BitVec 5) (s : State) : Res :=
  issue h true 1 true (cmpi slt64 p a (k.signExtend 64)) s

/-- CLTUI: P(pd) := x[A] < zx(imm), unsigned. -/
def execCltui (h : Hd) (a : BitVec 4) (p : BitVec 3) (k : BitVec 5) (s : State) : Res :=
  issue h true 1 true (cmpi ult64 p a (k.setWidth 64)) s

/-- MOVI: x[A] := sx(IMM12), with a clean tag; unguarded. -/
def execMovi (h : Hd) (a : BitVec 4) (k : BitVec 12) (s : State) : Res :=
  issue h false 1 true (fun _ _ => .ok { effs := [(1, .x a (clean (k.signExtend 64)))] }) s

/-- MOVH: x[A] := x[A] << 12 OR IMM12; a poisoned x[A] stays poisoned; unguarded. -/
def execMovh (h : Hd) (a : BitVec 4) (k : BitVec 12) (s : State) : Res :=
  issue h false 1 true (alu2 (fun x => (x <<< 12) ||| k.setWidth 64) a a) s

/-! ### Short register forms (R336): unguarded -/

/-- INC: x[A] := x[A] + 1; poison stays. -/
def execInc (h : Hd) (a : BitVec 4) (s : State) : Res := issue h false 1 true (alu2 (fun x => x + 1) a a) s

/-- DEC: x[A] := x[A] - 1; poison stays. -/
def execDec (h : Hd) (a : BitVec 4) (s : State) : Res := issue h false 1 true (alu2 (fun x => x - 1) a a) s

/-- NEG: x[A] := 0 - x[A]; poison stays. -/
def execNeg (h : Hd) (a : BitVec 4) (s : State) : Res := issue h false 1 true (alu2 (fun x => -x) a a) s

/-- NOT: x[A] := NOT x[A]; poison stays. -/
def execNot (h : Hd) (a : BitVec 4) (s : State) : Res := issue h false 1 true (alu2 (fun x => ~~~x) a a) s

/-- CLR: x[A] := 0 with its tag cleared. -/
def execClr (h : Hd) (a : BitVec 4) (s : State) : Res :=
  issue h false 1 true (fun _ _ => .ok { effs := [(1, .x a (clean 0))] }) s

/-! ### Predicate operations (R335) -/

/-- PAND: P(A) := P(B) AND P(C). -/
def execPand (h : Hd) (a b c : BitVec 3) (s : State) : Res :=
  issue h true 1 true (predOp a fun p => predOf p b.toNat && predOf p c.toNat) s

/-- POR: P(A) := P(B) OR P(C). -/
def execPor (h : Hd) (a b c : BitVec 3) (s : State) : Res :=
  issue h true 1 true (predOp a fun p => predOf p b.toNat || predOf p c.toNat) s

/-- PXOR: P(A) := P(B) XOR P(C). -/
def execPxor (h : Hd) (a b c : BitVec 3) (s : State) : Res :=
  issue h true 1 true (predOp a fun p => predOf p b.toNat != predOf p c.toNat) s

/-- PMOV: P(A) := P(B). -/
def execPmov (h : Hd) (a b : BitVec 3) (s : State) : Res := issue h true 1 true (predOp a fun p => predOf p b.toNat) s

/-- PCLR: P(A) := 0. -/
def execPclr (h : Hd) (a : BitVec 3) (s : State) : Res := issue h false 1 true (predOp a fun _ => false) s

/-- PSET: P(A) := 1. -/
def execPset (h : Hd) (a : BitVec 3) (s : State) : Res := issue h false 1 true (predOp a fun _ => true) s

/-- PNOT: P(A) := NOT P(A). -/
def execPnot (h : Hd) (a : BitVec 3) (s : State) : Res := issue h false 1 true (predOp a fun p => !predOf p a.toNat) s

end Sys2Proof.Machine
end

