-- ==== Sys2Proof/Machine/Matrix.lean ====
section
/-! DEFINITION. The matrix stream's products and ring operations (R237-R241, R357-R369). -/

namespace Sys2Proof.Machine

/-! ### Format words (R235, R236) -/

def fwNA (w : W32) : Nat := (w.extractLsb' 0 3).toNat
def fwNB (w : W32) : Nat := (w.extractLsb' 3 3).toNat
def fwGA (w : W32) : Nat := (w.extractLsb' 6 3).toNat
def fwGB (w : W32) : Nat := (w.extractLsb' 9 3).toNat
def fwACC (w : W32) : Nat := (w.extractLsb' 12 2).toNat
def fwSYN (w : W32) : Nat := (w.extractLsb' 14 2).toNat
def fwTAG (w : W32) : Nat := (w.extractLsb' 16 8).toNat

/-- Whether an MMA (`wide` false) or MMAW (`wide` true) may run under a format word (R236). -/
def fwValid (wide : Bool) (w : W32) : Bool :=
  decide (fwNA w ≠ 0) && decide (fwNB w ≠ 0) && decide (fwGA w < 6) && decide (fwGB w < 6) && decide (fwACC w ≠ 3)
    && decide (w.extractLsb' 24 8 = 0) && (decide (fwSYN w ≠ 0) == wide)
    && (decide (fwSYN w = 0) || (decide (fwNA w = 7) && decide (fwNB w = 7)))

/-- The (A slice, B slice) products of a mode, low weight first (R241). -/
def products (syn : Nat) : List (Nat × Nat) :=
  match syn with
  | 0 => [(0, 0)]
  | 1 => [(1, 0), (0, 1), (0, 0)]
  | 2 => [(2, 0), (1, 1), (0, 2), (1, 0), (0, 1), (0, 0)]
  | _ => [(2, 2), (2, 1), (1, 2), (2, 0), (1, 1), (0, 2), (1, 0), (0, 1), (0, 0)]

/-- Ticks of the products of a word: 16·NB for each. -/
def productTicks (w : W32) : Nat := (products (fwSYN w)).length * 16 * fwNB w

/-- Occupancy of an MMA or MMAW, guarded on or off: from the word at the front of the queue, or the longest product
when there is none or the word is refused (R364). -/
def mmaOcc (wide : Bool) (o : Owner) : Nat :=
  match o.fq with
  | w :: _ => if fwValid wide w then productTicks w else if wide then 1008 else 112
  | [] => if wide then 1008 else 112

/-! ### The K-step (R233, R237) -/

/-- Sidecar byte of the block that holds row `i`, K-column `k` (R233). -/
def blockIdx (g i k : Nat) : Nat := i / 2 ^ g * 2 ^ g + k / 2 ^ (5 - g)

/-- Bits [n-1:0] of a mantissa byte as a two's-complement integer (R234). -/
def mantissa (n : Nat) (b : Byte) : Int := (b.setWidth n).toInt

/-- The 32 mantissas of row `i` of a tile. -/
def tileRow (n : Nat) (m : Cells 8) (i : Nat) : List Int :=
  let r := cslice m (i * 32) 32
  (List.range 32).map fun k => mantissa n (cget r k)

/-- The value of a segment under its two exponents, or none where it is not added (R237, R238): DEDUCED (log entry 79). -/
def segment (neg : Bool) (ea eb : Nat) (sum : Int) : Option W32 :=
  if ea = 255 ∨ eb = 255 then some nan32
  else if ea = 0 ∨ eb = 0 ∨ sum = 0 then none
  else some (roundDy false (if neg then -sum else sum) ((ea : Int) + eb - 254))

/-- One output element: the segments are added one at a time, each addition rounded. -/
def kElem (fw : W32) (m n : Nat) (a b : SlotData) (ra rb : List Int) (c : W32) : W32 :=
  let seg := min (32 / 2 ^ fwGA fw) (32 / 2 ^ fwGB fw)
  let prod := ra.zipWith (· * ·) rb
  (List.range (32 / seg)).foldl (fun c i =>
    let k0 := i * seg
    let ea := (cget a.side (blockIdx (fwGA fw) m k0)).toNat
    let eb := (cget b.side (blockIdx (fwGB fw) n k0)).toNat
    match segment (decide (fwACC fw = 2)) ea eb ((prod.drop k0).take seg).sum with
    | none => c
    | some v => add32 c v) c

/-- One product into a tile of 64 × 64 elements (R237). -/
def kstep (p : KStep) (tile : Cells 32) : Cells 32 :=
  let rows (n : Nat) (d : SlotData) := (List.range 64).map fun i => (i, tileRow n d.mant i)
  let ra := rows (fwNA p.fw + 1) p.a
  let rb := rows (fwNB p.fw + 1) p.b
  ra.foldl (fun t (m, x) => rb.foldl (fun t (n, y) =>
    cset t (m * 64 + n) (kElem p.fw m n p.a p.b x y (cget tile (m * 64 + n)))) t) []

/-- The contents of a tile after a write due in this tick (R359). -/
def TileWrite.apply (w : TileWrite) (tile : Cells 32) : Cells 32 :=
  match w with
  | .whole r => r
  | .products clear ks => ks.foldl (fun t k => kstep k t) (if clear then [] else tile)

/-! ### The ring (R201, R359) -/

/-- Number of the owner's tiles. -/
def ringSize (o : Owner) : Nat := max o.tiles.length 1

/-- Physical tile of ring index `i`. -/
def tilePhys (o : Owner) (i : Nat) : Nat := o.tiles.getD i i

/-- Whether ring tile `i` is full. -/
def tileFull (o : Owner) (i : Nat) : Bool := o.full.getLsbD i

/-- The tile that a tile-writing instruction targets, the head at the start of the tick, or RING_OVERRUN. -/
def needTarget (o : Owner) : Except Bad Nat :=
  if tileFull o o.head then .error { cause := .ringOverrun } else .ok (tilePhys o o.head)

/-! ### MMA and MMAW (R361-R365) -/

/-- An MMA or MMAW: the checks in the order of R362, then the capture of `ns` slots per operand and the write at
k + products·16·NB + 4. ACC = 01 clears the tile once and then accumulates (R241). -/
def product (wide : Bool) (oa ob : BitVec 5) : Body := fun s o => do
  let k := s.curCore
  let a := oa.toNat
  let b := ob.toNat
  match o.fq with
  | [] => .error { cause := .fqUnderflow }
  | fw :: _ =>
    if !fwValid wide fw then .error { cause := .formatInvalid, still := [.fqPop] }
    let ns := if fwSYN fw = 0 then 1 else if fwSYN fw = 1 then 2 else 3
    needClaim o a ns
    needClaim o b ns
    let t ← needTarget o
    (List.range ns).forM fun i => omParity k o (a + i) 0 2112
    (List.range ns).forM fun i => omParity k o (b + i) 0 2112
    let g := if fwACC fw = 1 then fw &&& 0xFFFFCFFF else fw
    let ks := (products (fwSYN fw)).map fun (i, j) => ({ fw := g, a := omSlot k o (a + i), b := omSlot k o (b + j) } : KStep)
    .ok { effs := [(1, .fqPop), (1, .product fw), (productTicks fw + 4, .tile t (.products (decide (fwACC fw = 1)) ks))] }

/-- MMA: one product of the tiles in slots oa and ob into the head tile. -/
def execMma (h : Hd) (oa n : BitVec 5) (s : State) : Res :=
  issue h true (mmaOcc false s.curOwner) false (product false oa n) s

/-- MMAW: the products of the word's SYN mode, applied together at the due tick. -/
def execMmaw (h : Hd) (oa n : BitVec 5) (s : State) : Res :=
  issue h true (mmaOcc true s.curOwner) false (product true oa n) s

/-! ### RADV, RSKIP, MCLR (R367, R369) -/

/-- RADV: the head tile becomes full and the head advances, if the next tile is empty. -/
def execRadv (h : Hd) (s : State) : Res :=
  issue h true 1 false (fun _ o =>
    if tileFull o ((o.head + 1) % ringSize o) then .error { cause := .ringOverrun }
    else .ok { effs := [(1, .ring .radv)] }) s

/-- RSKIP: the head advances; no full bit changes. -/
def execRskip (h : Hd) (s : State) : Res := issue h true 1 false (fun _ _ => .ok { effs := [(1, .ring .rskip)] }) s

/-- MCLR: every element of the head tile is +0 at tick k + 1. -/
def execMclr (h : Hd) (s : State) : Res :=
  issue h true 1 false (fun _ o => do
    let t ← needTarget o
    .ok { effs := [(1, .tile t (.whole []))] }) s

end Sys2Proof.Machine
end

