-- ==== Sys2Proof/Machine/Threshold.lean ====
section
/-! DEFINITION. The threshold array: its configuration, its test and its instructions (chapter 13, R370-R376). Column
masks are kept as complements: a mask of all ones is 0 here. -/

namespace Sys2Proof.Machine

/-! ### The test (R252) -/

/-- The key of feature `f` of sample `s`, in the mantissa bytes of its slot. -/
def featureKey (m : Cells 8) (s f : Nat) : BitVec 16 := bv 16 (readLe m (2 * (s % 4 * 256 + f)) 2)

/-- Whether a cell's test goes right: the key is above the threshold, or it is missing and D = 1. -/
def goesRight (key : BitVec 16) (c : ThrCell) : Bool :=
  decide (c.t.toNat < key.toNat) || (decide (key = 0) && c.d)

/-- The mask bits of band `b`, `w` bits wide. -/
def bandMask (w b : Nat) : W64 := bv 64 ((2 ^ w - 1) * 2 ^ (b * w))

/-- The complements of the 64 column masks of one sample. -/
def testSample (t : Threshold) (m : Cells 8) (s : Nat) : Cells 64 :=
  t.cells.foldl (fun acc (c, x) =>
    let r := c / 64
    if x.v && decide (r % t.w ≠ t.w - 1) && goesRight (featureKey m s x.fi.toNat) x then
      cset acc (c % 64) (cget acc (c % 64) ||| (bandMask t.w (r / t.w) &&& ~~~x.mask))
    else acc) []

/-- The exit of band `b` under a column mask: its lowest leaf left, or 0xFF. -/
def exitOf (w b : Nat) (mask : W64) : Nat :=
  let v := mask.toNat / 2 ^ (b * w) % 2 ^ w
  if v = 0 then 0xFF else ctzNat 64 v

/-- The tile of exits of 16 samples, whose complements stand at sample·64 + column (R253). -/
def exitTile (w : Nat) (cur : Cells 64) : Cells 32 :=
  ctab 1024 fun l =>
    bv 32 ((List.range (64 / w)).foldl (fun n b => n + exitOf w b (~~~cget cur l) * 256 ^ b) 0)

/-! ### The configuration (R250) -/

/-- Cell `c` of a configuration whose slot i stands at i·2112; the last row of a band is held invalid (R249). -/
def cfgCell (load : Cells 8) (w c : Nat) : ThrCell :=
  let ms := omBase (6 + c / 256)
  let sb := cget load (ms + 2048 + c % 256 / 4)
  { t := bv 16 (readLe load (omBase (c / 1024) + 2 * (c % 1024)) 2),
    fi := cget load (omBase (4 + c / 2048) + c % 2048),
    d := sb.getLsbD (2 * (c % 4)),
    v := sb.getLsbD (2 * (c % 4) + 1) && decide (c / 64 % w ≠ w - 1),
    mask := bv 64 (readLe load (ms + 8 * (c % 256)) 8) }

/-- All cells of a configuration. -/
def cfgCells (load : Cells 8) (w : Nat) : Tab ThrCell :=
  (List.range 4096).filterMap fun c => let x := cfgCell load w c; if x = {} then none else some (c, x)

/-- A slot's bytes in one memory. -/
def slotCells (d : SlotData) : Cells 8 := cblit d.mant 2048 64 d.side

/-- A slot's bytes, as a configuration load takes them. -/
def putSlot (load : Cells 8) (i : Nat) (d : SlotData) : Cells 8 := cblit load (omBase i) 2112 (slotCells d)

/-- The samples of one TEVAL in its memory of masks. -/
def putMasks (cur : Cells 64) (s : Nat) (m : Cells 64) : Cells 64 := cblit cur (s * 64) 64 m

/-! ### The instructions -/

/-- THRESHOLD_BUSY unless the owner holds a configured store (R256). -/
def needStore (k : CoreSt) (o : Owner) : Except Bad Unit :=
  if o.thr && k.thr.conf then .ok () else .error { cause := .thresholdBusy }

/-- Parity of a slot as TCFG reads it: the sidecars of slots oa to oa + 5 are ignored (R250). -/
def cfgParity (k : CoreSt) (o : Owner) (oa i : Nat) : Except Bad Unit :=
  omParity k o (oa + i) 0 (if i < 6 then 2048 else 2112)

/-- TCFG (R370): slot oa + i is read at tick k + i; the store is unconfigured from the end of tick k, even where slot oa fails its
parity, and configured at k + 22. -/
def execTcfg (h : Hd) (oa : BitVec 5) (w : BitVec 2) (s : State) : Res :=
  issue h true 22 false (fun s o => do
    let a := oa.toNat
    needClaim o a 22
    (cfgParity s.curCore o a 0).mapError fun b => { b with still := [.thr .begin] }
    let reads := (List.range 21).map fun i => (i + 1, Effect.thr (.cfgRead a (i + 1)))
    .ok { effs := [(1, .thr .begin), (1, .thr (.cfgSlot 0 (omSlot s.curCore o a)))] ++ reads
                    ++ [(22, .thr (.cfgDone w.toNat))] }) s

/-- TEVAL (R372): sample s is tested at tick k + s; the saved masks are replaced at the end of the occupancy and the
exits reach the target tile at k + 24. -/
def execTeval (h : Hd) (oa : BitVec 5) (s : State) : Res :=
  issue h true 16 false (fun s o => do
    let a := oa.toNat
    let k := s.curCore
    needStore k o
    needClaim o a 4
    let t ← needTarget o
    omParity k o a 0 2048
    let later := (List.range 15).map fun i => (i + 1, Effect.thr (.sample a (i + 1)))
    .ok { effs := [(1, .thr (.acc 0 (testSample k.thr (omSlot k o a).mant 0)))] ++ later
                    ++ [(16, .thr (.evalDone t))] }) s

/-- TMASK (R374, R254): the saved masks of sample k go to rows 0 and 1 of the head tile at tick k + 4. -/
def execTmask (h : Hd) (k : BitVec 4) (s : State) : Res :=
  issue h true 1 false (fun s o => do
    needStore s.curCore o
    let t ← needTarget o
    let mask (j : Nat) : W64 := ~~~cget s.curCore.thr.saved (k.toNat * 64 + j)
    let rows := ctab 128 fun l => if l < 64 then (mask l).setWidth 32 else (mask (l - 64) >>> 32).setWidth 32
    .ok { effs := [(4, .tile t (.whole rows))] }) s

/-- TCLR (R375): the store is zeroed and unconfigured; an owner that does not hold it changes nothing. -/
def execTclr (h : Hd) (s : State) : Res :=
  issue h true 1 false (fun _ o => .ok { effs := if o.thr then [(1, .thr .clear)] else [] }) s

/-- What a step of the store's instructions does to it when it falls due; `o` is the owner, `k` its core. Only the owner that
holds the store reaches it (R258). -/
def thrStep (k : CoreSt) (o : Owner) (op : ThrOp) : Threshold :=
  let t := k.thr
  if !o.thr then t
  else match op with
  | .begin => {}
  | .clear => {}
  | .cfgSlot i d => { t with load := putSlot t.load i d }
  | .cfgRead a i => { t with load := putSlot t.load i (omSlot k o (a + i)) }
  | .cfgDone w => { t with cells := cfgCells t.load (64 / 2 ^ w), w := 64 / 2 ^ w, conf := true, load := [] }
  | .acc i m => { t with cur := putMasks [] i m }
  | .sample a i => { t with cur := putMasks t.cur i (testSample t (omSlot k o (a + i / 4)).mant i) }
  | .evalDone _ => { t with saved := t.cur, cur := [] }

/-- The parity check of a slot read in a later tick (R370, R372). -/
def thrParity (k : CoreSt) (o : Owner) (op : ThrOp) : Except Bad Unit :=
  match op with
  | .cfgRead a i => cfgParity k o a i
  | .sample a i => omParity k o (a + i / 4) 0 2048
  | _ => .ok ()

end Sys2Proof.Machine
end

