-- ==== Sys2Proof/Machine/Vector.lean ====
section
/-! DEFINITION. The vector stream: lane operations, compares, masks, conversions, quantisation, cross-lane operations
and the drain of the result ring (chapter 20). -/

namespace Sys2Proof.Machine

/-! ### Lane by lane (R377-R379) -/

/-- The lane-activity mask of the owner: the lanes an instruction reads and writes. -/
def active (o : Owner) : LaneMask := o.lam

/-- A register whose lane `l` is `f l`. -/
def lanesOf (f : Nat → W32) : Cells 32 := ctab 1024 f

/-- Write the active lanes of v[A] at k + lat, after the parity check of the registers read in those lanes. -/
def vecOp (lat : Nat) (a : BitVec 4) (reads : List (BitVec 4)) (f : CoreSt → Owner → Nat → W32) : Body := fun s o => do
  let k := s.curCore
  needParity k o (reads.map fun r => (r, active o))
  .ok { effs := [(lat, .vreg a.toNat (lanesOf (f k o)) (active o))] }

/-- One source register. -/
def vec1 (lat : Nat) (f : W32 → W32) (a b : BitVec 4) : Body :=
  vecOp lat a [b] fun k o => let x := vlanes k o b; fun l => f (cget x l)

/-- Two source registers. -/
def vec2 (lat : Nat) (f : W32 → W32 → W32) (a b c : BitVec 4) : Body :=
  vecOp lat a [b, c] fun k o => let x := vlanes k o b; let y := vlanes k o c; fun l => f (cget x l) (cget y l)

/-- Two source registers and the destination as a third. -/
def vec3 (lat : Nat) (f : W32 → W32 → W32 → W32) (a b c : BitVec 4) : Body :=
  vecOp lat a [a, b, c] fun k o =>
    let z := vlanes k o a
    let x := vlanes k o b
    let y := vlanes k o c
    fun l => f (cget x l) (cget y l) (cget z l)

/-- A value that no vector register supplies. -/
def vecConst (lat : Nat) (a : BitVec 4) (f : Owner → Nat → W32) : Body := vecOp lat a [] fun _ o => f o

/-- A compare of two registers into the active bits of a mask (R388). -/
def vecCmp (f : W32 → W32 → Bool) (a : BitVec 3) (b c : BitVec 4) : Body := fun s o => do
  let k := s.curCore
  needParity k o [(b, active o), (c, active o)]
  .ok { effs := [(2, .mask a (laneCond f (vlanes k o b) (vlanes k o c)) (active o))] }

/-- A mask operation of masks (R391). -/
def maskOp (f : Owner → LaneMask) (a : BitVec 3) (reads : List (BitVec 3)) : Body := fun _ o => do
  needMask o reads
  .ok { effs := [(2, .mask a (f o) (active o))] }

/-! ### Integer lane functions (R384-R387) -/

def sat32 (v : Int) : W32 := BitVec.ofInt 32 (sat v (-2147483648) 2147483647)
def vadds32 (x y : W32) : W32 := sat32 (x.toInt + y.toInt)
def vsubs32 (x y : W32) : W32 := sat32 (x.toInt - y.toInt)
def vmulh32 (x y : W32) : W32 := BitVec.ofInt 32 (x.toInt * y.toInt / 2 ^ 32)
def smin32 (x y : W32) : W32 := if x.toInt ≤ y.toInt then x else y
def smax32 (x y : W32) : W32 := if x.toInt ≤ y.toInt then y else x
def umin32 (x y : W32) : W32 := if x.toNat ≤ y.toNat then x else y
def umax32 (x y : W32) : W32 := if x.toNat ≤ y.toNat then y else x
def abs32 (x : W32) : W32 := if x.toInt < 0 then -x else x
def shl32 (x y : W32) : W32 := x <<< (y.toNat % 32)
def shr32 (x y : W32) : W32 := x >>> (y.toNat % 32)
def sar32 (x y : W32) : W32 := x.sshiftRight (y.toNat % 32)
def popc32 (x : W32) : W32 := bv 32 (popNat 32 x.toNat)
def clz32 (x : W32) : W32 := bv 32 (clzNat 32 x.toNat)
def ctz32 (x : W32) : W32 := bv 32 (ctzNat 32 x.toNat)
def brev32 (x : W32) : W32 := bv 32 ((List.range 32).foldl (fun n b => 2 * n + b01 (x.getLsbD b)) 0)

/-- The carry-less product of two words (R386). -/
def clmul (x y : W32) : W64 :=
  (List.range 32).foldl (fun p t => if x.getLsbD t then p ^^^ (y.setWidth 64 <<< t) else p) 0

def clmulL (x y : W32) : W32 := (clmul x y).setWidth 32
def clmulH (x y : W32) : W32 := (clmul x y >>> 32).setWidth 32

/-- VDOT4.I8 of one lane (R387). -/
def dot4 (x y acc : W32) : W32 :=
  BitVec.ofInt 32 ((List.range 4).foldl
    (fun (t : Int) b => t + (x.extractLsb' (8 * b) 8).toInt * (y.extractLsb' (8 * b) 8).toInt) acc.toInt)

/-! ### Floating point (R381-R383) -/

/-- VFADD: va := vb + vc. -/
def execVfadd (h : Hd) (a b c : BitVec 4) (s : State) : Res := issue h true 4 false (vec2 4 add32 a b c) s

/-- VFSUB: va := vb - vc. -/
def execVfsub (h : Hd) (a b c : BitVec 4) (s : State) : Res := issue h true 4 false (vec2 4 sub32 a b c) s

/-- VFMUL: va := vb × vc. -/
def execVfmul (h : Hd) (a b c : BitVec 4) (s : State) : Res := issue h true 4 false (vec2 4 mul32 a b c) s

/-- VFMA: va := vb × vc + va, rounded once. -/
def execVfma (h : Hd) (a b c : BitVec 4) (s : State) : Res := issue h true 4 false (vec3 4 fma32 a b c) s

/-- VFMS: va := vb × vc - va, rounded once. -/
def execVfms (h : Hd) (a b c : BitVec 4) (s : State) : Res := issue h true 4 false (vec3 4 fms32 a b c) s

/-- VFNMA: va := -(vb × vc) - va, rounded once. -/
def execVfnma (h : Hd) (a b c : BitVec 4) (s : State) : Res := issue h true 4 false (vec3 4 fnma32 a b c) s

/-- VFNMS: va := -(vb × vc) + va, rounded once. -/
def execVfnms (h : Hd) (a b c : BitVec 4) (s : State) : Res := issue h true 4 false (vec3 4 fnms32 a b c) s

/-- VFDIV: va := vb / vc. -/
def execVfdiv (h : Hd) (a b c : BitVec 4) (s : State) : Res := issue h true 8 false (vec2 12 div32 a b c) s

/-- VFMIN: va := the smaller. -/
def execVfmin (h : Hd) (a b c : BitVec 4) (s : State) : Res := issue h true 4 false (vec2 4 fmin32 a b c) s

/-- VFMAX: va := the larger. -/
def execVfmax (h : Hd) (a b c : BitVec 4) (s : State) : Res := issue h true 4 false (vec2 4 fmax32 a b c) s

/-- VFABS: va := the absolute value. -/
def execVfabs (h : Hd) (a b : BitVec 4) (s : State) : Res := issue h true 1 false (vec1 2 fabs32 a b) s

/-- VFNEG: va := the negation. -/
def execVfneg (h : Hd) (a b : BitVec 4) (s : State) : Res := issue h true 1 false (vec1 2 fneg32 a b) s

/-- VFFLOOR: va := the largest integral value not above vb. -/
def execVffloor (h : Hd) (a b : BitVec 4) (s : State) : Res := issue h true 4 false (vec1 4 floor32 a b) s

/-- VFROUND: va := the nearest integral value. -/
def execVfround (h : Hd) (a b : BitVec 4) (s : State) : Res := issue h true 4 false (vec1 4 rint32 a b) s

/-- VFCLASS: va := the class bits of vb. -/
def execVfclass (h : Hd) (a b : BitVec 4) (s : State) : Res := issue h true 1 false (vec1 2 fclass32 a b) s

/-- VFRCP: va := 1/vb. -/
def execVfrcp (h : Hd) (a b : BitVec 4) (s : State) : Res := issue h true 8 false (vec1 12 rcp32 a b) s

/-- VFSQRT: va := the square root. -/
def execVfsqrt (h : Hd) (a b : BitVec 4) (s : State) : Res := issue h true 8 false (vec1 12 sqrt32 a b) s

/-- VFRSQ: va := the reciprocal square root. -/
def execVfrsq (h : Hd) (a b : BitVec 4) (s : State) : Res := issue h true 8 false (vec1 12 rsq32 a b) s

/-- VFEXP2: va := 2^vb. -/
def execVfexp2 (h : Hd) (a b : BitVec 4) (s : State) : Res := issue h true 8 false (vec1 12 exp2f a b) s

/-- VFLOG2: va := log2 vb. -/
def execVflog2 (h : Hd) (a b : BitVec 4) (s : State) : Res := issue h true 8 false (vec1 12 log2f a b) s

/-- VFTANH: va := tanh vb. -/
def execVftanh (h : Hd) (a b : BitVec 4) (s : State) : Res := issue h true 8 false (vec1 12 tanhf a b) s

/-- VFSIGM: va := the logistic sigmoid. -/
def execVfsigm (h : Hd) (a b : BitVec 4) (s : State) : Res := issue h true 8 false (vec1 12 sigmf a b) s

/-! ### Integer and bit operations (R384-R387) -/

/-- VADD: va := w32(vb + vc). -/
def execVadd (h : Hd) (a b c : BitVec 4) (s : State) : Res := issue h true 1 false (vec2 2 (fun x y => x + y) a b c) s

/-- VSUB: va := w32(vb - vc). -/
def execVsub (h : Hd) (a b c : BitVec 4) (s : State) : Res := issue h true 1 false (vec2 2 (fun x y => x - y) a b c) s

/-- VADDS: va := the saturated sum. -/
def execVadds (h : Hd) (a b c : BitVec 4) (s : State) : Res := issue h true 1 false (vec2 2 vadds32 a b c) s

/-- VSUBS: va := the saturated difference. -/
def execVsubs (h : Hd) (a b c : BitVec 4) (s : State) : Res := issue h true 1 false (vec2 2 vsubs32 a b c) s

/-- VMUL: va := w32(vb × vc). -/
def execVmul (h : Hd) (a b c : BitVec 4) (s : State) : Res := issue h true 1 false (vec2 2 (fun x y => x * y) a b c) s

/-- VMULH: va := bits [63:32] of the signed product. -/
def execVmulh (h : Hd) (a b c : BitVec 4) (s : State) : Res := issue h true 1 false (vec2 2 vmulh32 a b c) s

/-- VMIN: va := the smaller, signed. -/
def execVmin (h : Hd) (a b c : BitVec 4) (s : State) : Res := issue h true 1 false (vec2 2 smin32 a b c) s

/-- VMAX: va := the larger, signed. -/
def execVmax (h : Hd) (a b c : BitVec 4) (s : State) : Res := issue h true 1 false (vec2 2 smax32 a b c) s

/-- VMINU: va := the smaller, unsigned. -/
def execVminu (h : Hd) (a b c : BitVec 4) (s : State) : Res := issue h true 1 false (vec2 2 umin32 a b c) s

/-- VMAXU: va := the larger, unsigned. -/
def execVmaxu (h : Hd) (a b c : BitVec 4) (s : State) : Res := issue h true 1 false (vec2 2 umax32 a b c) s

/-- VABS: va := the absolute value; -2^31 stays. -/
def execVabs (h : Hd) (a b : BitVec 4) (s : State) : Res := issue h true 1 false (vec1 2 abs32 a b) s

/-- VAND: va := vb AND vc. -/
def execVand (h : Hd) (a b c : BitVec 4) (s : State) : Res := issue h true 1 false (vec2 2 (fun x y => x &&& y) a b c) s

/-- VOR: va := vb OR vc. -/
def execVor (h : Hd) (a b c : BitVec 4) (s : State) : Res := issue h true 1 false (vec2 2 (fun x y => x ||| y) a b c) s

/-- VXOR: va := vb XOR vc. -/
def execVxor (h : Hd) (a b c : BitVec 4) (s : State) : Res := issue h true 1 false (vec2 2 (fun x y => x ^^^ y) a b c) s

/-- VNOT: va := NOT vb. -/
def execVnot (h : Hd) (a b : BitVec 4) (s : State) : Res := issue h true 1 false (vec1 2 (fun x => ~~~x) a b) s

/-- VSHL: va := vb << vc[4:0]. -/
def execVshl (h : Hd) (a b c : BitVec 4) (s : State) : Res := issue h true 1 false (vec2 2 shl32 a b c) s

/-- VSHR: va := vb >> vc[4:0], zeros in. -/
def execVshr (h : Hd) (a b c : BitVec 4) (s : State) : Res := issue h true 1 false (vec2 2 shr32 a b c) s

/-- VSAR: va := vb >> vc[4:0], the sign in. -/
def execVsar (h : Hd) (a b c : BitVec 4) (s : State) : Res := issue h true 1 false (vec2 2 sar32 a b c) s

/-- VSHLI: va := vb << k; unguarded. -/
def execVshli (h : Hd) (a b : BitVec 4) (k : BitVec 5) (s : State) : Res :=
  issue h false 1 false (vec1 2 (fun x => shl32 x (k.setWidth 32)) a b) s

/-- VSHRI: va := vb >> k, zeros in; unguarded. -/
def execVshri (h : Hd) (a b : BitVec 4) (k : BitVec 5) (s : State) : Res :=
  issue h false 1 false (vec1 2 (fun x => shr32 x (k.setWidth 32)) a b) s

/-- VSARI: va := vb >> k, the sign in; unguarded. -/
def execVsari (h : Hd) (a b : BitVec 4) (k : BitVec 5) (s : State) : Res :=
  issue h false 1 false (vec1 2 (fun x => sar32 x (k.setWidth 32)) a b) s

/-- VPOPC: va := the count of one bits. -/
def execVpopc (h : Hd) (a b : BitVec 4) (s : State) : Res := issue h true 1 false (vec1 2 popc32 a b) s

/-- VCLZ: va := the leading zeros. -/
def execVclz (h : Hd) (a b : BitVec 4) (s : State) : Res := issue h true 1 false (vec1 2 clz32 a b) s

/-- VCTZ: va := the trailing zeros. -/
def execVctz (h : Hd) (a b : BitVec 4) (s : State) : Res := issue h true 1 false (vec1 2 ctz32 a b) s

/-- VBREV: va := vb with its bits reversed. -/
def execVbrev (h : Hd) (a b : BitVec 4) (s : State) : Res := issue h true 1 false (vec1 2 brev32 a b) s

/-- VCLMUL.L: va := the low half of the carry-less product. -/
def execVclmulL (h : Hd) (a b c : BitVec 4) (s : State) : Res := issue h true 4 false (vec2 4 clmulL a b c) s

/-- VCLMUL.H: va := its high half. -/
def execVclmulH (h : Hd) (a b c : BitVec 4) (s : State) : Res := issue h true 4 false (vec2 4 clmulH a b c) s

/-- VDOT2.BF: va := va plus the two BF16 products, each sum rounded. -/
def execVdot2Bf (h : Hd) (a b c : BitVec 4) (s : State) : Res := issue h true 4 false (vec3 4 (fun x y z => dot2 z x y) a b c) s

/-- VDOT4.I8: va := va plus the four INT8 products. -/
def execVdot4I8 (h : Hd) (a b c : BitVec 4) (s : State) : Res := issue h true 4 false (vec3 4 dot4 a b c) s

/-! ### Compares (R388) -/

/-- VFCMP.EQ: each active bit of ma is whether the lanes are equal. -/
def execVfcmpEq (h : Hd) (a : BitVec 3) (b c : BitVec 4) (s : State) : Res := issue h true 1 false (vecCmp feq a b c) s

/-- VFCMP.NE: each active bit of ma is whether the lanes are not equal. -/
def execVfcmpNe (h : Hd) (a : BitVec 3) (b c : BitVec 4) (s : State) : Res := issue h true 1 false (vecCmp fne a b c) s

/-- VFCMP.LT: each active bit of ma is whether the lanes are less. -/
def execVfcmpLt (h : Hd) (a : BitVec 3) (b c : BitVec 4) (s : State) : Res := issue h true 1 false (vecCmp flt a b c) s

/-- VFCMP.LE: each active bit of ma is whether the lanes are less or equal. -/
def execVfcmpLe (h : Hd) (a : BitVec 3) (b c : BitVec 4) (s : State) : Res := issue h true 1 false (vecCmp fle a b c) s

/-- VFCMP.UN: each active bit of ma is whether the lanes are unordered. -/
def execVfcmpUn (h : Hd) (a : BitVec 3) (b c : BitVec 4) (s : State) : Res := issue h true 1 false (vecCmp fun32 a b c) s

/-- VCMP.EQ: each active bit of ma is whether the lanes are equal. -/
def execVcmpEq (h : Hd) (a : BitVec 3) (b c : BitVec 4) (s : State) : Res := issue h true 1 false (vecCmp eq32 a b c) s

/-- VCMP.NE: each active bit of ma is whether the lanes are not equal. -/
def execVcmpNe (h : Hd) (a : BitVec 3) (b c : BitVec 4) (s : State) : Res := issue h true 1 false (vecCmp ne32 a b c) s

/-- VCMP.LT: each active bit of ma is whether the lanes are less, signed. -/
def execVcmpLt (h : Hd) (a : BitVec 3) (b c : BitVec 4) (s : State) : Res := issue h true 1 false (vecCmp slt32 a b c) s

/-- VCMP.LE: each active bit of ma is whether the lanes are less or equal, signed. -/
def execVcmpLe (h : Hd) (a : BitVec 3) (b c : BitVec 4) (s : State) : Res := issue h true 1 false (vecCmp sle32 a b c) s

/-- VCMP.LTU: each active bit of ma is whether the lanes are less, unsigned. -/
def execVcmpLtu (h : Hd) (a : BitVec 3) (b c : BitVec 4) (s : State) : Res := issue h true 1 false (vecCmp ult32 a b c) s

/-- VCMP.LEU: each active bit of ma is whether the lanes are less or equal, unsigned. -/
def execVcmpLeu (h : Hd) (a : BitVec 3) (b c : BitVec 4) (s : State) : Res := issue h true 1 false (vecCmp ule32 a b c) s

/-! ### Moves and masks (R389-R393) -/

/-- VMOV: va := vb. -/
def execVmov (h : Hd) (a b : BitVec 4) (s : State) : Res := issue h true 1 false (vec1 2 id a b) s

/-- VSPL: va := e[B][31:0] in every lane. -/
def execVspl (h : Hd) (a : BitVec 4) (b : BitVec 3) (s : State) : Res :=
  issue h true 1 false (vecConst 2 a fun o _ => (re o b.toNat).setWidth 32) s

/-- VIMM: va := sx(IMM8) in every lane. -/
def execVimm (h : Hd) (a : BitVec 4) (k : BitVec 8) (s : State) : Res :=
  issue h true 1 false (vecConst 2 a fun _ _ => k.signExtend 32) s

/-- VZERO: va := 0; unguarded. -/
def execVzero (h : Hd) (a : BitVec 4) (s : State) : Res := issue h false 1 false (vecConst 2 a fun _ _ => 0) s

/-- VIDX: va := the lane number. -/
def execVidx (h : Hd) (a : BitVec 4) (s : State) : Res := issue h true 1 false (vecConst 2 a fun _ l => bv 32 l) s

/-- Whether a lane's bit in mN matches SENSE: SENSE 0 wants 1 (R303). -/
def senseMatch (o : Owner) (m : BitVec 3) (sn : BitVec 1) (l : Nat) : Bool := (rmask o m).getLsbD l != decide (sn = 1)

/-- VSEL: vb where the lane's mask bit matches, else vc; unguarded. -/
def execVsel (h : Hd) (a b c : BitVec 4) (sn : BitVec 1) (m : BitVec 3) (s : State) : Res :=
  issue h false 1 false (fun s o => do
    let k := s.curCore
    needParity k o [(b, active o), (c, active o)]
    needMask o [m]
    let x := vlanes k o b
    let y := vlanes k o c
    .ok { effs := [(2, .vreg a.toNat (lanesOf fun l => if senseMatch o m sn l then cget x l else cget y l) (active o))] }) s

/-- MAND: ma := mb AND mc. -/
def execMand (h : Hd) (a b c : BitVec 3) (s : State) : Res :=
  issue h true 1 false (maskOp (fun o => rmask o b &&& rmask o c) a [b, c]) s

/-- MOR: ma := mb OR mc. -/
def execMor (h : Hd) (a b c : BitVec 3) (s : State) : Res :=
  issue h true 1 false (maskOp (fun o => rmask o b ||| rmask o c) a [b, c]) s

/-- MXOR: ma := mb XOR mc. -/
def execMxor (h : Hd) (a b c : BitVec 3) (s : State) : Res :=
  issue h true 1 false (maskOp (fun o => rmask o b ^^^ rmask o c) a [b, c]) s

/-- MNOT: ma := NOT mb. -/
def execMnot (h : Hd) (a b : BitVec 3) (s : State) : Res := issue h true 1 false (maskOp (fun o => ~~~rmask o b) a [b]) s

/-- VANY: every active bit of ma is whether an active lane has its bit set in mb. -/
def execVany (h : Hd) (a b : BitVec 3) (s : State) : Res :=
  issue h true 1 false (maskOp (fun o => if rmask o b &&& active o = 0 then 0 else allLanes) a [b]) s

/-- VALL: every active bit of ma is whether all active lanes have their bit set in mb. -/
def execVall (h : Hd) (a b : BitVec 3) (s : State) : Res :=
  issue h true 1 false (maskOp (fun o => if ~~~rmask o b &&& active o = 0 then allLanes else 0) a [b]) s

/-- VLAM: the lane-activity mask is mb from tick k + 2, all 1,024 bits. -/
def execVlam (h : Hd) (b : BitVec 3) (s : State) : Res :=
  issue h true 1 false (fun _ o => do
    needMask o [b]
    .ok { effs := [(2, .lam (rmask o b))] }) s

/-- VMPACK: row r's bits of mb go to lanes (r, 0) and (r, 1), every other active lane reads 0. -/
def execVmpack (h : Hd) (a : BitVec 4) (b : BitVec 3) (s : State) : Res :=
  issue h true 1 false (fun _ o => do
    needMask o [b]
    let lane (l : Nat) : W32 := if l % 64 < 2 then (rmask o b).extractLsb' (l / 64 * 64 + l % 64 * 32) 32 else 0
    .ok { effs := [(2, .vreg a.toNat (lanesOf lane) (active o))] }) s

/-- Lanes (r, 0) and (r, 1) of every row. -/
def packLanes : LaneMask := maskOf fun l => decide (l % 64 < 2)

/-- VMUNPK: row r's bits of ma come from lanes (r, 0) and (r, 1) of vb. -/
def execVmunpk (h : Hd) (a : BitVec 3) (b : BitVec 4) (s : State) : Res :=
  issue h true 1 false (fun s o => do
    let k := s.curCore
    needParity k o [(b, packLanes)]
    let x := vlanes k o b
    let val := maskOf fun l => (cget x (l / 64 * 64 + l % 64 / 32)).getLsbD (l % 32)
    .ok { effs := [(2, .mask a val (active o))] }) s

/-! ### Conversions and quantisation (R394-R397) -/

/-- VCVT.FI: va := the nearest signed integer, saturated. -/
def execVcvtFi (h : Hd) (a b : BitVec 4) (s : State) : Res := issue h true 4 false (vec1 4 toInt32 a b) s

/-- VCVT.IF: va := the signed integer as FP32. -/
def execVcvtIf (h : Hd) (a b : BitVec 4) (s : State) : Res := issue h true 4 false (vec1 4 ofInt32 a b) s

/-- VCVT.FB: va := BF16 of vb. -/
def execVcvtFb (h : Hd) (a b : BitVec 4) (s : State) : Res := issue h true 4 false (vec1 4 (fun x => (toBf x).setWidth 32) a b) s

/-- VCVT.BF: va := FP32 of the low half of vb. -/
def execVcvtBf (h : Hd) (a b : BitVec 4) (s : State) : Res := issue h true 4 false (vec1 4 (fun x => bfTo32 (x.setWidth 16)) a b) s

/-- VCVT.FK: va := the order key of vb. -/
def execVcvtFk (h : Hd) (a b : BitVec 4) (s : State) : Res := issue h true 4 false (vec1 4 (fun x => (okey x).setWidth 32) a b) s

/-- The parameters of VQUANT and VQEXP in an exchange register: n, G and slice mode, or FORMAT_INVALID (R395). -/
def quantParams (e : W64) (slice : BitVec 2) : Except Bad (Nat × Nat × Bool) :=
  let nm := (e.extractLsb' 0 3).toNat
  let g := (e.extractLsb' 3 3).toNat
  let sl := e.getLsbD 6
  if nm = 0 ∨ 5 < g ∨ e.toNat / 128 ≠ 0 ∨ (sl ∧ nm ≠ 7) ∨ (!sl ∧ slice ≠ 0) then .error { cause := .formatInvalid }
  else .ok (nm + 1, g, sl)

/-- The block of a lane of half a tile (R396). -/
def laneBlock (g l : Nat) : Nat := blockIdx g (2 * (l / 64) + l % 64 / 32) (l % 32)

/-- The elements of each of the 32 blocks of a register. -/
def blocksOf (g : Nat) (x : Cells 32) : List (List W32) :=
  (List.range 32).map fun b => ((List.range 1024).filter fun l => laneBlock g l = b).map (cget x)

/-- The stored exponent of each block: E in single mode, the block's E before the slices are taken in slice mode. -/
def blockExps (n g : Nat) (sl : Bool) (x : Cells 32) : List Nat :=
  (blocksOf g x).map fun xs => if sl then sliceExp xs else blockExp n xs

/-- VQUANT: each active lane is its mantissa, sign-extended; unguarded. -/
def execVquant (h : Hd) (a b : BitVec 4) (e : BitVec 3) (sl : BitVec 2) (s : State) : Res :=
  issue h false 4 false (fun s o => do
    let (n, g, slice) ← quantParams (re o e.toNat) sl
    let k := s.curCore
    needParity k o [(b, allLanes)]
    let x := vlanes k o b
    let es := blockExps n g slice x
    let q (l : Nat) : Int :=
      let ex := es.getD (laneBlock g l) 0
      if slice then sliceQ ex sl.toNat (cget x l) else blockQ n ex (cget x l)
    .ok { effs := [(6, .vreg a.toNat (lanesOf fun l => BitVec.ofInt 32 (q l)) (active o))] }) s

/-- VQEXP: lane (0, b) is the exponent of block b, every other active lane 0; unguarded. -/
def execVqexp (h : Hd) (a b : BitVec 4) (e : BitVec 3) (sl : BitVec 2) (s : State) : Res :=
  issue h false 4 false (fun s o => do
    let (n, g, slice) ← quantParams (re o e.toNat) sl
    let k := s.curCore
    needParity k o [(b, allLanes)]
    let es := blockExps n g slice (vlanes k o b)
    let lane (l : Nat) : W32 :=
      if l < 32 then bv 32 (let ex := es.getD l 0; if slice then sliceE ex sl.toNat else ex) else 0
    .ok { effs := [(6, .vreg a.toNat (lanesOf lane) (active o))] }) s

/-! ### Cross-lane operations (R380, R398-R401): unguarded -/

/-- Read lanes across: LANE_FAULT with the inactive lanes that would be read when P = 0; with P = 1 they read 0. Then
the parity check of the lanes read. -/
def crossRead (k : CoreSt) (o : Owner) (b : BitVec 4) (p : BitVec 1) (lanes : LaneMask) : Except Bad (Cells 32) :=
  let missing := lanes &&& ~~~active o
  if p = 0 ∧ missing ≠ 0 then .error { cause := .laneFault, lanes := missing }
  else if vBad k o b.toNat (lanes &&& active o) then .error { cause := .operandParity }
  else .ok ((vlanes k o b).filter fun (l, _) => (active o).getLsbD l)

/-- The set of lanes that the active destination lanes read. -/
def readSet (o : Owner) (src : Nat → List Nat) : LaneMask :=
  (List.range 1024).foldl (fun m l =>
    if (active o).getLsbD l then (src l).foldl (fun m j => m ||| (1#1024 <<< j)) m else m) 0

/-- A move across lanes: each active lane takes the lane that `src` names. -/
def crossMove (lat : Nat) (p : BitVec 1) (src : Nat → Nat) (a b : BitVec 4) : Body := fun s o => do
  let x ← crossRead s.curCore o b p (readSet o fun l => [src l])
  .ok { effs := [(lat, .vreg a.toNat (lanesOf fun l => cget x (src l)) (active o))] }

/-- The lanes of row (or column) `g`, in order. -/
def groupLanes (row : Bool) (g : Nat) : List Nat :=
  if row then (List.range 64).map (g * 64 + ·) else (List.range 16).map (· * 64 + g)

/-- The row or column of a lane, and its place in it. -/
def groupOf (row : Bool) (l : Nat) : Nat × Nat := if row then (l / 64, l % 64) else (l % 64, l / 64)

/-- Combine neighbours. -/
def pairUp (op : W32 → W32 → W32) : List W32 → List W32
  | x :: y :: l => op x y :: pairUp op l
  | l => l

/-- The fixed pairwise tree (R400), `n` levels. -/
def reduceTree (op : W32 → W32 → W32) : Nat → List W32 → W32
  | 0, l => l.headD 0
  | n + 1, l => reduceTree op n (pairUp op l)

/-- The inclusive sequential scan (R401). -/
def scanList (op : W32 → W32 → W32) : W32 → List W32 → List W32
  | _, [] => []
  | x, y :: l => op x y :: scanList op (op x y) l

/-- A reduction of every row or column that has an active destination lane. -/
def crossReduce (lat : Nat) (row : Bool) (op : W32 → W32 → W32) (p : BitVec 1) (a b : BitVec 4) : Body := fun s o => do
  let x ← crossRead s.curCore o b p (readSet o fun l => groupLanes row (groupOf row l).1)
  let res := (List.range (if row then 16 else 64)).map fun g =>
    reduceTree op (if row then 6 else 4) ((groupLanes row g).map (cget x))
  .ok { effs := [(lat, .vreg a.toNat (lanesOf fun l => res.getD (groupOf row l).1 0) (active o))] }

/-- A scan of every row or column. -/
def crossScan (lat : Nat) (row : Bool) (op : W32 → W32 → W32) (p : BitVec 1) (a b : BitVec 4) : Body := fun s o => do
  let x ← crossRead s.curCore o b p
    (readSet o fun l => (groupLanes row (groupOf row l).1).take ((groupOf row l).2 + 1))
  let res := (List.range (if row then 16 else 64)).map fun g =>
    match (groupLanes row g).map (cget x) with
    | [] => []
    | y :: l => y :: scanList op y l
  .ok { effs := [(lat, .vreg a.toNat (lanesOf fun l => (res.getD (groupOf row l).1 []).getD (groupOf row l).2 0)
                    (active o))] }

/-- VROT.R: va[i][j] := vb[i][(j - k) mod 64]. -/
def execVrotR (h : Hd) (a b : BitVec 4) (p : BitVec 1) (k : BitVec 6) (s : State) : Res :=
  issue h false 1 false (crossMove 3 p (fun l => l / 64 * 64 + (l % 64 + 64 - k.toNat) % 64) a b) s

/-- VROT.C: va[i][j] := vb[(i - k) mod 16][j]. -/
def execVrotC (h : Hd) (a b : BitVec 4) (p : BitVec 1) (k : BitVec 4) (s : State) : Res :=
  issue h false 1 false (crossMove 5 p (fun l => (l / 64 + 16 - k.toNat) % 16 * 64 + l % 64) a b) s

/-- VBC.R: va[i][j] := vb[i][k]. -/
def execVbcR (h : Hd) (a b : BitVec 4) (p : BitVec 1) (k : BitVec 6) (s : State) : Res :=
  issue h false 1 false (crossMove 3 p (fun l => l / 64 * 64 + k.toNat) a b) s

/-- VBC.C: va[i][j] := vb[k][j]. -/
def execVbcC (h : Hd) (a b : BitVec 4) (p : BitVec 1) (k : BitVec 4) (s : State) : Res :=
  issue h false 1 false (crossMove 5 p (fun l => k.toNat * 64 + l % 64) a b) s

/-- A permute: the index lane is the destination's own lane of vc (R399). A lane fault comes before the parity of the
indices. -/
def permute (lat : Nat) (src : Nat → W32 → Nat) (p : BitVec 1) (a b c : BitVec 4) : Body := fun s o => do
  let k := s.curCore
  let y := vlanes k o c
  let from_ (l : Nat) := src l (cget y l)
  let x ← crossRead k o b p (readSet o fun l => [from_ l])
  needParity k o [(c, active o)]
  .ok { effs := [(lat, .vreg a.toNat (lanesOf fun l => cget x (from_ l)) (active o))] }

/-- VPERM.R: va[i][j] := vb[i][vc[i][j][5:0]]. -/
def execVpermR (h : Hd) (a b c : BitVec 4) (p : BitVec 1) (s : State) : Res :=
  issue h false 1 false (permute 4 (fun l w => l / 64 * 64 + w.toNat % 64) p a b c) s

/-- VPERM.C: va[i][j] := vb[vc[i][j][3:0]][j]. -/
def execVpermC (h : Hd) (a b c : BitVec 4) (p : BitVec 1) (s : State) : Res :=
  issue h false 1 false (permute 6 (fun l w => w.toNat % 16 * 64 + l % 64) p a b c) s

/-- VRED.R.FADD (R400): the FP sum of each row, as a pairwise tree. -/
def execVredRFadd (h : Hd) (a b : BitVec 4) (p : BitVec 1) (s : State) : Res :=
  issue h false 1 false (crossReduce 6 true add32 p a b) s

/-- VRED.R.IADD (R400): the integer sum of each row, as a pairwise tree. -/
def execVredRIadd (h : Hd) (a b : BitVec 4) (p : BitVec 1) (s : State) : Res :=
  issue h false 1 false (crossReduce 6 true (fun x y => x + y) p a b) s

/-- VRED.R.XOR (R400): the XOR of each row, as a pairwise tree. -/
def execVredRXor (h : Hd) (a b : BitVec 4) (p : BitVec 1) (s : State) : Res :=
  issue h false 1 false (crossReduce 6 true (fun x y => x ^^^ y) p a b) s

/-- VRED.R.MAX (R400): the FP maximum of each row, as a pairwise tree. -/
def execVredRMax (h : Hd) (a b : BitVec 4) (p : BitVec 1) (s : State) : Res :=
  issue h false 1 false (crossReduce 6 true fmax32 p a b) s

/-- VRED.R.MIN (R400): the FP minimum of each row, as a pairwise tree. -/
def execVredRMin (h : Hd) (a b : BitVec 4) (p : BitVec 1) (s : State) : Res :=
  issue h false 1 false (crossReduce 6 true fmin32 p a b) s

/-- VRED.C.FADD (R400): the FP sum of each column, as a pairwise tree. -/
def execVredCFadd (h : Hd) (a b : BitVec 4) (p : BitVec 1) (s : State) : Res :=
  issue h false 1 false (crossReduce 8 false add32 p a b) s

/-- VRED.C.IADD (R400): the integer sum of each column, as a pairwise tree. -/
def execVredCIadd (h : Hd) (a b : BitVec 4) (p : BitVec 1) (s : State) : Res :=
  issue h false 1 false (crossReduce 8 false (fun x y => x + y) p a b) s

/-- VRED.C.XOR (R400): the XOR of each column, as a pairwise tree. -/
def execVredCXor (h : Hd) (a b : BitVec 4) (p : BitVec 1) (s : State) : Res :=
  issue h false 1 false (crossReduce 8 false (fun x y => x ^^^ y) p a b) s

/-- VRED.C.MAX (R400): the FP maximum of each column, as a pairwise tree. -/
def execVredCMax (h : Hd) (a b : BitVec 4) (p : BitVec 1) (s : State) : Res :=
  issue h false 1 false (crossReduce 8 false fmax32 p a b) s

/-- VRED.C.MIN (R400): the FP minimum of each column, as a pairwise tree. -/
def execVredCMin (h : Hd) (a b : BitVec 4) (p : BitVec 1) (s : State) : Res :=
  issue h false 1 false (crossReduce 8 false fmin32 p a b) s

/-- VSCAN.R.FADD (R401): the inclusive FP sum along each row. -/
def execVscanRFadd (h : Hd) (a b : BitVec 4) (p : BitVec 1) (s : State) : Res :=
  issue h false 1 false (crossScan 8 true add32 p a b) s

/-- VSCAN.R.IADD (R401): the inclusive integer sum along each row. -/
def execVscanRIadd (h : Hd) (a b : BitVec 4) (p : BitVec 1) (s : State) : Res :=
  issue h false 1 false (crossScan 8 true (fun x y => x + y) p a b) s

/-- VSCAN.R.XOR (R401): the inclusive XOR along each row. -/
def execVscanRXor (h : Hd) (a b : BitVec 4) (p : BitVec 1) (s : State) : Res :=
  issue h false 1 false (crossScan 8 true (fun x y => x ^^^ y) p a b) s

/-- VSCAN.C.FADD (R401): the inclusive FP sum along each column. -/
def execVscanCFadd (h : Hd) (a b : BitVec 4) (p : BitVec 1) (s : State) : Res :=
  issue h false 1 false (crossScan 10 false add32 p a b) s

/-- VSCAN.C.IADD (R401): the inclusive integer sum along each column. -/
def execVscanCIadd (h : Hd) (a b : BitVec 4) (p : BitVec 1) (s : State) : Res :=
  issue h false 1 false (crossScan 10 false (fun x y => x + y) p a b) s

/-- VSCAN.C.XOR (R401): the inclusive XOR along each column. -/
def execVscanCXor (h : Hd) (a b : BitVec 4) (p : BitVec 1) (s : State) : Res :=
  issue h false 1 false (crossScan 10 false (fun x y => x ^^^ y) p a b) s

/-- The elements of the selected lanes, in lane order: active lanes whose mask bit matches SENSE. -/
def selectedLanes (o : Owner) (m : BitVec 3) (sn : BitVec 1) : List Nat :=
  (List.range 1024).filter fun l => (active o).getLsbD l && senseMatch o m sn l

/-- VCPR (R402): the selected elements of vb go to lanes 0 upward, and 0 to the lanes after them. -/
def execVcpr (h : Hd) (a b : BitVec 4) (sn : BitVec 1) (m : BitVec 3) (s : State) : Res :=
  issue h false 1 false (fun s o => do
    let k := s.curCore
    let ls := selectedLanes o m sn
    needParity k o [(b, maskOf fun l => ls.contains l)]
    needMask o [m]
    let x := vlanes k o b
    let vs := ls.map (cget x)
    .ok { effs := [(10, .vreg a.toNat (lanesOf fun l => vs.getD l 0) (active o))] }) s

/-! ### The result ring (R403, R404) -/

/-- RING_UNDERRUN unless the tail tile is full. -/
def needFullTail (o : Owner) : Except Bad Unit := if tileFull o o.tail then .ok () else .error { cause := .ringUnderrun }

/-- RPOP: rows 16q to 16q + 15 of the tail tile, visible in va at tick k + 4. -/
def execRpop (h : Hd) (a : BitVec 4) (q : BitVec 2) (s : State) : Res :=
  issue h true 1 false (fun s o => do
    let k := s.curCore
    needFullTail o
    let base := tilePhys o o.tail * 4096 + q.toNat * 1024
    if k.ringErr.any fun w => decide (base ≤ 2 * w ∧ 2 * w < base + 1024) then .error { cause := .operandParity }
    .ok { effs := [(4, .vreg a.toNat (cslice k.ring base 1024) (active o))] }) s

/-- RFREE: the tail tile becomes empty and the tail advances. -/
def execRfree (h : Hd) (s : State) : Res :=
  issue h true 1 false (fun _ o => do
    needFullTail o
    .ok { effs := [(1, .ring .rfree)] }) s

end Sys2Proof.Machine
end

