-- ==== Sys2Proof/Machine/Load.lean ====
section
/-! DEFINITION. The load stream (claims, tile loads, vector loads, leaf gather) and the vector stores of the store stream
(R340-R347). -/

namespace Sys2Proof.Machine

/-! ### Claims (R340) -/

/-- CLAIM: the slots become the owner's at the end of the tick, unless one is claimed. -/
def execClaim (h : Hd) (oa n : BitVec 5) (s : State) : Res :=
  issue h true 1 false (fun _ o =>
    let c := n.toNat + 1
    if (List.range c).any fun i => o.claims.getLsbD (oa.toNat + i) then .error { cause := .omClaimConflict }
    else .ok { effs := [(1, .claim oa.toNat c true)] }) s

/-- RELEASE: the slots are freed at the end of the tick; all must be claimed. -/
def execRelease (h : Hd) (oa n : BitVec 5) (s : State) : Res :=
  issue h true 1 false (fun _ o => do
    let c := n.toNat + 1
    needClaim o oa.toNat c
    .ok { effs := [(1, .claim oa.toNat c false)] }) s

/-! ### Reading pattern bytes in a tick -/

/-- The bank ports of bytes [lo, hi) of a pattern that are read in this tick, after the checks on their lines in the
order of R339. -/
def readPart (k : CoreSt) (o : Owner) (g : Ag) (lo hi : Nat) : Except Bad (List Port) := do
  let ls := g.lines lo hi
  let ps ← takePorts o.ports ls false
  readable k o ls
  .ok ps

/-- Byte `n` of a pattern. -/
def patByte (k : CoreSt) (o : Owner) (g : Ag) (n : Nat) : Byte := cget k.win (winAt o (g.byteAt n).toNat)

/-- A little-endian number of `c` bytes from byte `n` of a pattern. -/
def patNat (k : CoreSt) (o : Owner) (g : Ag) (n c : Nat) : Nat :=
  leNat ((List.range c).map fun i => patByte k o g (n + i))

/-! ### Tile loads (R341, R342) -/

/-- A load of one slot that reads its whole pattern at its issue tick; its contents are visible at k + 6. -/
def tileLoad (len0 cnt1 : Nat) (oa : BitVec 5) (ag : BitVec 3) (eff : CoreSt → Owner → Ag → Effect) : Body := fun s o => do
  let k := s.curCore
  let g := rag o ag
  needClaim o oa.toNat 1
  needPattern (g.shape len0 cnt1)
  needWindow o g
  let ps ← readPart k o g 0 g.bytes
  .ok { effs := [useAg ag, (6, eff k o g)], ports := ps }

/-- LDTA: byte m·32 + k of the slot is byte k of row m. -/
def execLdta (h : Hd) (oa : BitVec 5) (ag : BitVec 3) (s : State) : Res :=
  issue h true 1 false (tileLoad 32 64 oa ag fun k o g => .omMant oa.toNat (ctab 2048 (patByte k o g))) s

/-- LDTB: byte n·32 + k of the slot is byte n of row k. -/
def execLdtb (h : Hd) (oa : BitVec 5) (ag : BitVec 3) (s : State) : Res :=
  issue h true 1 false (tileLoad 64 32 oa ag fun k o g =>
    .omMant oa.toNat (ctab 2048 fun b => patByte k o g (b % 32 * 64 + b / 32))) s

/-- LDE: the sidecar. -/
def execLde (h : Hd) (oa : BitVec 5) (ag : BitVec 3) (s : State) : Res :=
  issue h true 1 false (tileLoad 64 1 oa ag fun k o g => .omSide oa.toNat (ctab 64 (patByte k o g))) s

/-- The contents of the slot that row `i` of an LDTF fills. -/
def ldtfRow (k : CoreSt) (o : Owner) (g : Ag) (i : Nat) : Cells 8 := ctab 2048 fun b => patByte k o g (i * 2048 + b)

/-- LDTF: row i is read at tick k + i and fills the mantissas of slot oa + i, visible at k + i + 6. -/
def execLdtf (h : Hd) (oa : BitVec 5) (ag : BitVec 3) (n : BitVec 4) (s : State) : Res :=
  issue h true (n.toNat + 1) false (fun s o => do
    let k := s.curCore
    let g := rag o ag
    needClaim o oa.toNat (n.toNat + 1)
    needPattern (g.shape 2048 (n.toNat + 1))
    needWindow o g
    let ps ← readPart k o g 0 2048
    let later := (List.range n.toNat).map fun i => (i + 1, Effect.read (.ldtf (oa.toNat + i + 1) g (i + 1)))
    .ok { effs := [useAg ag, (6, .omMant oa.toNat (ldtfRow k o g 0))] ++ later, ports := ps }) s

/-! ### Vector loads (R343, R344) -/

/-- Whether a pattern has a shape of a vector load. -/
def ldvShape (q : LdvKind) (g : Ag) : Bool :=
  match q with
  | .w => g.shape 256 16
  | .h => g.shape 128 16 || g.shape 256 16
  | .hu => g.shape 128 16
  | .b | .bu => g.shape 64 16
  | .rw => g.shape 256 1
  | .cw => g.shape 4 16

/-- First byte of lane `l` in the pattern, and how many. -/
def ldvPlace (q : LdvKind) (g : Ag) (l : Nat) : Nat × Nat :=
  let i := l / 64
  let j := l % 64
  match q with
  | .w => (i * 256 + 4 * j, 4)
  | .h => if g.len0 = 256 then (i * 256 + 4 * j, 4) else (i * 128 + 2 * j, 2)
  | .hu => (i * 128 + 2 * j, 2)
  | .b | .bu => (i * 64 + j, 1)
  | .rw => (4 * j, 4)
  | .cw => (4 * i, 4)

/-- What a lane receives from its bytes. -/
def ldvValue (q : LdvKind) (g : Ag) (n : Nat) : W32 :=
  match q with
  | .h => if g.len0 = 256 then bv 32 n else bfTo32 (bv 16 n)
  | .b => (bv 8 n).signExtend 32
  | _ => bv 32 n

/-- Half `p` (0, 1) of a vector load, read in this tick: the active lanes whose bytes lie in that half. -/
def ldvHalf (q : LdvKind) (v : Nat) (k : CoreSt) (o : Owner) (g : Ag) (act : LaneMask) (p : Nat) : Effect :=
  let lo := p * (g.bytes / 2)
  let hi := (p + 1) * (g.bytes / 2)
  let mine := maskOf fun l => decide (lo ≤ (ldvPlace q g l).1 ∧ (ldvPlace q g l).1 < hi)
  .vreg v (lanesOf fun l =>
    if (act &&& mine).getLsbD l then ldvValue q g (patNat k o g (ldvPlace q g l).1 (ldvPlace q g l).2) else 0) (act &&& mine)

/-- A vector load: half of the pattern in tick k and half in tick k + 1; the lanes are visible at k + 6. -/
def vload (q : LdvKind) (a : BitVec 4) (ag : BitVec 3) : Body := fun s o => do
  let k := s.curCore
  let g := rag o ag
  needPattern (ldvShape q g)
  needWindow o g
  let ps ← readPart k o g 0 (g.bytes / 2)
  .ok { effs := [useAg ag, (6, ldvHalf q a.toNat k o g (active o) 0), (1, .read (.ldv q a.toNat g (active o)))],
        ports := ps }

/-- LDV.W: lane (i, j) receives the word at row i, byte 4j. -/
def execLdvW (h : Hd) (a : BitVec 4) (ag : BitVec 3) (s : State) : Res := issue h true 2 false (vload .w a ag) s

/-- LDV.H: lane (i, j) receives a BF16 half widened, or two packed, by LEN0. -/
def execLdvH (h : Hd) (a : BitVec 4) (ag : BitVec 3) (s : State) : Res := issue h true 2 false (vload .h a ag) s

/-- LDV.HU: lane (i, j) receives an unsigned half. -/
def execLdvHu (h : Hd) (a : BitVec 4) (ag : BitVec 3) (s : State) : Res := issue h true 2 false (vload .hu a ag) s

/-- LDV.B: lane (i, j) receives a signed byte. -/
def execLdvB (h : Hd) (a : BitVec 4) (ag : BitVec 3) (s : State) : Res := issue h true 2 false (vload .b a ag) s

/-- LDV.BU: lane (i, j) receives an unsigned byte. -/
def execLdvBu (h : Hd) (a : BitVec 4) (ag : BitVec 3) (s : State) : Res := issue h true 2 false (vload .bu a ag) s

/-- LDVR.W: lane (i, j) receives the word of row 0 at byte 4j. -/
def execLdvrW (h : Hd) (a : BitVec 4) (ag : BitVec 3) (s : State) : Res := issue h true 2 false (vload .rw a ag) s

/-- LDVC.W: lane (i, j) receives the word of row i. -/
def execLdvcW (h : Hd) (a : BitVec 4) (ag : BitVec 3) (s : State) : Res := issue h true 2 false (vload .cw a ag) s

/-! ### Leaf gather (R345, R255) -/

/-- What a lane of an LDG takes: a constant, or the word at a byte offset of the table. -/
def ldgTarget (w band : Nat) (exits : Cells 32) (l : Nat) : Sum W32 Nat :=
  let leaf := (cget exits l).toNat / 256 ^ band % 256
  if 64 / w ≤ band then .inl 0
  else if leaf = 0xFF then .inl nan32
  else .inr ((l % 64 * w + leaf) * 4 % (256 * w))

/-- Piece `n` of the table, read in this tick: the active lanes that take their word from it; the lanes that read
nothing take their constant with piece 0. -/
def ldgPiece (v : Nat) (exits : Cells 32) (band w : Nat) (act : LaneMask) (base n : Nat) (k : CoreSt) (o : Owner) : Effect :=
  let mine := maskOf fun l => match ldgTarget w band exits l with
    | .inl _ => decide (n = 0)
    | .inr t => decide (t / 2048 = n)
  .vreg v (lanesOf fun l =>
    if (act &&& mine).getLsbD l then
      match ldgTarget w band exits l with
      | .inl c => c
      | .inr t => bv 32 (leNat (winBytes k o (base + t) 4))
    else 0) (act &&& mine)

/-- The lines of piece `n` of a table at `base`, a multiple of 64. -/
def ldgLines (base n : Nat) : List Nat := (List.range 32).map fun i => (base + n * 2048) / 64 + i

/-- LDG: gathers a leaf value per lane by the exits in vb; unguarded. The table streams through in pieces of 2 KiB from
tick k on; the lanes are visible at k + 12. -/
def execLdg (h : Hd) (a b : BitVec 4) (ag : BitVec 3) (band : BitVec 2) (s : State) : Res :=
  issue h false 8 false (fun s o => do
    let k := s.curCore
    let g := rag o ag
    needStore k o
    let w := k.thr.w
    let base := g.base.toNat
    needPattern (g.shape (256 * w) 1 && decide (base % 64 = 0))
    needWindow o g
    needParity k o [(b, active o)]
    let ps ← takePorts o.ports (ldgLines base 0) false
    readable k o (ldgLines base 0)
    let ex := vlanes k o b
    let later := (List.range (w / 8 - 1)).map fun i =>
      (i + 1, Effect.read (.ldg a.toNat ex band.toNat w (active o) base (i + 1)))
    .ok { effs := [useAg ag, (12, ldgPiece a.toNat ex band.toNat w (active o) base 0 k o)] ++ later, ports := ps }) s

/-! ### Reads in a later tick of the occupancy -/

/-- The read of a later tick: its ports, and the result it makes due, by ticks from the issue. -/
def lateRead (k : CoreSt) (o : Owner) (r : LateRead) : Except Bad (List Port × Nat × Effect) :=
  match r with
  | .ldv q v g act => do
    let ps ← readPart k o g (g.bytes / 2) g.bytes
    .ok (ps, 6, ldvHalf q v k o g act 1)
  | .ldtf i g n => do
    let ps ← readPart k o g (n * 2048) ((n + 1) * 2048)
    .ok (ps, n + 6, .omMant i (ldtfRow k o g n))
  | .ldg v ex band w act base n => do
    let ps ← takePorts o.ports (ldgLines base n) false
    readable k o (ldgLines base n)
    .ok (ps, 12, ldgPiece v ex band w act base n k o)

/-! ### Vector stores (R346, R347) -/

/-- The shape of a vector store's pattern: bytes per row, rows. -/
def stvShape (q : StvKind) (g : Ag) : Bool :=
  match q with
  | .w => g.shape 256 16
  | .h | .hs => g.shape 128 16
  | .b | .bs => g.shape 64 16
  | .c => g.shape 4096 1

/-- Bytes per lane. -/
def stvSize (q : StvKind) : Nat :=
  match q with
  | .w | .c => 4
  | .h | .hs => 2
  | .b | .bs => 1

/-- The number a lane stores. -/
def stvValue (q : StvKind) (x : W32) : Nat :=
  match q with
  | .w | .c => x.toNat
  | .h => (toBf x).toNat
  | .hs => (BitVec.ofInt 16 (sat x.toInt (-32768) 32767)).toNat
  | .b => x.toNat % 256
  | .bs => (BitVec.ofInt 8 (sat x.toInt (-128) 127)).toNat

/-- The bytes of `vals` (place in the pattern, number of `c` bytes) that lie in [lo, hi) of the pattern, with their
window addresses. -/
def stvBytes (g : Ag) (c : Nat) (vals : List (Nat × Nat)) (lo hi : Nat) : List (Nat × Byte) :=
  (vals.filter fun (p, _) => lo ≤ p ∧ p < hi).flatMap fun (p, v) =>
    (List.range c).zip (natLe c v) |>.map fun (i, b) => ((g.byteAt (p + i)).toNat, b)

/-- A vector store of the values `vals`: half of the pattern in tick k and half in tick k + 1; the bytes are visible to
the owner at k + 4. -/
def vstore (q : StvKind) (a : BitVec 4) (ag : BitVec 3) (masks : List (BitVec 3))
    (vals : CoreSt → Owner → List (Nat × Nat)) : Body := fun s o => do
  let k := s.curCore
  let g := rag o ag
  needPattern (stvShape q g)
  needWindow o g
  needParity k o [(a, active o)]
  needMask o masks
  let half := g.bytes / 2
  let vs := vals k o
  let ps ← takePorts o.ports (g.lines 0 half) true
  .ok { effs := [useAg ag, (4, .win (stvBytes g (stvSize q) vs 0 half)),
                 (1, .port (g.lines half g.bytes) (stvBytes g (stvSize q) vs half g.bytes))],
        ports := ps }

/-- The values of the active lanes at their own places. -/
def stvLanes (q : StvKind) (a : BitVec 4) (k : CoreSt) (o : Owner) : List (Nat × Nat) :=
  let x := vlanes k o a
  ((List.range 1024).filter fun l => (active o).getLsbD l).map fun l => (l * stvSize q, stvValue q (cget x l))

/-- The words of the selected lanes, packed from the pattern's start. -/
def stvcLanes (a : BitVec 4) (sn : BitVec 1) (m : BitVec 3) (k : CoreSt) (o : Owner) : List (Nat × Nat) :=
  let x := vlanes k o a
  let ls := selectedLanes o m sn
  (List.range ls.length).zip ls |>.map fun (n, l) => (4 * n, (cget x l).toNat)

/-- STV.W: each active lane stores the word. -/
def execStvW (h : Hd) (a : BitVec 4) (ag : BitVec 3) (s : State) : Res :=
  issue h true 2 false (vstore .w a ag [] (stvLanes .w a)) s

/-- STV.H: each active lane stores BF16 by round to nearest even. -/
def execStvH (h : Hd) (a : BitVec 4) (ag : BitVec 3) (s : State) : Res :=
  issue h true 2 false (vstore .h a ag [] (stvLanes .h a)) s

/-- STV.HS: each active lane stores the word saturated to a half. -/
def execStvHs (h : Hd) (a : BitVec 4) (ag : BitVec 3) (s : State) : Res :=
  issue h true 2 false (vstore .hs a ag [] (stvLanes .hs a)) s

/-- STV.B: each active lane stores the low byte. -/
def execStvB (h : Hd) (a : BitVec 4) (ag : BitVec 3) (s : State) : Res :=
  issue h true 2 false (vstore .b a ag [] (stvLanes .b a)) s

/-- STV.BS: each active lane stores the word saturated to a byte. -/
def execStvBs (h : Hd) (a : BitVec 4) (ag : BitVec 3) (s : State) : Res :=
  issue h true 2 false (vstore .bs a ag [] (stvLanes .bs a)) s

/-- STVC: the words of the selected lanes go to BASE upward, the rest of the pattern is unchanged. -/
def execStvc (h : Hd) (a : BitVec 4) (ag : BitVec 3) (sn : BitVec 1) (m : BitVec 3) (s : State) : Res :=
  issue h true 2 false (vstore .c a ag [m] (stvcLanes a sn m)) s

end Sys2Proof.Machine
end

