-- ==== Sys2Proof/Machine/Memory.lean ====
section
/-! DEFINITION. Device memory by physical address (R54), translation by the page tables of a VD (R208-R211), the metered
regions (R96, R97), host memory, and the energy charged for bytes moved (R169-R171). -/

namespace Sys2Proof.Machine

/-! ### Physical memory -/

/-- Whether a physical address is in HBM (R54). -/
def inHbm (pa : Nat) : Bool := decide (pa < Config.hbmBytes)

/-- Whether a physical address is in module memory (R54). -/
def inMod (pa : Nat) : Bool := decide (Config.modBase ≤ pa ∧ pa < Config.modBase + Config.modBytes)

/-- Whether a range is mapped: wholly in HBM or wholly in module memory (R54). -/
def mapped (pa n : Nat) : Bool := (inHbm pa && inHbm (pa + n - 1)) || (inMod pa && inMod (pa + n - 1))

/-- `n` bytes of device memory. -/
def pread (s : State) (pa n : Nat) : List Byte := cgets s.mem pa n

/-- A little-endian number of `n` bytes of device memory. -/
def preadLe (s : State) (pa n : Nat) : Nat := leNat (pread s pa n)

/-- The poisoned 64-byte lines among those of a range, by line number. -/
def ppoison (s : State) (pa n : Nat) : List Nat :=
  s.memPoison.filter fun l => decide (pa / 64 ≤ l ∧ l ≤ (pa + n - 1) / 64)

/-- Lines that a range covers whole. -/
def wholeLines (a n : Nat) : List Nat :=
  (List.range ((a + n) / 64 - (a + 63) / 64)).map (· + (a + 63) / 64)

/-- Write bytes to device memory. A write of a whole 64-byte line renews the line; `poison` marks lines of the range
that the data poisons; `dt` sets the page's dirty bit (R56, R209 DT). -/
def pwrite (s : State) (pa : Nat) (bytes : List Byte) (poison : List Nat) (dt : Bool) : State :=
  let n := bytes.length
  if n = 0 then s
  else
    { s with
      mem := csets s.mem pa bytes
      memPoison := sall poison (s.memPoison.filter fun l => !(wholeLines pa n).contains l)
      dirty := if dt then sall [pa / 65536, (pa + n - 1) / 65536] s.dirty else s.dirty }

/-! ### Metered regions (R96, R97) -/

/-- Whether a meter is open for a page of a VD. -/
def Meter.covers (m : Meter) (cid page : Nat) : Bool :=
  m.v && decide (m.cid.toNat = cid ∧ m.base.toNat ≤ page ∧ page < m.base.toNat + m.pages.toNat)

/-- Whether a page lies in a sealed region. -/
def sealedPage (s : State) (cid page : Nat) : Bool := s.wm.meters.any fun (_, m) => m.covers cid page && m.sealed

/-- A policy entry's GRAN, and its window exponent K (R104). -/
def gran (v : Vd) (c : Nat) : Nat := bits (v.policy.getD c 0).toNat 2 0
def granK (v : Vd) (c : Nat) : Nat := bits (v.policy.getD c 0).toNat 7 3

/-- The window of 2^K ms of the nanosecond clock that holds `ns` (R105). -/
def windowOf (k ns : Nat) : Nat := ns / (2 ^ k * 1000000)

/-- Bring a windowed value up to the present window `i`: the window, the value at its start, and what the last closed
window measured. `val` is the value now, unchanged since the last change was brought in. -/
def rollWindow (i : Nat) (w : Nat × Nat × Nat) (val : Nat) : Nat × Nat × Nat :=
  if i = w.1 then w else (i, val, if i = w.1 + 1 then val - w.2.1 else 0)

/-- The window state of a meter's COUNT at present. -/
def meterWindow (s : State) (m : Meter) : Nat × Nat × Nat :=
  rollWindow (windowOf (granK (s.vd m.cid.toNat) 6) s.ns) m.win m.count

/-- Count a read of `n` bytes at a VA in the meters it meets; COUNT saturates (R97). -/
def countRead (s : State) (cid va n : Nat) : State :=
  let add (m : Meter) : Meter :=
    if m.v && decide (m.cid.toNat = cid) then
      let lo := max va (m.base.toNat * 65536)
      let hi := min (va + n) ((m.base.toNat + m.pages.toNat) * 65536)
      { m with count := min (m.count + (hi - lo)) (2 ^ 64 - 1), win := meterWindow s m }
    else m
  { s with wm := { s.wm with meters := tmap s.wm.meters fun _ m => add m } }

/-! ### Translation (R208, R209) -/

/-- Why a line is not accessed: a fault with its cause, or a demand page that is not resident. -/
inductive VaErr where
  | fault (c : Cause) (va : Nat)
  | demand (page : Nat)
  deriving DecidableEq, Repr

/-- The 64-bit entry at a physical address, or TRANSFER_UNCORRECTABLE where its line is poisoned. -/
def readEntry (s : State) (pa va : Nat) : Except VaErr Nat :=
  if (ppoison s pa 8).isEmpty then .ok (preadLe s pa 8) else .error (.fault .transferUncorrectable va)

/-- The checks on an entry found at level `lv`: demand, valid, reserved values, LEAF in its place, alignment, and an
address in memory. Answers whether it is a leaf, and its address. -/
def checkEntry (e lv va : Nat) (demand : Bool) : Except VaErr (Bool × Nat) :=
  let bad := Except.error (VaErr.fault .transferTranslation va)
  let leaf := bit e 2
  let addr := bits e 43 16 * 65536
  if !bit e 0 then
    if bit e 5 && demand then .error (.demand (va / 65536)) else bad
  else if bits e 7 6 ≥ 2 ∨ bits e 15 8 ≠ 0 ∨ bits e 63 44 ≠ 0 then bad
  else if (leaf ∧ 2 ≤ lv) ∨ (!leaf ∧ lv = 0) then bad
  else if leaf ∧ lv = 1 ∧ addr % 2 ^ 30 ≠ 0 then bad
  else if !leaf ∧ addr % 2 ^ 17 ≠ 0 then bad
  else if !mapped addr (if !leaf then 131072 else if lv = 1 then 2 ^ 30 else 65536) then bad
  else .ok (leaf, addr)

/-- A way to read the entry of a level at an address: the tables themselves, or a translation unit's copies. -/
abbrev EntryRead := Nat → Nat → Except VaErr Nat

/-- The walk from a table at `tab` through the remaining levels, highest first. Answers the physical address and the
leaf entry. -/
def walkFrom (rd : EntryRead) (va : Nat) (demand : Bool) : List Nat → Nat → Except VaErr (Nat × Nat)
  | [], _ => .error (.fault .transferTranslation va)
  | lv :: lvs, tab =>
    match rd lv (tab + bits va (16 + 14 * lv + 13) (16 + 14 * lv) * 8) with
    | .error e => .error e
    | .ok e =>
      match checkEntry e lv va demand with
      | .error x => .error x
      | .ok (true, addr) => .ok (addr + va % (if lv = 1 then 2 ^ 30 else 65536), e)
      | .ok (false, addr) => walkFrom rd va demand lvs addr

/-- Translate a VA of a VD below 0xF0_0000_0000_0000_0000: its physical address, and whether the leaf sets dirty bits. A
write needs W and no sealed region. An outstanding page of a migration is not resident (R126). -/
def translateBy (rd : EntryRead) (s : State) (cid va : Nat) (write : Bool) : Except VaErr (Nat × Bool) :=
  let v := s.vd cid
  if va / 2 ^ 68 = 15 then .error (.fault .transferTranslation va)
  else
    match walkFrom rd va v.demand [3, 2, 1, 0] v.root with
    | .error e => .error e
    | .ok (pa, e) =>
      if write && (!bit e 1 || sealedPage s cid (va / 65536)) then .error (.fault .transferAccess va)
      else if v.outstanding.contains (va / 65536) then .error (.demand (va / 65536))
      else .ok (pa, bit e 4)

/-- Translate a VA by the tables as they stand: the CFE, the hub and the host port. -/
def translate (s : State) (cid va : Nat) (write : Bool) : Except VaErr (Nat × Bool) :=
  translateBy (fun _ a => readEntry s a va) s cid va write

/-! ### Translation units (R210)

Each cluster's transfer unit keeps entries that it has read, until an INVAL or their eviction. Which it still has is not
stated, so a free value chooses for each use between its copy and the tables. -/

/-- The cluster of a core: 12 columns by 16 rows (R163). -/
def clusterOf (core : Nat) : Nat := core / Config.meshW / 16 * 4 + core % Config.meshW / 12

/-- The copy that a unit has of the entry at a level for a VA. -/
def tlbEntry (s : State) (clu cid lv va : Nat) : Option TlbEntry :=
  s.tlb.find? fun t => decide (t.clu = clu ∧ t.cid = cid ∧ t.lv = lv ∧ t.key = va / 2 ^ (16 + 14 * lv))

/-- The entry that a unit uses at a level: its copy, or the one in the tables. -/
def tlbRead (s : State) (clu cid va : Nat) : EntryRead := fun lv a =>
  match tlbEntry s clu cid lv va with
  | some t => if Config.tlbKept s.free clu lv then .ok t.entry else readEntry s a va
  | none => readEntry s a va

/-- Translate a VA as a core's transfer unit does. -/
def translateAt (clu : Nat) (s : State) (cid va : Nat) (write : Bool) : Except VaErr (Nat × Bool) :=
  translateBy (tlbRead s clu cid va) s cid va write

/-- The entries of a walk, by level. -/
def walkEntries (rd : EntryRead) (va : Nat) : List Nat → Nat → List (Nat × Nat)
  | [], _ => []
  | lv :: lvs, tab =>
    match rd lv (tab + bits va (16 + 14 * lv + 13) (16 + 14 * lv) * 8) with
    | .error _ => []
    | .ok e =>
      match checkEntry e lv va false with
      | .ok (false, addr) => (lv, e) :: walkEntries rd va lvs addr
      | _ => [(lv, e)]

/-- Whether a kept entry is a leaf: one of the TLB; any other is the walk cache's. -/
def TlbEntry.leaf (t : TlbEntry) : Bool := bit t.entry 2

/-- A unit keeps the entries that it translated a VA through: at most 4,096 leaves. The size of its walk cache is not given. -/
def tlbFill (clu cid va : Nat) (s : State) : State :=
  let new := (walkEntries (tlbRead s clu cid va) va [3, 2, 1, 0] (s.vd cid).root).map fun (lv, e) =>
    ({ clu := clu, cid := cid, lv := lv, key := va / 2 ^ (16 + 14 * lv), entry := e } : TlbEntry)
  let old := s.tlb.filter fun t => !new.any fun u => decide (u.clu = t.clu ∧ u.cid = t.cid ∧ u.lv = t.lv ∧ u.key = t.key)
  let mine (t : TlbEntry) : Bool := decide (t.clu = clu) && t.leaf
  let all := old ++ new
  { s with tlb := (all.filter mine).drop ((all.filter mine).length - 4096) ++ all.filter fun t => !mine t }

/-- The pages of a range, lowest first. -/
def pagesIn (va n : Nat) : List Nat :=
  if n = 0 then [] else (List.range ((va + n - 1) / 65536 + 1 - va / 65536)).map (· + va / 65536)

/-- A unit has translated a range. -/
def tlbFillAll (clu cid va n : Nat) (s : State) : State :=
  (pagesIn va n).foldl (fun s p => tlbFill clu cid (p * 65536) s) s

/-- The entries of a VD are dropped from every unit: INVAL, and what the hub changes itself. -/
def tlbDrop (cid : Nat) (s : State) : State := { s with tlb := s.tlb.filter fun t => t.cid ≠ cid }

/-- The 64-byte lines of [va, va + n), each with the part of it in the range: address and length. -/
def lineParts (va n : Nat) : List (Nat × Nat) :=
  if n = 0 then []
  else (List.range ((va + n - 1) / 64 + 1 - va / 64)).map fun i =>
    let l := va / 64 + i
    let lo := max va (l * 64)
    (lo, min (va + n) ((l + 1) * 64) - lo)

/-- A translation of one VA. -/
abbrev Xlate := Nat → Except VaErr (Nat × Bool)

/-- Translate every line of a range; the first that fails decides. -/
def translateAll (tr : Xlate) : List (Nat × Nat) → Except VaErr (List (Nat × Nat × Bool))
  | [] => .ok []
  | (va, n) :: l =>
    match tr va with
    | .error e => .error e
    | .ok (pa, dt) =>
      match translateAll tr l with
      | .error e => .error e
      | .ok r => .ok ((pa, n, dt) :: r)

/-- The bytes of translated lines, and which of the lines are poisoned. -/
def readParts (s : State) (parts : List (Nat × Nat × Bool)) : List Byte × List Nat :=
  (parts.flatMap fun (pa, k, _) => pread s pa k,
   ((List.range parts.length).zip parts).filterMap fun (i, (pa, k, _)) =>
     if (ppoison s pa k).isEmpty then none else some i)

/-- Read `n` bytes at a VA by a way of translating: the bytes, and the lines of the range that are poisoned, counted from its first
line. -/
def vreadBy (tr : Xlate) (s : State) (va n : Nat) : Except VaErr (List Byte × List Nat) :=
  match translateAll tr (lineParts va n) with
  | .error e => .error e
  | .ok parts => .ok (readParts s parts)

/-- Read `n` bytes at a VA of a VD by the tables as they stand. -/
def vread (s : State) (cid va n : Nat) : Except VaErr (List Byte × List Nat) := vreadBy (translate s cid · false) s va n

/-- Write translated lines in order. -/
def writeParts (s : State) (poison : List Nat) : Nat → List (Nat × Nat × Bool) → List Byte → State
  | _, [], _ => s
  | i, (pa, n, dt) :: l, bs =>
    writeParts (pwrite s pa (bs.take n) (if poison.contains i then [pa / 64] else []) dt) poison (i + 1) l (bs.drop n)

/-- Write bytes at a VA by a way of translating; `poison` gives lines of the range, counted from its first, that the data
poisons. -/
def vwriteBy (tr : Xlate) (s : State) (va : Nat) (bytes : List Byte) (poison : List Nat) : Except VaErr State :=
  match translateAll tr (lineParts va bytes.length) with
  | .error e => .error e
  | .ok parts => .ok (writeParts s poison 0 parts bytes)

/-- Write bytes at a VA of a VD by the tables as they stand. -/
def vwrite (s : State) (cid va : Nat) (bytes : List Byte) (poison : List Nat) : Except VaErr State :=
  vwriteBy (translate s cid · true) s va bytes poison

/-- The lines of a range before its first failing one, each performed with its poison or not as a free value says (R210): the
state after, and the physical lines written, each with its bytes. -/
def writeBefore (tr : Xlate) : List (Nat × Nat) → List (Byte × Bool) → State → State × List (Nat × Nat)
  | [], _, s => (s, [])
  | (va, n) :: l, bs, s =>
    match tr va with
    | .error _ => (s, [])
    | .ok (pa, dt) =>
      let b := bs.take n
      if Config.lineNew s.free then
        let r := writeBefore tr l (bs.drop n) (pwrite s.tick1 pa (b.map (·.1)) (if b.any (·.2) then [pa / 64] else []) dt)
        (r.1, (pa, n) :: r.2)
      else writeBefore tr l (bs.drop n) s.tick1

/-! ### Parts of an access (R226)

An ordinary read or write is atomic for each aligned 8-byte word and in no larger unit: it performs in two parts, and a free value
chooses for each word in which. The lines are translated once, for the first part. -/

/-- The aligned 8-byte words that a range touches. -/
def wordParts (va n : Nat) : List (Nat × Nat) :=
  if n = 0 then []
  else (List.range ((va + n - 1) / 8 + 1 - va / 8)).map fun i =>
    let w := va / 8 + i
    let lo := max va (w * 8)
    (lo, min (va + n) ((w + 1) * 8) - lo)

/-- The words of translated lines. -/
def wordsOf (lines : List (Nat × Nat × Bool)) : List (Nat × Nat × Bool) :=
  lines.flatMap fun (pa, n, dt) => (wordParts pa n).map fun (a, k) => (a, k, dt)

/-- Whether word `i` of an access whose choices begin at free value `f` is in its first part. -/
def firstPart (f i : Nat) : Bool := Config.lineNew (f + i)

/-- Write the words of translated data that `sel` names, in order: the address, bytes and dirty bit of each word. -/
def writeWords (sel : Nat → Bool) : Nat → List (Nat × Nat × Bool) → List Byte → State → State
  | _, [], _, s => s
  | i, (pa, n, dt) :: l, bs, s =>
    writeWords sel (i + 1) l (bs.drop n)
      (if sel i then { pwrite s pa (bs.take n) [] dt with memPoison := s.memPoison } else s)

/-- Set and clear the poison of the lines of a write as a whole. -/
def poisonParts (s : State) (poison : List Nat) : Nat → List (Nat × Nat × Bool) → State
  | _, [] => s
  | i, (pa, n, _) :: l =>
    let old := if n = 64 then s.memPoison.filter (· ≠ pa / 64) else s.memPoison
    poisonParts { s with memPoison := if poison.contains i then sins (pa / 64) old else old } poison (i + 1) l

/-- The physical lines among translated ones that data poisons. -/
def poisonedParts (lines : List (Nat × Nat × Bool)) (poison : List Nat) : List Nat :=
  ((List.range lines.length).zip lines).filterMap fun (i, (pa, _, _)) => if poison.contains i then some (pa / 64) else none

/-- The choices of an access to translated lines, taken from the free values. -/
def newTorn (lines : List (Nat × Nat × Bool)) (s : State) : Torn := { f := s.free, lines := lines }

/-- The first part of a write to translated lines; the lines that its data poisons are poisoned from now on. -/
def putFirst (lines : List (Nat × Nat × Bool)) (bytes : List Byte) (poison : List Nat) (s : State) : State :=
  let s' := writeWords (firstPart s.free) 0 (wordsOf lines) bytes s
  { s' with free := s.free + (wordsOf lines).length, memPoison := sall (poisonedParts lines poison) s'.memPoison }

/-- The rest of a write: its remaining words, and the poison of its lines. -/
def putRest (t : Torn) (bytes : List Byte) (poison : List Nat) (s : State) : State :=
  poisonParts (writeWords (fun i => !firstPart t.f i) 0 (wordsOf t.lines) bytes s) poison 0 t.lines

/-- The first part of a write at a VA, with its choices. -/
def vwriteFirst (tr : Xlate) (s : State) (va : Nat) (bytes : List Byte) (poison : List Nat) : Except VaErr (State × Torn) :=
  match translateAll tr (lineParts va bytes.length) with
  | .error e => .error e
  | .ok lines => .ok (putFirst lines bytes poison s, newTorn lines s)

/-- What a read of translated lines finds first, with its choices. -/
def getFirst (lines : List (Nat × Nat × Bool)) (s : State) : State × Torn :=
  let r := readParts s lines
  ({ s with free := s.free + (wordsOf lines).length }, { newTorn lines s with first := r.1, bad := r.2 })

/-- The bytes of words, each from the first reading or the second. -/
def mixWords (sel : Nat → Bool) : Nat → List (Nat × Nat × Bool) → List Byte → List Byte → List Byte
  | _, [], _, _ => []
  | i, (_, n, _) :: l, a, b => (if sel i then a else b).take n ++ mixWords sel (i + 1) l (a.drop n) (b.drop n)

/-- What a read delivers: each word as it was at one of two times, and the lines that were poisoned at either: DEDUCED (log entry 110). -/
def getRest (t : Torn) (s : State) : List Byte × List Nat :=
  let r := readParts s t.lines
  (mixWords (firstPart t.f) 0 (wordsOf t.lines) t.first r.1, sall t.bad r.2)

/-- The first part of a read at a VA. -/
def vreadFirst (tr : Xlate) (s : State) (va n : Nat) : Except VaErr (State × Torn) :=
  match translateAll tr (lineParts va n) with
  | .error e => .error e
  | .ok lines => .ok (getFirst lines s)

/-- The 64-bit word at a VA: CFE and hub reads. -/
def vread64 (s : State) (cid va : Nat) : Except VaErr W64 :=
  match vread s cid va 8 with
  | .error e => .error e
  | .ok (b, p) => if p.isEmpty then .ok (bv 64 (leNat b)) else .error (.fault .transferUncorrectable va)

/-! ### Host memory -/

/-- Bytes of host memory. -/
def hread (s : State) (a n : Nat) : List Byte := cgets s.host a n

/-- Lines of a host range, counted from its first, whose read completions come with EP set (R22). -/
def hpoison (s : State) (a n : Nat) : List Nat :=
  (s.hostPoison.filter fun l => decide (0 < n ∧ a / 64 ≤ l ∧ l ≤ (a + n - 1) / 64)).map (· - a / 64)

/-- Send one request of the device to the host, with the next tag (R21). -/
def hostTlp (fn : Nat) (wr : Bool) (a n : Nat) (ido : Bool) (s : State) : State :=
  let t : HostTlp := { fn := fn, wr := wr, addr := a, len := n, tag := s.link.tag, ido := ido }
  { s with link := { s.link with tag := (s.link.tag + 1) % 2 ^ 14 }, out := s.out ++ [.hostTlp t] }

/-- The pieces of a range that the limit of a request cuts. -/
def tlpCuts (a n limit : Nat) : List (Nat × Nat) :=
  (List.range ((n + limit - 1) / limit)).map fun i => (a + limit * i, min limit (n - limit * i))

/-- The requests of a read of host memory: each within the read-request size in force; ID-Based Ordering on reads of queue rings
(R21). -/
def hostReads (fn a n : Nat) (ido : Bool) (s : State) : State :=
  (tlpCuts a n (max 128 (min 4096 (s.fn fn).cfg.readReq))).foldl (fun s (b, m) => hostTlp fn false b m ido s) s

/-- Write host memory: the host port sends the TLPs, each within the payload size in force, Relaxed Ordering clear; `poison`
gives the lines, counted from the first, that the data poisons: their TLPs have EP set. -/
def hwrite (s : State) (fn a : Nat) (b : List Byte) (poison : List Nat) : State :=
  let n := b.length
  let s := (tlpCuts a n (max 128 (min 512 (s.fn fn).cfg.payload))).foldl (fun s (c, m) => hostTlp fn true c m false s) s
  { s with host := csets s.host a b
           hostPoison := sall (poison.map (· + a / 64)) (s.hostPoison.filter fun l => !(wholeLines a n).contains l) }

/-- Read a VA of a VD or a host address. -/
def dread (s : State) (host : Bool) (cid a n : Nat) : Except VaErr (List Byte × List Nat) :=
  if host then .ok (hread s a n, hpoison s a n) else vread s cid a n

/-- Write a VA of a VD or a host address. -/
def dwrite (s : State) (host : Bool) (cid a : Nat) (b : List Byte) : Except VaErr State :=
  if host then .ok (hwrite s cid a b []) else vwrite s cid a b []

/-! ### Energy of bytes moved (R169, R171), in pJ -/

/-- pJ per byte of an access to a physical address by way of the hub: EN_COEF. -/
def pjPerByte (pa : Nat) : Nat := (if inMod pa then 45 else 30) + 5

/-- pJ of translated lines, each at the rate of its own tier. -/
def partsEnergy (l : List (Nat × Nat)) : Nat := (l.map fun (pa, n) => n * pjPerByte pa).sum

/-- pJ of an access to a range, line by line; a line that does not translate costs nothing. -/
def rangeEnergyBy (tr : Xlate) (va n : Nat) : Nat :=
  partsEnergy ((lineParts va n).filterMap fun (a, k) => match tr a with | .ok (pa, _) => some (pa, k) | .error _ => none)

/-- pJ of an access to a range of a VD. -/
def rangeEnergy (s : State) (cid va n : Nat) : Nat := rangeEnergyBy (translate s cid · false) va n

/-- The estimators take in energy (R16, R169). -/
def estimate (pj : Nat) (s : State) : State := { s with est := { s.est with now := s.est.now + pj } }

/-- Charge a launch, and its VD. -/
def chargeStrand (s : State) (sid pj : Nat) : State :=
  let t := s.strand sid
  let v := s.vd t.cid
  ((estimate pj s).setStrand sid { t with energy := t.energy + pj }).setVd t.cid
    { v with energy := v.energy + pj, enWin := rollWindow (windowOf (granK v 3) s.ns) v.enWin v.energy }

/-- Charge the operator account. -/
def chargeOper (s : State) (pj : Nat) : State := { estimate pj s with enOper := s.enOper + pj }

end Sys2Proof.Machine
end

