-- ==== Sys2Proof/Machine/Post.lean ====
section
/-! DEFINITION. What the hub posts: MSI-X messages (R36), completion entries (R73-R76), page requests (R211), fault
records (R265, R266), trace records (R271-R273), and the triggers of meter records (R98-R100). -/

namespace Sys2Proof.Machine

/-- Log an error in a function's AER capability (R35). -/
def logAer (fn : Nat) (e : AerError) (s : State) : State := s.setFn fn { s.fn fn with aer := (s.fn fn).aer ++ [e] }

/-! ### MSI-X (R36) -/

/-- Whether a vector is held back: masked by its own bit or by Function Mask, or MSI-X is not enabled. Enable and Function Mask are
those of the capability (R26): PRESUMED, PCI Express (log entry 99). -/
def Fn.masks (f : Fn) (v : Nat) : Bool := f.msixMask.getLsbD v || f.cfg.msixAll || !f.cfg.msixOn

/-- Raise a vector of a function; a VF uses VEC[3:0] (R73). A masked vector sets its pending bit. -/
def msix (fn vec : Nat) (s : State) : State :=
  let v := if 33 ≤ fn then vec % 16 else vec
  let f := s.fn fn
  if f.masks v then s.setFn fn { f with pba := f.pba ||| (1#64 <<< v) } else s.emit (.msix fn v)

/-- Send the message of a vector that is pending and no longer masked, once. -/
def msixRelease (fn vec : Nat) (s : State) : State :=
  let f := s.fn fn
  if f.pba.getLsbD vec && !f.masks vec then (s.setFn fn { f with pba := f.pba &&& ~~~(1#64 <<< vec) }).emit (.msix fn vec) else s

/-- MSIX_VECTOR_UNMASK: the mask bit clears, and a pending message is sent once. -/
def execMsixVectorUnmask (fn vec : Nat) (s : State) : Res :=
  let f := s.fn fn
  .next (msixRelease fn vec (s.setFn fn { f with msixMask := f.msixMask &&& ~~~(1#64 <<< vec) }))

/-- A write of MSI-X Enable and Function Mask: what is pending and no longer masked is sent. -/
def msixControl (fn : Nat) (on all : Bool) (s : State) : State :=
  let f := s.fn fn
  (List.range 64).foldl (fun s v => msixRelease fn v s) (s.setFn fn { f with cfg := { f.cfg with msixOn := on, msixAll := all } })

/-! ### Page requests (R211) -/

/-- Ask for a demand page: one request per page; a later fault on a page with an open request joins it, and its write is told in an
entry that is not posted yet. An outstanding page of a migration is pulled from its source (R126). -/
def pageRequest (cid page : Nat) (write : Bool) (s : State) : State :=
  let v := s.vd cid
  if v.outstanding.contains page then
    (if v.pulls.contains page then s else s.push (.postcopyPagePull cid page))
  else if v.prq.openPages.contains page then
    s.setVd cid { v with prq := { v.prq with waiting := v.prq.waiting.map fun (p, w, t) => (p, w || (write && decide (p = page)), t) } }
  else
    (s.setVd cid { v with prq := { v.prq with openPages := v.prq.openPages ++ [page],
                                              waiting := v.prq.waiting ++ [(page, write, s.cycle)] } }).push
      (.pageRequestPost cid)

/-- Whether a ring with free-running indices has room among 2^size slots: their difference is not 2^size (R74). -/
def hasRoom (widx ridx : W32) (size : Nat) : Bool := decide ((widx - ridx).toNat ≠ 2 ^ size)

/-- The phase bit of the entry at a write index (R74). -/
def phaseBit (widx : W32) (size : Nat) : Bool := !widx.getLsbD size

/-- Write `n` bytes for the hub at a VA of a VD: their energy goes to the operator account, as that of all bytes which no launch or COPY
moves; R169 names no account for them: DESIGN CHOICE (log entry 119). -/
def hubPut (s : State) (cid a : Nat) (b : List Byte) : Except VaErr State :=
  match vwrite s cid a b [] with
  | .error e => .error e
  | .ok s' => .ok (chargeOper s' (rangeEnergy s cid a b.length))

/-- Write bytes for the hub in HBM. -/
def hubPutHbm (s : State) (pa : Nat) (b : List Byte) : Except VaErr State :=
  if inHbm pa && inHbm (pa + b.length - 1) then .ok (chargeOper (pwrite s pa b [] true) (b.length * pjPerByte pa))
  else .error (.fault .transferTranslation pa)

/-- Post one page request, or none where the queue has no room, is off, or its own write fails. -/
def prqPost (cid : Nat) (r : Nat × Bool × Nat) (s : State) : Option State :=
  let p := (s.vd cid).prq
  let n := p.size.toNat
  if !p.en || !hasRoom p.widx p.ridx n then none
  else
    let w0 := b01 (phaseBit p.widx n) + 2 * b01 r.2.1 + r.1 * 256
    match hubPut s cid (p.base.toNat + p.widx.toNat % 2 ^ n * 16) (natLe 8 w0 ++ natLe 8 r.2.2) with
    | .error _ => none
    | .ok s' =>
      let v := s'.vd cid
      some (msix cid p.vec.toNat (s'.setVd cid { v with prq := { v.prq with widx := p.widx + 1 } }))

/-- Post waiting requests in fault order until one cannot be posted. -/
def prqDrain (cid : Nat) : List (Nat × Bool × Nat) → State → State
  | [], s => let v := s.vd cid; s.setVd cid { v with prq := { v.prq with waiting := [] } }
  | r :: l, s =>
    match prqPost cid r s with
    | some s' => prqDrain cid l s'
    | none => let v := s.vd cid; s.setVd cid { v with prq := { v.prq with waiting := r :: l } }

/-- PAGE_REQUEST_POST: the waiting requests are posted in fault order as room allows. -/
def execPageRequestPost (cid : Nat) (s : State) : Res := .next (prqDrain cid (s.vd cid).prq.waiting s)

/-- PRQ_ENABLE: a write of the word at 0x08. While EN = 0 it takes SIZE; setting EN zeroes WIDX, and a write that sets it is ignored
where BASE or SIZE is not valid. The next waiting request is posted where the write lets it. -/
def execPrqEnable (cid : Nat) (v : BitVec 64) (s : State) : Res :=
  let d := s.vd cid
  let p := d.prq
  let size := if p.en then p.size else v.extractLsb' 0 4
  let on := v.getLsbD 4
  let ok := decide (p.base.extractLsb' 0 8 = 0) && decide (4 ≤ size.toNat)
  let p' := { p with size := size, vec := v.extractLsb' 8 6, en := on, widx := if on && !p.en then 0 else p.widx }
  .next (if on && !p.en && !ok then s else prqDrain cid p'.waiting (s.setVd cid { d with prq := p' }))

/-! ### Completion queues (R73-R76) -/

/-- Word 0 of an entry without its phase bit (R75). -/
def cqEntry (kind q status : Nat) (tag : W32) : W64 :=
  bv 64 (kind * 2 + q * 2 ^ 8 + status * 2 ^ 16 + tag.toNat * 2 ^ 32)

/-- pJ of `n` bytes that the CFE moves for a function, by way of the hub. -/
def sideEnergy (s : State) (fn : Nat) (host : Bool) (a n : Nat) : Nat :=
  if host then n * 55 else if fn = 0 then partsEnergy [(a, n)] else rangeEnergy s fn a n

/-- A write of the CFE for function `fn`: host memory, a PA for the MF, or a VA of the VD. -/
def fnWrite (s : State) (fn : Nat) (host : Bool) (a : Nat) (b : List Byte) : Except VaErr State :=
  if host then .ok (chargeOper (hwrite s fn a b []) (sideEnergy s fn true a b.length))
  else if fn = 0 then
    if mapped a b.length then .ok (chargeOper (pwrite s a b [] true) (sideEnergy s 0 false a b.length))
    else .error (.fault .transferTranslation a)
  else hubPut s fn a b

/-- A read of the CFE for function `fn`. -/
def fnRead (s : State) (fn : Nat) (host : Bool) (a n : Nat) : Except VaErr (List Byte × List Nat) :=
  if host then .ok (hread s a n, hpoison s a n)
  else if fn = 0 then
    if mapped a n then .ok (pread s a n, (ppoison s a n).map (· - a / 64)) else .error (.fault .transferTranslation a)
  else vread s fn a n

/-- Add 1 to a counter that saturates at 2^32 - 1. -/
def satInc (x : W32) : W32 := if x = BitVec.allOnes 32 then x else x + 1

/-- Count a dropped entry. -/
def cqDropped (fn n : Nat) (ovf : Bool) (s : State) : State :=
  let c := s.cq fn n
  s.setCq fn n { c with lost := satInc c.lost, ovf := c.ovf || ovf }

/-- After an entry is written: count it towards the message, send the message at CNT, or start the timer (R76). -/
def cqCoalesce (fn n : Nat) (s : State) : State :=
  let c := s.cq fn n
  let pend := c.pending + 1
  if max c.cnt.toNat 1 ≤ pend then
    (msix fn c.vec.toNat (s.setCq fn n { c with pending := 0 })).cancel (.cqCoalesceTimeout fn n)
  else
    let s' := s.setCq fn n { c with pending := pend }
    if pend = 1 then s'.afterNs (max c.tmr.toNat 1 * 1000) (.cqCoalesceTimeout fn n) else s'

/-- Write one entry (R74): dropped without room, held on a demand page, dropped where the write faults. -/
def cqWrite (fn n : Nat) (w0 w1 : W64) (s : State) : State :=
  let c := s.cq fn n
  let size := c.size.toNat
  if !c.held.isEmpty then s.setCq fn n { c with held := c.held ++ [(w0, w1)] }
  else if !c.en || !hasRoom c.widx c.ridx size then cqDropped fn n true s
  else
    let w := w0.toNat + b01 (phaseBit c.widx size)
    match fnWrite s fn c.host (c.base.toNat + c.widx.toNat % 2 ^ size * 16) (natLe 8 w ++ natLe 8 w1.toNat) with
    | .ok s' => cqCoalesce fn n (s'.setCq fn n { s'.cq fn n with widx := c.widx + 1 })
    | .error (.fault _ _) => cqDropped fn n false s
    | .error (.demand p) =>
      pageRequest fn p true (s.setCq fn n { c with held := [(w0, w1)], heldPage := some p })

/-- Post an entry now (R74): a drop at a disabled CQ other than the ECQ of the entry's queue is told to that ECQ, if it is
enabled (kind 4, CQ_DROPPED). -/
def cqPostNow (e : CqPost) (s : State) : State :=
  let q := (e.w0.extractLsb' 8 8).toNat
  let ecq := e.ecq.toNat
  let tell := !(s.cq e.fn e.n).en && (s.cq e.fn e.n).held.isEmpty && decide (q ≠ 255) && decide (ecq ≠ e.n) && (s.cq e.fn ecq).en
  let s' := cqWrite e.fn e.n e.w0 e.w1 s
  if tell then
    let kind := (e.w0.extractLsb' 1 7).toNat
    cqWrite e.fn ecq (cqEntry 4 q 0x0104 (e.w0.extractLsb' 32 32)) (bv 64 (e.n + kind * 256)) s'
  else s'

/-- Post an entry: at once in the CFE's turn and after it among what performs in a cycle; else at its next turn (R216). -/
def cqSend (e : CqPost) (s : State) : State :=
  if s.phase = 3 ∧ s.posts = [] then cqPostNow e s else { s with posts := s.posts ++ [e] }

/-- The CFE posts what it has to post. -/
def flushPosts (s : State) : State := s.posts.foldl (fun s e => cqPostNow e s) { s with posts := [] }

/-- Post an entry that concerns the queue it names, as its QCB stands. -/
def cqPost (fn n : Nat) (w0 w1 : W64) (s : State) : State :=
  cqSend { fn := fn, n := n, ecq := (s.queue fn (w0.extractLsb' 8 8).toNat).ecq, w0 := w0, w1 := w1 } s

/-- Post an entry to the ECQ of a queue. -/
def ecqPost (fn q kind status : Nat) (tag : W32) (data : W64) (s : State) : State :=
  cqPost fn (s.queue fn q).ecq.toNat (cqEntry kind q status tag) data s

/-- A SIGNAL_FAULT notice to an ECQ (R72, R75). -/
def signalFault (fn q : Nat) (ecq : BitVec 6) (tag : W32) (w3 : W64) (s : State) : State :=
  cqSend { fn := fn, n := ecq.toNat, ecq := ecq, w0 := cqEntry 4 q 0x0105 tag, w1 := w3 } s

/-- CQ_COALESCE_TIMEOUT: the message is sent TMR µs after the first pending entry. -/
def execCqCoalesceTimeout (fn n : Nat) (s : State) : Res :=
  let c := s.cq fn n
  .next (if c.pending = 0 then s else msix fn c.vec.toNat (s.setCq fn n { c with pending := 0 }))

/-- CQ_ENABLE: a write of the word at 0x08 of a descriptor; one that sets EN while BASE or SIZE is not valid is ignored (R73). -/
def execCqEnable (fn n : Nat) (v : BitVec 64) (s : State) : Res :=
  let c := s.cq fn n
  let size := if c.en then c.size else v.extractLsb' 0 4
  let host := if c.en then c.host else v.getLsbD 4
  let on := v.getLsbD 5
  let ok := decide (c.base.extractLsb' 0 8 = 0) && decide (4 ≤ size.toNat)
  .next (if on && !c.en && !ok then s
    else s.setCq fn n
      { c with size := size, host := host, en := on, widx := if on && !c.en then 0 else c.widx,
               ovf := c.ovf && !v.getLsbD 6, vec := v.extractLsb' 8 6, cnt := v.extractLsb' 16 8,
               tmr := v.extractLsb' 24 10 })

/-! ### Trace (R271-R273) -/

/-- The header word of a trace record of `n` words, 0 for a PAD to the end of the buffer. -/
def traceHead (type n tick : Nat) : W64 := bv 64 (0xA + type * 2 ^ 4 + n * 2 ^ 12 + tick % 2 ^ 48 * 2 ^ 16)

/-- The words after the header, packed from the fields of a record (R271). -/
def traceBody (type : Nat) (fields : List Nat) : List W64 :=
  (List.range (Config.traceLen type % 14 + 1)).map fun i => Config.traceWord type i fields

/-- The bytes of a list of words. -/
def wordBytes (l : List W64) : List Byte := l.flatMap fun w => natLe 8 w.toNat

/-- Write a record into a trace buffer (R272). `put` writes bytes at an offset of the buffer. -/
def trcWrite (put : State → Nat → List Byte → Except VaErr State) (tick : Nat) (words : List W64) (t : Trc) (s : State) :
    State × Trc :=
  let n := 8 * words.length
  let drop : Trc := { t with drop := satInc t.drop }
  if t.full then (s, drop)
  else if t.off + n ≤ t.size.toNat then
    match put s t.off (wordBytes words) with
    | .error _ => (s, drop)
    | .ok s' => (s', { t with last := bv 32 t.off, off := t.off + n })
  else if t.mode then (s, { drop with full := true })
  else
    let pad := if t.off < t.size.toNat then put s t.off (natLe 8 (traceHead 1 0 tick).toNat) else .ok s
    match pad with
    | .error _ => (s, drop)
    | .ok s1 =>
      match put s1 0 (wordBytes words) with
      | .error _ => (s1, drop)
      | .ok s2 => (s2, { t with last := 0, off := n, wrap := satInc t.wrap })

/-- The least trace class that shows a record of a type to the MF (R271). -/
def traceClass (type : Nat) : Nat :=
  match type with
  | 2 | 3 => 1
  | 4 | 6 | 7 | 10 => 2
  | _ => 3

/-- Whether records of a type of a VD are traced. -/
def traceOn (s : State) (cid type : Nat) : Bool :=
  let v := s.vd cid
  v.trc.en && (decide (10 ≤ type) || v.trc.tmask.getLsbD (type - 2))

/-- A trace record of a VD: to its own buffer where EN and TMASK let it, and with that to the operator copy where the
VD's trace class grants it, with the fields of other classes filtered (R273). -/
def trace (cid type tick : Nat) (words mfWords : List W64) (s : State) : State :=
  let v := s.vd cid
  if !traceOn s cid type then s
  else
    let rec_ (l : List W64) : List W64 := traceHead type (l.length + 1) tick :: l
    let r := trcWrite (fun s a b => hubPut s cid (v.trc.base.toNat + a) b) tick (rec_ words) v.trc s
    let s := r.1.setVd cid { r.1.vd cid with trc := r.2 }
    let o := tget {} s.optrc cid
    if gran v 4 < traceClass type ∨ o.size = 0 then s
    else
      let r := trcWrite (fun s a b => hubPutHbm s (o.base.toNat + a) b) tick (rec_ mfWords) o s
      { r.1 with optrc := tset r.1.optrc cid r.2 }

/-- A trace record whose words the MF sees as they are. -/
def traceRec (cid type tick : Nat) (fields : List Nat) (s : State) : State :=
  trace cid type tick (traceBody type fields) (traceBody type fields) s

/-- A PARK, UNPARK, EVICT, RESUME or REPHASE record (R271): event code, old and new class. -/
def traceEvent (sid code : Nat) (oldS oldP : Nat) (s : State) : State :=
  let t := s.strand sid
  traceRec t.cid 7 t.tick [code, oldS, oldP, t.stride, t.phase] s

/-! ### Disclosure (R105) -/

/-- The largest power of two not above a value. -/
def bucket (n : Nat) : Nat := if n = 0 then 0 else 2 ^ n.log2

/-- A value as the MF sees it: withheld, the previous launch's total, the closed window's bucket, the last SYNC
boundary's value, or exact. -/
def disclosed (g total window sync exact : Nat) : Nat :=
  match g with
  | 0 => 0
  | 1 => total
  | 2 => bucket window
  | 3 => sync
  | _ => exact

/-- The energy of a VD's launches in nJ, as the MF reads it in EN_VD (R171). -/
def energySeen (s : State) (cid : Nat) : Nat :=
  let v := s.vd cid
  let w := rollWindow (windowOf (granK v 3) s.ns) v.enWin v.energy
  disclosed (gran v 3) (v.prevLaunch / 1000) (w.2.2 / 1000) (v.lastSync / 1000) (v.energy / 1000)

/-- Energy of a launch in µJ, rounded to nearest with halves up, saturating (R170). -/
def microJoule (pj : Nat) : Nat := min ((pj + 500000) / 1000000) (2 ^ 64 - 1)

/-! ### Fault records (R265, R266) -/

/-- The contents of a fault record. -/
structure FaultRec where
  cause : Nat := 0
  stream : Nat := 7
  async : Bool := false
  staging : Bool := false
  secondary : Nat := 0
  tag : W32 := 0
  core : Nat := 0
  status : Nat := 0
  sid : Nat := 0
  tick : Nat := 0
  stop : Nat := 0
  loc : Loc := {}
  addr : W64 := 0
  cid : Nat := 0
  lanes : LaneMask := 0
  deriving DecidableEq, Repr

/-- The 256 bytes of a record. -/
def FaultRec.bytes (r : FaultRec) : List Byte :=
  natLe 8 (r.cause + r.stream * 2 ^ 8 + b01 r.async * 2 ^ 11 + b01 r.staging * 2 ^ 12 + min r.secondary 0xFFFF * 2 ^ 16
            + r.tag.toNat * 2 ^ 32)
    ++ natLe 8 (r.core % Config.meshW + r.core / Config.meshW * 2 ^ 8 + r.status * 2 ^ 16 + r.sid * 2 ^ 32)
    ++ natLe 8 r.tick ++ natLe 8 r.stop
    ++ natLe 8 (r.loc.parcel % 2 ^ 16 + r.loc.depth % 4 * 2 ^ 16 + r.loc.status.toNat * 2 ^ 32)
    ++ natLe 8 (r.loc.inner % 2 ^ 32 + r.loc.outer % 2 ^ 32 * 2 ^ 32)
    ++ natLe 8 r.addr.toNat ++ natLe 8 r.cid ++ natLe 128 r.lanes.toNat ++ natLe 64 0

/-- A record as the MF sees it under a fault level (R106, R266). -/
def FaultRec.shown (r : FaultRec) (level : Nat) : FaultRec :=
  let base : FaultRec := { cause := r.cause, cid := r.cid, sid := r.sid, core := r.core, stop := r.stop, stream := 0 }
  match level with
  | 0 => base
  | 1 => { base with stream := r.stream }
  | 2 => { base with stream := r.stream, addr := r.addr &&& ~~~0xFFFF#64 }
  | _ => r

/-- Write a record into a ring: the ring, and the record's index or 0xFFFF_FFFF where it is dropped. -/
def ringWrite (put : State → Nat → List Byte → Except VaErr State) (f : FaultRing) (b : List Byte) (s : State) :
    State × FaultRing × Nat :=
  let n := f.size.toNat
  let drop := (s, { f with lost := satInc f.lost }, 0xFFFFFFFF)
  if !f.en || !hasRoom f.widx f.ridx n then drop
  else
    match put s (f.base.toNat + f.widx.toNat % 2 ^ n * 256) b with
    | .error _ => drop
    | .ok s' => (s', { f with widx := f.widx + 1 }, f.widx.toNat)

/-- Write a record to the VD's ring, and a filtered copy to the MF's. Answers the record's index. -/
def recordWrite (r : FaultRec) (s : State) : State × Nat :=
  let cid := r.cid
  let a := ringWrite (fun s a b => hubPut s cid a b) (s.vd cid).flt r.bytes s
  let s := a.1.setVd cid { a.1.vd cid with flt := a.2.1 }
  let m := ringWrite hubPutHbm s.mfFlt (r.shown (gran (s.vd cid) 5)).bytes s
  ({ m.1 with mfFlt := m.2.1 }, a.2.2)

/-- The first 64 bytes of a record as words: what a FAULT trace record holds. -/
def FaultRec.head (r : FaultRec) : List W64 := (List.range 8).map fun i => bv 64 (leNat ((r.bytes.drop (8 * i)).take 8))

/-- Write a record of a strand at tick `tick`, with the FAULT trace record, of which the operator copy shows what the VD's fault level
shows (R265, R271, R273). The trace record is headed with the tick at which it is written, which keeps a core's records in tick
order: DEDUCED (log entry 87). Answers the record's index. -/
def writeRecord (r : FaultRec) (tick : Nat) (s : State) : State × Nat :=
  let w := recordWrite r s
  (trace r.cid 6 tick r.head (r.shown (gran (w.1.vd r.cid) 5)).head w.1, w.2)

/-- The kind-3 entry of a record, to the CQ of the queue of its LAUNCH (R75). -/
def tellRecord (fn q status : Nat) (tag : W32) (i : Nat) (s : State) : State :=
  cqPost fn (s.queue fn q).cq.toNat (cqEntry 3 q status tag) (bv 64 i) s

/-- Write a record of a strand at tick `tick`, and post its kind-3 entry. -/
def postRecord (r : FaultRec) (tick fn q : Nat) (s : State) : State :=
  let w := writeRecord r tick s
  tellRecord fn q r.status r.tag w.2 w.1

/-! ### Meter triggers (R98-R100) -/

/-- The fields of a meter record as they stand now. -/
def meterCapture (s : State) (m : Meter) (type event : Nat) (late : Bool) (extra : List Byte) : MeterTrig :=
  { type := type, event := event, late := late, count := m.count, timebase := s.cycle, ns := s.ns,
    digest := m.digest, window := (meterWindow s m).2.2,
    gran := gran (s.vd m.cid.toNat) 6, extra := extra }

/-- Trigger a record of meter `i`. With 8 triggers waiting, a checkpoint is dropped and counted in SKIP; any other
replaces the newest waiting checkpoint, or waits for a place and is captured then, with LATE = 1. -/
def meterTrigger (i type event : Nat) (extra : List Byte) (s : State) : State :=
  let m := tget {} s.wm.meters i
  let t := meterCapture s m type event false extra
  let set (m : Meter) (s : State) : State := { s with wm := { s.wm with meters := tset s.wm.meters i m } }
  if m.waiting.length < 8 then (set { m with waiting := m.waiting ++ [t] } s).push (.meterRecordWrite i)
  else if type = 2 then { s with wm := { s.wm with skip := satInc s.wm.skip } }
  else
    match m.waiting.reverse.findIdx? fun w => w.type = 2 with
    | some k => set { m with waiting := m.waiting.eraseIdx (m.waiting.length - 1 - k) ++ [t] } s
    | none => set { m with late := m.late ++ [(type, event, extra)] } s

/-- The open meters of a VD. -/
def metersOf (s : State) (cid : Nat) : List Nat :=
  s.wm.meters.filterMap fun (i, m) => if m.v ∧ m.cid.toNat = cid then some i else none

/-- An EVENT record for every open meter of a VD (R99): 1 park, 2 evict, 3 resume, 4 FLR, 5 TDISP error, 6 destroyed,
7 migration stop. -/
def meterEvent (cid event : Nat) (s : State) : State :=
  (metersOf s cid).foldl (fun s i => meterTrigger i 3 event [] s) s

/-- Whether a meter has a free place for a trigger that may not be late. -/
def meterRoom (s : State) (i : Nat) : Bool :=
  let m := tget {} s.wm.meters i
  decide (m.waiting.length < 8) || m.waiting.any fun w => w.type = 2

end Sys2Proof.Machine
end

