-- ==== Sys2Proof/Machine/Tiers.lean ====
section
/-! DEFINITION. The pages of a VD in physical memory: its leaf entries (R209), their dirty marks (R124), and the tiers in which the
placer keeps them (R56, R143, R144). -/

namespace Sys2Proof.Machine

/-- The indices of the entries of a table that are not all zeros. -/
def listedEntries (s : State) (tab : Nat) : List Nat :=
  s.mem.foldl (fun l (a, _) => if tab ≤ a ∧ a < tab + 131072 then sins ((a - tab) / 8) l else l) []

/-- A leaf entry: its address, its first page and first frame of 64 KiB, and the pages it maps. -/
structure Leaf where
  at_ : Nat
  page : Nat
  frame : Nat
  n : Nat
  deriving DecidableEq, Repr

/-- The leaf entries that the tables at `tab` hold for VAs from `va` on. Those of the remote windows map nothing (R46). -/
def leavesAt (s : State) : List Nat → Nat → Nat → List Leaf
  | [], _, _ => []
  | lv :: lvs, tab, va =>
    (listedEntries s tab).flatMap fun i =>
      let a := tab + 8 * i
      let v := va + i * 2 ^ (16 + 14 * lv)
      if v / 2 ^ 68 = 15 then []
      else
        match readEntry s a v with
        | .error _ => []
        | .ok e =>
          match checkEntry e lv v false with
          | .error _ => []
          | .ok (true, addr) => [{ at_ := a, page := v / 65536, frame := addr / 65536, n := if lv = 1 then 16384 else 1 }]
          | .ok (false, addr) => leavesAt s lvs addr v

/-- The leaf entries of a VD. -/
def leavesOf (s : State) (cid : Nat) : List Leaf := leavesAt s [3, 2, 1, 0] (s.vd cid).root 0

/-- The pages of a VD with their frames, in page order. -/
def pagesOf (s : State) (cid : Nat) : List (Nat × Nat) :=
  (leavesOf s cid).flatMap fun l => (List.range l.n).map fun i => (l.page + i, l.frame + i)

/-- Set or clear DT in every leaf entry of a VD (R209). -/
def setDt (cid : Nat) (on : Bool) (s : State) : State :=
  tlbDrop cid ((leavesOf s cid).foldl (fun s l =>
    let b := cget s.mem l.at_
    { s with mem := cset s.mem l.at_ (if on then b ||| 16 else b &&& 0xEF) }) s)

/-! ### Frames that change hands (R56, R115)

The last holder of a frame is known from the leaf entries of the VDs. A frame is zeroed as it is reassigned: when a leaf entry of
another VD comes to map it, or when the MF first writes in it after its VD was destroyed: DESIGN CHOICE (log entry 113). -/

/-- Zero a range of frames, poison and all. -/
def zeroFrames (p n : Nat) (s : State) : State :=
  { s with mem := czero s.mem (p * 65536) (n * 65536)
           memPoison := s.memPoison.filter fun l => !decide (p ≤ l / 1024 ∧ l / 1024 < p + n) }

/-- The frames that the VDs map: first frame, number, CID and creation count. -/
def mappedFrames (s : State) : List (Nat × Nat × Nat × Nat) :=
  s.vds.flatMap fun (c, v) => (leavesOf s c).map fun l => (l.frame, l.n, c, v.count)

/-- What is left of a range of frames outside another. -/
def cutFrames (p n : Nat) (r : Nat × Nat × Nat × Nat) : List (Nat × Nat × Nat × Nat) :=
  let hi := r.1 + r.2.1
  (if r.1 < min p hi then [(r.1, min p hi - r.1, r.2.2)] else [])
    ++ (if max (p + n) r.1 < hi then [(max (p + n) r.1, hi - max (p + n) r.1, r.2.2)] else [])

/-- Zero what a range of frames has of those that another VD held; they are its own from now on. -/
def takeFrames (s : State) (x : Nat × Nat × Nat × Nat) : State :=
  let s' := s.stale.foldl (fun s r =>
    let lo := max r.1 x.1
    let hi := min (r.1 + r.2.1) (x.1 + x.2.1)
    if r.2.2 ≠ x.2.2 ∧ lo < hi then zeroFrames lo (hi - lo) s else s) s
  { s' with stale := s.stale.flatMap (cutFrames x.1 x.2.1) }

/-- Frames that are mapped and were stale change hands. -/
def settleFrames (s : State) : State := if s.stale.isEmpty then s else (mappedFrames s).foldl takeFrames s

/-- The page tables have changed since `old`: frames that a VD no longer maps, and none mapped beside it, are stale, and those mapped anew
change hands. -/
def noteTables (old s : State) : State :=
  let was := mappedFrames old
  let now := mappedFrames s
  let left := (was.filter now.contains).foldl (fun l r => l.flatMap (cutFrames r.1 r.2.1)) (was.filter fun r => !now.contains r)
  settleFrames { s with stale := s.stale ++ left }

/-- The MF writes in a range of memory: the frames there of VDs that are destroyed are its own from now on. -/
def claimFrames (pa n : Nat) (s : State) : State :=
  let gone (r : Nat × Nat × Nat × Nat) : Bool := (s.vds.all fun (c, v) => decide ((c, v.count) ≠ r.2.2))
  let lo := pa / 65536
  let k := (pa + n + 65535) / 65536 - lo
  let keep := s.stale.filter fun r => !gone r
  let s' := takeFrames { s with stale := s.stale.filter gone } (lo, k, 0, 0)
  { s' with stale := keep ++ s'.stale }

/-! ### Tiers (R143, R144)

The placer moves pages of a VD only while none of its launches runs. It exchanges the frames of a leaf in HBM and a leaf of the same
size in module memory that was read more; a VD beyond its HBM share moves its least read pages to free frames of module memory, and
one within it takes the pages most read into free frames of HBM. The specification does not say which frames are free: DESIGN
CHOICE (log entry 94). -/

/-- The cells of a range, moved to another place. -/
def movedCells (m : Cells 8) (a b n : Nat) : List (Nat × Byte) :=
  m.filterMap fun (x, v) => if a ≤ x ∧ x < a + n then some (x - a + b, v) else none

/-- The contents of `n` frames from `p` on, with their poison, as they stand at `q`. -/
def framesAt (s : State) (p q n : Nat) : List (Nat × Byte) × List Nat :=
  (movedCells s.mem (p * 65536) (q * 65536) (n * 65536),
   s.memPoison.filterMap fun l => if p ≤ l / 1024 ∧ l / 1024 < p + n then some (l - p * 1024 + q * 1024) else none)

/-- Put contents into `n` frames from `p` on. -/
def putFrames (p n : Nat) (b : List (Nat × Byte) × List Nat) (s : State) : State :=
  let z := zeroFrames p n s
  { z with mem := cputs z.mem b.1, memPoison := sall b.2 z.memPoison, dirty := sall ((List.range n).map (· + p)) s.dirty }

/-- TIER of a frame. -/
def tierOf (p : Nat) : Nat := b01 (inMod (p * 65536))

/-- Write ADDR and TIER of a leaf entry in place. -/
def setLeaf (l : Leaf) (p : Nat) (s : State) : State :=
  let e := preadLe s l.at_ 8
  { s with mem := csets s.mem l.at_ (natLe 8 (e - bits e 7 6 * 64 - bits e 43 16 * 65536 + tierOf p * 64 + p * 65536)) }

/-- A page of 64 KiB: its bytes, and its poisoned lines counted from its first. -/
def pageAt (s : State) (p : Nat) : List Byte × List Nat := (pread s (p * 65536) 65536, (ppoison s (p * 65536) 65536).map (· - p * 1024))

/-- Write a page of 64 KiB, with its poison. -/
def putPage (p : Nat) (b : List Byte × List Nat) (s : State) : State :=
  let z := zeroFrames p 1 s
  { z with mem := csets z.mem (p * 65536) b.1, memPoison := sall (b.2.map (· + p * 1024)) z.memPoison, dirty := sins p s.dirty }

/-- Exchange the frames of two leaves of one size. -/
def swapLeaves (s : State) (x : Leaf × Leaf) : State :=
  let a := framesAt s x.1.frame x.2.frame x.1.n
  let b := framesAt s x.2.frame x.1.frame x.1.n
  setLeaf x.1 x.2.frame (setLeaf x.2 x.1.frame (putFrames x.1.frame x.1.n b (putFrames x.2.frame x.1.n a s)))

/-- Move a leaf to other frames; its own are zeroed. -/
def moveLeaf (l : Leaf) (p : Nat) (s : State) : State :=
  let s := { s with stale := s.stale.flatMap (cutFrames p l.n) }
  setLeaf l p (zeroFrames l.frame l.n (putFrames p l.n (framesAt s l.frame p l.n) s))

/-- Lines read in a leaf by the completed launches of a VD. -/
def readsOf (v : Vd) (l : Leaf) : Nat :=
  (v.reads.map fun (p, n) => if l.page ≤ p ∧ p < l.page + l.n then n else 0).sum

/-- The leaves of a VD in a tier, least read first. -/
def tierPages (s : State) (cid tier : Nat) : List Leaf :=
  sortBy (readsOf (s.vd cid)) ((leavesOf s cid).filter fun l => tierOf l.frame = tier)

/-- Pages of 64 KiB that leaves map. -/
def pageCount (l : List Leaf) : Nat := (l.map (·.n)).sum

/-- The exchanges of leaves of `n` pages that leave the most read in HBM: least read there with most read in module memory. -/
def tierSwaps (v : Vd) (n : Nat) (inH inM : List Leaf) : List (Leaf × Leaf) :=
  ((inH.filter (·.n = n)).zip (inM.filter (·.n = n)).reverse).takeWhile fun (h, m) => readsOf v h < readsOf v m

/-- Whether `n` frames from `p` on are free: no VD maps one, and they hold only zeros. -/
def freeAt (s : State) (maps : List (Nat × Nat × Nat × Nat)) (p n : Nat) : Bool :=
  (maps.all fun r => decide (r.1 + r.2.1 ≤ p ∨ p + n ≤ r.1))
    && s.mem.all fun (a, _) => decide (a / 65536 < p ∨ p + n ≤ a / 65536)

/-- The lowest `n` free frames of a tier, aligned as a leaf of that size needs them. -/
def freeRun (s : State) (tier n : Nat) : Option Nat :=
  let maps := mappedFrames s
  let base := if tier = 0 then 0 else Config.modBase / 65536
  let size := (if tier = 0 then Config.hbmBytes else Config.modBytes) / 65536
  ((List.range (min (size / n) (pageCount ((s.vds.map (·.1)).flatMap (leavesOf s)) + s.mem.length + 1))).map fun i => base + n * i).find?
    fun p => freeAt s maps p n

/-- Move a leaf to a tier, where it has free frames. -/
def moveTo (tier : Nat) (s : State) (l : Leaf) : State :=
  match freeRun s tier l.n with
  | some p => moveLeaf l p s
  | none => s

/-- Most HBM pages that a VD may hold. -/
def hbmShare (s : State) (cid : Nat) : Nat := (tget 0xFFFFFFFF s.plc.vdq cid).toNat

/-- The first leaves of a list that bring a count of pages down by `k`. -/
def shedLeaves : Nat → List Leaf → List Leaf
  | _, [] => []
  | k, l :: ls => if k = 0 then [] else l :: shedLeaves (k - l.n) ls

/-- The leaves of a list that `room` pages hold, in order. -/
def fitLeaves : Nat → List Leaf → List Leaf
  | _, [] => []
  | room, l :: ls => if l.n ≤ room then l :: fitLeaves (room - l.n) ls else fitLeaves room ls

/-- The placer brings the pages of a VD to the tiers that their reads and the VD's share give them, and notes each in its entry. -/
def placeTiers (cid : Nat) (s : State) : State :=
  let v := s.vd cid
  let swap (n : Nat) (s : State) : State := (tierSwaps v n (tierPages s cid 0) (tierPages s cid 1)).foldl swapLeaves s
  let s := swap 16384 (swap 1 s)
  let inH := tierPages s cid 0
  let s := (shedLeaves (pageCount inH - hbmShare s cid) inH).foldl (moveTo 1) s
  let read := (tierPages s cid 1).reverse.filter fun l => decide (0 < readsOf v l)
  let s := (fitLeaves (hbmShare s cid - pageCount (tierPages s cid 0)) read).foldl (moveTo 0) s
  tlbDrop cid ((leavesOf s cid).foldl (fun s l => setLeaf l l.frame s) s)

end Sys2Proof.Machine
end

