-- ==== Sys2Proof/Machine/Remote.lean ====
section
/-! DEFINITION. Requests of this device to its peers (R42-R47): the remote windows, sending, and the time-out. -/

namespace Sys2Proof.Machine

/-- A remote window of a VD (R47): enabled, notify, device, target CID. -/
structure RWin where
  v : Bool
  notify : Bool
  dev : Nat
  tcid : Nat
  deriving DecidableEq, Repr

/-- Window `w` of a VD. -/
def rwinOf (s : State) (cid w : Nat) : RWin :=
  let r := (tget 0 s.klk.rwin (cid * 8 + w)).toNat
  { v := bit r 0, notify := bit r 1, dev := bits r 11 2, tcid := bits r 21 12 }

/-- The window and the offset of a remote VA (R46). -/
def remoteOf (s : State) (cid va : Nat) : RWin × Nat := (rwinOf s cid (bits va 67 65), va % 2 ^ 65)

/-- Whether a VA lies in the remote windows. -/
def isRemote (va : Nat) : Bool := decide (va / 2 ^ 68 = 15)

/-! ### Flits (R40-R42) -/

/-- Flits of a replay buffer (R41). -/
def replayDepth : Nat := 256

/-- The bytes of a flit that its CRC covers. -/
def flitBytes (f : Flit) : List Byte :=
  natLe 2 (f.seq.toNat + f.kind.toNat * 4096) ++ natLe 2 f.dst.toNat ++ natLe 2 f.src.toNat ++ natLe 2 f.cid.toNat ++ f.payload

/-- Port `p`. -/
def State.port (s : State) (p : Nat) : KlkPort := tget {} s.klk.ports p

/-- Replace port `p`. -/
def State.setPort (s : State) (p : Nat) (k : KlkPort) : State := { s with klk := { s.klk with ports := tset s.klk.ports p k } }

/-- A flit without its CRC, sealed with it. -/
def sealFlit (f : Flit) : Flit := { f with crc := Config.flitCrc (flitBytes f) }

/-- A flit leaves through a port. A device that has not joined sends only idle flits (R43). -/
def emitFlit (port : Nat) (f : Flit) (s : State) : State := if s.klk.jn then s.emit (.flit port f) else s

/-- Send a data or barrier flit through a port: it takes the next sequence number and stays in the replay buffer until it is
acknowledged; beyond 256 it waits (R41). -/
def sendFlit (port : Nat) (f : Flit) (s : State) : State :=
  let k := s.port port
  let f := sealFlit { f with seq := bv 12 k.seqOut }
  let s' := s.setPort port { k with seqOut := (k.seqOut + 1) % 4096, replay := k.replay ++ [f] }
  if k.up && decide (k.replay.length < replayDepth) then emitFlit port f s' else s'

/-- Whether a flit to device `d` can be sent: the route is valid, its port trained, and this device joined (R43, R44). -/
def routeUp (s : State) (d : Nat) : Bool :=
  let r := tget {} s.klk.routes d
  s.klk.jn && r.v && (tget {} s.klk.ports r.port.toNat).up

/-- Bytes of the payload of a flit (R40). -/
def payloadBytes : Nat := 240

/-- A payload, with zeros to its 240 bytes. -/
def payloadOf (p : List Byte) : List Byte := (p ++ List.replicate payloadBytes 0).take payloadBytes

/-- A flit of this device to another. Of the CID field's bits [15:10], which R40 divides into the ordering class and 2 reserved bits,
[13:10] hold the class and [15:14] are reserved: DESIGN CHOICE (log entry 88). -/
def flitTo (s : State) (kind dst cid cls : Nat) (p : List Byte) : Flit :=
  { seq := 0, kind := bv 4 kind, dst := bv 16 dst, src := bv 16 s.klk.dev.toNat, cid := bv 16 (cid + cls * 1024), payload := payloadOf p,
    crc := 0 }

/-- Send payloads to a device, as flits of a CID and class, through the port of its route; without a route they wait for one
(R44). -/
def sendPayloads (kind dst cid cls : Nat) (ps : List (List Byte)) (s : State) : State :=
  let fs := ps.map (flitTo s kind dst cid cls)
  if routeUp s dst then fs.foldl (fun s f => sendFlit (tget {} s.klk.routes dst).port.toNat f s) s
  else { s with klk := { s.klk with unsent := s.klk.unsent ++ fs } }

/-- The flits that wait for a route leave where theirs is up. -/
def sendUnsent (s : State) : State :=
  let l := s.klk.unsent
  l.foldl (fun s f =>
    if routeUp s f.dst.toNat then sendFlit (tget {} s.klk.routes f.dst.toNat).port.toNat f s
    else { s with klk := { s.klk with unsent := s.klk.unsent ++ [f] } }) { s with klk := { s.klk with unsent := [] } }

/-! ### Requests -/

/-- A request leaves for its device. -/
def emitRequest (r : RemoteReq) (s : State) : State :=
  match r.why with
  | .barrier _ gen =>
    sendPayloads 2 r.dst r.req.scid 0 [Config.barrierPayload false r.req.va gen] (s.emit (.barrier r.req.va gen s.klk.dev.toNat))
  | _ => sendPayloads 0 r.dst r.req.scid r.req.cls (Config.requestPayloads r.req) (s.emit (.request r))

/-- Send a request and keep it until its answer or the end of HB_KLK_TMO (R44, R45). One to the device's own id is
performed here as a peer's. -/
def sendRequest (dst scid tcid cls va : Nat) (op : PeerOp) (why : RemoteFor) (s : State) : State :=
  let k := s.klk
  let req : PeerReq := { src := k.dev.toNat, scid := scid, tcid := tcid, cls := cls, va := va, op := op, back := k.nextRid }
  let self := decide (dst = k.dev.toNat)
  let go := self || routeUp s dst
  let r : RemoteReq := { rid := k.nextRid, dst := dst, sent := go, req := req, why := why }
  let s := { s with klk := { k with reqs := k.reqs ++ [r], nextRid := k.nextRid + 1 } }
  let s := s.afterNs (k.tmo.toNat * 1000) (.klkRequestTimeout r.rid)
  if self then s.push (.peerRequestArrival req) else if go then emitRequest r s else s

/-- Send what waits for a route (R44). -/
def sendWaiting (s : State) : State :=
  let s := sendUnsent s
  let go (r : RemoteReq) : Bool := !r.sent && routeUp s r.dst
  let l := s.klk.reqs.filter go
  let s' := { s with klk := { s.klk with reqs := s.klk.reqs.map fun r => if go r then { r with sent := true } else r } }
  l.foldl (fun s r => emitRequest { r with sent := true } s) s'

/-- Forget a request. -/
def dropRequest (rid : Nat) (s : State) : State :=
  { s with klk := { s.klk with reqs := s.klk.reqs.filter fun r => r.rid ≠ rid } }

/-- Forget a request that was answered; a route change that waits for the requests to its device takes effect when
none is left (R44). -/
def endRequest (r : RemoteReq) (s : State) : State :=
  let s := (dropRequest r.rid s).cancel (.klkRequestTimeout r.rid)
  if (tget {} s.klk.routes r.dst).next.isSome && !(s.klk.reqs.any fun x => x.sent && decide (x.dst = r.dst)) then
    s.push (.routeChangeApply r.dst)
  else s

/-- pJ of `n` bytes sent or received on the KLK, by way of the hub (R171). -/
def klkEnergy (n : Nat) : Nat := n * 45

end Sys2Proof.Machine
end

