-- ==== Sys2Proof/Machine/ScalarMem.lean ====
section
/-! DEFINITION. The control stream's loads and stores, its reads of launch and state registers, the registers it sets
for the other streams, TRAP and MARK (R319, R328-R334, R337). -/

namespace Sys2Proof.Machine

/-! ### Scalar loads and stores -/

/-- The effective address: x[B] + D·size (R328). -/
def effAddr (x : W64) (d : BitVec 4) (size : Nat) : W64 := x + bv 64 (d.toNat * size)

/-- Offset in the reserved area of a Cobbler access: the low bits below the size cleared, modulo 16,384 (R406). -/
def cobAddr (ea : W64) (size : Nat) : Nat := ea.toNat % 16384 / size * size

/-- An owner's load (R328, R329): `spec` is LDS.D, which turns a bad address or line into poison. -/
def ownerLoad (size : Nat) (ext : W64 → W64) (spec : Bool) (a b d : BitVec 4) (k : CoreSt) (o : Owner) :
    Except Bad Act :=
  let x := rx o b
  let ea := effAddr x.val d size
  let n := ea.toNat
  let poison : XReg := { val := ea, poison := true }
  if x.poison then .ok { effs := [(4, .x a x)] }
  else if n % size ≠ 0 ∨ o.winSize < n + size then
    (if spec then .ok { effs := [(4, .x a poison)] } else .error { cause := .windowFault, addr := ea })
  else
    match readable k o [n / 64], spec with
    | .error e, false => .error { e with addr := ea }
    | r, _ =>
      match takePorts o.ports [n / 64] false with
      | .error e => .error e
      | .ok ps =>
        let v := match r with
          | .ok _ => clean (ext (bv 64 (leNat (winBytes k o n size))))
          | .error _ => poison
        .ok { effs := [(4, .x a v)], ports := ps }

/-- A load in the firmware context (R406): a line that fails its check, or carries poison, locks the core. -/
def cobLoad (size : Nat) (ext : W64 → W64) (a b d : BitVec 4) (k : CoreSt) (o : Owner) : Except Bad Act :=
  let n := cobAddr (effAddr (rx o b).val d size) size
  let area : Owner := { winBase := Config.reservedBase, winSize := 16384 }
  match readable k area [n / 64] with
  | .error e => .error e
  | .ok _ => .ok { effs := [(4, .x a (clean (ext (bv 64 (leNat (winBytes k area n size))))))] }

/-- A load of either context. -/
def load (size : Nat) (ext : W64 → W64) (spec : Bool) (a b d : BitVec 4) : Body := fun s o =>
  if s.cur.str = .f then cobLoad size ext a b d s.curCore o else ownerLoad size ext spec a b d s.curCore o

/-- A store (R330): POISON_CONSUMED for the base, then the data; WINDOW_FAULT; BANK_CONFLICT. -/
def store (size : Nat) (a b d : BitVec 4) : Body := fun s o =>
  let ea := effAddr (rx o b).val d size
  let bytes (n : Nat) : Effect :=
    .win ((List.range size).zip (natLe size (rx o a).val.toNat) |>.map fun (i, v) => (n + i, v))
  if s.cur.str = .f then .ok { effs := [(1, bytes (cobAddr ea size))] }
  else do
    needClean (rx o b)
    needClean (rx o a)
    let n := ea.toNat
    if n % size ≠ 0 ∨ o.winSize < n + size then .error { cause := .windowFault, addr := ea }
    let ps ← takePorts o.ports [n / 64] true
    .ok { effs := [(1, bytes n)], ports := ps }

/-- LD.B (R328, R329): loads a byte, sign-extended, visible at tick k + 4. -/
def execLdB (h : Hd) (a b d : BitVec 4) (s : State) : Res := issue h true 1 true (load 1 (sx 8) false a b d) s

/-- LD.BU (R328, R329): loads a byte, zero-extended, visible at tick k + 4. -/
def execLdBu (h : Hd) (a b d : BitVec 4) (s : State) : Res := issue h true 1 true (load 1 id false a b d) s

/-- LD.H (R328, R329): loads a half, sign-extended, visible at tick k + 4. -/
def execLdH (h : Hd) (a b d : BitVec 4) (s : State) : Res := issue h true 1 true (load 2 (sx 16) false a b d) s

/-- LD.HU (R328, R329): loads a half, zero-extended, visible at tick k + 4. -/
def execLdHu (h : Hd) (a b d : BitVec 4) (s : State) : Res := issue h true 1 true (load 2 id false a b d) s

/-- LD.W (R328, R329): loads a word, sign-extended, visible at tick k + 4. -/
def execLdW (h : Hd) (a b d : BitVec 4) (s : State) : Res := issue h true 1 true (load 4 (sx 32) false a b d) s

/-- LD.WU (R328, R329): loads a word, zero-extended, visible at tick k + 4. -/
def execLdWu (h : Hd) (a b d : BitVec 4) (s : State) : Res := issue h true 1 true (load 4 id false a b d) s

/-- LD.D (R328, R329): loads a doubleword, visible at tick k + 4. -/
def execLdD (h : Hd) (a b d : BitVec 4) (s : State) : Res := issue h true 1 true (load 8 id false a b d) s

/-- LDS.D (R328, R329): loads a doubleword, or poison in place of a fault, visible at tick k + 4. -/
def execLdsD (h : Hd) (a b d : BitVec 4) (s : State) : Res := issue h true 1 true (load 8 id true a b d) s

/-- ST.B (R330): stores the low 1 byte(s) of x[A]; visible from tick k + 1. -/
def execStB (h : Hd) (a b d : BitVec 4) (s : State) : Res := issue h true 1 true (store 1 a b d) s

/-- ST.H (R330): stores the low 2 byte(s) of x[A]; visible from tick k + 1. -/
def execStH (h : Hd) (a b d : BitVec 4) (s : State) : Res := issue h true 1 true (store 2 a b d) s

/-- ST.W (R330): stores the low 4 byte(s) of x[A]; visible from tick k + 1. -/
def execStW (h : Hd) (a b d : BitVec 4) (s : State) : Res := issue h true 1 true (store 4 a b d) s

/-- ST.D (R330): stores the low 8 byte(s) of x[A]; visible from tick k + 1. -/
def execStD (h : Hd) (a b d : BitVec 4) (s : State) : Res := issue h true 1 true (store 8 a b d) s

/-! ### Launch, state and tick reads (R331, R195, R196) -/

/-- RDL: x[A] := L[IMM8]. -/
def execRdl (h : Hd) (a : BitVec 4) (k : BitVec 6) (s : State) : Res :=
  issue h true 1 false (fun _ o => .ok { effs := [(1, .x a (clean (cget o.lreg k.toNat)))] }) s

/-- The domain membership register of region core `i` of a strand (R163). -/
def domainReg (t : Strand) (i : Nat) : Nat :=
  let dx := i % t.w
  let dy := i / t.w
  i + (dy / 2 * ((t.w + 1) / 2) + dx / 2) * 2 ^ 11 + (dy / 4 * ((t.w + 11) / 12) + dx / 12) * 2 ^ 20
    + (dy / 16 * ((t.w + 11) / 12) + dx / 12) * 2 ^ 25 + t.gid * 2 ^ 32 + b01 t.g5 * 2 ^ 48

/-- The state registers by number, as in force at the issue tick (R196). -/
def stateReg (s : State) (o : Owner) (n : Nat) : Nat :=
  let c := s.cur.core
  let x := c % Config.meshW
  let y := c / Config.meshW
  let t := s.strand o.sid
  match n with
  | 0 => o.tick
  | 1 => s.cycle + 4 * (x + y)
  | 2 => 4 * (x + y)
  | 3 => x + y * 256
  | 4 => s.cur.wid + t.stride.log2 * 8 + t.phase * 64
  | 5 => o.sid
  | 6 => o.cid
  | 7 => t.x0 + t.y0 * 2 ^ 8 + t.w * 2 ^ 16 + t.h * 2 ^ 24
  | 8 => t.tag.toNat
  | _ => domainReg t o.region

/-- RDS: x[A] := a state register. -/
def execRds (h : Hd) (a k : BitVec 4) (s : State) : Res :=
  issue h true 1 false (fun s o => .ok { effs := [(1, .x a (clean (bv 64 (stateReg s o k.toNat))))] }) s

/-- RDTK: x[A] := the issue tick; unguarded. -/
def execRdtk (h : Hd) (a : BitVec 4) (s : State) : Res :=
  issue h false 1 false (fun _ o => .ok { effs := [(1, .x a (clean (bv 64 o.tick)))] }) s

/-! ### The other streams' registers (R332-R334): visible to every stream at tick k + 2 -/

/-- SETLC: lc[A] := x[B][31:0]. -/
def execSetlc (h : Hd) (a : BitVec 3) (b : BitVec 4) (s : State) : Res :=
  issue h true 1 false (fun _ o => do
    needClean (rx o b)
    .ok { effs := [(2, .lc a ((rx o b).val.setWidth 32))] }) s

/-- AGS: one field of ag[A] := the low bits of x[B]. One of BASE also replaces, in the tick after its due tick, the value
that a use in its due tick advanced (R203, R332): DEDUCED (log entry 9). -/
def execAgs (h : Hd) (a : BitVec 3) (b : BitVec 4) (c : BitVec 3) (s : State) : Res :=
  issue h true 1 false (fun _ o => do
    needClean (rx o b)
    let v := (rx o b).val
    .ok { effs := (2, .agField a c v) :: (if c = 0 then [(3, .agField a c v)] else []) }) s

/-- PUTE: e[A] := x[B]. -/
def execPute (h : Hd) (a : BitVec 3) (b : BitVec 4) (s : State) : Res :=
  issue h true 1 true (fun _ o => do
    needClean (rx o b)
    .ok { effs := [(2, .ereg a (rx o b).val)] }) s

/-- Entries pushed and not yet popped, pushes not yet visible included (R334). -/
def fqFill (o : Owner) : Nat :=
  o.fq.length + (o.pend.filter fun p => match p.eff with | .fqPush _ => true | _ => false).length

/-- FMT: x[B][31:0] is pushed into the format queue, or FQ_OVERFLOW at 16 entries. -/
def execFmt (h : Hd) (b : BitVec 4) (s : State) : Res :=
  issue h true 1 false (fun _ o => do
    needClean (rx o b)
    if Config.fqDepth ≤ fqFill o then .error { cause := .fqOverflow }
    .ok { effs := [(2, .fqPush ((rx o b).val.setWidth 32))] }) s

/-! ### TRAP and MARK -/

/-- TRAP (R337): traps when A = 0 or x[A] ≠ 0, with x[A] as the record's address; consumes poison first. -/
def execTrap (h : Hd) (a : BitVec 4) (_k : BitVec 12) (s : State) : Res :=
  issue h false 1 false (fun _ o => do
    needClean (rx o a)
    if a = 0 ∨ (rx o a).val ≠ 0 then .error { cause := .trap, addr := (rx o a).val }
    .ok {}) s

/-- MARK (R319) writes a MARK trace record stamped with its tick; it changes nothing else. -/
def execMark (h : Hd) (k : BitVec 12) (s : State) : Res :=
  issue h false 1 false (fun _ _ => .ok { effs := [(1, .mark k)] }) s

end Sys2Proof.Machine
end

