-- ==== Sys2Proof/Machine/Transfer.lean ====
section
/-! DEFINITION. Transfers (R204-R207, R218-R231, R348-R356): their issue, dispatch, arrival, landing and faults; FENCE,
XPOP and XPEEK; the rendezvous instructions JOIN and SYNC (R160, R190). -/

namespace Sys2Proof.Machine

/-! ### Geometry of a strand -/

/-- The weave id of a strand on region core `i`. -/
def Strand.widAt (t : Strand) (i : Nat) : Nat := t.wids.getD i 0

/-- The region cores of one domain level around region core `i` (R162, R163). -/
def domainOf (t : Strand) (level i : Nat) : List Nat :=
  let key (j : Nat) : Nat :=
    let r := domainReg t j
    match level with
    | 0 => j
    | 1 => bits r 19 11
    | 2 => bits r 24 20
    | 3 => bits r 27 25
    | _ => 0
  (List.range (t.w * t.h)).filter fun j => key j = key i

/-- Core number and weave id of region core `i`. -/
def Strand.place (t : Strand) (i : Nat) : Nat × Nat := (coreAt (t.x0 + i % t.w) (t.y0 + i / t.w), t.widAt i)

/-- The owners of the strand in the quad of region core `i`, as core numbers and weave ids (R351); one that has departed
is none of them: DEDUCED (log entry 81). -/
def quadOwners (t : Strand) (i : Nat) : List (Nat × Nat) :=
  ((domainOf t 1 i).filter fun j => t.widAt j < 8).map t.place

/-- Bytes per revolution of a strand's module-memory share (R139). -/
def Strand.share (t : Strand) : Nat := t.mmrate * 2048 / t.stride

/-! ### Bank ports (R198, R199) -/

/-- The weave id that holds an origin cycle on a core, if any. -/
def heldBy (k : CoreSt) (c : Nat) : Option Nat :=
  match tget 0 k.table (c % 32) with
  | 0 => none
  | v + 1 => some v

/-- The next tick of an owner: its strand's, less the ticks for which PARK or a weave table has held it alone (R134, R414). -/
def ownNext (t : Strand) (o : Owner) : Nat := ((t.tick : Int) - o.lag).toNat

/-- Whether an owner takes part in its strand's tick of the present cycle: the weave table gives it the cycle, and PARK does not hold it
(R134, R414, R415). -/
def ownerRuns (s : State) (c w : Nat) : Bool :=
  let o := s.owner c w
  !o.parked && decide (o.resumeAt ≤ s.cycle) && decide (heldBy (s.core c) s.cycle = some w)

/-- The bank ports of a core that scheduled accesses take in the present cycle. -/
def scheduledPorts (s : State) (c : Nat) : List (Nat × Bool) :=
  match heldBy (s.core c) s.cycle with
  | none => []
  | some w =>
    let o := s.owner c w
    if (s.strand o.sid).inTick then o.ports.map fun p => (bankOf p.line, p.wr) else []

/-- The bank ports of a core that unscheduled requesters have taken in the present cycle. -/
def usedPorts (s : State) (c : Nat) : List (Nat × Bool) := if (s.core c).used.1 = s.cycle then (s.core c).used.2 else []

/-- Whether a bank port is free in the present cycle. -/
def portFree (s : State) (c bank : Nat) (wr : Bool) : Bool :=
  !(scheduledPorts s c).contains (bank, wr) && !(usedPorts s c).contains (bank, wr)

/-- An unscheduled requester takes a bank port. -/
def takePort (c bank : Nat) (wr : Bool) (s : State) : State :=
  s.setCore c { s.core c with used := (s.cycle, (bank, wr) :: usedPorts s c) }

/-- Add to one counter of an owner; counters saturate. -/
def addLost (o : Owner) (ns k row bank n : Nat) : Owner :=
  let i := row * 32 + bank
  let w := windowOf k ns
  let roll : Nat × Cells 32 × Cells 32 :=
    if w = o.tlmWin.1 then o.tlmWin
    else (w, o.tlm, if w = o.tlmWin.1 + 1 then ctab 352 fun j => cget o.tlm j - cget o.tlmWin.2.1 j else [])
  { o with tlmWin := roll, tlm := cset o.tlm i (bv 32 (min ((cget o.tlm i).toNat + n) (2 ^ 32 - 1))) }

/-- A cycle lost at a bank goes to an owner's row. -/
def loseCycle (row c w bank : Nat) (s : State) : State :=
  let o := s.owner c w
  s.setOwner c w (addLost o s.ns (granK (s.vd o.cid) 2) row bank 1)

/-! ### Issue -/

/-- The transfers of an owner that have not landed. -/
def xfersOf (s : State) (core wid : Nat) : List Xfer :=
  s.xfers.filter fun x => decide (x.core = core ∧ x.wid = wid) && decide (x.state ≠ .failed)

/-- Whether a transfer has performed (R215). -/
def Xfer.done (x : Xfer) : Bool := decide (x.state = .performed ∨ x.state = .element ∨ x.state = .failed)

/-- The shape that a kind needs: lengths and addresses (R206, R349, R352, R353). -/
def xferShape (kind : XKind) (g : Ag) (e : W64) : Bool :=
  match kind with
  | .rd | .rdm | .wr | .wrZ | .rdSp => !g.empty && decide (g.len0.toNat % 4 = 0 ∧ dva e % 4 = 0)
  | .put | .get | .sumF | .sumI => !g.empty && decide (g.len0.toNat % 4 = 0 ∧ e.toNat % 2 ^ 19 % 4 = 0)
  | .atom _ | .sc _ => g.shape 8 1 && decide (dva e % 8 = 0 ∧ g.base.toNat % 8 = 0)

/-- Whether a kind reads its scratchpad side. -/
def XKind.reads : XKind → Bool
  | .wr | .put | .sumF | .sumI => true
  | _ => false

/-- The window of every core that the transfer's own side touches. -/
def xferWindows (kind : XKind) (g : Ag) (s : State) (o : Owner) : Except Bad Unit :=
  match kind with
  | .rdm => (quadOwners (s.strand o.sid) o.region).forM fun p => needWindow (s.owner p.1 p.2) g
  | _ => needWindow o g

/-- The pattern's bytes as released (R220), and the places among them that lie in a poisoned line or a line that fails
SEC-DED (R213, R214). -/
def sourceOf (k : CoreSt) (o : Owner) (g : Ag) : List Byte × List Nat :=
  let bad := (g.lines 0 g.bytes).filter fun l => lineErr k o l || linePoison k o l
  (g.read k o 0 g.bytes,
   if bad.isEmpty then [] else (List.range g.bytes).filter fun i => bad.contains ((g.byteAt i).toNat / 64))

/-- A transfer of format XF (R349): the checks of R339, the ag use, and the transfer outstanding from this tick. -/
def transfer (kind : XKind) (e : Nat) (ag : BitVec 3) (cls : BitVec 4) (p : BitVec 1) : Body := fun s o => do
  let g := rag o ag
  let a := re o e
  if Config.maxOutstanding ≤ (xfersOf s s.cur.core s.cur.wid).length then .error { cause := .scheduleMiss }
  needPattern (xferShape kind g a)
  xferWindows kind g s o
  let src := if kind.reads then sourceOf (released s.curCore o) o g else ([], [])
  let x : Xfer :=
    { tid := 0, core := s.cur.core, wid := s.cur.wid, sid := o.sid, cid := o.cid, kind := kind, cls := cls.toNat,
      post := decide (p = 1), seq := 0, tick := o.tick, ag := g, ereg := a, opx := re o (e + 1), opnew := re o (e + 2),
      src := src.1, srcPoison := src.2, after := [], state := .waiting, loc := o.ss.loc .s 0 }
  .ok { effs := [useAg ag, (1, .xfer x)] }

/-- XRD (R350): LEN0·CNT1 bytes of device memory into the pattern. -/
def execXrd (h : Hd) (e : BitVec 3) (ag : BitVec 3) (cls : BitVec 4) (p : BitVec 1) (s : State) : Res :=
  issue h true 1 false (transfer .rd e.toNat ag cls p) s

/-- XRD.SP (R206, R350): sparse rows, expanded into the dense pattern. -/
def execXrdSp (h : Hd) (e : BitVec 3) (ag : BitVec 3) (cls : BitVec 4) (p : BitVec 1) (s : State) : Res :=
  issue h true 1 false (transfer .rdSp e.toNat ag cls p) s

/-- XRDM (R351): as XRD, into every core of the issuing quad. -/
def execXrdm (h : Hd) (e : BitVec 3) (ag : BitVec 3) (cls : BitVec 4) (p : BitVec 1) (s : State) : Res :=
  issue h true 1 false (transfer .rdm e.toNat ag cls p) s

/-- XWR (R350): the pattern to device memory; 8 bytes at a notify offset are a notify (R47). -/
def execXwr (h : Hd) (e : BitVec 3) (ag : BitVec 3) (cls : BitVec 4) (p : BitVec 1) (s : State) : Res :=
  issue h true 1 false (transfer .wr e.toNat ag cls p) s

/-- XWR.Z (R350): zero bytes; the pattern is checked and not read. -/
def execXwrZ (h : Hd) (e : BitVec 3) (ag : BitVec 3) (cls : BitVec 4) (p : BitVec 1) (s : State) : Res :=
  issue h true 1 false (transfer .wrZ e.toNat ag cls p) s

/-- XPUT (R352): the pattern into the target window. -/
def execXput (h : Hd) (e : BitVec 3) (ag : BitVec 3) (cls : BitVec 4) (p : BitVec 1) (s : State) : Res :=
  issue h true 1 false (transfer .put e.toNat ag cls p) s

/-- XGET (R352): the target window into the pattern. -/
def execXget (h : Hd) (e : BitVec 3) (ag : BitVec 3) (cls : BitVec 4) (p : BitVec 1) (s : State) : Res :=
  issue h true 1 false (transfer .get e.toNat ag cls p) s

/-- XSUM.F (R352, R243): FP32 sums into the target window. -/
def execXsumF (h : Hd) (e : BitVec 3) (ag : BitVec 3) (cls : BitVec 4) (p : BitVec 1) (s : State) : Res :=
  issue h true 1 false (transfer .sumF e.toNat ag cls p) s

/-- XSUM.I (R352): 32-bit sums modulo 2^32 into the target window. -/
def execXsumI (h : Hd) (e : BitVec 3) (ag : BitVec 3) (cls : BitVec 4) (p : BitVec 1) (s : State) : Res :=
  issue h true 1 false (transfer .sumI e.toNat ag cls p) s

/-- XAT.ADD (R353): adds x; the old value goes to BASE. -/
def execXatAdd (h : Hd) (e : BitVec 2) (ag : BitVec 3) (cls : BitVec 4) (p : BitVec 1) (s : State) : Res :=
  issue h true 1 false (transfer (.atom .add) (2 * e.toNat) ag cls p) s

/-- XAT.SWP (R353): swaps in x; the old value goes to BASE. -/
def execXatSwp (h : Hd) (e : BitVec 2) (ag : BitVec 3) (cls : BitVec 4) (p : BitVec 1) (s : State) : Res :=
  issue h true 1 false (transfer (.atom .swp) (2 * e.toNat) ag cls p) s

/-- XAT.CAS (R353): swaps in e[E+2] if the old value equals x; the old value goes to BASE. -/
def execXatCas (h : Hd) (e : BitVec 2) (ag : BitVec 3) (cls : BitVec 4) (p : BitVec 1) (s : State) : Res :=
  issue h true 1 false (transfer (.atom .cas) (2 * e.toNat) ag cls p) s

/-- XAT.MAX (R353): keeps the larger, signed; the old value goes to BASE. -/
def execXatMax (h : Hd) (e : BitVec 2) (ag : BitVec 3) (cls : BitVec 4) (p : BitVec 1) (s : State) : Res :=
  issue h true 1 false (transfer (.atom .max) (2 * e.toNat) ag cls p) s

/-- XAT.MIN (R353): keeps the smaller, signed; the old value goes to BASE. -/
def execXatMin (h : Hd) (e : BitVec 2) (ag : BitVec 3) (cls : BitVec 4) (p : BitVec 1) (s : State) : Res :=
  issue h true 1 false (transfer (.atom .min) (2 * e.toNat) ag cls p) s

/-- XAT.AND (R353): ANDs x; the old value goes to BASE. -/
def execXatAnd (h : Hd) (e : BitVec 2) (ag : BitVec 3) (cls : BitVec 4) (p : BitVec 1) (s : State) : Res :=
  issue h true 1 false (transfer (.atom .and) (2 * e.toNat) ag cls p) s

/-- XAT.OR (R353): ORs x; the old value goes to BASE. -/
def execXatOr (h : Hd) (e : BitVec 2) (ag : BitVec 3) (cls : BitVec 4) (p : BitVec 1) (s : State) : Res :=
  issue h true 1 false (transfer (.atom .or) (2 * e.toNat) ag cls p) s

/-- XAT.XOR (R353): XORs x; the old value goes to BASE. -/
def execXatXor (h : Hd) (e : BitVec 2) (ag : BitVec 3) (cls : BitVec 4) (p : BitVec 1) (s : State) : Res :=
  issue h true 1 false (transfer (.atom .xor) (2 * e.toNat) ag cls p) s

/-- XSC.LD (R354): reads, at the core's wheel position; the old value goes to BASE. -/
def execXscLd (h : Hd) (e : BitVec 2) (ag : BitVec 3) (cls : BitVec 4) (p : BitVec 1) (s : State) : Res :=
  issue h true 1 false (transfer (.sc .ld) (2 * e.toNat) ag cls p) s

/-- XSC.ST (R354): writes x, at the core's wheel position; the old value goes to BASE. -/
def execXscSt (h : Hd) (e : BitVec 2) (ag : BitVec 3) (cls : BitVec 4) (p : BitVec 1) (s : State) : Res :=
  issue h true 1 false (transfer (.sc .st) (2 * e.toNat) ag cls p) s

/-- XSC.ADD (R354): adds x, at the core's wheel position; the old value goes to BASE. -/
def execXscAdd (h : Hd) (e : BitVec 2) (ag : BitVec 3) (cls : BitVec 4) (p : BitVec 1) (s : State) : Res :=
  issue h true 1 false (transfer (.sc .add) (2 * e.toNat) ag cls p) s

/-- XSC.SWP (R354): swaps in x, at the core's wheel position; the old value goes to BASE. -/
def execXscSwp (h : Hd) (e : BitVec 2) (ag : BitVec 3) (cls : BitVec 4) (p : BitVec 1) (s : State) : Res :=
  issue h true 1 false (transfer (.sc .swp) (2 * e.toNat) ag cls p) s

/-- XSC.CAS (R354): swaps in e[E+2] if the old value equals x, at the core's wheel position; the old value goes to BASE. -/
def execXscCas (h : Hd) (e : BitVec 2) (ag : BitVec 3) (cls : BitVec 4) (p : BitVec 1) (s : State) : Res :=
  issue h true 1 false (transfer (.sc .cas) (2 * e.toNat) ag cls p) s

/-- XSC.MAX (R354): keeps the larger, signed, at the core's wheel position; the old value goes to BASE. -/
def execXscMax (h : Hd) (e : BitVec 2) (ag : BitVec 3) (cls : BitVec 4) (p : BitVec 1) (s : State) : Res :=
  issue h true 1 false (transfer (.sc .max) (2 * e.toNat) ag cls p) s

/-- FENCE (R219, R355): every later transfer follows the earlier ones of the named classes; unguarded. -/
def execFence (h : Hd) (k : BitVec 16) (s : State) : Res := issue h false 1 false (fun _ _ => .ok { effs := [(1, .fence k)] }) s

/-- XPOP (R356): takes the oldest element of the class and acquires its transfer. -/
def execXpop (h : Hd) (a : BitVec 3) (cls : BitVec 4) (s : State) : Res :=
  issue h true 1 false (fun _ o =>
    match o.fifo.find? fun e => e.cls = cls with
    | none => .error { cause := .scheduleMiss }
    | some e => .ok { effs := [(1, .acquire e.tid), (1, .pred a (decide (e.bytes ≠ 0)))] }) s

/-- XPEEK (R356): P(A) := whether an element of the class is present. -/
def execXpeek (h : Hd) (a : BitVec 3) (cls : BitVec 4) (s : State) : Res :=
  issue h true 1 false (fun _ o => .ok { effs := [(1, .pred a (o.fifo.any fun e => e.cls = cls))] }) s

/-- JOIN (R190): the five streams of the core must issue it in one tick with one id. -/
def execJoin (h : Hd) (k : BitVec 12) (s : State) : Res :=
  issue h false 1 false (fun _ _ => .ok { effs := [(1, .rdv false 0 k.toNat)] }) s

/-- SYNC (R160): closes a superstep with a domain and a budget; it occupies b + 1 ticks. -/
def execSync (h : Hd) (a : BitVec 4) (k : BitVec 12) (s : State) : Res :=
  issue h false (k.toNat + 1) false (fun _ _ => .ok { effs := [(1, .rdv true a.toNat k.toNat)] }) s

/-! ### The end of the issue tick -/

/-- The transfers of an owner that have not performed. -/
def unperformed (s : State) (core wid : Nat) : List Xfer := (xfersOf s core wid).filter fun x => !x.done

/-- Whether a transfer is an SC operation. -/
def Xfer.isSc (x : Xfer) : Bool := match x.kind with | .sc _ => true | _ => false

/-- A transfer becomes outstanding: it takes its number, and follows the earlier ones of its class, those that a FENCE
names, every SC operation, and, if it is one, every transfer (R205, R218, R219, R225). -/
def addXfer (x : Xfer) (s : State) : State :=
  let o := s.owner x.core x.wid
  let before := (unperformed s x.core x.wid).filter fun y => y.cls = x.cls || y.isSc || x.isSc || o.fenced.contains y.tid
  let x := { x with tid := s.nextTid, seq := o.seq, after := before.map (·.tid) }
  ({ s with xfers := s.xfers ++ [x], nextTid := s.nextTid + 1 }).setOwner x.core x.wid { o with seq := o.seq + 1 }

/-- FENCE takes effect. -/
def addFence (core wid : Nat) (mask : BitVec 16) (s : State) : State :=
  let o := s.owner core wid
  let named := (unperformed s core wid).filter fun y => mask.getLsbD y.cls || o.fenced.contains y.tid
  s.setOwner core wid { o with fenced := named.map (·.tid) }

/-- Replace a transfer. -/
def setXfer (x : Xfer) (s : State) : State :=
  { s with xfers := s.xfers.map fun y => if y.tid = x.tid then x else y }

/-- The transfer of a number. -/
def xferOf (s : State) (tid : Nat) : Option Xfer := s.xfers.find? fun x => x.tid = tid

/-- Whether a transfer may perform: what it must follow has performed, and no earlier one of its class has ended in a
fault (R218, R231). -/
def mayPerform (s : State) (x : Xfer) : Bool :=
  !((s.owner x.core x.wid).barred.getLsbD x.cls) && !(unperformed s x.core x.wid).any fun y => x.after.contains y.tid

/-- The transfers of an owner that will never perform: of a class in which one has ended in a fault, or behind such a one (R231). -/
def stuckOf (s : State) (core wid : Nat) : List Nat :=
  let o := s.owner core wid
  (xfersOf s core wid).foldl (fun l x =>
    let waits := match x.state with | .waiting => true | .held _ => true | .wheel => true | _ => false
    if waits && (o.barred.getLsbD x.cls || x.after.any l.contains) then x.tid :: l else l) []

/-! ### Landing -/

/-- The element's KIND (R205). -/
def XKind.code : XKind → Nat
  | .rd | .rdSp | .rdm => 0
  | .wr | .wrZ => 1
  | .put | .sumF | .sumI => 2
  | .get => 3
  | .atom _ => 4
  | .sc _ => 5

/-- The completion element of a transfer. -/
def Xfer.elem (x : Xfer) : Elem :=
  { tid := x.tid, cls := bv 4 x.cls, kind := bv 4 x.kind.code, status := bv 8 x.status, seq := bv 16 x.seq,
    bytes := bv 32 x.bytes }

/-- The bank of the first line of a transfer's scratchpad side (R274). -/
def Xfer.bank (x : Xfer) : Nat := bankOf ((x.ag.byteAt 0).toNat / 64)

/-- A transfer has landed: it is no longer outstanding; one that ended in a fault stays until its report. -/
def landed (x : Xfer) (s : State) : State :=
  let o := s.owner x.core x.wid
  let s := s.setOwner x.core x.wid { o with lands := o.lands ++ [(x.tick, s.cycle, x.bank)] }
  if x.status = 0 ∨ x.reported then { s with xfers := s.xfers.filter fun y => y.tid ≠ x.tid }
  else setXfer { x with state := .failed } s

/-- A transfer has performed and its data is in place: it posts its element and lands, or waits for room (R205). -/
def finishXfer (x : Xfer) (s : State) : State :=
  let o := s.owner x.core x.wid
  if !x.post then landed x s
  else if Config.fifoDepth ≤ o.fifo.length then setXfer { x with state := .element } s
  else landed x (s.setOwner x.core x.wid { o with fifo := o.fifo ++ [x.elem] })

/-- A core's owner has acquired transfers: its reads find what they brought. -/
def acquireWhere (core : Nat) (f : Unseen → Bool) (s : State) : State :=
  let k := s.core core
  s.setCore core { k with unseen := k.unseen.filter fun u => !f u }

/-- XPOP's removal of an element takes effect; a transfer whose element waited for room posts it (R356). -/
def popElement (core wid tid : Nat) (s : State) : State :=
  let o := s.owner core wid
  let s := acquireWhere core (fun u => u.tid = tid) (s.setOwner core wid { o with fifo := o.fifo.filter fun e => e.tid ≠ tid })
  match (xfersOf s core wid).find? fun x => x.state = .element with
  | some x => finishXfer x s
  | none => s

/-- Keep what a transfer delivered to its strand, for a replay (R277). -/
def deliver (x : Xfer) (data : List Byte) (s : State) : State :=
  let t := s.strand x.sid
  if t.replay = 0 then s
  else s.setStrand x.sid { t with delivered := t.delivered ++ [((s.owner x.core x.wid).region, x.seq % 65536, x.tick, data)] }

/-- What stands in lines that a transfer is about to fill: its target's scheduled reads find that until it acquires the transfer, or
until a cycle that a free value gives (R223, R228). -/
def hideLines (x : Xfer) (core : Nat) (lines : List Nat) (s : State) : State :=
  let k := s.core core
  let o := s.owner x.core x.wid
  let mk (i l : Nat) : Unseen :=
    { tid := x.tid, sid := x.sid, region := o.region, tick := x.tick + o.lag, line := l, old := cgets k.win (64 * l) 64,
      poison := k.winPoison.contains l, until_ := s.cycle + Config.landCycles (s.free + i) }
  { s with free := s.free + lines.length }.setCore core
    { k with unseen := ((List.range lines.length).zip lines).map (fun (i, l) => mk i l) ++ k.unseen }

/-- Write bytes of a transfer, in pattern order, into the window of an owner. -/
def landWindow (x : Xfer) (core wid : Nat) (g : Ag) (data : List (Byte × Bool)) (s : State) : State :=
  let o := s.owner core wid
  let put := ((List.range data.length).zip data).map fun (i, b, p) => (winAt o (g.byteAt i).toNat, b, p)
  let s := hideLines x core (sall (put.map (·.1 / 64)) []) s
  s.setCore core (winLand (s.core core) put)

/-- The stream of a secondary fault stops at once (R263). -/
def stopSecondary (s : State) (e : FaultEv) : State :=
  let o := s.owner e.core e.wid
  s.setOwner e.core e.wid (o.setStream e.str { o.stream e.str with stopped := true })

/-- A transfer ends in a fault: later ones of its class do not perform (R231), its element carries the cause, and its
strand is told when the report reaches the issuing core (R260). -/
def xferFault (x : Xfer) (cause : Nat) (va : Nat) (s : State) : State :=
  let o := s.owner x.core x.wid
  let s := s.setOwner x.core x.wid { o with barred := o.barred ||| (1#16 <<< x.cls) }
  let x := { x with status := cause, fva := bv 64 va }
  let s := s.at (s.cycle + 1 + Config.hubCycles s.free) (.asyncFaultReport x.tid)
  finishXfer x (setXfer x s.tick1)

/-- ASYNC_FAULT_REPORT: the report of a transfer's fault reaches the issuing core (R260); SEQ is the detail (R265). Where the strand has
faulted before, the S stream stops at once (R263). -/
def execAsyncFaultReport (tid : Nat) (s : State) : Res :=
  .next (match xferOf s tid with
    | none => s
    | some x =>
      let loc := { x.loc with status := x.loc.status ||| (bv 32 (x.seq % 65536) <<< 16) }
      let second := (s.strand x.sid).primary.isSome
      let s := raiseAt x.sid x.core x.wid .s true (causeOf x.status) x.fva loc s
      let s := if second then
          s.setOwner x.core x.wid ((s.owner x.core x.wid).setStream .s { (s.owner x.core x.wid).ss with stopped := true })
        else s
      if x.state = .failed then { s with xfers := s.xfers.filter fun y => y.tid ≠ tid }
      else setXfer { x with reported := true } s)

/-! ### The device side -/

/-- Bytes that a transfer reads or writes on the device side. -/
def Xfer.deviceBytes (x : Xfer) : Nat := if x.kind = .rdSp then 3 * x.ag.bytes / 4 else x.ag.bytes

/-- Each byte of a range with whether its 64-byte line, counted from the first, is among the poisoned. -/
def taintBytes (va : Nat) (data : List Byte) (poison : List Nat) : List (Byte × Bool) :=
  ((List.range data.length).zip data).map fun (i, b) => (b, poison.contains ((va % 64 + i) / 64))

/-- One dense byte of a sparse row of LEN0 = `n` bytes, `row` its 3·n/4 source bytes (R206). -/
def denseByte (n : Nat) (row : List (Byte × Bool)) (i : Nat) : Byte × Bool :=
  let g := i / 4
  let v0 := row.getD (2 * g) (0, false)
  let v1 := row.getD (2 * g + 1) (0, false)
  let m := row.getD (n / 2 + g) (0, false)
  let p0 := m.1.toNat % 4
  let p1 := m.1.toNat / 4 % 4
  let b : Byte × Bool := if i % 4 = p1 then v1 else if i % 4 = p0 then v0 else (0, false)
  (b.1, b.2 || m.2)

/-- The dense rows of a sparse read. -/
def denseRows (n rows : Nat) (src : List (Byte × Bool)) : List (Byte × Bool) :=
  (List.range rows).flatMap fun r =>
    let row := (src.drop (r * (3 * n / 4))).take (3 * n / 4)
    (List.range n).map (denseByte n row)

/-- The lines of a pattern whose present contents a transfer reads in place of those at its issue (R228): a free
choice for each line. -/
def newLines (g : Ag) (free : Nat) : List Nat :=
  let ls := g.lines 0 g.bytes
  ((List.range ls.length).zip ls).filterMap fun (i, l) => if Config.lineNew (free + i) then some l else none

/-- The source bytes of a transfer as it performs, each with its poison. The present contents too carry every released
write, whether or not its latency has elapsed (R220). -/
def Xfer.source (x : Xfer) (s : State) : List (Byte × Bool) :=
  let o := s.owner x.core x.wid
  let now := sourceOf (released (s.core x.core) o) o x.ag
  let fresh := newLines x.ag s.free
  (List.range x.src.length).map fun i =>
    if fresh.contains ((x.ag.byteAt i).toNat / 64) then (now.1.getD i 0, now.2.contains i)
    else (x.src.getD i 0, x.srcPoison.contains i)

/-- The lines, counted from the first of a range at `va`, that a poisoned byte of the data poisons. -/
def taintLines (va : Nat) (data : List (Byte × Bool)) : List Nat :=
  sall (((List.range data.length).zip data).filterMap fun (i, _, p) => if p then some ((va % 64 + i) / 64) else none) []

/-- What an atomic or SC operation writes (R353, R354), or none. -/
def atNew (op : AtOp) (old x new : W64) : Option W64 :=
  match op with
  | .add => some (old + x)
  | .swp | .st => some x
  | .max => some (if x.toInt > old.toInt then x else old)
  | .min => some (if x.toInt < old.toInt then x else old)
  | .and => some (old &&& x)
  | .or => some (old ||| x)
  | .xor => some (old ^^^ x)
  | .cas => if old = x then some new else none
  | .ld => none

/-- Bytes that the element of an atomic reports: 0 for a failed CAS (R353). -/
def atBytes (op : AtOp) (old x : W64) : Nat := if op = .cas && decide (old ≠ x) then 0 else 8

/-- An atomic on 8 bytes of a VD by a way of translating, for a read or a write: the old value, whether its line is poisoned,
and the state after. -/
def atomicBy (tr : Bool → Xlate) (s : State) (cid va : Nat) (op : AtOp) (x new : W64) : Except VaErr (W64 × Bool × State) :=
  match vreadBy (tr false) s va 8 with
  | .error e => .error e
  | .ok (b, p) =>
    let old := bv 64 (leNat b)
    let s := countRead s cid va 8
    match atNew op old x new with
    | none => .ok (old, !p.isEmpty, s)
    | some v =>
      match vwriteBy (tr true) s va (natLe 8 v.toNat) [] with
      | .error e => .error e
      | .ok s' => .ok (old, !p.isEmpty, s')

/-- An atomic by the tables as they stand. -/
def atomicAt (s : State) (cid va : Nat) (op : AtOp) (x new : W64) : Except VaErr (W64 × Bool × State) :=
  atomicBy (fun w a => translate s cid a w) s cid va op x new

/-- Data of a read reaches the scratchpad: the pattern of the issuer, or of every core of its quad (R350, R351). -/
def landRead (x : Xfer) (va : Nat) (data : List Byte) (poison : List Nat) (s : State) : State :=
  let src := taintBytes va data poison
  let out := if x.kind = .rdSp then denseRows x.ag.len0.toNat x.ag.cnt1.toNat src else src
  let s := match x.kind with
    | .rdm => (quadOwners (s.strand x.sid) (s.owner x.core x.wid).region).foldl
        (fun s p => landWindow x p.1 p.2 x.ag out s) s
    | _ => landWindow x x.core x.wid x.ag out s
  finishXfer { x with bytes := out.length } (deliver x (out.map (·.1)) s)

/-- The old value of an atomic reaches the scratchpad. -/
def landOld (x : Xfer) (op : AtOp) (old : W64) (poison : Bool) (s : State) : State :=
  let data := natLe 8 old.toNat
  let s := landWindow x x.core x.wid x.ag (data.map fun b => (b, poison)) s
  finishXfer { x with bytes := atBytes op old x.opx, old := old } (deliver x data s)

/-- Hold a transfer on a demand page (R211). -/
def holdXfer (x : Xfer) (page : Nat) (write : Bool) (s : State) : State :=
  pageRequest x.cid page write (setXfer { x with state := .held page, torn := none } s)

/-- Whether a kind writes its device side. -/
def XKind.writes : XKind → Bool
  | .wr | .wrZ => true
  | .atom op | .sc op => decide (op ≠ .ld)
  | _ => false

/-- Whether a kind reads device memory into the scratchpad. -/
def XKind.loads : XKind → Bool
  | .rd | .rdSp | .rdm => true
  | _ => false

/-- How a transfer's unit translates, for a read or a write (R210). -/
def Xfer.tr (x : Xfer) (s : State) (wr : Bool) : Xlate := fun a => translateAt (clusterOf x.core) s x.cid a wr

/-- The unit keeps what it has translated for a transfer. -/
def Xfer.fill (x : Xfer) (s : State) : State := (tlbFillAll (clusterOf x.core) x.cid (dva x.ereg) x.deviceBytes s).tick1

/-- What an error of the device side does to a transfer: it holds, or it ends in the fault. For a write, each line
before the failing one is performed or not, as a free value says (R210): DEDUCED (log entry 32); BYTES of its element are those
performed (R205). -/
def xferError (x : Xfer) (va : Nat) (data : List (Byte × Bool)) (e : VaErr) (s : State) : State :=
  match e with
  | .demand p => holdXfer x p x.kind.writes s
  | .fault c a =>
    if x.kind = .wr ∨ x.kind = .wrZ then
      let r := writeBefore (x.tr s true) (lineParts va data.length) data s
      xferFault { x with bytes := (r.2.map (·.2)).sum } c.code a (chargeStrand r.1 x.sid (partsEnergy r.2))
    else xferFault x c.code a s

/-- The placer's count of the lines that a strand reads, by page (R143). -/
def noteReads (sid va n : Nat) (s : State) : State :=
  let t := s.strand sid
  s.setStrand sid { t with reads := (lineParts va n).foldl (fun r (a, _) => tset r (a / 65536) (tget 0 r (a / 65536) + 1)) t.reads }

/-- What a transfer has moved of local device memory is charged, at the rate of the tier of each line. -/
def chargeLines (x : Xfer) (t : Torn) (s : State) : State := chargeStrand s x.sid (partsEnergy (t.lines.map fun (pa, n, _) => (pa, n)))

/-- The second part of a transfer follows by the cycle of its landing (R226). -/
def secondPart (x : Xfer) (t : Torn) (s : State) : State :=
  (setXfer { x with torn := some t } (x.fill s)).at (max x.landAt (s.cycle + 1)) (.transferLanding x.tid none)

/-- A write's first part performs; the rest follows (R226). -/
def writeFirst (x : Xfer) (s : State) : State :=
  let va := dva x.ereg
  let data := if x.kind = .wr then x.source s else List.replicate x.deviceBytes (0, false)
  let s := { s with free := s.free + (x.ag.lines 0 x.ag.bytes).length }
  match vwriteFirst (x.tr s true) s va (data.map (·.1)) (taintLines va data) with
  | .error e => xferError x va data e s
  | .ok (s', t) => secondPart { x with src := data.map (·.1), srcPoison := taintLines va data } t s'

/-- The rest of a write performs, and the transfer lands. -/
def writeRest (x : Xfer) (t : Torn) (s : State) : State :=
  finishXfer { x with bytes := x.deviceBytes } (chargeLines x t (putRest t x.src x.srcPoison s))

/-- A read's first part performs. -/
def readFirst (x : Xfer) (s : State) : State :=
  let va := dva x.ereg
  match vreadFirst (x.tr s false) s va x.deviceBytes with
  | .error e => xferError x va [] e s
  | .ok (s', t) => secondPart x t s'

/-- The rest of a read performs, and its data lands. -/
def readRest (x : Xfer) (t : Torn) (s : State) : State :=
  let va := dva x.ereg
  let r := getRest t s
  landRead x va r.1 r.2 (noteReads x.sid va x.deviceBytes (chargeLines x t (countRead s x.cid va x.deviceBytes)))

/-- A transfer performs at local device memory: a read or a write its first part, an atomic as a whole. -/
def performLocal (x : Xfer) (s : State) : State :=
  let va := dva x.ereg
  match x.kind with
  | .rd | .rdSp | .rdm => readFirst x s
  | .wr | .wrZ => writeFirst x s
  | .atom op | .sc op =>
    match atomicBy (x.tr s) s x.cid va op x.opx x.opnew with
    | .error e => xferError x va [] e s
    | .ok (old, p, s') => landOld x op old p (chargeStrand (x.fill s') x.sid (rangeEnergyBy (x.tr s false) va 8))
  | _ => s

/-- The rest of a read or a write performs. -/
def performRest (x : Xfer) (t : Torn) (s : State) : State := if x.kind.loads then readRest x t s else writeRest x t s

/-! ### The target of a remote scratchpad transfer (R207, R352) -/

/-- The target core's number, weave id and window address, or the cause that ends the transfer. -/
def targetOf (s : State) (x : Xfer) : Except Cause (Nat × Nat × Nat) :=
  let t := s.strand x.sid
  let e := x.ereg.toNat
  let a := bits e 18 0
  let dx := bits e 37 32
  let dy := bits e 44 40
  let here := (s.owner x.core x.wid).region
  let clu (i : Nat) : Nat := bits (domainReg t i) 27 25
  let i := dy * t.w + dx
  if e ≠ a + dx * 2 ^ 32 + dy * 2 ^ 40 ∨ t.w ≤ dx ∨ t.h ≤ dy then .error .transferAccess
  else if clu i ≠ clu here then .error .transferAccess
  else
    let p := t.place i
    if (s.owner p.1 p.2).winSize < a + x.ag.bytes then .error .windowFault else .ok (p.1, p.2, a)

/-- The target's line-by-line contents with the transfer applied: a put replaces, a sum adds word by word. -/
def mixTarget (kind : XKind) (old src : List (Byte × Bool)) : List (Byte × Bool) :=
  let word (l : List (Byte × Bool)) (i : Nat) : W32 := bv 32 (leNat ((List.range 4).map fun j => (l.getD (4 * i + j) (0, false)).1))
  let add (f : W32 → W32 → W32) : List (Byte × Bool) :=
    (List.range (src.length / 4)).flatMap fun i =>
      (natLe 4 (f (word old i) (word src i)).toNat).zip ((src.drop (4 * i)).map (·.2))
  match kind with
  | .sumF => add add32
  | .sumI => add (fun a b => a + b)
  | _ => src

/-! ### The bank ports of a transfer (R199)

An inbound unit takes the write ports of the lines that it fills, an outbound one the read ports of its source; a put or
sum takes the write ports at its target, and a sum its read ports too. What a request does at its lines it does in the
cycle in which it takes the last of its ports: DEDUCED (log entry 89). -/

/-- The ports of lines. -/
def linePorts (row core wid : Nat) (wr : Bool) (ls : List Nat) : List PortReq :=
  ls.map fun l => { row := row, core := core, wid := wid, line := l, wr := wr }

/-- The lines of a transfer's own pattern. -/
def Xfer.lines (x : Xfer) : List Nat := x.ag.lines 0 x.ag.bytes

/-- The ports that a put, sum or get takes at its target. -/
def targetPorts (x : Xfer) (s : State) : List PortReq :=
  match targetOf s x with
  | .error _ => []
  | .ok (c, w, a) =>
    let ls := (List.range ((a + x.ag.bytes - 1) / 64 + 1 - a / 64)).map (· + a / 64)
    let row := if c = x.core ∨ x.kind = .get then 5 else 7
    (if x.kind = .get then [] else linePorts row c w true ls)
      ++ (if x.kind = .put then [] else linePorts row c w false ls)

/-- The ports that a transfer takes. -/
def portsOf (x : Xfer) (s : State) : List PortReq :=
  match x.kind with
  | .rd | .rdSp | .atom _ | .sc _ => linePorts 5 x.core x.wid true x.lines
  | .rdm => (quadOwners (s.strand x.sid) (s.owner x.core x.wid).region).flatMap fun p => linePorts 5 p.1 p.2 true x.lines
  | .wr => linePorts 6 x.core x.wid false x.lines
  | .wrZ => []
  | .put | .sumF | .sumI => linePorts 6 x.core x.wid false x.lines ++ targetPorts x s
  | .get => targetPorts x s ++ linePorts 5 x.core x.wid true x.lines

/-- The OM slots and ring tiles that a pending record names. -/
def PendRec.oms (r : PendRec) : List Nat := (List.range 32).filter fun i => r.ommap.getLsbD i
def PendRec.tiles (r : PendRec) : List Nat := (List.range 8).filter fun i => r.rmap.getLsbD i

/-- A pending record as an owner. -/
def PendRec.asOwner (r : PendRec) : Owner :=
  { sid := r.strand.toNat, cid := (r.attr.extractLsb' 16 10).toNat, winBase := r.wbase.toNat * 4096,
    winSize := r.wsize.toNat * 4096, oms := r.oms, tiles := r.tiles, vbase := r.vbase.toNat, vcnt := r.vcnt.toNat }

/-- The ports that the CSE takes for a save or a restore: those of the owner's window. -/
def csePorts (core : Nat) (restore : Bool) (w : Nat) (s : State) : List PortReq :=
  let k := s.core core
  let o := match tfind k.owners w with | some o => o | none => (tget ({} : PendRec) k.cob.recs w).asOwner
  (List.range (o.winSize / 64)).map fun l => { row := 8, core := core, wid := w, line := o.winBase / 64 + l, wr := restore }

/-- The ports of lines of Cobbler's reserved area. -/
def reservedPorts (core off n : Nat) (wr : Bool) : List PortReq :=
  (sall ((List.range n).map fun j => (off + j) % 16384 / 64) []).map fun l =>
    { row := 9, core := core, wid := 0, line := Config.reservedBase / 64 + l, wr := wr }

/-- The ports that a transfer of Cobbler takes: those of its lines of the reserved area. -/
def xphyPorts (core : Nat) (x : Xphy) : List PortReq := if x.status = 0 then reservedPorts core x.off x.len (!x.write) else []

/-- The ports that a ZFILL takes: the window area of a pending record. -/
def zfillPorts (core : Nat) (s : State) : List PortReq :=
  match (s.cob core).zfill with
  | none => []
  | some (w, parts, _) =>
    let o := (tget ({} : PendRec) (s.cob core).recs w).asOwner
    if parts.getLsbD 3 then (List.range (o.winSize / 64)).map fun l =>
      { row := 9, core := core, wid := w, line := o.winBase / 64 + l, wr := true }
    else []

/-- The ports that the answer of a peer needs. -/
def answerPorts (x : Xfer) (r : RemoteResp) (s : State) : List PortReq :=
  if r.status ≠ 0 ∨ x.kind = .wr ∨ x.kind = .wrZ then [] else portsOf x s

/-- The ports that a transfer needs for what it does next, with the answer of a peer or without: a read of device memory takes its
own as it lands. -/
def Xfer.wants (x : Xfer) (resp : Option RemoteResp) (s : State) : List PortReq :=
  match resp, x.state, x.torn with
  | some r, _, _ => answerPorts x r s
  | none, .performed, _ => if x.isSc then portsOf x s else []
  | none, .sent, none => if x.kind.loads || x.isSc then [] else portsOf x s
  | none, .sent, some _ => if x.kind.loads then portsOf x s else []
  | none, _, _ => []

/-- The ports that an operation wants of those that perform in a cycle. -/
def portWants (s : State) (i : Instr) : List PortReq :=
  match i with
  | .transferLanding tid resp => match xferOf s tid with | some x => x.todo.getD (x.wants resp s) | none => []
  | .remotePutArrival tid => match xferOf s tid with | some x => x.todo.getD (portsOf x s) | none => []
  | .cseDone c => match (s.cob c).cse with | some (r, w, _) => (s.cob c).cseTodo.getD (csePorts c r w s) | none => []
  | .xphyDone c n =>
    match (s.cob c).xphy.find? fun x => decide (x.num = n) with
    | some x => x.todo.getD (xphyPorts c x)
    | none => []
  | .zfillZeroed c => (s.cob c).zfillTodo.getD (zfillPorts c s)
  | _ => []

/-- The place of a row among requesters of one port: CSE, Cobbler, inbound, remote puts, outbound, trace (R199). -/
def portClass (row : Nat) : Nat :=
  match row with
  | 8 => 0
  | 9 => 1
  | 5 => 2
  | 7 => 3
  | 6 => 4
  | _ => 5

/-- Whether two requests want one port. -/
def PortReq.same (p q : PortReq) : Bool := decide (p.core = q.core ∧ bankOf p.line = bankOf q.line ∧ p.wr = q.wr)

/-- Whether a request gets its port in the present cycle: nobody has it, and none of those that are still to perform goes first. -/
def portOpen (s : State) (p : PortReq) : Bool :=
  portFree s p.core (bankOf p.line) p.wr
    && !s.due.any fun i => (portWants s i).any fun q => q.same p && decide (portClass q.row < portClass p.row)

/-- The lines of `l` that a requester is granted in the present cycle: the first that wants each free port. -/
def grantedPorts (s : State) : List PortReq → List (Nat × Nat × Bool) → List PortReq
  | [], _ => []
  | p :: l, mine =>
    let key := (p.core, bankOf p.line, p.wr)
    if !mine.contains key && portOpen s p then p :: grantedPorts s l (key :: mine)
    else grantedPorts s l mine

/-- One cycle of a requester that waits for the ports of lines: it takes the free ones, and each bank port that another has costs
the owner it serves, `who`, a cycle. Answers the lines that are left. -/
def portTurn (who : PortReq → Option (Nat × Nat)) (l : List PortReq) (s : State) : List PortReq × State :=
  let got := grantedPorts s l []
  let refused := (l.filter fun p => !portOpen s p).foldl
    (fun (acc : List PortReq) p => if acc.any p.same then acc else p :: acc) []
  let s := got.foldl (fun s p => takePort p.core (bankOf p.line) p.wr s) s
  (l.filter fun p => !got.contains p,
   refused.foldl (fun s p => match who p with | some (c, w) => loseCycle p.row c w (bankOf p.line) s | none => s) s)

/-- The owner that a transfer's request serves: the one on the core of the bank. -/
def servedOwner (p : PortReq) : Option (Nat × Nat) := some (p.core, p.wid)

/-- The owner of the present cycle of the core of a bank: CSE, Cobbler and trace charge it (R199). -/
def cycleOwner (s : State) (p : PortReq) : Option (Nat × Nat) := (heldBy (s.core p.core) s.cycle).map fun w => (p.core, w)

/-- A transfer takes ports, cycle by cycle, and goes on when it has had them all. -/
def withPorts (x : Xfer) (l : List PortReq) (again : Instr) (s : State) (go : Xfer → State → State) : State :=
  let r := portTurn servedOwner (x.todo.getD l) s
  if r.1.isEmpty then go { x with todo := none } (setXfer { x with todo := none } r.2)
  else (setXfer { x with todo := some r.1 } r.2).at (s.cycle + 1) again

/-- A put or sum performs at the target's banks; its acknowledgement follows (R223, R227). -/
def performPut (x : Xfer) (s : State) : State :=
  match targetOf s x with
  | .error c => xferFault x c.code (bits x.ereg.toNat 18 0) s
  | .ok (c, w, a) =>
    let k := s.core c
    let o := k.owner w
    let src := x.source s
    let base := winAt o a
    let old := (cgets k.win base src.length).map fun b => (b, false)
    let put := ((List.range src.length).zip (mixTarget x.kind old src)).map fun (i, b, p) => (base + i, b, p)
    let s := hideLines x c (sall (put.map (·.1 / 64)) []) s
    let s := s.setCore c (putLand x.kind (s.core c) put)
    let s := deliver x (src.map (·.1)) s
    let s := { s with free := s.free + x.lines.length }
    let s := setXfer { x with state := .performed, bytes := src.length } s
    (s.at (s.cycle + 1 + Config.landCycles s.free) (.transferLanding x.tid none)).tick1

/-- REMOTE_PUT_ARRIVAL: a put or sum arrives at the target's banks. -/
def execRemotePutArrival (tid : Nat) (s : State) : Res :=
  .next (match xferOf s tid with
    | none => s
    | some x => withPorts x (portsOf x s) (.remotePutArrival tid) s performPut)

/-- XGET reads the target window and lands in its own. -/
def performGet (x : Xfer) (s : State) : State :=
  match targetOf s x with
  | .error c => xferFault x c.code (bits x.ereg.toNat 18 0) s
  | .ok (c, w, a) =>
    let k := s.core c
    let o := k.owner w
    let data := winBytes k o a x.ag.bytes
    let bad (i : Nat) : Bool := linePoison k o ((a + i) / 64) || lineErr k o ((a + i) / 64)
    let out := ((List.range data.length).zip data).map fun (i, b) => (b, bad i)
    finishXfer { x with bytes := data.length } (deliver x data (landWindow x x.core x.wid x.ag out s))

/-! ### When a request of local device memory has passed (R138, R55) -/

/-- The HBM channel of a physical address (R208). -/
def hbmChannel (pa : Nat) : Nat := pa / 256 % 256

/-- The first granted cycle of an HBM subclass at or after `c`; a subclass below stride 16 loses the refresh cycles. -/
def nextGrant (sr p c : Nat) : Nat :=
  let g := c + (p % sr + sr - c % sr) % sr
  if g % 16 = 15 then g + sr else g

/-- The cycle after the n-th granted cycle from `c`. -/
def grantsFrom (sr p : Nat) : Nat → Nat → Nat
  | 0, c => c
  | n + 1, c => grantsFrom sr p n (nextGrant sr p c + 1)

/-- Pass lines through their HBM channels at 32 bytes a granted cycle, each channel from the first cycle it has left: what is left
of the channels then, and the passage of each line. -/
def hbmPass (sr p now : Nat) (free : Tab Nat) (l : List (Nat × Nat)) : Tab Nat × List (Nat × Nat × Nat) :=
  l.foldl (fun (f, done) (pa, n) =>
    let ch := hbmChannel pa
    let b := max now (tget 0 f ch)
    let e := grantsFrom sr p ((pa % 32 + n + 31) / 32) b
    (tset f ch e, done ++ [(ch, b, e)])) (free, [])

/-- The granted cycles of an HBM subclass in a stretch of time. -/
def grantsIn (sr p b e : Nat) : Nat :=
  ((List.range (e - b)).filter fun i => decide ((b + i) % sr = p % sr ∧ (b + i) % 16 ≠ 15)).length

/-- The passage of lines that has begun or waits in one subclass goes on in another from cycle `c` (R136, R151). -/
def hbmRepass (was new : Nat × Nat) (c : Nat) (free : Tab Nat) (l : List (Nat × Nat × Nat)) : Tab Nat × List (Nat × Nat × Nat) :=
  l.foldl (fun (f, done) (ch, b, e) =>
    if e ≤ c then (f, done ++ [(ch, b, e)])
    else
      let b' := max c (tget 0 f ch)
      let e' := grantsFrom new.1 new.2 (grantsIn was.1 was.2 (max b c) e) b'
      (tset f ch e', done ++ [(ch, min b b', e')])) (free, [])

/-- Bytes per revolution that no share claims on one module-memory channel. -/
def unclaimed (s : State) : Nat :=
  (Config.moduleShareMax - (s.strands.foldl (fun n (_, u) => if u.granted then n + u.share else n) 0)) / 32

/-- Cycles that lines take on the module-memory channels at `u` bytes a revolution each. -/
def modPass (u : Nat) (l : List (Nat × Nat)) : Nat :=
  maxOf ((List.range 32).map fun ch => (l.filter fun x => x.1 / 256 % 32 = ch).foldl (fun n x => n + x.2) 0) * 2048 / u

/-- The cycle by which a request lands, from its passage. -/
def Xfer.landCycle (x : Xfer) (now : Nat) : Nat :=
  max (now + 1) (max x.modAt (if x.pass.isEmpty then 0 else maxOf (x.pass.map (·.2.2)) + x.hops))

/-- A request that leaves now, with its passage and its landing, and its strand with what is left of its grants. One within its
strand's module-memory share, whose earlier requests have passed at the share's rate, lands within 2,048 cycles and its size at that
rate; one beyond it uses what no share claims, and waits where that is nothing: DEDUCED (log entry 90). -/
def landingOf (s : State) (x : Xfer) (parts : List (Nat × Nat)) : Option (Xfer × Strand) :=
  let t := s.strand x.sid
  let hops := Config.landCycles s.free
  let inM := parts.filter fun x => inMod x.1
  let n := inM.foldl (fun n x => n + x.2) 0
  let h := hbmPass (t.stride * t.hbmrate) t.hbmP (s.cycle + 1) (t.hbmFree.filter fun x => decide (s.cycle < x.2))
    (parts.filter fun x => inHbm x.1)
  let t := { t with hbmFree := h.1 }
  let go (m : Nat) (t : Strand) : Xfer × Strand :=
    let x := { x with pass := h.2, hops := hops, modAt := m }
    ({ x with landAt := x.landCycle s.cycle }, t)
  if n = 0 then some (go 0 t)
  else if 0 < t.share ∧ t.modFree ≤ s.cycle then
    let run := n * 2048 / t.share
    some (go (s.cycle + 1 + hops % (2048 + run)) { t with modFree := s.cycle + run })
  else if unclaimed s = 0 then none
  else some (go (s.cycle + 1 + modPass (unclaimed s) inM + hops) t)

/-- Begin what a transfer does at its memory: an atomic at its landing; the first part of a read or write at a time before it, by a free
value. -/
def beginAt (x : Xfer) (s : State) : State :=
  let c := if x.kind.loads || decide (x.kind = .wr ∨ x.kind = .wrZ) then s.cycle + 1 + Config.landCycles s.free % (x.landAt - s.cycle)
    else x.landAt
  ((setXfer { x with state := .sent } s).at c (.transferLanding x.tid none)).tick1

/-- A strand's requests of HBM that have not passed at a switch of class, `c`, go on in its new subclass (R136, R151). -/
def repassStrand (sid : Nat) (was new : Nat × Nat) (c : Nat) (s : State) : State :=
  let t := s.strand sid
  let mine := s.xfers.filter fun x => decide (x.sid = sid ∧ x.state = .sent ∧ c < x.landAt) && !x.pass.isEmpty && x.todo.isNone
  (sortBy (fun x : Xfer => (x.pass.headD (0, 0, 0)).2.1) mine).foldl (fun s x =>
    let t := s.strand sid
    let r := hbmRepass was new c t.hbmFree x.pass
    let y := { x with pass := r.2 }
    let y := { y with landAt := y.landCycle s.cycle }
    let s := (s.setStrand sid { t with hbmFree := r.1 }).cancel (.transferLanding x.tid none)
    if y.torn.isSome then (setXfer y s).at y.landAt (.transferLanding x.tid none) else beginAt y s)
    (s.setStrand sid { t with hbmFree := t.hbmFree.map fun (ch, _) => (ch, c) })

/-! ### Dispatch -/

/-- The request that a transfer through a remote window makes, or the cause that ends it (R46, R47). -/
def remoteOp (x : Xfer) (win : RWin) (off : Nat) (src : List (Byte × Bool)) : Except Cause PeerOp :=
  if !win.v then .error .transferTranslation
  else if win.notify then
    (if x.kind = .wr ∧ x.ag.bytes = 8 ∧ off % 4096 = 0 ∧ off / 4096 < 64 then
      .ok (.notify (off / 4096) (bv 32 (leNat ((src.take 4).map (·.1)))))
    else .error .transferAccess)
  else
    match x.kind with
    | .rd | .rdSp | .rdm => .ok (.read x.deviceBytes)
    | .wr => .ok (.write (src.map (·.1)) (taintLines off src))
    | .wrZ => .ok (.write (List.replicate x.ag.bytes 0) [])
    | .atom op => .ok (.atomic op x.opx x.opnew)
    | .sc op => .ok (.sc op x.opx x.opnew)
    | _ => .error .transferAccess

/-- Send a transfer through a remote window. -/
def dispatchRemote (x : Xfer) (s : State) : State :=
  let va := dva x.ereg
  let (win, off) := remoteOf s x.cid va
  let src := if x.kind = .wr then x.source s else []
  match remoteOp x win off src with
  | .error c => xferFault x c.code va s
  | .ok op =>
    let s := { s with free := s.free + x.lines.length }
    let s := chargeStrand s x.sid (klkEnergy x.deviceBytes)
    sendRequest win.dev x.cid win.tcid x.cls off op (.xfer x.tid) (setXfer { x with state := .sent } s)

/-- Requests that a cluster's transfer unit keeps outstanding (R210). -/
def unitDepth : Nat := 512

/-- Whether a cluster's transfer unit has no place left. -/
def unitFull (s : State) (clu : Nat) : Bool :=
  decide (unitDepth ≤ (s.xfers.filter fun x => clusterOf x.core = clu && decide (x.state = .sent ∨ x.state = .wheel ∨ x.state = .performed)).length)

/-- A transfer leaves its unit, and `i` follows after the hops. -/
def sendXfer (x : Xfer) (i : Instr) (s : State) : State :=
  ((setXfer { x with state := .sent } s).at (s.cycle + 1 + Config.landCycles s.free) i).tick1

/-- A transfer leaves for local device memory, or holds on a demand page. -/
def dispatchLocal (x : Xfer) (s : State) : State :=
  match translateAll (x.tr s x.kind.writes) (lineParts (dva x.ereg) x.deviceBytes) with
  | .error (.demand p) => holdXfer x p x.kind.writes s.tick1
  | .error _ => sendXfer x (.transferLanding x.tid none) s
  | .ok parts =>
    match landingOf s x (parts.map fun (pa, n, _) => (pa, n)) with
    | none => s
    | some (y, t) => beginAt y (s.setStrand x.sid t).tick1

/-- The first cycle from `c` on of the wheel position of a core (R140). -/
def wheelCycle (core c : Nat) : Nat := c + (core % Config.revolution + Config.revolution - c % Config.revolution) % Config.revolution

/-- TRANSFER_DISPATCH: a transfer whose turn has come takes its lane cycle, translates, and is sent (R137, R349). An SC
operation goes to its wheel position, whether or not what it follows has performed (R225). -/
def execTransferDispatch (tid : Nat) (s : State) : Res :=
  .next (match xferOf s tid with
    | none => s
    | some x =>
      if x.state ≠ .waiting ∨ !(mayPerform s x || x.isSc) ∨ unitFull s (clusterOf x.core) then s
      else
        match x.kind with
        | .put | .sumF | .sumI | .get =>
          match targetOf s x with
          | .error c => xferFault x c.code (bits x.ereg.toNat 18 0) s
          | .ok _ => sendXfer x (if x.kind = .get then .transferLanding tid none else .remotePutArrival tid) s
        | .sc _ =>
          if isRemote (dva x.ereg) then (if mayPerform s x then dispatchRemote x s else s)
          else (setXfer { x with state := .wheel } s).at (wheelCycle x.core (s.cycle + 1)) (.scOperationPerform tid)
        | .wr => if isRemote (dva x.ereg) then sendXfer x (.transferLanding tid none) s else dispatchLocal x s
        | _ => if isRemote (dva x.ereg) then dispatchRemote x s else dispatchLocal x s)

/-- An SC operation performs, and its old value lands later. -/
def performSc (x : Xfer) (op : AtOp) (s : State) : State :=
  let va := dva x.ereg
  match atomicBy (x.tr s) s x.cid va op x.opx x.opnew with
  | .error e => xferError x va [] e s
  | .ok (old, p, s') =>
    let s' := chargeStrand (x.fill s') x.sid (rangeEnergyBy (x.tr s false) va 8)
    let s' := s'.setCore x.core { s'.core x.core with scUsed := s.cycle }
    let s' := setXfer { x with state := .performed, old := old, srcPoison := if p then [0] else [] } s'
    (s'.at (s'.cycle + 1 + Config.landCycles s'.free) (.transferLanding x.tid none)).tick1

/-- SC_OPERATION_PERFORM: an SC operation performs at its core's wheel position (R140, R225). Where an earlier transfer has not
performed, or another operation has the position, it waits for the next. -/
def execScOperationPerform (tid : Nat) (s : State) : Res :=
  .next (match xferOf s tid with
    | none => s
    | some x =>
      match x.kind with
      | .sc op =>
        if x.state ≠ .wheel then s
        else if !mayPerform s x ∨ (s.core x.core).scUsed = s.cycle then s.at (s.cycle + Config.revolution) (.scOperationPerform tid)
        else performSc x op s
      | _ => s)

/-- What the answer of a peer does for a transfer (R45, R49). -/
def landRemote (x : Xfer) (r : RemoteResp) (s : State) : State :=
  let va := dva x.ereg
  if r.status ≠ 0 then xferFault x r.status va s
  else
    match x.kind with
    | .rd | .rdSp | .rdm => landRead x va r.data r.poison s
    | .atom op | .sc op => landOld x op (bv 64 (leNat r.data)) (!r.poison.isEmpty) s
    | _ => finishXfer { x with bytes := x.ag.bytes } s

/-- TRANSFER_LANDING: the last byte of a transfer is in place, its old value written, or its target's acknowledgement
received (R161). `resp` is the answer of a peer; one whose transfer is gone still ends its request (R44). -/
def execTransferLanding (tid : Nat) (resp : Option RemoteResp) (s : State) : Res :=
  let s := match resp, s.klk.reqs.find? fun q => q.why = .xfer tid with
    | some _, some q => endRequest q s
    | _, _ => s
  .next (match xferOf s tid with
    | none => s
    | some x =>
      let go (f : Xfer → State → State) : State := withPorts x (x.wants resp s) (.transferLanding tid resp) s f
      match resp with
      | some r => go fun x s => landRemote x r s
      | none =>
        match x.state, x.kind, x.torn with
        | .performed, .sc op, _ => go fun x s => landOld x op x.old (!x.srcPoison.isEmpty) s
        | .performed, _, _ => finishXfer x s
        | .sent, .get, _ => go performGet
        | .sent, _, some t => go fun x s => performRest x t s
        | .sent, _, none => go fun x s => if isRemote (dva x.ereg) then dispatchRemote x s else performLocal x s
        | _, _, _ => s)

end Sys2Proof.Machine
end

