-- ==== Sys2Proof/Machine/Writeback.lean ====
section
/-! DEFINITION. The results of an owner's tick: what becomes visible at its due tick (R185, R186, R182), what an
instruction still does in the later ticks of its occupancy, and what the end of the issue tick performs (R184, R191,
R204, R219, R221). -/

namespace Sys2Proof.Machine

/-- Merge the active lanes of a result into a vector register. -/
def mergeLanes (old val : Cells 32) (act : LaneMask) : Cells 32 :=
  ctab 1024 fun l => if act.getLsbD l then cget val l else cget old l

/-- A result of the window falls due; on a line that a transfer has filled it comes wholly after it (R228). -/
def dueWin (k : CoreSt) (o : Owner) (l : List (Nat × Byte)) : CoreSt :=
  { winWrite k (l.map fun (a, v) => (winAt o a, v)) with
    unseen := k.unseen.filter fun u => !l.any fun x => decide (winAt o x.1 / 64 = u.line) }

/-- A result of a vector register falls due: the active lanes take it, and their bytes are renewed (R213, R377). -/
def dueVreg (k : CoreSt) (o : Owner) (r : Nat) (val : Cells 32) (act : LaneMask) : CoreSt :=
  let p := vPhys o r
  { k with vreg := cblit k.vreg (p * 1024) 1024 (mergeLanes (cslice k.vreg (p * 1024) 1024) val act)
           vErr := k.vErr.filter fun b => !(decide (b / 4096 = p) && act.getLsbD (b % 4096 / 4)) }

/-- Bytes [lo, lo + n) of operand memory are written. -/
def dueOm (k : CoreSt) (lo n : Nat) (val : Cells 8) : CoreSt :=
  { k with om := cblit k.om lo n val, omErr := k.omErr.filter fun a => !decide (lo ≤ a ∧ a < lo + n) }

/-- A write into a ring tile falls due: every word of the tile is written. -/
def dueTile (k : CoreSt) (t : Nat) (w : TileWrite) : CoreSt :=
  { k with ring := cblit k.ring (t * 4096) 4096 (w.apply (cslice k.ring (t * 4096) 4096))
           ringErr := k.ringErr.filter fun u => u / 2048 ≠ t }

/-- A mask register takes its active lanes. -/
def dueMask (o : Owner) (r : Nat) (val act : LaneMask) : Owner :=
  { o with m := tset o.m r ((tget 0 o.m r &&& ~~~act) ||| (val &&& act))
           mErr := o.mErr.filter fun b => !(decide (b / 128 = r) && decide (act.extractLsb' (b % 128 * 8) 8 ≠ 0)) }

/-- One field of an ag set is written by AGS from the low bits of its source (R203, R332). -/
def Ag.put (g : Ag) (f : Nat) (v : W64) : Ag :=
  match f with
  | 0 => { g with base := v.setWidth 32 }
  | 1 => { g with len0 := v.setWidth 17 }
  | 2 => { g with str1 := v.setWidth 32 }
  | 3 => { g with cnt1 := v.setWidth 16 }
  | 4 => { g with step := v.setWidth 32 }
  | _ => g

/-- The ring operations at the end of their tick (R201). -/
def dueRing (o : Owner) (op : RingOp) : Owner :=
  let n := ringSize o
  match op with
  | .radv => { o with full := o.full ||| (1#8 <<< o.head), head := (o.head + 1) % n }
  | .rskip => { o with head := (o.head + 1) % n }
  | .rfree => { o with full := o.full &&& ~~~(1#8 <<< o.tail), tail := (o.tail + 1) % n }

/-- What falls due changes the owner and its core. -/
def dueEffect (k : CoreSt) (o : Owner) (e : Effect) : CoreSt × Owner :=
  match e with
  | .x r v => (k, if r = 0 then o else { o with x := tset o.x r.toNat v })
  | .pred r b => (k, { o with p := if b then o.p ||| (1#8 <<< r.toNat) else o.p &&& ~~~(1#8 <<< r.toNat) })
  | .ereg r v => (k, { o with e := cset o.e r.toNat v })
  | .lc r v => (k, { o with lc := cset o.lc r.toNat v })
  | .agField a f v => (k, { o with ag := tset o.ag a.toNat ((rag o a).put f.toNat v) })
  | .agUse a => let g := rag o a; (k, { o with ag := tset o.ag a.toNat { g with base := g.base + g.step } })
  | .fqPush v => (k, { o with fq := o.fq ++ [v] })
  | .fqPop => (k, { o with fq := o.fq.drop 1 })
  | .claim a n set =>
    let m : BitVec 32 := BitVec.ofNat 32 ((2 ^ n - 1) * 2 ^ a)
    (k, { o with claims := if set then o.claims ||| m else o.claims &&& ~~~m })
  | .ring op => (k, dueRing o op)
  | .token c give => (k, { o with tok := cset o.tok c (if give then cget o.tok c + 1 else cget o.tok c - 1) })
  | .win l => (dueWin k o l, o)
  | .vreg r val act => (dueVreg k o r val act, o)
  | .mask r val act => (k, dueMask o r.toNat val act)
  | .lam v => (k, { o with lam := v })
  | .omMant i v => (dueOm k (omBase (omPhys o i)) 2048 v, o)
  | .omSide i v => (dueOm k (omBase (omPhys o i) + 2048) 64 v, o)
  | .tile t w => (dueTile k t w, o)
  | _ => (k, o)

/-- Whether an effect acts in its due tick after the results that fall due there. -/
def Effect.late : Effect → Bool
  | .thr _ | .read _ | .port _ _ => true
  | _ => false

/-- Whether an effect is a use of an ag set: an AGS write due in one tick with it replaces the advanced BASE (R203). -/
def Effect.isUse : Effect → Bool
  | .agUse _ => true
  | _ => false

/-- Apply results to an owner and its core, in the order given. -/
def dueAll (k : CoreSt) (o : Owner) (l : List Pend) : CoreSt × Owner :=
  l.foldl (fun (k, o) p => dueEffect k o p.eff) (k, o)

/-- The predicate that an effect writes. -/
def Effect.predReg : Effect → Option (BitVec 3)
  | .pred r _ => some r
  | _ => none

/-- The predicate writes of a tick that meet another on the same register (R182). -/
def predClash (l : List Pend) : List Pend :=
  l.filter fun p => match p.eff.predReg with
    | none => false
    | some r => decide (2 ≤ (l.filter fun q => q.eff.predReg = some r).length)

/-- The later of some writing instructions: issued later, or in the later stream. -/
def laterOf (l : List Pend) : Option Pend := (sortBy (fun p => p.iss * 8 + streamNum p.str) l).getLast?

/-- PRED_CONFLICT for each register on which writes meet: it belongs to the later writing instruction, whose stream
issues nothing from this tick on. -/
def predConflict (c w : Nat) (l : List Pend) (s : State) : State :=
  (List.range 8).foldl (fun s r =>
    match laterOf (l.filter fun p => p.eff.predReg = some (bv 3 r)) with
    | none => s
    | some p =>
      let o := s.owner c w
      let e : FaultEv := { cause := .predConflict, core := c, wid := w, region := o.region, str := p.str, loc := p.loc }
      (s.setOwner c w (o.setStream p.str { o.stream p.str with stopped := true })).addFault o.sid e) s

/-- A step of the threshold store falls due: a slot read in a later tick is checked, and TEVAL's exits go to its tile 24
ticks after its issue (R370, R372). -/
def dueThr (c w : Nat) (p : Pend) (op : ThrOp) (s : State) : State :=
  let k := s.core c
  let o := k.owner w
  match thrParity k o op with
  | .error b => raiseLate c w p.str p.iss p.loc b s
  | .ok _ =>
    let s' := s.setCore c { k with thr := thrStep k o op }
    match op with
    | .evalDone t =>
      let e : Pend := { due := p.iss + 24, iss := p.iss, str := p.str, loc := p.loc,
                        eff := .tile t (.whole (exitTile k.thr.w k.thr.cur)) }
      s'.setOwner c w { s'.owner c w with pend := (s'.owner c w).pend ++ [e] }
    | _ => s'

/-- A read of a later tick: it takes its ports, or raises its fault there (R339). -/
def dueRead (c w : Nat) (p : Pend) (r : LateRead) (s : State) : State :=
  let k := (s.core c).seen s.cycle
  let o := s.owner c w
  match lateRead k o r with
  | .error b => raiseLate c w p.str p.iss p.loc b s
  | .ok (ports, d, e) =>
    s.setOwner c w { o with ports := o.ports ++ ports,
                            pend := o.pend ++ [{ due := p.iss + d, iss := p.iss, str := p.str, eff := e, loc := p.loc }] }

/-- The second half of a vector store takes its ports (R346). -/
def duePort (c w : Nat) (p : Pend) (lines : List Nat) (bytes : List (Nat × Byte)) (s : State) : State :=
  let o := s.owner c w
  match takePorts o.ports lines true with
  | .error b => raiseLate c w p.str p.iss p.loc b s
  | .ok ports =>
    s.setOwner c w { o with ports := o.ports ++ ports,
                            pend := o.pend ++ [{ due := p.iss + 4, iss := p.iss, str := p.str, eff := .win bytes, loc := p.loc }] }

/-- What acts in its due tick. -/
def dueLate (c w : Nat) (s : State) (p : Pend) : State :=
  match p.eff with
  | .thr op => dueThr c w p op s
  | .read r => dueRead c w p r s
  | .port l b => duePort c w p l b s
  | _ => s

/-- Whether a tile write reads what the tile holds. -/
def TileWrite.reads : TileWrite → Bool
  | .products clear _ => !clear
  | .whole _ => false

/-- The accumulations, among results in order, that read a tile of which a word fails SEC-DED (R213): of the tiles `bad`, until a write
renews them. -/
def tileParity : List Pend → List Nat → List Pend
  | [], _ => []
  | p :: l, bad =>
    match p.eff with
    | .tile t w => if bad.contains t && w.reads then p :: tileParity l bad else tileParity l (bad.filter (· ≠ t))
    | _ => tileParity l bad

/-- OPERAND_PARITY of a result that reads in its due tick: its stream issues nothing from this tick on. -/
def dueParity (c w : Nat) (s : State) (p : Pend) : State :=
  let o := s.owner c w
  let e : FaultEv := { cause := .operandParity, core := c, wid := w, region := o.region, str := p.str, loc := p.loc }
  (s.setOwner c w (o.setStream p.str { o.stream p.str with stopped := true })).addFault o.sid e

/-- Everything of an owner that falls due at tick `k`. -/
def dueTick (c w k : Nat) (s : State) : State :=
  let o := s.owner c w
  let due := sortBy pendKey (o.pend.filter fun p => p.due ≤ k)
  let o := { o with pend := o.pend.filter fun p => !decide (p.due ≤ k), ports := [] }
  let clash := predClash due
  let bad := tileParity due ((s.core c).ringErr.map (· / 2048))
  let plain := due.filter fun p => !p.eff.late && !clash.contains p && !bad.contains p
  let r := dueAll (s.core c) o (plain.filter (·.eff.isUse) ++ plain.filter fun p => !p.eff.isUse)
  let s := s.setCore c (r.1.setOwner w r.2)
  let s := bad.foldl (dueParity c w) (predConflict c w clash s)
  (sortBy (fun p => p.iss * 8 + streamNum p.str) (due.filter (·.eff.late))).foldl (dueLate c w) s

/-- RESULT_WRITEBACK: results due at the owner's present tick become visible. -/
def execResultWriteback (core wid : Nat) (s : State) : Res := .next (dueTick core wid (s.owner core wid).tick s)

/-- Results due later complete into the state at a cut (R262): tick by tick, for `n` further ticks. -/
def flushTicks (c w : Nat) : Nat → Nat → State → State
  | 0, _, s => s
  | n + 1, k, s => flushTicks c w n (k + 1) (dueTick c w k s)

/-- Complete every result of an owner. -/
def flushOwner (c w : Nat) (s : State) : State :=
  let o := s.owner c w
  let last := maxOf (o.pend.map (·.due))
  flushTicks c w (last + 25 - o.tick) (o.tick + 1) s

/-! ### The end of the issue tick -/

/-- The new value of a token counter by the operations of this tick: v - takes + gives (R184). -/
def tokenAfter (o : Owner) (c : Nat) : Nat :=
  let n (give : Bool) := (o.pend.filter fun p => p.iss = o.tick && decide (p.eff = .token c give)).length
  (cget o.tok c).toNat + n true - n false

/-- The counters that would pass 15. -/
def overflowing (o : Owner) : List Nat := (List.range 10).filter fun c => 15 < tokenAfter o c

/-- The streams that give to a counter in this tick. -/
def giversOf (o : Owner) (c : Nat) : List StreamId :=
  streams.filter fun st => o.pend.any fun p => p.iss = o.tick && decide (p.str = st) && decide (p.eff = .token c true)

/-- An instruction that issued in this tick performs nothing after all: its stream goes back to it and stops. -/
def retract (c w : Nat) (st : StreamId) (s : State) : State :=
  let o := s.owner c w
  let o' := { o with pend := o.pend.filter fun p => !(decide (p.iss = o.tick) && decide (p.str = st))
                     ports := o.ports.filter fun p => p.str ≠ st }
  s.setOwner c w (o'.setStream st (o'.stream st).unissue)

/-- TOKEN_OVERFLOW for each giver of each counter that would pass 15, until none does. -/
def tokenOverflow (c w : Nat) : Nat → State → State
  | 0, s => s
  | n + 1, s =>
    let o := s.owner c w
    match overflowing o with
    | [] => s
    | x :: _ =>
      tokenOverflow c w n ((giversOf o x).foldl (fun s st =>
        let o := s.owner c w
        let t := o.stream st
        let loc := locOf st t.img t.prevPc t.prevBlocks 0
        let e : FaultEv := { cause := .tokenOverflow, core := c, wid := w, region := o.region, str := st, loc := loc }
        (retract c w st s).addFault o.sid e) s)

/-- An instruction that a BANK_CONFLICT stopped in this tick issues again where a stream that had ports performs nothing after all (R339):
`had` and `has` are the owner before and after its token overflows. -/
def reissueOwner (c w : Nat) (had : Owner) (s : State) : State :=
  let has := s.owner c w
  if has.ports.length = had.ports.length then s
  else
    let t := s.strand has.sid
    let again (e : FaultEv) : Bool := decide (e.core = c ∧ e.wid = w ∧ e.cause = .bankConflict)
      && decide ((has.stream e.str).next ≠ (has.stream e.str).prevTick)
    let strs := (t.faults.filter again).map (·.str)
    let o := strs.foldl (fun o st => o.setStream st { o.stream st with stopped := false }) has
    let s := (s.setOwner c w o).setStrand has.sid { t with faults := t.faults.filter fun e => !again e }
    { s with issue := s.issue ++ (streams.filter strs.contains).map fun st => ⟨c, w, st⟩ }

/-- The fault of an instruction that would have given to a full counter: the token check is its first, so that TOKEN_OVERFLOW
takes the place of its own (R317, R339). -/
def tokensFirst (o : Owner) (c w : Nat) (e : FaultEv) : FaultEv :=
  if decide (e.core = c ∧ e.wid = w) && e.gives.any fun x => decide (15 < tokenAfter o x + 1) then
    { e with cause := .tokenOverflow, addr := 0, lanes := 0, gives := [],
             loc := { e.loc with status := e.loc.status &&& 0xFFFF#32 } }
  else if e.core = c ∧ e.wid = w then { e with gives := [] }
  else e

/-- The faults of the tick with the token check first: an instruction whose fault it takes over pops no format word. -/
def giveFaults (c w : Nat) (s : State) : State :=
  let o := s.owner c w
  let t := s.strand o.sid
  let beaten (e : FaultEv) : Bool := decide ((tokensFirst o c w e).cause ≠ e.cause)
  let strs := (t.faults.filter beaten).map (·.str)
  let keeps (p : Pend) : Bool := !(decide (p.iss = o.tick) && decide (p.eff = .fqPop ∨ p.eff = .thr .begin) && strs.contains p.str)
  (s.setOwner c w { o with pend := o.pend.filter keeps }).setStrand o.sid { t with faults := t.faults.map (tokensFirst o c w) }

/-- Effects that the end of the issue tick performs at once. -/
def Effect.atEnd : Effect → Bool
  | .xfer _ | .fence _ | .acquire _ | .ended | .mark _ | .product _ | .tlm | .rdv _ _ _ => true
  | _ => false

/-- The TLM records of an owner: two for every row with a nonzero counter, one for each half of 16 banks (R274). -/
def tlmRecords (c w : Nat) (s : State) : State :=
  let o := s.owner c w
  let v := s.vd o.cid
  let word (f : Nat → Nat) (h i : Nat) : W64 := bv 64 (f (h * 16 + 2 * i) + f (h * 16 + 2 * i + 1) * 2 ^ 32)
  (List.range 11).foldl (fun s r =>
    let at_ (t : Cells 32) (b : Nat) : Nat := (cget t (r * 32 + b)).toNat
    if (List.range 32).all fun b => at_ o.tlm b = 0 then s
    else
      (List.range 2).foldl (fun s h =>
        let head := Config.traceWord 9 0 [o.region, r, h]
        let seen (b : Nat) : Nat :=
          disclosed (gran v 2) (at_ (tget [] (s.core c).tlmPrev o.cid) b) (at_ o.tlmWin.2.2 b) (at_ o.tlmSync b) (at_ o.tlm b)
        trace o.cid 9 o.tick (head :: (List.range 8).map (word (at_ o.tlm) h)) (head :: (List.range 8).map (word seen h)) s) s) s

/-- Trace takes a read port of the core for a record that it writes. Which line it reads is not stated: a free value: DESIGN CHOICE (log
entry 114). -/
def traceTakes (c cid type : Nat) (s : State) : State :=
  let k := s.core c
  if traceOn s cid type then
    s.tick1.setCore c { k with traceTodo := k.traceTodo ++
      [{ row := 10, core := c, wid := 0, line := Config.traceLine s.free % 8192, wr := false }] }
  else s

/-- Perform one effect of the end of a tick. -/
def endEffect (c w : Nat) (s : State) (p : Pend) : State :=
  let o := s.owner c w
  match p.eff with
  | .xfer x => addXfer x s
  | .fence m => addFence c w m s
  | .acquire t => popElement c w t s
  | .ended => s.setOwner c w (o.setStream p.str { o.stream p.str with ended := true })
  | .mark tag => traceTakes c o.cid 5 (traceRec o.cid 5 p.iss [o.region, streamNum p.str, tag.toNat] s)
  | .product fw => traceTakes c o.cid 8 (traceRec o.cid 8 p.iss [o.region, fwTAG fw, fwNA fw, fwNB fw] s)
  | .tlm => traceTakes c o.cid 9 (tlmRecords c w s)
  | _ => s

/-- The end of an owner's tick, but for its rendezvous. -/
def endOwner (c w : Nat) (s : State) : State :=
  let s := giveFaults c w (tokenOverflow c w 5 s)
  let o := s.owner c w
  let now := (sortBy (fun p => streamNum p.str) o.pend).filter fun p => p.eff.atEnd
  let s := s.setOwner c w { o with pend := o.pend.filter fun p => !p.eff.atEnd || (match p.eff with | .rdv _ _ _ => true | _ => false) }
  now.foldl (endEffect c w) s

/-- The rendezvous instructions that an owner issued in this tick: stream, whether SYNC, domain, and budget or id. -/
def rdvOf (o : Owner) : List (StreamId × Bool × Nat × Nat) :=
  o.pend.filterMap fun p => match p.eff with
    | .rdv y d a => some (p.str, y, d, a)
    | _ => none

/-- Forget the rendezvous of the tick. -/
def clearRdv (o : Owner) : Owner :=
  { o with pend := o.pend.filter fun p => match p.eff with | .rdv _ _ _ => false | _ => true }

end Sys2Proof.Machine
end

