-- ==== Sys2Proof/Machine/Superstep.lean ====
section
/-! DEFINITION. Rendezvous, supersteps and stalls (R160-R166, R190), fabric barriers as a strand sees them (R53), the
time-lost counters of a stall (R274), replay at a step end (R277, R278), the watchdog (R167), the choice of the primary
fault and the stop (R261-R264). -/

namespace Sys2Proof.Machine

/-! ### Rendezvous of a core (R160, R190) -/

/-- The rendezvous of the five streams of one core: none, agreed, or a mismatch. -/
inductive Meet where
  | none
  | join
  | sync (dom budget : Nat)
  | mismatch
  deriving DecidableEq, Repr

/-- What the streams of an owner issued in this tick. -/
def meetOf (o : Owner) : Meet :=
  match rdvOf o with
  | [] => .none
  | (st, y, d, a) :: l =>
    let all := (st, y, d, a) :: l
    if decide (all.length = 5) && all.all fun r => r.2 = (y, d, a) then (if y then .sync d a else .join) else .mismatch

/-- The region cores of a strand by number, with what each met. -/
def meetsOf (s : State) (t : Strand) : List (Nat × Meet) :=
  (List.range (t.w * t.h)).map fun i => (i, meetOf (s.owner (t.place i).1 (t.place i).2))

/-- The level of a core's SYNC in this tick. -/
def levelAt (meets : List (Nat × Meet)) (i : Nat) : Option Nat :=
  match meets.find? fun m => m.1 = i with
  | some (_, .sync d _) => some d
  | _ => none

/-- Whether a core met a mismatch: its streams differ, or a core of its level-l domain issues no SYNC of level l or
higher (R165). -/
def mismatched (t : Strand) (meets : List (Nat × Meet)) (m : Nat × Meet) : Bool :=
  match m.2 with
  | .mismatch => true
  | .sync d _ => (domainOf t d m.1).any fun j => match levelAt meets j with
      | some e => decide (e < d)
      | none => true
  | _ => false

/-- Add a core's SYNC to the records of its tick, one for each level and budget. -/
def addSync (k i d b : Nat) : List SyncRec → List SyncRec
  | [] => [{ tick := k, budget := b, level := d, cores := [i] }]
  | r :: l =>
    if r.tick = k ∧ r.level = d ∧ r.budget = b then { r with cores := r.cores ++ [i] } :: l
    else r :: addSync k i d b l

/-- The region cores whose transfers a SYNC covers (R161). -/
def coveredCores (t : Strand) (r : SyncRec) : List Nat :=
  sall (r.cores.flatMap fun i => domainOf t r.level i) []

/-- Whether a tick of an owner comes before a tick of its strand. -/
def Owner.before (o : Owner) (tick r : Nat) : Bool := decide ((tick : Int) + o.lag < r)

/-- Whether a covered transfer has not landed. -/
def outstanding (s : State) (t : Strand) (r : SyncRec) : Bool :=
  (coveredCores t r).any fun i =>
    (xfersOf s (t.place i).1 (t.place i).2).any fun x =>
      let o := s.owner x.core x.wid
      o.before x.tick r.tick && decide (x.sid = o.sid)

/-- The landings so far of the transfers of a region core that a SYNC covers: cycle and bank, in landing order. -/
def landsOf (s : State) (t : Strand) (r : SyncRec) (i : Nat) : List (Nat × Nat) :=
  let o := s.owner (t.place i).1 (t.place i).2
  o.lands.filterMap fun (k, l) => if o.before k r.tick then some l else none

/-- The cycle in which the last covered transfer landed, 0 if none has; a release counts as a landing at level 5. -/
def lastLanding (s : State) (t : Strand) (r : SyncRec) : Nat :=
  max (maxOf ((coveredCores t r).map fun i => maxOf ((landsOf s t r i).map (·.1))))
    (if r.level = 5 then t.relAt else 0)

/-! ### Level 5 (R52, R53) -/

/-- The root of a fabric group, if its entry is valid. -/
def groupRoot (s : State) (gid : Nat) : Option Nat :=
  (s.klk.fgrp.find? fun (_, e) => e.getLsbD 36 && decide ((e.extractLsb' 0 16).toNat = gid)).map fun (_, e) =>
    (e.extractLsb' 16 10).toNat

/-- Send the barrier arrival of a strand once every transfer before its level-5 SYNC has landed; without a release
within HB_KLK_TMO the barrier fails. -/
def tryBarrier (sid : Nat) (s : State) : State :=
  let t := s.strand sid
  match t.syncs.find? fun r => r.level = 5 with
  | none => s
  | some r =>
    let asked := s.klk.reqs.any fun q => q.why = .barrier sid t.gen
    if t.released || t.barLost || asked || outstanding s t r then s
    else
      match groupRoot s t.gid with
      | none => s
      | some root =>
        let self := decide (root = s.klk.dev.toNat)
        let k := s.klk
        let req : PeerReq := { src := k.dev.toNat, scid := t.cid, tcid := 0, cls := 0, va := t.gid, op := .read 0, back := k.nextRid }
        let r : RemoteReq := { rid := k.nextRid, dst := root, sent := self || routeUp s root, req := req,
                               why := .barrier sid t.gen }
        let s := { s with klk := { k with nextRid := k.nextRid + 1, reqs := k.reqs ++ [r] } }
        let s := s.afterNs (k.tmo.toNat * 1000) (.klkRequestTimeout k.nextRid)
        if self then s.push (.barrierArrival t.gid t.gen root)
        else if routeUp s root then emitRequest r s else s

/-! ### Time lost in a stall (R274) -/

/-- The bank of the last own transfer of a region core to land among those that the SYNCs of a stall cover, 0 for none. -/
def stallBank (s : State) (t : Strand) (i : Nat) : Nat :=
  let mine := (t.syncs.filter fun r => decide (r.tick + r.budget = t.stallAt) && (coveredCores t r).contains i).flatMap
    fun r => landsOf s t r i
  (mine.foldl (fun a l => if a.1 ≤ l.1 then l else a) (0, 0)).2

/-- The empty class cycles of a stall go to rows 0-4 of every core of the strand, once the last of its own covered transfers to
land, and so its bank, is known. -/
def lostInStall (t : Strand) (s : State) : State :=
  t.slots.foldl (fun s (c, w) =>
    let o := s.owner c w
    let b := stallBank s t o.region
    s.setOwner c w ((List.range 5).foldl (fun o r => addLost o s.ns (granK (s.vd t.cid) 2) r b t.stallCount) o)) s

/-! ### Cuts that park (R116, R270) -/

/-- Queue an event for a core's Cobbler (R407, R408). -/
def cobEvent (c : Nat) (kind : CobKind) (wid sid : Nat) (args : List W64) (s : State) : State :=
  let b := s.cob c
  s.setCob c { b with queue := b.queue ++ [{ kind := kind, wid := wid, sid := sid, args := args }] }

/-- Arm a cut of a strand at which it parks: its cores' Cobblers are told the last tick before it (R408). -/
def armPark (sid at_ : Nat) (kind : CutKind) (s : State) : State :=
  let t := s.strand sid
  t.slots.foldl (fun s (c, w) => cobEvent c .park w sid [bv 64 w, bv 64 (at_ - 1), 0, 0] s)
    (s.setStrand sid { t with cut := some (at_, kind) })

/-! ### Replay (R277, R278) -/

/-- A request for a cut at which a strand parks: one that meets another cut joins it, and one that meets an eviction is held: the strand
resumes parked (R120, R270). -/
def joinPark (sid at_ : Nat) (kind : CutKind) (s : State) : State :=
  let t := s.strand sid
  if t.state = .draining ∨ t.evict.isSome then s.setStrand sid { t with parkFlag := true }
  else if t.cut.isSome ∨ t.primary.isSome then s
  else armPark sid at_ kind s

/-- What a SYNC covers of the deliveries to its strand. -/
def coveredDelivery (t : Strand) (r : SyncRec) (d : Nat × Nat × Nat × List Byte) : Bool :=
  (coveredCores t r).contains d.1 && decide (d.2.2.1 < r.tick)

/-- The deliveries of a superstep in the order of a recording: region core, SEQ and bytes. -/
def deliveries (t : Strand) (r : SyncRec) : List (Nat × Nat × List Byte) :=
  (sortBy (fun (d : Nat × Nat × Nat × List Byte) => d.1 * 65536 + d.2.1) (t.delivered.filter (coveredDelivery t r))).map
    fun (i, q, _, b) => (i, q, b)

/-- The digest input of one delivery. -/
def digestInput (d : Nat × Nat × List Byte) : List Byte := natLe 2 d.1 ++ natLe 2 d.2.1 ++ d.2.2

/-- The entry of a recording for a superstep. -/
def replayEntry (t : Strand) (r : SyncRec) : List Byte :=
  let n := Config.rplWidth % 8 + 1
  let ds := (deliveries t r).map digestInput
  natLe n t.step ++ natLe n ds.length ++ shake256 64 ds.flatten ++ ds.flatMap (shake256 8)

/-- The index of the first transfer whose digest differs, or the smaller count. -/
def firstDiff (a b : List (List Byte)) : Nat :=
  let n := min a.length b.length
  ((List.range n).find? fun i => a.getD i [] ≠ b.getD i []).getD n

/-- The entry of the recording at a strand's place in it: its count, its digest, those of its transfers, and its length. An entry that
cannot be read is one with no transfer, and no length. -/
def recordedEntry (s : State) (t : Strand) : Nat × List Byte × List (List Byte) × Nat :=
  let n := Config.rplWidth % 8 + 1
  match vread s t.cid t.recVa (2 * n + 64) with
  | .error _ => (0, [], [], 0)
  | .ok (b, _) =>
    let m := leNat ((b.drop n).take n)
    match vread s t.cid (t.recVa + 2 * n + 64) (8 * m) with
    | .error _ => (0, [], [], 0)
    | .ok (l, _) => (m, (b.drop (2 * n)).take 64, (List.range m).map fun i => (l.drop (8 * i)).take 8, 2 * n + 64 + 8 * m)

/-- Whether a step's digests meet the recording's entry: none if they do, else the index of the first that differs. -/
def replayDiff (s : State) (t : Strand) (r : SyncRec) : Option Nat :=
  let ds := (deliveries t r).map digestInput
  let e := recordedEntry s t
  if e.1 = ds.length ∧ e.2.1 = shake256 64 ds.flatten then none else some (firstDiff e.2.2.1 (ds.map (shake256 8)))

/-- A record of a divergence: cause REPLAY_DIVERGENCE, stream 7, the superstep and the transfer index (R278). Under ACT = 1 its kind-3
entry has STATUS 0. Under ACT = 0 STATUS is that with which the LAUNCH completes (R75), and the entry is posted then; the status in the
record, written before, is a free value: DESIGN CHOICE (log entry 116). -/
def divergence (sid idx : Nat) (go : Bool) (s : State) : State :=
  let t := s.strand sid
  let r : FaultRec := { cause := Cause.replayDivergence.code, tag := t.tag, core := coreAt t.x0 t.y0, sid := sid,
                        status := if go then 0 else Config.laterStatus s.free % 65536,
                        tick := t.step, stop := 0, loc := { inner := idx }, cid := t.cid }
  if go then postRecord r t.tick t.fn t.q s
  else
    let w := writeRecord r t.tick s.tick1
    w.1.setStrand sid { w.1.strand sid with divRec := some w.2 }

/-- A mismatch of a superstep with the recording: the first is recorded, counted, and halts the strand or not as ACT says; each
later one leaves a REPLAY record. -/
def replayMismatch (sid idx : Nat) (s : State) : State :=
  let t := s.strand sid
  let v := s.vd t.cid
  if t.diverged then traceRec t.cid 10 t.tick [t.step, idx] s
  else
    let s := s.setVd t.cid { v with rpl := { v.rpl with count := satInc v.rpl.count } }
    let s := divergence sid idx v.rpl.act (s.setStrand sid { t with diverged := true })
    if v.rpl.act then s else joinPark sid (t.tick + t.dist) .halt s

/-- The strand's recording at a step end: written in record mode, compared in replay mode. -/
def replayStep (sid : Nat) (r : SyncRec) (s : State) : State :=
  let next (n : Nat) (s : State) : State :=
    let t := s.strand sid
    s.setStrand sid { t with step := t.step + 1, recVa := t.recVa + n
                             delivered := t.delivered.filter fun d => !coveredDelivery t r d }
  let t := s.strand sid
  match t.replay with
  | 1 =>
    let e := replayEntry t r
    next e.length (match vwrite s t.cid t.recVa e [] with | .ok s' => s' | .error _ => s)
  | 2 =>
    let n := (recordedEntry s t).2.2.2
    let s := countRead s t.cid t.recVa n
    next n (match replayDiff s t r with | none => s | some i => replayMismatch sid i s)
  | _ => s

/-! ### Verdicts (R164, R222) -/

/-- Every member of the domain of a core that issued a SYNC acquires the transfers that its members issued before it (R222). -/
def acquireStep (sid : Nat) (t : Strand) (r : SyncRec) (s : State) : State :=
  r.cores.foldl (fun s i =>
    let d := domainOf t r.level i
    d.foldl (fun s j => acquireWhere (t.place j).1
      (fun u => decide (u.sid = sid ∧ u.tick < r.tick) && d.contains u.region) s) s) s

/-- A communication step ends: its records, its sync-boundary values, what it acquires, the landings it covered, and its replay. -/
def stepEnd (sid : Nat) (r : SyncRec) (s : State) : State :=
  let t := s.strand sid
  let s := r.cores.foldl (fun s i => traceTakes (t.place i).1 t.cid 4 (traceRec t.cid 4 t.tick [i, r.level, r.budget, t.overrun] s)) s
  let s := t.slots.foldl (fun s (c, w) => let o := s.owner c w; s.setOwner c w { o with tlmSync := o.tlm }) s
  let v := s.vd t.cid
  let s := s.setVd t.cid { v with lastSync := v.energy }
  let s := { s with wm := { s.wm with meters := tmap s.wm.meters fun _ m =>
               if m.cid.toNat = t.cid then { m with atSync := m.count } else m } }
  let s := (coveredCores t r).foldl (fun s i =>
    let p := t.place i
    let o := s.owner p.1 p.2
    s.setOwner p.1 p.2 { o with lands := o.lands.filter fun l => !o.before l.1 r.tick }) s
  let s := acquireStep sid t r s
  let s := s.setStrand sid { s.strand sid with syncs := (s.strand sid).syncs.filter fun x => x ≠ r
                                               energySync := (s.strand sid).energy }
  replayStep sid r s

/-- Whether a SYNC is met at the present cycle, which is that of its tick t + b. At level 5 a release that has arrived by then makes it
met (R53 step 3), though the net takes N cycles for landings (R164): DESIGN CHOICE (log entry 117). -/
def syncMet (s : State) (t : Strand) (r : SyncRec) : Bool :=
  !outstanding s t r && decide (lastLanding s t r = 0 ∨ lastLanding s t r + t.net ≤ s.cycle ∨
      (r.level = 5 ∧ t.relAt = lastLanding s t r)) && (decide (r.level ≠ 5) || t.released)

/-- The verdict of the SYNCs whose budget ends at tick `k`. -/
def verdicts (sid k : Nat) (s : State) : State :=
  ((s.strand sid).syncs.filter fun r => r.tick + r.budget = k).foldl (fun s r =>
    let t := s.strand sid
    if syncMet s t r then stepEnd sid r s
    else s.setStrand sid { t with overdue := true, stallAt := k, stallFrom := 0,
                                  state := if t.state = .running then .stalled else t.state }) s

/-- Whether a stall is over at a class cycle `c`: every covered transfer of the SYNCs not met has landed, a release has
arrived, and N cycles have passed since, and since an unpark (R164, R166). -/
def stallOver (s : State) (t : Strand) (c : Nat) : Bool :=
  t.overdue && (t.syncs.filter fun r => r.tick + r.budget = t.stallAt).all fun r =>
    !outstanding s t r && (decide (r.level ≠ 5) || t.released)
      && decide (max (lastLanding s t r) t.stallFrom + t.net ≤ c)

/-- SYNC_STALL_END: the stall ends; its empty cycles are charged, and the step ends. -/
def execSyncStallEnd (sid : Nat) (s : State) : Res :=
  let t := s.strand sid
  .next (if !t.overdue then s
    else
      let s := lostInStall t s
      let t := s.strand sid
      let done := t.syncs.filter fun r => r.tick + r.budget = t.stallAt
      let s := s.setStrand sid { t with overdue := false, stallCount := 0,
                                        state := if t.state = .stalled then .running else t.state }
      done.foldl (fun s r => stepEnd sid r s) s)

/-! ### The rendezvous of a strand -/

/-- RENDEZVOUS_MISMATCH, reported by a core. -/
def mismatchFault (t : Strand) (sid : Nat) (s : State) (i : Nat) : State :=
  raiseAt sid (t.place i).1 (t.place i).2 .f false .rendezvousMismatch 0 {} s

/-- The JOINs and SYNCs of a tick. A level-5 SYNC begins the strand's next barrier generation: they are numbered from its launch,
which the specification does not say: DESIGN CHOICE (log entry 91). -/
def rendezvous (sid k : Nat) (s : State) : State :=
  let t := s.strand sid
  let meets := meetsOf s t
  let bad := meets.filter (mismatched t meets)
  let s := t.slots.foldl (fun s (c, w) => s.setOwner c w (clearRdv (s.owner c w))) s
  if !bad.isEmpty then bad.foldl (fun s m => mismatchFault t sid s m.1) s
  else
    let syncs := meets.foldl (fun l m => match m.2 with
      | .sync d b => addSync k m.1 d b l
      | _ => l) t.syncs
    let five := syncs.any fun r => r.tick = k && decide (r.level = 5)
    let s := s.setStrand sid { s.strand sid with
      syncs := syncs, gen := if five then t.gen + 1 else t.gen, released := if five then false else t.released
      barLost := if five then false else t.barLost }
    if five then tryBarrier sid s else s

/-! ### The watchdog (R167) -/

/-- A fault of the strand as a whole, reported by its first core. -/
def strandFault (sid : Nat) (c : Cause) (s : State) : State :=
  let t := s.strand sid
  raiseAt sid (t.place 0).1 (t.place 0).2 .f false c 0 {} s

/-- STRAND_WATCHDOG_EXPIRY: the strand faults with WATCHDOG; between a fault and its stop the expiry is secondary. -/
def execStrandWatchdogExpiry (sid : Nat) (s : State) : Res := .next (strandFault sid .watchdog s)

/-! ### Completions of armed cuts (R410, R414, R416) -/

/-- Post a completion of a long operation of a core. -/
def postCompletion (c : Nat) (x : Completion) (s : State) : State :=
  let b := s.cob c
  s.setCob c { b with compl := b.compl ++ [x], drained := if x.kind = 1 ∧ x.status = 0 then sins x.wid.toNat b.drained else b.drained }

/-- End armed cuts of weave id `w` of a core: CUT or DRAINED with a status and the last tick executed. -/
def endCutsWhere (f : ArmedCut → Bool) (c w status tick : Nat) (s : State) : State :=
  let k := s.core c
  let ends (a : ArmedCut) : Bool := decide (a.wid = w) && f a
  let mine := k.cuts.filter ends
  let s := s.setCore c { k with cuts := k.cuts.filter fun a => !ends a }
  mine.foldl (fun s a =>
    postCompletion c { kind := if a.drain then 1 else 3, wid := bv 3 w, status := bv 8 status, seq := 0,
                       detail := bv 32 tick } s) s

/-- End every armed cut of weave id `w` of a core. -/
def endCuts (c w status tick : Nat) (s : State) : State := endCutsWhere (fun _ => true) c w status tick s

/-- End the armed cuts of every core of a strand. -/
def endAllCuts (sid status : Nat) (s : State) : State :=
  let t := s.strand sid
  t.slots.foldl (fun s (c, w) => endCuts c w status (s.owner c w).tick s) s

/-- Finish a debugger operation of a VD (R269). -/
def dbgDone (cid st : Nat) (s : State) : State :=
  let v := s.vd cid
  s.setVd cid { v with dbg := { v.dbg with busy := false, st := bv 3 st } }

/-- A debugger operation that waits for a strand ends. -/
def dbgEnd (sid st : Nat) (s : State) : State :=
  let cid := (s.strand sid).cid
  let d := (s.vd cid).dbg
  if d.busy ∧ d.goStrand.toNat = sid then dbgDone cid st s else s

/-! ### Primary fault and stop (R261, R263) -/

/-- The place of a fault among those of one tick: by region core, then by stream, one of no stream last. -/
def faultKey (e : FaultEv) : Nat := e.region * 8 + streamNum e.str

/-- Whether a fault is a synchronous one: an instruction of a stream raised it. -/
def FaultEv.sync (e : FaultEv) : Bool := !e.async && decide (e.str ≠ .f)

/-- The faults of a tick that count: an expiry of the watchdog beside a synchronous fault is not recorded (R167). -/
def countedFaults (l : List FaultEv) : List FaultEv :=
  if l.any FaultEv.sync then l.filter fun e => e.cause ≠ .watchdog else l

/-- Take up the faults of tick `k` of a strand: the first fixes the stop; a stalled strand stops at once (R261). Pending
park and eviction requests are dropped (R264). -/
def takeFaults (sid k : Nat) (s : State) : State :=
  let t := s.strand sid
  match sortBy faultKey (countedFaults t.faults) with
  | [] => s
  | e :: l =>
    let n := l.length
    match t.primary with
    | some p =>
      (e :: l).foldl stopSecondary (s.setStrand sid { t with faults := [], primary := some { p with secondary := p.secondary + n + 1 } })
    | none =>
      let stop := if t.overdue then t.stallAt else k + t.dist
      let tk := if t.overdue then t.stallAt else k
      l.foldl stopSecondary <| dbgEnd sid 3 <| endAllCuts sid e.cause.code <| s.setStrand sid { t with
        faults := [], primary := some { ev := e, tick := tk, stop := stop, secondary := n },
        cut := none, evict := none, parkFlag := false, state := .stopping }

/-! ### Breakpoints (R269, R270) -/

/-- Whether a breakpoint matches at tick `k`: its instruction issued on some core at its iteration, or the tick. -/
def breakMatches (s : State) (t : Strand) (k : Nat) (b : Breakpoint) : Bool :=
  if b.str = 7 then decide (b.tick.toNat = k)
  else
    t.slots.any fun (c, w) => streams.any fun st =>
      let x := (s.owner c w).stream st
      decide (streamNum st = b.str) && decide ((x.prevTick : Int) + (s.owner c w).lag = k) && decide (x.prevPc = b.parcel) && !x.img.isEmpty
        && (decide (b.iter = BitVec.allOnes 32) || decide ((x.prevBlocks.head?.map (·.iter)).getD 0 = b.iter.toNat))

/-- A match at tick `k` cuts the strand at k + D; one that meets another cut joins it; one that meets an eviction request is held; none
counts while an eviction drains (R120, R270). -/
def breakpoints (sid k : Nat) (s : State) : State :=
  let t := s.strand sid
  let pts := (s.vd t.cid).dbg.points
  if t.state ≠ .running then s
  else if pts.any fun (_, b) => decide (b.strand = sid) && breakMatches s t k b then joinPark sid (k + t.dist) .breakpoint s
  else s

/-! ### Departure of owners (R191) -/

/-- Whether an owner departs: its streams have executed END, and its transfers have landed. -/
def ownerDone (s : State) (c w : Nat) : Bool :=
  let o := s.owner c w
  streams.all (fun st => (o.stream st).ended) && (xfersOf s c w).isEmpty

/-- The owners of a strand that depart; one that has faulted departs as a whole at its stop. -/
def departures (sid : Nat) (s : State) : State :=
  if (s.strand sid).primary.isSome then s
  else (s.strand sid).slots.foldl (fun s (c, w) => if ownerDone s c w then s.push (.ownerDepart c w) else s) s

/-- Whether the stall of a strand that stops cannot end: what its SYNC waits for will never perform (R231), or its barrier has
failed (R53). -/
def stallDead (s : State) (t : Strand) : Bool :=
  (t.syncs.filter fun r => r.tick + r.budget = t.stallAt).any fun r =>
    let open_ := (coveredCores t r).flatMap fun i =>
      let p := t.place i
      (xfersOf s p.1 p.2).filterMap fun x => if (s.owner p.1 p.2).before x.tick r.tick then some (x.tid, (stuckOf s p.1 p.2).contains x.tid) else none
    (!open_.isEmpty && open_.all (·.2))
      || (open_.isEmpty && decide (r.level = 5) && !t.released && t.barLost)

/-- The end of a strand's tick, on the cores whose owners take part in it. A fault of a tick at whose end a SYNC is not met came before the stall. -/
def endTick (sid : Nat) (s : State) : State :=
  let t := s.strand sid
  let k := t.tick - 1
  let s := (t.slots.filter fun x => ownerRuns s x.1 x.2).foldl (fun s (c, w) => endOwner c w s) s
  let s := s.setStrand sid { s.strand sid with inTick := false }
  let s := rendezvous sid k s
  let s := breakpoints sid k s
  let s := takeFaults sid k s
  departures sid (verdicts sid k s)

end Sys2Proof.Machine
end

