-- ==== Sys2Proof/Machine/Weave.lean ====
section
/-! DEFINITION. Grants and placement (R115, R131-R142), slowing and speeding by re-phasing (R146-R151), the weave switch
and its tables (R134), and what a strand holds on a core. -/

namespace Sys2Proof.Machine

/-! ### Functions and partitions (R23, R24, R107, R109) -/

/-- The PF of a function: itself, or the PF whose enabled VFs hold the routing ID. -/
def pfOf (s : State) (fn : Nat) : Nat :=
  if fn ≤ 32 then fn
  else
    match s.fns.find? fun (p, f) => 1 ≤ p && p ≤ 32 && f.vfEnable && decide (f.firstVf ≤ fn ∧ fn < f.firstVf + f.numVfs) with
    | some (p, _) => p
    | none => 0

/-- Whether a function exists (R23-R25): the MF, a PF, or a VF enabled in its PF. -/
def fnExists (s : State) (fn : Nat) : Bool := decide (fn ≤ 32) || decide (pfOf s fn ≠ 0)

/-- The partition of a function's PF. -/
def partOf (s : State) (fn : Nat) : Part := tget {} s.parts (pfOf s fn)

/-- Whether a core lies in a partition. -/
def inPart (p : Part) (x y : Nat) : Bool :=
  p.v && decide (12 * p.qx.toNat ≤ x ∧ x < 12 * (p.qx.toNat + p.qw.toNat + 1))
    && decide (4 * p.qy.toNat ≤ y ∧ y < 4 * (p.qy.toNat + p.qh.toNat + 1))

/-- Cores of a partition. -/
def partCores (p : Part) : Nat := 48 * (p.qw.toNat + 1) * (p.qh.toNat + 1)

/-- Whether a function holds a VD. -/
def hasVd (s : State) (cid : Nat) : Bool := (tfind s.vds cid).isSome

/-! ### Grants in force -/

/-- Two classes collide (R131). -/
def collide (a b : Nat × Nat) : Bool := decide (a.2 % min a.1 b.1 = b.2 % min a.1 b.1)

/-- The classes, or subclasses, that a strand holds from cycle `c` on: what it has now, until the switch of its re-phasing, and what
the switch gives it (R149). -/
def Strand.heldFrom {α : Type} (t : Strand) (c : Nat) (now : List α) (new : Rephase → List α) : List α :=
  match t.rephase with
  | some r => (if c < r.cyc then now else []) ++ new r
  | none => now

/-- The classes of a strand from cycle `c` on: the one in force, and the one it is being re-phased to. -/
def Strand.classes (t : Strand) (c : Nat) : List (Nat × Nat) := t.heldFrom c [(t.stride, t.phase)] fun r => [(r.stride, r.phase)]

/-- The granted strands but `sid` that have an owner on a core. -/
def strandsOn (s : State) (sid c : Nat) : List Strand :=
  s.strands.filterMap fun (i, t) =>
    if i ≠ sid && t.granted && t.slots.any (fun x => decide (x.1 = c)) then some t else none

/-- Whether a class is free of collisions on a core from cycle `from_` on (R131). -/
def classFree (s : State) (sid from_ c : Nat) (cl : Nat × Nat) : Bool :=
  (strandsOn s sid c).all fun t => (t.classes from_).all fun d => !collide cl d

/-- The lane subclasses of a strand in a cluster from cycle `from_` on: lane, stride, phase. An owner that has departed holds none
(R147). -/
def Strand.laneSubs (t : Strand) (from_ cl : Nat) : List (Nat × Nat × Nat) :=
  let of (stride : Nat) (l : List (Nat × Nat)) : List (Nat × Nat × Nat) :=
    ((t.cores.zip t.wids).zip l).filterMap fun ((c, w), lane, p) =>
      if clusterOf c = cl ∧ w < 8 then some (lane, stride * t.txrate, p) else none
  t.heldFrom from_ (of t.stride t.lanes) fun r => of r.stride r.lanes

/-- The lane subclasses granted in a cluster to strands other than `sid`. -/
def lanesIn (s : State) (sid from_ cl : Nat) : List (Nat × Nat × Nat) :=
  s.strands.flatMap fun (i, t) => if i ≠ sid && t.granted then t.laneSubs from_ cl else []

/-- The HBM subclasses granted to strands other than `sid`. -/
def hbmSubs (s : State) (sid from_ : Nat) : List (Nat × Nat) :=
  s.strands.flatMap fun (i, t) =>
    if i ≠ sid && t.granted then t.heldFrom from_ [(t.stride * t.hbmrate, t.hbmP)] fun r => [(r.stride * t.hbmrate, r.hbmP)]
    else []

/-- The phases P_r of a subclass of class (S, P) with rate m, in increasing order. -/
def subPhases (stride phase m : Nat) : List Nat := (List.range m).map fun i => phase + i * stride

/-- The first lane and phase free in a cluster; each region core has its own: DEDUCED (log entry 43). -/
def pickLane (used : List (Nat × Nat × Nat)) (stride phase m : Nat) : Option (Nat × Nat) :=
  ((List.range 4).flatMap fun lane => (subPhases stride phase m).map fun p => (lane, p)).find? fun (lane, p) =>
    used.all fun (l, sp) => decide (l ≠ lane) || !collide (stride * m, p) sp

/-- Lane subclasses for every core of a region, in region order (R137). -/
def pickLanes (s : State) (sid stride phase m : Nat) : List Nat → List (Nat × Nat × Nat × Nat) → Option (List (Nat × Nat))
  | [], _ => some []
  | c :: cs, mine =>
    let cl := clusterOf c
    let used := lanesIn s sid s.cycle cl ++ (mine.filterMap fun (d, x) => if d = cl then some x else none)
    match pickLane used stride phase m with
    | none => none
    | some (lane, p) =>
      match pickLanes s sid stride phase m cs (mine ++ [(cl, lane, stride * m, p)]) with
      | none => none
      | some l => some ((lane, p) :: l)

/-- The first HBM phase that meets R138 and collides with none. -/
def pickHbm (s : State) (sid stride phase m : Nat) : Option Nat :=
  (subPhases stride phase m).find? fun p =>
    (decide (stride * m < 16) || decide (p % 16 ≠ 15)) && (hbmSubs s sid s.cycle).all fun x => !collide (stride * m, p) x

/-- Whether the module-memory shares fit beside one another (R55). -/
def shareFits (s : State) (sid : Nat) (t : Strand) : Bool :=
  decide (t.share + (s.strands.foldl (fun n (i, u) => if i ≠ sid && u.granted then n + u.share else n) 0)
    ≤ Config.moduleShareMax)

/-! ### Resources of a core (R133, R175) -/

/-- The owners of a core. -/
def coreOwners (s : State) (c : Nat) : List (Nat × Owner) := (s.core c).owners

/-- Bytes of owner instruction memory in use. -/
def imemUsed (s : State) (c : Nat) : Nat :=
  (strandsOn s 0 c).foldl (fun n t => n + t.imem) 0

/-- The lowest numbers below `n` that are not in a list. -/
def lowestFree (n k : Nat) (used : List Nat) : List Nat := ((List.range n).filter fun i => !used.contains i).take k

/-- The lowest place of a run of `k` units among `n` that meets no used unit: DESIGN CHOICE (log entry 41). -/
def firstFit (n k : Nat) (used : List Nat) : Option Nat :=
  (List.range (n + 1 - k)).find? fun b => (List.range k).all fun i => !used.contains (b + i)

/-- A grant on one core: weave id, first window unit, OM slots, ring tiles, first vector register, matrix bank. -/
structure CoreGrant where
  wid : Nat
  win : Nat
  oms : List Nat
  tiles : List Nat
  vbase : Nat
  bank : Nat
  deriving DecidableEq, Repr

/-- What a strand would be granted on a core, if the limits allow it. -/
def fitCore (s : State) (t : Strand) (c : Nat) : Option CoreGrant :=
  let os := coreOwners s c
  let units := t.win / 4096
  let winUsed := os.flatMap fun (_, o) => (List.range (o.winSize / 4096)).map (· + o.winBase / 4096)
  let omUsed := os.flatMap fun (_, o) => o.oms
  let tileUsed := os.flatMap fun (_, o) => o.tiles
  let vUsed := os.flatMap fun (_, o) => (List.range o.vcnt).map (· + o.vbase)
  let banks := os.filterMap fun (_, o) => if o.mx then some o.bank else none
  if (s.core c).locked ∨ 8 ≤ os.length ∨ (t.matrix ∧ 4 ≤ banks.length) ∨ (t.thr ∧ os.any fun (_, o) => o.thr)
      ∨ (t.scuse ∧ os.any fun (_, o) => o.wheel) ∨ Config.imemBytes < imemUsed s c + t.imem
      ∨ 32 < omUsed.length + t.om ∨ 8 < tileUsed.length + t.ring then none
  else
    match firstFit 124 units winUsed, firstFit 32 t.vregs vUsed with
    | some w, some v =>
      some { wid := (lowestFree 8 1 (os.map (·.1))).headD 0, win := w, oms := lowestFree 32 t.om omUsed,
             tiles := lowestFree 8 t.ring tileUsed, vbase := v, bank := (lowestFree 4 1 banks).headD 0 }
    | _, _ => none

/-- What a strand would be granted on every core of a list, or none. -/
def fitAll (s : State) (t : Strand) : List Nat → Option (List CoreGrant)
  | [] => some []
  | c :: cs =>
    match fitCore s t c with
    | none => none
    | some g => (fitAll s t cs).map (g :: ·)

/-! ### The search (R141, R142) -/

/-- The cores on which a VD has admitted or parked owners. -/
def footprint (s : State) (cid : Nat) : List Nat :=
  s.strands.foldl (fun acc (_, t) =>
    if t.cid = cid && t.granted then sall (t.slots.map (·.1)) acc else acc) []

/-- Whether the shape at an origin lies where the strand's domain levels and remote use let it lie (R162, R207). -/
def alignedAt (t : Strand) (x y : Nat) : Bool :=
  (!bit t.levels 2 || decide (x % 12 = 0 ∧ y % 4 = 0)) && (!bit t.levels 3 || decide (x % 12 = 0 ∧ y % 16 = 0))
    && (!t.remote || decide (x / 12 = (x + t.w - 1) / 12 ∧ y / 16 = (y + t.h - 1) / 16))

/-- The origins that a strand may take in its partition, within the VD's bound of cores: those in the footprint first. -/
def origins (s : State) (t : Strand) : List (Nat × Nat) :=
  let p := partOf s t.cid
  let fp := footprint s t.cid
  let ok (x y : Nat) : Bool :=
    inPart p x y && inPart p (x + t.w - 1) (y + t.h - 1) && alignedAt t x y
      && decide ((sall (Strand.cores { t with x0 := x, y0 := y }) fp).length ≤ (s.vd t.cid).maxCores)
  let all := (List.range Config.meshH).flatMap fun y => (List.range Config.meshW).filterMap fun x =>
    if ok x y then some (x, y) else none
  let inside (o : Nat × Nat) : Bool := (Strand.cores { t with x0 := o.1, y0 := o.2 }).all fun c => fp.contains c
  all.filter inside ++ all.filter fun o => !inside o

/-- A placement: the strand with its region, class, lanes and HBM phase, and its grant on each core. -/
structure Placement where
  strand : Strand
  grants : List CoreGrant
  deriving DecidableEq, Repr

/-- Try one class at one origin. -/
def tryAt (s : State) (sid : Nat) (t : Strand) (stride phase : Nat) (o : Nat × Nat) : Option Placement :=
  let t := { t with x0 := o.1, y0 := o.2, stride := stride, phase := phase }
  let cs := t.cores
  if !(cs.all fun c => classFree s sid s.cycle c (stride, phase)) || !shareFits s sid t then none
  else
    match fitAll s t cs, pickLanes s sid stride phase t.txrate cs [], pickHbm s sid stride phase t.hbmrate with
    | some g, some l, some h => some { strand := { t with lanes := l, hbmP := h, wids := g.map (·.wid) }, grants := g }
    | _, _, _ => none

/-- The strides from `a` to `b`. -/
def strides (a b : Nat) : List Nat := [1, 2, 4, 8, 16, 32].filter fun x => a ≤ x ∧ x ≤ b

/-- The first placement of a strand; `stride` 0 lets the placer choose, `pin` 0xFF likewise (R142). -/
def search (s : State) (sid : Nat) (t : Strand) (stride pin : Nat) : Option Placement :=
  let ss := if stride = 0 then strides t.smin t.smax else [stride]
  let os := origins s t
  (ss.flatMap fun st => (if pin = 0xFF then List.range st else [pin]).map fun p => (st, p)).findSome? fun (st, p) =>
    os.findSome? fun o => tryAt s sid t st p o

/-- Whether a pinned class is free of collisions on some region allowed by R141 (R145). -/
def pinnedFree (s : State) (sid : Nat) (t : Strand) (stride pin : Nat) : Bool :=
  (origins s t).any fun o => (Strand.cores { t with x0 := o.1, y0 := o.2 }).all fun c => classFree s sid s.cycle c (stride, pin)

/-! ### Zeroing at a grant (R115) -/

/-- Zero those of a list of units whose last holder was another VD, and record the new holder. -/
def regrant (last : Tab (Nat × Nat)) (who : Nat × Nat) (us : List Nat) : List Nat × Tab (Nat × Nat) :=
  (us.filter fun u => tfind last u ≠ some who, us.foldl (fun l u => tset l u who) last)

/-- Zero window units, OM slots, ring tiles and vector registers of a core; every unit's check bits are renewed (R213). -/
def zeroParts (k : CoreSt) (win oms tiles vs : List Nat) : CoreSt :=
  let k := win.foldl (fun k u =>
    { k with win := czero k.win (u * 4096) 4096, winErr := k.winErr.filter fun w => w / 512 ≠ u
             winPoison := k.winPoison.filter fun l => l / 64 ≠ u }) k
  let k := oms.foldl (fun k u => { k with om := czero k.om (omBase u) 2112, omErr := k.omErr.filter fun a => a / 2112 ≠ u }) k
  let k := tiles.foldl (fun k u =>
    { k with ring := czero k.ring (u * 4096) 4096, ringErr := k.ringErr.filter fun w => w / 2048 ≠ u }) k
  vs.foldl (fun k u => { k with vreg := czero k.vreg (u * 1024) 1024, vErr := k.vErr.filter fun b => b / 4096 ≠ u }) k

/-- Grant a core to an owner of a VD: zero what another VD held last, every OM slot after an eviction, and the threshold
store (R115, R251). -/
def grantCore (s : State) (c : Nat) (t : Strand) (g : CoreGrant) (evicted : Bool) : State :=
  let k := s.core c
  let who := (t.cid, (s.vd t.cid).count)
  let wu := (List.range (t.win / 4096)).map (· + g.win)
  let vs := (List.range t.vregs).map (· + g.vbase)
  let a := regrant k.lastWin who wu
  let b := regrant k.lastOm who g.oms
  let d := regrant k.lastTile who g.tiles
  let e := regrant k.lastV who vs
  let k := zeroParts k a.1 (if evicted then g.oms else b.1) d.1 e.1
  s.setCore c { k with
    lastWin := a.2, lastOm := b.2, lastTile := d.2, lastV := e.2, thr := if t.thr then {} else k.thr }

/-- A fresh owner on a core (R115, R172). -/
def freshOwner (sid region : Nat) (t : Strand) (g : CoreGrant) : Owner :=
  { sid := sid, cid := t.cid, region := region, winBase := g.win * 4096, winSize := t.win, oms := g.oms, tiles := g.tiles,
    vbase := g.vbase, vcnt := t.vregs, mx := t.matrix, bank := g.bank, thr := t.thr, wheel := t.scuse }

/-! ### Weave tables (R132, R134) -/

/-- The table entries of an owner of class (S, P). -/
def classEntries (stride phase : Nat) : List Nat := (List.range 32).filter fun j => j % stride = phase

/-- Weave id `w` as a table entry: 0 for none, else w + 1. -/
def setEntries (t : Tab Nat) (js : List Nat) (v : Nat) : Tab Nat := js.foldl (fun t j => tset t j v) t

/-- Remove a weave id from a table. -/
def clearWid (t : Tab Nat) (w : Nat) : Tab Nat := t.map fun (j, v) => (j, if v = w + 1 then 0 else v)

/-- A table with the entries of weave id `w` as a class gives them. -/
def withClass (t : Tab Nat) (w stride phase : Nat) : Tab Nat := setEntries (clearWid t w) (classEntries stride phase) (w + 1)

/-- The table that a switch makes of one. -/
def SwReq.table (r : SwReq) (t : Tab Nat) : Tab Nat := r.raw.getD (withClass t r.wid r.stride r.phase)

/-- The first of the switches asked for is the pending one. -/
def loadSwitch (k : CoreSt) : CoreSt :=
  match k.swQueue with
  | [] => { k with swPend := false }
  | r :: _ => { k with ptable := r.table k.table, swc := r.cyc, swPend := true }

/-- Ask for a switch of a core's table. A core has one pending table; of several switches asked for, the earliest is pending, and one
already pending for a later cycle comes after it: DESIGN CHOICE (log entry 63). -/
def askSwitch (r : SwReq) (k : CoreSt) : CoreSt := loadSwitch { k with swQueue := insertBy (·.cyc) r k.swQueue }

/-- Forget the switches that name a weave id. -/
def dropSwitches (f : SwReq → Bool) (k : CoreSt) : CoreSt :=
  if k.swQueue.any f then loadSwitch { k with swQueue := k.swQueue.filter fun r => !f r } else k

/-- The weave ids of strands on a core follow its owners. -/
def syncWids (core : Nat) (sids : List Nat) (s : State) : State :=
  sids.foldl (fun s sid =>
    match tfind s.strands sid with
    | none => s
    | some t =>
      let here := (((s.core core).owners.find? fun (_, o) => o.sid = sid).map (·.1)).getD 8
      s.setStrand sid { t with wids := (t.cores.zip t.wids).map fun (c, w) => if c = core then here else w }) s

/-- The owner that a pending record makes of one, at the switch. An id that was not in the active table goes on after the last tick
that OTICK gives (R412). -/
def ownerOf (s : State) (core w : Nat) (r : PendRec) : Owner :=
  let k := s.core core
  let o := r.restored.getD (k.owner w)
  let t := s.strand r.strand.toNat
  let region := ((List.range t.cores.length).find? fun i => t.cores.getD i 0 = core).getD o.region
  let o := if (tfind k.owners w).isSome then o else { o with tick := r.tick.toNat, lag := (t.tick : Int) - (r.tick.toNat + 1), region := region }
  { o with sid := r.strand.toNat, cid := (r.attr.extractLsb' 16 10).toNat, winBase := r.wbase.toNat * 4096,
           winSize := r.wsize.toNat * 4096, oms := r.oms, tiles := r.tiles, vbase := r.vbase.toNat, vcnt := r.vcnt.toNat,
           mx := r.attr.getLsbD 9, bank := (r.attr.extractLsb' 10 2).toNat, thr := r.attr.getLsbD 12, wheel := r.attr.getLsbD 13 }

/-- WEAVE_SWITCH: the pending table and the pending records become active (R134, R412), with every switch that names the same
cycle; a record with V = 0 removes its id; an entry whose id has no valid record is held unheld (R413). A SWITCH completion is posted. -/
def execWeaveSwitch (core : Nat) (s : State) : Res :=
  .next (let k := s.core core
    if !k.swPend then s
    else
      let gone := (k.cob.recs.filter fun (_, r) => r.dirty && !r.attr.getLsbD 0).map (·.1)
      let named := (k.cob.recs.filter fun (_, r) => r.dirty && r.attr.getLsbD 0)
      let owners := named.foldl (fun os (w, r) => tset os w (ownerOf s core w r)) (k.owners.filter fun (w, _) => !gone.contains w)
      let valid (v : Nat) : Bool := v = 0 || (tfind owners (v - 1)).isSome
      let rest := k.swQueue.drop 1
      let table := ((rest.takeWhile fun r => decide (r.cyc ≤ k.swc)).foldl (fun t r => r.table t) k.ptable).map fun (j, v) =>
        (j, if valid v then v else 0)
      let recs := k.cob.recs.map fun (w, r) => (w, { r with dirty := false, restored := none })
      let k' := loadSwitch { k with table := table, owners := owners, cob := { k.cob with recs := recs }
                                    swQueue := rest.dropWhile fun r => decide (r.cyc ≤ k.swc) }
      let sids := named.map (·.2.strand.toNat) ++ gone.map fun w => (k.owner w).sid
      syncWids core sids (postCompletion core { kind := 4, wid := 0, status := 0, seq := 0, detail := 0 } (s.setCore core k')))

/-- What Cobbler does for the placer at a grant or a re-phasing: the switch of the table is asked for on each core of the strand
(R134, R413). -/
def pendClass (sid stride phase cyc : Nat) (s : State) : State :=
  (s.strand sid).slots.foldl (fun s (c, w) =>
    s.setCore c (askSwitch { cyc := cyc, wid := w, stride := stride, phase := phase } (s.core c))) s

/-- The switches of a strand's start are cancelled (R155). -/
def cancelPending (sid : Nat) (s : State) : State :=
  let t := s.strand sid
  t.slots.foldl (fun s (c, w) => s.setCore c (dropSwitches (fun r => decide (r.wid = w ∧ r.cyc = t.start)) (s.core c))) s

/-- ST of an owner `o` of strand `t`. -/
def ownerSt (t : Strand) (o : Owner) : Nat :=
  if o.draining then 3
  else if o.parked then 2
  else match t.state with
    | .stalled => 1
    | .parked => 2
    | .draining => 3
    | _ => 0

/-- OATTR of an owner `o` of strand `t` in class (S, P) (R135, R412). -/
def ownerAttr (t : Strand) (stride phase : Nat) (o : Owner) : W64 :=
  bv 64 (1 + stride.log2 * 2 + phase * 2 ^ 4 + b01 o.mx * 2 ^ 9 + o.bank * 2 ^ 10 + b01 o.thr * 2 ^ 12
          + b01 o.wheel * 2 ^ 13 + ownerSt t o * 2 ^ 14 + o.cid * 2 ^ 16)

/-! ### Re-phasing (R149-R151) -/

/-- The first cycle of a class at or after `c`. -/
def nextIn (stride phase c : Nat) : Nat := c + (phase + stride - c % stride) % stride

/-- The tick that falls on a cycle, if the strand runs on under its class. -/
def tickAt (s : State) (t : Strand) (c : Nat) : Nat := t.tick + (c - nextIn t.stride t.phase (max (s.cycle + 1) t.notBefore)) / t.stride

/-- The switch cycle that a command can name: 64 cycles after it reaches every core, and one more than a tick's cycle unless the strand
stalls or parks (R149, R150). The placer injects the command after a time that is not stated, a free value: DESIGN CHOICE (log entry 118). -/
def switchCycle (s : State) (t : Strand) : Nat :=
  let reach := s.cycle + Config.hubCycles s.free + 4 * ((t.x0 + t.w - 1) + (t.y0 + t.h - 1)) + 64
  if t.overdue ∨ t.state = .parked then reach else nextIn t.stride t.phase (reach - 1) + 1

/-- A subclass after the switch: the ticks it held keep it (R151). -/
def movedSub (s : State) (t : Strand) (m p stride phase cyc : Nat) : Nat :=
  let first := tickAt s t (nextIn (m * t.stride) p (s.cycle + 1))
  let tk := tickAt s t (nextIn t.stride t.phase cyc)
  let d := (first % m + m - tk % m) % m
  (nextIn stride phase cyc + d * stride) % (m * stride)

/-- The re-phasing of a strand to a class, if it is free from the switch on with its subclasses. -/
def planRephase (s : State) (sid : Nat) (t : Strand) (stride phase : Nat) : Option Rephase :=
  let cyc := switchCycle s t
  let lanes := t.lanes.map fun (l, p) => (l, movedSub s t t.txrate p stride phase cyc)
  let hbm := movedSub s t t.hbmrate t.hbmP stride phase cyc
  let laneOk := ((t.cores.zip t.wids).zip lanes).all fun ((c, w), l, p) => decide (8 ≤ w) ||
    (lanesIn s sid cyc (clusterOf c)).all fun (l', sp) => decide (l ≠ l') || !collide (stride * t.txrate, p) sp
  let hbmOk := (decide (stride * t.hbmrate < 16) || decide (hbm % 16 ≠ 15))
    && (hbmSubs s sid cyc).all fun x => !collide (stride * t.hbmrate, hbm) x
  if (t.slots.all fun x => classFree s sid cyc x.1 (stride, phase)) && laneOk && hbmOk && t.rephase.isNone then
    some { cyc := cyc, stride := stride, phase := phase, lanes := lanes, hbmP := hbm }
  else none

/-- Name the switch of a strand: the cores are told, and PLC_STAT.RPH counts it. -/
def startRephase (sid : Nat) (r : Rephase) (s : State) : State :=
  let t := s.strand sid
  let s := (s.tick1.setStrand sid { t with rephase := some r }).at r.cyc (.rephaseSwitch sid)
  let s := pendClass sid r.stride r.phase r.cyc s
  let s := { s with plc := { s.plc with rph := if s.plc.rph = BitVec.allOnes 16 then s.plc.rph else s.plc.rph + 1 } }
  t.slots.foldl (fun s (c, w) =>
    cobEvent c .rephase w sid [bv 64 w, ownerAttr t r.stride r.phase (s.owner c w), bv 64 r.cyc, 0] s) s

/-- Heads that wait for admission are examined again: the grants have changed (R142). -/
def grantsChanged (s : State) : State :=
  { s with queues := tmap s.queues fun _ q => { q with tried := false }
           strands := tmap s.strands fun _ t => { t with tried := false } }

/-- REPHASE_SWITCH: from this cycle on the strand follows the new class, with its subclasses, in which its requests of HBM go on (R149,
R151). Its cores' tables switch of themselves. -/
def execRephaseSwitch (sid : Nat) (s : State) : Res :=
  let t := s.strand sid
  .next (match t.rephase with
    | none => s
    | some r =>
      let s := s.setStrand sid { t with stride := r.stride, phase := r.phase, lanes := r.lanes, hbmP := r.hbmP, rephase := none }
      let s := repassStrand sid (t.stride * t.hbmrate, t.hbmP) (r.stride * t.hbmrate, r.hbmP) s.cycle s
      grantsChanged (traceEvent sid 4 t.stride t.phase s))

/-- Speed one survivor after the departure of an owner from a core (R147): by priority, then by admission. Whether the placer speeds
one that is stalled or parked, which it may, is a free value: DESIGN CHOICE (log entry 118). -/
def speedOne (c : Nat) (s : State) : State :=
  if !s.plc.fast then s
  else
    let still (t : Strand) : Bool := decide (t.state = .stalled ∨ t.state = .parked)
    let cand := s.strands.filter fun (_, t) => (decide (t.state = .running) || still t) && t.slots.any fun x => decide (x.1 = c)
    let order := sortBy (fun (_, t) => (7 - t.prio) * 2 ^ 32 + t.order) cand
    match order.findSome? fun (sid, t) =>
        ((strides t.smin (t.stride - 1)).flatMap fun st => (List.range st).map fun p => (st, p)).findSome? fun (st, p) =>
          (planRephase s sid t st p).map fun r => (sid, r) with
    | some (sid, r) => if still (s.strand sid) && !Config.speedsStill s.free then s.tick1 else startRephase sid r s
    | none => s

/-- Owners depart from several cores: each departure may speed one survivor. -/
def speedAll (cs : List Nat) (s : State) : State := cs.foldl (fun s c => speedOne c s) s

end Sys2Proof.Machine
end

