-- ==== Sys2Proof/Machine/Strands.lean ====
section
/-! DEFINITION. The life of a strand after its start: departure and completion (R147, R191), park and unpark (R116),
the stop at a fault (R261, R262), eviction, its context records, and resumption (R112, R117-R122). -/

namespace Sys2Proof.Machine

/-! ### Departure and completion -/

/-- Free an owner's grants on its core: its entries, its weave id, its records of armed cuts (R147, R416). Where its launch ends, its
time-lost counters are those of the previous launch from now on (R105). -/
def freeOwner (ends : Bool) (c w : Nat) (s : State) : State :=
  let o := s.owner c w
  let s := endCuts c w 0xFD o.tick s
  let k := dropSwitches (fun r => decide (r.wid = w)) (s.core c)
  let mine (u : Unseen) : Bool := decide (o.winBase ≤ 64 * u.line ∧ 64 * u.line < o.winBase + o.winSize)
  let k := { k with table := clearWid k.table w, ptable := clearWid k.ptable w, owners := tdel k.owners w
                    unseen := k.unseen.filter fun u => !mine u
                    tlmPrev := if ends then tset k.tlmPrev o.cid o.tlm else k.tlmPrev }
  let t := s.strand o.sid
  let s := (s.setCore c k).setStrand o.sid { t with wids := t.wids.set o.region 8 }
  cobEvent c .depart w o.sid [bv 64 w, bv 64 s.cycle, 0, 0] s

/-- Free every owner of a strand, whose launch ends or is evicted, and drop its transfers. -/
def freeEach (ends : Bool) (sid : Nat) (s : State) : State :=
  let s := (s.strand sid).slots.foldl (fun s (c, w) => freeOwner ends c w s) s
  { s with xfers := s.xfers.filter fun x => x.sid ≠ sid }

/-- Free every owner of a strand whose launch ends. -/
def freeAll (sid : Nat) (s : State) : State := freeEach true sid s

/-- The lines that a completed launch has read count for its VD; where no launch of the VD is left, the placer brings its pages to
their tiers (R143). -/
def noteLaunch (t : Strand) (s : State) : State :=
  let v := s.vd t.cid
  let s := s.setVd t.cid { v with reads := t.reads.foldl (fun r (p, n) => tset r p (tget 0 r p + n)) v.reads }
  if s.strands.any (fun (_, u) => u.cid = t.cid) ∨ v.state ≠ .active then s else placeTiers t.cid s

/-- A LAUNCH completes with a status: its energy is summed (R170), LAUNCH_END is traced, the kind-3 entry of a divergence that waits for
the status is posted (R75), and its packet completes. -/
def finishLaunch (sid status : Nat) (s : State) : State :=
  let t := s.strand sid
  let v := s.vd t.cid
  let uj := microJoule t.energy
  let win := (rollWindow (windowOf (granK v 3) s.ns) v.enWin v.energy).2.2
  let seen := disclosed (gran v 3) (microJoule v.prevLaunch) (microJoule win) (microJoule t.energySync) uj
  let s := trace t.cid 3 t.tick (traceBody 3 [status, uj]) (traceBody 3 [status, seen]) s
  let s := s.setVd t.cid { s.vd t.cid with prevLaunch := t.energy }
  let s := { s with wm := { s.wm with meters := tmap s.wm.meters fun _ m =>
               if m.cid.toNat = t.cid then { m with atLaunch := m.count } else m } }
  let s := dbgEnd sid 2 s
  let s := match t.divRec with | some i => tellRecord t.fn t.q status t.tag i s | none => s
  let done (r : Run) : Run := if r.id = t.run then { r with status := status, data := bv 64 uj, ended := true } else r
  let s := { s with runs := s.runs.map done, strands := tdel s.strands sid }
  grantsChanged ((noteLaunch t s).soon (.packetCompletion t.run))

/-- A strand ends without any completion: it is discarded (R33). -/
def discardStrand (sid : Nat) (s : State) : State :=
  let t := s.strand sid
  let s := freeAll sid s
  let s := { s with strands := tdel s.strands sid, runs := s.runs.filter fun r => r.id ≠ t.run }
  grantsChanged (speedAll (t.slots.map (·.1)) (s.cancel (.leaseExpiry sid)))

/-- A doomed strand is gone; a reset of its function that waits for it goes on. -/
def discardDoomed (sid : Nat) (s : State) : State :=
  let cid := (s.strand sid).cid
  let s := discardStrand sid s
  if (s.vd cid).closing then s.push (.vfFlr cid) else s

/-- OWNER_DEPART: results due later complete; the grants of the core are freed, a survivor may be sped, and the strand
completes when every owner has departed (R147, R191). A late read of an instruction that faults keeps the owner: its
strand stops. -/
def execOwnerDepart (core wid : Nat) (s : State) : Res :=
  .next (match tfind (s.core core).owners wid with
    | none => s
    | some o =>
      let s := flushOwner core wid s
      if !(s.strand o.sid).faults.isEmpty then takeFaults o.sid ((s.strand o.sid).tick - 1) s
      else
        let s := speedOne core (freeOwner true core wid s)
        if !(s.strand o.sid).slots.isEmpty then grantsChanged s
        else if (s.strand o.sid).doomed then discardDoomed o.sid s else finishLaunch o.sid 0 s)

/-! ### Park and unpark (R116) -/

/-- Post the CUT completions of an owner that parks: those of the cuts that it has reached, or of every one where its strand stalls
(R166, R414). -/
def reachCuts (c w : Nat) (s : State) : State :=
  let o := s.owner c w
  endCutsWhere (fun a => !a.drain && (decide (a.tick ≤ o.tick) || (s.strand o.sid).overdue)) c w 0 o.tick s

/-- STRAND_PARK: the strand has executed a tick and freezes; its lease stops, its transfers go on, results due
later stay held. -/
def execStrandPark (sid _tick : Nat) (s : State) : Res :=
  let t := s.strand sid
  .next (if t.state ≠ .running ∧ t.state ≠ .stalled then s
    else
      let s := s.setStrand sid { t with state := .parked, cut := none, leaseLeft := t.leaseEnd - s.ref, leaseEnd := 0 }
      let s := s.cancel (.leaseExpiry sid)
      let s := t.slots.foldl (fun s (c, w) => reachCuts c w s) s
      let s := meterEvent t.cid 1 (traceEvent sid 0 t.stride t.phase s)
      if (s.vd t.cid).dbg.goOp = 1 then dbgEnd sid 1 s else s)

/-- Every owner of a strand is parked alone, or none is. -/
def parkOwners (sid : Nat) (on : Bool) (s : State) : State :=
  (s.strand sid).slots.foldl (fun s (c, w) => s.setOwner c w { s.owner c w with parked := on }) s

/-- A strand that is parked as a whole runs again: its next tick falls on the first cycle of its class at or after `cyc`; a stall goes on
until N cycles after it (R166). -/
def unparkStrand (sid cyc : Nat) (s : State) : State :=
  let t := s.strand sid
  let s := s.setStrand sid { t with
    state := if t.overdue then .stalled else .running, notBefore := max t.notBefore cyc,
    stallFrom := cyc, leaseEnd := s.ref + t.leaseLeft, leaseLeft := 0 }
  traceEvent sid 1 t.stride t.phase (s.afterNs t.leaseLeft (.leaseExpiry sid))

/-- STRAND_UNPARK: the hub unparks a strand on every core. -/
def execStrandUnpark (sid cyc : Nat) (s : State) : Res :=
  .next (if (s.strand sid).state ≠ .parked then s else unparkStrand sid cyc (parkOwners sid false s))

/-! ### The stop at a fault (R261-R265) -/

/-- The launch status that a cause gives (R77, R127, R167). -/
def faultStatus (c : Cause) : Nat := match c with | .watchdog => 0x0402 | .sourceLost => 0x0404 | _ => 0x0401

/-- The record of a strand's primary fault. -/
def faultRecord (sid : Nat) (t : Strand) (p : Primary) : FaultRec :=
  { cause := p.ev.cause.code, stream := streamNum p.ev.str, async := p.ev.async, secondary := p.secondary, tag := t.tag,
    core := p.ev.core, status := faultStatus p.ev.cause, sid := sid, tick := p.tick, stop := p.stop, loc := p.ev.loc,
    addr := p.ev.addr, cid := t.cid, lanes := p.ev.lanes }

/-- The transfers of a strand that still have to land: those that R231 bars, and what would follow them, never do. -/
def toLand (s : State) (sid : Nat) : List Xfer :=
  s.xfers.filter fun x => decide (x.sid = sid) && decide (x.state ≠ .failed ∧ x.state ≠ .element)
    && !(stuckOf s x.core x.wid).contains x.tid

/-- A stopped strand departs, and its LAUNCH completes. -/
def departStopped (sid : Nat) (s : State) : State :=
  let t := s.strand sid
  finishLaunch sid t.status (speedAll (t.slots.map (·.1)) (freeAll sid s))

/-- Every strand of a VD stops at a cut, as for a fault, and is discarded; one that runs no tick goes at once (R33). -/
def doomStrands (cid : Nat) (s : State) : State :=
  (s.strands.filter fun (_, t) => t.cid = cid).foldl (fun s (sid, _) =>
    let t := s.strand sid
    if (t.state = .running ∨ t.state = .draining) ∧ !t.overdue then
      s.setStrand sid { t with doomed := true, cut := some (t.tick + t.dist, .discard), evict := none }
    else if t.state = .stopping then s.setStrand sid { t with doomed := true }
    else discardStrand sid s) s

/-- STRAND_STOP: at the stop tick every stream has stopped; results due later and the transfers issued complete into the
state, the record is written, and the strand departs, or where FHOLD = 1 parks at its cut (R99, R262, R265, R270). It waits while a
transfer has still to land. -/
def execStrandStop (sid : Nat) (s : State) : Res :=
  let t := s.strand sid
  .next (if t.doomed then discardDoomed sid s else match t.primary with
    | none => s
    | some p =>
      if t.state ≠ .stopping ∨ !(toLand s sid).isEmpty then s
      else
        let s := if t.overdue then lostInStall t s else s
        let s := t.slots.foldl (fun s (c, w) => flushOwner c w s) s
        let s := postRecord (faultRecord sid t p) t.tick t.fn t.q s
        let s := s.setStrand sid { t with status := faultStatus p.ev.cause, state := .faultHeld, faults := [] }
        if (s.vd t.cid).dbg.fhold then meterEvent t.cid 1 (traceEvent sid 0 t.stride t.phase s) else departStopped sid s)

/-! ### Context records (R112) -/

/-- The pieces of a core record: place in the record, bytes, poisoned lines of the piece. Only declared resources are
written. The control area's layout is the Cobbler SVN's. -/
def recordParts (k : CoreSt) (o : Owner) (free : Nat) : List (Nat × List Byte × List Nat) :=
  let win := cgets k.win o.winBase o.winSize
  let bad := (List.range (o.winSize / 64)).filter fun l => linePoison k o l || lineErr k o l
  let tile (i t : Nat) : Nat × List Byte × List Nat :=
    (0x7C000 + i * 16384, (cgets k.ring (t * 4096) 4096).flatMap fun w => natLe 4 w.toNat, [])
  let vr (i : Nat) : Nat × List Byte × List Nat :=
    (0x9C000 + i * 4096, (cgets k.vreg ((o.vbase + i) * 1024) 1024).flatMap fun w => natLe 4 w.toNat, [])
  let masks := ((List.range 8).flatMap fun i => natLe 128 (tget 0 o.m i).toNat) ++ natLe 128 o.lam.toNat ++ natLe 896 0
  let elem (e : Elem) : List Byte :=
    natLe 8 (e.cls.toNat + e.kind.toNat * 16 + e.status.toNat * 256 + e.seq.toNat * 65536 + e.bytes.toNat * 2 ^ 32)
  let fifo := o.fifo.flatMap elem ++ natLe (1024 - 8 * o.fifo.length) 0
  [(0, win, bad)] ++ ((List.range o.tiles.length).zip o.tiles).map (fun (i, t) => tile i t)
    ++ (List.range o.vcnt).map vr ++ [(0xAC000, masks, []), (0xAC800, fifo, []),
        (0xACC00, (List.range 29696).map (Config.controlArea free), [])]

/-- Apply a function to each stream of an owner. -/
def Owner.mapStreams (o : Owner) (f : Stream → Stream) : Owner :=
  { o with sc := f o.sc, sl := f o.sl, sm := f o.sm, sv := f o.sv, ss := f o.ss }

/-- Note what the control area of a record that is written stands for. -/
def noteSave (r : SavedRec) (s : State) : State := { s with saves := r :: s.saves.filter fun x => x.pa ≠ r.pa }

/-- The record at a PA, where a save of this device wrote it and its control area still stands. -/
def savedAt (s : State) (pa : Nat) : Option SavedRec :=
  (s.saves.find? fun r => r.pa = pa).filter fun r => pread s (pa + 0xACC00) 29696 = (List.range 29696).map (Config.controlArea r.free)

/-- Write a core's record at a PA. -/
def saveRecord (c w pa : Nat) (s : State) : State :=
  let k := s.core c
  let o := k.owner w
  let r : SavedRec := { pa := pa, svn := k.cob.svn, owner := o.mapStreams fun x => { x with hold := false }, free := s.free }
  (recordParts k o s.free).foldl (fun s (off, b, bad) =>
    pwrite s (pa + off) b (bad.map fun l => (pa + off) / 64 + l) true) (noteSave r s.tick1)

/-- Whether the part of a record that a restore reads holds a poisoned line. -/
def recordPoisoned (s : State) (o : Owner) (pa : Nat) : Bool :=
  !(ppoison s pa o.winSize).isEmpty || !(ppoison s (pa + 0x7C000) (o.tiles.length * 16384 + 1)).isEmpty
    || !(ppoison s (pa + 0x9C000) (o.vcnt * 4096 + 1)).isEmpty || !(ppoison s (pa + 0xAC000) 0x8000).isEmpty

/-- The error or poison in what a save of an owner would write: its window, ring tiles, vector registers and masks (R120, R418). -/
def saveFails (k : CoreSt) (o : Owner) : Bool :=
  ((List.range (o.winSize / 64)).any fun l => linePoison k o l || lineErr k o l)
    || (k.ringErr.any fun w => o.tiles.contains (w / 2048))
    || (k.vErr.any fun b => decide (o.vbase ≤ b / 4096 ∧ b / 4096 < o.vbase + o.vcnt)) || !o.mErr.isEmpty

/-- A completion element of a saved FIFO: its word, and the transfer that it stands for. -/
def elemOf (w : Nat) (e : Elem) : Elem :=
  { tid := e.tid, cls := bv 4 w, kind := bv 4 (w / 16), status := bv 8 (w / 256), seq := bv 16 (w / 65536), bytes := bv 32 (w / 2 ^ 32) }

/-- Read a core's record at a PA into the resources of an owner: the memories, whose check and poison bits whole writes renew (R213,
R214); and the owner's own state as it was saved (`old`), which the control area holds. -/
def restoreRecord (c w pa : Nat) (old : Owner) (s : State) : State :=
  let k := s.core c
  let o := k.owner w
  let words (off n : Nat) : List W32 := (List.range n).map fun i => bv 32 (preadLe s (pa + off + 4 * i) 4)
  let k := zeroParts k ((List.range (o.winSize / 4096)).map (· + o.winBase / 4096)) [] o.tiles ((List.range o.vcnt).map (· + o.vbase))
  let k := { k with win := csets k.win o.winBase (pread s pa o.winSize) }
  let k := { k with ring := ((List.range o.tiles.length).zip o.tiles).foldl (fun r (i, t) =>
               csets r (t * 4096) (words (0x7C000 + i * 16384) 4096)) k.ring }
  let k := { k with vreg := csets k.vreg (o.vbase * 1024) (words 0x9C000 (o.vcnt * 1024)) }
  let m := (List.range 8).map fun i => (i, bv 1024 (preadLe s (pa + 0xAC000 + 128 * i) 128))
  let o' := { old with sid := o.sid, cid := o.cid, region := o.region, winBase := o.winBase, winSize := o.winSize,
                       oms := o.oms, tiles := o.tiles, vbase := o.vbase, vcnt := o.vcnt, mx := o.mx, bank := o.bank,
                       thr := o.thr, wheel := o.wheel, m := m, lam := bv 1024 (preadLe s (pa + 0xAC400) 128),
                       fifo := ((List.range old.fifo.length).zip old.fifo).map fun (i, e) => elemOf (preadLe s (pa + 0xAC800 + 8 * i) 8) e,
                       claims := old.claims, ports := [], pend := [], mErr := [], imErr := [] }
  s.setCore c (k.setOwner w o')

/-! ### Eviction (R117-R121) -/

/-- Whether a strand stands at an eviction point of its container before tick `k`: every stream of every core has ended,
or its head is due and is the point's (R117, R296). -/
def atEvictionPoint (s : State) (t : Strand) (k : Nat) : Bool :=
  t.evPoints.any fun pt => t.slots.all fun (c, w) => (List.range 5).all fun i =>
    let x := (s.owner c w).stream (streams.getD i .c)
    x.ended || (decide (x.pc = pt.getD i 0) && decide ((x.next : Int) + (s.owner c w).lag ≤ k))

/-- EVICTION_REQUEST: the request waits for the first eviction point E ≥ Q + D; a timetable without one is never evicted. One that
comes before the first tick is held until it (R156). A parked strand runs its ticks for the drain and resumes parked (R118, R120). -/
def execEvictionRequest (sid : Nat) (s : State) : Res :=
  let t := s.strand sid
  .next (if t.evPoints.isEmpty ∨ t.evict.isSome ∨ t.primary.isSome then s
    else
      match t.state with
      | .running | .stalled | .staging | .armed | .resuming => s.setStrand sid { t with evict := some (t.tick + t.dist) }
      | .parked =>
        s.setStrand sid { t with evict := some (t.tick + t.dist), parkFlag := true,
                                 state := if t.overdue then .stalled else .running, notBefore := s.cycle + 1 } |> parkOwners sid false
      | _ => s)

/-- A stream at the eviction tick: inside a pipelined block it clears fs and runs STG - 1 further executions before it
holds at the block's start; else it holds (R118, R189). -/
def Stream.drain (x : Stream) : Stream :=
  if x.ended then x
  else
    match x.blocks.dropWhile fun b => b.stages = 0 with
    | [] => { x with hold := true }
    | b :: outer =>
      if b.stages ≤ 1 then { x with hold := true, pc := b.start, blocks := b :: outer }
      else
        let inner := x.blocks.takeWhile fun b => b.stages = 0
        { x with drainTo := some (outer.length + 1, b.start, b :: outer),
                 blocks := inner ++ { b with drain := true, total := b.iter + b.stages - 1 } :: outer }

/-- A draining stream that has left its block holds at its restart point. -/
def Stream.settle (x : Stream) : Stream :=
  match x.drainTo with
  | some (d, pc, bl) => if x.blocks.length < d then { x with hold := true, pc := pc, blocks := bl, drainTo := none } else x
  | none => x

/-- Whether a draining strand holds everywhere, with everything issued complete (R118). -/
def drained (s : State) (t : Strand) : Bool :=
  t.slots.all fun (c, w) =>
    let o := s.owner c w
    streams.all (fun st => (o.stream st).ended || (o.stream st).hold) && o.pend.isEmpty && (xfersOf s c w).isEmpty

/-- The lowest records of a VD's context region that no evicted strand uses. -/
def freeRecords (s : State) (cid n : Nat) : List Nat :=
  let used := s.strands.flatMap fun (_, t) => if t.cid = cid && decide (t.state = .evicted) then t.ctxRecs else []
  lowestFree (s.vd cid).maxCores n used

/-- Place of a core record of a VD (R112). -/
def recordPa (s : State) (cid i : Nat) : Nat := (s.vd cid).ctx + 0x10000 + i * Config.coreRecord

/-- The EVICT events of a strand whose eviction begins at the tick that has just begun, or in a stall at its next, to the cores that
have a record for it (R408). -/
def evictEvents (sid : Nat) (t : Strand) (s : State) : State :=
  let e := if t.inTick then t.tick - 1 else t.tick
  (t.slots.zip (freeRecords s t.cid t.slots.length)).foldl (fun s ((c, w), r) =>
    cobEvent c .evict w sid [bv 64 w, bv 64 e, bv 64 (recordPa s t.cid r), 0] s) s

/-- EVICTION_DRAIN: the eviction tick is reached; where the placer evicts, the cores are told. -/
def execEvictionDrain (sid : Nat) (s : State) : Res :=
  let t := s.strand sid
  let s := t.slots.foldl (fun s (c, w) =>
    let o := s.owner c w
    if o.draining then s else s.setOwner c w (o.mapStreams Stream.drain)) s
  let s := s.setStrand sid { s.strand sid with state := .draining, cut := none }
  .next (if t.evict.isSome then evictEvents sid t s else s)

/-! ### The header of the context region (R112)

The strand table's entries are filled in the order of the strand ids; the fields of the VD record, of an entry and of the core
map stand in the order in which R112 lists them, and an entry's streams in ring order: DESIGN CHOICE (log entry 18). -/

/-- The state of a VD as a number, in the order of R114: DESIGN CHOICE (log entry 18). -/
def VdState.code : VdState → Nat
  | .active => 0
  | .migOut => 1
  | .stopped => 2
  | .incoming => 3
  | .postcopy => 4
  | .failed => 5

/-- The outermost pipelined block of a stream: its start and the iteration in progress, 0 where there is none. -/
def Stream.outermost (x : Stream) : Nat × Nat :=
  match (x.blocks.filter fun b => b.stages ≠ 0).getLast? with
  | some b => (b.start, b.iter)
  | none => (0, 0)

/-- The 256 bytes of a strand's entry: strand id, TAG, queue, shape, stride bounds, saved tick, park flag; then for each stream the
outermost pipelined block and its saved iteration, as the first core has them. -/
def tableEntry (sid : Nat) (t : Strand) : List Byte :=
  let o := t.savedOwners.headD {}
  let st (i : StreamId) : List Byte := natLe 4 (o.stream i).outermost.1 ++ natLe 8 (o.stream i).outermost.2
  let b := natLe 4 sid ++ natLe 4 t.tag.toNat ++ natLe 4 t.q ++ natLe 2 t.w ++ natLe 2 t.h ++ natLe 2 t.smin ++ natLe 2 t.smax
    ++ natLe 8 t.savedTick ++ natLe 4 (b01 t.parkFlag) ++ streams.flatMap st
  b ++ List.replicate (256 - b.length) 0

/-- The evicted strands of a VD. -/
def evictedOf (s : State) (cid : Nat) : List (Nat × Strand) := s.strands.filter fun (_, t) => t.cid = cid && decide (t.state = .evicted)

/-- The core map's entry of record `r`: strand entry and core index of the strand that uses it; zero for none. -/
def mapEntry (l : List (Nat × Strand)) (r : Nat) : List Byte :=
  let use := ((List.range l.length).zip l).filterMap fun (i, _, t) =>
    ((List.range t.ctxRecs.length).find? fun j => t.ctxRecs.getD j 0 = r).map fun j => (i, j)
  match use with
  | (i, j) :: _ => natLe 4 i ++ natLe 4 j
  | [] => natLe 8 0

/-- The 64 KiB header of a VD's context region. -/
def regionHead (s : State) (cid : Nat) (svn : BitVec 16) : List Byte :=
  let v := s.vd cid
  let l := (evictedOf s cid).take 64
  let vdRec := natLe 2 cid ++ natLe 2 v.state.code ++ natLe 2 v.maxCores ++ natLe 2 svn.toNat ++ List.replicate 248 0
  let table := l.flatMap fun (i, t) => tableEntry i t
  let b := vdRec ++ table ++ List.replicate (0x4000 - table.length) 0 ++ (List.range v.maxCores).flatMap (mapEntry l)
  b ++ List.replicate (65536 - b.length) 0

/-- Bytes that the CSE moves for an owner. -/
def saveBytes (o : Owner) : Nat := o.winSize + o.tiles.length * 16384 + o.vcnt * 4096 + 0x8000

/-- EVICTION_SAVE: the CSE writes the core records and the region's header, and the cores are freed (R118 step 5). The save fails
where what it would write is poisoned or fails its check: the LAUNCH completes with EVICTED_FAILED (R120); so it does without a free
record, which the specification does not say: DESIGN CHOICE (log entry 46). -/
def execEvictionSave (sid : Nat) (s : State) : Res :=
  let t := s.strand sid
  .next (if t.state ≠ .draining then s
    else
      let s := endAllCuts sid 0 s
      let recs := freeRecords s t.cid t.slots.length
      let left := t.slots.map (·.1)
      if recs.length < t.slots.length ∨ t.slots.any (fun (c, w) => saveFails (s.core c) (s.owner c w)) then
        finishLaunch sid 0x0403 (speedAll left (freeAll sid s))
      else
        let s := ((t.slots.zip recs)).foldl (fun s ((c, w), r) =>
          let pa := recordPa s t.cid r
          chargeOper (saveRecord c w pa s) (saveBytes (s.owner c w) * pjPerByte pa)) s
        let owners := t.slots.map fun (c, w) => (s.owner c w).mapStreams fun x => { x with hold := false }
        let svn := (s.cob (t.cores.headD 0)).svn
        let s := freeEach false sid s
        let s := s.setStrand sid { s.strand sid with
          state := .evicted, savedOwners := owners, ctxRecs := recs,
          savedTick := t.tick - 1, savedSvn := svn, evict := none, tried := false }
        let ctx := (s.vd t.cid).ctx
        let s := chargeOper (pwrite s ctx (regionHead s t.cid svn) [] true) (65536 * pjPerByte ctx)
        grantsChanged (speedAll left (meterEvent t.cid 2 (traceEvent sid 2 t.stride t.phase (s.cancel (.leaseExpiry sid))))))

/-- What the hub sends the Cobbler of region core `i` of a strand whose start is armed: ADMIT with the switch cycle, that of
the start; RESTORE of a strand that resumes; START (R155, R408). -/
def armEvents (sid start : Nat) (t : Strand) (c w i : Nat) (s : State) : State :=
  let o := s.owner c w
  let s := cobEvent c .grant w sid
    [bv 64 w, ownerAttr t t.stride t.phase o, bv 64 (o.winBase / 4096 + o.winSize / 4096 * 256), bv 64 start] s
  let s := if t.state = .resuming then
      cobEvent c .restore w sid [bv 64 w, bv 64 (recordPa s t.cid (t.ctxRecs.getD i 0)), bv 64 t.savedTick, 0] s
    else s
  cobEvent c .start w sid [bv 64 w, bv 64 start, 0, 0] s

/-- Arm the start cycle of a staged or restored strand (R155): the first cycle of its class at or after now + LEAD. -/
def armStart (sid : Nat) (s : State) : State :=
  let t := s.strand sid
  let st := nextIn t.stride t.phase (s.cycle + s.plc.lead.toNat)
  let ok := Config.coresReady s.free && t.cores.all fun c => !(s.core c).locked
  let s := s.tick1.setStrand sid { t with start := st, ready := ok, state := if t.state = .resuming then .resuming else .armed }
  let s := (t.slots.zip (List.range t.slots.length)).foldl (fun s ((c, w), i) => armEvents sid st t c w i s) s
  let s := pendClass sid t.stride t.phase st s
  s.at (st - 320) (.startDecision sid)

/-- Place the owners of a strand on their cores; the energy of the zeroing goes to the operator account (R115, R169). -/
def placeOwners (sid : Nat) (p : Placement) (evicted : Bool) (mk : Nat → CoreGrant → Owner) (s : State) : State :=
  let t := p.strand
  let s := s.setStrand sid t
  ((List.range (t.w * t.h)).zip (t.cores.zip p.grants)).foldl (fun s (i, c, g) =>
    let s := chargeOper (grantCore s c t g evicted).tick1 (1000 * Config.coreEnergy s.free)
    s.setOwner c g.wid (mk i g)) s

/-! ### The residency lease (R122) -/

/-- The lease in ns, its value taken within its bounds. -/
def leaseNs (s : State) : Nat := max 100 (min 1000000 s.plc.lease.toNat) * 1000

/-- Whether a strand's lease has expired. -/
def leaseOver (s : State) (t : Strand) : Bool := decide (t.state = .running ∨ t.state = .stalled) && decide (t.leaseEnd ≤ s.ref)

/-- LEASE_EXPIRY: from now on the strand may be evicted for a waiting head of higher priority: heads are examined again. -/
def execLeaseExpiry (sid : Nat) (s : State) : Res :=
  .next (if leaseOver s (s.strand sid) then grantsChanged s else s)

end Sys2Proof.Machine
end

