-- ==== Sys2Proof/Machine/Queues.lean ====
section
/-! DEFINITION. The command front end (chapter 04): notify and validation, fetching, arbitration, the packet types,
signals, COPY, INVAL and completion; and what a write to HB_PRQ.DONE retries (R211). -/

namespace Sys2Proof.Machine

/-! ### Queues -/

/-- Whether a queue is suspended while its generation word is odd (R58, R94). -/
def Queue.odd (q : Queue) : Bool := q.gen.getLsbD 0

/-- Whether a queue is suspended: its generation word is odd, or a migration has stopped its VD's queues (R125). -/
def suspended (s : State) (fn q : Nat) : Bool := (s.queue fn q).odd || (decide (fn ≠ 0) && (s.vd fn).suspended)

/-- Slot of an index of a ring (R59). -/
def Queue.slotAt (q : Queue) (i : W32) : Nat := q.rbase.toNat * 4096 + i.toNat % 2 ^ q.size.toNat * 64

/-- Modify a queue. -/
def State.modQueue (s : State) (fn q : Nat) (f : Queue → Queue) : State := s.setQueue fn q (f (s.queue fn q))

/-- A queue without its head, which is no longer awaited, aged or read again. -/
def Queue.noHead (x : Queue) : Queue :=
  { x with head := none, torn := none, aging := 0, tried := false, waitFault := false, waitHeld := none, waitMet := false, awaits := false }

/-- A queue's head goes, and with it the timers it has set. -/
def dropHead (fn q : Nat) (s : State) : State :=
  ((s.modQueue fn q Queue.noHead).cancel (.launchAgingStep fn q)).cancel (.waitReread fn q)

/-- Put a queue in the error state with an entry of kind 2 at its ECQ (R65). A head that has not started goes, and is fetched anew
when STATE becomes 1: R65 keeps only packets already started; DESIGN CHOICE (log entry 96). -/
def queueError (fn q status : Nat) (data : W64) (s : State) : State :=
  ecqPost fn q 2 status 0 data (dropHead fn q (s.modQueue fn q fun x => { x with state := 2 }))

/-- An error of a read of host memory that a packet has made: it is logged in the function, and its error CQ is told (R35). The entry is of
kind 0, with the status that the packet meets: R35 gives none; DESIGN CHOICE (log entry 105). -/
def hostError (fn q : Nat) (ecq : BitVec 6) (e : AerError) (tag : W32) (status : Nat) (data : W64) (s : State) : State :=
  cqSend { fn := fn, n := ecq.toNat, ecq := ecq, w0 := cqEntry 0 q status tag, w1 := data } (logAer fn e s)

/-- The first violation of R65, if any. -/
def ringViolation (fn : Nat) (x : Queue) : Option Nat :=
  let n := 2 ^ x.size.toNat * 64
  let a := x.rbase.toNat * 4096
  let space := if x.host then decide (a + n ≤ 2 ^ 64) else if fn = 0 then decide (a + n ≤ Config.hbmBytes)
    else decide (a + n ≤ 2 ^ 72 ∧ (a + n - 1) / 2 ^ 68 ≠ 15)
  if x.size.toNat < 4 ∨ 16 < x.size.toNat then some 0x0101
  else if a % max 4096 n ≠ 0 then some 0x0101
  else if !space then some 0x0101
  else if 2 ^ x.size.toNat < (x.widx - x.ridx).toNat then some 0x0102
  else none

/-- Validation at notify, and when STATE becomes 1 (R65). -/
def validateRing (fn q : Nat) (s : State) : State :=
  let x := s.queue fn q
  match ringViolation fn x with
  | some st => queueError fn q st (x.widx.setWidth 64) s
  | none => if x.ridx ≠ x.widx then s.soon (.packetFetch fn q) else s

/-- Whether the packets of a function run: the MF's, or those of a VD that is not being reset and whose TDI is not in ERROR
(R33, R38). -/
def working (s : State) (fn : Nat) : Bool := fn = 0 || (hasVd s fn && !(s.vd fn).closing && decide ((s.fn fn).tdi ≠ .error))

/-- Whether a function takes notifies and packets: one that works, and that no migration has stopped (R125). -/
def takesWork (s : State) (fn : Nat) : Bool := working s fn && decide (fn = 0 ∨ (s.vd fn).state ≠ .stopped)

/-- NOTIFY (R29): sets the notified write index and starts validation. A ring read in progress begins anew, so that one which finds V = 0
does not miss the notify: DEDUCED (log entry 120). -/
def execNotify (fn q : Nat) (v : BitVec 32) (s : State) : Res :=
  let x := s.queue fn q
  .next (if !takesWork s fn then s
    else if suspended s fn q then s.setQueue fn q { x with heldOps := x.heldOps ++ [.notify fn q v] }
    else if x.state = 0 then cqPost fn 0 (cqEntry 2 255 0x0101 0) (v.setWidth 64) s
    else if x.state = 2 then s.setQueue fn q { x with widx := v }
    else validateRing fn q (s.setQueue fn q { x with widx := v, idle := false, torn := none }))

/-- QUEUE_DISABLE: STATE = 0 (R58). A head not started is left in the ring; a WAIT that has become head stays (R70). -/
def execQueueDisable (fn q : Nat) (s : State) : Res :=
  let s' := s.modQueue fn q fun x => { x with state := 0, held := none, torn := none }
  let keep : Bool := decide ((s.queue fn q).head.map (fun p => (p.w0.extractLsb' 4 4).toNat) = some 2)
  .next (if keep then s' else dropHead fn q s')

/-- QUEUE_ENABLE: STATE = 1 from 0; the queue resumes at RIDX with the checks of R65 (R58). -/
def execQueueEnable (fn q : Nat) (s : State) : Res :=
  let x := s.queue fn q
  .next (if x.state ≠ 0 then s else validateRing fn q (s.setQueue fn q { x with state := 1, idle := false }))

/-! ### Packets (R60-R63) -/

/-- TYPE, B, I and TAG of a packet. -/
def Packet.type (p : Packet) : Nat := (p.w0.extractLsb' 4 4).toNat
def Packet.barrier (p : Packet) : Bool := p.w0.getLsbD 1
def Packet.wantsEntry (p : Packet) : Bool := p.w0.getLsbD 2
def Packet.tag (p : Packet) : W32 := p.w0.extractLsb' 32 32

/-- The packet in 64 bytes. -/
def packetOf (b : List Byte) : Packet :=
  let w (i : Nat) : W64 := bv 64 (leNat ((b.drop (8 * i)).take 8))
  { w0 := w 0, w1 := w 1, w2 := w 2, w3 := w 3, w4 := w 4, w5 := w 5, w6 := w 6, w7 := w 7 }

/-- Whether an INVAL of a function may name a CID (R63). -/
def invalTarget (s : State) (fn cid : Nat) : Bool := fn = 0 || (decide (pfOf s cid = fn) && hasVd s cid)

/-- Whether a packet is valid in a queue of a function (R63, R78). -/
def Packet.valid (s : State) (fn : Nat) (p : Packet) : Bool :=
  let z (w : W64) : Bool := decide (w = 0)
  let base := !p.w0.getLsbD 3 && decide (p.w0.extractLsb' 8 24 = 0) && !p.w3.getLsbD 0 && z p.w6 && z p.w7
  let body := match p.type with
    | 0 => z p.w1 && z p.w2 && z p.w4 && z p.w5
    | 1 => decide (fn ≠ 0) && decide (p.w4.toNat < 2 ^ 16) && z p.w5
    | 2 | 3 => z p.w1 && z p.w2 && z p.w4 && decide (p.w3 ≠ 0)
    | 4 => decide (p.w4.toNat < 2 ^ 18) && decide (p.w5.toNat ≤ 2 ^ 36)
    | 6 => decide (p.w1.toNat < 2 ^ 10) && z p.w4 && decide (fn ≤ 32) && invalTarget s fn p.w1.toNat
    | _ => false
  base && body

/-- Retire the head (R66): V clears in the ring where it was read, RIDX increments, and the next packet is read. Where the ring write
fails, V stays and RIDX increments all the same: R66 is silent; DESIGN CHOICE (log entry 97). -/
def retire (fn q : Nat) (s : State) : State :=
  let (host, a) := (s.queue fn q).headAt
  let s := match fnRead s fn host a 1 with
    | .ok (b, _) => (match fnWrite s fn host a [b.headD 0 &&& 0xFE] with | .ok s' => s' | .error _ => s)
    | .error _ => s
  let s := dropHead fn q (s.modQueue fn q fun x => { x with ridx := x.ridx + 1 })
  { s with rot := 64 * fn + q }.soon (.packetFetch fn q)

/-- The run that a packet starts; it has the fields of the QCB with which its packet was read (R94). -/
def newRun (fn q : Nat) (p : Packet) (s : State) : Run :=
  { id := s.nextRun, fn := fn, q := q, pkt := p, cq := (s.queue fn q).headCq, ecq := (s.queue fn q).headEcq }

/-- A packet starts: it is retired and runs. Answers its run's number. -/
def startPacket (fn q : Nat) (p : Packet) (s : State) : State × Nat :=
  (retire fn q { s with runs := s.runs ++ [newRun fn q p s], nextRun := s.nextRun + 1 }, s.nextRun)

/-- Replace a run. -/
def setRun (r : Run) (s : State) : State := { s with runs := s.runs.map fun x => if x.id = r.id then r else x }

/-- A run by its number. -/
def runOf (s : State) (id : Nat) : Option Run := s.runs.find? fun r => r.id = id

/-- A run has performed and completes with a status, at the CFE's turn in a cycle (R216). -/
def endRun (r : Run) (status : Nat) (data : W64) (s : State) : State :=
  (setRun { r with status := status, data := data, ended := true } s).soon (.packetCompletion r.id)

/-- A packet starts and completes at once with a status. -/
def startAndEnd (fn q : Nat) (p : Packet) (status : Nat) (s : State) : State :=
  endRun (newRun fn q p s) status 0 (startPacket fn q p s).1

/-- Whether the CFE begins to read the next packet of a queue: it is active, neither suspended nor stopped at V = 0 nor held on a demand page,
has no head, and has packets (R58, R66). -/
def mayFetch (s : State) (fn q : Nat) : Bool :=
  let x := s.queue fn q
  decide (x.state = 1) && !suspended s fn q && x.head.isNone && !x.idle && x.held.isNone && decide (x.ridx ≠ x.widx)
    && takesWork s fn && decide (fn = 0 ∨ (s.vd fn).state ≠ .incoming)

/-- The translation of a function's accesses: of a VD's tables, or the physical addresses of the MF. -/
def fnXlate (s : State) (fn : Nat) (write : Bool) : Xlate := fun a =>
  if fn ≠ 0 then translate s fn a write else if mapped a 1 then .ok (a, true) else .error (.fault .transferTranslation a)

/-- The first part of a read of the CFE for a function, of host or device memory: a reader finds each aligned word old or new (R64, R226). -/
def sideFirst (s : State) (fn : Nat) (host : Bool) (a n : Nat) : Except VaErr (State × Torn) :=
  if host then
    let lines := (lineParts a n).map fun (b, k) => (b, k, false)
    .ok ({ s with free := s.free + (wordsOf lines).length }, { newTorn lines s with first := hread s a n, bad := hpoison s a n })
  else vreadFirst (fnXlate s fn false) s a n

/-- What the read delivers, with its poisoned lines. -/
def sideRest (t : Torn) (host : Bool) (a n : Nat) (s : State) : List Byte × List Nat :=
  if host then (mixWords (firstPart t.f) 0 (wordsOf t.lines) t.first (hread s a n), sall t.bad (hpoison s a n)) else getRest t s

/-- Carry out `i` after the time that the hub takes. -/
def hubLater (i : Instr) (s : State) : State := (s.at (s.cycle + 1 + Config.hubCycles s.free) i).tick1

/-- The CFE begins to read the packet at RIDX, and takes the fields of the QCB that it will act on (R94); a failing read holds, or puts the
queue in error (R66). -/
def ringBegin (fn q : Nat) (s : State) : State :=
  let x := s.queue fn q
  let a := x.slotAt x.ridx
  match sideFirst s fn x.host a 64 with
  | .error (.demand p) => pageRequest fn p false (s.setQueue fn q { x with held := some p })
  | .error (.fault _ _) => queueError fn q 0x0101 (x.ridx.setWidth 64) s
  | .ok (s', t) =>
    let s' := if x.host then hostReads fn a 64 true s' else s'
    hubLater (.packetFetch fn q)
      (s'.setQueue fn q { x with torn := some t, headAt := (x.host, a), headCq := x.cq, headEcq := x.ecq, headPrio := x.prio })

/-- The packet has been read: it becomes the head, or fetching stops. A malformed one is retired with PACKET_INVALID (R63). So is one
whose line is poisoned; the TAG and I of its entry are those of the bytes as read: the specification does not say what a poisoned packet's
entry holds, nor whether one is posted; DESIGN CHOICE (log entry 121). -/
def ringEnd (fn q : Nat) (t : Torn) (s : State) : State :=
  let (host, a) := (s.queue fn q).headAt
  let (b, bad) := sideRest t host a 64 s
  let s := chargeOper s (sideEnergy s fn host a 64)
  let s := if host ∨ fn = 0 then s else countRead s fn a 64
  let s := s.modQueue fn q fun x => { x with torn := none }
  let p := packetOf b
  let s := if host ∧ bad ≠ [] then hostError fn q (s.queue fn q).headEcq .poisonedTlp p.tag 0x0103 0 s else s
  if !bad.isEmpty then startAndEnd fn q p 0x0103 s
  else if !p.w0.getLsbD 0 then s.modQueue fn q fun x => { x with idle := true }
  else if !p.valid s fn then startAndEnd fn q p 0x0103 s
  else s.modQueue fn q fun x => { x with head := some p, tried := false }

/-- PACKET_FETCH (R66): the CFE reads the packet at RIDX, in two parts (R64). A read that began before GEN became odd goes on (R94). -/
def execPacketFetch (fn q : Nat) (s : State) : Res :=
  let x := s.queue fn q
  .next (match x.torn with
    | some t => if takesWork s fn then ringEnd fn q t s else s.setQueue fn q { x with torn := none }
    | none => if mayFetch s fn q then ringBegin fn q s else s)

/-- The head of a queue whose packets run, if it is of a type. -/
def headOf (s : State) (fn q type : Nat) : Option Packet :=
  if takesWork s fn then (s.queue fn q).head.filter fun p => p.type = type else none

/-- Whether an earlier packet of a queue has not completed. -/
def earlierRuns (s : State) (fn q : Nat) : Bool := s.runs.any fun r => decide (r.fn = fn ∧ r.q = q)

/-- Whether a head waits for earlier packets (R67). -/
def blockedByB (s : State) (fn q : Nat) (p : Packet) : Bool := p.barrier && earlierRuns s fn q

/-- Pass over a head (R68). -/
def passOver (fn q : Nat) (s : State) : State := s.modQueue fn q fun x => { x with tried := true }

/-! ### Signals (R61, R71, R72) -/

/-- The address a w3 word names. -/
def signalVa (w3 : W64) : Nat := w3.toNat * 8 + (if w3.getLsbD 63 then 31 * 2 ^ 67 else 0)

/-- Bytes of a signal for a function: a VA of its VD, or a PA for the MF. -/
def signalRead (s : State) (cid : Nat) (va n : Nat) : Except VaErr (List Byte × List Nat) := fnRead s cid false va n

/-- The place of a signal: its device, VD and address (R61, R46). -/
def sigPlace (s : State) (fn : Nat) (w3 : W64) : Nat × Nat × Nat :=
  let va := signalVa w3
  if fn ≠ 0 ∧ isRemote va then
    let (win, off) := remoteOf s fn va
    (win.dev, win.tcid, off)
  else (s.klk.dev.toNat, fn, va)

/-- WAIT heads on a signal are read again after a CFE operation on it (R70). -/
def rereadWaits (place : Nat × Nat × Nat) (s : State) : State :=
  s.queues.foldl (fun s (i, x) =>
    match x.head with
    | some p =>
      if p.type = 2 ∧ sigPlace s (i / 64) p.w3 = place then s.push (.waitReread (i / 64) (i % 64)) else s
    | none => s) s

/-- Post the mailbox entry of a signal whose value has reached 0 (R71, R72). Q is the queue of the packet, also where a peer's decrement
brings it: then it is the number of the peer's queue, and a notice of a dropped entry goes to the ECQ of the target VD's own queue of
that number; R74 is silent: DESIGN CHOICE (log entry 122). -/
def mailbox (cid q : Nat) (tag : W32) (w3 : W64) (mb : W64) (s : State) : State :=
  if mb.getLsbD 0 && decide (mb.toNat < 128) then
    cqPost cid (mb.extractLsb' 1 6).toNat (cqEntry 1 q 0 tag) w3 s
  else s

/-- A signal operation has ended: a fault is told to the packet's queue, or the peer that asked for it is answered. -/
def signalEnd (o : SigOp) (status : Nat) (s : State) : State :=
  match o.peer with
  | none => if status = 0 then s else signalFault o.fn o.q o.ecq o.tag o.w3 s
  | some r => { s with klk := { s.klk with readyPeer := s.klk.readyPeer ++ [(r, status)] } }.push (.peerRequestArrival r)

/-- A read by the CFE of a VD's memory counts in its meters, and its energy is the operator's. -/
def cfeRead (cid va n : Nat) (s : State) : State := chargeOper (countRead s cid va n) (sideEnergy s cid false va n)

/-- Perform a signal operation of a VD at this hub: a decrement, or the write of a SIGNAL, or answer the demand page that it
meets. A decrement reads the value, and either reads the mailbox when the value is 0: DEDUCED (log entry 95). WAITs on the signal read
it again, whatever has become of the operation. -/
def signalTry (o : SigOp) (s : State) : Except Nat State :=
  let again (s : State) : State := rereadWaits (s.klk.dev.toNat, o.cid, o.va) s
  match signalRead s o.cid o.va 16 with
  | .error (.demand p) => .error p
  | .error (.fault c _) => .ok (again (signalEnd o c.code s))
  | .ok (b, poison) =>
    let old : W64 := bv 64 (leNat (b.take 8))
    let new := o.write.getD (old - 1)
    let s := if o.write.isSome then s else cfeRead o.cid o.va 8 s
    if !poison.isEmpty then .ok (again (signalEnd o 0x13 s))
    else
      match fnWrite s o.cid false o.va (natLe 8 new.toNat) with
      | .error (.demand p) => .error p
      | .error (.fault c _) => .ok (again (signalEnd o c.code s))
      | .ok s' =>
        let s' := if new = 0 then mailbox o.cid o.q o.tag o.w3 (bv 64 (leNat (b.drop 8))) (cfeRead o.cid (o.va + 8) 8 s') else s'
        .ok (again (signalEnd o 0 s'))

/-- Whether two operations are on one signal. -/
def SigOp.same (o p : SigOp) : Bool := decide (o.cid = p.cid ∧ o.va = p.va)

/-- A signal operation at this hub: on a demand page it holds, and later operations on the signal wait behind it (R72). -/
def signalOp (o : SigOp) (s : State) : State :=
  let hold (s : State) (p : Nat) : State := { s with sigHeld := s.sigHeld ++ [{ o with page := p }] }
  match s.sigHeld.find? o.same with
  | some h => hold s h.page
  | none =>
    match signalTry o s with
    | .error p => pageRequest o.cid p true (hold s p)
    | .ok s' => s'

/-- What stands for the page of a held operation whose page is there: no page has this number. -/
def freedPage : Nat := 2 ^ 56

/-- The first operation of a VD that was held on a page now mapped is performed; where its page is not there again, it and those behind it
hold. Answers whether more are left. -/
def releaseOne (cid : Nat) (s : State) : State :=
  match s.sigHeld.find? fun o => decide (o.cid = cid ∧ o.page = freedPage) with
  | none => s
  | some o =>
    let s := match signalTry o s with
      | .error p =>
        pageRequest cid p true { s with sigHeld := s.sigHeld.map fun (h : SigOp) => if h.same o then { h with page := p } else h }
      | .ok s' => { s' with sigHeld := s'.sigHeld.erase o }
    if s.sigHeld.any fun h => decide (h.cid = cid ∧ h.page = freedPage) then s.soon (.pageDone cid freedPage) else s

/-- A signal operation of a packet: here, or at the hub of a remote window (R72), with the packet's own w3, which a mailbox entry
tells (R75). -/
def signalFor (fn q : Nat) (ecq : BitVec 6) (tag : W32) (w3 : W64) (write : Option W64) (s : State) : State :=
  let va := signalVa w3
  if fn ≠ 0 ∧ isRemote va then
    let (win, off) := remoteOf s fn va
    if !win.v ∨ win.notify then signalFault fn q ecq tag w3 s
    else
      match write with
      | none => sendRequest win.dev fn win.tcid 0 off (.signalDec w3 tag q) (.signal fn q ecq tag w3) s
      | some v => sendRequest win.dev fn win.tcid 0 off (.signalSet w3 v tag q) (.signalSet fn q ecq tag w3) s
  else signalOp { page := 0, cid := fn, va := va, fn := fn, q := q, ecq := ecq, tag := tag, w3 := w3, write := write } s

/-- Whether a signal is a local one for a function. -/
def localSignal (fn : Nat) (w3 : W64) : Bool := fn = 0 || !isRemote (signalVa w3)

/-- The first wheel position in `lo` to `hi` from a cycle on (R140). -/
def nextSlot (lo hi c : Nat) : Nat :=
  let p := c % Config.revolution
  c + (if lo ≤ p ∧ p < hi then 0 else (lo + Config.revolution - p) % Config.revolution)

/-- The first cycle in which an SC operation of the hub may still perform: SC operations perform first in their cycle (R216). -/
def scFrom (s : State) : Nat := if 1 ≤ s.phase ∧ s.phase ≤ 3 then s.cycle + 1 else s.cycle

/-- The cycle of the next wheel position of the CFE, or none where the present one is free: signal decrements, SIGNAL
writes and WAIT reads take one each (R140, R224). -/
def cfeSlot (s : State) : Option Nat :=
  if s.phase = 1 ∧ nextSlot 1536 1792 s.cycle = s.cycle ∧ s.wheel.1 ≠ s.cycle then none else some (nextSlot 1536 1792 (scFrom s))

/-- Do `f` at a wheel position of the CFE, which it takes: now, or else the step `i` is carried out at the next. -/
def atCfeSlot (i : Instr) (f : State → State) (s : State) : State :=
  match cfeSlot s with
  | none => f { s with wheel := (s.cycle, s.wheel.2) }
  | some c => s.at c i

/-- Carry out `i` at the CFE's turn: in this cycle, where its SC operations perform, else as soon as it can. -/
def cfeTurn (i : Instr) (s : State) : State := if s.phase = 1 then { s with due := s.due ++ [i] } else s.soon i

/-! ### The packet types (R70) -/

/-- NOP_PACKET: performs nothing and completes. -/
def execNopPacket (fn q : Nat) (s : State) : Res :=
  .next (match headOf s fn q 0 with
    | none => s
    | some p => if blockedByB s fn q p then passOver fn q s else startAndEnd fn q p 0 s)

/-- SIGNAL_PACKET: it is retired, and its write, of w5 to the signal's value, performs as it completes. -/
def execSignalPacket (fn q : Nat) (s : State) : Res :=
  .next (match headOf s fn q 3 with
    | none => s
    | some p => if blockedByB s fn q p then passOver fn q s else startAndEnd fn q p 0 s)

/-- The value of a WAIT's signal has been read: the packet completes when it is at most w5, signed; a fault posts one
notice until a read succeeds. -/
def waitResult (fn q : Nat) (p : Packet) (v : Option W64) (s : State) : State :=
  let x := s.queue fn q
  match v with
  | none =>
    let s := passOver fn q s
    if x.waitFault then s else signalFault fn q x.headEcq p.tag p.w3 (s.modQueue fn q fun x => { x with waitFault := true })
  | some v =>
    if v.toInt ≤ p.w5.toInt then cfeTurn (.waitPacket fn q) (s.modQueue fn q fun x => { x with tried := true, waitMet := true })
    else (s.modQueue fn q fun x => { x with tried := true, waitFault := false })

/-- Set the timer of the next re-read, 1 µs of the nanosecond clock from now. -/
def rereadLater (fn q : Nat) (s : State) : State := (s.cancel (.waitReread fn q)).afterNs 1000 (.waitReread fn q)

/-- Read the signal of a WAIT head through a remote window: the read leaves at a wheel position of the CFE, and takes one of the fabric
proxy at the hub of the signal (R224): DEDUCED (log entry 123). -/
def waitRemote (fn q : Nat) (p : Packet) (s : State) : State :=
  let (win, off) := remoteOf s fn (signalVa p.w3)
  let s := rereadLater fn q s
  if !win.v ∨ win.notify then waitResult fn q p none s
  else if s.klk.reqs.any fun r => r.why = .wait fn q then passOver fn q s
  else sendRequest win.dev fn win.tcid 0 off .signalRead (.wait fn q) (passOver fn q s)

/-- Read the signal of a WAIT head at this hub. Behind an operation held on the signal, and on a demand page, the read holds: it sets no
timer, and the operation, or DONE of the page, brings it back (R70, R72). -/
def waitLocal (fn q : Nat) (p : Packet) (s : State) : State :=
  let va := signalVa p.w3
  if s.sigHeld.any fun h => decide (h.cid = fn ∧ h.va = va) then passOver fn q s
  else
    match signalRead s fn va 8 with
    | .error (.demand pg) => pageRequest fn pg false (s.modQueue fn q fun x => { x with tried := true, waitHeld := some pg })
    | .error (.fault _ _) => waitResult fn q p none (rereadLater fn q s)
    | .ok (b, poison) =>
      waitResult fn q p (if poison.isEmpty then some (bv 64 (leNat b)) else none) (cfeRead fn va 8 (rereadLater fn q s))

/-- Read a WAIT's signal at a wheel position, unless the read holds. -/
def waitNow (fn q : Nat) (p : Packet) (s : State) : State :=
  if (s.queue fn q).waitHeld.isSome then passOver fn q s
  else atCfeSlot (.waitReread fn q) (if localSignal fn p.w3 then waitLocal fn q p else waitRemote fn q p) (s.cancel (.waitReread fn q))

/-- WAIT_PACKET: the signal is read when the WAIT becomes head; once its condition holds the WAIT completes. -/
def execWaitPacket (fn q : Nat) (s : State) : Res :=
  .next (match headOf s fn q 2 with
    | none => s
    | some p =>
      if (s.queue fn q).waitMet then startAndEnd fn q p 0 s
      else if blockedByB s fn q p then passOver fn q s else waitNow fn q p (passOver fn q s))

/-- WAIT_REREAD: the signal is read again, every 1 µs and after each CFE operation on it. -/
def execWaitReread (fn q : Nat) (s : State) : Res :=
  .next (match headOf s fn q 2 with
    | none => s
    | some p => if blockedByB s fn q p || (s.queue fn q).waitMet then s else waitNow fn q p s)

/-- LAUNCH_PACKET: the placer examines the head (R145); a FAILED VD completes it with its failing status (R114). -/
def execLaunchPacket (fn q : Nat) (s : State) : Res :=
  .next (match headOf s fn q 1 with
    | none => s
    | some p =>
      let v := s.vd fn
      if blockedByB s fn q p then passOver fn q s
      else if v.state = .failed then startAndEnd fn q p v.failStatus s
      else s.push (.admissionAttempt fn q))

/-- LAUNCH_AGING_STEP: the queue gains an aging level for each 10 ms that its head awaits admission; its effective
priority stays at most 7 (R69). -/
def execLaunchAgingStep (fn q : Nat) (s : State) : Res :=
  .next (match headOf s fn q 1 with
    | none => s
    | some _ =>
      if !(s.queue fn q).awaits then s
      else (s.modQueue fn q fun x => { x with aging := min (x.aging + 1) (7 - x.headPrio.toNat), tried := false }).afterNs 10000000
        (.launchAgingStep fn q))

/-- Whether a range of a VD meets the pages that an INVAL names: `n` pages from page `p` on, or all where `n` is 0 (R70). -/
def meetsPages (pages : Nat × Nat) (va n : Nat) : Bool :=
  decide (pages.2 = 0 ∨ (va / 65536 < pages.1 + pages.2 ∧ pages.1 * 65536 < va + n))

/-- The entries of a VD that translate pages named by an INVAL are dropped from every unit. -/
def tlbInval (cid : Nat) (pages : Nat × Nat) (s : State) : State :=
  { s with tlb := s.tlb.filter fun t =>
      !(decide (t.cid = cid) && meetsPages pages (t.key * 2 ^ (16 + 14 * t.lv)) (2 ^ (16 + 14 * t.lv))) }

/-- Whether a transfer has translated its device lines and not landed (R212). -/
def Xfer.translated (x : Xfer) : Bool :=
  !isRemote (dva x.ereg) && decide (x.state = .sent ∨ x.state = .performed ∨ x.state = .element)
    && match x.kind with | .put | .get | .sumF | .sumI => false | _ => true

/-- The accesses to memory of a VD that have performed in part, by the free value at which their choices begin: they have translated their
lines (R226). Those of the host's window are counted for every VD. -/
def tearsOf (s : State) (cid : Nat) : List Nat :=
  let runs := s.runs.filterMap fun r => if r.fn = cid then r.torn.map (·.f) else none
  let rings := s.queues.filterMap fun (i, x) => if i / 64 = cid then x.torn.map (·.f) else none
  let peers := s.klk.tornPeer.filterMap fun (r, t) => if r.tcid = cid then some t.f else none
  runs ++ rings ++ peers ++ (s.tornHost.map (·.f)).toList

/-- INVAL_PACKET: translations of the target are dropped; it completes after the transfers that used an old one
(R70, R212), and frames that its tables map now change hands (R56). -/
def execInvalPacket (fn q : Nat) (s : State) : Res :=
  .next (match headOf s fn q 6 with
    | none => s
    | some p =>
      if blockedByB s fn q p then passOver fn q s
      else
        let r := newRun fn q p s
        let s := (startPacket fn q p s).1
        let cid := p.w1.toNat
        let pages := (p.w2.toNat, p.w5.toNat)
        let used := s.xfers.filter fun x => decide (x.cid = cid) && x.translated && meetsPages pages (dva x.ereg) x.deviceBytes
        (settleFrames (setRun { r with waits := used.map (·.tid), tears := tearsOf s cid } (tlbInval cid pages s))).push (.invalCompletion r.id))

/-- INVAL_COMPLETION: every transfer, and every piece of a COPY or access of a peer, that used an old translation has landed. -/
def execInvalCompletion (id : Nat) (s : State) : Res :=
  .next (match runOf s id with
    | none => s
    | some r =>
      if (s.xfers.any fun x => r.waits.contains x.tid && x.translated) || (tearsOf s r.pkt.w1.toNat).any r.tears.contains then s.at (s.cycle + 1) (.invalCompletion id)
      else endRun r 0 0 s)

/-! ### COPY (R78-R80) -/

/-- COPY_PACKET: starts when its first chunk is issued; a length of 0 completes at once. -/
def execCopyPacket (fn q : Nat) (s : State) : Res :=
  .next (match headOf s fn q 4 with
    | none => s
    | some p =>
      if blockedByB s fn q p then passOver fn q s
      else if p.w5 = 0 then startAndEnd fn q p 0 s
      else let (s, id) := startPacket fn q p s; s.push (.copyChunk id))

/-- A side of a COPY: whether it is the host's, and its address. -/
def copySrc (p : Packet) : Bool × Nat :=
  (p.w4.getLsbD 16, p.w1.toNat + (if p.w4.getLsbD 16 then 0 else (p.w4.extractLsb' 0 8).toNat * 2 ^ 64))
def copyDst (p : Packet) : Bool × Nat :=
  (p.w4.getLsbD 17, p.w2.toNat + (if p.w4.getLsbD 17 then 0 else (p.w4.extractLsb' 8 8).toNat * 2 ^ 64))

/-- Bytes of the chunk that starts at byte `done` of a COPY. -/
def chunkLen (p : Packet) (done : Nat) : Nat := min 4096 (p.w5.toNat - done)

/-- Bytes of a piece of a chunk at an address: a piece does not cross the end of a remote window (R46). -/
def pieceLen (host : Bool) (a n : Nat) : Nat := if host then n else min n (2 ^ 65 - a % 2 ^ 65)

/-- A COPY ends at a fault: COPY_FAULT with the faulting VA >> 8 (R79). -/
def copyFault (r : Run) (va : Nat) (s : State) : State := endRun r 0x0501 (bv 64 (va / 256)) s

/-- A COPY goes on after the time that the hub takes. -/
def copyLater (r : Run) (s : State) : State := hubLater (.copyChunk r.id) (setRun r s)

/-- A COPY chunk has been written: the next, or the end. -/
def copyNext (r : Run) (n : Nat) (s : State) : State :=
  let r := { r with done := r.done + n, buf := none, put := 0, asked := false, held := none }
  if r.pkt.w5.toNat ≤ r.done then endRun r 0 (bv 64 (microJoule r.energy)) s else copyLater r s

/-- The cause or page that an error of a COPY's access names. -/
def copyError (r : Run) (write : Bool) (e : VaErr) (s : State) : State :=
  match e with
  | .demand p => pageRequest r.fn p write (setRun { r with held := some p } s)
  | .fault .sourceLost _ => endRun r 0x0404 (bv 64 (microJoule r.energy)) s
  | .fault _ va => copyFault r va s

/-- A piece of the chunk has been written. -/
def copyWrote (r : Run) (n : Nat) (s : State) : State :=
  let len := (r.buf.getD []).length
  if len ≤ r.put + n then copyNext r len s else copyLater { r with put := r.put + n, asked := false, held := none } s

/-- What a write of the MF to physical memory does beside: the frames of destroyed VDs that it meets are zeroed first, and frames change
hands where it has written page tables (R56, R115). -/
def mfWrites (pa n : Nat) (f : State → State) (s : State) : State :=
  let s := claimFrames pa n s
  noteTables s (f s)

/-- Write a piece of a COPY to device memory: its first words, and then the rest with its poison (R226). -/
def copyPut (r : Run) (d : Nat) (data : List (Byte × Bool)) (s : State) : State :=
  let bytes := data.map (·.1)
  let poison := taintLines d data
  match r.torn with
  | none =>
    (match translateAll (fnXlate s r.fn true) (lineParts d bytes.length) with
      | .error e => copyError r true e s
      | .ok lines =>
        let put := putFirst lines bytes poison
        copyLater { r with torn := some (newTorn lines s) } (if r.fn = 0 then mfWrites d bytes.length put s else put s))
  | some t =>
    let pj := sideEnergy s r.fn false d bytes.length
    let put := putRest t bytes poison
    copyWrote { r with torn := none, energy := r.energy + pj } bytes.length
      (estimate pj (if r.fn = 0 then mfWrites d bytes.length put s else put s))

/-- Write the next piece of the chunk that a COPY has read; its poison goes with it, per line (R79). -/
def copyWrite (r : Run) (s : State) : State :=
  let (host, d0) := copyDst r.pkt
  let d := d0 + r.done + r.put
  let left := (r.buf.getD []).drop r.put
  let n := pieceLen host d left.length
  let data := left.take n
  let bytes := data.map (·.1)
  if !host && decide (r.fn ≠ 0) && isRemote d then
    let (win, off) := remoteOf s r.fn d
    if !win.v ∨ win.notify then copyFault r d s
    else
      sendRequest win.dev r.fn win.tcid 0 off (.write bytes (taintLines off data)) (.copy r.id)
        (setRun { r with asked := true, energy := r.energy + klkEnergy n } (estimate (klkEnergy n) s))
  else if host then
    let pj := sideEnergy s r.fn true d n
    copyWrote { r with energy := r.energy + pj } n (estimate pj (hwrite s r.fn d bytes (taintLines d data)))
  else copyPut r d data s

/-- A piece of the chunk has been read; the chunk is written once it has been read wholly (R78). -/
def copyRead (r : Run) (data : List (Byte × Bool)) (s : State) : State :=
  let r := { r with buf := some ((r.buf.getD []) ++ data), asked := false, held := none }
  if chunkLen r.pkt r.done ≤ (r.buf.getD []).length then copyWrite r s else copyLater r s

/-- The next piece of the chunk that a COPY reads: whether it is the host's, its address and its length. -/
def copyPiece (r : Run) : Bool × Nat × Nat :=
  let (host, a0) := copySrc r.pkt
  let had := (r.buf.getD []).length
  (host, a0 + r.done + had, pieceLen host (a0 + r.done + had) (chunkLen r.pkt r.done - had))

/-- Whether the chunk has been read wholly. -/
def Run.full (r : Run) : Bool := decide (chunkLen r.pkt r.done ≤ (r.buf.getD []).length)

/-- Read the next piece of a chunk: what its first part finds, and then the rest (R226). -/
def copyAsk (r : Run) (s : State) : State :=
  let (host, a, n) := copyPiece r
  if !host && decide (r.fn ≠ 0) && isRemote a then
    let (win, off) := remoteOf s r.fn a
    if !win.v ∨ win.notify then copyFault r a s
    else
      sendRequest win.dev r.fn win.tcid 0 off (.read n) (.copy r.id)
        (setRun { r with asked := true, energy := r.energy + klkEnergy n } (estimate (klkEnergy n) s))
  else
    match r.torn with
    | none =>
      (match sideFirst s r.fn host a n with
        | .error e => copyError r false e s
        | .ok (s', t) => copyLater { r with torn := some t } (if host then hostReads r.fn a n false s' else s'))
    | some t =>
      let (b, poison) := sideRest t host a n s
      let pj := sideEnergy s r.fn host a n
      let s := if host ∨ r.fn = 0 then s else countRead s r.fn a n
      let s := if host ∧ poison ≠ [] then hostError r.fn r.q r.ecq .poisonedTlp r.pkt.tag 0x0501 (bv 64 (a / 256)) s else s
      copyRead { r with torn := none, energy := r.energy + pj } (taintBytes a b poison) (estimate pj s)

/-- COPY_CHUNK (R78): one chunk is read wholly, then written. While a migration suspends the VD's queues no chunk begins (R125), and
none goes on in a function that is being reset (R33, R38). -/
def execCopyChunk (id : Nat) (s : State) : Res :=
  .next (match runOf s id with
    | none => s
    | some r =>
      if r.ended || r.asked || !working s r.fn || (decide (r.fn ≠ 0) && r.buf.isNone && r.torn.isNone && (s.vd r.fn).suspended) then s
      else if r.full then copyWrite { r with held := none } s
      else copyAsk { r with held := none } s)

/-- The answer of a peer to a COPY's read or write. -/
def copyAnswer (id : Nat) (a : RemoteResp) (s : State) : State :=
  match runOf s id with
  | none => s
  | some r =>
    let r := { r with asked := false }
    let d := (copyDst r.pkt).2 + r.done + r.put
    if r.full then
      if a.status ≠ 0 then copyFault r d s
      else copyWrote r (pieceLen (copyDst r.pkt).1 d ((r.buf.getD []).length - r.put)) s
    else if a.status ≠ 0 then copyFault r (copyPiece r).2.1 s
    else copyRead r (taintBytes (remoteOf s r.fn (copyPiece r).2.1).2 a.data a.poison) s

/-! ### Completion (R72) -/

/-- The signal operation of a packet that completes: the write of a SIGNAL; else a decrement, unless it was rejected or is a WAIT. -/
def Run.signal (r : Run) : Option (Option W64) :=
  let p := r.pkt
  if r.signalled || decide (p.w3 = 0 ∨ r.status = 0x0103 ∨ p.type = 2) then none
  else some (if p.type = 3 then some p.w5 else none)

/-- A packet has completed: its entry is posted if I = 1, and heads that waited for it are examined again. -/
def runDone (r : Run) (s : State) : State :=
  let s := { s with runs := s.runs.filter fun x => x.id ≠ r.id }
  let s := if r.pkt.wantsEntry then
      cqSend { fn := r.fn, n := r.cq.toNat, ecq := r.ecq, w0 := cqEntry 0 r.q r.status r.pkt.tag, w1 := r.data } s
    else s
  s.modQueue r.fn r.q fun x => { x with tried := false }

/-- PACKET_COMPLETION: the signal operation performs, a local one at a wheel position of the CFE; then, at the CFE's turn, the packet
has completed (R72, R216). Nothing is posted for a function that is being reset, or whose TDI is in ERROR (R33, R38). -/
def execPacketCompletion (id : Nat) (s : State) : Res :=
  .next (match runOf s id with
    | none => s
    | some r =>
      let p := r.pkt
      if !working s r.fn then { s with runs := s.runs.filter fun x => x.id ≠ id }
      else match r.signal with
        | none => runDone r s
        | some w =>
          let op (s : State) : State := signalFor r.fn r.q r.ecq p.tag p.w3 w (setRun { r with signalled := true } s)
          if localSignal r.fn p.w3 then atCfeSlot (.packetCompletion id) (fun s => cfeTurn (.packetCompletion id) (op s)) s
          else runDone r (op s))

/-! ### Arbitration (R68) -/

/-- The event that examines a head. -/
def headEvent (fn q : Nat) (p : Packet) : Instr :=
  match p.type with
  | 0 => .nopPacket fn q
  | 1 => .launchPacket fn q
  | 2 => .waitPacket fn q
  | 3 => .signalPacket fn q
  | 4 => .copyPacket fn q
  | _ => .invalPacket fn q

/-- Effective priority of a queue's head: of the PRIO read with it (R94; log entry 124). -/
def effPrio (x : Queue) : Nat := min 7 (x.headPrio.toNat + x.aging)

/-- The order in which heads are examined: MF queues, then effective priority, then the rotation. -/
def headRank (rot : Nat) (i : Nat) (x : Queue) : Nat :=
  (if i < 64 then 0 else 8 - effPrio x) * 2 ^ 32 + (i + 2 ^ 20 - 1 - rot) % 2 ^ 20

/-- The next head for the CFE to examine: of a queue whose packets run, and that no migration suspends; a head read before GEN became
odd is acted on (R94). An evicted strand stands as an arrival of its own LAUNCH (R121). -/
def cfePick (s : State) : Option Instr :=
  let heads := s.queues.filterMap fun (i, x) =>
    match x.head with
    | some p => if x.tried || !takesWork s (i / 64) || (decide (64 ≤ i) && (s.vd (i / 64)).suspended) then none else some (headRank s.rot i x, headEvent (i / 64) (i % 64) p)
    | none => none
  let back := s.strands.filterMap fun (sid, t) =>
    if decide (t.state = .evicted) && !t.tried && !(s.vd t.cid).suspended then
      some ((8 - t.prio) * 2 ^ 32 + (64 * t.fn + t.q + 2 ^ 20 - 1 - s.rot) % 2 ^ 20, Instr.strandResume sid)
    else none
  ((sortBy (·.1) (heads ++ back)).head?).map (·.2)

/-! ### PAGE_DONE (R211) -/

/-- Carry out a list of operations in their turns among what performs in a cycle (R216). -/
def soonAll (l : List Instr) (s : State) : State := l.foldl (fun s i => s.soon i) s

/-- The entries that a CQ held on a page are posted, in order (R74). -/
def releaseCq (cid n : Nat) (s : State) : State :=
  let c := s.cq cid n
  let e (x : W64 × W64) : CqPost := { fn := cid, n := n, ecq := (s.queue cid (x.1.extractLsb' 8 8).toNat).ecq, w0 := x.1, w1 := x.2 }
  c.held.foldl (fun s x => cqSend (e x) s) (s.setCq cid n { c with held := [], heldPage := none })

/-- Every request held on a page is retried, each in its turn (R211); a WAIT's read that held on it too (R70). -/
def retryPage (cid page : Nat) (s : State) : State :=
  let v := s.vd cid
  let s := s.setVd cid { v with prq := { v.prq with openPages := v.prq.openPages.filter (· ≠ page),
                                                    waiting := v.prq.waiting.filter fun w => w.1 ≠ page } }
  let mine (x : Xfer) : Bool := decide (x.cid = cid) && decide (x.state = .held page)
  let tids := (s.xfers.filter mine).map (·.tid)
  let s := { s with xfers := s.xfers.map fun x => if mine x then { x with state := .waiting } else x }
  let rings := (s.queues.filter fun (i, x) => decide (i / 64 = cid) && decide (x.held = some page)).map (·.1)
  let waits := (s.queues.filter fun (i, x) => decide (i / 64 = cid) && decide (x.waitHeld = some page)).map (·.1)
  let s := { s with queues := tmap s.queues fun i x =>
               if i / 64 ≠ cid then x
               else { x with tried := false, held := if x.held = some page then none else x.held
                             waitHeld := if x.waitHeld = some page then none else x.waitHeld } }
  let s := soonAll (tids.map Instr.transferDispatch ++ rings.map (fun i => Instr.packetFetch cid (i % 64))
    ++ waits.map fun i => Instr.waitReread cid (i % 64)) s
  let cqs := (s.cqs.filter fun (i, c) => decide (i / 64 = cid) && decide (c.heldPage = some page)).map (·.1)
  let s := cqs.foldl (fun s i => releaseCq cid (i % 64) s) s
  let mineOp (o : SigOp) : Bool := decide (o.cid = cid ∧ o.page = page)
  let s := if s.sigHeld.any mineOp then
      { s with sigHeld := s.sigHeld.map fun o => if mineOp o then { o with page := freedPage } else o }.soon (.pageDone cid freedPage)
    else s
  let copies := (s.runs.filter fun r => decide (r.fn = cid) && decide (r.held = some page)).map (·.id)
  let peers := s.klk.heldPeer.filter fun (p, r) => decide (p = page ∧ r.tcid = cid)
  let s := { s with klk := { s.klk with heldPeer := s.klk.heldPeer.filter fun (p, r) => !decide (p = page ∧ r.tcid = cid) } }
  let logs := (s.wm.meters.filter fun (_, m) => decide (m.cid.toNat = cid) && !m.waiting.isEmpty).map (·.1)
  let stg := (s.strands.filter fun (_, t) => decide (t.cid = cid) && decide (t.state = .staging)).map (·.1)
  let dump := if (s.vd cid).dbg.busy && decide ((s.vd cid).dbg.goOp = 5#3) then [Instr.debugDump cid] else []
  let att := if (s.vd cid).att.held then [Instr.attestationReportWrite cid] else []
  soonAll (copies.map Instr.copyChunk ++ peers.map (fun (_, r) => Instr.peerRequestArrival r) ++ logs.map Instr.meterRecordWrite
    ++ dump ++ att ++ stg.map Instr.containerStaging ++ [.pageRequestPost cid]) (settleFrames s)

/-- PAGE_DONE: every request held on the page is retried; the signal operations take a wheel position each (R224). -/
def execPageDone (cid page : Nat) (s : State) : Res :=
  .next (if page = freedPage then atCfeSlot (.pageDone cid freedPage) (releaseOne cid) s else retryPage cid page s)

end Sys2Proof.Machine
end

