-- ==== Sys2Proof/WellFormed.lean ====
section
/-! DEFINITION. Which terms of `Instr` are instructions: the limits that R301 and R303-R311 put on the operand
fields of every encoding, and the ranges of the operands of the events. -/

namespace Sys2Proof

/-- A short form has an idle count of 0-3 and no guard field (R299). -/
def Hd.isShort (h : Hd) : Bool := decide (h.idle.toNat < 4) && decide (h.g = 0)

/-- A long form of an unguarded format has no guard field (R302). -/
def Hd.unguarded (h : Hd) : Bool := decide (h.g = 0)

/-- A system instruction carries no token (R405). -/
def Hd.isFirmware (h : Hd) : Bool := decide (h.tok = 0)

/-- The stated limits of the operand fields (R301, R303-R311): p0 does not exist, a SYNC domain is 0-5, a
state register 0-9, a slot range ends at o31, and so on. For an event: its function, queue, core and table
indices exist (R23, R57, R96, R107, R132). -/
def Instr.wellFormed : Instr → Bool
  | .coldReset => true
  | .powerUpSequence => true
  | .railFault => true
  | .firmwareBoot => true
  | .junctionSensorRead temps => decide (temps.length = 5)
  | .governorRevolution _ => true
  | .ceilingSet ceil => decide (ceil ≤ 13)
  | .hbPwrCapWrite _ => true
  | .hbmRefresh => true
  | .hotReset => true
  | .mfFlr => true
  | .pfFlr pf => decide (1 ≤ pf ∧ pf ≤ 32)
  | .vfFlr fn => decide (fn ≤ 288)
  | .vfEnableWrite pf _ => decide (1 ≤ pf ∧ pf ≤ 32)
  | .numvfsWrite pf n => decide (1 ≤ pf ∧ pf ≤ 32 ∧ n ≤ 64)
  | .tdispRequest fn _ => decide (fn ≤ 288)
  | .ideKeyProgramming stream _ => decide (stream ≤ 32)
  | .hostBar2Read fn a _ => decide (fn ≤ 288) && a.ide.all (· ≤ 32)
  | .hostBar2Write fn _ _ _ ide => decide (fn ≤ 288) && ide.all (· ≤ 32)
  | .mfApertureAccess a _ _ => a.ide.all (· ≤ 32)
  | .undecodedRequest _ => true
  | .hostReadCompletionTimeout fn q => decide (fn ≤ 288 ∧ q.q < 64)
  | .msixVectorUnmask fn vec => decide (fn ≤ 288 ∧ vec < 64)
  | .registerWrite fn a size _ => decide (fn ≤ 288 ∧ (size = 4 ∨ size = 8)) && a.ide.all (· ≤ 32)
  | .hbActDenyRead => true
  | .klkFlitReceive port _ => decide (port < 16)
  | .klkNakReceive port _ => decide (port < 16)
  | .klkAckReceive port _ => decide (port < 16)
  | .klkPortTrained port => decide (port < 16)
  | .klkRetrainTimeout port => decide (port < 16)
  | .hbKlkIdWrite _ => true
  | .hbKlkRouteWrite dst _ => decide (dst < 1024)
  | .routeChangeApply dst => decide (dst < 1024)
  | .klkRequestTimeout _ => true
  | .peerRequestArrival _ => true
  | .barrierArrival gid _ _ => decide (gid < 65536)
  | .barrierRelease gid _ => decide (gid < 65536)
  | .notify fn q _ => decide (fn ≤ 288 ∧ q < 64)
  | .queueDisable fn q => decide (fn ≤ 288 ∧ q < 64)
  | .queueEnable fn q => decide (fn ≤ 288 ∧ q < 64)
  | .packetFetch fn q => decide (fn ≤ 288 ∧ q < 64)
  | .nopPacket fn q => decide (fn ≤ 288 ∧ q < 64)
  | .launchPacket fn q => decide (fn ≤ 288 ∧ q < 64)
  | .waitPacket fn q => decide (fn ≤ 288 ∧ q < 64)
  | .signalPacket fn q => decide (fn ≤ 288 ∧ q < 64)
  | .copyPacket fn q => decide (fn ≤ 288 ∧ q < 64)
  | .invalPacket fn q => decide (fn ≤ 288 ∧ q < 64)
  | .waitReread fn q => decide (fn ≤ 288 ∧ q < 64)
  | .launchAgingStep fn q => decide (fn ≤ 288 ∧ q < 64)
  | .copyChunk _ => true
  | .invalCompletion _ => true
  | .packetCompletion _ => true
  | .cqEnable fn n _ => decide (fn ≤ 288 ∧ n < 64)
  | .cqCoalesceTimeout fn n => decide (fn ≤ 288 ∧ n < 64)
  | .attestationRequest fn _ => decide (fn ≤ 288)
  | .attestationReportWrite fn => decide (fn ≤ 288)
  | .firmwareWatchdogExpiry core => decide (core < 1536)
  | .coreLockout core => decide (core < 1536)
  | .cobblerEventDispatch core => decide (core < 1536)
  | .meterOpen i => decide (i < 4096)
  | .meterSeal i => decide (i < 4096)
  | .meterRetire i => decide (i < 4096)
  | .meterCheckpoint => true
  | .meterRecordWrite i => decide (i < 4096)
  | .tenantLogRidxWrite cid _ => decide (cid ≤ 288)
  | .meterContinuation => true
  | .partitionCreate n _ => decide (1 ≤ n ∧ n ≤ 32)
  | .partitionResize n _ => decide (1 ≤ n ∧ n ≤ 32)
  | .partitionRemove n => decide (1 ≤ n ∧ n ≤ 32)
  | .vdCreate => true
  | .vdDestroy => true
  | .vdCreateIncoming => true
  | .strandPark _ _ => true
  | .strandUnpark _ _ => true
  | .evictionRequest _ => true
  | .evictionDrain _ => true
  | .evictionSave _ => true
  | .strandResume _ => true
  | .leaseExpiry _ => true
  | .migrationStart => true
  | .migrationPrecopyRound => true
  | .migrationStop => true
  | .migrationAbort => true
  | .migrationLinkLost => true
  | .migrationFinalArrival cid _ => decide (cid ≤ 288)
  | .postcopyPagePull cid _ => decide (cid ≤ 288)
  | .postcopyPagePush cid => decide (cid ≤ 288)
  | .postcopyPageArrival cid _ _ => decide (cid ≤ 288)
  | .postcopyPullTimeout cid _ => decide (cid ≤ 288)
  | .admissionAttempt fn q => decide (fn ≤ 288 ∧ q < 64)
  | .containerStaging _ => true
  | .startDecision _ => true
  | .weaveSwitch core => decide (core < 1536)
  | .rephaseSwitch _ => true
  | .ownerDepart core wid => decide (core < 1536 ∧ wid < 8)
  | .nsclkWrite _ => true
  | .transferDispatch _ => true
  | .pageRequestPost cid => decide (cid ≤ 288)
  | .pageDone cid _ => decide (cid ≤ 288)
  | .prqEnable cid _ => decide (cid ≤ 288)
  | .transferLanding _ _ => true
  | .remotePutArrival _ => true
  | .scOperationPerform _ => true
  | .syncStallEnd _ => true
  | .strandWatchdogExpiry _ => true
  | .resultWriteback core wid => decide (core < 1536 ∧ wid < 8)
  | .asyncFaultReport _ => true
  | .strandStop _ => true
  | .faultRingEnable fn _ => decide (fn ≤ 288)
  | .debugHalt cid => decide (cid ≤ 288)
  | .debugResume cid => decide (cid ≤ 288)
  | .breakpointSet cid => decide (cid ≤ 288)
  | .breakpointClear cid => decide (cid ≤ 288)
  | .debugDump cid => decide (cid ≤ 288)
  | .debugRelease cid => decide (cid ≤ 288)
  | .traceEnable cid _ => decide (cid ≤ 288)
  | .cseDone core => decide (core < 1536)
  | .xphyDone core _ => decide (core < 1536)
  | .rcRegisterRead fn a => decide (fn ≤ 288) && a.ide.all (· ≤ 32)
  | .pcieLinkTraining _ _ _ => true
  | .klkPortDown port => decide (port < 16)
  | .zfillZeroed core => decide (core < 1536)
  | .postcopySourceFree cid => decide (cid ≤ 288)
  | .blockHeader len cs _ cnt =>
    decide (len ≠ 0) && (if cs = 0 then decide (cnt ≠ 0) else decide (cnt.toNat < 8))
  | .nop h => h.isShort
  | .endS h => h.isShort
  | .idle h _ => h.unguarded
  | .join h _ => h.unguarded
  | .sync h a _ => h.unguarded && decide (a.toNat ≤ 5)
  | .mark h _ => h.unguarded
  | .inc h _ => h.isShort
  | .dec h _ => h.isShort
  | .neg h _ => h.isShort
  | .not h _ => h.isShort
  | .clr h _ => h.isShort
  | .pclr h a => h.isShort && decide (a ≠ 0)
  | .pset h a => h.isShort && decide (a ≠ 0)
  | .pnot h a => h.isShort && decide (a ≠ 0)
  | .rdtk h _ => h.isShort
  | .add _ _ _ _ => true
  | .sub _ _ _ _ => true
  | .and _ _ _ _ => true
  | .or _ _ _ _ => true
  | .xor _ _ _ _ => true
  | .shl _ _ _ _ => true
  | .shr _ _ _ _ => true
  | .sar _ _ _ _ => true
  | .mul _ _ _ _ => true
  | .mulh _ _ _ _ => true
  | .mulhu _ _ _ _ => true
  | .min _ _ _ _ => true
  | .max _ _ _ _ => true
  | .minu _ _ _ _ => true
  | .maxu _ _ _ _ => true
  | .rotl _ _ _ _ => true
  | .rotr _ _ _ _ => true
  | .div _ _ _ _ => true
  | .divu _ _ _ _ => true
  | .rem _ _ _ _ => true
  | .remu _ _ _ _ => true
  | .clz _ _ _ => true
  | .ctz _ _ _ => true
  | .popc _ _ _ => true
  | .abs _ _ _ => true
  | .sextB _ _ _ => true
  | .sextH _ _ _ => true
  | .sextW _ _ _ => true
  | .zextB _ _ _ => true
  | .zextH _ _ _ => true
  | .zextW _ _ _ => true
  | .bswap _ _ _ => true
  | .sel h s _ _ _ => h.unguarded && decide (s ≠ 0)
  | .csel h s _ _ _ => h.unguarded && decide (s ≠ 0)
  | .ceq _ a _ _ => decide (a ≠ 0)
  | .cne _ a _ _ => decide (a ≠ 0)
  | .clt _ a _ _ => decide (a ≠ 0)
  | .cltu _ a _ _ => decide (a ≠ 0)
  | .cle _ a _ _ => decide (a ≠ 0)
  | .cleu _ a _ _ => decide (a ≠ 0)
  | .addi _ _ _ => true
  | .andi _ _ _ => true
  | .ori _ _ _ => true
  | .xori _ _ _ => true
  | .shli _ _ _ => true
  | .shri _ _ _ => true
  | .sari _ _ _ => true
  | .ceqi _ _ p _ => decide (p ≠ 0)
  | .clti _ _ p _ => decide (p ≠ 0)
  | .cltui _ _ p _ => decide (p ≠ 0)
  | .movi h _ _ => h.unguarded
  | .movh h _ _ => h.unguarded
  | .ldB _ _ _ _ => true
  | .ldBu _ _ _ _ => true
  | .ldH _ _ _ _ => true
  | .ldHu _ _ _ _ => true
  | .ldW _ _ _ _ => true
  | .ldWu _ _ _ _ => true
  | .ldD _ _ _ _ => true
  | .ldsD _ _ _ _ => true
  | .stB _ _ _ _ => true
  | .stH _ _ _ _ => true
  | .stW _ _ _ _ => true
  | .stD _ _ _ _ => true
  | .rdl _ _ _ => true
  | .rds _ _ k => decide (k.toNat ≤ 9)
  | .setlc _ _ _ => true
  | .ags _ _ _ c => decide (c.toNat ≤ 4)
  | .pute _ _ _ => true
  | .fmt _ _ => true
  | .pand _ a b c => decide (a ≠ 0 ∧ b ≠ 0 ∧ c ≠ 0)
  | .por _ a b c => decide (a ≠ 0 ∧ b ≠ 0 ∧ c ≠ 0)
  | .pxor _ a b c => decide (a ≠ 0 ∧ b ≠ 0 ∧ c ≠ 0)
  | .pmov _ a b => decide (a ≠ 0 ∧ b ≠ 0)
  | .trap h _ _ => h.unguarded
  | .claim _ oa n => decide (oa.toNat + n.toNat ≤ 31)
  | .release _ oa n => decide (oa.toNat + n.toNat ≤ 31)
  | .ldta _ _ _ => true
  | .ldtb _ _ _ => true
  | .lde _ _ _ => true
  | .ldtf _ oa _ n => decide (oa.toNat + n.toNat ≤ 31)
  | .ldvW _ _ _ => true
  | .ldvH _ _ _ => true
  | .ldvHu _ _ _ => true
  | .ldvB _ _ _ => true
  | .ldvBu _ _ _ => true
  | .ldvrW _ _ _ => true
  | .ldvcW _ _ _ => true
  | .ldg h _ _ _ _ => h.unguarded
  | .mma _ _ _ => true
  | .mmaw _ oa n => decide (oa.toNat ≤ 29 ∧ n.toNat ≤ 29)
  | .radv _ => true
  | .rskip _ => true
  | .tcfg _ oa w => decide (oa.toNat ≤ 10 ∧ w.toNat ≤ 2)
  | .teval _ oa => decide (oa.toNat ≤ 28)
  | .tmask _ _ => true
  | .tclr _ => true
  | .mclr _ => true
  | .wrs h _ k => h.isFirmware && decide (k.toNat ≤ 0x0E)
  | .rdsp h _ k => h.isFirmware && decide (k.toNat ≤ 0x0E)
  | .eret h => h.isFirmware
  | .waitev h _ _ => h.isFirmware
  | .wvset h _ _ => h.isFirmware
  | .cse h _ _ _ => h.isFirmware
  | .zfill h _ _ => h.isFirmware
  | .park h _ _ _ => h.isFirmware
  | .unpark h _ _ _ => h.isFirmware
  | .xphy h _ _ _ => h.isFirmware
  | .stvW _ _ _ => true
  | .stvH _ _ _ => true
  | .stvHs _ _ _ => true
  | .stvB _ _ _ => true
  | .stvBs _ _ _ => true
  | .stvc _ _ _ _ _ => true
  | .xrd _ _ _ _ _ => true
  | .xrdSp _ _ _ _ _ => true
  | .xrdm _ _ _ _ _ => true
  | .xwr _ _ _ _ _ => true
  | .xwrZ _ _ _ _ _ => true
  | .xput _ _ _ _ _ => true
  | .xget _ _ _ _ _ => true
  | .xsumF _ _ _ _ _ => true
  | .xsumI _ _ _ _ _ => true
  | .xatAdd _ _ _ _ _ => true
  | .xatSwp _ _ _ _ _ => true
  | .xatCas _ e _ _ _ => decide (e.toNat ≤ 2)
  | .xatMax _ _ _ _ _ => true
  | .xatMin _ _ _ _ _ => true
  | .xatAnd _ _ _ _ _ => true
  | .xatOr _ _ _ _ _ => true
  | .xatXor _ _ _ _ _ => true
  | .xscLd _ _ _ _ _ => true
  | .xscSt _ _ _ _ _ => true
  | .xscAdd _ _ _ _ _ => true
  | .xscSwp _ _ _ _ _ => true
  | .xscCas _ e _ _ _ => decide (e.toNat ≤ 2)
  | .xscMax _ _ _ _ _ => true
  | .fence h _ => h.unguarded
  | .xpop _ a _ => decide (a ≠ 0)
  | .xpeek _ a _ => decide (a ≠ 0)
  | .vzero h _ => h.isShort
  | .vfadd _ _ _ _ => true
  | .vfsub _ _ _ _ => true
  | .vfmul _ _ _ _ => true
  | .vfma _ _ _ _ => true
  | .vfms _ _ _ _ => true
  | .vfnma _ _ _ _ => true
  | .vfnms _ _ _ _ => true
  | .vfdiv _ _ _ _ => true
  | .vfmin _ _ _ _ => true
  | .vfmax _ _ _ _ => true
  | .vfabs _ _ _ => true
  | .vfneg _ _ _ => true
  | .vffloor _ _ _ => true
  | .vfround _ _ _ => true
  | .vfclass _ _ _ => true
  | .vfrcp _ _ _ => true
  | .vfsqrt _ _ _ => true
  | .vfrsq _ _ _ => true
  | .vfexp2 _ _ _ => true
  | .vflog2 _ _ _ => true
  | .vftanh _ _ _ => true
  | .vfsigm _ _ _ => true
  | .vadd _ _ _ _ => true
  | .vsub _ _ _ _ => true
  | .vadds _ _ _ _ => true
  | .vsubs _ _ _ _ => true
  | .vmul _ _ _ _ => true
  | .vmulh _ _ _ _ => true
  | .vmin _ _ _ _ => true
  | .vmax _ _ _ _ => true
  | .vminu _ _ _ _ => true
  | .vmaxu _ _ _ _ => true
  | .vabs _ _ _ => true
  | .vand _ _ _ _ => true
  | .vor _ _ _ _ => true
  | .vxor _ _ _ _ => true
  | .vnot _ _ _ => true
  | .vshl _ _ _ _ => true
  | .vshr _ _ _ _ => true
  | .vsar _ _ _ _ => true
  | .vshli h _ _ _ => h.unguarded
  | .vshri h _ _ _ => h.unguarded
  | .vsari h _ _ _ => h.unguarded
  | .vpopc _ _ _ => true
  | .vclz _ _ _ => true
  | .vctz _ _ _ => true
  | .vclmulL _ _ _ _ => true
  | .vclmulH _ _ _ _ => true
  | .vdot2Bf _ _ _ _ => true
  | .vdot4I8 _ _ _ _ => true
  | .vfcmpEq _ _ _ _ => true
  | .vfcmpNe _ _ _ _ => true
  | .vfcmpLt _ _ _ _ => true
  | .vfcmpLe _ _ _ _ => true
  | .vfcmpUn _ _ _ _ => true
  | .vcmpEq _ _ _ _ => true
  | .vcmpNe _ _ _ _ => true
  | .vcmpLt _ _ _ _ => true
  | .vcmpLe _ _ _ _ => true
  | .vcmpLtu _ _ _ _ => true
  | .vcmpLeu _ _ _ _ => true
  | .vmov _ _ _ => true
  | .vspl _ _ _ => true
  | .vimm _ _ _ => true
  | .vsel h _ _ _ _ _ => h.unguarded
  | .mand _ _ _ _ => true
  | .mor _ _ _ _ => true
  | .mxor _ _ _ _ => true
  | .mnot _ _ _ => true
  | .vany _ _ _ => true
  | .vall _ _ _ => true
  | .vlam _ _ => true
  | .vmpack _ _ _ => true
  | .vmunpk _ _ _ => true
  | .vcvtFi _ _ _ => true
  | .vcvtIf _ _ _ => true
  | .vcvtFb _ _ _ => true
  | .vcvtBf _ _ _ => true
  | .vcvtFk _ _ _ => true
  | .vquant h _ _ _ s => h.unguarded && decide (s.toNat ≤ 2)
  | .vqexp h _ _ _ s => h.unguarded && decide (s.toNat ≤ 2)
  | .vrotR h _ _ _ _ => h.unguarded
  | .vrotC h _ _ _ _ => h.unguarded
  | .vbcR h _ _ _ _ => h.unguarded
  | .vbcC h _ _ _ _ => h.unguarded
  | .vpermR h _ _ _ _ => h.unguarded
  | .vpermC h _ _ _ _ => h.unguarded
  | .vredRFadd h _ _ _ => h.unguarded
  | .vredRIadd h _ _ _ => h.unguarded
  | .vredRXor h _ _ _ => h.unguarded
  | .vredRMax h _ _ _ => h.unguarded
  | .vredRMin h _ _ _ => h.unguarded
  | .vredCFadd h _ _ _ => h.unguarded
  | .vredCIadd h _ _ _ => h.unguarded
  | .vredCXor h _ _ _ => h.unguarded
  | .vredCMax h _ _ _ => h.unguarded
  | .vredCMin h _ _ _ => h.unguarded
  | .vscanRFadd h _ _ _ => h.unguarded
  | .vscanRIadd h _ _ _ => h.unguarded
  | .vscanRXor h _ _ _ => h.unguarded
  | .vscanCFadd h _ _ _ => h.unguarded
  | .vscanCIadd h _ _ _ => h.unguarded
  | .vscanCXor h _ _ _ => h.unguarded
  | .vcpr h _ _ _ _ => h.unguarded
  | .vidx _ _ => true
  | .rpop _ _ _ => true
  | .rfree _ => true
  | .vbrev _ _ _ => true

/-- The streams whose section may hold an instruction (R304-R311): the common ones stand on every stream, the C
stream's in an owner's C section and in Cobbler's image, the system instructions in Cobbler's image only (R307). An
event stands on none. -/
def Instr.onStream (st : StreamId) : Instr → Bool
  | .coldReset => false
  | .powerUpSequence => false
  | .railFault => false
  | .firmwareBoot => false
  | .junctionSensorRead _ => false
  | .governorRevolution _ => false
  | .ceilingSet _ => false
  | .hbPwrCapWrite _ => false
  | .hbmRefresh => false
  | .hotReset => false
  | .mfFlr => false
  | .pfFlr _ => false
  | .vfFlr _ => false
  | .vfEnableWrite _ _ => false
  | .numvfsWrite _ _ => false
  | .tdispRequest _ _ => false
  | .ideKeyProgramming _ _ => false
  | .hostBar2Read _ _ _ => false
  | .hostBar2Write _ _ _ _ _ => false
  | .mfApertureAccess _ _ _ => false
  | .undecodedRequest _ => false
  | .hostReadCompletionTimeout _ _ => false
  | .msixVectorUnmask _ _ => false
  | .registerWrite _ _ _ _ => false
  | .hbActDenyRead => false
  | .klkFlitReceive _ _ => false
  | .klkNakReceive _ _ => false
  | .klkAckReceive _ _ => false
  | .klkPortTrained _ => false
  | .klkRetrainTimeout _ => false
  | .hbKlkIdWrite _ => false
  | .hbKlkRouteWrite _ _ => false
  | .routeChangeApply _ => false
  | .klkRequestTimeout _ => false
  | .peerRequestArrival _ => false
  | .barrierArrival _ _ _ => false
  | .barrierRelease _ _ => false
  | .notify _ _ _ => false
  | .queueDisable _ _ => false
  | .queueEnable _ _ => false
  | .packetFetch _ _ => false
  | .nopPacket _ _ => false
  | .launchPacket _ _ => false
  | .waitPacket _ _ => false
  | .signalPacket _ _ => false
  | .copyPacket _ _ => false
  | .invalPacket _ _ => false
  | .waitReread _ _ => false
  | .launchAgingStep _ _ => false
  | .copyChunk _ => false
  | .invalCompletion _ => false
  | .packetCompletion _ => false
  | .cqEnable _ _ _ => false
  | .cqCoalesceTimeout _ _ => false
  | .attestationRequest _ _ => false
  | .attestationReportWrite _ => false
  | .firmwareWatchdogExpiry _ => false
  | .coreLockout _ => false
  | .cobblerEventDispatch _ => false
  | .meterOpen _ => false
  | .meterSeal _ => false
  | .meterRetire _ => false
  | .meterCheckpoint => false
  | .meterRecordWrite _ => false
  | .tenantLogRidxWrite _ _ => false
  | .meterContinuation => false
  | .partitionCreate _ _ => false
  | .partitionResize _ _ => false
  | .partitionRemove _ => false
  | .vdCreate => false
  | .vdDestroy => false
  | .vdCreateIncoming => false
  | .strandPark _ _ => false
  | .strandUnpark _ _ => false
  | .evictionRequest _ => false
  | .evictionDrain _ => false
  | .evictionSave _ => false
  | .strandResume _ => false
  | .leaseExpiry _ => false
  | .migrationStart => false
  | .migrationPrecopyRound => false
  | .migrationStop => false
  | .migrationAbort => false
  | .migrationLinkLost => false
  | .migrationFinalArrival _ _ => false
  | .postcopyPagePull _ _ => false
  | .postcopyPagePush _ => false
  | .postcopyPageArrival _ _ _ => false
  | .postcopyPullTimeout _ _ => false
  | .admissionAttempt _ _ => false
  | .containerStaging _ => false
  | .startDecision _ => false
  | .weaveSwitch _ => false
  | .rephaseSwitch _ => false
  | .ownerDepart _ _ => false
  | .nsclkWrite _ => false
  | .transferDispatch _ => false
  | .pageRequestPost _ => false
  | .pageDone _ _ => false
  | .prqEnable _ _ => false
  | .transferLanding _ _ => false
  | .remotePutArrival _ => false
  | .scOperationPerform _ => false
  | .syncStallEnd _ => false
  | .strandWatchdogExpiry _ => false
  | .resultWriteback _ _ => false
  | .asyncFaultReport _ => false
  | .strandStop _ => false
  | .faultRingEnable _ _ => false
  | .debugHalt _ => false
  | .debugResume _ => false
  | .breakpointSet _ => false
  | .breakpointClear _ => false
  | .debugDump _ => false
  | .debugRelease _ => false
  | .traceEnable _ _ => false
  | .cseDone _ => false
  | .xphyDone _ _ => false
  | .rcRegisterRead _ _ => false
  | .pcieLinkTraining _ _ _ => false
  | .klkPortDown _ => false
  | .zfillZeroed _ => false
  | .postcopySourceFree _ => false
  | .blockHeader _ _ _ _ => true
  | .nop _ => true
  | .endS _ => true
  | .idle _ _ => true
  | .join _ _ => true
  | .sync _ _ _ => true
  | .mark _ _ => true
  | .inc _ _ => st == .c || st == .f
  | .dec _ _ => st == .c || st == .f
  | .neg _ _ => st == .c || st == .f
  | .not _ _ => st == .c || st == .f
  | .clr _ _ => st == .c || st == .f
  | .pclr _ _ => st == .c || st == .f
  | .pset _ _ => st == .c || st == .f
  | .pnot _ _ => st == .c || st == .f
  | .rdtk _ _ => st == .c || st == .f
  | .add _ _ _ _ => st == .c || st == .f
  | .sub _ _ _ _ => st == .c || st == .f
  | .and _ _ _ _ => st == .c || st == .f
  | .or _ _ _ _ => st == .c || st == .f
  | .xor _ _ _ _ => st == .c || st == .f
  | .shl _ _ _ _ => st == .c || st == .f
  | .shr _ _ _ _ => st == .c || st == .f
  | .sar _ _ _ _ => st == .c || st == .f
  | .mul _ _ _ _ => st == .c || st == .f
  | .mulh _ _ _ _ => st == .c || st == .f
  | .mulhu _ _ _ _ => st == .c || st == .f
  | .min _ _ _ _ => st == .c || st == .f
  | .max _ _ _ _ => st == .c || st == .f
  | .minu _ _ _ _ => st == .c || st == .f
  | .maxu _ _ _ _ => st == .c || st == .f
  | .rotl _ _ _ _ => st == .c || st == .f
  | .rotr _ _ _ _ => st == .c || st == .f
  | .div _ _ _ _ => st == .c || st == .f
  | .divu _ _ _ _ => st == .c || st == .f
  | .rem _ _ _ _ => st == .c || st == .f
  | .remu _ _ _ _ => st == .c || st == .f
  | .clz _ _ _ => st == .c || st == .f
  | .ctz _ _ _ => st == .c || st == .f
  | .popc _ _ _ => st == .c || st == .f
  | .abs _ _ _ => st == .c || st == .f
  | .sextB _ _ _ => st == .c || st == .f
  | .sextH _ _ _ => st == .c || st == .f
  | .sextW _ _ _ => st == .c || st == .f
  | .zextB _ _ _ => st == .c || st == .f
  | .zextH _ _ _ => st == .c || st == .f
  | .zextW _ _ _ => st == .c || st == .f
  | .bswap _ _ _ => st == .c || st == .f
  | .sel _ _ _ _ _ => st == .c || st == .f
  | .csel _ _ _ _ _ => st == .c || st == .f
  | .ceq _ _ _ _ => st == .c || st == .f
  | .cne _ _ _ _ => st == .c || st == .f
  | .clt _ _ _ _ => st == .c || st == .f
  | .cltu _ _ _ _ => st == .c || st == .f
  | .cle _ _ _ _ => st == .c || st == .f
  | .cleu _ _ _ _ => st == .c || st == .f
  | .addi _ _ _ => st == .c || st == .f
  | .andi _ _ _ => st == .c || st == .f
  | .ori _ _ _ => st == .c || st == .f
  | .xori _ _ _ => st == .c || st == .f
  | .shli _ _ _ => st == .c || st == .f
  | .shri _ _ _ => st == .c || st == .f
  | .sari _ _ _ => st == .c || st == .f
  | .ceqi _ _ _ _ => st == .c || st == .f
  | .clti _ _ _ _ => st == .c || st == .f
  | .cltui _ _ _ _ => st == .c || st == .f
  | .movi _ _ _ => st == .c || st == .f
  | .movh _ _ _ => st == .c || st == .f
  | .ldB _ _ _ _ => st == .c || st == .f
  | .ldBu _ _ _ _ => st == .c || st == .f
  | .ldH _ _ _ _ => st == .c || st == .f
  | .ldHu _ _ _ _ => st == .c || st == .f
  | .ldW _ _ _ _ => st == .c || st == .f
  | .ldWu _ _ _ _ => st == .c || st == .f
  | .ldD _ _ _ _ => st == .c || st == .f
  | .ldsD _ _ _ _ => st == .c || st == .f
  | .stB _ _ _ _ => st == .c || st == .f
  | .stH _ _ _ _ => st == .c || st == .f
  | .stW _ _ _ _ => st == .c || st == .f
  | .stD _ _ _ _ => st == .c || st == .f
  | .rdl _ _ _ => st == .c || st == .f
  | .rds _ _ _ => st == .c || st == .f
  | .setlc _ _ _ => st == .c || st == .f
  | .ags _ _ _ _ => st == .c || st == .f
  | .pute _ _ _ => st == .c || st == .f
  | .fmt _ _ => st == .c || st == .f
  | .pand _ _ _ _ => st == .c || st == .f
  | .por _ _ _ _ => st == .c || st == .f
  | .pxor _ _ _ _ => st == .c || st == .f
  | .pmov _ _ _ => st == .c || st == .f
  | .trap _ _ _ => st == .c || st == .f
  | .claim _ _ _ => st == .l
  | .release _ _ _ => st == .l
  | .ldta _ _ _ => st == .l
  | .ldtb _ _ _ => st == .l
  | .lde _ _ _ => st == .l
  | .ldtf _ _ _ _ => st == .l
  | .ldvW _ _ _ => st == .l
  | .ldvH _ _ _ => st == .l
  | .ldvHu _ _ _ => st == .l
  | .ldvB _ _ _ => st == .l
  | .ldvBu _ _ _ => st == .l
  | .ldvrW _ _ _ => st == .l
  | .ldvcW _ _ _ => st == .l
  | .ldg _ _ _ _ _ => st == .l
  | .mma _ _ _ => st == .m
  | .mmaw _ _ _ => st == .m
  | .radv _ => st == .m
  | .rskip _ => st == .m
  | .tcfg _ _ _ => st == .m
  | .teval _ _ => st == .m
  | .tmask _ _ => st == .m
  | .tclr _ => st == .m
  | .mclr _ => st == .m
  | .wrs _ _ _ => st == .f
  | .rdsp _ _ _ => st == .f
  | .eret _ => st == .f
  | .waitev _ _ _ => st == .f
  | .wvset _ _ _ => st == .f
  | .cse _ _ _ _ => st == .f
  | .zfill _ _ _ => st == .f
  | .park _ _ _ _ => st == .f
  | .unpark _ _ _ _ => st == .f
  | .xphy _ _ _ _ => st == .f
  | .stvW _ _ _ => st == .s
  | .stvH _ _ _ => st == .s
  | .stvHs _ _ _ => st == .s
  | .stvB _ _ _ => st == .s
  | .stvBs _ _ _ => st == .s
  | .stvc _ _ _ _ _ => st == .s
  | .xrd _ _ _ _ _ => st == .s
  | .xrdSp _ _ _ _ _ => st == .s
  | .xrdm _ _ _ _ _ => st == .s
  | .xwr _ _ _ _ _ => st == .s
  | .xwrZ _ _ _ _ _ => st == .s
  | .xput _ _ _ _ _ => st == .s
  | .xget _ _ _ _ _ => st == .s
  | .xsumF _ _ _ _ _ => st == .s
  | .xsumI _ _ _ _ _ => st == .s
  | .xatAdd _ _ _ _ _ => st == .s
  | .xatSwp _ _ _ _ _ => st == .s
  | .xatCas _ _ _ _ _ => st == .s
  | .xatMax _ _ _ _ _ => st == .s
  | .xatMin _ _ _ _ _ => st == .s
  | .xatAnd _ _ _ _ _ => st == .s
  | .xatOr _ _ _ _ _ => st == .s
  | .xatXor _ _ _ _ _ => st == .s
  | .xscLd _ _ _ _ _ => st == .s
  | .xscSt _ _ _ _ _ => st == .s
  | .xscAdd _ _ _ _ _ => st == .s
  | .xscSwp _ _ _ _ _ => st == .s
  | .xscCas _ _ _ _ _ => st == .s
  | .xscMax _ _ _ _ _ => st == .s
  | .fence _ _ => st == .s
  | .xpop _ _ _ => st == .s
  | .xpeek _ _ _ => st == .s
  | .vzero _ _ => st == .v
  | .vfadd _ _ _ _ => st == .v
  | .vfsub _ _ _ _ => st == .v
  | .vfmul _ _ _ _ => st == .v
  | .vfma _ _ _ _ => st == .v
  | .vfms _ _ _ _ => st == .v
  | .vfnma _ _ _ _ => st == .v
  | .vfnms _ _ _ _ => st == .v
  | .vfdiv _ _ _ _ => st == .v
  | .vfmin _ _ _ _ => st == .v
  | .vfmax _ _ _ _ => st == .v
  | .vfabs _ _ _ => st == .v
  | .vfneg _ _ _ => st == .v
  | .vffloor _ _ _ => st == .v
  | .vfround _ _ _ => st == .v
  | .vfclass _ _ _ => st == .v
  | .vfrcp _ _ _ => st == .v
  | .vfsqrt _ _ _ => st == .v
  | .vfrsq _ _ _ => st == .v
  | .vfexp2 _ _ _ => st == .v
  | .vflog2 _ _ _ => st == .v
  | .vftanh _ _ _ => st == .v
  | .vfsigm _ _ _ => st == .v
  | .vadd _ _ _ _ => st == .v
  | .vsub _ _ _ _ => st == .v
  | .vadds _ _ _ _ => st == .v
  | .vsubs _ _ _ _ => st == .v
  | .vmul _ _ _ _ => st == .v
  | .vmulh _ _ _ _ => st == .v
  | .vmin _ _ _ _ => st == .v
  | .vmax _ _ _ _ => st == .v
  | .vminu _ _ _ _ => st == .v
  | .vmaxu _ _ _ _ => st == .v
  | .vabs _ _ _ => st == .v
  | .vand _ _ _ _ => st == .v
  | .vor _ _ _ _ => st == .v
  | .vxor _ _ _ _ => st == .v
  | .vnot _ _ _ => st == .v
  | .vshl _ _ _ _ => st == .v
  | .vshr _ _ _ _ => st == .v
  | .vsar _ _ _ _ => st == .v
  | .vshli _ _ _ _ => st == .v
  | .vshri _ _ _ _ => st == .v
  | .vsari _ _ _ _ => st == .v
  | .vpopc _ _ _ => st == .v
  | .vclz _ _ _ => st == .v
  | .vctz _ _ _ => st == .v
  | .vclmulL _ _ _ _ => st == .v
  | .vclmulH _ _ _ _ => st == .v
  | .vdot2Bf _ _ _ _ => st == .v
  | .vdot4I8 _ _ _ _ => st == .v
  | .vfcmpEq _ _ _ _ => st == .v
  | .vfcmpNe _ _ _ _ => st == .v
  | .vfcmpLt _ _ _ _ => st == .v
  | .vfcmpLe _ _ _ _ => st == .v
  | .vfcmpUn _ _ _ _ => st == .v
  | .vcmpEq _ _ _ _ => st == .v
  | .vcmpNe _ _ _ _ => st == .v
  | .vcmpLt _ _ _ _ => st == .v
  | .vcmpLe _ _ _ _ => st == .v
  | .vcmpLtu _ _ _ _ => st == .v
  | .vcmpLeu _ _ _ _ => st == .v
  | .vmov _ _ _ => st == .v
  | .vspl _ _ _ => st == .v
  | .vimm _ _ _ => st == .v
  | .vsel _ _ _ _ _ _ => st == .v
  | .mand _ _ _ _ => st == .v
  | .mor _ _ _ _ => st == .v
  | .mxor _ _ _ _ => st == .v
  | .mnot _ _ _ => st == .v
  | .vany _ _ _ => st == .v
  | .vall _ _ _ => st == .v
  | .vlam _ _ => st == .v
  | .vmpack _ _ _ => st == .v
  | .vmunpk _ _ _ => st == .v
  | .vcvtFi _ _ _ => st == .v
  | .vcvtIf _ _ _ => st == .v
  | .vcvtFb _ _ _ => st == .v
  | .vcvtBf _ _ _ => st == .v
  | .vcvtFk _ _ _ => st == .v
  | .vquant _ _ _ _ _ => st == .v
  | .vqexp _ _ _ _ _ => st == .v
  | .vrotR _ _ _ _ _ => st == .v
  | .vrotC _ _ _ _ _ => st == .v
  | .vbcR _ _ _ _ _ => st == .v
  | .vbcC _ _ _ _ _ => st == .v
  | .vpermR _ _ _ _ _ => st == .v
  | .vpermC _ _ _ _ _ => st == .v
  | .vredRFadd _ _ _ _ => st == .v
  | .vredRIadd _ _ _ _ => st == .v
  | .vredRXor _ _ _ _ => st == .v
  | .vredRMax _ _ _ _ => st == .v
  | .vredRMin _ _ _ _ => st == .v
  | .vredCFadd _ _ _ _ => st == .v
  | .vredCIadd _ _ _ _ => st == .v
  | .vredCXor _ _ _ _ => st == .v
  | .vredCMax _ _ _ _ => st == .v
  | .vredCMin _ _ _ _ => st == .v
  | .vscanRFadd _ _ _ _ => st == .v
  | .vscanRIadd _ _ _ _ => st == .v
  | .vscanRXor _ _ _ _ => st == .v
  | .vscanCFadd _ _ _ _ => st == .v
  | .vscanCIadd _ _ _ _ => st == .v
  | .vscanCXor _ _ _ _ => st == .v
  | .vcpr _ _ _ _ _ => st == .v
  | .vidx _ _ => st == .v
  | .rpop _ _ _ => st == .v
  | .rfree _ => st == .v
  | .vbrev _ _ _ => st == .v

end Sys2Proof
end

