-- ==== Sys2Proof/Decode.lean ====
section
/-! DEFINITION. The encodings of R298-R311: the encoder, and the decoder, total on any parcels. The decoder reads the
fields the word's format gives, and accepts the reading only when it is well formed and its encoding is the word
itself, so that a nonzero field that must be zero is refused (R303, R312). -/

namespace Sys2Proof

/-! ### Words -/

/-- The header of a long form with a G field (R300, R302). -/
def hdG (w : W32) : Hd := ⟨w.extractLsb' 20 4, w.extractLsb' 16 4, w.extractLsb' 12 4⟩

/-- The header of a long form without a G field (R300, R302). -/
def hdU (w : W32) : Hd := ⟨w.extractLsb' 20 4, w.extractLsb' 16 4, 0⟩

/-- The header of a short form (R299). -/
def hdS (w : Parcel) : Hd := ⟨(w.extractLsb' 8 2).setWidth 4, w.extractLsb' 4 4, 0⟩

/-- A long-form word: its top byte (bit 31 and OP7), idle count, token bits and operand field F (R300). -/
def longWord (top : BitVec 8) (h : Hd) (f : BitVec 16) : W32 := top ++ h.idle ++ h.tok ++ f

/-- A short-form parcel: OP5, idle count, token bits, operand A (R299). -/
def shortWord (op : BitVec 5) (h : Hd) (a : BitVec 4) : Parcel :=
  0#1 ++ op ++ h.idle.setWidth 2 ++ h.tok ++ a

/-- The two parcels of a 32-bit word in address order: the high parcel first (R298). -/
def two (w : W32) : List Parcel := [w.extractLsb' 16 16, w.extractLsb' 0 16]

/-- The parcels of an instruction, in address order; none for an event. -/
def Instr.encode : Instr → List Parcel
  | .blockHeader len cs stg cnt => two (0xF#4 ++ len ++ cs ++ stg ++ cnt)
  | .nop h => [shortWord 0#5 h (0#4)]
  | .endS h => [shortWord 1#5 h (0#4)]
  | .idle h k => two (longWord 0x80#8 h (0#4 ++ k))
  | .join h k => two (longWord 0x81#8 h (0#4 ++ k))
  | .sync h a k => two (longWord 0x82#8 h (a ++ k))
  | .mark h k => two (longWord 0x83#8 h (0#4 ++ k))
  | .inc h a => [shortWord 2#5 h (a)]
  | .dec h a => [shortWord 3#5 h (a)]
  | .neg h a => [shortWord 4#5 h (a)]
  | .not h a => [shortWord 5#5 h (a)]
  | .clr h a => [shortWord 6#5 h (a)]
  | .pclr h a => [shortWord 7#5 h (0#1 ++ a)]
  | .pset h a => [shortWord 8#5 h (0#1 ++ a)]
  | .pnot h a => [shortWord 9#5 h (0#1 ++ a)]
  | .rdtk h a => [shortWord 10#5 h (a)]
  | .add h a b c => two (longWord 0x84#8 h (h.g ++ a ++ b ++ c))
  | .sub h a b c => two (longWord 0x85#8 h (h.g ++ a ++ b ++ c))
  | .and h a b c => two (longWord 0x86#8 h (h.g ++ a ++ b ++ c))
  | .or h a b c => two (longWord 0x87#8 h (h.g ++ a ++ b ++ c))
  | .xor h a b c => two (longWord 0x88#8 h (h.g ++ a ++ b ++ c))
  | .shl h a b c => two (longWord 0x89#8 h (h.g ++ a ++ b ++ c))
  | .shr h a b c => two (longWord 0x8A#8 h (h.g ++ a ++ b ++ c))
  | .sar h a b c => two (longWord 0x8B#8 h (h.g ++ a ++ b ++ c))
  | .mul h a b c => two (longWord 0x8C#8 h (h.g ++ a ++ b ++ c))
  | .mulh h a b c => two (longWord 0x8D#8 h (h.g ++ a ++ b ++ c))
  | .mulhu h a b c => two (longWord 0x8E#8 h (h.g ++ a ++ b ++ c))
  | .min h a b c => two (longWord 0x8F#8 h (h.g ++ a ++ b ++ c))
  | .max h a b c => two (longWord 0x90#8 h (h.g ++ a ++ b ++ c))
  | .minu h a b c => two (longWord 0x91#8 h (h.g ++ a ++ b ++ c))
  | .maxu h a b c => two (longWord 0x92#8 h (h.g ++ a ++ b ++ c))
  | .rotl h a b c => two (longWord 0x93#8 h (h.g ++ a ++ b ++ c))
  | .rotr h a b c => two (longWord 0x94#8 h (h.g ++ a ++ b ++ c))
  | .div h a b c => two (longWord 0x95#8 h (h.g ++ a ++ b ++ c))
  | .divu h a b c => two (longWord 0x96#8 h (h.g ++ a ++ b ++ c))
  | .rem h a b c => two (longWord 0x97#8 h (h.g ++ a ++ b ++ c))
  | .remu h a b c => two (longWord 0x98#8 h (h.g ++ a ++ b ++ c))
  | .clz h a b => two (longWord 0x99#8 h (h.g ++ a ++ b ++ 0#4))
  | .ctz h a b => two (longWord 0x9A#8 h (h.g ++ a ++ b ++ 0#4))
  | .popc h a b => two (longWord 0x9B#8 h (h.g ++ a ++ b ++ 0#4))
  | .abs h a b => two (longWord 0x9C#8 h (h.g ++ a ++ b ++ 0#4))
  | .sextB h a b => two (longWord 0x9D#8 h (h.g ++ a ++ b ++ 0#4))
  | .sextH h a b => two (longWord 0x9E#8 h (h.g ++ a ++ b ++ 0#4))
  | .sextW h a b => two (longWord 0x9F#8 h (h.g ++ a ++ b ++ 0#4))
  | .zextB h a b => two (longWord 0xA0#8 h (h.g ++ a ++ b ++ 0#4))
  | .zextH h a b => two (longWord 0xA1#8 h (h.g ++ a ++ b ++ 0#4))
  | .zextW h a b => two (longWord 0xA2#8 h (h.g ++ a ++ b ++ 0#4))
  | .bswap h a b => two (longWord 0xA3#8 h (h.g ++ a ++ b ++ 0#4))
  | .sel h s a b c => two (longWord 0xA4#8 h (s ++ a ++ b ++ c))
  | .csel h s a b c => two (longWord 0xA5#8 h (s ++ a ++ b ++ c))
  | .ceq h a b c => two (longWord 0xA6#8 h (h.g ++ 0#1 ++ a ++ b ++ c))
  | .cne h a b c => two (longWord 0xA7#8 h (h.g ++ 0#1 ++ a ++ b ++ c))
  | .clt h a b c => two (longWord 0xA8#8 h (h.g ++ 0#1 ++ a ++ b ++ c))
  | .cltu h a b c => two (longWord 0xA9#8 h (h.g ++ 0#1 ++ a ++ b ++ c))
  | .cle h a b c => two (longWord 0xAA#8 h (h.g ++ 0#1 ++ a ++ b ++ c))
  | .cleu h a b c => two (longWord 0xAB#8 h (h.g ++ 0#1 ++ a ++ b ++ c))
  | .addi h a k => two (longWord 0xAC#8 h (h.g ++ a ++ k))
  | .andi h a k => two (longWord 0xAD#8 h (h.g ++ a ++ k))
  | .ori h a k => two (longWord 0xAE#8 h (h.g ++ a ++ k))
  | .xori h a k => two (longWord 0xAF#8 h (h.g ++ a ++ k))
  | .shli h a k => two (longWord 0xB0#8 h (h.g ++ a ++ 0#2 ++ k))
  | .shri h a k => two (longWord 0xB1#8 h (h.g ++ a ++ 0#2 ++ k))
  | .sari h a k => two (longWord 0xB2#8 h (h.g ++ a ++ 0#2 ++ k))
  | .ceqi h a p k => two (longWord 0xB3#8 h (h.g ++ a ++ p ++ k))
  | .clti h a p k => two (longWord 0xB4#8 h (h.g ++ a ++ p ++ k))
  | .cltui h a p k => two (longWord 0xB5#8 h (h.g ++ a ++ p ++ k))
  | .movi h a k => two (longWord 0xB6#8 h (a ++ k))
  | .movh h a k => two (longWord 0xB7#8 h (a ++ k))
  | .ldB h a b d => two (longWord 0xB8#8 h (h.g ++ a ++ b ++ d))
  | .ldBu h a b d => two (longWord 0xB9#8 h (h.g ++ a ++ b ++ d))
  | .ldH h a b d => two (longWord 0xBA#8 h (h.g ++ a ++ b ++ d))
  | .ldHu h a b d => two (longWord 0xBB#8 h (h.g ++ a ++ b ++ d))
  | .ldW h a b d => two (longWord 0xBC#8 h (h.g ++ a ++ b ++ d))
  | .ldWu h a b d => two (longWord 0xBD#8 h (h.g ++ a ++ b ++ d))
  | .ldD h a b d => two (longWord 0xBE#8 h (h.g ++ a ++ b ++ d))
  | .ldsD h a b d => two (longWord 0xBF#8 h (h.g ++ a ++ b ++ d))
  | .stB h a b d => two (longWord 0xC0#8 h (h.g ++ a ++ b ++ d))
  | .stH h a b d => two (longWord 0xC1#8 h (h.g ++ a ++ b ++ d))
  | .stW h a b d => two (longWord 0xC2#8 h (h.g ++ a ++ b ++ d))
  | .stD h a b d => two (longWord 0xC3#8 h (h.g ++ a ++ b ++ d))
  | .rdl h a k => two (longWord 0xC4#8 h (h.g ++ a ++ 0#2 ++ k))
  | .rds h a k => two (longWord 0xC5#8 h (h.g ++ a ++ 0#4 ++ k))
  | .setlc h a b => two (longWord 0xC6#8 h (h.g ++ 0#1 ++ a ++ b ++ 0#4))
  | .ags h a b c => two (longWord 0xC7#8 h (h.g ++ 0#1 ++ a ++ b ++ 0#1 ++ c))
  | .pute h a b => two (longWord 0xC8#8 h (h.g ++ 0#1 ++ a ++ b ++ 0#4))
  | .fmt h b => two (longWord 0xC9#8 h (h.g ++ 0#4 ++ b ++ 0#4))
  | .pand h a b c => two (longWord 0xCA#8 h (h.g ++ 0#1 ++ a ++ 0#1 ++ b ++ 0#1 ++ c))
  | .por h a b c => two (longWord 0xCB#8 h (h.g ++ 0#1 ++ a ++ 0#1 ++ b ++ 0#1 ++ c))
  | .pxor h a b c => two (longWord 0xCC#8 h (h.g ++ 0#1 ++ a ++ 0#1 ++ b ++ 0#1 ++ c))
  | .pmov h a b => two (longWord 0xCD#8 h (h.g ++ 0#1 ++ a ++ 0#1 ++ b ++ 0#4))
  | .trap h a k => two (longWord 0xCE#8 h (a ++ k))
  | .claim h oa n => two (longWord 0x84#8 h (h.g ++ oa ++ n ++ 0#2))
  | .release h oa n => two (longWord 0x85#8 h (h.g ++ oa ++ n ++ 0#2))
  | .ldta h oa ag => two (longWord 0x86#8 h (h.g ++ oa ++ ag ++ 0#4))
  | .ldtb h oa ag => two (longWord 0x87#8 h (h.g ++ oa ++ ag ++ 0#4))
  | .lde h oa ag => two (longWord 0x88#8 h (h.g ++ oa ++ ag ++ 0#4))
  | .ldtf h oa ag n => two (longWord 0x89#8 h (h.g ++ oa ++ ag ++ n))
  | .ldvW h a ag => two (longWord 0x8A#8 h (h.g ++ a ++ ag ++ 0#5))
  | .ldvH h a ag => two (longWord 0x8B#8 h (h.g ++ a ++ ag ++ 0#5))
  | .ldvHu h a ag => two (longWord 0x8C#8 h (h.g ++ a ++ ag ++ 0#5))
  | .ldvB h a ag => two (longWord 0x8D#8 h (h.g ++ a ++ ag ++ 0#5))
  | .ldvBu h a ag => two (longWord 0x8E#8 h (h.g ++ a ++ ag ++ 0#5))
  | .ldvrW h a ag => two (longWord 0x8F#8 h (h.g ++ a ++ ag ++ 0#5))
  | .ldvcW h a ag => two (longWord 0x90#8 h (h.g ++ a ++ ag ++ 0#5))
  | .ldg h a b ag band => two (longWord 0x91#8 h (a ++ b ++ ag ++ band ++ 0#3))
  | .mma h oa n => two (longWord 0x84#8 h (h.g ++ oa ++ n ++ 0#2))
  | .mmaw h oa n => two (longWord 0x85#8 h (h.g ++ oa ++ n ++ 0#2))
  | .radv h => two (longWord 0x86#8 h (h.g ++ 0#12))
  | .rskip h => two (longWord 0x87#8 h (h.g ++ 0#12))
  | .tcfg h oa w => two (longWord 0x88#8 h (h.g ++ oa ++ 0#3 ++ w ++ 0#2))
  | .teval h oa => two (longWord 0x89#8 h (h.g ++ oa ++ 0#7))
  | .tmask h k => two (longWord 0x8A#8 h (h.g ++ 0#8 ++ k))
  | .tclr h => two (longWord 0x8B#8 h (h.g ++ 0#12))
  | .mclr h => two (longWord 0x8C#8 h (h.g ++ 0#12))
  | .wrs h a k => two (longWord 0xE0#8 h (h.g ++ a ++ k))
  | .rdsp h a k => two (longWord 0xE1#8 h (h.g ++ a ++ k))
  | .eret h => two (longWord 0xE2#8 h (h.g ++ 0#12))
  | .waitev h a b => two (longWord 0xE3#8 h (h.g ++ a ++ b ++ 0#4))
  | .wvset h b c => two (longWord 0xE4#8 h (h.g ++ 0#4 ++ b ++ c))
  | .cse h a b c => two (longWord 0xE5#8 h (h.g ++ a ++ b ++ c))
  | .zfill h a b => two (longWord 0xE6#8 h (h.g ++ a ++ b ++ 0#4))
  | .park h a b c => two (longWord 0xE7#8 h (h.g ++ a ++ b ++ c))
  | .unpark h a b c => two (longWord 0xE8#8 h (h.g ++ a ++ b ++ c))
  | .xphy h e cls p => two (longWord 0xE9#8 h (h.g ++ e ++ 0#4 ++ cls ++ 0#1 ++ p))
  | .stvW h a ag => two (longWord 0x84#8 h (h.g ++ a ++ ag ++ 0#5))
  | .stvH h a ag => two (longWord 0x85#8 h (h.g ++ a ++ ag ++ 0#5))
  | .stvHs h a ag => two (longWord 0x86#8 h (h.g ++ a ++ ag ++ 0#5))
  | .stvB h a ag => two (longWord 0x87#8 h (h.g ++ a ++ ag ++ 0#5))
  | .stvBs h a ag => two (longWord 0x88#8 h (h.g ++ a ++ ag ++ 0#5))
  | .stvc h a ag s m => two (longWord 0x89#8 h (h.g ++ a ++ ag ++ 0#1 ++ s ++ m))
  | .xrd h e ag cls p => two (longWord 0x8A#8 h (h.g ++ e ++ ag ++ cls ++ 0#1 ++ p))
  | .xrdSp h e ag cls p => two (longWord 0x8B#8 h (h.g ++ e ++ ag ++ cls ++ 0#1 ++ p))
  | .xrdm h e ag cls p => two (longWord 0x8C#8 h (h.g ++ e ++ ag ++ cls ++ 0#1 ++ p))
  | .xwr h e ag cls p => two (longWord 0x8D#8 h (h.g ++ e ++ ag ++ cls ++ 0#1 ++ p))
  | .xwrZ h e ag cls p => two (longWord 0x8E#8 h (h.g ++ e ++ ag ++ cls ++ 0#1 ++ p))
  | .xput h e ag cls p => two (longWord 0x8F#8 h (h.g ++ e ++ ag ++ cls ++ 0#1 ++ p))
  | .xget h e ag cls p => two (longWord 0x90#8 h (h.g ++ e ++ ag ++ cls ++ 0#1 ++ p))
  | .xsumF h e ag cls p => two (longWord 0x91#8 h (h.g ++ e ++ ag ++ cls ++ 0#1 ++ p))
  | .xsumI h e ag cls p => two (longWord 0x92#8 h (h.g ++ e ++ ag ++ cls ++ 0#1 ++ p))
  | .xatAdd h e ag cls p => two (longWord 0x93#8 h (h.g ++ e ++ 0#1 ++ ag ++ cls ++ 0#1 ++ p))
  | .xatSwp h e ag cls p => two (longWord 0x94#8 h (h.g ++ e ++ 0#1 ++ ag ++ cls ++ 0#1 ++ p))
  | .xatCas h e ag cls p => two (longWord 0x95#8 h (h.g ++ e ++ 0#1 ++ ag ++ cls ++ 0#1 ++ p))
  | .xatMax h e ag cls p => two (longWord 0x96#8 h (h.g ++ e ++ 0#1 ++ ag ++ cls ++ 0#1 ++ p))
  | .xatMin h e ag cls p => two (longWord 0x97#8 h (h.g ++ e ++ 0#1 ++ ag ++ cls ++ 0#1 ++ p))
  | .xatAnd h e ag cls p => two (longWord 0x98#8 h (h.g ++ e ++ 0#1 ++ ag ++ cls ++ 0#1 ++ p))
  | .xatOr h e ag cls p => two (longWord 0x99#8 h (h.g ++ e ++ 0#1 ++ ag ++ cls ++ 0#1 ++ p))
  | .xatXor h e ag cls p => two (longWord 0x9A#8 h (h.g ++ e ++ 0#1 ++ ag ++ cls ++ 0#1 ++ p))
  | .xscLd h e ag cls p => two (longWord 0x9B#8 h (h.g ++ e ++ 0#1 ++ ag ++ cls ++ 0#1 ++ p))
  | .xscSt h e ag cls p => two (longWord 0x9C#8 h (h.g ++ e ++ 0#1 ++ ag ++ cls ++ 0#1 ++ p))
  | .xscAdd h e ag cls p => two (longWord 0x9D#8 h (h.g ++ e ++ 0#1 ++ ag ++ cls ++ 0#1 ++ p))
  | .xscSwp h e ag cls p => two (longWord 0x9E#8 h (h.g ++ e ++ 0#1 ++ ag ++ cls ++ 0#1 ++ p))
  | .xscCas h e ag cls p => two (longWord 0x9F#8 h (h.g ++ e ++ 0#1 ++ ag ++ cls ++ 0#1 ++ p))
  | .xscMax h e ag cls p => two (longWord 0xA0#8 h (h.g ++ e ++ 0#1 ++ ag ++ cls ++ 0#1 ++ p))
  | .fence h k => two (longWord 0xA1#8 h (k))
  | .xpop h a cls => two (longWord 0xA2#8 h (h.g ++ 0#1 ++ a ++ 0#4 ++ cls))
  | .xpeek h a cls => two (longWord 0xA3#8 h (h.g ++ 0#1 ++ a ++ 0#4 ++ cls))
  | .vzero h a => [shortWord 2#5 h (a)]
  | .vfadd h a b c => two (longWord 0x84#8 h (h.g ++ a ++ b ++ c))
  | .vfsub h a b c => two (longWord 0x85#8 h (h.g ++ a ++ b ++ c))
  | .vfmul h a b c => two (longWord 0x86#8 h (h.g ++ a ++ b ++ c))
  | .vfma h a b c => two (longWord 0x87#8 h (h.g ++ a ++ b ++ c))
  | .vfms h a b c => two (longWord 0x88#8 h (h.g ++ a ++ b ++ c))
  | .vfnma h a b c => two (longWord 0x89#8 h (h.g ++ a ++ b ++ c))
  | .vfnms h a b c => two (longWord 0x8A#8 h (h.g ++ a ++ b ++ c))
  | .vfdiv h a b c => two (longWord 0x8B#8 h (h.g ++ a ++ b ++ c))
  | .vfmin h a b c => two (longWord 0x8C#8 h (h.g ++ a ++ b ++ c))
  | .vfmax h a b c => two (longWord 0x8D#8 h (h.g ++ a ++ b ++ c))
  | .vfabs h a b => two (longWord 0x8E#8 h (h.g ++ a ++ b ++ 0#4))
  | .vfneg h a b => two (longWord 0x8F#8 h (h.g ++ a ++ b ++ 0#4))
  | .vffloor h a b => two (longWord 0x90#8 h (h.g ++ a ++ b ++ 0#4))
  | .vfround h a b => two (longWord 0x91#8 h (h.g ++ a ++ b ++ 0#4))
  | .vfclass h a b => two (longWord 0x92#8 h (h.g ++ a ++ b ++ 0#4))
  | .vfrcp h a b => two (longWord 0x93#8 h (h.g ++ a ++ b ++ 0#4))
  | .vfsqrt h a b => two (longWord 0x94#8 h (h.g ++ a ++ b ++ 0#4))
  | .vfrsq h a b => two (longWord 0x95#8 h (h.g ++ a ++ b ++ 0#4))
  | .vfexp2 h a b => two (longWord 0x96#8 h (h.g ++ a ++ b ++ 0#4))
  | .vflog2 h a b => two (longWord 0x97#8 h (h.g ++ a ++ b ++ 0#4))
  | .vftanh h a b => two (longWord 0x98#8 h (h.g ++ a ++ b ++ 0#4))
  | .vfsigm h a b => two (longWord 0x99#8 h (h.g ++ a ++ b ++ 0#4))
  | .vadd h a b c => two (longWord 0x9A#8 h (h.g ++ a ++ b ++ c))
  | .vsub h a b c => two (longWord 0x9B#8 h (h.g ++ a ++ b ++ c))
  | .vadds h a b c => two (longWord 0x9C#8 h (h.g ++ a ++ b ++ c))
  | .vsubs h a b c => two (longWord 0x9D#8 h (h.g ++ a ++ b ++ c))
  | .vmul h a b c => two (longWord 0x9E#8 h (h.g ++ a ++ b ++ c))
  | .vmulh h a b c => two (longWord 0x9F#8 h (h.g ++ a ++ b ++ c))
  | .vmin h a b c => two (longWord 0xA0#8 h (h.g ++ a ++ b ++ c))
  | .vmax h a b c => two (longWord 0xA1#8 h (h.g ++ a ++ b ++ c))
  | .vminu h a b c => two (longWord 0xA2#8 h (h.g ++ a ++ b ++ c))
  | .vmaxu h a b c => two (longWord 0xA3#8 h (h.g ++ a ++ b ++ c))
  | .vabs h a b => two (longWord 0xA4#8 h (h.g ++ a ++ b ++ 0#4))
  | .vand h a b c => two (longWord 0xA5#8 h (h.g ++ a ++ b ++ c))
  | .vor h a b c => two (longWord 0xA6#8 h (h.g ++ a ++ b ++ c))
  | .vxor h a b c => two (longWord 0xA7#8 h (h.g ++ a ++ b ++ c))
  | .vnot h a b => two (longWord 0xA8#8 h (h.g ++ a ++ b ++ 0#4))
  | .vshl h a b c => two (longWord 0xA9#8 h (h.g ++ a ++ b ++ c))
  | .vshr h a b c => two (longWord 0xAA#8 h (h.g ++ a ++ b ++ c))
  | .vsar h a b c => two (longWord 0xAB#8 h (h.g ++ a ++ b ++ c))
  | .vshli h a b k => two (longWord 0xAC#8 h (a ++ b ++ 0#3 ++ k))
  | .vshri h a b k => two (longWord 0xAD#8 h (a ++ b ++ 0#3 ++ k))
  | .vsari h a b k => two (longWord 0xAE#8 h (a ++ b ++ 0#3 ++ k))
  | .vpopc h a b => two (longWord 0xAF#8 h (h.g ++ a ++ b ++ 0#4))
  | .vclz h a b => two (longWord 0xB0#8 h (h.g ++ a ++ b ++ 0#4))
  | .vctz h a b => two (longWord 0xB1#8 h (h.g ++ a ++ b ++ 0#4))
  | .vclmulL h a b c => two (longWord 0xB2#8 h (h.g ++ a ++ b ++ c))
  | .vclmulH h a b c => two (longWord 0xB3#8 h (h.g ++ a ++ b ++ c))
  | .vdot2Bf h a b c => two (longWord 0xB4#8 h (h.g ++ a ++ b ++ c))
  | .vdot4I8 h a b c => two (longWord 0xB5#8 h (h.g ++ a ++ b ++ c))
  | .vfcmpEq h a b c => two (longWord 0xB6#8 h (h.g ++ 0#1 ++ a ++ b ++ c))
  | .vfcmpNe h a b c => two (longWord 0xB7#8 h (h.g ++ 0#1 ++ a ++ b ++ c))
  | .vfcmpLt h a b c => two (longWord 0xB8#8 h (h.g ++ 0#1 ++ a ++ b ++ c))
  | .vfcmpLe h a b c => two (longWord 0xB9#8 h (h.g ++ 0#1 ++ a ++ b ++ c))
  | .vfcmpUn h a b c => two (longWord 0xBA#8 h (h.g ++ 0#1 ++ a ++ b ++ c))
  | .vcmpEq h a b c => two (longWord 0xBB#8 h (h.g ++ 0#1 ++ a ++ b ++ c))
  | .vcmpNe h a b c => two (longWord 0xBC#8 h (h.g ++ 0#1 ++ a ++ b ++ c))
  | .vcmpLt h a b c => two (longWord 0xBD#8 h (h.g ++ 0#1 ++ a ++ b ++ c))
  | .vcmpLe h a b c => two (longWord 0xBE#8 h (h.g ++ 0#1 ++ a ++ b ++ c))
  | .vcmpLtu h a b c => two (longWord 0xBF#8 h (h.g ++ 0#1 ++ a ++ b ++ c))
  | .vcmpLeu h a b c => two (longWord 0xC0#8 h (h.g ++ 0#1 ++ a ++ b ++ c))
  | .vmov h a b => two (longWord 0xC1#8 h (h.g ++ a ++ b ++ 0#4))
  | .vspl h a b => two (longWord 0xC2#8 h (h.g ++ a ++ 0#1 ++ b ++ 0#4))
  | .vimm h a k => two (longWord 0xC3#8 h (h.g ++ a ++ k))
  | .vsel h a b c s m => two (longWord 0xC4#8 h (a ++ b ++ c ++ s ++ m))
  | .mand h a b c => two (longWord 0xC5#8 h (h.g ++ 0#1 ++ a ++ 0#1 ++ b ++ 0#1 ++ c))
  | .mor h a b c => two (longWord 0xC6#8 h (h.g ++ 0#1 ++ a ++ 0#1 ++ b ++ 0#1 ++ c))
  | .mxor h a b c => two (longWord 0xC7#8 h (h.g ++ 0#1 ++ a ++ 0#1 ++ b ++ 0#1 ++ c))
  | .mnot h a b => two (longWord 0xC8#8 h (h.g ++ 0#1 ++ a ++ 0#1 ++ b ++ 0#4))
  | .vany h a b => two (longWord 0xC9#8 h (h.g ++ 0#1 ++ a ++ 0#1 ++ b ++ 0#4))
  | .vall h a b => two (longWord 0xCA#8 h (h.g ++ 0#1 ++ a ++ 0#1 ++ b ++ 0#4))
  | .vlam h b => two (longWord 0xCB#8 h (h.g ++ 0#5 ++ b ++ 0#4))
  | .vmpack h a b => two (longWord 0xCC#8 h (h.g ++ a ++ 0#1 ++ b ++ 0#4))
  | .vmunpk h a b => two (longWord 0xCD#8 h (h.g ++ 0#1 ++ a ++ b ++ 0#4))
  | .vcvtFi h a b => two (longWord 0xCE#8 h (h.g ++ a ++ b ++ 0#4))
  | .vcvtIf h a b => two (longWord 0xCF#8 h (h.g ++ a ++ b ++ 0#4))
  | .vcvtFb h a b => two (longWord 0xD0#8 h (h.g ++ a ++ b ++ 0#4))
  | .vcvtBf h a b => two (longWord 0xD1#8 h (h.g ++ a ++ b ++ 0#4))
  | .vcvtFk h a b => two (longWord 0xD2#8 h (h.g ++ a ++ b ++ 0#4))
  | .vquant h a b e s => two (longWord 0xD3#8 h (a ++ b ++ 0#1 ++ e ++ s ++ 0#2))
  | .vqexp h a b e s => two (longWord 0xD4#8 h (a ++ b ++ 0#1 ++ e ++ s ++ 0#2))
  | .vrotR h a b p k => two (longWord 0xD5#8 h (a ++ b ++ p ++ 0#1 ++ k))
  | .vrotC h a b p k => two (longWord 0xD6#8 h (a ++ b ++ p ++ 0#3 ++ k))
  | .vbcR h a b p k => two (longWord 0xD7#8 h (a ++ b ++ p ++ 0#1 ++ k))
  | .vbcC h a b p k => two (longWord 0xD8#8 h (a ++ b ++ p ++ 0#3 ++ k))
  | .vpermR h a b c p => two (longWord 0xD9#8 h (a ++ b ++ c ++ p ++ 0#3))
  | .vpermC h a b c p => two (longWord 0xDA#8 h (a ++ b ++ c ++ p ++ 0#3))
  | .vredRFadd h a b p => two (longWord 0xDB#8 h (a ++ b ++ p ++ 0#7))
  | .vredRIadd h a b p => two (longWord 0xDC#8 h (a ++ b ++ p ++ 0#7))
  | .vredRXor h a b p => two (longWord 0xDD#8 h (a ++ b ++ p ++ 0#7))
  | .vredRMax h a b p => two (longWord 0xDE#8 h (a ++ b ++ p ++ 0#7))
  | .vredRMin h a b p => two (longWord 0xDF#8 h (a ++ b ++ p ++ 0#7))
  | .vredCFadd h a b p => two (longWord 0xE0#8 h (a ++ b ++ p ++ 0#7))
  | .vredCIadd h a b p => two (longWord 0xE1#8 h (a ++ b ++ p ++ 0#7))
  | .vredCXor h a b p => two (longWord 0xE2#8 h (a ++ b ++ p ++ 0#7))
  | .vredCMax h a b p => two (longWord 0xE3#8 h (a ++ b ++ p ++ 0#7))
  | .vredCMin h a b p => two (longWord 0xE4#8 h (a ++ b ++ p ++ 0#7))
  | .vscanRFadd h a b p => two (longWord 0xE5#8 h (a ++ b ++ p ++ 0#7))
  | .vscanRIadd h a b p => two (longWord 0xE6#8 h (a ++ b ++ p ++ 0#7))
  | .vscanRXor h a b p => two (longWord 0xE7#8 h (a ++ b ++ p ++ 0#7))
  | .vscanCFadd h a b p => two (longWord 0xE8#8 h (a ++ b ++ p ++ 0#7))
  | .vscanCIadd h a b p => two (longWord 0xE9#8 h (a ++ b ++ p ++ 0#7))
  | .vscanCXor h a b p => two (longWord 0xEA#8 h (a ++ b ++ p ++ 0#7))
  | .vcpr h a b s m => two (longWord 0xEB#8 h (a ++ b ++ 0#4 ++ s ++ m))
  | .vidx h a => two (longWord 0xEC#8 h (h.g ++ a ++ 0#8))
  | .rpop h a k => two (longWord 0xED#8 h (h.g ++ a ++ 0#6 ++ k))
  | .rfree h => two (longWord 0xEE#8 h (h.g ++ 0#12))
  | .vbrev h a b => two (longWord 0xEF#8 h (h.g ++ a ++ b ++ 0#4))
  | .coldReset => []
  | .powerUpSequence => []
  | .railFault => []
  | .firmwareBoot => []
  | .junctionSensorRead _ => []
  | .governorRevolution _ => []
  | .ceilingSet _ => []
  | .hbPwrCapWrite _ => []
  | .hbmRefresh => []
  | .hotReset => []
  | .mfFlr => []
  | .pfFlr _ => []
  | .vfFlr _ => []
  | .vfEnableWrite _ _ => []
  | .numvfsWrite _ _ => []
  | .tdispRequest _ _ => []
  | .ideKeyProgramming _ _ => []
  | .hostBar2Read _ _ _ => []
  | .hostBar2Write _ _ _ _ _ => []
  | .mfApertureAccess _ _ _ => []
  | .undecodedRequest _ => []
  | .hostReadCompletionTimeout _ _ => []
  | .msixVectorUnmask _ _ => []
  | .registerWrite _ _ _ _ => []
  | .hbActDenyRead => []
  | .klkFlitReceive _ _ => []
  | .klkNakReceive _ _ => []
  | .klkAckReceive _ _ => []
  | .klkPortTrained _ => []
  | .klkRetrainTimeout _ => []
  | .hbKlkIdWrite _ => []
  | .hbKlkRouteWrite _ _ => []
  | .routeChangeApply _ => []
  | .klkRequestTimeout _ => []
  | .peerRequestArrival _ => []
  | .barrierArrival _ _ _ => []
  | .barrierRelease _ _ => []
  | .notify _ _ _ => []
  | .queueDisable _ _ => []
  | .queueEnable _ _ => []
  | .packetFetch _ _ => []
  | .nopPacket _ _ => []
  | .launchPacket _ _ => []
  | .waitPacket _ _ => []
  | .signalPacket _ _ => []
  | .copyPacket _ _ => []
  | .invalPacket _ _ => []
  | .waitReread _ _ => []
  | .launchAgingStep _ _ => []
  | .copyChunk _ => []
  | .invalCompletion _ => []
  | .packetCompletion _ => []
  | .cqEnable _ _ _ => []
  | .cqCoalesceTimeout _ _ => []
  | .attestationRequest _ _ => []
  | .attestationReportWrite _ => []
  | .firmwareWatchdogExpiry _ => []
  | .coreLockout _ => []
  | .cobblerEventDispatch _ => []
  | .meterOpen _ => []
  | .meterSeal _ => []
  | .meterRetire _ => []
  | .meterCheckpoint => []
  | .meterRecordWrite _ => []
  | .tenantLogRidxWrite _ _ => []
  | .meterContinuation => []
  | .partitionCreate _ _ => []
  | .partitionResize _ _ => []
  | .partitionRemove _ => []
  | .vdCreate => []
  | .vdDestroy => []
  | .vdCreateIncoming => []
  | .strandPark _ _ => []
  | .strandUnpark _ _ => []
  | .evictionRequest _ => []
  | .evictionDrain _ => []
  | .evictionSave _ => []
  | .strandResume _ => []
  | .leaseExpiry _ => []
  | .migrationStart => []
  | .migrationPrecopyRound => []
  | .migrationStop => []
  | .migrationAbort => []
  | .migrationLinkLost => []
  | .migrationFinalArrival _ _ => []
  | .postcopyPagePull _ _ => []
  | .postcopyPagePush _ => []
  | .postcopyPageArrival _ _ _ => []
  | .postcopyPullTimeout _ _ => []
  | .admissionAttempt _ _ => []
  | .containerStaging _ => []
  | .startDecision _ => []
  | .weaveSwitch _ => []
  | .rephaseSwitch _ => []
  | .ownerDepart _ _ => []
  | .nsclkWrite _ => []
  | .transferDispatch _ => []
  | .pageRequestPost _ => []
  | .pageDone _ _ => []
  | .prqEnable _ _ => []
  | .transferLanding _ _ => []
  | .remotePutArrival _ => []
  | .scOperationPerform _ => []
  | .syncStallEnd _ => []
  | .strandWatchdogExpiry _ => []
  | .resultWriteback _ _ => []
  | .asyncFaultReport _ => []
  | .strandStop _ => []
  | .faultRingEnable _ _ => []
  | .debugHalt _ => []
  | .debugResume _ => []
  | .breakpointSet _ => []
  | .breakpointClear _ => []
  | .debugDump _ => []
  | .debugRelease _ => []
  | .traceEnable _ _ => []
  | .cseDone _ => []
  | .xphyDone _ _ => []
  | .rcRegisterRead _ _ => []
  | .pcieLinkTraining _ _ _ => []
  | .klkPortDown _ => []
  | .zfillZeroed _ => []
  | .postcopySourceFree _ => []

/-! ### Reading the fields -/

/-- The long forms of the C stream (R306), by OP7, without the common ones. -/
def rawLongC (w : W32) (op : Nat) : Option Instr :=
  match op with
  | 0x04 => some (.add (hdG w) (w.extractLsb' 8 4) (w.extractLsb' 4 4) (w.extractLsb' 0 4))
  | 0x05 => some (.sub (hdG w) (w.extractLsb' 8 4) (w.extractLsb' 4 4) (w.extractLsb' 0 4))
  | 0x06 => some (.and (hdG w) (w.extractLsb' 8 4) (w.extractLsb' 4 4) (w.extractLsb' 0 4))
  | 0x07 => some (.or (hdG w) (w.extractLsb' 8 4) (w.extractLsb' 4 4) (w.extractLsb' 0 4))
  | 0x08 => some (.xor (hdG w) (w.extractLsb' 8 4) (w.extractLsb' 4 4) (w.extractLsb' 0 4))
  | 0x09 => some (.shl (hdG w) (w.extractLsb' 8 4) (w.extractLsb' 4 4) (w.extractLsb' 0 4))
  | 0x0A => some (.shr (hdG w) (w.extractLsb' 8 4) (w.extractLsb' 4 4) (w.extractLsb' 0 4))
  | 0x0B => some (.sar (hdG w) (w.extractLsb' 8 4) (w.extractLsb' 4 4) (w.extractLsb' 0 4))
  | 0x0C => some (.mul (hdG w) (w.extractLsb' 8 4) (w.extractLsb' 4 4) (w.extractLsb' 0 4))
  | 0x0D => some (.mulh (hdG w) (w.extractLsb' 8 4) (w.extractLsb' 4 4) (w.extractLsb' 0 4))
  | 0x0E => some (.mulhu (hdG w) (w.extractLsb' 8 4) (w.extractLsb' 4 4) (w.extractLsb' 0 4))
  | 0x0F => some (.min (hdG w) (w.extractLsb' 8 4) (w.extractLsb' 4 4) (w.extractLsb' 0 4))
  | 0x10 => some (.max (hdG w) (w.extractLsb' 8 4) (w.extractLsb' 4 4) (w.extractLsb' 0 4))
  | 0x11 => some (.minu (hdG w) (w.extractLsb' 8 4) (w.extractLsb' 4 4) (w.extractLsb' 0 4))
  | 0x12 => some (.maxu (hdG w) (w.extractLsb' 8 4) (w.extractLsb' 4 4) (w.extractLsb' 0 4))
  | 0x13 => some (.rotl (hdG w) (w.extractLsb' 8 4) (w.extractLsb' 4 4) (w.extractLsb' 0 4))
  | 0x14 => some (.rotr (hdG w) (w.extractLsb' 8 4) (w.extractLsb' 4 4) (w.extractLsb' 0 4))
  | 0x15 => some (.div (hdG w) (w.extractLsb' 8 4) (w.extractLsb' 4 4) (w.extractLsb' 0 4))
  | 0x16 => some (.divu (hdG w) (w.extractLsb' 8 4) (w.extractLsb' 4 4) (w.extractLsb' 0 4))
  | 0x17 => some (.rem (hdG w) (w.extractLsb' 8 4) (w.extractLsb' 4 4) (w.extractLsb' 0 4))
  | 0x18 => some (.remu (hdG w) (w.extractLsb' 8 4) (w.extractLsb' 4 4) (w.extractLsb' 0 4))
  | 0x19 => some (.clz (hdG w) (w.extractLsb' 8 4) (w.extractLsb' 4 4))
  | 0x1A => some (.ctz (hdG w) (w.extractLsb' 8 4) (w.extractLsb' 4 4))
  | 0x1B => some (.popc (hdG w) (w.extractLsb' 8 4) (w.extractLsb' 4 4))
  | 0x1C => some (.abs (hdG w) (w.extractLsb' 8 4) (w.extractLsb' 4 4))
  | 0x1D => some (.sextB (hdG w) (w.extractLsb' 8 4) (w.extractLsb' 4 4))
  | 0x1E => some (.sextH (hdG w) (w.extractLsb' 8 4) (w.extractLsb' 4 4))
  | 0x1F => some (.sextW (hdG w) (w.extractLsb' 8 4) (w.extractLsb' 4 4))
  | 0x20 => some (.zextB (hdG w) (w.extractLsb' 8 4) (w.extractLsb' 4 4))
  | 0x21 => some (.zextH (hdG w) (w.extractLsb' 8 4) (w.extractLsb' 4 4))
  | 0x22 => some (.zextW (hdG w) (w.extractLsb' 8 4) (w.extractLsb' 4 4))
  | 0x23 => some (.bswap (hdG w) (w.extractLsb' 8 4) (w.extractLsb' 4 4))
  | 0x24 => some (.sel (hdU w) (w.extractLsb' 12 4) (w.extractLsb' 8 4) (w.extractLsb' 4 4) (w.extractLsb' 0 4))
  | 0x25 => some (.csel (hdU w) (w.extractLsb' 12 4) (w.extractLsb' 8 4) (w.extractLsb' 4 4) (w.extractLsb' 0 4))
  | 0x26 => some (.ceq (hdG w) (w.extractLsb' 8 3) (w.extractLsb' 4 4) (w.extractLsb' 0 4))
  | 0x27 => some (.cne (hdG w) (w.extractLsb' 8 3) (w.extractLsb' 4 4) (w.extractLsb' 0 4))
  | 0x28 => some (.clt (hdG w) (w.extractLsb' 8 3) (w.extractLsb' 4 4) (w.extractLsb' 0 4))
  | 0x29 => some (.cltu (hdG w) (w.extractLsb' 8 3) (w.extractLsb' 4 4) (w.extractLsb' 0 4))
  | 0x2A => some (.cle (hdG w) (w.extractLsb' 8 3) (w.extractLsb' 4 4) (w.extractLsb' 0 4))
  | 0x2B => some (.cleu (hdG w) (w.extractLsb' 8 3) (w.extractLsb' 4 4) (w.extractLsb' 0 4))
  | 0x2C => some (.addi (hdG w) (w.extractLsb' 8 4) (w.extractLsb' 0 8))
  | 0x2D => some (.andi (hdG w) (w.extractLsb' 8 4) (w.extractLsb' 0 8))
  | 0x2E => some (.ori (hdG w) (w.extractLsb' 8 4) (w.extractLsb' 0 8))
  | 0x2F => some (.xori (hdG w) (w.extractLsb' 8 4) (w.extractLsb' 0 8))
  | 0x30 => some (.shli (hdG w) (w.extractLsb' 8 4) (w.extractLsb' 0 6))
  | 0x31 => some (.shri (hdG w) (w.extractLsb' 8 4) (w.extractLsb' 0 6))
  | 0x32 => some (.sari (hdG w) (w.extractLsb' 8 4) (w.extractLsb' 0 6))
  | 0x33 => some (.ceqi (hdG w) (w.extractLsb' 8 4) (w.extractLsb' 5 3) (w.extractLsb' 0 5))
  | 0x34 => some (.clti (hdG w) (w.extractLsb' 8 4) (w.extractLsb' 5 3) (w.extractLsb' 0 5))
  | 0x35 => some (.cltui (hdG w) (w.extractLsb' 8 4) (w.extractLsb' 5 3) (w.extractLsb' 0 5))
  | 0x36 => some (.movi (hdU w) (w.extractLsb' 12 4) (w.extractLsb' 0 12))
  | 0x37 => some (.movh (hdU w) (w.extractLsb' 12 4) (w.extractLsb' 0 12))
  | 0x38 => some (.ldB (hdG w) (w.extractLsb' 8 4) (w.extractLsb' 4 4) (w.extractLsb' 0 4))
  | 0x39 => some (.ldBu (hdG w) (w.extractLsb' 8 4) (w.extractLsb' 4 4) (w.extractLsb' 0 4))
  | 0x3A => some (.ldH (hdG w) (w.extractLsb' 8 4) (w.extractLsb' 4 4) (w.extractLsb' 0 4))
  | 0x3B => some (.ldHu (hdG w) (w.extractLsb' 8 4) (w.extractLsb' 4 4) (w.extractLsb' 0 4))
  | 0x3C => some (.ldW (hdG w) (w.extractLsb' 8 4) (w.extractLsb' 4 4) (w.extractLsb' 0 4))
  | 0x3D => some (.ldWu (hdG w) (w.extractLsb' 8 4) (w.extractLsb' 4 4) (w.extractLsb' 0 4))
  | 0x3E => some (.ldD (hdG w) (w.extractLsb' 8 4) (w.extractLsb' 4 4) (w.extractLsb' 0 4))
  | 0x3F => some (.ldsD (hdG w) (w.extractLsb' 8 4) (w.extractLsb' 4 4) (w.extractLsb' 0 4))
  | 0x40 => some (.stB (hdG w) (w.extractLsb' 8 4) (w.extractLsb' 4 4) (w.extractLsb' 0 4))
  | 0x41 => some (.stH (hdG w) (w.extractLsb' 8 4) (w.extractLsb' 4 4) (w.extractLsb' 0 4))
  | 0x42 => some (.stW (hdG w) (w.extractLsb' 8 4) (w.extractLsb' 4 4) (w.extractLsb' 0 4))
  | 0x43 => some (.stD (hdG w) (w.extractLsb' 8 4) (w.extractLsb' 4 4) (w.extractLsb' 0 4))
  | 0x44 => some (.rdl (hdG w) (w.extractLsb' 8 4) (w.extractLsb' 0 6))
  | 0x45 => some (.rds (hdG w) (w.extractLsb' 8 4) (w.extractLsb' 0 4))
  | 0x46 => some (.setlc (hdG w) (w.extractLsb' 8 3) (w.extractLsb' 4 4))
  | 0x47 => some (.ags (hdG w) (w.extractLsb' 8 3) (w.extractLsb' 4 4) (w.extractLsb' 0 3))
  | 0x48 => some (.pute (hdG w) (w.extractLsb' 8 3) (w.extractLsb' 4 4))
  | 0x49 => some (.fmt (hdG w) (w.extractLsb' 4 4))
  | 0x4A => some (.pand (hdG w) (w.extractLsb' 8 3) (w.extractLsb' 4 3) (w.extractLsb' 0 3))
  | 0x4B => some (.por (hdG w) (w.extractLsb' 8 3) (w.extractLsb' 4 3) (w.extractLsb' 0 3))
  | 0x4C => some (.pxor (hdG w) (w.extractLsb' 8 3) (w.extractLsb' 4 3) (w.extractLsb' 0 3))
  | 0x4D => some (.pmov (hdG w) (w.extractLsb' 8 3) (w.extractLsb' 4 3))
  | 0x4E => some (.trap (hdU w) (w.extractLsb' 12 4) (w.extractLsb' 0 12))
  | _ => none

/-- The long forms of the L stream (R308), by OP7, without the common ones. -/
def rawLongL (w : W32) (op : Nat) : Option Instr :=
  match op with
  | 0x04 => some (.claim (hdG w) (w.extractLsb' 7 5) (w.extractLsb' 2 5))
  | 0x05 => some (.release (hdG w) (w.extractLsb' 7 5) (w.extractLsb' 2 5))
  | 0x06 => some (.ldta (hdG w) (w.extractLsb' 7 5) (w.extractLsb' 4 3))
  | 0x07 => some (.ldtb (hdG w) (w.extractLsb' 7 5) (w.extractLsb' 4 3))
  | 0x08 => some (.lde (hdG w) (w.extractLsb' 7 5) (w.extractLsb' 4 3))
  | 0x09 => some (.ldtf (hdG w) (w.extractLsb' 7 5) (w.extractLsb' 4 3) (w.extractLsb' 0 4))
  | 0x0A => some (.ldvW (hdG w) (w.extractLsb' 8 4) (w.extractLsb' 5 3))
  | 0x0B => some (.ldvH (hdG w) (w.extractLsb' 8 4) (w.extractLsb' 5 3))
  | 0x0C => some (.ldvHu (hdG w) (w.extractLsb' 8 4) (w.extractLsb' 5 3))
  | 0x0D => some (.ldvB (hdG w) (w.extractLsb' 8 4) (w.extractLsb' 5 3))
  | 0x0E => some (.ldvBu (hdG w) (w.extractLsb' 8 4) (w.extractLsb' 5 3))
  | 0x0F => some (.ldvrW (hdG w) (w.extractLsb' 8 4) (w.extractLsb' 5 3))
  | 0x10 => some (.ldvcW (hdG w) (w.extractLsb' 8 4) (w.extractLsb' 5 3))
  | 0x11 => some (.ldg (hdU w) (w.extractLsb' 12 4) (w.extractLsb' 8 4) (w.extractLsb' 5 3) (w.extractLsb' 3 2))
  | _ => none

/-- The long forms of the M stream (R309), by OP7, without the common ones. -/
def rawLongM (w : W32) (op : Nat) : Option Instr :=
  match op with
  | 0x04 => some (.mma (hdG w) (w.extractLsb' 7 5) (w.extractLsb' 2 5))
  | 0x05 => some (.mmaw (hdG w) (w.extractLsb' 7 5) (w.extractLsb' 2 5))
  | 0x06 => some (.radv (hdG w))
  | 0x07 => some (.rskip (hdG w))
  | 0x08 => some (.tcfg (hdG w) (w.extractLsb' 7 5) (w.extractLsb' 2 2))
  | 0x09 => some (.teval (hdG w) (w.extractLsb' 7 5))
  | 0x0A => some (.tmask (hdG w) (w.extractLsb' 0 4))
  | 0x0B => some (.tclr (hdG w))
  | 0x0C => some (.mclr (hdG w))
  | _ => none

/-- The long forms of the V stream (R310), by OP7, without the common ones. -/
noncomputable def rawLongV (w : W32) (op : Nat) : Option Instr :=
  match op with
  | 0x04 => some (.vfadd (hdG w) (w.extractLsb' 8 4) (w.extractLsb' 4 4) (w.extractLsb' 0 4))
  | 0x05 => some (.vfsub (hdG w) (w.extractLsb' 8 4) (w.extractLsb' 4 4) (w.extractLsb' 0 4))
  | 0x06 => some (.vfmul (hdG w) (w.extractLsb' 8 4) (w.extractLsb' 4 4) (w.extractLsb' 0 4))
  | 0x07 => some (.vfma (hdG w) (w.extractLsb' 8 4) (w.extractLsb' 4 4) (w.extractLsb' 0 4))
  | 0x08 => some (.vfms (hdG w) (w.extractLsb' 8 4) (w.extractLsb' 4 4) (w.extractLsb' 0 4))
  | 0x09 => some (.vfnma (hdG w) (w.extractLsb' 8 4) (w.extractLsb' 4 4) (w.extractLsb' 0 4))
  | 0x0A => some (.vfnms (hdG w) (w.extractLsb' 8 4) (w.extractLsb' 4 4) (w.extractLsb' 0 4))
  | 0x0B => some (.vfdiv (hdG w) (w.extractLsb' 8 4) (w.extractLsb' 4 4) (w.extractLsb' 0 4))
  | 0x0C => some (.vfmin (hdG w) (w.extractLsb' 8 4) (w.extractLsb' 4 4) (w.extractLsb' 0 4))
  | 0x0D => some (.vfmax (hdG w) (w.extractLsb' 8 4) (w.extractLsb' 4 4) (w.extractLsb' 0 4))
  | 0x0E => some (.vfabs (hdG w) (w.extractLsb' 8 4) (w.extractLsb' 4 4))
  | 0x0F => some (.vfneg (hdG w) (w.extractLsb' 8 4) (w.extractLsb' 4 4))
  | 0x10 => some (.vffloor (hdG w) (w.extractLsb' 8 4) (w.extractLsb' 4 4))
  | 0x11 => some (.vfround (hdG w) (w.extractLsb' 8 4) (w.extractLsb' 4 4))
  | 0x12 => some (.vfclass (hdG w) (w.extractLsb' 8 4) (w.extractLsb' 4 4))
  | 0x13 => some (.vfrcp (hdG w) (w.extractLsb' 8 4) (w.extractLsb' 4 4))
  | 0x14 => some (.vfsqrt (hdG w) (w.extractLsb' 8 4) (w.extractLsb' 4 4))
  | 0x15 => some (.vfrsq (hdG w) (w.extractLsb' 8 4) (w.extractLsb' 4 4))
  | 0x16 => some (.vfexp2 (hdG w) (w.extractLsb' 8 4) (w.extractLsb' 4 4))
  | 0x17 => some (.vflog2 (hdG w) (w.extractLsb' 8 4) (w.extractLsb' 4 4))
  | 0x18 => some (.vftanh (hdG w) (w.extractLsb' 8 4) (w.extractLsb' 4 4))
  | 0x19 => some (.vfsigm (hdG w) (w.extractLsb' 8 4) (w.extractLsb' 4 4))
  | 0x1A => some (.vadd (hdG w) (w.extractLsb' 8 4) (w.extractLsb' 4 4) (w.extractLsb' 0 4))
  | 0x1B => some (.vsub (hdG w) (w.extractLsb' 8 4) (w.extractLsb' 4 4) (w.extractLsb' 0 4))
  | 0x1C => some (.vadds (hdG w) (w.extractLsb' 8 4) (w.extractLsb' 4 4) (w.extractLsb' 0 4))
  | 0x1D => some (.vsubs (hdG w) (w.extractLsb' 8 4) (w.extractLsb' 4 4) (w.extractLsb' 0 4))
  | 0x1E => some (.vmul (hdG w) (w.extractLsb' 8 4) (w.extractLsb' 4 4) (w.extractLsb' 0 4))
  | 0x1F => some (.vmulh (hdG w) (w.extractLsb' 8 4) (w.extractLsb' 4 4) (w.extractLsb' 0 4))
  | 0x20 => some (.vmin (hdG w) (w.extractLsb' 8 4) (w.extractLsb' 4 4) (w.extractLsb' 0 4))
  | 0x21 => some (.vmax (hdG w) (w.extractLsb' 8 4) (w.extractLsb' 4 4) (w.extractLsb' 0 4))
  | 0x22 => some (.vminu (hdG w) (w.extractLsb' 8 4) (w.extractLsb' 4 4) (w.extractLsb' 0 4))
  | 0x23 => some (.vmaxu (hdG w) (w.extractLsb' 8 4) (w.extractLsb' 4 4) (w.extractLsb' 0 4))
  | 0x24 => some (.vabs (hdG w) (w.extractLsb' 8 4) (w.extractLsb' 4 4))
  | 0x25 => some (.vand (hdG w) (w.extractLsb' 8 4) (w.extractLsb' 4 4) (w.extractLsb' 0 4))
  | 0x26 => some (.vor (hdG w) (w.extractLsb' 8 4) (w.extractLsb' 4 4) (w.extractLsb' 0 4))
  | 0x27 => some (.vxor (hdG w) (w.extractLsb' 8 4) (w.extractLsb' 4 4) (w.extractLsb' 0 4))
  | 0x28 => some (.vnot (hdG w) (w.extractLsb' 8 4) (w.extractLsb' 4 4))
  | 0x29 => some (.vshl (hdG w) (w.extractLsb' 8 4) (w.extractLsb' 4 4) (w.extractLsb' 0 4))
  | 0x2A => some (.vshr (hdG w) (w.extractLsb' 8 4) (w.extractLsb' 4 4) (w.extractLsb' 0 4))
  | 0x2B => some (.vsar (hdG w) (w.extractLsb' 8 4) (w.extractLsb' 4 4) (w.extractLsb' 0 4))
  | 0x2C => some (.vshli (hdU w) (w.extractLsb' 12 4) (w.extractLsb' 8 4) (w.extractLsb' 0 5))
  | 0x2D => some (.vshri (hdU w) (w.extractLsb' 12 4) (w.extractLsb' 8 4) (w.extractLsb' 0 5))
  | 0x2E => some (.vsari (hdU w) (w.extractLsb' 12 4) (w.extractLsb' 8 4) (w.extractLsb' 0 5))
  | 0x2F => some (.vpopc (hdG w) (w.extractLsb' 8 4) (w.extractLsb' 4 4))
  | 0x30 => some (.vclz (hdG w) (w.extractLsb' 8 4) (w.extractLsb' 4 4))
  | 0x31 => some (.vctz (hdG w) (w.extractLsb' 8 4) (w.extractLsb' 4 4))
  | 0x32 => some (.vclmulL (hdG w) (w.extractLsb' 8 4) (w.extractLsb' 4 4) (w.extractLsb' 0 4))
  | 0x33 => some (.vclmulH (hdG w) (w.extractLsb' 8 4) (w.extractLsb' 4 4) (w.extractLsb' 0 4))
  | 0x34 => some (.vdot2Bf (hdG w) (w.extractLsb' 8 4) (w.extractLsb' 4 4) (w.extractLsb' 0 4))
  | 0x35 => some (.vdot4I8 (hdG w) (w.extractLsb' 8 4) (w.extractLsb' 4 4) (w.extractLsb' 0 4))
  | 0x36 => some (.vfcmpEq (hdG w) (w.extractLsb' 8 3) (w.extractLsb' 4 4) (w.extractLsb' 0 4))
  | 0x37 => some (.vfcmpNe (hdG w) (w.extractLsb' 8 3) (w.extractLsb' 4 4) (w.extractLsb' 0 4))
  | 0x38 => some (.vfcmpLt (hdG w) (w.extractLsb' 8 3) (w.extractLsb' 4 4) (w.extractLsb' 0 4))
  | 0x39 => some (.vfcmpLe (hdG w) (w.extractLsb' 8 3) (w.extractLsb' 4 4) (w.extractLsb' 0 4))
  | 0x3A => some (.vfcmpUn (hdG w) (w.extractLsb' 8 3) (w.extractLsb' 4 4) (w.extractLsb' 0 4))
  | 0x3B => some (.vcmpEq (hdG w) (w.extractLsb' 8 3) (w.extractLsb' 4 4) (w.extractLsb' 0 4))
  | 0x3C => some (.vcmpNe (hdG w) (w.extractLsb' 8 3) (w.extractLsb' 4 4) (w.extractLsb' 0 4))
  | 0x3D => some (.vcmpLt (hdG w) (w.extractLsb' 8 3) (w.extractLsb' 4 4) (w.extractLsb' 0 4))
  | 0x3E => some (.vcmpLe (hdG w) (w.extractLsb' 8 3) (w.extractLsb' 4 4) (w.extractLsb' 0 4))
  | 0x3F => some (.vcmpLtu (hdG w) (w.extractLsb' 8 3) (w.extractLsb' 4 4) (w.extractLsb' 0 4))
  | 0x40 => some (.vcmpLeu (hdG w) (w.extractLsb' 8 3) (w.extractLsb' 4 4) (w.extractLsb' 0 4))
  | 0x41 => some (.vmov (hdG w) (w.extractLsb' 8 4) (w.extractLsb' 4 4))
  | 0x42 => some (.vspl (hdG w) (w.extractLsb' 8 4) (w.extractLsb' 4 3))
  | 0x43 => some (.vimm (hdG w) (w.extractLsb' 8 4) (w.extractLsb' 0 8))
  | 0x44 => some (.vsel (hdU w) (w.extractLsb' 12 4) (w.extractLsb' 8 4) (w.extractLsb' 4 4) (w.extractLsb' 3 1) (w.extractLsb' 0 3))
  | 0x45 => some (.mand (hdG w) (w.extractLsb' 8 3) (w.extractLsb' 4 3) (w.extractLsb' 0 3))
  | 0x46 => some (.mor (hdG w) (w.extractLsb' 8 3) (w.extractLsb' 4 3) (w.extractLsb' 0 3))
  | 0x47 => some (.mxor (hdG w) (w.extractLsb' 8 3) (w.extractLsb' 4 3) (w.extractLsb' 0 3))
  | 0x48 => some (.mnot (hdG w) (w.extractLsb' 8 3) (w.extractLsb' 4 3))
  | 0x49 => some (.vany (hdG w) (w.extractLsb' 8 3) (w.extractLsb' 4 3))
  | 0x4A => some (.vall (hdG w) (w.extractLsb' 8 3) (w.extractLsb' 4 3))
  | 0x4B => some (.vlam (hdG w) (w.extractLsb' 4 3))
  | 0x4C => some (.vmpack (hdG w) (w.extractLsb' 8 4) (w.extractLsb' 4 3))
  | 0x4D => some (.vmunpk (hdG w) (w.extractLsb' 8 3) (w.extractLsb' 4 4))
  | 0x4E => some (.vcvtFi (hdG w) (w.extractLsb' 8 4) (w.extractLsb' 4 4))
  | 0x4F => some (.vcvtIf (hdG w) (w.extractLsb' 8 4) (w.extractLsb' 4 4))
  | 0x50 => some (.vcvtFb (hdG w) (w.extractLsb' 8 4) (w.extractLsb' 4 4))
  | 0x51 => some (.vcvtBf (hdG w) (w.extractLsb' 8 4) (w.extractLsb' 4 4))
  | 0x52 => some (.vcvtFk (hdG w) (w.extractLsb' 8 4) (w.extractLsb' 4 4))
  | 0x53 => some (.vquant (hdU w) (w.extractLsb' 12 4) (w.extractLsb' 8 4) (w.extractLsb' 4 3) (w.extractLsb' 2 2))
  | 0x54 => some (.vqexp (hdU w) (w.extractLsb' 12 4) (w.extractLsb' 8 4) (w.extractLsb' 4 3) (w.extractLsb' 2 2))
  | 0x55 => some (.vrotR (hdU w) (w.extractLsb' 12 4) (w.extractLsb' 8 4) (w.extractLsb' 7 1) (w.extractLsb' 0 6))
  | 0x56 => some (.vrotC (hdU w) (w.extractLsb' 12 4) (w.extractLsb' 8 4) (w.extractLsb' 7 1) (w.extractLsb' 0 4))
  | 0x57 => some (.vbcR (hdU w) (w.extractLsb' 12 4) (w.extractLsb' 8 4) (w.extractLsb' 7 1) (w.extractLsb' 0 6))
  | 0x58 => some (.vbcC (hdU w) (w.extractLsb' 12 4) (w.extractLsb' 8 4) (w.extractLsb' 7 1) (w.extractLsb' 0 4))
  | 0x59 => some (.vpermR (hdU w) (w.extractLsb' 12 4) (w.extractLsb' 8 4) (w.extractLsb' 4 4) (w.extractLsb' 3 1))
  | 0x5A => some (.vpermC (hdU w) (w.extractLsb' 12 4) (w.extractLsb' 8 4) (w.extractLsb' 4 4) (w.extractLsb' 3 1))
  | 0x5B => some (.vredRFadd (hdU w) (w.extractLsb' 12 4) (w.extractLsb' 8 4) (w.extractLsb' 7 1))
  | 0x5C => some (.vredRIadd (hdU w) (w.extractLsb' 12 4) (w.extractLsb' 8 4) (w.extractLsb' 7 1))
  | 0x5D => some (.vredRXor (hdU w) (w.extractLsb' 12 4) (w.extractLsb' 8 4) (w.extractLsb' 7 1))
  | 0x5E => some (.vredRMax (hdU w) (w.extractLsb' 12 4) (w.extractLsb' 8 4) (w.extractLsb' 7 1))
  | 0x5F => some (.vredRMin (hdU w) (w.extractLsb' 12 4) (w.extractLsb' 8 4) (w.extractLsb' 7 1))
  | 0x60 => some (.vredCFadd (hdU w) (w.extractLsb' 12 4) (w.extractLsb' 8 4) (w.extractLsb' 7 1))
  | 0x61 => some (.vredCIadd (hdU w) (w.extractLsb' 12 4) (w.extractLsb' 8 4) (w.extractLsb' 7 1))
  | 0x62 => some (.vredCXor (hdU w) (w.extractLsb' 12 4) (w.extractLsb' 8 4) (w.extractLsb' 7 1))
  | 0x63 => some (.vredCMax (hdU w) (w.extractLsb' 12 4) (w.extractLsb' 8 4) (w.extractLsb' 7 1))
  | 0x64 => some (.vredCMin (hdU w) (w.extractLsb' 12 4) (w.extractLsb' 8 4) (w.extractLsb' 7 1))
  | 0x65 => some (.vscanRFadd (hdU w) (w.extractLsb' 12 4) (w.extractLsb' 8 4) (w.extractLsb' 7 1))
  | 0x66 => some (.vscanRIadd (hdU w) (w.extractLsb' 12 4) (w.extractLsb' 8 4) (w.extractLsb' 7 1))
  | 0x67 => some (.vscanRXor (hdU w) (w.extractLsb' 12 4) (w.extractLsb' 8 4) (w.extractLsb' 7 1))
  | 0x68 => some (.vscanCFadd (hdU w) (w.extractLsb' 12 4) (w.extractLsb' 8 4) (w.extractLsb' 7 1))
  | 0x69 => some (.vscanCIadd (hdU w) (w.extractLsb' 12 4) (w.extractLsb' 8 4) (w.extractLsb' 7 1))
  | 0x6A => some (.vscanCXor (hdU w) (w.extractLsb' 12 4) (w.extractLsb' 8 4) (w.extractLsb' 7 1))
  | 0x6B => some (.vcpr (hdU w) (w.extractLsb' 12 4) (w.extractLsb' 8 4) (w.extractLsb' 3 1) (w.extractLsb' 0 3))
  | 0x6C => some (.vidx (hdG w) (w.extractLsb' 8 4))
  | 0x6D => some (.rpop (hdG w) (w.extractLsb' 8 4) (w.extractLsb' 0 2))
  | 0x6E => some (.rfree (hdG w))
  | 0x6F => some (.vbrev (hdG w) (w.extractLsb' 8 4) (w.extractLsb' 4 4))
  | _ => none

/-- The long forms of the S stream (R311), by OP7, without the common ones. -/
noncomputable def rawLongS (w : W32) (op : Nat) : Option Instr :=
  match op with
  | 0x04 => some (.stvW (hdG w) (w.extractLsb' 8 4) (w.extractLsb' 5 3))
  | 0x05 => some (.stvH (hdG w) (w.extractLsb' 8 4) (w.extractLsb' 5 3))
  | 0x06 => some (.stvHs (hdG w) (w.extractLsb' 8 4) (w.extractLsb' 5 3))
  | 0x07 => some (.stvB (hdG w) (w.extractLsb' 8 4) (w.extractLsb' 5 3))
  | 0x08 => some (.stvBs (hdG w) (w.extractLsb' 8 4) (w.extractLsb' 5 3))
  | 0x09 => some (.stvc (hdG w) (w.extractLsb' 8 4) (w.extractLsb' 5 3) (w.extractLsb' 3 1) (w.extractLsb' 0 3))
  | 0x0A => some (.xrd (hdG w) (w.extractLsb' 9 3) (w.extractLsb' 6 3) (w.extractLsb' 2 4) (w.extractLsb' 0 1))
  | 0x0B => some (.xrdSp (hdG w) (w.extractLsb' 9 3) (w.extractLsb' 6 3) (w.extractLsb' 2 4) (w.extractLsb' 0 1))
  | 0x0C => some (.xrdm (hdG w) (w.extractLsb' 9 3) (w.extractLsb' 6 3) (w.extractLsb' 2 4) (w.extractLsb' 0 1))
  | 0x0D => some (.xwr (hdG w) (w.extractLsb' 9 3) (w.extractLsb' 6 3) (w.extractLsb' 2 4) (w.extractLsb' 0 1))
  | 0x0E => some (.xwrZ (hdG w) (w.extractLsb' 9 3) (w.extractLsb' 6 3) (w.extractLsb' 2 4) (w.extractLsb' 0 1))
  | 0x0F => some (.xput (hdG w) (w.extractLsb' 9 3) (w.extractLsb' 6 3) (w.extractLsb' 2 4) (w.extractLsb' 0 1))
  | 0x10 => some (.xget (hdG w) (w.extractLsb' 9 3) (w.extractLsb' 6 3) (w.extractLsb' 2 4) (w.extractLsb' 0 1))
  | 0x11 => some (.xsumF (hdG w) (w.extractLsb' 9 3) (w.extractLsb' 6 3) (w.extractLsb' 2 4) (w.extractLsb' 0 1))
  | 0x12 => some (.xsumI (hdG w) (w.extractLsb' 9 3) (w.extractLsb' 6 3) (w.extractLsb' 2 4) (w.extractLsb' 0 1))
  | 0x13 => some (.xatAdd (hdG w) (w.extractLsb' 10 2) (w.extractLsb' 6 3) (w.extractLsb' 2 4) (w.extractLsb' 0 1))
  | 0x14 => some (.xatSwp (hdG w) (w.extractLsb' 10 2) (w.extractLsb' 6 3) (w.extractLsb' 2 4) (w.extractLsb' 0 1))
  | 0x15 => some (.xatCas (hdG w) (w.extractLsb' 10 2) (w.extractLsb' 6 3) (w.extractLsb' 2 4) (w.extractLsb' 0 1))
  | 0x16 => some (.xatMax (hdG w) (w.extractLsb' 10 2) (w.extractLsb' 6 3) (w.extractLsb' 2 4) (w.extractLsb' 0 1))
  | 0x17 => some (.xatMin (hdG w) (w.extractLsb' 10 2) (w.extractLsb' 6 3) (w.extractLsb' 2 4) (w.extractLsb' 0 1))
  | 0x18 => some (.xatAnd (hdG w) (w.extractLsb' 10 2) (w.extractLsb' 6 3) (w.extractLsb' 2 4) (w.extractLsb' 0 1))
  | 0x19 => some (.xatOr (hdG w) (w.extractLsb' 10 2) (w.extractLsb' 6 3) (w.extractLsb' 2 4) (w.extractLsb' 0 1))
  | 0x1A => some (.xatXor (hdG w) (w.extractLsb' 10 2) (w.extractLsb' 6 3) (w.extractLsb' 2 4) (w.extractLsb' 0 1))
  | 0x1B => some (.xscLd (hdG w) (w.extractLsb' 10 2) (w.extractLsb' 6 3) (w.extractLsb' 2 4) (w.extractLsb' 0 1))
  | 0x1C => some (.xscSt (hdG w) (w.extractLsb' 10 2) (w.extractLsb' 6 3) (w.extractLsb' 2 4) (w.extractLsb' 0 1))
  | 0x1D => some (.xscAdd (hdG w) (w.extractLsb' 10 2) (w.extractLsb' 6 3) (w.extractLsb' 2 4) (w.extractLsb' 0 1))
  | 0x1E => some (.xscSwp (hdG w) (w.extractLsb' 10 2) (w.extractLsb' 6 3) (w.extractLsb' 2 4) (w.extractLsb' 0 1))
  | 0x1F => some (.xscCas (hdG w) (w.extractLsb' 10 2) (w.extractLsb' 6 3) (w.extractLsb' 2 4) (w.extractLsb' 0 1))
  | 0x20 => some (.xscMax (hdG w) (w.extractLsb' 10 2) (w.extractLsb' 6 3) (w.extractLsb' 2 4) (w.extractLsb' 0 1))
  | 0x21 => some (.fence (hdU w) (w.extractLsb' 0 16))
  | 0x22 => some (.xpop (hdG w) (w.extractLsb' 8 3) (w.extractLsb' 0 4))
  | 0x23 => some (.xpeek (hdG w) (w.extractLsb' 8 3) (w.extractLsb' 0 4))
  | _ => none

/-- The system instructions, by OP7 (R307). -/
noncomputable def rawLongF (w : W32) (op : Nat) : Option Instr :=
  match op with
  | 0x60 => some (.wrs (hdG w) (w.extractLsb' 8 4) (w.extractLsb' 0 8))
  | 0x61 => some (.rdsp (hdG w) (w.extractLsb' 8 4) (w.extractLsb' 0 8))
  | 0x62 => some (.eret (hdG w))
  | 0x63 => some (.waitev (hdG w) (w.extractLsb' 8 4) (w.extractLsb' 4 4))
  | 0x64 => some (.wvset (hdG w) (w.extractLsb' 4 4) (w.extractLsb' 0 4))
  | 0x65 => some (.cse (hdG w) (w.extractLsb' 8 4) (w.extractLsb' 4 4) (w.extractLsb' 0 4))
  | 0x66 => some (.zfill (hdG w) (w.extractLsb' 8 4) (w.extractLsb' 4 4))
  | 0x67 => some (.park (hdG w) (w.extractLsb' 8 4) (w.extractLsb' 4 4) (w.extractLsb' 0 4))
  | 0x68 => some (.unpark (hdG w) (w.extractLsb' 8 4) (w.extractLsb' 4 4) (w.extractLsb' 0 4))
  | 0x69 => some (.xphy (hdG w) (w.extractLsb' 10 2) (w.extractLsb' 2 4) (w.extractLsb' 0 1))
  | _ => none

/-- The common long forms, the same on every stream (R304). -/
def rawLongCommon (w : W32) (op : Nat) : Option Instr :=
  match op with
  | 0x00 => some (.idle (hdU w) (w.extractLsb' 0 12))
  | 0x01 => some (.join (hdU w) (w.extractLsb' 0 12))
  | 0x02 => some (.sync (hdU w) (w.extractLsb' 12 4) (w.extractLsb' 0 12))
  | 0x03 => some (.mark (hdU w) (w.extractLsb' 0 12))
  | _ => none

/-- The short forms of the C stream, by OP5 (R305). -/
def rawShortC (w : Parcel) (op : Nat) : Option Instr :=
  match op with
  | 2 => some (.inc (hdS w) (w.extractLsb' 0 4))
  | 3 => some (.dec (hdS w) (w.extractLsb' 0 4))
  | 4 => some (.neg (hdS w) (w.extractLsb' 0 4))
  | 5 => some (.not (hdS w) (w.extractLsb' 0 4))
  | 6 => some (.clr (hdS w) (w.extractLsb' 0 4))
  | 7 => some (.pclr (hdS w) (w.extractLsb' 0 3))
  | 8 => some (.pset (hdS w) (w.extractLsb' 0 3))
  | 9 => some (.pnot (hdS w) (w.extractLsb' 0 3))
  | 10 => some (.rdtk (hdS w) (w.extractLsb' 0 4))
  | _ => none

/-- The short forms of the V stream, by OP5 (R305). -/
noncomputable def rawShortV (w : Parcel) (op : Nat) : Option Instr :=
  match op with
  | 2 => some (.vzero (hdS w) (w.extractLsb' 0 4))
  | _ => none

/-- A block header is the same word on all five streams (R301). -/
def rawHeader (w : W32) : Instr :=
  .blockHeader (w.extractLsb' 16 12) (w.extractLsb' 15 1) (w.extractLsb' 12 3) (w.extractLsb' 0 12)

/-- The reading of a short-form parcel on a stream. -/
noncomputable def rawShort (st : StreamId) (w : Parcel) : Option Instr :=
  match (w.extractLsb' 10 5).toNat with
  | 0 => some (.nop (hdS w))
  | 1 => some (.endS (hdS w))
  | op =>
    match st with
    | .c | .f => rawShortC w op
    | .v => rawShortV w op
    | .l | .m | .s => none

/-- The reading of a long-form word on a stream: the common forms, then the stream's own; Cobbler reads C-stream
encodings and the system instructions (R316). -/
noncomputable def rawLong (st : StreamId) (w : W32) : Option Instr :=
  let op := (w.extractLsb' 24 7).toNat
  if 0x70 ≤ op then some (rawHeader w)
  else if op < 4 then rawLongCommon w op
  else
    match st with
    | .c => rawLongC w op
    | .f => if 0x60 ≤ op then rawLongF w op else rawLongC w op
    | .l => rawLongL w op
    | .m => rawLongM w op
    | .v => rawLongV w op
    | .s => rawLongS w op

/-- Why a decoder refuses (R312). -/
inductive DecodeError where
  /-- no parcel, or a long form cut off by the end of the section -/
  | cutOff
  /-- OP5 or OP7 unassigned on the stream -/
  | unassigned
  /-- a field outside its limits, or a field that must be zero is not -/
  | badField
  /-- a system instruction in an owner's C image (R421) -/
  | privileged
  deriving DecidableEq, Repr

/-- Accept a reading only when it is well formed and encodes to the parcels read. -/
def accept (r : Option Instr) (ps : List Parcel) : Except DecodeError Instr :=
  match r with
  | none => .error .unassigned
  | some i => if i.wellFormed && i.encode == ps then .ok i else .error .badField

/-- Decode the instruction at the head of a list of parcels (R298): the instruction and how many parcels it takes. -/
noncomputable def decode (st : StreamId) (ps : List Parcel) : Except DecodeError (Instr × Nat) :=
  match ps with
  | [] => .error .cutOff
  | p :: rest =>
    if p.getLsbD 15 then
      match rest with
      | [] => .error .cutOff
      | p2 :: _ =>
        let w : W32 := p ++ p2
        let op := (w.extractLsb' 24 7).toNat
        if st = .c ∧ 0x60 ≤ op ∧ op ≤ 0x69 then .error .privileged
        else (accept (rawLong st w) [p, p2]).map (·, 2)
    else (accept (rawShort st p) [p]).map (·, 1)

/-- The length in parcels of an instruction's encoding (0 for an event). -/
def Instr.parcels (i : Instr) : Nat := i.encode.length

/-! ### Bytes -/

/-- The two bytes of a parcel as memory holds them, little-endian (R298). -/
def parcelBytes (p : Parcel) : List Byte := [p.extractLsb' 0 8, p.extractLsb' 8 8]

/-- The parcels that a list of bytes holds; an odd last byte is dropped. -/
def bytesParcels : List Byte → List Parcel
  | lo :: hi :: rest => (hi ++ lo) :: bytesParcels rest
  | _ => []

/-- The parcels of a table word: one for a 16-bit row, two with the high parcel first for a 32-bit row (R298). -/
def tableParcels (nbits w : Nat) : List Parcel :=
  if nbits ≤ 16 then [BitVec.ofNat 16 w] else two (BitVec.ofNat 32 w)

/-- The bytes of a table word as the hardware stores them (R298). -/
def tableBytes (nbits w : Nat) : List Byte := (tableParcels nbits w).flatMap parcelBytes

/-- The streams in the order in which a table word is tried; the meaning of an opcode depends on the stream whose
section holds it (chapter 16), and a table word names none: DESIGN CHOICE (log entry 8). -/
def tableStreams : List StreamId := [.c, .v, .l, .m, .s, .f]

/-- Decode on the first stream of a list that accepts the parcels. -/
noncomputable def decodeFirst (ps : List Parcel) : List StreamId → Option (Instr × StreamId)
  | [] => none
  | st :: sts =>
    match decode st ps with
    | .ok (i, _) => some (i, st)
    | .error _ => decodeFirst ps sts

/-- The stream on which a table word is decoded, `c` if none accepts it. -/
noncomputable def tableStream (nbits w : Nat) : StreamId :=
  match decodeFirst (bytesParcels (tableBytes nbits w)) tableStreams with
  | some (_, st) => st
  | none => .c

/-- The instruction the decoder reads from a word numbered as spec/opcode_table.json numbers it. -/
noncomputable def decodeTableWord (nbits w : Nat) : Option Instr :=
  (decodeFirst (bytesParcels (tableBytes nbits w)) tableStreams).map (·.1)

end Sys2Proof
end

