-- ==== Sys2Proof/Machine/Staging.lean ====
section
/-! DEFINITION. Containers (R294-R297), the checks of staging (R154, R174, R178, R312-R315), and what it finds in a
container as it reads it (R91, R195, R267). -/

namespace Sys2Proof.Machine

/-! ### The container (R294, R296) -/

/-- A little-endian field of a list of bytes. -/
def field (b : List Byte) (off n : Nat) : Nat := leNat ((b.drop off).take n)

/-- An entry of the section table. -/
structure Sect where
  off : Nat
  size : Nat
  count : Nat
  deriving DecidableEq, Repr

/-- Bytes of the header and the section table. -/
def headBytes : Nat := 0x160

/-- Entry `i` of the section table of a header. -/
def sectOf (h : List Byte) (i : Nat) : Sect :=
  { off := field h (0x40 + 32 * i + 8) 8, size := field h (0x40 + 32 * i + 16) 8, count := field h (0x40 + 32 * i + 24) 8 }

/-- Whether entry `i` of the table, after the sections that end at `fin`, is in its place and in its form (R297). -/
def sectOk (h : List Byte) (fin i : Nat) : Bool :=
  let e := sectOf h i
  decide (field h (0x40 + 32 * i) 4 = i + 1 ∧ field h (0x44 + 32 * i) 4 = 0 ∧ e.off % 256 = 0 ∧ fin ≤ e.off
      ∧ e.off + e.size ≤ field h 8 8)
    && (decide (5 ≤ i) || decide (e.size = 2 * e.count)) && (decide (i ≠ 5) || decide (e.size = 24 * e.count))
    && (decide (i ≠ 8) || decide (e.size = 64 ∧ e.count = 1))

/-- The checks of R297 on the header and the section table. -/
def headOk (h : List Byte) : Bool :=
  decide (field h 0 4 = 0x4F534144 ∧ field h 4 2 = 1 ∧ field h 6 2 = 9 ∧ field h 0x38 8 = 0)
    && (List.range 9).all fun i => sectOk h (if i = 0 then headBytes else (sectOf h (i - 1)).off + (sectOf h (i - 1)).size) i

/-- Whether the size of a `.meta` section matches its counts (R297). -/
def metaOk (m : List Byte) : Bool :=
  decide (0x20 ≤ m.length)
    && decide (m.length = 0x20 + 16 * field m 0x18 2 + 16 * field m 0x1A 2 + 24 * field m 0x1C 2)

/-- The eviction points of a `.meta`: five parcel offsets each (R296). -/
def metaPoints (m : List Byte) : List (List Nat) :=
  let base := 0x20 + 16 * field m 0x18 2 + 16 * field m 0x1A 2
  (List.range (field m 0x1C 2)).map fun i => (List.range 5).map fun j => field m (base + 24 * i + 4 * j) 4

/-- A strand with the needs that a `.meta` declares; `imem` is the size of its images (R175). -/
def metaStrand (m : List Byte) (imem : Nat) : Strand :=
  let flags := field m 6 2
  let smin := 2 ^ field m 4 1
  { w := field m 0 2, h := field m 2 2, smin := smin, smax := 2 ^ field m 5 1, matrix := bit flags 0, thr := bit flags 1,
    scuse := bit flags 2, remote := bit flags 3, g5 := bit flags 4, om := field m 0xC 1, ring := field m 0xD 1,
    vregs := field m 0xE 1, levels := field m 0xF 1, txrate := field m 0x10 1, hbmrate := field m 0x11 1,
    mmrate := field m 0x14 4, imem := imem, evPoints := metaPoints m,
    dist := stopDistance (field m 0 2) (field m 2 2) smin }

/-! ### What staging finds -/

/-- A case found: the status, the stream (7 for none), the parcel offset, the address that the record shows. -/
structure Bug where
  status : Nat
  stream : Nat := 7
  off : Nat := 0
  addr : Nat := 0
  deriving DecidableEq, Repr

/-- A header, section table or `.meta` that fails its checks. -/
def malformed : Bug := { status := 0x0302 }

/-! ### Declarations (R174, R315) -/

/-- Whether a number is not below what is declared. -/
def past (n d : Nat) : Bool := decide (d ≤ n)

/-- Whether an instruction uses a vector register, slot, ring, transfer kind or domain that the container does not
declare. -/
def overDecl (d : Strand) : Instr → Bool
  | .sync _ a _ => !bit d.levels a.toNat || (decide (a.toNat = 5) && !d.g5)
  | .claim _ oa n => past (oa.toNat + n.toNat) d.om
  | .release _ oa n => past (oa.toNat + n.toNat) d.om
  | .ldta _ oa _ => past oa.toNat d.om
  | .ldtb _ oa _ => past oa.toNat d.om
  | .lde _ oa _ => past oa.toNat d.om
  | .ldtf _ oa _ n => past (oa.toNat + n.toNat) d.om
  | .ldvW _ a _ => past a.toNat d.vregs
  | .ldvH _ a _ => past a.toNat d.vregs
  | .ldvHu _ a _ => past a.toNat d.vregs
  | .ldvB _ a _ => past a.toNat d.vregs
  | .ldvBu _ a _ => past a.toNat d.vregs
  | .ldvrW _ a _ => past a.toNat d.vregs
  | .ldvcW _ a _ => past a.toNat d.vregs
  | .ldg _ a b _ _ => past a.toNat d.vregs || past b.toNat d.vregs
  | .mma _ oa n => past (max oa.toNat n.toNat) d.om || decide (d.ring = 0)
  | .mmaw _ oa n => past (max oa.toNat n.toNat + 1) d.om || decide (d.ring = 0)
  | .radv _ => decide (d.ring = 0)
  | .rskip _ => decide (d.ring = 0)
  | .tcfg _ oa _ => past (oa.toNat + 21) d.om
  | .teval _ oa => past (oa.toNat + 3) d.om || decide (d.ring = 0)
  | .tmask _ _ => decide (d.ring = 0)
  | .mclr _ => decide (d.ring = 0)
  | .stvW _ a _ => past a.toNat d.vregs
  | .stvH _ a _ => past a.toNat d.vregs
  | .stvHs _ a _ => past a.toNat d.vregs
  | .stvB _ a _ => past a.toNat d.vregs
  | .stvBs _ a _ => past a.toNat d.vregs
  | .stvc _ a _ _ _ => past a.toNat d.vregs
  | .xput _ _ _ _ _ => !d.remote
  | .xget _ _ _ _ _ => !d.remote
  | .xsumF _ _ _ _ _ => !d.remote
  | .xsumI _ _ _ _ _ => !d.remote
  | .xscLd _ _ _ _ _ => !d.scuse
  | .xscSt _ _ _ _ _ => !d.scuse
  | .xscAdd _ _ _ _ _ => !d.scuse
  | .xscSwp _ _ _ _ _ => !d.scuse
  | .xscCas _ _ _ _ _ => !d.scuse
  | .xscMax _ _ _ _ _ => !d.scuse
  | .vzero _ a => past a.toNat d.vregs
  | .vfadd _ a b c => past a.toNat d.vregs || past b.toNat d.vregs || past c.toNat d.vregs
  | .vfsub _ a b c => past a.toNat d.vregs || past b.toNat d.vregs || past c.toNat d.vregs
  | .vfmul _ a b c => past a.toNat d.vregs || past b.toNat d.vregs || past c.toNat d.vregs
  | .vfma _ a b c => past a.toNat d.vregs || past b.toNat d.vregs || past c.toNat d.vregs
  | .vfms _ a b c => past a.toNat d.vregs || past b.toNat d.vregs || past c.toNat d.vregs
  | .vfnma _ a b c => past a.toNat d.vregs || past b.toNat d.vregs || past c.toNat d.vregs
  | .vfnms _ a b c => past a.toNat d.vregs || past b.toNat d.vregs || past c.toNat d.vregs
  | .vfdiv _ a b c => past a.toNat d.vregs || past b.toNat d.vregs || past c.toNat d.vregs
  | .vfmin _ a b c => past a.toNat d.vregs || past b.toNat d.vregs || past c.toNat d.vregs
  | .vfmax _ a b c => past a.toNat d.vregs || past b.toNat d.vregs || past c.toNat d.vregs
  | .vfabs _ a b => past a.toNat d.vregs || past b.toNat d.vregs
  | .vfneg _ a b => past a.toNat d.vregs || past b.toNat d.vregs
  | .vffloor _ a b => past a.toNat d.vregs || past b.toNat d.vregs
  | .vfround _ a b => past a.toNat d.vregs || past b.toNat d.vregs
  | .vfclass _ a b => past a.toNat d.vregs || past b.toNat d.vregs
  | .vfrcp _ a b => past a.toNat d.vregs || past b.toNat d.vregs
  | .vfsqrt _ a b => past a.toNat d.vregs || past b.toNat d.vregs
  | .vfrsq _ a b => past a.toNat d.vregs || past b.toNat d.vregs
  | .vfexp2 _ a b => past a.toNat d.vregs || past b.toNat d.vregs
  | .vflog2 _ a b => past a.toNat d.vregs || past b.toNat d.vregs
  | .vftanh _ a b => past a.toNat d.vregs || past b.toNat d.vregs
  | .vfsigm _ a b => past a.toNat d.vregs || past b.toNat d.vregs
  | .vadd _ a b c => past a.toNat d.vregs || past b.toNat d.vregs || past c.toNat d.vregs
  | .vsub _ a b c => past a.toNat d.vregs || past b.toNat d.vregs || past c.toNat d.vregs
  | .vadds _ a b c => past a.toNat d.vregs || past b.toNat d.vregs || past c.toNat d.vregs
  | .vsubs _ a b c => past a.toNat d.vregs || past b.toNat d.vregs || past c.toNat d.vregs
  | .vmul _ a b c => past a.toNat d.vregs || past b.toNat d.vregs || past c.toNat d.vregs
  | .vmulh _ a b c => past a.toNat d.vregs || past b.toNat d.vregs || past c.toNat d.vregs
  | .vmin _ a b c => past a.toNat d.vregs || past b.toNat d.vregs || past c.toNat d.vregs
  | .vmax _ a b c => past a.toNat d.vregs || past b.toNat d.vregs || past c.toNat d.vregs
  | .vminu _ a b c => past a.toNat d.vregs || past b.toNat d.vregs || past c.toNat d.vregs
  | .vmaxu _ a b c => past a.toNat d.vregs || past b.toNat d.vregs || past c.toNat d.vregs
  | .vabs _ a b => past a.toNat d.vregs || past b.toNat d.vregs
  | .vand _ a b c => past a.toNat d.vregs || past b.toNat d.vregs || past c.toNat d.vregs
  | .vor _ a b c => past a.toNat d.vregs || past b.toNat d.vregs || past c.toNat d.vregs
  | .vxor _ a b c => past a.toNat d.vregs || past b.toNat d.vregs || past c.toNat d.vregs
  | .vnot _ a b => past a.toNat d.vregs || past b.toNat d.vregs
  | .vshl _ a b c => past a.toNat d.vregs || past b.toNat d.vregs || past c.toNat d.vregs
  | .vshr _ a b c => past a.toNat d.vregs || past b.toNat d.vregs || past c.toNat d.vregs
  | .vsar _ a b c => past a.toNat d.vregs || past b.toNat d.vregs || past c.toNat d.vregs
  | .vshli _ a b _ => past a.toNat d.vregs || past b.toNat d.vregs
  | .vshri _ a b _ => past a.toNat d.vregs || past b.toNat d.vregs
  | .vsari _ a b _ => past a.toNat d.vregs || past b.toNat d.vregs
  | .vpopc _ a b => past a.toNat d.vregs || past b.toNat d.vregs
  | .vclz _ a b => past a.toNat d.vregs || past b.toNat d.vregs
  | .vctz _ a b => past a.toNat d.vregs || past b.toNat d.vregs
  | .vclmulL _ a b c => past a.toNat d.vregs || past b.toNat d.vregs || past c.toNat d.vregs
  | .vclmulH _ a b c => past a.toNat d.vregs || past b.toNat d.vregs || past c.toNat d.vregs
  | .vdot2Bf _ a b c => past a.toNat d.vregs || past b.toNat d.vregs || past c.toNat d.vregs
  | .vdot4I8 _ a b c => past a.toNat d.vregs || past b.toNat d.vregs || past c.toNat d.vregs
  | .vfcmpEq _ _ b c => past b.toNat d.vregs || past c.toNat d.vregs
  | .vfcmpNe _ _ b c => past b.toNat d.vregs || past c.toNat d.vregs
  | .vfcmpLt _ _ b c => past b.toNat d.vregs || past c.toNat d.vregs
  | .vfcmpLe _ _ b c => past b.toNat d.vregs || past c.toNat d.vregs
  | .vfcmpUn _ _ b c => past b.toNat d.vregs || past c.toNat d.vregs
  | .vcmpEq _ _ b c => past b.toNat d.vregs || past c.toNat d.vregs
  | .vcmpNe _ _ b c => past b.toNat d.vregs || past c.toNat d.vregs
  | .vcmpLt _ _ b c => past b.toNat d.vregs || past c.toNat d.vregs
  | .vcmpLe _ _ b c => past b.toNat d.vregs || past c.toNat d.vregs
  | .vcmpLtu _ _ b c => past b.toNat d.vregs || past c.toNat d.vregs
  | .vcmpLeu _ _ b c => past b.toNat d.vregs || past c.toNat d.vregs
  | .vmov _ a b => past a.toNat d.vregs || past b.toNat d.vregs
  | .vspl _ a _ => past a.toNat d.vregs
  | .vimm _ a _ => past a.toNat d.vregs
  | .vsel _ a b c _ _ => past a.toNat d.vregs || past b.toNat d.vregs || past c.toNat d.vregs
  | .vmpack _ a _ => past a.toNat d.vregs
  | .vmunpk _ _ b => past b.toNat d.vregs
  | .vcvtFi _ a b => past a.toNat d.vregs || past b.toNat d.vregs
  | .vcvtIf _ a b => past a.toNat d.vregs || past b.toNat d.vregs
  | .vcvtFb _ a b => past a.toNat d.vregs || past b.toNat d.vregs
  | .vcvtBf _ a b => past a.toNat d.vregs || past b.toNat d.vregs
  | .vcvtFk _ a b => past a.toNat d.vregs || past b.toNat d.vregs
  | .vquant _ a b _ _ => past a.toNat d.vregs || past b.toNat d.vregs
  | .vqexp _ a b _ _ => past a.toNat d.vregs || past b.toNat d.vregs
  | .vrotR _ a b _ _ => past a.toNat d.vregs || past b.toNat d.vregs
  | .vrotC _ a b _ _ => past a.toNat d.vregs || past b.toNat d.vregs
  | .vbcR _ a b _ _ => past a.toNat d.vregs || past b.toNat d.vregs
  | .vbcC _ a b _ _ => past a.toNat d.vregs || past b.toNat d.vregs
  | .vpermR _ a b c _ => past a.toNat d.vregs || past b.toNat d.vregs || past c.toNat d.vregs
  | .vpermC _ a b c _ => past a.toNat d.vregs || past b.toNat d.vregs || past c.toNat d.vregs
  | .vredRFadd _ a b _ => past a.toNat d.vregs || past b.toNat d.vregs
  | .vredRIadd _ a b _ => past a.toNat d.vregs || past b.toNat d.vregs
  | .vredRXor _ a b _ => past a.toNat d.vregs || past b.toNat d.vregs
  | .vredRMax _ a b _ => past a.toNat d.vregs || past b.toNat d.vregs
  | .vredRMin _ a b _ => past a.toNat d.vregs || past b.toNat d.vregs
  | .vredCFadd _ a b _ => past a.toNat d.vregs || past b.toNat d.vregs
  | .vredCIadd _ a b _ => past a.toNat d.vregs || past b.toNat d.vregs
  | .vredCXor _ a b _ => past a.toNat d.vregs || past b.toNat d.vregs
  | .vredCMax _ a b _ => past a.toNat d.vregs || past b.toNat d.vregs
  | .vredCMin _ a b _ => past a.toNat d.vregs || past b.toNat d.vregs
  | .vscanRFadd _ a b _ => past a.toNat d.vregs || past b.toNat d.vregs
  | .vscanRIadd _ a b _ => past a.toNat d.vregs || past b.toNat d.vregs
  | .vscanRXor _ a b _ => past a.toNat d.vregs || past b.toNat d.vregs
  | .vscanCFadd _ a b _ => past a.toNat d.vregs || past b.toNat d.vregs
  | .vscanCIadd _ a b _ => past a.toNat d.vregs || past b.toNat d.vregs
  | .vscanCXor _ a b _ => past a.toNat d.vregs || past b.toNat d.vregs
  | .vcpr _ a b _ _ => past a.toNat d.vregs || past b.toNat d.vregs
  | .vidx _ a => past a.toNat d.vregs
  | .rpop _ a _ => past a.toNat d.vregs || decide (d.ring = 0)
  | .rfree _ => decide (d.ring = 0)
  | .vbrev _ a b => past a.toNat d.vregs || past b.toNat d.vregs
  | _ => false

/-! ### One image (R312-R314) -/

/-- An item of a C image for the breathing rule: its block depth and parcel offset, and for a block its count (none where
it comes from an lc register) and stages, or for an instruction whether idle ticks follow it. -/
structure CItem where
  depth : Nat
  off : Nat
  block : Bool
  count : Option Nat := none
  stages : Nat := 0
  gap : Bool := false
  deriving DecidableEq, Repr

/-- What the scan of an image ends in: a case, a parcel that could not be read, or nothing. -/
inductive Scan where
  | bad (status off : Nat)
  | unread (off : Nat)
  | fine (items : List CItem)
  deriving DecidableEq, Repr

/-- Whether the guard or selector of the instruction at an offset is fs (R181). -/
def namesFs (st : StreamId) (img : List Parcel) (k : Nat) : Bool :=
  let p := parcelAt img k
  p.getLsbD 15 && hasG st (p.extractLsb' 8 7).toNat && decide ((parcelAt img (k + 1)).extractLsb' 12 4 = 8)

/-- Whether idle ticks follow an instruction: its idle count, IDLE and SYNC (R154). -/
def idlesAfter (img : List Parcel) (k : Nat) (i : Instr) : Bool :=
  let p := parcelAt img k
  (if p.getLsbD 15 then decide (p.extractLsb' 4 4 ≠ 0) else decide (p.extractLsb' 8 2 ≠ 0)) ||
    match i with
    | .idle _ n => decide (n ≠ 0)
    | .sync _ _ n => decide (n ≠ 0)
    | .endS _ => true
    | _ => false

/-- Scan an image of `n` parcels from an offset: the open blocks, innermost first, with the end of their bodies and
whether they are pipelined; END already seen. -/
noncomputable def scanFrom (st : StreamId) (d : Strand) (n : Nat) (img : List Parcel) :
    Nat → Nat → List (Nat × Bool) → Bool → List CItem → Scan
  | 0, _, _, _, acc => .fine acc
  | fuel + 1, off, open_, ended, acc =>
    if n ≤ off then (if n = 0 then .bad 0x0302 0 else .fine acc)
    else if img.length ≤ off then .unread off
    else if n < off + plen img off ∨ ended then .bad 0x0302 off
    else if img.length < off + plen img off then .unread off
    else
      let bs := open_.dropWhile fun b => b.1 ≤ off
      let pipe := bs.any (·.2)
      let inner := (bs.head?.map (·.1)).getD n
      match decode st (img.drop off) with
      | .error .privileged =>
        let w : W32 := parcelAt img off ++ parcelAt img (off + 1)
        let ok := match accept (rawLongF w (w.extractLsb' 24 7).toNat) ((img.drop off).take 2) with
          | .ok _ => !(namesFs .f img off && !pipe) && decide (off + 2 ≠ n ∧ off + 2 ≤ inner)
          | .error _ => false
        .bad (if ok then 0x0304 else 0x0302) off
      | .error _ => .bad 0x0302 off
      | .ok (.blockHeader len cs stg cnt, _) =>
        let fin := off + 2 + len.toNat
        if 3 ≤ bs.length ∨ n < fin ∨ inner < fin ∨ (stg ≠ 0 ∧ pipe) then .bad 0x0302 off
        else if 256 < len.toNat ∧ (cs = 1 ∨ cnt ≠ 1 ∨ stg ≠ 0) then .bad 0x0305 off
        else
          let item : CItem := { depth := bs.length, off := off, block := true, stages := stg.toNat,
                                count := if cs = 1 then none else some cnt.toNat }
          scanFrom st d n img fuel (off + 2) ((fin, decide (stg ≠ 0)) :: bs) false (acc ++ [item])
      | .ok (i, len) =>
        let fin : Bool := match i with | .endS _ => true | _ => false
        if inner < off + len ∨ (fin ∧ bs ≠ []) ∨ (!fin ∧ off + len = n) ∨ (namesFs st img off ∧ !pipe) then .bad 0x0302 off
        else if overDecl d i then .bad 0x0306 off
        else
          let item : CItem := { depth := bs.length, off := off, block := false, gap := idlesAfter img off i }
          scanFrom st d n img fuel (off + len) bs fin (acc ++ [item])

/-! ### The breathing rule (R154) -/

/-- Ticks issued in a row up to now, and the lowest offset that issued in the 32nd tick of a run. -/
structure Breath where
  run : Nat := 0
  worst : Option Nat := none
  deriving DecidableEq, Repr

/-- An instruction issues. -/
def Breath.issue (b : Breath) (i : CItem) : Breath :=
  let r := b.run + 1
  { run := if i.gap then 0 else r
    worst := if r < 32 then b.worst else some (min i.off (b.worst.getD i.off)) }

/-- The lower of two offsets, where there are any. -/
def lowerOff : Option Nat → Option Nat → Option Nat
  | some a, some b => some (min a b)
  | some a, none => some a
  | none, w => w

/-- Run a list of items under counts for the lc-counted blocks, by the offset of their headers. -/
def breatheItems (counts : List (Nat × Nat)) : Nat → List CItem → Breath → Breath
  | 0, _, b => b
  | _ + 1, [], b => b
  | fuel + 1, i :: l, b =>
    if i.block then
      let n := match i.count with | some c => min c 34 | none => tget 0 counts i.off
      let m := if n = 0 then 0 else n + i.stages - (if i.stages = 0 then 0 else 1)
      let body := l.takeWhile fun j => i.depth < j.depth
      let b := (List.range m).foldl (fun b _ => breatheItems counts fuel body b) b
      breatheItems counts fuel (l.drop body.length) b
    else breatheItems counts fuel l (b.issue i)

/-- Every choice of the counts 0, 1 and 2 for a list of blocks. -/
def countChoices : List Nat → List (List (Nat × Nat))
  | [] => [[]]
  | h :: l => (countChoices l).flatMap fun c => [0, 1, 2].map fun n => tset c h n

/-- Whether the count of a block may be 2 or more. -/
def CItem.cycles (i : CItem) : Bool := i.block && match i.count with | some c => decide (2 ≤ c) | none => true

/-- The lowest breaking offset of a body taken as a cycle. Of 34 executions in a row the last lies wholly beyond the 32nd tick where no tick
idles. -/
def cycleWorst (counts : List (Nat × Nat)) (body : List CItem) : Option Nat :=
  ((List.range 34).foldl (fun b _ => breatheItems counts (body.length + 1) body b) {}).worst

/-- The lowest breaking offset of the bodies of a list of items that are taken as cycles. -/
def cyclesWorst (counts : List (Nat × Nat)) : List CItem → Option Nat
  | [] => none
  | i :: l =>
    lowerOff (if i.cycles then cycleWorst counts (l.takeWhile fun j => i.depth < j.depth) else none) (cyclesWorst counts l)

/-- The lowest offset at which a C image breaks the rule. -/
def breathless (items : List CItem) : Option Nat :=
  let lcs := (items.filter fun i => i.block && i.count.isNone).map (·.off)
  (countChoices lcs).foldl (fun w c =>
    lowerOff (lowerOff (breatheItems c (items.length + 1) items {}).worst (cyclesWorst c items)) w) none

/-- The case of an image, if any; `img` holds the parcels that could be read of its `n`. -/
noncomputable def imageCase (st : StreamId) (d : Strand) (n : Nat) (img : List Parcel) : Scan :=
  match scanFrom st d n img (n + 1) 0 [] false [] with
  | .fine items =>
    match (if st = .c then breathless items else none) with
    | some off => .bad 0x0302 off
    | none => .fine items
  | r => r

/-! ### What the M image uses (R133, R358) -/

/-- The OP7 values of the long forms of an M image that are no block headers and no common instructions. -/
def matrixOps : Nat → List Parcel → List Nat
  | 0, _ => []
  | _ + 1, [] => []
  | fuel + 1, p :: l =>
    let op := (p.extractLsb' 8 7).toNat
    if !p.getLsbD 15 then matrixOps fuel l
    else if 4 ≤ op ∧ op < 0x70 then op :: matrixOps fuel (l.drop 1) else matrixOps fuel (l.drop 1)

/-- Whether an M image uses the M stream, and whether it makes its owner hold the threshold store: TCFG, TEVAL or TMASK. -/
def matrixUse (img : List Parcel) : Bool × Bool :=
  let l := matrixOps img.length img
  (!l.isEmpty, l.any fun op => decide (8 ≤ op ∧ op ≤ 10))

/-! ### The whole container -/

/-- What a read of a range of a VD met: the bytes before the first line that could not be read, and why it could not. -/
def readUpTo (s : State) (cid : Nat) : List (Nat × Nat) → List Byte × Option (VaErr)
  | [] => ([], none)
  | (va, n) :: l =>
    match translate s cid va false with
    | .error e => ([], some e)
    | .ok (pa, _) =>
      if (ppoison s pa n).isEmpty then
        let r := readUpTo s cid l
        (pread s pa n ++ r.1, r.2)
      else ([], some (.fault .transferUncorrectable va))

/-- The records of a `.data` section: place in the container, window address, bytes; none where one runs beyond the
section. -/
def dataRecords (sec : List Byte) : Nat → Nat → List (Nat × Option (Nat × List Byte))
  | 0, _ => []
  | n + 1, p =>
    let len := field sec (p + 4) 4
    if sec.length < p + 8 + len then [(p, none)]
    else (p, some (field sec p 4, (sec.drop (p + 8)).take len)) :: dataRecords sec n (p + 8 + (len + 7) / 8 * 8)

/-- The case of image `i`, if any; `got` are the bytes read, `va` the container's address. -/
noncomputable def imageBug (d : Strand) (va : Nat) (got : List Byte) (i : Nat) : Option Bug :=
  let e := sectOf got i
  match imageCase (streams.getD i .c) d e.count (bytesParcels ((got.drop e.off).take e.size)) with
  | .bad st off => some { status := st, stream := i, off := off }
  | .unread off => some { status := 0x0301, stream := i, off := off, addr := (va + got.length) / 65536 * 65536 }
  | .fine _ => none

/-- The case of the `.data` section, if any. -/
def dataBug (d : Strand) (va : Nat) (got : List Byte) : Option Bug :=
  let e := sectOf got 7
  (dataRecords ((got.drop e.off).take e.size) e.count 0).findSome? fun (p, r) =>
    match r with
    | some (a, b) => if d.win < a + b.length then some { status := 0x0306, addr := va + e.off + p } else none
    | none => if got.length < e.off + e.size then none else some malformed

/-- Whether the section table locates `.dig`: its entry names the section, within the bytes read. -/
def digLocated (raw : List Byte) : Bool :=
  decide (headBytes ≤ raw.length ∧ field raw (0x40 + 32 * 8) 4 = 9 ∧ (sectOf raw 8).off ≤ raw.length)

/-- Dc of R91: the digest of the bytes before `.dig`, or of the whole container where the table does not locate it. -/
def containerDigest (raw : List Byte) : List Byte :=
  shake256 64 (if digLocated raw then raw.take (sectOf raw 8).off else raw.take (field raw 8 8))

/-- The first case of a container in increasing VA; `got` are the bytes read before the first that could not be. -/
noncomputable def containerBug (d : Strand) (va : Nat) (got : List Byte) (whole : Bool) : Option Bug :=
  let miss : Bug := { status := 0x0301, addr := va + got.length }
  if got.length < headBytes then some (if whole then malformed else miss)
  else if !headOk got then some malformed
  else
    match (List.range 5).findSome? (imageBug d va got) with
    | some b => some b
    | none =>
      let m := sectOf got 6
      if got.length < m.off + m.size then some (if whole then malformed else miss)
      else if !metaOk ((got.drop m.off).take m.size) then some malformed
      else
        match dataBug d va got with
        | some b => some b
        | none =>
          if !whole then some miss
          else
            let g := sectOf got 8
            if (got.drop g.off).take g.size = containerDigest got then none else some malformed

end Sys2Proof.Machine
end

