-- ==== Sys2Proof/Machine/Placer.lean ====
section
/-! DEFINITION. Admission (R70, R113, R145, R146), the eviction of an expired lease for a waiting head (R122), resumption
(R121), staging (R91, R195, R267, R297) and the start (R155). -/

namespace Sys2Proof.Machine

/-! ### The examination of a container before admission (R145) -/

/-- What the placer reads of a container: the bytes of `.meta` with the strand they describe, a page to wait for, or a
case that ends the LAUNCH. -/
inductive Fetch where
  | needs (m : List Byte) (t : Strand)
  | wait (page : Nat)
  | bug (b : Bug)
  deriving DecidableEq, Repr

/-- Read a range for staging: its bytes, or a page to wait for, or the fault. -/
def stageRead (s : State) (cid va n : Nat) : Sum (List Byte) Fetch :=
  match readUpTo s cid (lineParts va n) with
  | (b, none) => .inl b
  | (_, some (.demand p)) => .inr (.wait p)
  | (b, some (.fault _ _)) => .inr (.bug { status := 0x0301, addr := va + b.length })

/-- Bytes that such a read has read: the lines before the one that it could not have, and that one where it is poisoned (R97). -/
def stageGot (s : State) (cid va n : Nat) : Nat :=
  let got := (readUpTo s cid (lineParts va n)).1.length
  let more := match (lineParts va n).find? fun x => x.1 = va + got with
    | some (a, m) => (match translate s cid a false with | .ok _ => m | .error _ => 0)
    | none => 0
  got + more

/-- Count what a read for staging has read in the meters it meets, beyond its first `had` bytes, which were counted before it held on a
page. -/
def countStage (cid va n had : Nat) (s : State) : State :=
  let k := stageGot s cid va n - had
  chargeOper (countRead s cid (va + had) k) (rangeEnergy s cid (va + had) k)

/-- The argument block of a LAUNCH of a VD, or, in replay mode, the recording that holds it (R278). -/
def argBase (v : Vd) (p : Packet) : Nat := if v.rpl.mode = 2 then v.rpl.va.toNat * 256 else p.w2.toNat * 256

/-- The launch register whose low half word gives the fabric group id, if the `.meta` names one (R296). -/
def gidReg (m : List Byte) : Option Nat := if bit (field m 6 2) 5 then some (field m 0x12 2 % 64) else none

/-- Use of the M stream and of the threshold store, which the M image of a container gives (R133): the placer reads it beside `.meta`.
An image that cannot be read is taken at the flags of `.meta`: DEDUCED (log entry 93). -/
def withUse (t : Strand) : Sum (List Byte) Fetch → Strand
  | .inl b => let use := matrixUse (bytesParcels b); { t with matrix := use.1, thr := use.2 }
  | .inr _ => t

/-- What the examination of a container reads: each range, and how the read ended. The fabric group id of a strand that
joins a group is in `.meta`, or in the launch register that it names (R288). -/
def fetchNeeds (s : State) (cid va args : Nat) : Fetch × List (Nat × Nat) :=
  let r0 := (va, headBytes)
  match stageRead s cid va headBytes with
  | .inr f => (f, [r0])
  | .inl h =>
    if !headOk h then (.bug malformed, [r0])
    else
      let e := sectOf h 6
      let r1 := (va + e.off, e.size)
      match stageRead s cid (va + e.off) e.size with
      | .inr f => (f, [r0, r1])
      | .inl m =>
        if !metaOk m then (.bug malformed, [r0, r1])
        else
          let imem := 2 * ((List.range 5).foldl (fun n i => n + (sectOf h i).count) 0)
          let i := sectOf h 2
          let r2 := (va + i.off, i.size)
          match stageRead s cid (va + i.off) i.size with
          | .inr (.wait p) => (.wait p, [r0, r1, r2])
          | img =>
            let t := withUse (metaStrand m imem) img
            match (if t.g5 then gidReg m else none) with
            | none => (.needs m { t with gid := if t.g5 then field m 0x12 2 else 0 }, [r0, r1, r2])
            | some n =>
              let r3 := (args + 8 * n, 8)
              match stageRead s cid (args + 8 * n) 8 with
              | .inl b => (.needs m { t with gid := leNat b % 65536 }, [r0, r1, r2, r3])
              | .inr f => (f, [r0, r1, r2, r3])

/-- Stride and phase pin of a LAUNCH (R62). -/
def Packet.stride (p : Packet) : Nat := (p.w4.extractLsb' 0 8).toNat
def Packet.pin (p : Packet) : Nat := (p.w4.extractLsb' 8 8).toNat

/-- Refused with ADMIT_SHAPE (R52, R70, R207). -/
def badShape (s : State) (p : Packet) (t : Strand) : Bool :=
  !([0, 1, 2, 4, 8, 16, 32].contains p.stride)
    || (decide (p.stride ≠ 0) && !decide (t.smin ≤ p.stride ∧ p.stride ≤ t.smax))
    || (decide (p.pin ≠ 0xFF) && decide (p.stride ≤ p.pin ∨ (16 ≤ p.stride ∧ p.pin % 16 = 15)))
    || decide (t.w = 0 ∨ t.h = 0) || (t.remote && decide (12 < t.w ∨ 16 < t.h))
    || (t.g5 && (groupRoot s t.gid).isNone)

/-- The partition with nothing admitted. -/
def emptied (s : State) : State :=
  { s with strands := [], cores := tmap s.cores fun _ k => { k with owners := [] } }

/-- Refused with ADMIT_RESOURCES (R55, R70, R113, R175). -/
def badResources (s : State) (p : Packet) (m : List Byte) (t : Strand) : Bool :=
  let v := s.vd t.cid
  decide (v.maxCores < t.w * t.h ∨ v.window < field m 8 4 ∨ v.om < t.om ∨ v.ring < t.ring ∨ v.vregs < t.vregs
      ∨ Config.imemBytes < t.imem)
    || (search (emptied s) 0 t p.stride p.pin).isNone

/-! ### Slowing (R146) -/

/-- The sublists of `n` members, in order. -/
def combos {α : Type} : Nat → List α → List (List α)
  | 0, _ => [[]]
  | _ + 1, [] => []
  | n + 1, a :: l => (combos n l).map (a :: ·) ++ combos (n + 1) l

/-- A strand after a re-phasing. -/
def Strand.rephased (t : Strand) (r : Rephase) : Strand :=
  { t with stride := r.stride, phase := r.phase, lanes := r.lanes, hbmP := r.hbmP, rephase := none }

/-- Slow the strands of a list in turn, each to its first class with which the search of the head succeeds in the end. `now` holds
the classes until their switches and from then on, against which the next strand is planned; `after` those from the switches on. -/
def slowEach (find : State → Option Placement) : List Nat → State → State → List (Nat × Rephase) →
    Option (List (Nat × Rephase) × Placement)
  | [], _, after, plan => (find after).map fun p => (plan, p)
  | sid :: l, now, after, plan =>
    let t := now.strand sid
    ((strides (t.stride + 1) t.smax).flatMap fun st => (List.range st).map fun ph => (st, ph)).findSome? fun (st, ph) =>
      match planRephase now sid t st ph with
      | none => none
      | some r =>
        slowEach find l (now.setStrand sid { t with rephase := some r }) (after.setStrand sid (t.rephased r)) (plan ++ [(sid, r)])

/-- The fewest strands to slow for a head of effective priority `prio`, taking the latest admitted first. -/
def slowFor (s : State) (prio : Nat) (find : State → Option Placement) : Option (List (Nat × Rephase) × Placement) :=
  if !s.plc.slow then none
  else
    let cand := s.strands.filter fun (_, t) =>
      decide (t.state = .running ∨ t.state = .stalled ∨ t.state = .parked) && decide (t.prio ≤ prio ∧ t.stride < t.smax)
        && t.rephase.isNone
    let sids := (sortBy (fun x : Nat × Strand => x.2.order) cand).reverse.map (·.1)
    (List.range sids.length).findSome? fun n => (combos (n + 1) sids).findSome? fun l => slowEach find l s s []

/-! ### Eviction for a waiting head (R122) -/

/-- The grants without those of one strand. -/
def without (s : State) (sid : Nat) : State :=
  let t := s.strand sid
  let s := s.setStrand sid { t with state := .evicted }
  t.slots.foldl (fun s (c, w) => let k := s.core c; s.setCore c { k with owners := tdel k.owners w }) s

/-- Request the eviction of the latest admitted strand of an expired lease, of strictly lower priority and in the same
partition, whose removal admits the head; one at a time: DEDUCED (log entry 45). -/
def evictFor (cid prio : Nat) (find : State → Option Placement) (s : State) : State :=
  let busy := s.strands.any fun (_, t) => t.evict.isSome || decide (t.state = .draining)
  let cand := s.strands.filter fun (_, t) =>
    leaseOver s t && decide (t.prio < prio) && decide (partOf s t.cid = partOf s cid) && !t.evPoints.isEmpty
  let order := (sortBy (fun x : Nat × Strand => x.2.order) cand).reverse.map (·.1)
  if busy then s
  else
    match order.find? fun sid => (find (without s sid)).isSome with
    | some sid => s.push (.evictionRequest sid)
    | none => s

/-! ### Admission -/

/-- A LAUNCH head waits for admission and ages (R69, R145). -/
def awaitAdmission (fn q : Nat) (s : State) : State :=
  let i := Instr.launchAgingStep fn q
  let s := s.modQueue fn q fun x => { x with tried := true, awaits := true }
  if s.nsTimers.any (fun x => x.2 = i) then s else s.afterNs 10000000 i

/-- A LAUNCH that ends before a region is granted: the staging report names no core (R145, R267). -/
def launchBug (fn q : Nat) (p : Packet) (b : Bug) (s : State) : State :=
  let r : FaultRec := { stream := b.stream, staging := true, tag := p.tag, status := b.status,
                        loc := { parcel := b.off }, addr := bv 64 b.addr, cid := fn }
  startAndEnd fn q p b.status (postRecord r 0 fn q s)

/-- The strand of a LAUNCH that is admitted now. -/
def launchStrand (s : State) (fn q : Nat) (p : Packet) (t : Strand) : Strand :=
  let v := s.vd fn
  { t with fn := fn, q := q, tag := p.tag, cont := p.w1.toNat * 256, args := p.w2.toNat * 256, cid := fn, win := v.window,
           prio := (s.queue fn q).headPrio.toNat, order := s.plc.orders, admitted := s.cycle, wdLimit := v.wdog,
           replay := v.rpl.mode.toNat, recVa := v.rpl.va.toNat * 256 }

/-- Admit a LAUNCH: the packet starts, the grants are recorded, and the strand goes to staging (R145 step 3). -/
def admitLaunch (fn q : Nat) (p : Packet) (pl : Placement) (s : State) : State :=
  let sid := s.nextSid
  let (s, id) := startPacket fn q p s
  let s := { s with nextSid := sid + 1, plc := { s.plc with orders := s.plc.orders + 1 },
                    runs := s.runs.map fun r => if r.id = id then { r with sid := sid } else r }
  let pl := { pl with strand := { pl.strand with run := id, state := .staging } }
  let s := placeOwners sid pl false (fun i g => freshOwner sid i pl.strand g) s
  grantsChanged (s.tick1.at (s.cycle + 1 + Config.stageCycles s.free) (.containerStaging sid))

/-- The strands of a VD that are admitted, parked or evicted (R113). -/
def strandCount (s : State) (cid : Nat) : Nat := (s.strands.filter fun (_, t) => t.cid = cid).length

/-- Admit by a search, else by slowing, else leave waiting (R145, R146, R122). `go` takes the placement. -/
def placeOrWait (cid prio : Nat) (find : State → Option Placement) (go : Placement → State → State)
    (wait : State → State) (s : State) : State :=
  match find s with
  | some pl => go pl s
  | none =>
    match slowFor s prio find with
    | some (plan, pl) => go pl (plan.foldl (fun s (sid, r) => startRephase sid r s) s)
    | none => wait (evictFor cid prio find s)

/-- ADMISSION_ATTEMPT: the placer examines a LAUNCH head (R145). -/
def execAdmissionAttempt (fn q : Nat) (s : State) : Res :=
  .next (match headOf s fn q 1 with
    | none => s
    | some p =>
      let v := s.vd fn
      if v.state = .incoming ∨ v.state = .stopped ∨ v.closing then passOver fn q s
      else
        let cont := p.w1.toNat * 256
        let f := fetchNeeds s fn cont (argBase v p)
        let s := f.2.foldl (fun s (a, n) => countStage fn a n 0 s) s
        match f.1 with
        | .wait page => pageRequest fn page false (awaitAdmission fn q s)
        | .bug b => launchBug fn q p b s
        | .needs m t =>
          let t := launchStrand s fn q p t
          let find (s : State) : Option Placement := search s s.nextSid t p.stride p.pin
          if badShape s p t then startAndEnd fn q p 0x0203 s
          else if badResources s p m t then startAndEnd fn q p 0x0202 s
          else if p.pin ≠ 0xFF ∧ !pinnedFree s s.nextSid t p.stride p.pin then startAndEnd fn q p 0x0201 s
          else if 64 ≤ strandCount s fn then awaitAdmission fn q s
          else placeOrWait fn (effPrio (s.queue fn q)) find (admitLaunch fn q p) (awaitAdmission fn q) s)

/-! ### Resumption (R121) -/

/-- A strand that is evicted takes a placement: its resources are zeroed, its state is restored, its start is armed. A
restore that fails completes the LAUNCH with EVICTED_FAILED, and its VD fails (R114). -/
def resumeAt (sid : Nat) (p : Placement) (s : State) : State :=
  let t := s.strand sid
  let mk (i : Nat) (g : CoreGrant) : Owner := freshOwner sid i p.strand g
  let s := placeOwners sid { p with strand := { p.strand with state := .resuming } } true mk s
  let u := s.strand sid
  let bad := ((u.slots.zip t.ctxRecs)).any fun ((c, w), r) => recordPoisoned s (s.owner c w) (recordPa s t.cid r)
  if bad ∨ u.cores.any (fun c => (s.cob c).svn ≠ t.savedSvn) then
    let v := s.vd t.cid
    let s := s.setVd t.cid { v with state := .failed, failStatus := 0x0403 }
    finishLaunch sid 0x0403 (freeAll sid s)
  else
    armStart sid (((u.slots.zip (t.ctxRecs.zip t.savedOwners))).foldl (fun s ((c, w), r, o) =>
      let pa := recordPa s t.cid r
      chargeOper (restoreRecord c w pa o s) (saveBytes (s.owner c w) * pjPerByte pa)) s)

/-- STRAND_RESUME: an evicted strand is re-admitted, as an arrival of its own LAUNCH, to a region of its shape and any
class within its strides. -/
def execStrandResume (sid : Nat) (s : State) : Res :=
  let t := s.strand sid
  .next (if t.state ≠ .evicted then s
    else if (s.vd t.cid).state = .failed then finishLaunch sid (s.vd t.cid).failStatus s
    else
      let find (s : State) : Option Placement := search s sid { t with wids := [] } 0 0xFF
      placeOrWait t.cid t.prio find (resumeAt sid)
        (fun s => s.setStrand sid { s.strand sid with tried := true }) s)

/-! ### Staging (R91, R195, R267, R297) -/

/-- A strand ends before its start: its grants are released, with a staging report (R267). -/
def stageFail (sid : Nat) (b : Bug) (s : State) : State :=
  let t := s.strand sid
  let r : FaultRec := { stream := b.stream, staging := true, tag := t.tag, status := b.status, sid := sid,
                        core := t.cores.headD 0, loc := { parcel := b.off }, addr := bv 64 b.addr, cid := t.cid }
  finishLaunch sid b.status (freeAll sid (postRecord r t.tick t.fn t.q s))

/-- What staging finds of a strand's needs: the fabric group id, where a launch register gives it (R288). -/
def stagedNeeds (raw args : List Byte) (t : Strand) : Strand :=
  let m := (raw.drop (sectOf raw 6).off).take (sectOf raw 6).size
  let gid := match (if t.g5 then gidReg m else none) with
    | some n => field args (8 * n) 2
    | none => t.gid
  { t with gid := gid }

/-- A container has been read whole: the chain of its VD grows (R91), and so does the report's count of containers admitted, which is thus of
the updates of the chain: R93 does not say at which point a container counts; DESIGN CHOICE (log entry 125). -/
def chainOn (t : Strand) (raw : List Byte) (s : State) : State :=
  let v := s.vd t.cid
  let c := shake256 64 (v.chain ++ containerDigest raw ++ natLe 4 t.tag.toNat ++ natLe 8 t.admitted)
  s.setVd t.cid { v with chain := c, admitted := v.admitted + 1 }

/-- The five images of a container. -/
def imagesOf (raw : List Byte) : StreamId → List Parcel := fun st =>
  let e := sectOf raw (streamNum st)
  bytesParcels ((raw.drop e.off).take e.size)

/-- Load one owner: its images, its launch registers and the `.data` records (R115, R195, R297). -/
def loadOwner (raw args : List Byte) (s : State) (x : Nat × Nat) : State :=
  let k := s.core x.1
  let o := k.owner x.2
  let e := sectOf raw 7
  let recs := (dataRecords ((raw.drop e.off).take e.size) e.count 0).filterMap (·.2)
  let k := recs.foldl (fun k (a, b) => winWrite k (((List.range b.length).zip b).map fun (i, v) => (winAt o (a + i), v))) k
  let img (st : StreamId) : Stream := { img := imagesOf raw st }
  let t := s.strand o.sid
  let o := { o with mx := t.matrix, thr := t.thr, sc := img .c, sl := img .l, sm := img .m, sv := img .v, ss := img .s,
                    lreg := ctab 64 fun n => bv 64 (field args (8 * n) 8) }
  s.setCore x.1 (k.setOwner x.2 o)

/-- A recording begins with the argument block (R277). -/
def beginRecording (sid : Nat) (args : List Byte) (s : State) : State :=
  let t := s.strand sid
  let next (s : State) : State := s.setStrand sid { s.strand sid with recVa := t.recVa + 512 }
  match t.replay with
  | 1 => next (match vwrite s t.cid t.recVa args [] with | .ok s' => s' | .error _ => s)
  | 2 => next s
  | _ => s

/-- CONTAINER_STAGING: staging reads, checks and decodes the container for every core of the region, and loads it; on a
demand page it waits, and reads on from there: what it has read counts once (R97). -/
noncomputable def execContainerStaging (sid : Nat) (s : State) : Res :=
  let t := s.strand sid
  .next (if t.state ≠ .staging then s
    else
      let head := (readUpTo s t.cid (lineParts t.cont headBytes)).1
      let total := if head.length < 16 then 16 else max 16 (field head 8 8)
      let argVa := if t.replay = 2 then t.recVa else t.args
      let got := (max t.staged.1 (stageGot s t.cid t.cont total), max t.staged.2 (stageGot s t.cid argVa 512))
      let s := countStage t.cid argVa 512 t.staged.2 (countStage t.cid t.cont total t.staged.1 s)
      let t := { t with staged := got }
      let s := s.setStrand sid t
      match readUpTo s t.cid (lineParts t.cont total), readUpTo s t.cid (lineParts argVa 512) with
      | (_, some (.demand p)), _ => pageRequest t.cid p false s
      | _, (_, some (.demand p)) => pageRequest t.cid p false s
      | (raw, err), (args, aerr) =>
        let s := if err.isNone then chainOn t raw s else s
        let arg : Option Bug := if aerr.isSome then some { status := 0x0301, addr := argVa + args.length } else none
        match (containerBug t t.cont raw err.isNone).orElse (fun _ => arg) with
        | some b => stageFail sid b s
        | none =>
          let u := stagedNeeds raw args t
          if u.g5 && (groupRoot s u.gid).isNone then finishLaunch sid 0x0203 (freeAll sid s)
          else grantsChanged (armStart sid (beginRecording sid args (u.slots.foldl (loadOwner raw args) (s.setStrand sid u)))))

/-! ### The start (R155) -/

/-- A slip: no pulse, the grants are released, and the LAUNCH completes with START_SLIP. -/
def startSlip (sid : Nat) (s : State) : State :=
  let n := s.plc.slip
  stageFail sid { status := 0x0303 } { cancelPending sid s with plc := { s.plc with slip := if n = BitVec.allOnes 16 then n else n + 1 } }

/-- From its start cycle on the strand holds its table entries and runs; its lease begins (R122, R155). -/
def startStrand (sid : Nat) (s : State) : State :=
  let t := s.strand sid
  let first := decide (t.state = .armed)
  let lease := leaseNs s
  let v := s.vd t.cid
  let s := match v.polNext with
    | some (p, d) => if first then s.setVd t.cid { v with policy := p, polDigest := d, polNext := none } else s
    | none => s
  let s := if t.parkFlag then dbgEnd sid 1 (s.setStrand sid { t with state := .parked, parkFlag := false, leaseLeft := lease })
    else (s.setStrand sid { t with state := .running, leaseEnd := s.ref + lease }).afterNs lease (.leaseExpiry sid)
  if first then traceRec t.cid 2 t.tick [t.tag.toNat, sid, t.stride, t.phase, t.x0, t.y0, t.w, t.h] s
  else meterEvent t.cid 3 (traceEvent sid 3 t.stride t.phase s)

/-- START_DECISION: at s - 320 the pulse is injected if every core is ready, else the start slips; the strand runs from
cycle s on. -/
def execStartDecision (sid : Nat) (s : State) : Res :=
  let t := s.strand sid
  .next (if t.state ≠ .armed ∧ t.state ≠ .resuming then s
    else if t.start ≤ s.cycle + 1 then startStrand sid s
    else if t.ready && t.cores.all (fun c => !(s.core c).locked) then s.at (t.start - 1) (.startDecision sid)
    else startSlip sid s)

end Sys2Proof.Machine
end

