-- ==== Sys2Proof/Machine/Registers.lean ====
section
/-! DEFINITION. The register maps (R3-R5, R27, R28) as 64-bit words: what a read returns, what a read clears, and what a
write does. A write that has a step of its own in the table carries out that step. -/

namespace Sys2Proof.Machine

/-! ### Access -/

/-- A word with the bits of `m` taken from `v`. -/
def merge (old v m : W64) : W64 := (old &&& ~~~m) ||| (v &&& m)

/-- The value and the bit mask, within its 64-bit word, of a write of `size` bytes at an offset. The width of a write is not given: its
bytes are merged into the word; those beyond 8, or beyond the word, are dropped: DESIGN CHOICE (log entry 101). -/
def writeLanes (off size : Nat) (v : W64) : W64 × W64 :=
  let sh := 8 * (off % 8)
  (v <<< sh, bv 64 ((2 ^ (8 * min size 8) - 1) * 2 ^ sh))

/-- How a function answers BAR accesses. -/
inductive Gate where
  /-- the function does not exist: no BAR decodes it (R25) -/
  | absent
  /-- a PF of no partition: reads give all ones, writes are dropped (R25) -/
  | allOnes
  /-- Completer Abort: its TDI is in ERROR (R38) -/
  | abort
  /-- its function is being reset: accesses are dropped (R33) -/
  | drop
  /-- its VD is stopped by a migration: reads abort, writes are dropped (R125) -/
  | stopped
  | ok
  deriving DecidableEq, Repr

/-- The gate of a function. One in D3hot decodes no BAR: PRESUMED, PCI Express (log entry 99). Where its TDI is in ERROR while an FLR is in
progress, R33 drops the access and R38 aborts it; it is aborted: DESIGN CHOICE (log entry 98). -/
def gate (s : State) (fn : Nat) : Gate :=
  if (s.fn fn).cfg.power = 3 then .absent
  else if fn = 0 then .ok
  else if !fnExists s fn then .absent
  else if !(partOf s fn).v ∨ !s.fw.booted then .allOnes
  else if (s.fn fn).tdi = .error then .abort
  else if (s.vd fn).closing then .drop
  else if (s.vd fn).state = .stopped then .stopped
  else .ok

/-- The packets of a function go, started or not, with the signal operations that they hold; nothing is posted for them (R33 step 2). -/
def dropPackets (fn : Nat) (s : State) : State :=
  { s with
    queues := tmap s.queues fun i x => if i / 64 = fn then x.noHead else x
    runs := s.runs.filter fun r => decide (r.fn ≠ fn) || decide (r.pkt.type = 1)
    posts := s.posts.filter fun e => decide (e.fn ≠ fn)
    sigHeld := s.sigHeld.filter fun o => decide (o.fn ≠ fn) || o.peer.isSome }

/-- A change that a TDI in CONFIG_LOCKED or RUN does not allow (R38): the TDI enters ERROR, its strands stop and its packets go, and its
meters write EVENT 5. -/
def tdiChange (fn : Nat) (s : State) : State :=
  let f := s.fn fn
  if f.tdi = .configLocked ∨ f.tdi = .run then
    meterEvent fn 5 (dropPackets fn (doomStrands fn (s.setFn fn { f with tdi := .error })))
  else s

/-- An MF operation waits for a place of a trigger (R100). -/
def holdMf (i : Instr) (s : State) : State := { s with wm := { s.wm with held := s.wm.held ++ [i] } }

/-- Whether a change that the MF makes to a VD is to wait: it would take its TDI to ERROR, and a meter of the VD has no place for the event
(R100). -/
def tdiWaits (s : State) (cid : Nat) : Bool :=
  decide ((s.fn cid).tdi = .configLocked ∨ (s.fn cid).tdi = .run) && (metersOf s cid).any fun i => !meterRoom s i

/-- A TLP fails its IDE check, on a stream: it is dropped, the MF logs it, and the stream is Insecure (R37). -/
def ideFail (st : Nat) (s : State) : State :=
  logAer 0 .ideCheckFailed { s with link := { s.link with insecure := sins st s.link.insecure } }

/-! ### Disclosure policies (R104) -/

/-- Whether the entry of a class is in range. -/
def policyEntryOk (c e : Nat) : Bool :=
  let g := bits e 2 0
  let k := bits e 7 3
  decide (e < 256) && (if c = 4 ∨ c = 5 then decide (g ≤ 3) else decide (g ≤ 4)) && decide (k ≤ 20) && (decide (k = 0) || decide (g = 2))

/-- The policy digest D. -/
def policyDigest (b : List Byte) : List Byte := shake256 64 (b.take 0x7E0)

/-- Class entries and tenant key of a policy. -/
def policyEntries (b : List Byte) : List W32 := (List.range 7).map fun c => bv 32 (field b (8 + 4 * c) 4)
def policyKey (b : List Byte) : List Byte := (b.drop 0x40).take 1952

/-- Whether a policy is accepted. -/
def policyOk (b : List Byte) : Bool :=
  decide (b.length = 5325) && decide (field b 0 4 = 0x4C4F5044 ∧ field b 4 4 = 1)
    && (List.range 7).all (fun c => policyEntryOk c (field b (8 + 4 * c) 4)) && ((b.drop 0x24).take 28).all (· = 0)
    && Config.mldsaVerify (policyKey b) (policyDigest b) ((b.drop 0x7E0).take 3309)

/-- Whether the MF may replace the policy of a VD by the one at a PA of HBM. -/
def policyTakes (s : State) (cid pa : Nat) : Bool :=
  let b := pread s pa 5325
  hasVd s cid && decide (pa + 5325 ≤ Config.hbmBytes) && policyOk b && decide (policyKey b = (s.vd cid).polKey)

/-- The MF replaces the policy of a VD by the one at a PA of HBM: one that is accepted and signed by the same tenant key applies from
the VD's next launch start, and is a change for its TDI (R38, R104). The registers of the DF_ block are not given: a write of the PA at
CID·8 asks for it: DESIGN CHOICE (log entry 58). -/
def replacePolicy (cid pa : Nat) (s : State) : State :=
  let b := pread s pa 5325
  let v := s.vd cid
  if policyTakes s cid pa then
    tdiChange cid (s.setVd cid { v with polNext := some (policyEntries b, policyDigest b) })
  else s

/-! ### Queues and completion queues (R57, R73) -/

/-- Word `i` of a QCB. -/
def qcbWord (fn : Nat) (x : Queue) (i : Nat) : W64 :=
  match i with
  | 0 => x.rbase.setWidth 64
  | 1 => bv 64 (x.size.toNat + b01 x.host * 2 ^ 5 + x.prio.toNat * 2 ^ 8 + x.state.toNat * 2 ^ 12 + x.cq.toNat * 2 ^ 16
                 + fn * 2 ^ 24)
  | 2 => x.ridx.setWidth 64
  | 3 => x.widx.setWidth 64
  | 4 => x.gen
  | 5 => x.ecq.setWidth 64
  | _ => 0

/-- The fields of word `i` of a QCB that a write sets, if they accept it. -/
def qcbSet (x : Queue) (i : Nat) (w : W64) : Queue :=
  match i with
  | 0 => { x with rbase := w.extractLsb' 0 60 }
  | 1 => { x with size := w.extractLsb' 0 5, host := w.getLsbD 5, prio := w.extractLsb' 8 3, cq := w.extractLsb' 16 6 }
  | 2 => { x with ridx := w.extractLsb' 0 32 }
  | 5 => { x with ecq := w.extractLsb' 0 6 }
  | _ => x

/-- GEN is written by Cobbler alone; when it becomes even, the writes and notifies that it held are carried out in order,
and fetching goes on (R29, R58, R94). -/
def setGen (fn q : Nat) (g : W64) (s : State) : State :=
  let x := s.queue fn q
  if x.odd && !g.getLsbD 0 then
    let s := s.setQueue fn q { x with gen := g, heldOps := [], tried := false }
    { s with due := x.heldOps ++ s.due }.soon (.packetFetch fn q)
  else s.setQueue fn q { x with gen := g }

/-- A software write of a QCB word. -/
def qcbPut (fn q i : Nat) (v m : W64) (s : State) : State :=
  let x := s.queue fn q
  let w := merge (qcbWord fn x i) v m
  let s := if x.state = 0 then s.setQueue fn q (qcbSet x i w) else s
  if i ≠ 1 then s
  else
    let st := w.extractLsb' 12 2
    if st = 0 ∧ x.state ≠ 0 then s.push (.queueDisable fn q)
    else if st = 1 ∧ x.state = 0 then s.push (.queueEnable fn q) else s

/-- Cobbler's write of a QCB word (R94, R420): every field. -/
def qcbFirmware (fn q i : Nat) (v : W64) (s : State) : State :=
  let x := s.queue fn q
  match i with
  | 1 => s.setQueue fn q { qcbSet x 1 v with state := v.extractLsb' 12 2 }
  | 3 => s.setQueue fn q { x with widx := v.extractLsb' 0 32 }
  | 4 => setGen fn q v s
  | _ => s.setQueue fn q (qcbSet x i v)

/-- Word `i` of a CQ descriptor. -/
def cqWord (c : Cq) (i : Nat) : W64 :=
  match i with
  | 0 => c.base
  | 1 => bv 64 (c.size.toNat + b01 c.host * 2 ^ 4 + b01 c.en * 2 ^ 5 + b01 c.ovf * 2 ^ 6 + c.vec.toNat * 2 ^ 8
                 + c.cnt.toNat * 2 ^ 16 + c.tmr.toNat * 2 ^ 24)
  | 2 => bv 64 (c.widx.toNat + c.ridx.toNat * 2 ^ 32)
  | 3 => c.lost.setWidth 64
  | _ => 0

/-- A write of a CQ word. -/
def cqPut (fn n i : Nat) (v m : W64) (s : State) : State :=
  let c := s.cq fn n
  match i with
  | 0 => if c.en then s else s.setCq fn n { c with base := merge c.base v m }
  | 1 => s.push (.cqEnable fn n (merge (cqWord { c with ovf := false } 1) v m))
  | 2 => s.setCq fn n { c with ridx := (merge (cqWord c 2) v m).extractLsb' 32 32 }
  | _ => s

/-- Word of the MSI-X table: message address, or data and vector control. -/
def msixWord (f : Fn) (k : Nat) : W64 :=
  if k % 2 = 0 then cget f.msixTab k
  else cget f.msixTab k ||| (if f.msixMask.getLsbD (k / 2) then 1#64 <<< 32 else 0)

/-- A write of the MSI-X table; clearing a mask bit is a step of its own. -/
def msixPut (fn k : Nat) (v m : W64) (s : State) : State :=
  let f := s.fn fn
  let w := merge (msixWord f k) v m
  if k % 2 = 0 then
    if w = msixWord f k then s else tdiChange fn (s.setFn fn { f with msixTab := cset f.msixTab k w })
  else
    let b := 1#64 <<< (k / 2)
    let f' := { f with msixTab := cset f.msixTab k (w &&& 0xFFFFFFFF#64) }
    if w.getLsbD 32 then s.setFn fn { f' with msixMask := f.msixMask ||| b }
    else if f.msixMask.getLsbD (k / 2) then (s.setFn fn f').push (.msixVectorUnmask fn (k / 2)) else s.setFn fn f'

/-- Vectors of a function (R28). -/
def vectorsOf (fn : Nat) : Nat := if 33 ≤ fn then 16 else 64

/-! ### Rings -/

/-- Word `i` of a fault ring. -/
def fltWord (f : FaultRing) (i : Nat) : W64 :=
  match i with
  | 0 => f.base
  | 1 => bv 64 (f.size.toNat + b01 f.en * 2 ^ 4)
  | 2 => bv 64 (f.widx.toNat + f.ridx.toNat * 2 ^ 32)
  | 3 => f.lost.setWidth 64
  | _ => 0

/-- Replace the fault ring of a VD, or the MF's. -/
def setFlt (fn : Nat) (f : FaultRing) (s : State) : State :=
  if fn = 0 then { s with mfFlt := f } else s.setVd fn { s.vd fn with flt := f }

/-- A write of a fault ring's word. -/
def fltPut (fn : Nat) (f : FaultRing) (i : Nat) (v m : W64) (s : State) : State :=
  match i with
  | 0 => if f.en then s else setFlt fn { f with base := merge f.base v m } s
  | 1 => s.push (.faultRingEnable fn (merge (fltWord f 1) v m))
  | 2 => setFlt fn { f with ridx := (merge (fltWord f 2) v m).extractLsb' 32 32 } s
  | _ => s

/-- Word `i` of a trace buffer's registers. -/
def trcWord (t : Trc) (i : Nat) : W64 :=
  match i with
  | 0 => t.base
  | 1 => t.size.setWidth 64
  | 2 => bv 64 (b01 t.en + b01 t.mode * 2 + t.tmask.toNat * 2 ^ 8)
  | 3 => t.last.setWidth 64
  | 4 => bv 64 (t.drop.toNat + t.wrap.toNat * 2 ^ 32)
  | _ => 0

/-! ### The registers of a VD (R28) -/

/-- Word `i` of HB_DBG. -/
def dbgWord (d : Dbg) (i : Nat) : W64 :=
  match i with
  | 0 => bv 64 (d.strand.toNat + d.op.toNat * 2 ^ 32 + d.bp.toNat * 2 ^ 35 + b01 d.busy * 2 ^ 38 + d.st.toNat * 2 ^ 39
                 + b01 d.fhold * 2 ^ 42)
  | 1 => bv 64 (d.bstr.toNat + d.bpar.toNat * 2 ^ 3 + d.bitr.toNat * 2 ^ 32)
  | 2 => d.btick
  | 3 => d.dva
  | _ => 0

/-- Word `i` of the page at 0x0_3000 of a VD, by its offset. -/
def vdWord (v : Vd) (off : Nat) : W64 :=
  let i := off % 0x100 / 8
  match off / 0x100 with
  | 0x30 => if i = 0 then v.att.dest else if i < 5 then v.att.nonce.getD (i - 1) 0
            else if i = 5 then bv 64 (b01 v.att.busy * 2 + v.att.st.toNat * 4) else 0
  | 0x31 =>
    match i with
    | 0 => v.prq.base
    | 1 => bv 64 (v.prq.size.toNat + b01 v.prq.en * 2 ^ 4 + v.prq.vec.toNat * 2 ^ 8)
    | 2 => bv 64 (v.prq.widx.toNat + v.prq.ridx.toNat * 2 ^ 32)
    | _ => 0
  | 0x32 => dbgWord v.dbg i
  | 0x33 => fltWord v.flt i
  | 0x34 => trcWord v.trc i
  | 0x35 =>
    match i with
    | 0 => bv 64 (v.rpl.mode.toNat + b01 v.rpl.act * 4)
    | 1 => bv 64 (v.rpl.va.toNat * 256)
    | 2 => v.rpl.count.setWidth 64
    | _ => 0
  | 0x36 =>
    match i with
    | 0 => bv 64 (v.mlogW.toNat + v.mlogR.toNat * 2 ^ 32)
    | 1 => v.mlogF.setWidth 64
    | _ => 0
  | _ => 0

/-- The step that HB_DBG.OP names (R269). -/
def dbgOp (cid op : Nat) : Option Instr :=
  match op with
  | 1 => some (.debugHalt cid)
  | 2 => some (.debugResume cid)
  | 3 => some (.breakpointSet cid)
  | 4 => some (.breakpointClear cid)
  | 5 => some (.debugDump cid)
  | 6 => some (.debugRelease cid)
  | _ => none

/-- A write of HB_ATT. -/
def attPut (cid i : Nat) (w v : W64) (s : State) : State :=
  let d := s.vd cid
  if i = 0 then s.setVd cid { d with att := { d.att with dest := w } }
  else if i < 5 then s.setVd cid { d with att := { d.att with nonce := d.att.nonce.set (i - 1) w } }
  else if i = 5 ∧ v.getLsbD 0 ∧ !d.att.busy then s.push (.attestationRequest cid none) else s

/-- A write of HB_PRQ: waiting requests are posted where it lets them (R211). -/
def prqPut (cid i : Nat) (w v : W64) (s : State) : State :=
  let d := s.vd cid
  match i with
  | 0 => if d.prq.en then s else (s.setVd cid { d with prq := { d.prq with base := w } }).push (.pageRequestPost cid)
  | 1 => s.push (.prqEnable cid w)
  | 2 => (s.setVd cid { d with prq := { d.prq with ridx := w.extractLsb' 32 32 } }).push (.pageRequestPost cid)
  | 3 => s.push (.pageDone cid (v.extractLsb' 0 56).toNat)
  | _ => s

/-- A write of HB_DBG. GO takes OP, STRAND and DVA as they stand for the operation, whatever is written while it is in progress. -/
def dbgPut (cid i : Nat) (w v : W64) (s : State) : State :=
  let d := s.vd cid
  match i with
  | 0 =>
    let g := { d.dbg with strand := w.extractLsb' 0 32, op := w.extractLsb' 32 3, bp := w.extractLsb' 35 2, fhold := w.getLsbD 42 }
    if v.getLsbD 37 && !d.dbg.busy then
      let s := s.setVd cid { d with dbg := { g with goOp := g.op, goStrand := g.strand, goDva := g.dva } }
      match dbgOp cid g.op.toNat with
      | some e => s.push e
      | none => s
    else s.setVd cid { d with dbg := g }
  | 1 => s.setVd cid { d with dbg := { d.dbg with bstr := w.extractLsb' 0 3, bpar := w.extractLsb' 3 16, bitr := w.extractLsb' 32 32 } }
  | 2 => s.setVd cid { d with dbg := { d.dbg with btick := w } }
  | 3 => s.setVd cid { d with dbg := { d.dbg with dva := w } }
  | _ => s

/-- A write of the page at 0x0_3000 of a VD. -/
def vdPut (cid off : Nat) (v m : W64) (s : State) : State :=
  let d := s.vd cid
  let w := merge (vdWord d off) v m
  let i := off % 0x100 / 8
  match off / 0x100 with
  | 0x30 => attPut cid i w (v &&& m) s
  | 0x31 => prqPut cid i w (v &&& m) s
  | 0x32 => dbgPut cid i w (v &&& m) s
  | 0x33 => fltPut cid d.flt i v m s
  | 0x34 =>
    match i with
    | 0 => if d.trc.en then s else s.setVd cid { d with trc := { d.trc with base := w } }
    | 1 => if d.trc.en then s else s.setVd cid { d with trc := { d.trc with size := w.extractLsb' 0 32 } }
    | 2 => s.push (.traceEnable cid w)
    | _ => s
  | 0x35 =>
    match i with
    | 0 => s.setVd cid { d with rpl := { d.rpl with mode := w.extractLsb' 0 2, act := w.getLsbD 2 } }
    | 1 => s.setVd cid { d with rpl := { d.rpl with va := w.extractLsb' 8 56 } }
    | _ => s
  | 0x36 => if i = 0 then s.push (.tenantLogRidxWrite cid (w.extractLsb' 32 32)) else s
  | _ => s

/-- The fields of the page at 0x0_3000 that a read of a word clears. -/
def vdClear (cid off : Nat) (s : State) : State :=
  let d := s.vd cid
  match off with
  | 0x3318 => s.setVd cid { d with flt := { d.flt with lost := 0 } }
  | 0x3420 => s.setVd cid { d with trc := { d.trc with drop := 0, wrap := 0 } }
  | 0x3510 => s.setVd cid { d with rpl := { d.rpl with count := 0 } }
  | 0x3608 => s.setVd cid { d with mlogF := 0 }
  | _ => s

/-! ### The queues' part of a BAR0, alike for the MF's CFE_ block (R27, R28) -/

/-- Word at an offset of the queue part. -/
def cfeWord (s : State) (fn off : Nat) : W64 :=
  if 0x1000 ≤ off ∧ off < 0x2000 then qcbWord fn (s.queue fn ((off - 0x1000) / 0x40)) (off % 0x40 / 8)
  else if 0x2000 ≤ off ∧ off < 0x2800 then cqWord (s.cq fn ((off - 0x2000) / 0x20)) (off % 0x20 / 8)
  else if 0x10000 ≤ off ∧ off < 0x50000 ∧ off % 0x1000 = 0 then (s.queue fn ((off - 0x10000) / 0x1000)).widx.setWidth 64
  else 0

/-- Write at an offset of the queue part. -/
def cfePut (fn off : Nat) (v m : W64) (s : State) : State :=
  if 0x1000 ≤ off ∧ off < 0x2000 then qcbPut fn ((off - 0x1000) / 0x40) (off % 0x40 / 8) v m s
  else if 0x2000 ≤ off ∧ off < 0x2800 then cqPut fn ((off - 0x2000) / 0x20) (off % 0x20 / 8) v m s
  else if 0x10000 ≤ off ∧ off < 0x50000 ∧ off % 0x1000 = 0 ∧ m &&& 0xFFFFFFFF#64 = 0xFFFFFFFF#64 then
    s.push (.notify fn ((off - 0x10000) / 0x1000) (v.extractLsb' 0 32))
  else s

/-- What a read of the queue part clears: LOST. -/
def cfeClear (fn off : Nat) (s : State) : State :=
  if 0x2000 ≤ off ∧ off < 0x2800 ∧ off % 0x20 = 0x18 then
    let n := (off - 0x2000) / 0x20
    s.setCq fn n { s.cq fn n with lost := 0 }
  else s

/-! ### The hub block of the MF (HB_) -/

/-- Whether a VD has a remote window enabled (R43). -/
def anyWindow (s : State) : Bool := s.klk.rwin.any fun (_, w) => w.getLsbD 0

/-- HB_VDCMD (R110). -/
def vdcmdWord (c : VdCmd) : W64 := bv 64 (c.pa.toNat + c.op.toNat * 2 ^ 44 + b01 c.busy * 2 ^ 49 + c.st.toNat * 2 ^ 50)

/-- HB_PART (R107). -/
def partWord (p : Part) : W64 :=
  bv 64 (p.qx.toNat + p.qy.toNat * 2 ^ 2 + p.qw.toNat * 2 ^ 5 + p.qh.toNat * 2 ^ 7 + b01 p.v * 2 ^ 10)

/-- HB_ACT (R48). -/
def actWord (a : ActEntry) (i : Nat) : W64 :=
  if i = 1 then a.qmask
  else bv 64 (a.src.toNat + a.tcid.toNat * 2 ^ 10 + b01 a.v * 2 ^ 20 + b01 a.pkt * 2 ^ 21 + b01 a.ntf * 2 ^ 22
               + b01 a.sig * 2 ^ 23 + b01 a.rd * 2 ^ 24 + b01 a.wr * 2 ^ 25)

/-- First word of a record of HB_ACT_DENY (R50). -/
def denyWord (r : DenyRec) : W64 := bv 64 (r.src + r.scid * 2 ^ 10 + r.tcid * 2 ^ 20 + r.kind * 2 ^ 30 + 2 ^ 63)

/-- HB_KLK_ROUTE (R44). -/
def routeWord (r : Route) : W64 := bv 64 (r.port.toNat + b01 r.v * 2 ^ 4)

/-- HB_KLK_ID (R43). -/
def klkIdWord (k : Klk) : W64 :=
  bv 64 (k.dev.toNat + b01 k.jn * 2 ^ 10 + ((List.range 16).foldl (fun n p => n + b01 (tget {} k.ports p).up * 2 ^ p) 0) * 2 ^ 16)

/-- A word of HB_. -/
def hbWord (s : State) (off : Nat) : W64 :=
  let p := s.pwr
  if off = 0x100 then p.cap.setWidth 64
  else if off = 0x108 then
    bv 64 (p.step.toNat + p.ceil.toNat * 2 ^ 4 + b01 p.therm * 2 ^ 8 + b01 p.floor * 2 ^ 9 + p.lowered.toNat * 2 ^ 32)
  else if off = 0x110 then bv 64 s.ns
  else if off = 0x118 then s.timebase
  else if off = 0x200 then s.mfApr.setWidth 64
  else if off = 0x300 then klkIdWord s.klk
  else if off = 0x308 then s.klk.tmo.setWidth 64
  else if 0x400 ≤ off ∧ off < 0x480 then tget 0 s.klk.fgrp ((off - 0x400) / 8)
  else if off = 0x600 then vdcmdWord s.vdcmd
  else if 0x800 ≤ off ∧ off < 0x900 then partWord (tget {} s.parts ((off - 0x800) / 8 + 1))
  else if 0x900 ≤ off ∧ off < 0x9C0 then
    bv 64 ((List.range 64).foldl (fun n i => n + b01 (s.core ((off - 0x900) * 8 + i)).locked * 2 ^ i) 0)
  else if 0xA00 ≤ off ∧ off < 0xA20 then fltWord s.mfFlt ((off - 0xA00) / 8)
  else if 0x10000 ≤ off ∧ off < 0x10000 + 289 * 0x40 then tget 0 s.klk.rwin ((off - 0x10000) / 8)
  else if 0x20000 ≤ off ∧ off < 0x21000 then actWord (tget {} s.klk.act ((off - 0x20000) / 16)) (off % 16 / 8)
  else if off = 0x21000 then (s.klk.deny.head?.map denyWord).getD 0
  else if off = 0x21008 then s.klk.denyVa
  else if off = 0x21010 then bv 64 (s.klk.denyOvfl.toNat + s.klk.deny.length * 2 ^ 32)
  else if 0x30000 ≤ off ∧ off < 0x32000 then routeWord (tget {} s.klk.routes ((off - 0x30000) / 8))
  else 0

/-- The step that HB_VDCMD.OP names (R110). -/
def vdOp (op : Nat) : Option Instr :=
  match op with
  | 1 => some .vdCreate
  | 2 => some .vdDestroy
  | 3 => some .vdCreateIncoming
  | _ => none

/-- A write of HB_VDCMD. -/
def vdcmdPut (w v : W64) (s : State) : State :=
  let c := { s.vdcmd with pa := w.extractLsb' 0 44, op := w.extractLsb' 44 4 }
  let s := { s with vdcmd := c }
  if v.getLsbD 48 && !c.busy then
    match vdOp c.op.toNat with
    | some e => s.push e
    | none => s
  else s

/-- A write of HB_PART n: what it does to V chooses the step (R108). -/
def partPut (n : Nat) (w : W64) (s : State) : State :=
  match (tget {} s.parts n).v, w.getLsbD 10 with
  | false, false => s
  | false, true => s.push (.partitionCreate n w)
  | true, true => s.push (.partitionResize n w)
  | true, false => s.push (.partitionRemove n)

/-- A write of HB_ACT. -/
def actPut (i k : Nat) (w : W64) (s : State) : State :=
  let a := tget {} s.klk.act i
  let a := if k = 1 then { a with qmask := w }
    else { a with src := w.extractLsb' 0 10, tcid := w.extractLsb' 10 10, v := w.getLsbD 20, pkt := w.getLsbD 21,
                  ntf := w.getLsbD 22, sig := w.getLsbD 23, rd := w.getLsbD 24, wr := w.getLsbD 25 }
  { s with klk := { s.klk with act := tset s.klk.act i a } }

/-- A write of a word of HB_. -/
def hbPut (off : Nat) (v m : W64) (s : State) : State :=
  let w := merge (hbWord s off) v m
  let k := s.klk
  if off = 0x100 then s.push (.hbPwrCapWrite w)
  else if off = 0x110 then s.push (.nsclkWrite w)
  else if off = 0x200 then { s with mfApr := w.extractLsb' 0 8 }
  else if off = 0x300 then s.push (.hbKlkIdWrite w)
  else if off = 0x308 then { s with klk := { k with tmo := bv 20 (max 100 (min 1000000 (w.extractLsb' 0 20).toNat)) } }
  else if 0x400 ≤ off ∧ off < 0x480 then { s with klk := { k with fgrp := tset k.fgrp ((off - 0x400) / 8) (w &&& 0x1FFFFFFFFF#64) } }
  else if off = 0x600 then vdcmdPut w (v &&& m) s
  else if 0x800 ≤ off ∧ off < 0x900 then partPut ((off - 0x800) / 8 + 1) w s
  else if 0xA00 ≤ off ∧ off < 0xA20 then fltPut 0 s.mfFlt ((off - 0xA00) / 8) v m s
  else if 0x10000 ≤ off ∧ off < 0x10000 + 289 * 0x40 then
    { s with klk := { k with rwin := tset k.rwin ((off - 0x10000) / 8) (w &&& 0x3FFFFF#64) } }
  else if 0x20000 ≤ off ∧ off < 0x21000 then actPut ((off - 0x20000) / 16) (off % 16 / 8) w s
  else if 0x30000 ≤ off ∧ off < 0x32000 then s.push (.hbKlkRouteWrite ((off - 0x30000) / 8) w)
  else s

/-- The oldest record of HB_ACT_DENY leaves, and its VA is latched (R50). -/
def denyPop (s : State) : State :=
  match s.klk.deny with
  | [] => s
  | d :: l => { s with klk := { s.klk with deny := l, denyVa := bv 64 d.va } }

/-- What a read of a word of HB_ clears. -/
def hbClear (off : Nat) (s : State) : State :=
  if off = 0x21000 then denyPop s
  else if off = 0x108 then { s with pwr := { s.pwr with lowered := 0 } }
  else if off = 0xA18 then { s with mfFlt := { s.mfFlt with lost := 0 } }
  else if off = 0x21010 then { s with klk := { s.klk with denyOvfl := 0 } }
  else s

/-! ### The placer's block (PLC_) -/

/-- LAUNCH heads that await admission (R148). -/
def waitingHeads (s : State) : Nat := (s.queues.filter fun (_, x) => x.awaits).length

/-- A word of PLC_. -/
def plcWord (s : State) (off : Nat) : W64 :=
  let p := s.plc
  if off = 0 then bv 64 (b01 p.slow + b01 p.fast * 2)
  else if off = 8 then bv 64 (waitingHeads s % 65536 + p.rph.toNat * 2 ^ 16 + p.slip.toNat * 2 ^ 32)
  else if off = 0x10 then p.lease.setWidth 64
  else if off = 0x18 then p.lead.setWidth 64
  else if off = 0x100 then
    bv 64 (p.migCid.toNat + p.migDev.toNat * 2 ^ 10 + p.migDcid.toNat * 2 ^ 20 + p.migOp.toNat * 2 ^ 30
            + b01 p.migBusy * 2 ^ 34 + p.migSt.toNat * 2 ^ 35 + b01 p.migPost * 2 ^ 39)
  else if off = 0x108 then p.migPages.setWidth 64
  else if 0x1000 ≤ off ∧ off < 0x1000 + 289 * 8 then (tget 0xFFFFFFFF#32 p.vdq ((off - 0x1000) / 8)).setWidth 64
  else 0

/-- The step that PLC_MIG.OP names (R123). -/
def migOp (op : Nat) : Option Instr :=
  match op with
  | 1 => some .migrationStart
  | 2 => some .migrationPrecopyRound
  | 3 => some .migrationStop
  | 4 => some .migrationAbort
  | _ => none

/-- A write of a word of PLC_. -/
def plcPut (off : Nat) (v m : W64) (s : State) : State :=
  let w := merge (plcWord s off) v m
  let p := s.plc
  if off = 0 then { s with plc := { p with slow := w.getLsbD 0, fast := w.getLsbD 1 } }
  else if off = 0x10 then { s with plc := { p with lease := w.extractLsb' 0 20 } }
  else if off = 0x18 then { s with plc := { p with lead := bv 24 (max 4096 (w.extractLsb' 0 24).toNat) } }
  else if off = 0x100 then
    let p := { p with migCid := w.extractLsb' 0 10, migDev := w.extractLsb' 10 10, migDcid := w.extractLsb' 20 10,
                      migOp := w.extractLsb' 30 3, migPost := w.getLsbD 39 }
    let s := { s with plc := p }
    if (v &&& m).getLsbD 33 then
      match migOp p.migOp.toNat with
      | some e => s.push e
      | none => s
    else s
  else if 0x1000 ≤ off ∧ off < 0x1000 + 289 * 8 then
    let cid := (off - 0x1000) / 8
    let q := w.extractLsb' 0 32
    if q = tget 0xFFFFFFFF#32 p.vdq cid then s else tdiChange cid { s with plc := { p with vdq := tset p.vdq cid q } }
  else s

/-- What a read of a word of PLC_ clears. -/
def plcClear (off : Nat) (s : State) : State :=
  if off = 8 then { s with plc := { s.plc with rph := 0, slip := 0 } } else s

/-! ### Weight meters (WM_) -/

/-- COUNT as the MF reads it (R105, class 6). -/
def countSeen (s : State) (m : Meter) : Nat :=
  disclosed (gran (s.vd m.cid.toNat) 6) m.atLaunch (meterWindow s m).2.2 m.atSync m.count

/-- A word of a meter (R96). -/
def meterWord (s : State) (m : Meter) (i : Nat) : W64 :=
  match i with
  | 0 => m.base.setWidth 64
  | 1 => bv 64 (m.pages.toNat + m.cid.toNat * 2 ^ 32 + b01 m.v * 2 ^ 42 + b01 m.sealed * 2 ^ 43)
  | 2 => bv 64 (countSeen s m)
  | _ => m.mid

/-- A word of WM_. -/
def wmWord (s : State) (off : Nat) : W64 :=
  let w := s.wm
  if off = 0 then w.ckpt.setWidth 64
  else if off = 8 then w.logBase.setWidth 64
  else if off = 0x10 then w.logSize.setWidth 64
  else if off = 0x18 then bv 64 (w.widx.toNat + w.ridx.toNat * 2 ^ 32)
  else if off = 0x20 then w.skip.setWidth 64
  else if off = 0x30 then bv 64 (w.contPa.toNat + w.contSlot.toNat * 2 ^ 44 + w.contSt.toNat * 2 ^ 57)
  else if 0x10000 ≤ off ∧ off < 0x30000 then meterWord s (tget {} w.meters ((off - 0x10000) / 0x20)) (off % 0x20 / 8)
  else 0

/-- A write of a word of a meter: fields while V = 0, then V, SEAL and RETIRE (R96). -/
def meterPut (i k : Nat) (w v : W64) (s : State) : State :=
  let m := tget {} s.wm.meters i
  let set (m : Meter) : State := { s with wm := { s.wm with meters := tset s.wm.meters i m } }
  match k with
  | 0 => if m.v then s else set { m with base := w.extractLsb' 0 56 }
  | 1 =>
    let s := if m.v then s else set { m with pages := w.extractLsb' 0 32, cid := w.extractLsb' 32 10 }
    let s := if !m.v && v.getLsbD 42 then s.push (.meterOpen i) else s
    let s := if v.getLsbD 43 && !m.sealed then s.push (.meterSeal i) else s
    if v.getLsbD 44 then s.push (.meterRetire i) else s
  | _ => s

/-- Try again the records that wait for room in a log. -/
def retryRecords (s : State) : State :=
  s.pushAll ((s.wm.meters.filter fun (_, m) => !m.waiting.isEmpty).map fun (i, _) => Instr.meterRecordWrite i)

/-- A write of a word of WM_. -/
def wmPut (off : Nat) (v m : W64) (s : State) : State :=
  let w := merge (wmWord s off) v m
  let x := s.wm
  if off = 0 then { s with wm := { x with ckpt := w.extractLsb' 0 12 } }
  else if off = 8 then { s with wm := { x with logBase := w.extractLsb' 0 44 } }
  else if off = 0x10 then retryRecords { s with wm := { x with logSize := w.extractLsb' 0 16 } }
  else if off = 0x18 then retryRecords { s with wm := { x with ridx := w.extractLsb' 32 32 } }
  else if off = 0x30 then
    let s := { s with wm := { x with contPa := w.extractLsb' 0 44, contSlot := w.extractLsb' 44 12 } }
    if (v &&& m).getLsbD 56 then s.push .meterContinuation else s
  else if 0x10000 ≤ off ∧ off < 0x30000 then meterPut ((off - 0x10000) / 0x20) (off % 0x20 / 8) w (v &&& m) s
  else s

/-- What a read of a word of WM_ clears. -/
def wmClear (off : Nat) (s : State) : State := if off = 0x20 then { s with wm := { s.wm with skip := 0 } } else s

/-! ### Trace, time lost and energy as the MF reads them (R171, R273, R275) -/

/-- A counter of the time-lost matrix as the MF reads it (class 2). -/
def tlmSeen (s : State) (j : Nat) : Nat :=
  let sel := s.tlmSel.toNat
  let k := s.core (bits sel 10 0)
  match tfind k.owners (bits sel 18 16) with
  | none => 0
  | some o =>
    let v := s.vd o.cid
    let i := bits sel 27 24 * 32 + j
    let now := windowOf (granK v 2) s.ns
    let closed := if now = o.tlmWin.1 then (cget o.tlmWin.2.2 i).toNat
      else if now = o.tlmWin.1 + 1 then (cget o.tlm i - cget o.tlmWin.2.1 i).toNat else 0
    disclosed (gran v 2) (cget (tget [] k.tlmPrev o.cid) i).toNat closed (cget o.tlmSync i).toNat (cget o.tlm i).toNat

/-- A word of the TRC_, TLM_ and EN_ block. -/
def trcBlockWord (s : State) (off : Nat) : W64 :=
  if off < 289 * 0x40 then trcWord { tget {} s.optrc (off / 0x40) with en := false, mode := false, tmask := 0 } (off % 0x40 / 8)
  else if off = 0x40000 then s.tlmSel.setWidth 64
  else if 0x40100 ≤ off ∧ off < 0x40180 then
    let j := (off - 0x40100) / 4
    bv 64 (tlmSeen s j + tlmSeen s (j + 1) * 2 ^ 32)
  else if off = 0xC0000 then bv 64 (min (s.enOper / 1000) (2 ^ 64 - 1))
  else if 0xC0008 ≤ off ∧ off < 0xC0008 + 289 * 8 then bv 64 (energySeen s ((off - 0xC0008) / 8))
  else if off = 0xC1000 then bv 64 (30 + 45 * 2 ^ 16 + 40 * 2 ^ 32 + 50 * 2 ^ 48)
  else if off = 0xC1008 then 5
  else 0

/-- A write in the TRC_, TLM_ and EN_ block. -/
def trcBlockPut (off : Nat) (v m : W64) (s : State) : State :=
  let w := merge (trcBlockWord s off) v m
  if off < 289 * 0x40 then
    let i := off / 0x40
    let t := tget {} s.optrc i
    match off % 0x40 / 8 with
    | 0 => { s with optrc := tset s.optrc i { t with base := w &&& 0xFFFFFFFFFFF#64 } }
    | 1 => { s with optrc := tset s.optrc i { t with size := w.extractLsb' 0 32 } }
    | _ => s
  else if off = 0x40000 then { s with tlmSel := (w &&& 0xF0707FF#64).setWidth 32 }
  else s

/-- What a read in the TRC_, TLM_ and EN_ block clears. -/
def trcBlockClear (off : Nat) (s : State) : State :=
  if off < 289 * 0x40 ∧ off % 0x40 = 0x20 then
    let i := off / 0x40
    { s with optrc := tset s.optrc i { tget {} s.optrc i with drop := 0, wrap := 0 } }
  else s

/-! ### Firmware control (FW_) -/

/-- A word of FW_ (R84, R86, R88, R89). -/
def fwWord (s : State) (off : Nat) : W64 :=
  let f := s.fw
  if off = 0 then f.share.setWidth 64
  else if off = 8 then bv 64 (f.limit.toNat + f.fires.toNat * 2 ^ 32)
  else if off = 0x10 then bv 64 (f.failKind.toNat + f.failCause.toNat * 8)
  else if off = 0x18 then bv 64 (f.rpa.toNat + b01 f.use * 2 ^ 48)
  else if 0x100 ≤ off ∧ off < 0x200 then bv 64 (leNat (((f.meas.getD ((off - 0x100) / 0x40) []).drop (off % 0x40)).take 8))
  else 0

/-- A write of a word of FW_. -/
def fwPut (off : Nat) (v m : W64) (s : State) : State :=
  let w := merge (fwWord s off) v m
  let f := s.fw
  if off = 0 then { s with fw := { f with share := w.extractLsb' 0 5 } }
  else if off = 8 then { s with fw := { f with limit := w.extractLsb' 0 32 } }
  else if off = 0x18 then { s with fw := { f with rpa := w.extractLsb' 0 44, use := w.getLsbD 48 } }
  else s

/-- What a read of a word of FW_ clears. -/
def fwClear (off : Nat) (s : State) : State := if off = 8 then { s with fw := { s.fw with fires := 0 } } else s

/-! ### The weaver (WV_, R135) -/

/-- The bytes of a weave table: bit 7 set where an entry names an owner. -/
def tableWord (t : Tab Nat) (i : Nat) : W64 :=
  bv 64 (leNat ((List.range 8).map fun j => match tget 0 t (8 * i + j) with
    | 0 => 0
    | v + 1 => bv 8 (v + 128)))

/-- OATTR of an active owner. -/
def attrWord (s : State) (k : CoreSt) (w : Nat) : W64 :=
  match tfind k.owners w with
  | none => 0
  | some o =>
    let t := s.strand o.sid
    ownerAttr t t.stride t.phase o

/-- Last tick that an owner has executed. -/
def lastTick (s : State) (o : Owner) : Nat := (((s.strand o.sid).tick : Int) - 1 - o.lag).toNat

/-- A word of WV_. -/
def wvWord (s : State) (off : Nat) : W64 :=
  let k := s.core (off / 0x1000)
  let a := off % 0x1000
  if Config.cores ≤ off / 0x1000 then 0
  else if a < 0x20 then tableWord k.table (a / 8)
  else if a < 0x40 then tableWord k.ptable ((a - 0x20) / 8)
  else if a = 0x40 then bv 64 k.swc
  else if a = 0x48 then bv 64 (b01 k.swPend)
  else if 0x100 ≤ a ∧ a < 0x200 then
    let w := (a - 0x100) / 0x20
    match a % 0x20 / 8 with
    | 0 => attrWord s k w
    | 1 => (tfind k.owners w).elim 0 fun o => bv 64 o.sid
    | 2 => (tfind k.owners w).elim 0 fun o => bv 64 (lastTick s o)
    | _ => 0
  else 0

/-! ### BAR0 as a whole -/

/-- The word of the MF's BAR0 at an offset. -/
def mfWord (s : State) (off : Nat) : W64 :=
  let o := off % 0x100000
  if 0x800000 ≤ off ∧ off < 0x1000000 then wvWord s (off - 0x800000)
  else match off / 0x100000 with
    | 0 => cfeWord s 0 o
    | 1 => hbWord s o
    | 2 => plcWord s o
    | 3 => wmWord s o
    | 5 => trcBlockWord s o
    | 6 => fwWord s o
    | 7 => if o < 0x400 then msixWord (s.fn 0) (o / 8) else if o = 0x8000 then (s.fn 0).pba else 0
    | _ => 0

/-- The word of a PF's or VF's BAR0 at an offset (R25, R28). -/
def fnWord (s : State) (fn off : Nat) : W64 :=
  if off = 0 then (s.fn fn).apr.setWidth 64
  else if 0x8000 ≤ off ∧ off < 0x8000 + 16 * vectorsOf fn then msixWord (s.fn fn) ((off - 0x8000) / 8)
  else if off = 0xC000 then (s.fn fn).pba
  else if !hasVd s fn then 0
  else if 0x3000 ≤ off ∧ off < 0x3700 then vdWord (s.vd fn) off
  else cfeWord s fn off

/-- The word of a function's BAR0 at an offset. -/
def regWord (s : State) (fn off : Nat) : W64 := if fn = 0 then mfWord s off else fnWord s fn off

/-- What a read of a word of a function's BAR0 clears. -/
def regClear (fn off : Nat) (s : State) : State :=
  if fn ≠ 0 then (if !hasVd s fn then s else if 0x3000 ≤ off ∧ off < 0x3700 then vdClear fn off s else cfeClear fn off s)
  else
    let o := off % 0x100000
    match off / 0x100000 with
    | 0 => cfeClear 0 o s
    | 1 => hbClear o s
    | 2 => plcClear o s
    | 3 => wmClear o s
    | 5 => trcBlockClear o s
    | 6 => fwClear o s
    | _ => s

/-- A write of a word of the MF's BAR0: the bits of `m`. -/
def mfPut (off : Nat) (v m : W64) (s : State) : State :=
  let o := off % 0x100000
  match off / 0x100000 with
  | 0 => cfePut 0 o v m s
  | 1 => hbPut o v m s
  | 2 => plcPut o v m s
  | 3 => wmPut o v m s
  | 4 => if o < 289 * 8 then replacePolicy (o / 8) (v &&& m).toNat s else s
  | 5 => trcBlockPut o v m s
  | 6 => fwPut o v m s
  | 7 => if o < 0x400 then msixPut 0 (o / 8) v m s else s
  | _ => s

/-- A write of a word of a PF's or VF's BAR0. -/
def fnPut (fn off : Nat) (v m : W64) (s : State) : State :=
  if off = 0 then
    let f := s.fn fn
    let b := (merge (f.apr.setWidth 64) v m).extractLsb' 0 36
    if b = f.apr then s else tdiChange fn (s.setFn fn { f with apr := b })
  else if 0x8000 ≤ off ∧ off < 0x8000 + 16 * vectorsOf fn then msixPut fn ((off - 0x8000) / 8) v m s
  else if !hasVd s fn then s
  else if 0x3000 ≤ off ∧ off < 0x3700 then vdPut fn off v m s
  else cfePut fn off v m s

/-- A write of a word of a function's BAR0. -/
def regPut (fn off : Nat) (v m : W64) (s : State) : State := if fn = 0 then mfPut off v m s else fnPut fn off v m s

/-- The queue of an offset in the QCB table whose GEN is odd, so that the write waits (R94). -/
def heldQueue (s : State) (fn off : Nat) : Option Nat :=
  if 0x1000 ≤ off ∧ off < 0x2000 ∧ suspended s fn ((off - 0x1000) / 0x40) then some ((off - 0x1000) / 0x40) else none

/-! ### Configuration space (R21, R24, R26, R38)

The capabilities of a function with their registers, and those that the rules name: Command, the BARs, the power state, Device Control,
SR-IOV and link width. Where they stand in configuration space is the standard's; here they are words of a space of their own behind BAR0's offsets:
DESIGN CHOICE (log entry 99). -/

/-- The capabilities of R26. -/
inductive Cap where
  | pciExpress | powerManagement | msix | aer | ari | serialNumber | sriov | physical16 | physical32 | physical64 | laneMargining
  | dataLinkFeature | flitLogging | ide | doe
  deriving DecidableEq, Repr

/-- The capabilities that a function carries. -/
def capsOf (fn : Nat) : List Cap :=
  if fn = 0 then
    [.pciExpress, .powerManagement, .msix, .aer, .ari, .serialNumber, .physical16, .physical32, .physical64, .laneMargining,
     .dataLinkFeature, .flitLogging, .ide, .doe]
  else if fn ≤ 32 then [.pciExpress, .powerManagement, .msix, .aer, .ari, .sriov]
  else [.pciExpress, .msix, .aer, .ari]

/-- The number of a capability among the registers of configuration space. -/
def Cap.num : Cap → Nat
  | .pciExpress => 0
  | .powerManagement => 1
  | .msix => 2
  | .aer => 3
  | .ari => 4
  | .serialNumber => 5
  | .sriov => 6
  | .physical16 => 7
  | .physical32 => 8
  | .physical64 => 9
  | .laneMargining => 10
  | .dataLinkFeature => 11
  | .flitLogging => 12
  | .ide => 13
  | .doe => 14

/-- First offset of the configuration words. -/
def cfgBase : Nat := 2 ^ 40

/-- Whether an offset names a configuration word. -/
def isCfg (off : Nat) : Bool := decide (cfgBase ≤ off)

/-- Bytes of a payload or read-request size, by its code, and the code of a size. -/
def sizeOfCode (c : Nat) : Nat := 128 * 2 ^ c
def codeOfSize (n : Nat) : Nat := (n / 128).log2

/-- The place of an error among those that AER shows: PRESUMED, PCI Express (log entry 99). -/
def AerError.place : AerError → Nat
  | .dataLink => 4
  | .poisonedTlp => 12
  | .completionTimeout => 14
  | .completerAbort => 15
  | .malformedTlp => 18
  | .unsupportedRequest => 20
  | .ideCheckFailed => 28
  | .link => 32

/-- A number with the bits of a list set. -/
def bitsOf (l : List Nat) : Nat := (sall l []).foldl (fun n i => n + 2 ^ i) 0

/-- The SR-IOV word of a PF: VF Enable, VF Stride, NumVFs, TotalVFs and First VF Offset (R24). -/
def sriovWord (s : State) (fn : Nat) : W64 :=
  let f := s.fn fn
  bv 64 (b01 f.vfEnable + 1 * 2 ^ 8 + f.numVfs * 2 ^ 16 + 64 * 2 ^ 32 + (f.firstVf - fn) * 2 ^ 48)

/-- Register `i` of a capability that a function carries; register 0 says that it is there. -/
def capReg (s : State) (fn : Nat) (c : Cap) (i : Nat) : W64 :=
  let f := s.fn fn
  match c, i with
  | c, 0 => bv 64 (1 + c.num * 2)
  | .msix, 1 => bv 64 (vectorsOf fn - 1 + b01 f.cfg.msixAll * 2 ^ 14 + b01 f.cfg.msixOn * 2 ^ 15)
  | .aer, 1 => bv 64 (bitsOf (f.aer.map AerError.place))
  | .serialNumber, 1 => Config.serialNumber
  | .sriov, 1 => sriovWord s fn
  | .ide, 1 => bv 64 (bitsOf (s.link.ideKeys.map (·.1)))
  | .ide, 2 => bv 64 (bitsOf s.link.insecure)
  | .doe, 1 => bv 64 (b01 s.link.session + b01 (!s.link.doe.out.isEmpty) * 2 ^ 31)
  | .doe, 2 => 0
  | .doe, 3 => ((s.link.doe.out.head?).getD 0).setWidth 64
  | c, i => tget (Config.capReg fn c.num i) f.cfg.other (16 * c.num + i)

/-- The capability and register of a configuration word, among those that the function carries: 16 words for each, from word 64 on. -/
def capAt (fn i : Nat) : Option (Cap × Nat) :=
  ((capsOf fn).find? fun c => decide (64 + 16 * c.num ≤ i ∧ i < 80 + 16 * c.num)).map fun c => (c, i - 64 - 16 * c.num)

/-- Configuration word `i` of a function. -/
def cfgWord (s : State) (fn i : Nat) : W64 :=
  let f := s.fn fn
  let c := f.cfg
  match i with
  | 0 => c.command.setWidth 64
  | 1 => c.bar0
  | 2 => c.bar2
  | 3 => if (capsOf fn).contains .powerManagement then c.power.setWidth 64 else 0
  | 4 => bv 64 (codeOfSize c.payload * 2 ^ 5 + codeOfSize c.readReq * 2 ^ 12)
  | 5 => if (capsOf fn).contains .sriov then sriovWord s fn else 0
  | 7 => if fn = 0 then bv 64 s.link.active else 0
  | i => match capAt fn i with | some (c, k) => capReg s fn c k | none => 0

/-- The FLR of a function as a step. -/
def flrOf (fn : Nat) : Instr := if fn = 0 then .mfFlr else if fn ≤ 32 then .pfFlr fn else .vfFlr fn

/-- Replace the configuration registers of a function. -/
def setCfg (fn : Nat) (c : PciCfg) (s : State) : State := s.setFn fn { s.fn fn with cfg := c }

/-- A write of Command or a BAR: one that changes it is a change for the TDI (R38). -/
def cfgChange (fn : Nat) (c : PciCfg) (s : State) : State := if c = (s.fn fn).cfg then s else tdiChange fn (setCfg fn c s)

/-- A write of Device Control: payloads to 512 bytes, read requests to 4,096, and Initiate Function Level Reset (R21, R26). -/
def devControl (fn : Nat) (w : Nat) (s : State) : State :=
  let c := (s.fn fn).cfg
  let p := if bits w 7 5 ≤ 2 then sizeOfCode (bits w 7 5) else c.payload
  let r := if bits w 14 12 ≤ 5 then sizeOfCode (bits w 14 12) else c.readReq
  let s := setCfg fn { c with payload := p, readReq := r } s
  if bit w 15 then s.push (flrOf fn) else s

/-- The DOE mailbox takes the object that has been written, and its answer stands to be read; one that the standard has the device sign
carries its signature over the transcript. The end of an exchange in which the device has signed stands as a session (R37). -/
def doeGo (s : State) : State :=
  let d := s.link.doe
  let asked := d.inp.flatMap fun w => natLe 4 w.toNat
  let (a, kind) := Config.spdmAnswer d.transcript asked
  let a := if kind = 1 then a ++ Config.deviceSign (shake256 64 (d.transcript ++ asked ++ a)) else a
  let out := (List.range ((a.length + 3) / 4)).map fun i => bv 32 (leNat ((a.drop (4 * i)).take 4))
  let ends := decide (kind = 2 ∨ kind = 3)
  { s with link := { s.link with
      session := (s.link.session || (decide (kind = 2) && d.signed)) && decide (kind ≠ 3)
      doe := { inp := [], out := out, transcript := if ends then [] else d.transcript ++ asked ++ a
               signed := !ends && (d.signed || decide (kind = 1)) } } }

/-- A write of the DOE mailbox: Control (Go, Abort), Write Data, Read Data, which takes the word that was read away. Which bits these are:
PRESUMED, PCI Express (log entry 99). -/
def doePut (i : Nat) (w : W64) (s : State) : State :=
  let d := s.link.doe
  match i with
  | 1 => if w.getLsbD 0 then { s with link := { s.link with doe := {} } } else if w.getLsbD 31 then doeGo s else s
  | 2 => { s with link := { s.link with doe := { d with inp := d.inp ++ [w.setWidth 32] } } }
  | 3 => { s with link := { s.link with doe := { d with out := d.out.drop 1 } } }
  | _ => s

/-- A write of register `i` of a capability: AER clears the errors of the bits written. -/
def capPut (fn : Nat) (c : Cap) (i : Nat) (v m : W64) (s : State) : State :=
  let f := s.fn fn
  let w := merge (capReg s fn c i) v m
  match c, i with
  | _, 0 => s
  | .msix, 1 => msixControl fn (w.getLsbD 15) (w.getLsbD 14) s
  | .aer, 1 => s.setFn fn { f with aer := f.aer.filter fun e => !(v &&& m).getLsbD e.place }
  | .sriov, 1 => s.pushAll [.numvfsWrite fn (bits w.toNat 31 16), .vfEnableWrite fn (w.getLsbD 0)]
  | .serialNumber, 1 => s
  | .ide, 1 => s
  | .ide, 2 => s
  | .doe, i => doePut i (v &&& m) s
  | c, i => setCfg fn { f.cfg with other := tset f.cfg.other (16 * c.num + i) (merge (capReg s fn c i) w (Config.capMask fn c.num i)) } s

/-- A write of configuration word `i` of a function. -/
def cfgPut (fn i : Nat) (v m : W64) (s : State) : State :=
  let f := s.fn fn
  let c := f.cfg
  let w := merge (cfgWord s fn i) v m
  match i with
  | 0 => cfgChange fn { c with command := w.extractLsb' 0 16 } s
  | 1 => cfgChange fn { c with bar0 := w &&& ~~~(if fn = 0 then 0x1FFFFFF#64 else 0xFFFFF#64) } s
  | 2 => cfgChange fn { c with bar2 := w &&& ~~~0xFFFFFFFFF#64 } s
  | 3 =>
    let p := w.extractLsb' 0 2
    if (capsOf fn).contains .powerManagement && decide (p = 0 ∨ p = 3) then setCfg fn { c with power := p } s else s
  | 4 => devControl fn w.toNat s
  | 5 => if (capsOf fn).contains .sriov then capPut fn .sriov 1 v m s else s
  | 7 =>
    let n := w.toNat
    if fn = 0 ∧ (n = 16 ∨ n = 8 ∨ n = 4) ∧ n ≤ s.link.width then { s with link := { s.link with active := n } } else s
  | i => match capAt fn i with | some (c, k) => capPut fn c k v m s | none => s

/-- A configuration write of `size` bytes. A function that does not exist takes none. -/
def cfgWrite (fn : Nat) (at_ : HostAddr) (size : Nat) (v : W64) (s : State) : State :=
  let (w, m) := writeLanes at_.off size v
  let s' := if at_.ep then logAer fn .poisonedTlp s else s
  if fnExists s fn then cfgPut fn ((at_.off - cfgBase) / 8) w m s' else logAer 0 .unsupportedRequest (s.emit .unsupported)

/-- A configuration read. -/
def cfgRead (fn off : Nat) (s : State) : State :=
  if fnExists s fn then s.emit (.readData fn off (natLe 8 (cfgWord s fn ((off - cfgBase) / 8)).toNat))
  else logAer 0 .unsupportedRequest (s.emit .unsupported)

/-! ### The accesses -/

/-- Whether a write of the MF's BAR0 is an operation that waits for a place in a meter (R100): a VD's share of HBM, or a policy. -/
def mfWaits (s : State) (off : Nat) (v m : W64) : Bool :=
  let o := off % 0x100000
  if off / 0x100000 = 2 ∧ 0x1000 ≤ o ∧ o < 0x1000 + 289 * 8 then
    let q := tget 0xFFFFFFFF#32 s.plc.vdq ((o - 0x1000) / 8)
    decide ((merge (q.setWidth 64) v m).extractLsb' 0 32 ≠ q) && tdiWaits s ((o - 0x1000) / 8)
  else if off / 0x100000 = 4 ∧ o < 289 * 8 then policyTakes s (o / 8) (v &&& m).toNat && tdiWaits s (o / 8)
  else false

/-- A write of a function's BAR0 that its IDE check lets through. -/
def barWrite (fn : Nat) (at_ : HostAddr) (size : Nat) (v : W64) (s : State) : State :=
  let off := at_.off
  match gate s fn with
  | .absent => logAer 0 .unsupportedRequest (s.emit .unsupported)
  | .abort => logAer fn .completerAbort (s.emit (.completerAbort fn))
  | .allOnes | .drop | .stopped => s
  | .ok =>
    let s := if at_.ep then logAer fn .poisonedTlp s else s
    let again := Instr.registerWrite fn ⟨off, none, false⟩ size v
    let (w, m) := writeLanes off size v
    match heldQueue s fn off with
    | some q => s.modQueue fn q fun x => { x with heldOps := x.heldOps ++ [again] }
    | none =>
      if fn = 0 ∧ mfWaits s (off - off % 8) w m then holdMf again s
      else if 0x10000 ≤ off ∧ off < 0x50000 ∧ size ≠ 4 ∧ size ≠ 8 then s else regPut fn (off - off % 8) w m s

/-- A read of a function's BAR0 that its IDE check lets through. -/
def barRead (fn off : Nat) (s : State) : State :=
  let a := off - off % 8
  let ones : List Byte := List.replicate 8 0xFF
  match gate s fn with
  | .absent => logAer 0 .unsupportedRequest (s.emit .unsupported)
  | .abort | .stopped => logAer fn .completerAbort (s.emit (.completerAbort fn))
  | .allOnes => s.emit (.readData fn a ones)
  | .drop => s
  | .ok =>
    if fn = 0 ∧ a = 0x121000 then s.push .hbActDenyRead
    else regClear fn a (s.emit (.readData fn a (natLe 8 (regWord s fn a).toNat)))

/-- REGISTER_WRITE: a write of `size` bytes at an offset of a function's BAR0 (R3, R5, R25), or of its configuration space. -/
def execRegisterWrite (fn : Nat) (at_ : HostAddr) (size : Nat) (v : BitVec 64) (s : State) : Res :=
  .next (match at_.ide with
    | some st => ideFail st s
    | none => if isCfg at_.off then cfgWrite fn at_ size v s else barWrite fn at_ size v s)

/-- RC_REGISTER_READ: a read at an offset of a function's BAR0, or of its configuration space; its RC fields are cleared in the same access
(R3). The width of a register read is not given: the whole aligned 8-byte word is read, and every RC field in it clears, so that a read
of STEP clears LOWERED (R20): DESIGN CHOICE (log entry 101). -/
def execRcRegisterRead (fn : Nat) (at_ : HostAddr) (s : State) : Res :=
  .next (match at_.ide with
    | some st => ideFail st s
    | none => if isCfg at_.off then cfgRead fn (at_.off - at_.off % 8) s else barRead fn at_.off s)

end Sys2Proof.Machine
end

