-- ==== Sys2Proof/Machine/Trust.lean ====
section
/-! DEFINITION. Booting and image verification (R87-R89), attestation (R92, R93), and the weight meters with their
records and logs (R96-R103). -/

namespace Sys2Proof.Machine

/-! ### Boot (R87-R89) -/

/-- The little-endian number of `n` bytes at an offset of a list. -/
def leAt (b : List Byte) (o n : Nat) : Nat := leNat ((b.drop o).take n)

/-- Bytes of an image before its body. -/
def imageHead : Nat := 0x1800

/-- The measurement D of an image: SHAKE256 over header bytes 0x000-0x00F and the body. -/
def measurement (b : List Byte) : List Byte :=
  shake256 64 (b.take 0x10 ++ (b.drop imageHead).take (leAt b 8 8))

/-- Why an image of a kind is not accepted, 0 if it is: 1 magic, 2 key, 3 signature, 4 SVN (R88). An image that cannot be
read, is of another kind, or has bytes 0x149D-0x17FF not all zero fails with 1. -/
def imageFault (kind : Nat) (b : List Byte) : Nat :=
  let key := (b.drop 0x10).take 1952
  if b.length < imageHead + leAt b 8 8 ∨ b.length < imageHead then 1
  else if leAt b 0 4 ≠ 0x4B494D47 ∨ leAt b 4 2 ≠ kind ∨ ((b.drop 0x149D).take 867).any (· ≠ 0) then 1
  else if shake256 32 key ≠ Config.fuseKeyDigest then 2
  else if !Config.mldsaVerify key (measurement b) ((b.drop 0x7B0).take 3309) then 3
  else if leAt b 6 2 < Config.fuseMinSvn kind then 4
  else 0

/-- The next 4 KiB boundary. -/
def alignPage (a : Nat) : Nat := (a + 4095) / 4096 * 4096

/-- An image of the recovery set at a PA, and where the next begins; empty where it does not lie in HBM (R89). -/
def recoveryImage (s : State) (a : Nat) : List Byte × Nat :=
  if Config.hbmBytes < a + imageHead then ([], a)
  else
    let n := imageHead + preadLe s (a + 8) 8
    if Config.hbmBytes < a + n then ([], a) else (pread s a n, alignPage (a + n))

/-- `n` images of the recovery set from a PA. -/
def recoverySet (s : State) : Nat → Nat → List (List Byte)
  | 0, _ => []
  | n + 1, a => (recoveryImage s a).1 :: recoverySet s n (recoveryImage s a).2

/-- The first image that is not accepted: its kind and cause. -/
def bootFault (imgs : List (List Byte)) : Option (Nat × Nat) :=
  [1, 2, 3, 4].findSome? fun k =>
    let c := imageFault k (imgs.getD (k - 1) [])
    if c = 0 then none else some (k, c)

/-- Cobbler as it leaves a reset: x, e and p are clear, and RESET stands ahead of every queued event (R86, R407). -/
def Cobbler.restart (b : Cobbler) : Cobbler :=
  { b with x := [], e := [], p := 0, pc := 0, blocks := [], wait := 0, evres := 0, wsel := 0, cur := none, zfill := none, wd := 0
           queue := { kind := .reset, wid := 0, sid := 0, args := [0, 0, 0, 0] } :: b.queue }

/-- Load a core with the accepted Cobbler image: 16 KiB of firmware instruction memory, of which the first 0x80 bytes are
the vector table (R82, R407). -/
def loadCobbler (img : List Byte) (k : CoreSt) : CoreSt :=
  let body := ((img.drop imageHead).take (leAt img 8 8)).take 16384
  let b := { k.cob with vectors := ctab 32 fun i => bv 32 (leAt body (4 * i) 4), img := bytesParcels body, imErr := []
                        svn := bv 16 (leAt img 6 2) }
  { k with cob := b.restart }

/-- FIRMWARE_BOOT: the boot ROM reads the four images from the firmware store, or from the recovery set when USE = 1, and
accepts or stops (R87-R89). -/
def execFirmwareBoot (s : State) : Res :=
  let imgs := if s.fw.use then recoverySet s 4 s.fw.rpa.toNat else s.fw.store
  .next (match bootFault imgs with
    | some (k, c) =>
      let meas := (List.range 4).map fun i => if i + 1 < k then measurement (imgs.getD i []) else []
      { s with fw := { s.fw with booted := false, failKind := bv 3 k, failCause := bv 3 c, meas := meas } }
    | none =>
      { s with
        fw := { s.fw with booted := true, failKind := 0, failCause := 0, meas := imgs.map measurement, use := false, store := imgs }
        cores := (List.range Config.cores).map fun c => (c, loadCobbler (imgs.getD 1 []) (s.core c)) })

/-! ### Attestation (R92, R93) -/

/-- Bytes of a list up to a length, then zeros. -/
def padTo (n : Nat) (b : List Byte) : List Byte := (b ++ List.replicate n 0).take n

/-- The entry of an open meter in a report. -/
def reportMeter (m : Meter) : List Byte :=
  natLe 8 m.mid.toNat ++ natLe 8 m.count ++ padTo 64 m.digest ++ natLe 8 (b01 m.sealed)

/-- The report of a VD as captured now, with its signature. -/
def attestReport (s : State) (cid : Nat) (nonce : List Byte) : List Byte :=
  let v := s.vd cid
  let ms := (metersOf s cid).map fun i => reportMeter (tget {} s.wm.meters i)
  let rest := padTo 32 nonce ++ natLe 8 s.cycle ++ natLe 8 s.ns ++ padTo 32 deviceIdentity
    ++ (s.fw.meas.flatMap (padTo 64)) ++ natLe 8 cid ++ padTo 64 v.digest ++ padTo 64 v.polDigest ++ padTo 64 v.chain
    ++ natLe 8 v.admitted ++ natLe 8 ms.length ++ ms.flatten
  let body := natLe 8 (0x54414C47 + 2 ^ 32 + (rest.length + 8) * 2 ^ 48) ++ rest
  body ++ padTo 3309 (Config.deviceSign (shake256 64 body))

/-- ATTESTATION_REQUEST: GO of the VD captures a report, which is written later; a request of the MF through SPDM, with a
nonce of its own, is answered over DOE. -/
def execAttestationRequest (fn : Nat) (nonce : Option (List Byte)) (s : State) : Res :=
  let v := s.vd fn
  .next (if !hasVd s fn then s
    else match nonce with
      | some n => s.emit (.attest (attestReport s fn n))
      | none =>
        if v.att.busy then s
        else
          let r := attestReport s fn (v.att.nonce.flatMap fun w => natLe 8 w.toNat)
          let s := s.setVd fn { v with att := { v.att with busy := true, report := r, held := false } }
          s.tick1.at (s.cycle + 1 + Config.hubCycles s.free) (.attestationReportWrite fn))

/-- ATTESTATION_REPORT_WRITE: the report is written at DEST; a demand page holds the write. -/
def execAttestationReportWrite (fn : Nat) (s : State) : Res :=
  let v := s.vd fn
  let done (st : BitVec 2) (s : State) : State :=
    let v := s.vd fn
    s.setVd fn { v with att := { v.att with busy := false, st := st, report := [], held := false } }
  .next (if !v.att.busy then s
    else if v.att.dest.toNat % 256 ≠ 0 then done 3 s
    else
      match hubPut s fn v.att.dest.toNat v.att.report with
      | .ok s' => done 1 s'
      | .error (.fault _ _) => done 2 s
      | .error (.demand p) => pageRequest fn p true (s.setVd fn { v with att := { v.att with held := true } }))

/-! ### Meter registers (R96) -/

/-- Meter `i`. -/
def State.meter (s : State) (i : Nat) : Meter := tget {} s.wm.meters i

/-- Replace meter `i`. -/
def State.setMeter (s : State) (i : Nat) (m : Meter) : State := { s with wm := { s.wm with meters := tset s.wm.meters i m } }

/-- The MF operations that waited are tried again. -/
def releaseMf (s : State) : State := ({ s with wm := { s.wm with held := [] } }).pushAll s.wm.held

/-- Whether two regions of one CID overlap. -/
def Meter.meets (a b : Meter) : Bool :=
  decide (a.cid = b.cid ∧ a.base.toNat < b.base.toNat + b.pages.toNat ∧ b.base.toNat < a.base.toNat + a.pages.toNat)

/-- Whether one meter more would be beyond the 64 open meters that a VD may hold (R96). -/
def metersFull (s : State) (cid : Nat) : Bool := decide (64 ≤ (metersOf s cid).length)

/-- Whether a write of V = 1 is ignored. -/
def openRefused (s : State) (i : Nat) : Bool :=
  let m := s.meter i
  decide (m.pages = 0) || decide (15 * 2 ^ 52 < m.base.toNat + m.pages.toNat)
    || s.wm.meters.any (fun (j, n) => decide (j ≠ i) && n.v && m.meets n)
    || metersFull s m.cid.toNat

/-- The physical address of the leaf entry that maps a VA, if the walk finds one: through the tables from `tab`. -/
def leafPa (s : State) (va : Nat) : List Nat → Nat → Option Nat
  | [], _ => none
  | lv :: lvs, tab =>
    let a := tab + bits va (16 + 14 * lv + 13) (16 + 14 * lv) * 8
    match readEntry s a va with
    | .error _ => none
    | .ok e =>
      match checkEntry e lv va false with
      | .error _ => none
      | .ok (true, _) => some a
      | .ok (false, addr) => leafPa s va lvs addr

/-- Set or clear the metered bit in the entry that maps a page of a VD. -/
def markPage (cid : Nat) (on : Bool) (s : State) (page : Nat) : State :=
  match leafPa s (page * 65536) [3, 2, 1, 0] (s.vd cid).root with
  | none => s
  | some a =>
    let b := cget s.mem a
    { s with mem := cset s.mem a (if on then b ||| 8 else b &&& 0xF7) }

/-- Set or clear the metered bits of a meter's region. -/
def markRegion (m : Meter) (on : Bool) (s : State) : State :=
  (List.range m.pages.toNat).foldl (fun s k => markPage m.cid.toNat on s (m.base.toNat + k)) s

/-- METER_OPEN: the meter opens, unless R96 ignores the write; it waits while records of the slot's last meter wait. -/
def execMeterOpen (i : Nat) (s : State) : Res :=
  let m := s.meter i
  .next (if m.v ∨ openRefused s i then s
    else if !m.waiting.isEmpty then holdMf (.meterOpen i) s
    else
      let m' : Meter := { base := m.base, pages := m.pages, cid := m.cid, v := true, mid := Config.randomMid s.wm.draws }
      let s := (s.setMeter i m')
      let s := { s with wm := { s.wm with draws := s.wm.draws + 1 } }
      markRegion m' true (meterTrigger i 1 0 [] s))

/-- The hub reads a meter's region for its digest, which counts as any read of its pages (R97): the lines before one that cannot be read. -/
def readRegion (m : Meter) (s : State) : State :=
  let va := m.base.toNat * 65536
  let n := (readUpTo s m.cid.toNat (lineParts va (m.pages.toNat * 65536))).1.length
  chargeOper (countRead s m.cid.toNat va n) (rangeEnergy s m.cid.toNat va n)

/-- METER_SEAL: the region is digested and a SEAL record is triggered; from then on it takes no write. -/
def execMeterSeal (i : Nat) (s : State) : Res :=
  let m := s.meter i
  .next (if !m.v ∨ m.sealed then s
    else if !meterRoom s i then holdMf (.meterSeal i) s
    else
      let (d, s) := match vread s m.cid.toNat (m.base.toNat * 65536) (m.pages.toNat * 65536) with
        | .ok (b, _) => (shake256 64 b, s)
        | .error _ => (Config.regionDigest s.free, s.tick1)
      let s := readRegion m s
      meterTrigger i 4 0 [] (s.setMeter i { s.meter i with sealed := true, digest := d }))

/-- METER_RETIRE: a RETIRE record, and V = 0. SEAL reads 0 from then on as well: R96 does not say; DESIGN CHOICE (log entry 55). -/
def execMeterRetire (i : Nat) (s : State) : Res :=
  let m := s.meter i
  .next (if !m.v then s
    else if !meterRoom s i then holdMf (.meterRetire i) s
    else
      let s := meterTrigger i 5 0 [] s
      markRegion m false (s.setMeter i { s.meter i with v := false, sealed := false }))

/-- METER_CHECKPOINT: each open meter captures a CHECKPOINT record (R99). -/
def execMeterCheckpoint (s : State) : Res :=
  .next ((s.wm.meters.filter fun (_, m) => m.v).foldl (fun s (i, _) => meterTrigger i 2 0 [] s) s)

/-! ### Records and logs (R98, R100, R101, R105) -/

/-- The 256-byte body of a record. -/
def recordBody (m : Meter) (t : MeterTrig) (filtered : Bool) (count : Nat) : List Byte :=
  padTo 256 (natLe 8 (t.type + t.event * 2 ^ 8 + b01 filtered * 2 ^ 16 + b01 t.late * 2 ^ 17 + m.seqNo % 2 ^ 32 * 2 ^ 32)
    ++ natLe 8 m.mid.toNat ++ padTo 64 t.digest ++ natLe 8 count ++ natLe 8 t.timebase ++ natLe 8 t.ns ++ padTo 64 m.prev
    ++ padTo 32 deviceIdentity ++ natLe 8 m.cid.toNat ++ padTo 48 t.extra)

/-- The 3,584 bytes of a record with a body: the signature over its digest, and zeros. -/
def signedRecord (body : List Byte) : List Byte := padTo 3584 (body ++ padTo 3309 (Config.deviceSign (shake256 64 body)))

/-- What the operator log takes of a record under GRAN of class 6 (R105), if anything. -/
def operatorRecord (g : Nat) (m : Meter) (t : MeterTrig) : Option (List Byte) :=
  match g with
  | 0 => none
  | 1 => if t.type = 2 then none else some (signedRecord (recordBody m t false t.count))
  | 2 => some (signedRecord (recordBody m t true (bucket t.window)))
  | _ => some (signedRecord (recordBody m t false t.count))

/-- Whether the tenant log of a VD is full (R101). -/
def tenantFull (v : Vd) : Bool := decide ((v.mlogW - v.mlogR).toNat = v.logCap)

/-- Whether the operator log is full (R100). -/
def operatorFull (w : Weights) : Bool := decide (w.logSize.toNat ≤ (w.widx - w.ridx).toNat)

/-- Write a record to the operator log. -/
def operatorWrite (b : List Byte) (s : State) : State :=
  let w := s.wm
  let pa := w.logBase.toNat + w.widx.toNat % w.logSize.toNat * 3584
  let s := match hubPutHbm s pa b with | .ok s' => s' | .error _ => s
  { s with wm := { s.wm with widx := w.widx + 1 } }

/-- The head of a meter's triggers has been written: its digest is chained, and a trigger that found no place is captured
(R98, R100). -/
def recordDone (i : Nat) (digest : List Byte) (s : State) : State :=
  let m := s.meter i
  let m := { m with seqNo := m.seqNo + 1, prev := digest, waiting := m.waiting.drop 1 }
  let m := match m.late with
    | [] => m
    | (ty, ev, ex) :: l => { m with late := l, waiting := m.waiting ++ [meterCapture s m ty ev true ex] }
  let s := releaseMf (s.setMeter i m)
  if m.waiting.isEmpty then s else s.push (.meterRecordWrite i)

/-- METER_RECORD_WRITE: the oldest trigger of a meter is signed, chained and written to both logs, when both have room. A
write to the tenant log that faults counts in FLT; a demand page holds it. A VD that is gone has no log. -/
def execMeterRecordWrite (i : Nat) (s : State) : Res :=
  let m := s.meter i
  .next (match m.waiting with
    | [] => s
    | t :: _ =>
      let cid := m.cid.toNat
      let v := s.vd cid
      let body := recordBody m t false t.count
      let op := operatorRecord t.gran m t
      if (hasVd s cid && tenantFull v) || (op.isSome && operatorFull s.wm) then s
      else
        let keep (s : State) : State :=
          if t.type ≠ 6 then s
          else
            let r := signedRecord body ++ natLe 8 m.base.toNat ++ natLe 8 m.pages.toNat
            { s with wm := { s.wm with handoffs := s.wm.handoffs ++ [(cid, r)] } }
        let finish (s : State) : State :=
          keep <| recordDone i (shake256 64 body) (match op with | some b => operatorWrite b s | none => s)
        if !hasVd s cid then finish s
        else
          let moved (flt : Bool) (s : State) : State :=
            let v := s.vd cid
            s.setVd cid { v with mlogW := v.mlogW + 1, mlogF := if flt then satInc v.mlogF else v.mlogF }
          match hubPut s cid (v.logVa + v.mlogW.toNat % v.logCap * 3584) (signedRecord body) with
          | .ok s' => finish (moved false s')
          | .error (.fault _ _) => finish (moved true s)
          | .error (.demand p) => pageRequest cid p true s)

/-- TENANT_LOG_RIDX_WRITE: frees room, unless it would make (WIDX - RIDX) mod 2^32 exceed the capacity (R101). -/
def execTenantLogRidxWrite (cid : Nat) (v : BitVec 32) (s : State) : Res :=
  let d := s.vd cid
  .next (if d.logCap < (d.mlogW - v).toNat then s else retryRecords (s.setVd cid { d with mlogR := v }))

/-! ### Continuation (R102, R103) -/

/-- Open a meter with the identity of a record: MID, COUNT, digest and seal; its next record continues it. -/
def continueMeter (m : Meter) (r : List Byte) : Meter :=
  let d := (r.drop 0x10).take 64
  { base := m.base, pages := m.pages, cid := m.cid, v := true, mid := bv 64 (leAt r 8 8), count := leAt r 0x50 8,
    digest := d, sealed := d.any (· ≠ 0), seqNo := leAt r 4 4 + 1, handNs := leAt r 0x60 8,
    prev := shake256 64 (r.take 256) }

/-- Whether a record verifies under a key. -/
def recordValid (key r : List Byte) : Bool :=
  Config.mldsaVerify key (shake256 64 (r.take 256)) ((r.drop 256).take 3309)
    && decide (1 ≤ leAt r 0 1 ∧ leAt r 0 1 ≤ 8) && decide (r.length = 3584)

/-- The ST that a continuation ends with: 1 opened, 2 certificate, 3 record, 4 slot busy. A VD that holds 64 open meters can open no
slot: ST 4, DEDUCED (log entry 102). -/
def contStatus (s : State) : Nat :=
  let pa := s.wm.contPa.toNat
  let slot := s.meter s.wm.contSlot.toNat
  if Config.hbmBytes < pa + 3584 + Config.certBytes then 2
  else
    match Config.certKey (pread s (pa + 3584) Config.certBytes) with
    | none => 2
    | some key =>
      if !recordValid key (pread s pa 3584) then 3 else if slot.v || metersFull s slot.cid.toNat then 4 else 1

/-- METER_CONTINUATION: GO in WM_CONT verifies a last record and opens the slot, with a CONTINUATION and a GAP record. -/
def execMeterContinuation (s : State) : Res :=
  let i := s.wm.contSlot.toNat
  let st := contStatus s
  .next (if st ≠ 1 then { s with wm := { s.wm with contSt := bv 3 st } }
    else if !(s.meter i).waiting.isEmpty then holdMf .meterContinuation s
    else
      let r := pread s s.wm.contPa.toNat 3584
      let m := continueMeter (s.meter i) r
      let elapsed := s.ns - leAt r 0x60 8
      let gap := natLe 8 (min (2 ^ 64 - 1) (elapsed * 23680)) ++ natLe 8 elapsed ++ natLe 8 (m.pages.toNat * 65536)
      let s := { s with wm := { s.wm with contSt := 1 } }
      markRegion m true (meterTrigger i 8 0 gap (meterTrigger i 7 0 [] (s.setMeter i m))))

end Sys2Proof.Machine
end

