-- ==== Sys2Proof/Machine/Partitions.lean ====
section
/-! DEFINITION. Partitions (R107, R108), the creation and end of virtual devices (R33, R104, R109-R114), and live migration
with post-copy (R102, R123-R127). -/

namespace Sys2Proof.Machine

/-! ### Partitions (R107, R108) -/

/-- The fields of a word written to HB_PART. -/
def partOfWord (w : W64) : Part :=
  { qx := w.extractLsb' 0 2, qy := w.extractLsb' 2 3, qw := w.extractLsb' 5 2, qh := w.extractLsb' 7 3, v := w.getLsbD 10 }

/-- Whether the rectangle lies in the grid of quarters. -/
def Part.fits (p : Part) : Bool := decide (p.qx.toNat + p.qw.toNat ≤ 3 ∧ p.qy.toNat + p.qh.toNat ≤ 7)

/-- Whether two rectangles share a quarter. -/
def Part.meets (a b : Part) : Bool :=
  decide (a.qx.toNat ≤ b.qx.toNat + b.qw.toNat ∧ b.qx.toNat ≤ a.qx.toNat + a.qw.toNat
    ∧ a.qy.toNat ≤ b.qy.toNat + b.qh.toNat ∧ b.qy.toNat ≤ a.qy.toNat + a.qh.toNat)

/-- Whether a rectangle contains another. -/
def Part.contains (a b : Part) : Bool :=
  decide (a.qx.toNat ≤ b.qx.toNat ∧ b.qx.toNat + b.qw.toNat ≤ a.qx.toNat + a.qw.toNat
    ∧ a.qy.toNat ≤ b.qy.toNat ∧ b.qy.toNat + b.qh.toNat ≤ a.qy.toNat + a.qh.toNat)

/-- Whether a rectangle meets an existing partition other than `n`. -/
def overlapsOther (s : State) (n : Nat) (p : Part) : Bool := s.parts.any fun (m, q) => decide (m ≠ n) && q.v && p.meets q

/-- The functions of a partition that hold a VD. -/
def vdsOf (s : State) (n : Nat) : List Nat := (s.vds.map (·.1)).filter fun c => pfOf s c = n

/-- Replace a partition. -/
def State.setPartition (s : State) (n : Nat) (p : Part) : State := { s with parts := tset s.parts n p }

/-- PARTITION_CREATE: V goes from 0 to 1 where the rectangle fits and overlaps none; not before the boot has accepted
every image (R87, R88). -/
def execPartitionCreate (n : Nat) (v : BitVec 64) (s : State) : Res :=
  let p := partOfWord v
  .next (if s.fw.booted && !(tget {} s.parts n).v && p.v && p.fits && !overlapsOther s n p then
      grantsChanged (s.setPartition n p)
    else s)

/-- PARTITION_RESIZE: an existing partition changes; while it holds VDs it only grows, which is a change to each of them
(R38), and waits for a place in their meters (R100). -/
def execPartitionResize (n : Nat) (v : BitVec 64) (s : State) : Res :=
  let p := partOfWord v
  let old := tget {} s.parts n
  let vds := vdsOf s n
  .next (if !old.v || !p.v || !p.fits || overlapsOther s n p || (!vds.isEmpty && !p.contains old) then s
    else if decide (p ≠ old) && vds.any (tdiWaits s) then holdMf (.partitionResize n v) s
    else
      let s := grantsChanged (s.setPartition n p)
      if p = old then s else vds.foldl (fun s c => tdiChange c s) s)

/-- The routing IDs of the enabled VFs of the PFs: first and count. -/
def vfRanges (s : State) : List (Nat × Nat) :=
  s.fns.filterMap fun (p, f) => if f.vfEnable && decide (1 ≤ p ∧ p ≤ 32) then some (f.firstVf, f.numVfs) else none

/-- The first of `n` routing IDs from `lo` on that lie in 33-288 and meet none of some ranges. -/
def vfFit (used : List (Nat × Nat)) (lo n : Nat) : Option Nat :=
  ((List.range (290 - n - lo)).map (· + lo)).find? fun a => used.all fun (b, m) => decide (a + n ≤ b ∨ b + m ≤ a)

/-- The place of the VFs of a PF that is not enabled: behind those of the PFs before it, else anywhere free of the others, else anywhere
free of those enabled, else none: R24 gives the packing in PF order; how it goes on around VFs that are enabled is a DESIGN CHOICE
(log entry 100). -/
def vfPlace (on used : List (Nat × Nat)) (lo n : Nat) : Nat :=
  ((vfFit used lo n).orElse fun _ => (vfFit used 33 n).orElse fun _ => vfFit on 33 n).getD 0

/-- The first VF routing IDs are set, in PF order; enabled VFs stay where they are (R24). -/
def packVfs (s : State) : State :=
  let on := vfRanges s
  let put (a : State × List (Nat × Nat) × Nat) (p : Nat) : State × List (Nat × Nat) × Nat :=
    let f := a.1.fn p
    if f.numVfs = 0 then a
    else if f.vfEnable then (a.1, a.2.1, max a.2.2 (f.firstVf + f.numVfs))
    else
      let v := vfPlace on a.2.1 a.2.2 f.numVfs
      (a.1.setFn p { f with firstVf := v }, (v, f.numVfs) :: a.2.1, max a.2.2 (v + f.numVfs))
  (((List.range 32).map (· + 1)).foldl put (s, on, 33)).1

/-- Clear VF Enable and NumVFs of a PF (R24). -/
def clearVfs (pf : Nat) (s : State) : State := packVfs (s.setFn pf { s.fn pf with vfEnable := false, numVfs := 0 })

/-- The enabled VFs of a PF. -/
def vfsOf (s : State) (pf : Nat) : List Nat :=
  let f := s.fn pf
  if f.vfEnable then (List.range f.numVfs).map (· + f.firstVf) else []

/-- PARTITION_REMOVE: a partition that holds no VD goes, with the VF state of its PF. -/
def execPartitionRemove (n : Nat) (s : State) : Res :=
  .next (if !(vdsOf s n).isEmpty then s else clearVfs n (grantsChanged (s.setPartition n {})))

/-! ### The end of a VD (R33) -/

/-- Whether a timed operation belongs to a function's queues or CQs, or its VD's reports and pages. -/
def timerOf (fn : Nat) (i : Instr) : Bool :=
  match i with
  | .cqCoalesceTimeout f _ => f = fn
  | .launchAgingStep f _ => f = fn
  | .waitReread f _ => f = fn
  | .attestationReportWrite f => f = fn
  | .postcopyPullTimeout f _ => f = fn
  | .postcopyPagePush f => f = fn
  | _ => false

/-- The function's registers, queues, CQs and MSI-X state take their reset values; nothing is posted for its packets
(R33 steps 2, 5). VF state and the error log of the function are kept. -/
def resetFunction (fn : Nat) (s : State) : State :=
  let f := s.fn fn
  let s := s.setFn fn { vfEnable := f.vfEnable, numVfs := f.numVfs, firstVf := f.firstVf, aer := f.aer }
  { s with
    due := s.due.filter fun i => !timerOf fn i
    queues := s.queues.filter fun (i, _) => i / 64 ≠ fn
    cqs := s.cqs.filter fun (i, _) => i / 64 ≠ fn
    runs := s.runs.filter fun r => r.fn ≠ fn
    posts := s.posts.filter fun e => e.fn ≠ fn
    sigHeld := s.sigHeld.filter fun o => o.fn ≠ fn
    timers := s.timers.filter fun (_, i) => !timerOf fn i
    nsTimers := s.nsTimers.filter fun (_, i) => !timerOf fn i }

/-- The requests of a VD to peers end. -/
def endRequests (cid : Nat) (s : State) : State :=
  (s.klk.reqs.filter fun r => r.req.scid = cid).foldl (fun s r => endRequest r s) s

/-- The VD of a function is gone, and its CID is free (R109). What it had asked of peers, and what it held, goes; peers whose requests it
had granted are answered; its frames await their next holder (R56). -/
def removeVd (cid : Nat) (s : State) : State :=
  let s := tlbDrop cid (endRequests cid s)
  let peers := s.klk.busyPeer.filter fun r => r.tcid = cid
  let mig := s.plc.migBusy && decide (s.plc.migVd = cid)
  noteTables s <| { s with
    vds := tdel s.vds cid
    xfers := s.xfers.filter fun x => x.cid ≠ cid
    sigHeld := s.sigHeld.filter fun o => o.cid ≠ cid
    klk := { s.klk with heldPeer := s.klk.heldPeer.filter fun (_, r) => r.tcid ≠ cid }
    plc := if mig then { s.plc with migBusy := false, migSt := 2 } else s.plc
    wm := { s.wm with handoffs := s.wm.handoffs.filter fun (c, _) => c ≠ cid } }.pushAll (peers.map .peerRequestArrival)

/-- Whether a VD still has strands. -/
def hasStrands (s : State) (cid : Nat) : Bool := s.strands.any fun (_, t) => t.cid = cid

/-- An FLR of a function, or the destruction of its VD (`event` 4 or 6), as far as it can go now: accesses are dropped and
the strands stop; when they are gone the meters take the event; then the VD goes and the registers reset (R33). -/
def flrStep (fn event : Nat) (s : State) : State :=
  if !hasVd s fn then resetFunction fn s
  else
    let v := s.vd fn
    let s := if v.closing then s else dropPackets fn (doomStrands fn (s.setVd fn { v with closing := true, flr := event * 2 }))
    let v := s.vd fn
    if hasStrands s fn then s
    else if v.flr % 2 = 0 then
      (meterEvent fn (v.flr / 2) (s.setVd fn { v with flr := v.flr + 1 })).push (.vfFlr fn)
    else
      let s := resetFunction fn (removeVd fn s)
      if s.vdcmd.busy ∧ s.vdcmd.fn = fn then { s with vdcmd := { s.vdcmd with busy := false, st := 1 } } else s

/-- The FLR of a PF, or the end of its VD: its VD, every VF as by an FLR, VF Enable and NumVFs (R32). -/
def pfEnd (pf event : Nat) (s : State) : State :=
  let vs := vfsOf s pf
  clearVfs pf (flrStep pf event (vs.foldl (fun s v => flrStep v 4 s) s))

/-! ### Creating and destroying (R109-R111) -/

/-- The PF that a routing ID belongs to, whether or not its VF is enabled: 0 for none. -/
def ownerPf (s : State) (fn : Nat) : Nat :=
  if pfOf s fn ≠ 0 ∨ fn = 0 then pfOf s fn
  else
    match s.fns.find? fun (p, f) => decide (1 ≤ p ∧ p ≤ 32 ∧ f.firstVf ≤ fn ∧ fn < f.firstVf + f.numVfs) with
    | some (p, _) => p
    | none => 0

/-- Whether [a, a + n) lies wholly in HBM. -/
def wholeHbm (a n : Nat) : Bool := decide (a + n ≤ Config.hbmBytes)

/-- Bytes of the context region of a VD (R112). -/
def contextBytes (maxCores : Nat) : Nat := 0x10000 + maxCores * Config.coreRecord

/-- The first of the descriptor's fields that is out of range, as ST; 0 for none (R111). -/
def descFault (d : List Byte) (p : Part) : Nat :=
  let f (o n : Nat) : Nat := leAt d o n
  let win := f 4 4
  if f 2 2 < 1 ∨ partCores p < f 2 2 then 5
  else if win % 4096 ≠ 0 ∨ win < 4096 ∨ 0x7C000 < win then 2
  else if 32 < f 8 1 ∨ 8 < f 9 1 ∨ 16 < f 0xA 1 ∨ 1 < f 0xB 1 then 2
  else if f 0x10 8 % 131072 ≠ 0 ∨ !wholeHbm (f 0x10 8) 131072 then 2
  else if f 0x18 8 % 65536 ≠ 0 ∨ !wholeHbm (f 0x18 8) (contextBytes (f 2 2)) then 6
  else if !wholeHbm (f 0x20 8) 5325 then 2
  else if f 0x28 8 % 256 ≠ 0 then 2
  else if f 0x30 8 = 0 ∨ 65536 ≤ f 0x30 8 then 2
  else if 10000 < f 0x38 4 then 2
  else if (d.drop 0x3C).any (· ≠ 0) then 2
  else 0

/-- The checks of OP 1 and OP 3 in their order: the ST of the first that fails, 0 for none (R110). -/
def createFault (s : State) : Nat :=
  let pa := s.vdcmd.pa.toNat
  if pa % 256 ≠ 0 ∨ !wholeHbm pa 256 then 2
  else
    let d := pread s pa 256
    let rid := leAt d 0 2
    let part := tget {} s.parts (ownerPf s rid)
    if rid = 0 ∨ 288 < rid ∨ !part.v then 2
    else if !fnExists s rid ∨ hasVd s rid then 3
    else
      match descFault d part with
      | 0 => if policyOk (pread s (leAt d 0x20 8) 5325) then 0 else 4
      | st => st

/-- The VD that a descriptor and a policy give. -/
def newVd (s : State) (d pol : List Byte) (state : VdState) : Vd :=
  let f (o n : Nat) : Nat := leAt d o n
  let cid := f 0 2
  let digest := shake256 64 d
  { count := tget 0 s.counts cid + 1, state := state, maxCores := f 2 2, window := f 4 4, om := f 8 1, ring := f 9 1,
    vregs := f 0xA 1, demand := bit (f 0xB 1) 0, wdog := f 0xC 4, root := f 0x10 8, ctx := f 0x18 8, policyPa := f 0x20 8,
    logVa := f 0x28 8, logCap := f 0x30 8, pullMs := if f 0x38 4 = 0 then 100 else f 0x38 4, desc := d, digest := digest,
    policy := policyEntries pol, polKey := policyKey pol,
    polDigest := policyDigest pol, chain := shake256 64 (natLe 8 cid ++ digest) }

/-- HB_VDCMD ends with a status. -/
def vdcmdDone (st : Nat) (s : State) : State := { s with vdcmd := { s.vdcmd with busy := false, st := bv 4 st } }

/-- Create a VD in a state; frames that its tables map already are its own from now on (R56). -/
def createVd (state : VdState) (s : State) : State :=
  match createFault s with
  | 0 =>
    let d := pread s s.vdcmd.pa.toNat 256
    let v := newVd s d (pread s (leAt d 0x20 8) 5325) state
    let cid := leAt d 0 2
    vdcmdDone 1 (settleFrames { s.setVd cid v with counts := tset s.counts cid v.count })
  | st => vdcmdDone st s

/-- VD_CREATE: HB_VDCMD OP 1. -/
def execVdCreate (s : State) : Res := .next (createVd .active s)

/-- VD_CREATE_INCOMING: HB_VDCMD OP 3, a destination of a migration. -/
def execVdCreateIncoming (s : State) : Res := .next (createVd .incoming s)

/-- The ST that OP 2 ends with at once, 0 if the VD is destroyed. -/
def destroyFault (s : State) : Nat :=
  let pa := s.vdcmd.pa.toNat
  if pa % 256 ≠ 0 ∨ !wholeHbm pa 256 then 2
  else
    let rid := leAt (pread s pa 256) 0 2
    if rid = 0 ∨ 288 < rid then 2
    else if !fnExists s rid ∨ !hasVd s rid then 3
    else
      match (s.vd rid).state with
      | .migOut | .incoming | .postcopy => 7
      | _ => 0

/-- The VD of HB_VDCMD ends as by an FLR of its function; an event that a meter has no place for holds the operation back (R100). -/
def destroyVd (s : State) : State :=
  let rid := s.vdcmd.fn
  if (metersOf s rid).any fun i => !meterRoom s i then holdMf .vdDestroy s
  else if rid ≤ 32 then pfEnd rid 6 s
  else flrStep rid 6 s

/-- VD_DESTROY: HB_VDCMD OP 2, as an FLR of the function; BUSY until the VD is gone. One that waited for a meter goes on. -/
def execVdDestroy (s : State) : Res :=
  .next (if s.vdcmd.busy then (if hasVd s s.vdcmd.fn then destroyVd s else vdcmdDone 3 s)
    else match destroyFault s with
      | 0 => destroyVd { s with vdcmd := { s.vdcmd with busy := true, fn := leAt (pread s s.vdcmd.pa.toNat 256) 0 2 } }
      | st => vdcmdDone st s)

/-! ### The rights of peers (R48-R50) -/

/-- The valid entries of HB_ACT for a source device over a VD. -/
def actsOf (s : State) (src tcid : Nat) : List ActEntry :=
  (s.klk.act.filter fun (_, a) => a.v && decide (a.src.toNat = src ∧ a.tcid.toNat = tcid)).map (·.2)

/-- Whether a range lies wholly in the ring of a queue of a VD. -/
def inRing (s : State) (cid q va n : Nat) : Bool :=
  let x := s.queue cid q
  !x.host && decide (x.rbase.toNat * 4096 ≤ va ∧ va + n ≤ x.rbase.toNat * 4096 + 2 ^ x.size.toNat * 64)

/-- KIND of a denied write of `n` bytes: of a packet where they lie in a ring (R50): DEDUCED (log entry 37). -/
def writeKind (s : State) (tcid va n : Nat) : Nat := if (List.range 64).any fun q => inRing s tcid q va n then 2 else 1

/-- KIND of a denied request (R50): DEDUCED where two fit (log entry 37). -/
def denyKind (s : State) (r : PeerReq) : Nat :=
  match r.op with
  | .read _ | .signalRead => 0
  | .write d _ => writeKind s r.tcid r.va d.length
  | .signalSet _ _ _ _ => writeKind s r.tcid r.va 8
  | .atomic _ _ _ | .signalDec _ _ _ => 3
  | .notify _ _ => 4
  | .sc _ _ _ => 5

/-- Record a denial, or count it where 64 records wait. -/
def recordDenial (r : PeerReq) (s : State) : State :=
  let k := s.klk
  if 64 ≤ k.deny.length then { s with klk := { k with denyOvfl := satInc k.denyOvfl } }
  else
    let d : DenyRec := { src := r.src, scid := r.scid, tcid := r.tcid, kind := denyKind s r, va := r.va }
    { s with klk := { k with deny := k.deny ++ [d] } }

/-- Whether the source of a migration may read and write the destination VD (R123). -/
def migGranted (s : State) (dev cid : Nat) : Bool := (actsOf s dev cid).any fun a => a.rd && a.wr

/-- What a migration's source sends is denied: it is dropped and recorded, as a write at a page (R49, R123). -/
def migDenied (src : Nat × Nat) (cid page : Nat) (s : State) : State :=
  recordDenial { src := src.1, scid := src.2, tcid := cid, cls := 0, va := page * 65536, op := .write [] [], back := 0 } s

/-! ### Migration: the source (R123-R125) -/

/-- PLC_MIG.ST of an operation that ends at once. -/
def migSay (st : Nat) (s : State) : State := { s with plc := { s.plc with migSt := bv 4 st } }

/-- The operation in progress ends with a status. -/
def migDone (st : Nat) (s : State) : State := { s with plc := { s.plc with migBusy := false, migSt := bv 4 st } }

/-- Whether a device can be reached. -/
def migRoute (s : State) (dev : Nat) : Bool := decide (dev = s.klk.dev.toNat) || routeUp s dev

/-- The destination that PLC_MIG names. -/
def migTo (s : State) : Nat × Nat := (s.plc.migDev.toNat, s.plc.migDcid.toNat)

/-- A descriptor without its routing ID and PAs. -/
def descCore (d : List Byte) : List Byte := (d.drop 2).take 14 ++ d.drop 0x28

/-- Whether the destination VD carries the same policy digest and descriptor. -/
def destOk (s : State) : Bool :=
  let v := s.vd s.plc.migCid.toNat
  let (dev, dcid) := migTo s
  if dev = s.klk.dev.toNat then
    let d := s.vd dcid
    hasVd s dcid && decide (d.state = .incoming ∧ d.polDigest = v.polDigest ∧ descCore d.desc = descCore v.desc)
  else Config.destAccepts s.free

/-- MIGRATION_START: OP 1 checks the destination and sets every dirty bit of the VD's pages. -/
def execMigrationStart (s : State) : Res :=
  let cid := s.plc.migCid.toNat
  .next (if !hasVd s cid ∨ (s.vd cid).state ≠ .active then migSay 2 s
    else if !migRoute s (migTo s).1 then migSay 4 s
    else if !destOk s then migSay 3 s.tick1
    else
      let s := setDt cid true s.tick1
      let all : List Nat := (pagesOf s cid).map (·.2)
      let s := { s with dirty := sall all s.dirty }
      migSay 1 (s.setVd cid { s.vd cid with state := .migOut, dest := migTo s }))

/-- Send one page of a VD to the destination, as a write of the source hub. -/
def sendPage (cid : Nat) (s : State) (page : Nat) (data : List Byte × List Nat) : State :=
  let d := (s.vd cid).dest
  let s := chargeOper s (65536 * 45 + rangeEnergy s cid (page * 65536) 65536)
  sendRequest d.1 cid d.2 0 (page * 65536) (.write data.1 data.2) (.migPage cid page) s

/-- Pages of a VD whose dirty bit is set. -/
def dirtyPages (s : State) (cid : Nat) : List (Nat × Nat) := (pagesOf s cid).filter fun p => s.dirty.contains p.2

/-- Fetch and clear the dirty bits of the VD, and send those pages. -/
def copyRound (cid : Nat) (s : State) : State :=
  let ps := dirtyPages s cid
  let sent : List Nat := ps.map (·.2)
  let s := { s with dirty := s.dirty.filter fun p => !sent.contains p, plc := { s.plc with migPages := bv 32 ps.length } }
  ps.foldl (fun s p => sendPage cid s p.1 (pageAt s p.2)) s

/-- Whether pages that a VD's migration sent have not been answered. -/
def pagesSent (s : State) (cid : Nat) : Bool :=
  s.klk.reqs.any fun r => match r.why with | .migPage c _ => decide (c = cid) | _ => false

/-- MIGRATION_PRECOPY_ROUND: OP 2; BUSY until the pages have been written. -/
def execMigrationPrecopyRound (s : State) : Res :=
  let cid := s.plc.migCid.toNat
  .next (if !hasVd s cid ∨ (s.vd cid).state ≠ .migOut ∨ (s.vd cid).suspended then migSay 2 s
    else if !migRoute s (s.vd cid).dest.1 then migSay 4 s
    else
      let s := copyRound cid s
      if pagesSent s cid then { s with plc := { s.plc with migBusy := true, migVd := cid } } else migSay 1 s)

/-- The answer to a page that a VD's migration sent: the round ends with its last page, with ST 3 where the destination denies it, or
with ST 4 at a lost link. -/
def migPageAnswer (cid status : Nat) (s : State) : State :=
  if !s.plc.migBusy ∨ s.plc.migVd ≠ cid ∨ (s.vd cid).suspended then s
  else if status = Cause.transferAccess.code then migDone 3 s
  else if status ≠ 0 then migDone 4 s
  else if pagesSent s cid then s
  else migDone 1 s

/-- MIGRATION_ABORT: OP 4 before the stop returns the VD to ACTIVE; a round in progress ends. -/
def execMigrationAbort (s : State) : Res :=
  let cid := s.plc.migCid.toNat
  .next (if !hasVd s cid ∨ (s.vd cid).state ≠ .migOut ∨ (s.vd cid).suspended then migSay 2 s
    else
      let s := setDt cid false (s.setVd cid { s.vd cid with state := .active })
      if s.plc.migVd = cid then migDone 1 s else migSay 1 s)

/-- MIGRATION_LINK_LOST: a lost link ends a round; after step 1 of OP 3 it ends the migration: the source VD goes on to be STOPPED, and the
operation then ends (R125). So it does while the flits of the final round are not all acknowledged. -/
def execMigrationLinkLost (s : State) : Res :=
  let v := s.vd s.plc.migVd
  .next (if !s.plc.migBusy ∨ !hasVd s s.plc.migVd then s
    else if v.suspended && decide (v.state ≠ .stopped) then { s with plc := { s.plc with migLost := true } }
    else migDone 4 s)

/-- Park the strands that an eviction can take, and evict those that the stop has parked (R125 step 2). As its eviction begins, the park of
the stop is forgotten, so that the strand resumes running; a halt that is held later stays. -/
def stopStrands (cid : Nat) (s : State) : State :=
  (s.strands.filter fun (_, t) => t.cid = cid).foldl (fun s (sid, t) =>
    let v := s.vd cid
    let mark (s : State) : State := s.setVd cid { v with migParked := sins sid v.migParked }
    if t.evict.isSome then
      if v.migParked.contains sid then (s.setStrand sid { t with parkFlag := false }).setVd cid { v with migParked := sdel sid v.migParked }
      else s
    else if t.evPoints.isEmpty ∨ t.cut.isSome then s
    else
      match t.state with
      | .running => joinPark sid (t.tick + t.dist) .park (mark s)
      | .stalled => (mark s).push (.strandPark sid (t.tick - 1))
      | .parked => s.push (.evictionRequest sid)
      | _ => s) s

/-- Whether the stop can go on: no strand of the VD stands on a core, no COPY moves a chunk, and no meter record waits. -/
def stopReady (s : State) (cid : Nat) : Bool :=
  (s.strands.all fun (_, t) => decide (t.cid ≠ cid ∨ t.state = .evicted))
    && (s.runs.all fun r => decide (r.fn ≠ cid) || decide (r.pkt.type ≠ 4) || (r.buf.isNone && !r.asked && r.torn.isNone))
    && (metersOf s cid).all fun i => (s.meter i).waiting.isEmpty

/-- The 32-byte progress record of a COPY, as words (R80), and its energy. -/
def copyWords (r : Run) : List W64 :=
  [r.pkt.w0, r.pkt.w1, r.pkt.w2, r.pkt.w3, r.pkt.w4, r.pkt.w5, bv 64 r.q, bv 64 r.done, bv 64 r.energy, bv 64 (r.cq.toNat + 64 * r.ecq.toNat)]

/-- The write index of a queue with the notifies that the stop has held. -/
def notified (x : Queue) : Queue :=
  x.heldOps.foldl (fun x i => match i with
    | .notify _ _ v => { x with widx := v }
    | .peerRequestArrival r => (match r.op with | .notify _ v => { x with widx := v } | _ => x)
    | _ => x) x

/-- The evicted strands of a VD, each with the packet of its LAUNCH. -/
def savedStrands (s : State) (cid : Nat) : List (Strand × Packet) :=
  (evictedOf s cid).filterMap fun (_, t) => (runOf s t.run).map fun r => (t, r.pkt)

/-- What the final round carries (R125 step 5, R126). -/
def finalImage (cid : Nat) (s : State) : MigImage :=
  let v := s.vd cid
  let ps := dirtyPages s cid
  let q (i : Nat) (x : Queue) : Nat × List W64 := (i % 64, (List.range 6).map (qcbWord cid (notified x)))
  let held (i : Nat) (c : Cq) : List (List W64) := c.held.map fun e => [bv 64 (i % 64), e.1, e.2]
  { src := (s.klk.dev.toNat, cid)
    pages := if s.plc.migKeep then [] else ps.map fun p => (p.1, pageAt s p.2)
    context := pread s v.ctx (contextBytes v.maxCores)
    strands := savedStrands s cid
    qcbs := (s.queues.filter fun (i, _) => i / 64 = cid).map fun (i, x) => q i x
    cqs := (s.cqs.filter fun (i, _) => i / 64 = cid).map fun (i, c) => (i % 64, (List.range 4).map (cqWord c))
    copies := (s.runs.filter fun r => decide (r.fn = cid ∧ r.pkt.type = 4) && !r.ended).map copyWords
    mailbox := (s.cqs.filter fun (i, _) => i / 64 = cid).flatMap fun (i, c) => held i c
    handoffs := (s.wm.handoffs.filter fun (c, _) => c = cid).map (·.2)
    outstanding := if s.plc.migKeep then ps.map (·.1) else []
    post := s.plc.migKeep }

/-- The final round has left: the operation ends, and a post-copy begins to push its pages. -/
def finalSent (cid : Nat) (s : State) : State :=
  migDone 1 (if (s.vd cid).outstanding.isEmpty then s else s.push (.postcopyPagePush cid))

/-- Send the final round. To another device its flits are to be acknowledged. -/
def sendFinal (cid : Nat) (s : State) : State :=
  let v := s.vd cid
  let d := v.dest
  let img := finalImage cid s
  let s := s.setVd cid { v with outstanding := img.outstanding }
  let s := { s with plc := { s.plc with migPages := bv 32 img.pages.length } }
  if d.1 ≠ s.klk.dev.toNat then
    { sendPayloads 0 d.1 cid 0 (Config.imagePayloads img) (s.emit (.migImage d.1 d.2 img)) with
        plc := { s.plc with migFinal := true } }
  else if !migGranted s d.1 d.2 then migDone 3 (migDenied img.src d.2 0 s)
  else finalSent cid (s.push (.migrationFinalArrival d.2 img))

/-- Whether flits of a VD to its migration's destination wait for a route or for an acknowledgement. -/
def finalUnderWay (s : State) (cid : Nat) : Bool :=
  let mine (f : Flit) : Bool := decide (f.dst.toNat = (s.vd cid).dest.1 ∧ f.cid.toNat % 1024 = cid)
  s.klk.unsent.any mine || s.klk.ports.any fun (_, k) => k.replay.any mine

/-- The identity of a device: SHAKE256 of its public key (R90). -/
def identityOf (s : State) (dev : Nat) : List Byte :=
  if dev = s.klk.dev.toNat then deviceIdentity else shake256 32 (Config.peerKey dev)

/-- The meters of a VD write their stop and HANDOFF records, and close (R102). -/
def handOff (cid : Nat) (s : State) : State :=
  let d := (s.vd cid).dest
  let extra := padTo 32 (identityOf s d.1) ++ natLe 8 d.2
  let ms := metersOf s cid
  let s := meterEvent cid 7 s
  ms.foldl (fun s i =>
    let s := meterTrigger i 6 0 extra s
    markRegion (s.meter i) false (s.setMeter i { s.meter i with v := false })) s

/-- Meters of a VD, open or not, with records that wait. -/
def meterWaits (s : State) (cid : Nat) : Bool := s.wm.meters.any fun (_, m) => decide (m.cid.toNat = cid) && !m.waiting.isEmpty

/-- Whether a stop is in progress. -/
def stopping (s : State) : Bool := s.plc.migBusy && (s.vd s.plc.migVd).suspended

/-- The VD of the stop in progress, or else the one that PLC_MIG names. -/
def stopVd (s : State) : Nat := if stopping s then s.plc.migVd else s.plc.migCid.toNat

/-- OP 3 begins: the queues are suspended, towards the destination that PLC_MIG names (R125 step 1). One that no round has gone to needs
every page. -/
def beginStop (cid : Nat) (s : State) : State :=
  let v := s.vd cid
  let s := if v.dest = migTo s then s else { s with dirty := sall ((pagesOf s cid).map (·.2)) s.dirty }
  let s := s.setVd cid { v with suspended := true, dest := migTo s }
  { s with plc := { s.plc with migBusy := true, migVd := cid, migKeep := s.plc.migPost, migLost := false, migFinal := false } }

/-- MIGRATION_STOP: OP 3 goes through its steps, trying again in each cycle until one can be taken (R125). -/
def execMigrationStop (s : State) : Res :=
  let cid := stopVd s
  let v := s.vd cid
  let again (s : State) : State := (s.cancel .migrationStop).at (s.cycle + 1) .migrationStop
  .next (if !hasVd s cid ∨ (v.state ≠ .migOut ∧ v.state ≠ .stopped) then migSay 2 s
    else if !stopping s then
      if v.dest ≠ migTo s && !destOk s then migSay 3 s.tick1 else again (beginStop cid s.tick1)
    else if v.state ≠ .stopped then
      let s := stopStrands cid s
      if stopReady s cid then again (handOff cid (s.setVd cid { s.vd cid with state := .stopped })) else again s
    else if meterWaits s cid then again s
    else if s.plc.migLost || !migRoute s v.dest.1 then migDone 4 s
    else if !s.plc.migFinal then
      let s := sendFinal cid s
      if s.plc.migBusy then again s else s
    else if finalUnderWay s cid then again s
    else finalSent cid s)

/-! ### Migration: the destination (R102, R126, R127) -/

/-- Where the tables of a VD map a page. -/
def pagePa (s : State) (cid page : Nat) : Option Nat :=
  match walkFrom (fun _ a => readEntry s a (page * 65536)) (page * 65536) false [3, 2, 1, 0] (s.vd cid).root with
  | .ok (pa, _) => some pa
  | .error _ => none

/-- Write a page of a VD at its mapping, with its poison; a page without one is dropped. -/
def installPage (cid : Nat) (s : State) (p : Nat × List Byte × List Nat) : State :=
  match pagePa s cid p.1 with
  | none => s
  | some pa => putPage (pa / 65536) (padTo 65536 p.2.1, p.2.2) (chargeOper s (65536 * (40 + pjPerByte pa)))

/-- The contents of a page of a stopped source, with its poison. -/
def pageData (s : State) (cid page : Nat) : List Byte × List Nat :=
  match pagePa s cid page with
  | none => ([], [])
  | some pa => pageAt s (pa / 65536)

/-- The lowest closed meter without waiting records. -/
def freeMeter (s : State) : Option Nat :=
  (List.range 4096).find? fun i => !(s.meter i).v && (s.meter i).waiting.isEmpty

/-- Open a meter from a HANDOFF record, followed by BASE and PAGES; none if the record does not verify, or the VD holds 64 open meters
already: DEDUCED (log entry 102). -/
def receiveHandoff (cid dev : Nat) (b : List Byte) (s : State) : Option State :=
  let r := b.take 3584
  match freeMeter s with
  | none => none
  | some i =>
    if !recordValid (Config.peerKey dev) r ∨ leAt r 0 1 ≠ 6 ∨ metersFull s cid then none
    else
      let m : Meter := { base := bv 56 (leAt b 3584 8), pages := bv 32 (leAt b 3592 8), cid := bv 10 cid }
      let m := continueMeter m r
      some (markRegion m true (meterTrigger i 7 0 [] (s.setMeter i m)))

/-- All of the HANDOFF records. -/
def receiveHandoffs (cid dev : Nat) (l : List (List Byte)) (s : State) : Option State :=
  l.foldl (fun u b => u.bind (receiveHandoff cid dev b)) (some s)

/-- A queue from its QCB words. -/
def queueOfWords (l : List W64) : Queue :=
  let w (i : Nat) : W64 := l.getD i 0
  let q := [0, 1, 2, 5].foldl (fun q i => qcbSet q i (w i)) ({} : Queue)
  { q with state := (w 1).extractLsb' 12 2, widx := (w 3).extractLsb' 0 32, gen := w 4 }

/-- A completion queue from its words. -/
def cqOfWords (l : List W64) : Cq :=
  let w (i : Nat) : W64 := l.getD i 0
  { base := w 0, size := (w 1).extractLsb' 0 4, host := (w 1).getLsbD 4, en := (w 1).getLsbD 5, ovf := (w 1).getLsbD 6
    vec := (w 1).extractLsb' 8 6, cnt := (w 1).extractLsb' 16 8, tmr := (w 1).extractLsb' 24 10
    widx := (w 2).extractLsb' 0 32, ridx := (w 2).extractLsb' 32 32, lost := (w 3).extractLsb' 0 32 }

/-- Resume a COPY from its progress record. -/
def resumeCopy (cid : Nat) (s : State) (l : List W64) : State :=
  let w (i : Nat) : W64 := l.getD i 0
  let p : Packet := { w0 := w 0, w1 := w 1, w2 := w 2, w3 := w 3, w4 := w 4, w5 := w 5 }
  let r : Run := { id := s.nextRun, fn := cid, q := (w 6).toNat, pkt := p, done := (w 7).toNat, energy := (w 8).toNat,
                   cq := (w 9).extractLsb' 0 6, ecq := (w 9).extractLsb' 6 6 }
  ({ s with runs := s.runs ++ [r], nextRun := s.nextRun + 1 }).push (.copyChunk r.id)

/-- Take up an evicted strand of the context region, as it was saved: it waits for re-admission, or, where the migration has failed, its
LAUNCH completes. -/
def takeStrand (cid : Nat) (failed : Option Nat) (s : State) (x : Strand × Packet) : State :=
  let c := s.queue cid x.1.q
  let r : Run := { id := s.nextRun, fn := cid, q := x.1.q, pkt := x.2, cq := c.cq, ecq := c.ecq, sid := s.nextSid }
  let t := { x.1 with run := r.id, fn := cid, cid := cid, state := .evicted, tried := false, order := s.plc.orders, wids := x.1.wids.map fun _ => 8,
                      hbmFree := [], modFree := 0 }
  let s := { s with runs := s.runs ++ [r], nextRun := s.nextRun + 1, nextSid := s.nextSid + 1,
                    plc := { s.plc with orders := s.plc.orders + 1 }, strands := tset s.strands r.sid t }
  match failed with
  | some st => finishLaunch r.sid st s
  | none => s

/-- The source is told that it may free its pages (R126). -/
def tellSource (cid : Nat) (s : State) : State :=
  let src := (s.vd cid).source
  if src.1 = s.klk.dev.toNat then s.push (.postcopySourceFree src.2)
  else sendPayloads 0 src.1 cid 0 [Config.freePayload src.2] (s.emit (.migDone src.1 src.2))

/-- The pages, context region, queues and completion queues of a final round are written. -/
def installImage (cid : Nat) (img : MigImage) (s : State) : State :=
  let s := s.setVd cid { s.vd cid with source := img.src }
  let s := img.pages.foldl (installPage cid) s
  let s := pwrite s (s.vd cid).ctx (img.context.take (contextBytes (s.vd cid).maxCores)) [] true
  let s := img.qcbs.foldl (fun s (q, l) => s.setQueue cid q (queueOfWords l)) s
  let s := img.cqs.foldl (fun s (n, l) => s.setCq cid n (cqOfWords l)) s
  img.mailbox.foldl (fun s e => cqPost cid (e.getD 0 0).toNat (e.getD 1 0) (e.getD 2 0) s) s

/-- MIGRATION_FINAL_ARRIVAL: the final round is installed; the strands and COPYs resume and the queues fetch again. Without RD and WR in
HB_ACT it is denied (R123). A HANDOFF record that does not verify fails the migration with EVICTED_FAILED. -/
def execMigrationFinalArrival (cid : Nat) (img : MigImage) (s : State) : Res :=
  .next (if !hasVd s cid ∨ (s.vd cid).state ≠ .incoming then s
    else if !migGranted s img.src.1 cid then migDenied img.src cid 0 s
    else
      let s := installImage cid img s
      match receiveHandoffs cid img.src.1 img.handoffs s with
      | none => img.strands.foldl (takeStrand cid (some 0x0403)) (s.setVd cid { s.vd cid with state := .failed, failStatus := 0x0403 })
      | some s =>
        let post := img.post && !img.outstanding.isEmpty
        let s := s.setVd cid { s.vd cid with state := if post then .postcopy else .active,
                                             outstanding := if post then img.outstanding else [] }
        let s := if img.post && !post then tellSource cid s else s
        let s := img.copies.foldl (resumeCopy cid) (img.strands.foldl (takeStrand cid none) s)
        grantsChanged (s.pushAll (img.qcbs.map fun (q, _) => Instr.packetFetch cid q)))

/-- POSTCOPY_PAGE_PULL: an access holds on an outstanding page, which is asked of the source. -/
def execPostcopyPagePull (cid : Nat) (page : Nat) (s : State) : Res :=
  let v := s.vd cid
  .next (if !v.outstanding.contains page ∨ v.pulls.contains page then s
    else
      let s := s.setVd cid { v with pulls := sins page v.pulls }
      let s := s.afterNs (v.pullMs * 1000000) (.postcopyPullTimeout cid page)
      sendRequest v.source.1 cid v.source.2 0 (page * 65536) (.read 65536) (.pull cid page) s)

/-- POSTCOPY_PAGE_PUSH: the source sends its outstanding pages in page order. -/
def execPostcopyPagePush (cid : Nat) (s : State) : Res :=
  let v := s.vd cid
  .next (match v.outstanding with
    | [] => s
    | p :: l =>
      if v.state ≠ .stopped then s
      else
        let s := sendPage cid (s.setVd cid { v with outstanding := l }) p (pageData s cid p)
        (s.at (s.cycle + 1 + Config.hubCycles s.free) (.postcopyPagePush cid)).tick1)

/-- POSTCOPY_PAGE_ARRIVAL: a page is installed once, where HB_ACT lets the source write (R123); what held on it goes on; the last one
ends the post-copy. -/
def execPostcopyPageArrival (cid : Nat) (page : Nat) (data : PageImage) (s : State) : Res :=
  let v := s.vd cid
  .next (if (v.state ≠ .postcopy ∧ v.state ≠ .failed) ∨ !v.outstanding.contains page then s
    else if !migGranted s v.source.1 cid then migDenied v.source cid page s
    else
      let s := installPage cid s (page, data.bytes, data.poison)
      let left := sdel page v.outstanding
      let s := s.setVd cid { v with outstanding := left, pulls := sdel page v.pulls,
                                    state := if left.isEmpty ∧ v.state = .postcopy then .active else v.state }
      let s := (s.cancel (.postcopyPullTimeout cid page)).push (.pageDone cid page)
      if left.isEmpty ∧ v.state = .postcopy then tellSource cid s else s)

/-- The frames of a leaf entry are freed: the entry becomes invalid, and the frames are zeroed for their next holder (R56): DEDUCED (log
entry 103). -/
def freeLeaf (s : State) (l : Leaf) : State :=
  let s := zeroFrames l.frame l.n s
  { s with mem := cset s.mem l.at_ (cget s.mem l.at_ &&& 0xFE) }

/-- POSTCOPY_SOURCE_FREE: the destination has every page; the source frees its pages of the VD. -/
def execPostcopySourceFree (cid : Nat) (s : State) : Res :=
  .next (if !hasVd s cid ∨ (s.vd cid).state ≠ .stopped then s
    else
      let ls := leavesOf s cid
      let ps := (pagesOf s cid).map (·.2)
      let s := { s.setVd cid { s.vd cid with outstanding := [] } with dirty := s.dirty.filter fun p => !ps.contains p }
      tlbDrop cid (ls.foldl freeLeaf s))

/-- A strand that runs no tick faults with SOURCE_LOST: its record is written and its LAUNCH completes. -/
def loseStill (sid : Nat) (s : State) : State :=
  let t := s.strand sid
  let p : Primary := { ev := { cause := .sourceLost, core := coreAt t.x0 t.y0, wid := 8, region := 0, str := .f }, tick := t.tick, stop := t.tick }
  let s := postRecord (faultRecord sid t p) t.tick t.fn t.q s
  departStopped sid (s.setStrand sid { t with status := faultStatus .sourceLost })

/-- A strand of a VD whose source is lost faults (R127): one that runs stops at its cut; one that has stopped at a fault keeps it. -/
def loseStrand (s : State) (sid : Nat) : State :=
  match (s.strand sid).state with
  | .running | .stalled | .draining | .stopping => strandFault sid .sourceLost s
  | .faultHeld => s
  | _ => loseStill sid s

/-- The GAP record of a meter at a loss. -/
def gapRecord (s : State) (i : Nat) : State :=
  let m := s.meter i
  let elapsed := s.ns - m.handNs
  meterTrigger i 8 0 (natLe 8 (min (2 ^ 64 - 1) (elapsed * 23680)) ++ natLe 8 elapsed ++ natLe 8 (m.pages.toNat * 65536)) s

/-- A lost page reads as poisoned lines. -/
def poisonPage (cid page : Nat) (s : State) : State :=
  match pagePa s cid page with
  | none => s
  | some pa => { s with memPoison := sall ((List.range 1024).map (· + pa / 64)) s.memPoison }

/-- POSTCOPY_PULL_TIMEOUT: a pull has not come within its limit, or ended under R45: the page is lost. -/
def execPostcopyPullTimeout (cid : Nat) (page : Nat) (s : State) : Res :=
  let v := s.vd cid
  .next (if !v.outstanding.contains page ∨ !v.pulls.contains page then s
    else
      let s := poisonPage cid page s
      let s := s.setVd cid { v with outstanding := sdel page v.outstanding, pulls := sdel page v.pulls, lost := sins page v.lost,
                                    state := .failed, failStatus := 0x0404 }
      let s := ((s.strands.filter fun (_, t) => t.cid = cid).map (·.1)).foldl loseStrand s
      let s := (metersOf s cid).foldl gapRecord s
      let s := (s.runs.filter fun r => decide (r.fn = cid ∧ r.pkt.type = 4) && !r.ended).foldl
        (fun s r => endRun r 0x0404 (bv 64 (microJoule r.energy)) s) s
      s.push (.pageDone cid page))

end Sys2Proof.Machine
end

