-- ==== Sys2Proof/Machine/Host.lean ====
section
/-! DEFINITION. The host port (chapter 02): the memory apertures, link training, IDE and TDISP, virtual functions, and the
resets of functions and of the port. -/

namespace Sys2Proof.Machine

/-! ### The apertures (R22, R25, R30, R31) -/

/-- VA that a BAR2 offset of a function reaches. -/
def aperVa (s : State) (fn off : Nat) : Nat := (s.fn fn).apr.toNat * 2 ^ 36 + off

/-- A request that ends in a Completer Abort, logged in the function. -/
def abortAt (fn : Nat) (s : State) : State := logAer fn .completerAbort (s.emit (.completerAbort fn))

/-- A request that no BAR decodes: Unsupported Request, logged in the MF. -/
def unsupportedAt (s : State) : State := logAer 0 .unsupportedRequest (s.emit .unsupported)

/-- Whether a line of a VA range lies in a sealed metered region. -/
def sealedRange (s : State) (fn va n : Nat) : Bool := (lineParts va n).any fun (a, _) => sealedPage s fn (a / 65536)

/-- The translation of an access through BAR2: as a transfer's, but module memory is never reached through a BAR (R8, R31): a read of
a page there ends as one of a page that is not there, with Completer Abort, and a write is dropped and logged; the rules do not say how
they complete: DESIGN CHOICE (log entry 126). -/
def barXlate (s : State) (fn : Nat) (write : Bool) : Xlate := fun va =>
  match translate s fn va write with
  | .error e => .error e
  | .ok (pa, dt) => if inHbm pa then .ok (pa, dt) else .error (.fault .transferAccess va)

/-- Do what a memory request of the host asks of a function, unless it fails its IDE check on stream `ide` (R37), or is longer than a
payload of 512 or a read of 4,096 bytes (R21): then it is malformed, dropped and logged. -/
def hostRequest (fn : Nat) (ide : Option Nat) (tooLong : Bool) (f : State → State) (s : State) : State :=
  match ide with
  | some st => ideFail st s
  | none => if tooLong then logAer fn .malformedTlp s else f s

/-- Most bytes of a payload, and of a read request (R21). -/
def maxPayload : Nat := 512
def maxReadRequest : Nat := 4096

/-! An access of the host to memory performs in two parts, as any (R226). The first puts it back at the head of what has arrived, to
go on in the next cycle; the host's later accesses wait for it (R229). -/

/-- An access of which the first part has performed goes on. -/
def hostAgain (i : Instr) (t : Torn) (s : State) : State := { s with tornHost := some t, inputs := (s.cycle + 1, i) :: s.inputs }

/-- pJ of bytes that the host moves through its port, beside those of memory and the hub. -/
def portEnergy (n : Nat) : Nat := n * 50

/-- A read of the window of a function. -/
def barTwoRead (fn : Nat) (at_ : HostAddr) (len : Nat) (s0 : State) : State :=
  let s := { s0 with tornHost := none }
  match gate s fn with
  | .absent => unsupportedAt s
  | .allOnes => s.emit (.readData fn at_.off (List.replicate len 0xFF))
  | .drop => s
  | .abort | .stopped => abortAt fn s
  | .ok =>
    let va := aperVa s fn at_.off
    if !hasVd s fn ∨ sealedRange s fn va len then abortAt fn s
    else
      match s0.tornHost with
      | some t =>
        (chargeOper (countRead s fn va len) (rangeEnergy s fn va len + portEnergy len)).emit (.readData fn at_.off (getRest t s).1)
      | none =>
        match vreadFirst (barXlate s fn false) s va len with
        | .error _ => abortAt fn s
        | .ok (s', t) => hostAgain (.hostBar2Read fn at_ len) t s'

/-- HOST_BAR2_READ: the window is read as a transfer reads, and counted in meters; an invalid, absent or sealed page gives
Completer Abort. A read that meets a poisoned line returns its bytes, with no mark and nothing logged: the specification does not say
how it completes; DESIGN CHOICE (log entry 104). -/
def execHostBar2Read (fn : Nat) (at_ : HostAddr) (len : Nat) (s : State) : Res :=
  .next (hostRequest fn at_.ide (decide (maxReadRequest < len)) (barTwoRead fn at_ len) s)

/-- The lines of a write of `n` bytes that a poisoned TLP poisons, counted from the first (R22). -/
def epLines (ep : Bool) (a n : Nat) : List Nat := if ep then List.range (lineParts a n).length else []

/-- A write of the window of a function. -/
def barTwoWrite (fn off : Nat) (data : List Byte) (ep : Bool) (ide : Option Nat) (s0 : State) : State :=
  let s := { s0 with tornHost := none }
  match gate s fn with
  | .absent => unsupportedAt s
  | .allOnes | .drop | .stopped => s
  | .abort => abortAt fn s
  | .ok =>
    let va := aperVa s fn off
    let poison := epLines ep va data.length
    match s0.tornHost with
    | some t => chargeOper (putRest t data poison s) (rangeEnergy s fn va data.length + portEnergy data.length)
    | none =>
      let s := if ep then logAer fn .poisonedTlp s else s
      if !hasVd s fn then abortAt fn s
      else
        match vwriteFirst (barXlate s fn true) s va data poison with
        | .error _ => logAer fn .completerAbort s
        | .ok (s', t) => hostAgain (.hostBar2Write fn off data ep ide) t s'

/-- HOST_BAR2_WRITE: the window is written as a transfer writes; a refused write is dropped and logged. A poisoned TLP
poisons the lines it writes (R22). -/
def execHostBar2Write (fn off : Nat) (data : List Byte) (ep : Bool) (ide : Option Nat) (s : State) : Res :=
  .next (hostRequest fn ide (decide (maxPayload < data.length)) (barTwoWrite fn off data ep ide) s)

/-- The lines of a range of physical addresses. -/
def paLines (pa n : Nat) : List (Nat × Nat × Bool) := (lineParts pa n).map fun (a, k) => (a, k, true)

/-- An access of the MF's BAR2, by physical address; beyond HBM it gives Unsupported Request (R31). -/
def mfWindow (at_ : HostAddr) (len : Nat) (wr : Option HostData) (s0 : State) : State :=
  let s := { s0 with tornHost := none }
  let pa := s.mfApr.toNat * 2 ^ 36 + at_.off
  let n := (wr.map (·.bytes.length)).getD len
  let again := hostAgain (.mfApertureAccess at_ len wr)
  let pj := n * pjPerByte pa + portEnergy n
  if gate s 0 ≠ .ok ∨ !wholeHbm pa n then unsupportedAt s
  else match wr, s0.tornHost with
    | none, none => again (getFirst (paLines pa n) s).2 (getFirst (paLines pa n) s).1
    | none, some t => (chargeOper s pj).emit (.readData 0 at_.off (getRest t s).1)
    | some b, none =>
      let s := if b.ep then logAer 0 .poisonedTlp s else s
      again (newTorn (paLines pa n) s) (mfWrites pa n (putFirst (paLines pa n) b.bytes (epLines b.ep pa n)) s)
    | some b, some t => chargeOper (mfWrites pa n (putRest t b.bytes (epLines b.ep pa n)) s) pj

/-- MF_APERTURE_ACCESS: the MF's BAR2 reaches HBM (R31). Poison is taken as at BAR2 of a function (R22), and read as there: DESIGN CHOICE
(log entry 104). -/
def execMfApertureAccess (at_ : HostAddr) (len : Nat) (wr : Option HostData) (s : State) : Res :=
  let long := match wr with | some b => decide (maxPayload < b.bytes.length) | none => decide (maxReadRequest < len)
  .next (hostRequest 0 at_.ide long (mfWindow at_ len wr) s)

/-- UNDECODED_REQUEST: no BAR decodes the address. -/
def execUndecodedRequest (addr : HostAddr) (s : State) : Res := .next (hostRequest 0 addr.ide false unsupportedAt s)

/-- A COPY whose host read has timed out ends with COPY_FAULT; the error CQ tells as well, with the same entry: R35 gives none; DESIGN
CHOICE (log entry 105). -/
def copyTimeout (r : Run) (s : State) : State :=
  let data : W64 := bv 64 ((copySrc r.pkt).2 + r.done) / 256
  copyFault { r with torn := none } ((copySrc r.pkt).2 + r.done)
    (cqSend { fn := r.fn, n := r.ecq.toNat, ecq := r.ecq, w0 := cqEntry 0 r.q 0x0501 r.pkt.tag, w1 := data } s)

/-- The reads of host memory for a queue that wait for data: its ring read (none), and those of COPYs, by run. -/
def hostReadsOf (s : State) (fn q : Nat) : List (Option Nat) :=
  let x := s.queue fn q
  (if x.headAt.1 && x.torn.isSome then [none] else [])
    ++ (s.runs.filter fun r => decide (r.fn = fn ∧ r.q = q ∧ r.pkt.type = 4) && !r.ended && (copySrc r.pkt).1 && !r.full
         && r.torn.isSome).map fun r => some r.id

/-- A read of host memory for a queue fails: a ring read puts the queue in the error state (R66); a COPY ends. -/
def hostReadFails (fn q : Nat) (which : Option Nat) (s : State) : State :=
  match which with
  | none => queueError fn q 0x0101 ((s.queue fn q).ridx.setWidth 64) s
  | some id => match runOf s id with | some r => copyTimeout r s | none => s

/-- HOST_READ_COMPLETION_TIMEOUT: a read of host memory made for a queue gets no data in time: it is logged in the function. Of several
reads a free value says which. Its completion may have come and failed its IDE check (R37). Nothing is posted for a function that is
being reset, or whose TDI is in ERROR. -/
def execHostReadCompletionTimeout (fn : Nat) (q : HostRead) (s : State) : Res :=
  let s := match q.ide with | some st => ideFail st s | none => s
  let s := logAer fn .completionTimeout s
  let l := hostReadsOf s fn q.q
  .next (if !working s fn then s
    else match l[Config.timedOutRead s.free % l.length]? with
      | none => s
      | some which => hostReadFails fn q.q which s.tick1)

/-! ### The link (R21, R37) -/

/-- PCIE_LINK_TRAINING: the link trains at x16, x8 or x4; FLIT mode at 64 GT/s, or where the partner supports it. Any other rate or width
does not train, which the MF logs (R35). Whether a data-link error made a link that was up train anew is a free value; the MF logs that
too. -/
def execPcieLinkTraining (gen width : Nat) (flit : Bool) (s : State) : Res :=
  let s := if !s.link.up then s else if Config.linkFailed s.free then logAer 0 .dataLink s.tick1 else s.tick1
  .next (if 1 ≤ gen ∧ gen ≤ 6 ∧ (width = 16 ∨ width = 8 ∨ width = 4) then
      { s with link := { s.link with up := true, gen := gen, width := width, active := width, flit := decide (gen = 6) || flit } }
    else logAer 0 .link s)

/-- IDE_KEY_PROGRAMMING: a key of the link stream (0) or of a selective stream (1-32), under an SPDM session. -/
def execIdeKeyProgramming (stream key : Nat) (s : State) : Res :=
  .next (if stream ≤ 32 ∧ s.link.session then
      { s with link := { s.link with ideKeys := tset s.link.ideKeys stream key, insecure := sdel stream s.link.insecure } }
    else s)

/-- The device interface report of a function: its BAR ranges, its notify pages by address, and the policy digest (R38). -/
def tdiReport (s : State) (fn : Nat) : List Byte :=
  let c := (s.fn fn).cfg
  natLe 8 c.bar0.toNat ++ natLe 8 0x100000 ++ natLe 8 c.bar2.toNat ++ natLe 8 (2 ^ 36) ++ natLe 8 (c.bar0.toNat + 0x10000) ++ natLe 8 64
    ++ padTo 64 (s.vd fn).polDigest

/-- TDISP_REQUEST: lock, start, stop and report (R38). A stop from ERROR ends the VD as well, and waits for a place in its meters (R100). A
request that the TDI's state does not allow is ignored, with no answer: R38 gives none; DESIGN CHOICE (log entry 60). -/
def execTdispRequest (fn : Nat) (r : TdispOp) (s : State) : Res :=
  let f := s.fn fn
  .next (if fn = 0 ∨ !fnExists s fn then s
    else match r, f.tdi with
      | .lock, .configUnlocked => s.setFn fn { f with tdi := .configLocked }
      | .start, .configLocked => s.setFn fn { f with tdi := .run }
      | .stop, .error => if (metersOf s fn).any fun i => !meterRoom s i then holdMf (.tdispRequest fn .stop) s else flrStep fn 6 (s.setFn fn { f with tdi := .configUnlocked })
      | .stop, _ => s.setFn fn { f with tdi := .configUnlocked }
      | .report, .configLocked => s.emit (.tdispReport fn (tdiReport s fn))
      | .report, .run => s.emit (.tdispReport fn (tdiReport s fn))
      | _, _ => s)

/-! ### Virtual functions (R24) -/

/-- VFs in use by every PF but one. -/
def vfsElse (s : State) (pf : Nat) : Nat :=
  s.fns.foldl (fun n (p, f) => if p ≠ pf ∧ 1 ≤ p ∧ p ≤ 32 ∧ f.vfEnable then n + f.numVfs else n) 0

/-- Where the VFs of a PF would appear: at its First VF Offset where they lie in 33-288 and meet no enabled VF, else at the first place that
does (R24; log entry 100). -/
def vfHome (s : State) (pf : Nat) : Option Nat :=
  let f := s.fn pf
  let on := vfRanges s
  if 33 ≤ f.firstVf ∧ f.firstVf + f.numVfs ≤ 289 ∧ on.all (fun (b, m) => f.firstVf + f.numVfs ≤ b ∨ b + m ≤ f.firstVf) then some f.firstVf
  else vfFit on 33 f.numVfs

/-- VF_ENABLE_WRITE: the VFs appear, unless the pool of 256 would be exceeded or the partition does not exist; clearing it
takes them away, with their VDs. A change moves a locked or running TDI to ERROR. -/
def execVfEnableWrite (pf : Nat) (en : Bool) (s : State) : Res :=
  let f := s.fn pf
  .next (if en = f.vfEnable ∨ pf = 0 ∨ 32 < pf then s
    else if en then
      if 256 < vfsElse s pf + f.numVfs ∨ !(tget {} s.parts pf).v then s
      else match vfHome s pf with
        | some a => tdiChange pf (packVfs (s.setFn pf { f with vfEnable := true, firstVf := a }))
        | none => s
    else
      let vs := vfsOf s pf
      let s := vs.foldl (fun s v => flrStep v 4 (tdiChange v s)) s
      tdiChange pf (s.setFn pf { s.fn pf with vfEnable := false }))

/-- NUMVFS_WRITE: ignored while VF Enable is 1; at most TotalVFs = 64. The First VF Offsets follow. -/
def execNumvfsWrite (pf n : Nat) (s : State) : Res :=
  let f := s.fn pf
  .next (if f.vfEnable ∨ 64 < n ∨ pf = 0 ∨ 32 < pf ∨ n = f.numVfs then s
    else tdiChange pf (packVfs (s.setFn pf { f with numVfs := n })))

/-! ### Resets (R32, R33) -/

/-- VF_FLR: an FLR of one function; it goes on here until its VD is gone. -/
def execVfFlr (fn : Nat) (s : State) : Res := .next (flrStep fn 4 s)

/-- PF_FLR. -/
def execPfFlr (pf : Nat) (s : State) : Res := .next (if pf = 0 ∨ 32 < pf then s else pfEnd pf 4 s)

/-- The FLR of function 0: the MF's queues, CQs, MSI-X and HB_MF_APR. -/
def mfReset (s : State) : State := { resetFunction 0 s with mfApr := 0 }

/-- MF_FLR. -/
def execMfFlr (s : State) : Res := .next (mfReset s)

/-- What a hot reset clears beside the functions: the link, and the MF's CFE_, PLC_, DF_ and FW_ blocks but FW_RCTL (R32). The
firmware's images, and the placer's own count of admissions, stay. -/
def hotClear (s : State) : State :=
  let f := s.fw
  { s with link := {}, plc := { orders := s.plc.orders },
           fw := { booted := f.booted, rpa := f.rpa, use := f.use, store := f.store } }

/-- What a hot reset does: every function as by its FLR, and hotClear; the boot runs again where it has failed or USE = 1
(R32, R89). -/
def hotReset (s : State) : State :=
  let t := hotClear ((List.range 32).foldl (fun s i => pfEnd (i + 1) 4 s) (mfReset s))
  if decide (s.fw.failKind ≠ 0) || s.fw.use then t.push .firmwareBoot else t

/-- HOT_RESET. -/
def execHotReset (s : State) : Res := .next (hotReset s)

end Sys2Proof.Machine
end

