-- ==== Sys2Proof/Machine/Power.lean ====
section
/-! DEFINITION. Rails, cold reset, the junction sensors, the clock governor and its registers, refresh, and writes of the
nanosecond clock (chapter 01, R159). -/

namespace Sys2Proof.Machine

/-! ### Power and cold reset (R10, R11, R14) -/

/-- The machine with every state of the package at its reset value: what stands outside the package stays: the module's
firmware store, host memory, what is to arrive, and what was sent. `ops` is what the package does first. DEDUCED (log entry 30). -/
def packageReset (ops : List Instr) (s : State) : State :=
  { agenda := ops, inputs := s.inputs, free := s.free, host := s.host, hostPoison := s.hostPoison, out := s.out, fw := { store := s.fw.store }
    pwr := { rails := s.pwr.rails, on := s.pwr.on } }

/-- COLD_RESET: on leaving it the timebase and every other state are zeroed, and the boot ROM runs (R14, R87). -/
def execColdReset (s : State) : Res := .next (packageReset [.firmwareBoot] s)

/-- The rails in the order raised: VHUB, VIO, VSRAM, VCORE0-3, VHBM, VMM (R11). -/
def railOrder : List Nat := List.range 9

/-- POWER_UP_SEQUENCE: the BMC raises the rails of a dark package in order and releases cold reset. -/
def execPowerUpSequence (s : State) : Res :=
  .next (if s.pwr.on then s
    else { packageReset [.firmwareBoot] s with pwr := { rails := railOrder, on := true } })

/-- RAIL_FAULT: the BMC removes every rail in reverse order, and the package holds no state (R11). -/
def execRailFault (s : State) : Res :=
  .next { packageReset [] s with pwr := { rails := [], on := false, trip := s.pwr.trip } }

/-! ### Sensors and governor (R12, R15-R20) -/

/-- JUNCTION_SENSOR_READ: THERM at 100 °C; at 110 °C thermal trip, and the BMC removes power. -/
def execJunctionSensorRead (temps : List Nat) (s : State) : Res :=
  let s := { s with pwr := { s.pwr with therm := temps.any (100 ≤ ·) } }
  .next (if temps.any (110 ≤ ·) then
      ({ s with pwr := { s.pwr with trip := true } }.emit .thermalTrip).push .railFault
    else s)

/-- LOWERED grows by the steps taken down, and saturates. -/
def lowered (n : Nat) (p : Power) : BitVec 32 := bv 32 (min (p.lowered.toNat + n) (2 ^ 32 - 1))

/-- The step that the governor takes at the end of a revolution with a mean power in mW: to CEIL where the package runs
faster; down where the mean exceeds the cap or a junction is hot; up where both have been low for 1,024 revolutions
(R16, R18). -/
def nextStep (p : Power) (mean : Nat) : Nat :=
  let n := p.step.toNat
  if n < p.ceil.toNat then p.ceil.toNat
  else if p.capNow.toNat * 1000 < mean ∨ p.therm then min (n + 1) Config.maxStep
  else if 1024 ≤ p.lowRev ∧ 1024 ≤ p.coolRev ∧ p.ceil.toNat < n then n - 1
  else n

/-- GOVERNOR_REVOLUTION: the end of a revolution; a written cap applies from this boundary on, so that the decision made at it and FLOOR
compare with it (R16-R20): DEDUCED (log entry 57). -/
def execGovernorRevolution (meanMw : Nat) (s : State) : Res :=
  let p := { s.pwr with capNow := s.pwr.cap }
  let p := { p with lowRev := if meanMw * 100 < p.capNow.toNat * 95000 then p.lowRev + 1 else 0,
                    coolRev := if p.therm then 0 else p.coolRev + 1 }
  let n := nextStep p meanMw
  .next { s with pwr := { p with
    step := bv 4 n, lowered := lowered (n - p.step.toNat) p, floor := decide (n = Config.maxStep ∧ p.capNow.toNat * 1000 < meanMw),
    revs := p.revs + 1 } }

/-- CEILING_SET: the BMC's ceiling step, 0-13; a faster package moves to it at the next boundary (R18). -/
def execCeilingSet (ceil : Nat) (s : State) : Res :=
  .next (if ceil ≤ Config.maxStep then { s with pwr := { s.pwr with ceil := bv 4 ceil } } else s)

/-- HB_PWR_CAP_WRITE: CAP is taken within 500-2000 W, and applies from the next boundary (R19). -/
def execHbPwrCapWrite (v : BitVec 64) (s : State) : Res :=
  .next { s with pwr := { s.pwr with cap := bv 11 (max 500 (min 2000 (v.extractLsb' 0 11).toNat)) } }

/-- HBM_REFRESH: a base die refreshes in its reserved channel slot, one in every 16 cycles (R7). -/
def execHbmRefresh (s : State) : Res := .next { s with pwr := { s.pwr with refresh := s.cycle } }

/-- NSCLK_WRITE: a write sets the nanosecond clock from the next reference edge; one below the reading is ignored (R159). -/
def execNsclkWrite (v : BitVec 64) (s : State) : Res :=
  .next (if v.toNat < s.ns then s else { s with nsWrite := some v.toNat })

end Sys2Proof.Machine
end

