-- ==== Sys2Proof/Machine/FaultDebug.lean ====
section
/-! DEFINITION. The enables of the fault ring and the trace buffer (R266, R272), and the debugger of a VD (R269, R270). -/

namespace Sys2Proof.Machine

/-! ### Enables -/

/-- The ring after a write of its word at 0x08: setting EN zeroes WIDX, and is ignored where BASE[7:0] or SIZE is not valid;
SIZE is written while EN = 0. -/
def ringEnable (f : FaultRing) (v : BitVec 64) : FaultRing :=
  let size := v.extractLsb' 0 4
  if f.en then { f with en := v.getLsbD 4 }
  else if !v.getLsbD 4 then { f with size := size }
  else if f.base.extractLsb' 0 8 = 0 ∧ 2 ≤ size.toNat ∧ size.toNat ≤ 12 then { f with size := size, en := true, widx := 0 }
  else f

/-- FAULT_RING_ENABLE: the ring of a VD, or the MF's (function 0). -/
def execFaultRingEnable (fn : Nat) (v : BitVec 64) (s : State) : Res :=
  .next (setFlt fn (ringEnable (if fn = 0 then s.mfFlt else (s.vd fn).flt) v) s)

/-- The trace buffer after a write of its word at 0x10. -/
def traceSet (t : Trc) (v : BitVec 64) : Trc :=
  let on := v.getLsbD 0
  let t' := { t with en := on, mode := v.getLsbD 1, tmask := v.extractLsb' 8 8 }
  if !on ∨ t.en then t'
  else if t.base.toNat % 4096 = 0 ∧ t.size ≠ 0 ∧ t.size.toNat % 4096 = 0 then { t' with last := 0, off := 0, full := false }
  else t

/-- TRACE_ENABLE: setting EN zeroes TRC_LAST and the write offset, and is ignored in all its fields where base or size is not
valid (R272). -/
def execTraceEnable (cid : Nat) (v : BitVec 64) (s : State) : Res :=
  let d := s.vd cid
  .next (s.setVd cid { d with trc := traceSet d.trc v })

/-! ### The debugger (R269, R270) -/

/-- The target strand of a VD's debugger, if it is one of the VD. -/
def dbgTarget (s : State) (cid : Nat) : Option (Nat × Strand) :=
  let sid := (s.vd cid).dbg.goStrand.toNat
  match tfind s.strands sid with
  | some t => if t.cid = cid then some (sid, t) else none
  | none => none

/-- A debugger operation on its target: ST = 2 where there is none. -/
def onTarget (cid : Nat) (s : State) (f : Nat → Strand → State) : State :=
  match dbgTarget s cid with
  | none => dbgDone cid 2 s
  | some (sid, t) => f sid t

/-- The debugger of a VD is busy. -/
def dbgBusy (cid : Nat) (s : State) : State := s.setVd cid { s.vd cid with dbg := { (s.vd cid).dbg with busy := true } }

/-- DEBUG_HALT: a running strand is cut at Q + D and parks, joining a cut that is under way; BUSY until then. One that comes before the
first tick is held until it (R156). During an eviction it is held, and the strand resumes parked (R120). So does one that a migration's
stop is parking. -/
def execDebugHalt (cid : Nat) (s : State) : Res :=
  .next (onTarget cid s fun sid t =>
    let evicting := decide (t.state = .draining) || (decide (t.state = .running ∨ t.state = .stalled) && t.evict.isSome)
    if evicting then dbgBusy cid (s.setStrand sid { t with parkFlag := true })
    else
      match t.state with
      | .running | .stalled | .staging | .armed | .resuming =>
        let v := s.vd cid
        dbgBusy cid (joinPark sid (t.tick + t.dist) .halt (s.setVd cid { v with migParked := sdel sid v.migParked }))
      | _ => dbgDone cid 3 s)

/-- DEBUG_RESUME: unparks a parked strand, whose cores are told the cycle; a strand held at a fault stays. -/
def execDebugResume (cid : Nat) (s : State) : Res :=
  .next (onTarget cid s fun sid t =>
    if t.state = .parked then
      dbgDone cid 1 ((t.slots.foldl (fun s (c, w) => cobEvent c .unpark w sid [bv 64 w, bv 64 (s.cycle + 1), 0, 0] s) s).push
        (.strandUnpark sid (s.cycle + 1)))
    else dbgDone cid 3 s)

/-- BREAKPOINT_SET: breakpoint BP of the target strand. -/
def execBreakpointSet (cid : Nat) (s : State) : Res :=
  .next (onTarget cid s fun sid _ =>
    let v := s.vd cid
    let d := v.dbg
    let b : Breakpoint := { strand := sid, str := d.bstr.toNat, parcel := d.bpar.toNat, iter := d.bitr, tick := d.btick }
    dbgDone cid 1 (s.setVd cid { v with dbg := { d with points := tset d.points d.bp.toNat b } }))

/-- BREAKPOINT_CLEAR: breakpoint BP is no longer set. -/
def execBreakpointClear (cid : Nat) (s : State) : Res :=
  let v := s.vd cid
  .next (dbgDone cid 1 (s.setVd cid { v with dbg := { v.dbg with points := tdel v.dbg.points v.dbg.bp.toNat } }))

/-- Write the pieces of a core record to a VA. -/
def dumpParts (cid va : Nat) : List (Nat × List Byte × List Nat) → State → Except VaErr State
  | [], s => .ok s
  | (off, b, bad) :: l, s =>
    match vwrite s cid (va + off) b bad with
    | .error e => .error e
    | .ok s' => dumpParts cid va l (chargeOper s' (rangeEnergy s cid (va + off) b.length))

/-- Write the record of every core of a strand, in region order. -/
def dumpCores (cid va : Nat) : List (Nat × Nat) → State → Except VaErr State
  | [], s => .ok s
  | (c, w) :: l, s =>
    let k := s.core c
    let o := k.owner w
    match dumpParts cid (va + o.region * Config.coreRecord) (recordParts k o s.free) s.tick1 with
    | .error e => .error e
    | .ok s' => dumpCores cid va l s'

/-- DEBUG_DUMP: the records of a parked strand, or of one held at a fault, at DVA; ST = 4 where a write faults or DVA is not
64 KiB aligned. A demand page holds it. -/
def execDebugDump (cid : Nat) (s : State) : Res :=
  .next (onTarget cid s fun _ t =>
    let v := s.vd cid
    let va := v.dbg.goDva.toNat
    if t.state ≠ .parked ∧ t.state ≠ .faultHeld then dbgDone cid 3 s
    else if va % 65536 ≠ 0 then dbgDone cid 4 s
    else
      match dumpCores cid va t.slots s with
      | .ok s' => dbgDone cid 1 s'
      | .error (.fault _ _) => dbgDone cid 4 s
      | .error (.demand p) => pageRequest cid p true (s.setVd cid { v with dbg := { v.dbg with busy := true } }))

/-- DEBUG_RELEASE: a strand held at a fault departs, and its LAUNCH completes. -/
def execDebugRelease (cid : Nat) (s : State) : Res :=
  .next (onTarget cid s fun sid t =>
    if t.state = .faultHeld then departStopped sid (dbgDone cid 1 s) else dbgDone cid 3 s)

end Sys2Proof.Machine
end

