-- ==== Sys2Proof/Machine/Firmware.lean ====
section
/-! DEFINITION. The firmware context (chapter 21, R85, R86, R268): events, the system instructions, completions, the
firmware watchdog and lockout. -/

namespace Sys2Proof.Machine

/-! ### Events and dispatch (R407, R408) -/

/-- The code of an event kind. -/
def CobKind.code : CobKind → Nat
  | .reset => 0
  | .grant => 1
  | .depart => 2
  | .rephase => 3
  | .zero => 4
  | .park => 5
  | .unpark => 6
  | .evict => 7
  | .restore => 8
  | .qcb => 9
  | .start => 10

/-- The event word. -/
def CobEvent.word (e : CobEvent) : W64 := bv 64 (e.kind.code + e.wid % 8 * 2 ^ 5 + b01 e.redo * 2 ^ 8 + e.sid * 2 ^ 32)

/-- Whether entry `k` of the vector table, two parcels of firmware memory, fails its check (R213). -/
def vectorFails (b : Cobbler) (k : Nat) : Bool := b.imErr.contains (2 * k) || b.imErr.contains (2 * k + 1)

/-- COBBLER_EVENT_DISPATCH: an idle Cobbler takes the oldest event: x1 is its word and x2-x5 its arguments, and the handler
begins; an entry that is not valid, or fails its check, locks the core (R85, R407). -/
def execCobblerEventDispatch (core : Nat) (s : State) : Res :=
  let b := s.cob core
  .next (if b.cur.isSome ∨ (s.core core).locked then s
    else match b.queue with
      | [] => s
      | e :: l =>
        let v := (cget b.vectors e.kind.code).toNat
        if 2 ^ 13 ≤ v ∨ b.img.length ≤ v ∨ vectorFails b e.kind.code then lockCore core s
        else
          let x := cset b.x 1 e.word
          let x := ((List.range 4).zip e.args).foldl (fun x (i, a) => cset x (i + 2) a) x
          s.setCob core { b with x := x, pc := v, blocks := [], wait := 0, cur := some e, queue := l, wd := 0 })

/-! ### The issue of a system instruction -/

/-- Register x[r] of Cobbler. -/
def Cobbler.xr (b : Cobbler) (r : BitVec 4) : W64 := if r = 0 then 0 else cget b.x r.toNat

/-- Write register x[r] of core `c`'s Cobbler. -/
def cobWrite (c : Nat) (r : BitVec 4) (v : W64) (s : State) : State :=
  if r = 0 then s else s.setCob c { s.cob c with x := cset (s.cob c).x r.toNat v }

/-- The outcome of a system instruction's own part: done, so that Cobbler goes on; waiting, so that it issues again; an
operation that unassigned encodings give. -/
inductive SysOut where
  | done (s : State)
  | wait (s : State)
  | lock

/-- Issue a system instruction of a slot: in an owner's image staging refuses it; in the firmware context a token bit or
the guard fs locks the core (R405, R421). -/
def issueSys (h : Hd) (act : Nat → Cobbler → State → SysOut) (s : State) : Res :=
  if s.cur.str ≠ .f then .fault .undecodable
  else
    let c := s.cur.core
    let b := s.cob c
    let go (s : State) : State := s.setCob c ((s.cob c).advance h.idle.toNat)
    .next (if h.tok ≠ 0 ∨ h.g = 8 then lockCore c s
      else if !selects b.p b.blocks h.g then go s
      else match act c b s with
        | .done s' => go s'
        | .wait s' => s'
        | .lock => lockCore c s)

/-! ### System registers (R411, R412) -/

/-- The selected pending record. -/
def Cobbler.pending (b : Cobbler) : PendRec := tget {} b.recs b.wsel.toNat

/-- Replace the selected pending record. -/
def Cobbler.setPending (b : Cobbler) (r : PendRec) : Cobbler := { b with recs := tset b.recs b.wsel.toNat r }

/-- Whether a weave id is active on a core. -/
def activeId (k : CoreSt) (w : Nat) : Bool := (tfind k.owners w).isSome

/-- A system register as RDSP reads it. -/
def sysRead (s : State) (c n : Nat) : W64 :=
  let k := s.core c
  let b := k.cob
  let r := b.pending
  match n with
  | 0x00 => (b.cur.map CobEvent.word).getD 0
  | 0x01 => b.evres
  | 0x02 => b.wsel.setWidth 64
  | 0x03 => attrWord s k b.wsel.toNat
  | 0x04 => r.strand.setWidth 64
  | 0x05 => bv 64 (r.wbase.toNat + r.wsize.toNat * 2 ^ 8)
  | 0x06 => bv 64 (r.ommap.toNat + r.rmap.toNat * 2 ^ 32 + r.vbase.toNat * 2 ^ 40 + r.vcnt.toNat * 2 ^ 45)
  | 0x07 => (tfind k.owners b.wsel.toNat).elim r.tick fun o => bv 64 (lastTick s o)
  | 0x08 => s.timebase
  | 0x09 => bv 64 (c % Config.meshW + c / Config.meshW * 2 ^ 8)
  | 0x0A => bv 64 (b01 b.cseBusy + b01 (decide (16 ≤ b.xphy.length)) * 2 ^ 10)
  | 0x0B => bv 64 (min 63 b.queue.length)
  | 0x0C => b.svn.setWidth 64
  | 0x0D => b.lockc.setWidth 64
  | 0x0E => bv 64 (b01 k.swPend)
  | _ => 0

/-- Cobbler after a WRS of system register `n`; RO registers and fields ignore it. -/
def sysWrite (k : CoreSt) (n : Nat) (v : W64) : Cobbler :=
  let b := k.cob
  let r := { b.pending with dirty := true }
  match n with
  | 0x01 => { b with evres := v }
  | 0x02 => { b with wsel := v.extractLsb' 0 3 }
  | 0x03 => b.setPending { r with attr := v.extractLsb' 0 26 &&& 0x3FF3FFF#26 }
  | 0x04 => b.setPending { r with strand := v.extractLsb' 0 32 }
  | 0x05 => b.setPending { r with wbase := v.extractLsb' 0 7, wsize := v.extractLsb' 8 7 }
  | 0x06 => b.setPending { r with ommap := v.extractLsb' 0 32, rmap := v.extractLsb' 32 8,
                                   vbase := v.extractLsb' 40 5, vcnt := v.extractLsb' 45 5 }
  | 0x07 => if activeId k b.wsel.toNat then b else b.setPending { b.pending with tick := v }
  | _ => b

/-- WRS (R411). -/
def execWrs (h : Hd) (a : BitVec 4) (k : BitVec 8) (s : State) : Res :=
  issueSys h (fun c b s => if 0x0E < k.toNat then .lock else .done (s.setCob c (sysWrite (s.core c) k.toNat (b.xr a)))) s

/-- RDSP (R411). -/
def execRdsp (h : Hd) (a : BitVec 4) (k : BitVec 8) (s : State) : Res :=
  issueSys h (fun c _ s => if 0x0E < k.toNat then .lock else .done (cobWrite c a (sysRead s c k.toNat) s)) s

/-- ERET (R409): EVRES is reported as the event's result and cleared, and Cobbler is idle, or takes the next event. -/
def execEret (h : Hd) (s : State) : Res :=
  issueSys h (fun c b s =>
    let s := match b.cur with | some e => s.emit (.evres c e.word b.evres) | none => s
    let s := s.setCob c { s.cob c with evres := 0, cur := none, wd := 0 }
    .done (if b.queue.isEmpty then s else s.push (.cobblerEventDispatch c))) s

/-- WAITEV (R410): removes the oldest completion of a kind that the mask names; waits for one. -/
def execWaitev (h : Hd) (a b : BitVec 4) (s : State) : Res :=
  issueSys h (fun c k s =>
    let m := (k.xr b).extractLsb' 0 5
    if m = 0 then .done (cobWrite c a 0 s)
    else match k.compl.findIdx? fun x => m.getLsbD x.kind.toNat with
      | none => .wait s
      | some i =>
        let x := k.compl.getD i ⟨0, 0, 0, 0, 0⟩
        let w := bv 64 (x.kind.toNat + x.wid.toNat * 2 ^ 4 + x.status.toNat * 2 ^ 8 + x.seq.toNat * 2 ^ 16 + x.detail.toNat * 2 ^ 32)
        .done (cobWrite c a w (s.setCob c { k with compl := k.compl.eraseIdx i }))) s

/-! ### The weaver (R413) -/

/-- The reserved area of a core as an owner's window sees it. -/
def reservedArea : Owner := { winBase := Config.reservedBase, winSize := 16384 }

/-- `n` bytes of the reserved area from an offset, which wraps. -/
def reservedBytes (k : CoreSt) (a n : Nat) : List Byte :=
  (List.range n).map fun i => cget k.win (Config.reservedBase + (a + i) % 16384)

/-- Whether a read of the reserved area meets a line that locks the core (R406). -/
def reservedBad (k : CoreSt) (a n : Nat) : Bool :=
  let lines := sall ((List.range n).map fun i => (a + i) % 16384 / 64) []
  match readable k reservedArea lines with
  | .ok _ => false
  | .error _ => true

/-- WVSET (R413): the pending table from the reserved area, and the switch cycle; it waits while a switch is pending. -/
def execWvset (h : Hd) (b c : BitVec 4) (s : State) : Res :=
  issueSys h (fun co x s =>
    let k := s.core co
    let a := (x.xr b).toNat % 16384
    if k.swPend then .wait s
    else if reservedBad k a 32 then .lock
    else
      let t := (List.range 32).zip (reservedBytes k a 32) |>.map fun (j, v) =>
        (j, if v.getLsbD 7 then (v.extractLsb' 0 3).toNat + 1 else 0)
      .done (s.setCore co (askSwitch { cyc := (x.xr c).toNat, raw := some t } k))) s

/-! ### Parking (R414, R415)

PARK and UNPARK act on the owner of one core (R421): its strand's tick goes on on the other cores. A cut of the hub's own is what its
PARK event asks of Cobbler, and is no armed cut here: DEDUCED (log entry 40). -/

/-- What PARK answers: 2 no such id, 3 a cut is armed or the owner is parked, 1 the tick has been executed, 0 armed. -/
def parkAnswer (s : State) (c w tick : Nat) : Nat :=
  let k := s.core c
  match tfind k.owners w with
  | none => 2
  | some o =>
    let t := s.strand o.sid
    if (k.cuts.any fun a => a.wid = w) ∨ o.parked ∨ t.state = .parked then 3 else if tick < ownNext t o then 1 else 0

/-- PARK (R414): arms a park or drain cut of an owner; during an eviction a park is held, and the strand resumes parked (R120). -/
def execPark (h : Hd) (a b c : BitVec 4) (s : State) : Res :=
  issueSys h (fun co x s =>
    let w := ((x.xr b).extractLsb' 0 3).toNat
    let drain := (x.xr b).getLsbD 3
    let tick := (x.xr c).toNat
    let ans := parkAnswer s co w tick
    let s := cobWrite co a (bv 64 ans) s
    if ans ≠ 0 then .done s
    else
      let k := s.core co
      let sid := (k.owner w).sid
      let t := s.strand sid
      let s := s.setCore co { k with cuts := k.cuts ++ [{ wid := w, tick := tick, drain := drain }] }
      let evicting := decide (t.state = .draining) || t.evict.isSome
      .done (s.setStrand sid { t with parkFlag := t.parkFlag || (evicting && !drain) })) s

/-- What UNPARK answers: 2 no such id, 3 the owner is not parked, 1 the cycle has passed, 0 done. -/
def unparkAnswer (s : State) (c w cyc : Nat) : Nat :=
  match tfind (s.core c).owners w with
  | none => 2
  | some o => if !o.parked ∧ (s.strand o.sid).state ≠ .parked then 3 else if cyc < s.cycle then 1 else 0

/-- An owner that PARK, or its strand's park, holds goes on at the first of its cycles from `cyc` on. Where the whole strand is parked its
other owners stay parked. -/
def unparkOwner (c w cyc : Nat) (s : State) : State :=
  let sid := (s.owner c w).sid
  let whole := decide ((s.strand sid).state = .parked)
  let s := if whole then parkOwners sid true s else s
  let s := s.setOwner c w { s.owner c w with parked := false, resumeAt := max cyc (s.cycle + 1) }
  if whole then unparkStrand sid cyc s else s

/-- UNPARK (R415): the owner's next tick falls on the first cycle of its class at or after x[C]. -/
def execUnpark (h : Hd) (a b c : BitVec 4) (s : State) : Res :=
  issueSys h (fun co x s =>
    let w := ((x.xr b).extractLsb' 0 3).toNat
    let cyc := (x.xr c).toNat
    let ans := unparkAnswer s co w cyc
    let s := cobWrite co a (bv 64 ans) s
    .done (if ans = 0 then unparkOwner co w cyc s else s)) s

/-! ### ZFILL (R417) -/

/-- Whether an active owner of the core has claimed one of the OM slots of a record. -/
def omHeld (k : CoreSt) (r : PendRec) : Bool :=
  k.owners.any fun (_, o) => (List.range o.oms.length).any fun i => o.claims.getLsbD i && r.oms.contains (omPhys o i)

/-- ZFILL (R417): holds Cobbler until the selected parts of the pending record's resources are zero. -/
def execZfill (h : Hd) (a b : BitVec 4) (s : State) : Res :=
  issueSys h (fun c x s =>
    let w := ((x.xr b).extractLsb' 0 3).toNat
    let k := s.core c
    if x.zfill.isSome then .wait s
    else if activeId k w then .done (cobWrite c a 2 s)
    else if (x.xr b).getLsbD 4 && omHeld k (tget {} x.recs w) then .done (cobWrite c a 3 s)
    else
      let s := s.setCob c { x with zfill := some (w, x.xr b, a) }
      .wait ((s.at (s.cycle + 1 + Config.hubCycles s.free) (.zfillZeroed c)).tick1)) s

/-- What ZFILL does to the state of an id's owner that a restore has read. -/
def zfillOwner (parts : W64) (o : Owner) : Owner :=
  let o := if parts.getLsbD 4 then { o with claims := 0 } else o
  let o := if parts.getLsbD 5 then { o with full := 0 } else o
  let o := if parts.getLsbD 7 then { o with m := [], mErr := [], lam := BitVec.allOnes 1024 } else o
  if parts.getLsbD 8 then
    { o with x := [], p := 0, e := [], lc := [], ag := [], tok := [], fq := [], fifo := [], tlm := [], tlmSync := [],
             tlmWin := (0, [], []), energy := 0 }
  else o

/-- The selected parts of the pending record of an id are zero; its energy goes to the operator account (R169). The state of the owner of
an id that is not active is what a restore has read for it; without one it is that of its next grant, which is all zero (R115). -/
def zfillDone (core w : Nat) (parts : W64) (a : BitVec 4) (s : State) : State :=
  let b := s.cob core
  let r := tget {} b.recs w
  let sel (i : Nat) (l : List Nat) : List Nat := if parts.getLsbD i then l else []
  let k := zeroParts (s.core core) (sel 3 ((List.range r.wsize.toNat).map (· + r.wbase.toNat))) (sel 4 r.oms) (sel 5 r.tiles)
    (sel 6 ((List.range r.vcnt.toNat).map (· + r.vbase.toNat)))
  let k := if parts.getLsbD 9 then { k with thr := {} } else k
  let recs := if r.restored.isSome then tset b.recs w { r with restored := r.restored.map (zfillOwner parts) } else b.recs
  let idle := (parcelAt b.img b.pc).extractLsb' 4 4
  let s := s.setCore core { k with cob := { k.cob with recs := recs, zfill := none, zfillTodo := none } }
  let s := cobWrite core a 0 (chargeOper s.tick1 (1000 * Config.coreEnergy s.free))
  s.setCob core ((s.cob core).advance idle.toNat)

/-- ZFILL_ZEROED: the lines of the window are written at free ports (R199); with the last of them the selected parts are zero, and Cobbler
goes on. -/
def execZfillZeroed (core : Nat) (s : State) : Res :=
  let b := s.cob core
  .next (match b.zfill with
    | none => s
    | some (w, parts, a) =>
      let (left, s) := portTurn (cycleOwner s) (b.zfillTodo.getD (zfillPorts core s)) s
      if left.isEmpty then zfillDone core w parts a s
      else (s.setCob core { s.cob core with zfillTodo := some left }).at (s.cycle + 1) (.zfillZeroed core))

/-! ### The context-save engine (R418) -/

/-- What CSE answers at issue: 1 busy, 2 not in a state that allows it, 3 the PA, 0 started. -/
def cseAnswer (s : State) (c w : Nat) (restore : Bool) (pa : Nat) : Nat :=
  let k := s.core c
  let parked := match tfind k.owners w with | some o => o.parked || decide ((s.strand o.sid).state = .parked) | none => false
  if k.cob.cseBusy then 1
  else if (restore && activeId k w) || (!restore && !(parked || k.cob.drained.contains w)) then 2
  else if pa % 4096 ≠ 0 ∨ Config.hbmBytes < pa + Config.coreRecord then 3
  else 0

/-- CSE (R418): starts a save or a restore. A save uses up the DRAINED completion of its id. -/
def execCse (h : Hd) (a b c : BitVec 4) (s : State) : Res :=
  issueSys h (fun co x s =>
    let w := ((x.xr b).extractLsb' 0 3).toNat
    let restore := (x.xr b).getLsbD 3
    let pa := (x.xr c).toNat
    let ans := cseAnswer s co w restore pa
    let s := cobWrite co a (bv 64 ans) s
    if ans ≠ 0 then .done s
    else
      let y := s.cob co
      let s := s.setCob co { y with cseBusy := true, cse := some (restore, w, pa), drained := if restore then y.drained else sdel w y.drained }
      .done ((s.at (s.cycle + 1 + Config.hubCycles s.free) (.cseDone co)).tick1)) s

/-- Restore a core record into the resources of a pending record: the memories at once, the owner's own state when the id
becomes active. Answers the completion's status. -/
def cseRestore (c w pa : Nat) (s : State) : State × Nat :=
  let b := s.cob c
  let r := tget {} b.recs w
  let o := r.asOwner
  let ctl := pread s (pa + 0xACC00) 29696
  let was := match savedAt s pa with
    | some x => (x.svn, x.owner)
    | none => (Config.controlSvn ctl, (Config.controlOwner ctl).getD {})
  if recordPoisoned s o pa then (s, 0x13)
  else if was.1 ≠ b.svn then (s, 0xFE)
  else
    let s' := restoreRecord c w pa was.2 (s.setOwner c w o)
    let o' := s'.owner c w
    let k := s'.core c
    (s'.setCore c { k with owners := tdel k.owners w, cob := { k.cob with recs := tset b.recs w { r with restored := some o' } } }, 0)

/-- The save or the restore of the CSE is performed. Answers its status. A save whose id has left the core meanwhile writes nothing, and
fails: DESIGN CHOICE (log entry 128). -/
def csePerform (core : Nat) (restore : Bool) (w pa : Nat) (s : State) : State × Nat :=
  let k := s.core core
  if restore then cseRestore core w pa s
  else if !activeId k w ∨ saveFails k (k.owner w) then (s, 0x13)
  else (saveRecord core w pa s, 0)

/-- The owner whose record the CSE moves: the active one, or what the pending record names. -/
def cseOwner (k : CoreSt) (w : Nat) : Owner := (tfind k.owners w).getD (tget ({} : PendRec) k.cob.recs w).asOwner

/-- The LAUNCH of a strand whose save or restore has failed ends with EVICTED_FAILED (R120, R121, R418). -/
def cseFailed (sid : Nat) (s : State) : State :=
  match tfind s.strands sid with
  | none => s
  | some t => finishLaunch sid 0x0403 (speedAll (t.slots.map (·.1)) (freeAll sid s))

/-- CSE_DONE: the time of the save or restore has passed; once it has had the ports it needs, which it takes first (R199), it is performed,
its bytes go to the operator account (R169), and its completion is posted; a status that is not 0 ends the LAUNCH. -/
def execCseDone (core : Nat) (s : State) : Res :=
  let b := s.cob core
  .next (match b.cse with
    | none => s
    | some (restore, w, pa) =>
      let (left, s) := portTurn (cycleOwner s) (b.cseTodo.getD (csePorts core restore w s)) s
      if !left.isEmpty then (s.setCob core { s.cob core with cseTodo := some left }).at (s.cycle + 1) (.cseDone core)
      else
        let o := cseOwner (s.core core) w
        let (s, st) := csePerform core restore w pa s
        let s := s.setCob core { s.cob core with cseBusy := false, cse := none, cseTodo := none }
        let s := chargeOper s (saveBytes o * pjPerByte pa)
        postCompletion core { kind := 0, wid := bv 3 w, status := bv 8 st, seq := 0, detail := 0 }
          (if st = 0 then s else cseFailed o.sid s))

/-! ### XPHY (R419, R420) -/

/-- First physical address of the hub's registers as XPHY reaches them, and the function and offset of one (R420). -/
def hubBase : Nat := 0xC00_0000_0000
def hubReg (pa : Nat) : Option (Nat × Nat) :=
  if pa < hubBase then none
  else
    let f := (pa - hubBase) / 0x200_0000
    let o := (pa - hubBase) % 0x200_0000
    if f ≤ 288 ∧ (f = 0 ∨ o < 0x10_0000) then some (f, o) else none

/-- Why a transfer of Cobbler does not move: 0x0E a malformed control word, 0x11 a range not mapped; 0 none. -/
def xphyFault (pa ctl : Nat) : Nat :=
  let off := bits ctl 13 0
  let len := bits ctl 30 16
  let hub := (hubReg pa).isSome
  let lenOk := if hub then decide (len = 8 ∧ pa % 8 = 0) else decide (len % 64 = 0 ∧ 64 ≤ len ∧ len ≤ 16384)
  if off % 64 ≠ 0 ∨ bits ctl 15 14 ≠ 0 ∨ bit ctl 31 ∨ 2 ^ 33 ≤ ctl ∨ !lenOk ∨ 16384 < off + len then 0x0E
  else if hub ∨ mapped pa len then 0 else 0x11

/-- XPHY (R419): issues a transfer between the reserved area and a physical address; it waits while 16 are in flight. -/
def execXphy (h : Hd) (e : BitVec 2) (cls : BitVec 4) (p : BitVec 1) (s : State) : Res :=
  issueSys h (fun c b s =>
    if 16 ≤ b.xphy.length then .wait s
    else
      let pa := (cget b.e (2 * e.toNat)).toNat
      let ctl := (cget b.e (2 * e.toNat + 1)).toNat
      let off := bits ctl 13 0
      let len := bits ctl 30 16
      let k := s.core c
      let bad := (List.range ((len + 63) / 64)).filter fun l =>
        linePoison k reservedArea (off / 64 + l) || lineErr k reservedArea (off / 64 + l)
      let x : Xphy := { num := b.xcount, cls := cls.toNat, post := p = 1, pa := pa, off := off, len := len,
                        write := bit ctl 32, src := if bit ctl 32 then reservedBytes k off len else []
                        srcPoison := bad, status := xphyFault pa ctl }
      let s := s.setCob c { b with xphy := b.xphy ++ [x], xcount := b.xcount + 1 }
      .done ((s.at (s.cycle + 1 + Config.landCycles s.free) (.xphyDone c x.num)).tick1)) s

/-- Every value as the spec filters it for the MF, without a filter: no policy applies to XPHY (R419). -/
def unfiltered (s : State) : State := { s with vds := tmap s.vds fun _ v => { v with policy := List.replicate 7 4#32 } }

/-- Cobbler's read of 8 bytes of a hub register: as a read of the BAR, filtered by no policy. -/
def hubRead (f o : Nat) (s : State) : List Byte × State := (natLe 8 (regWord (unfiltered s) f o).toNat, regClear f o s)

/-! The fields that are RO to software, or that a read clears, take the values that XPHY writes (R420): all but those that no field of
their own holds (the timebase, the counts of HB_ACT_DENY and of waiting heads, EN_COEF: DESIGN CHOICE, log entry 129), and the WV_ block,
whose tables and records only a switch changes (R27, R134, R421). -/

/-- The RO fields of word `i` of a CQ descriptor. -/
def cqRo (fn n i : Nat) (v : W64) (s : State) : State :=
  let c := s.cq fn n
  match i with
  | 1 => s.setCq fn n { c with ovf := v.getLsbD 6 }
  | 2 => s.setCq fn n { c with widx := v.extractLsb' 0 32 }
  | 3 => s.setCq fn n { c with lost := v.extractLsb' 0 32 }
  | _ => s

/-- The RO fields of word `i` of a fault ring. -/
def fltRo (f : FaultRing) (i : Nat) (v : W64) : FaultRing :=
  match i with
  | 2 => { f with widx := v.extractLsb' 0 32 }
  | 3 => { f with lost := v.extractLsb' 0 32 }
  | _ => f

/-- The RO fields of word `i` of a trace buffer's registers. -/
def trcRo (t : Trc) (i : Nat) (v : W64) : Trc :=
  match i with
  | 3 => { t with last := v.extractLsb' 0 32 }
  | 4 => { t with drop := v.extractLsb' 0 32, wrap := v.extractLsb' 32 32 }
  | _ => t

/-- The RO fields of a word of the page at 0x0_3000 of a VD. -/
def vdRo (d : Vd) (off : Nat) (v : W64) : Vd :=
  let i := off % 0x100 / 8
  match off / 0x100, i with
  | 0x30, 5 => { d with att := { d.att with busy := v.getLsbD 1, st := v.extractLsb' 2 2 } }
  | 0x31, 2 => { d with prq := { d.prq with widx := v.extractLsb' 0 32 } }
  | 0x32, 0 => { d with dbg := { d.dbg with busy := v.getLsbD 38, st := v.extractLsb' 39 3 } }
  | 0x33, i => { d with flt := fltRo d.flt i v }
  | 0x34, i => { d with trc := trcRo d.trc i v }
  | 0x35, 2 => { d with rpl := { d.rpl with count := v.extractLsb' 0 32 } }
  | 0x36, 0 => { d with mlogW := v.extractLsb' 0 32 }
  | 0x36, 1 => { d with mlogF := v.extractLsb' 0 32 }
  | _, _ => d

/-- A frequency step as XPHY writes it: one of the 14 steps (R16); another value is not taken, as for CEILING_SET: DESIGN CHOICE (log
entry 129). -/
def stepRo (old v : BitVec 4) : BitVec 4 := if v.toNat ≤ Config.maxStep then v else old

/-- The RO fields of a word of HB_. -/
def hbRo (off : Nat) (v : W64) (s : State) : State :=
  let k := s.klk
  if off = 0x108 then
    { s with pwr := { s.pwr with step := stepRo s.pwr.step (v.extractLsb' 0 4), ceil := stepRo s.pwr.ceil (v.extractLsb' 4 4)
                                 therm := v.getLsbD 8, floor := v.getLsbD 9, lowered := v.extractLsb' 32 32 } }
  else if off = 0x300 then
    { s with klk := { k with ports := (List.range 16).foldl (fun l p => tmod {} l p fun x => { x with up := v.getLsbD (16 + p) }) k.ports } }
  else if off = 0x600 then { s with vdcmd := { s.vdcmd with busy := v.getLsbD 49, st := v.extractLsb' 50 4 } }
  else if 0x900 ≤ off ∧ off < 0x9C0 then
    (List.range 64).foldl (fun s i =>
      let c := (off - 0x900) * 8 + i
      if (s.core c).locked = v.getLsbD i then s else s.setCore c { s.core c with locked := v.getLsbD i }) s
  else if 0xA00 ≤ off ∧ off < 0xA20 then { s with mfFlt := fltRo s.mfFlt ((off - 0xA00) / 8) v }
  else if off = 0x21000 then
    match k.deny with
    | [] => s
    | d :: l =>
      let n := v.toNat
      { s with klk := { k with deny := { d with src := bits n 9 0, scid := bits n 19 10, tcid := bits n 29 20, kind := bits n 32 30 } :: l } }
  else if off = 0x21008 then { s with klk := { k with denyVa := v } }
  else if off = 0x21010 then { s with klk := { k with denyOvfl := v.extractLsb' 0 32 } }
  else s

/-- The RO fields of a word of PLC_. -/
def plcRo (p : Placer) (off : Nat) (v : W64) : Placer :=
  if off = 8 then { p with rph := v.extractLsb' 16 16, slip := v.extractLsb' 32 16 }
  else if off = 0x100 then { p with migBusy := v.getLsbD 34, migSt := v.extractLsb' 35 4 }
  else if off = 0x108 then { p with migPages := v.extractLsb' 0 32 }
  else p

/-- The RO fields of a word of WM_. -/
def wmRo (x : Weights) (off : Nat) (v : W64) : Weights :=
  if off = 0x18 then { x with widx := v.extractLsb' 0 32 }
  else if off = 0x20 then { x with skip := v.extractLsb' 0 32 }
  else if off = 0x30 then { x with contSt := v.extractLsb' 57 3 }
  else if 0x10000 ≤ off ∧ off < 0x30000 then
    let m := fun (m : Meter) => match off % 0x20 / 8 with
      | 2 => { m with count := v.toNat }
      | 3 => { m with mid := v }
      | _ => m
    { x with meters := tmod {} x.meters ((off - 0x10000) / 0x20) m }
  else x

/-- The RO fields of a word of the TRC_, TLM_ and EN_ block. -/
def trcBlockRo (off : Nat) (v : W64) (s : State) : State :=
  if off < 289 * 0x40 then { s with optrc := tmod {} s.optrc (off / 0x40) fun t => trcRo t (off % 0x40 / 8) v }
  else if 0x40100 ≤ off ∧ off < 0x40180 then
    let sel := s.tlmSel.toNat
    let c := bits sel 10 0
    let w := bits sel 18 16
    let i := bits sel 27 24 * 32 + (off - 0x40100) / 4
    match tfind (s.core c).owners w with
    | none => s
    | some o => s.setOwner c w { o with tlm := cset (cset o.tlm i (v.extractLsb' 0 32)) (i + 1) (v.extractLsb' 32 32) }
  else if off = 0xC0000 then { s with enOper := v.toNat * 1000 }
  else if 0xC0008 ≤ off ∧ off < 0xC0008 + 289 * 8 then
    let cid := (off - 0xC0008) / 8
    if hasVd s cid then s.setVd cid { s.vd cid with energy := v.toNat * 1000 } else s
  else s

/-- The RO fields of a word of FW_. -/
def fwRo (f : Firmware) (off : Nat) (v : W64) : Firmware :=
  if off = 8 then { f with fires := v.extractLsb' 32 16 }
  else if off = 0x10 then { f with failKind := v.extractLsb' 0 3, failCause := v.extractLsb' 3 3 }
  else if 0x100 ≤ off ∧ off < 0x200 then
    let i := (off - 0x100) / 0x40
    let b := f.meas.getD i []
    let b := b ++ List.replicate (64 - b.length) 0
    { f with meas := f.meas.set i (b.take (off % 0x40) ++ natLe 8 v.toNat ++ b.drop (off % 0x40 + 8)) }
  else f

/-- The RO fields of a word of a function's BAR0. -/
def roPut (fn off : Nat) (v : W64) (s : State) : State :=
  let cq (o : Nat) (s : State) : State :=
    if 0x2000 ≤ o ∧ o < 0x2800 then cqRo fn ((o - 0x2000) / 0x20) (o % 0x20 / 8) v s else s
  if fn ≠ 0 then
    if off = 0xC000 then s.setFn fn { s.fn fn with pba := v }
    else if !hasVd s fn then s
    else if 0x3000 ≤ off ∧ off < 0x3700 then s.setVd fn (vdRo (s.vd fn) off v)
    else cq off s
  else
    let o := off % 0x100000
    match off / 0x100000 with
    | 0 => cq o s
    | 1 => hbRo o v s
    | 2 => { s with plc := plcRo s.plc o v }
    | 3 => { s with wm := wmRo s.wm o v }
    | 5 => trcBlockRo o v s
    | 6 => { s with fw := fwRo s.fw o v }
    | 7 => if o = 0x8000 then s.setFn 0 { s.fn 0 with pba := v } else s
    | _ => s

/-- Cobbler's write of a hub register: every field, GEN among them. -/
def hubWrite (f o : Nat) (v : W64) (s : State) : State :=
  if 0x1000 ≤ o ∧ o < 0x2000 then qcbFirmware f ((o - 0x1000) / 0x40) (o % 0x40 / 8) v s
  else regPut f o v (BitVec.allOnes 64) (roPut f o v s)

/-- Write bytes into the reserved area, each with whether it is poisoned (R213, R214). -/
def reservedWrite (c off : Nat) (b : List (Byte × Bool)) (s : State) : State :=
  s.setCore c (winLand (s.core c) (((List.range b.length).zip b).map fun (i, v, p) => (Config.reservedBase + off + i, v, p)))

/-- Whether a transfer's next part is its access to a register of the hub: it reads one first, and writes one when it has had the ports of
its source. -/
def Xphy.atRegister (x : Xphy) : Bool :=
  decide (x.status = 0) && (hubReg x.pa).isSome && (if x.write then decide (x.todo = some []) else x.src.isEmpty)

/-- A transfer of Cobbler performs. Answers its status. A register takes no poisoned line: DESIGN CHOICE (log entry 129). -/
def xphyPerform (c : Nat) (x : Xphy) (s : State) : State × Nat :=
  let bad (l : List Nat) : Nat := if l.isEmpty then 0 else 0x13
  if x.status ≠ 0 then (s, x.status)
  else
    match hubReg x.pa with
    | some (f, o) =>
      if x.write then (if x.srcPoison.isEmpty then hubWrite f o (bv 64 (leNat x.src)) s else s, bad x.srcPoison)
      else (reservedWrite c x.off (x.src.map fun b => (b, false)) s, 0)
    | none =>
      let s := chargeOper s (x.len * pjPerByte x.pa)
      if x.write then
        (pwrite s x.pa x.src (x.srcPoison.flatMap fun l => [(x.pa + 64 * l) / 64, (x.pa + 64 * l + 63) / 64]) true, bad x.srcPoison)
      else
        let p := ppoison s x.pa x.len
        let data := pread s x.pa x.len
        (reservedWrite c x.off (((List.range data.length).zip data).map fun (i, b) => (b, p.contains ((x.pa + i) / 64))) s, bad p)

/-- A transfer of Cobbler performs and lands, and posts its completion. -/
def xphyEnd (core : Nat) (x : Xphy) (s : State) : State :=
  let r := xphyPerform core x s
  let b := r.1.cob core
  let s := r.1.setCob core { b with xphy := b.xphy.filter fun y => y.num ≠ x.num }
  if x.post then postCompletion core { kind := 2, wid := 0, status := bv 8 r.2, seq := bv 16 x.num, detail := 0 } s else s

/-- Replace a transfer of Cobbler, whose next part follows at a cycle. -/
def xphyAgain (core : Nat) (x : Xphy) (at_ : Nat) (s : State) : State :=
  let b := s.cob core
  (s.setCob core { b with xphy := b.xphy.map fun y => if y.num = x.num then x else y }).at at_ (.xphyDone core x.num)

/-- XPHY_DONE: transfer `n` performs once those of its class issued before it have, and once it has had the ports of its lines. -/
def execXphyDone (core n : Nat) (s : State) : Res :=
  let b := s.cob core
  .next (match b.xphy.find? fun x => x.num = n with
    | none => s
    | some x =>
      if b.xphy.any fun y => decide (y.cls = x.cls ∧ y.num < n) then s.at (s.cycle + 1) (.xphyDone core n)
      else if x.atRegister && !x.write then
        match hubReg x.pa with
        | some (f, o) => let r := hubRead f o s; xphyAgain core { x with src := r.1 } s.cycle r.2
        | none => s
      else
        let (left, s) := portTurn (cycleOwner s) (x.todo.getD (xphyPorts core x)) s
        if !left.isEmpty then xphyAgain core { x with todo := some left } (s.cycle + 1) s
        else if x.todo ≠ some [] ∧ Xphy.atRegister { x with todo := some [] } then xphyAgain core { x with todo := some [] } (s.cycle + 1) s
        else xphyEnd core x s)

/-! ### Watchdog and lockout (R85, R86, R268) -/

/-- Whether a bit of a list of bytes is set, numbered from the first byte's least significant. -/
def bitAt (l : List Byte) (i : Nat) : Bool := (l.getD (i / 8) 0).getLsbD (i % 8)

/-- Complete the update of a journal entry whose VALID bit is set: its new values are written, and GEN becomes even (R95). -/
def completeUpdate (area : List Byte) (s : State) (e : Nat × Nat × Nat × List W64) : State :=
  let (valid, fn, q, ws) := e
  if !bitAt area valid then s
  else
    let s := [0, 1, 2, 3, 5].foldl (fun s i => qcbFirmware fn q i (ws.getD i (qcbWord fn (s.queue fn q) i)) s) s
    let g := (s.queue fn q).gen
    if g.getLsbD 0 then qcbFirmware fn q 4 (g + 1) s else s

/-- Clear the VALID bit of a journal entry. -/
def clearEntry (core off valid : Nat) (s : State) : State :=
  let k := s.core core
  let a := Config.reservedBase + off + valid / 8
  s.setCore core (winWrite k [(a, cget k.win a &&& ~~~(1#8 <<< (valid % 8)))])

/-- The restarted Cobbler examines the journal before any event: an entry with VALID = 1 is completed, one with VALID = 0 discarded, and
all are cleared (R95). A line of it that fails its check, or carries poison, locks the core (R85). -/
def examineJournal (core : Nat) (s : State) : State :=
  let off := Config.journalPlace.1 % 16384
  let n := Config.journalPlace.2 % (16385 - off)
  if reservedBad (s.core core) off n then lockCore core s
  else
    let area := reservedBytes (s.core core) off n
    let l := (Config.journal area).filter fun e => decide (e.1 < 8 * n)
    l.foldl (fun s e => clearEntry core off e.1 s) (l.foldl (completeUpdate area) s)

/-- FIRMWARE_WATCHDOG_EXPIRY: the context is reset, and the event it handled goes back to the head with REDO = 1; a second
reset within LIMIT cycles locks the core out. The restarted context first examines the journal. -/
def execFirmwareWatchdogExpiry (core : Nat) (s : State) : Res :=
  let b := s.cob core
  let f := s.fw
  let s := { s with fw := { f with fires := if f.fires = BitVec.allOnes 16 then f.fires else f.fires + 1 } }
  let again := match b.lastReset with
    | some c => decide (s.cycle - c ≤ max 1 f.limit.toNat)
    | none => false
  let q := match b.cur with
    | some e => { e with redo := true } :: b.queue
    | none => b.queue
  .next (if again then lockCore core s
    else examineJournal core (s.setCob core { ({ b with queue := q } : Cobbler).restart with lastReset := some s.cycle }))

/-- The partition that holds a core: its number. -/
def partitionAt (s : State) (c : Nat) : Option Nat :=
  (s.parts.find? fun (_, p) => inPart p (c % Config.meshW) (c / Config.meshW)).map (·.1)

/-- The PF of the partition receives a kind-3 entry in its CQ 0, with Q = 0xFF, and a record that names the core. -/
def lockoutNotice (c : Nat) (s : State) : State :=
  match partitionAt s c with
  | none => s
  | some n =>
    let r : FaultRec := { cause := Cause.coreLost.code, core := c, cid := n }
    let (s, i) := if hasVd s n then recordWrite r s else (s, 0xFFFFFFFF)
    cqPost n 0 (cqEntry 3 255 0 0) (bv 64 i) s

/-- An owner of a locked core faults its strand with CORE_LOST, once: a strand-wide fault. -/
def loseOwner (core w : Nat) (s : State) : State :=
  let o := s.owner core w
  if o.lost || !(s.core core).locked then s
  else raiseAt o.sid core w .f false .coreLost 0 {} (s.setOwner core w { o with lost := true })

/-- An owner at the lockout of its core: a strand that stalls takes the fault at once (R261); one that has its start pulse and has run no
tick runs none on this core (R156); any other takes the fault at its next tick. -/
def lockOwner (core : Nat) (s : State) (x : Nat × Owner) : State :=
  let t := s.strand x.2.sid
  if t.overdue then loseOwner core x.1 s
  else if decide (t.state = .armed ∨ t.state = .resuming) then
    s.setOwner core x.1 ((s.owner core x.1).mapStreams fun y => { y with stopped := true })
  else s

/-- CORE_LOCKOUT: the core takes no new owner; each strand on it faults with CORE_LOST at its first tick after now; the
partition's PF is told (R85, R268). -/
def execCoreLockout (core : Nat) (s : State) : Res :=
  .next (if (s.core core).locked then s
    else
      let s := s.setCore core { s.core core with locked := true }
      lockoutNotice core ((s.core core).owners.foldl (lockOwner core) s))

end Sys2Proof.Machine
end

