-- ==== Sys2Proof/Machine/Fabric.lean ====
section
/-! DEFINITION. The Kallitu Link (chapter 03): flits and replay, device id and routes, the ends of requests to peers, requests
of peers at this hub, and fabric barriers. -/

namespace Sys2Proof.Machine

/-! ### The ends of this device's requests (R45, R49, R72) -/

/-- A peer has answered a signal operation: a failed one is told, unless its function posts nothing any more (R33, R38), and WAIT heads on
the signal read it again (R70, R72). -/
def signalAnswered (q : RemoteReq) (ok : Bool) (fn qn : Nat) (ecq : BitVec 6) (tag : W32) (w3 : W64) (s : State) : State :=
  let s := endRequest q s
  if ok then rereadWaits (sigPlace s fn w3) s else if working s fn then signalFault fn qn ecq tag w3 s else s

/-- What the answer of a peer does for the request `q` that waited for it. -/
def answered (q : RemoteReq) (r : RemoteResp) (s : State) : State :=
  let ok := decide (r.status = 0)
  match q.why with
  | .xfer tid => s.push (.transferLanding tid (some r))
  | .signal fn qn ecq tag w3 => signalAnswered q ok fn qn ecq tag w3 s
  | .signalSet fn qn ecq tag w3 => signalAnswered q ok fn qn ecq tag w3 s
  | .wait fn qn =>
    let s := endRequest q s
    (match headOf s fn qn 2 with
      | none => s
      | some p => waitResult fn qn p (if ok && r.poison.isEmpty then some (bv 64 (leNat (r.data.take 8))) else none) s)
  | .copy run => copyAnswer run r (endRequest q s)
  | .barrier _ _ => s
  | .pull cid page =>
    if ok then (endRequest q s).push (.postcopyPageArrival cid page ⟨r.data, r.poison⟩)
    else (endRequest q s).push (.postcopyPullTimeout cid page)
  | .migPage cid _ => migPageAnswer cid r.status (endRequest q s)

/-- An answer that names a request. -/
def answerTo (rid : Nat) (r : RemoteResp) (s : State) : State :=
  match s.klk.reqs.find? fun q => q.rid = rid with
  | some q => answered q r s
  | none => s

/-- What a request that is not answered in time ends as: a read completes with every line poisoned, anything else with
TRANSFER_UNCORRECTABLE (R45). -/
def timedOut (q : RemoteReq) (free : Nat) : RemoteResp :=
  match q.req.op with
  | .read n =>
    { status := 0, data := (List.range n).map fun i => Config.poisonByte (free + i),
      poison := List.range ((n + 126) / 64) }
  | _ => { status := 0x13, data := [], poison := [] }

/-- KLK_REQUEST_TIMEOUT: a request has waited HB_KLK_TMO. A barrier's strand faults with SOURCE_LOST; a pull loses its page. -/
def execKlkRequestTimeout (rid : Nat) (s : State) : Res :=
  .next (match s.klk.reqs.find? fun q => q.rid = rid with
    | none => s
    | some q =>
      match q.why with
      | .barrier sid _ =>
        let s := endRequest q s
        strandFault sid .sourceLost (s.setStrand sid { s.strand sid with barLost := true })
      | .pull cid page => (endRequest q s).push (.postcopyPullTimeout cid page)
      | .migPage cid _ => migPageAnswer cid 0x13 (endRequest q s)
      | .wait fn qn =>
        let s := endRequest q s
        (match headOf s fn qn 2 with
          | none => s
          | some p => waitResult fn qn p none s)
      | _ =>
        let r := timedOut q s.free
        answered q r { s with free := s.free + r.data.length })

/-! ### Ports (R39-R42) -/

/-- Send the flits of a port's replay buffer again, as far as the buffer reaches. -/
def replayPort (port : Nat) (s : State) : State :=
  let k := s.port port
  if !k.up then s else (k.replay.take replayDepth).foldl (fun s f => emitFlit port f s) s

/-- Drop the flits before a place of the replay buffer; those that waited behind the buffer are sent. -/
def releaseFlits (port n : Nat) (s : State) : State :=
  let k := s.port port
  let s := s.setPort port { k with replay := k.replay.drop n }
  if !k.up then s
  else ((k.replay.drop replayDepth).take n).foldl (fun s f => emitFlit port f s) s

/-- KLK_ACK_RECEIVE: an ack frees the flits up to the one it names. -/
def execKlkAckReceive (port seq : Nat) (s : State) : Res :=
  let k := s.port port
  .next (match k.replay.findIdx? fun f => f.seq.toNat = seq with
    | none => s
    | some i => releaseFlits port (i + 1) (s.setPort port { k with fails := 0 }))

/-- KLK_NAK_RECEIVE: the sender replays from the named flit, in order; a flit that fails 8 times in a row takes the port
down (R41). -/
def execKlkNakReceive (port seq : Nat) (s : State) : Res :=
  let k := s.port port
  .next (match k.replay.findIdx? fun f => f.seq.toNat = seq with
    | none => s
    | some i =>
      let n := if k.failSeq = seq then k.fails + 1 else 1
      let k := { k with replay := k.replay.drop i, failSeq := seq, fails := n }
      let s := s.setPort port k
      if 8 ≤ n then s.push (.klkPortDown port) else replayPort port s)

/-- KLK_PORT_DOWN: the port retrains, and its replay buffer is kept; 10 ms from now it stays down. -/
def execKlkPortDown (port : Nat) (s : State) : Res :=
  let k := s.port port
  .next ((s.setPort port { k with up := false, fails := 0, rxFails := 0 }).afterNs 10000000 (.klkRetrainTimeout port))

/-- KLK_PORT_TRAINED: replay goes on from the unacknowledged flits, and the requests that waited for a route are sent. A port
that has stayed down does not train. -/
def execKlkPortTrained (port : Nat) (s : State) : Res :=
  let k := s.port port
  .next (if k.dead ∨ 16 ≤ port then s
    else sendWaiting (replayPort port ((s.setPort port { k with up := true }).cancel (.klkRetrainTimeout port))))

/-- KLK_RETRAIN_TIMEOUT: a port that has not trained again within 10 ms stays down. -/
def execKlkRetrainTimeout (port : Nat) (s : State) : Res :=
  let k := s.port port
  .next (if k.up then s else s.setPort port { k with dead := true })

/-- Whether a flit fails its check: its CRC, a reserved kind, or a reserved field that is not 0; or it does not carry 240 bytes (R40). -/
def flitBad (f : Flit) : Bool :=
  decide (f.payload.length ≠ payloadBytes) ||
  decide (f.crc ≠ Config.flitCrc (flitBytes f)) || decide (4 ≤ f.kind.toNat) || decide (1024 ≤ f.dst.toNat) || decide (1024 ≤ f.src.toNat)
    || decide (2 ^ 14 ≤ f.cid.toNat)

/-- An ack or nak flit, which has no number of its own. -/
def sendAck (port : Nat) (nak : Bool) (seq : Nat) (s : State) : State :=
  emitFlit port (sealFlit { seq := bv 12 seq, kind := 1, dst := 0, src := bv 16 s.klk.dev.toNat, cid := 0,
                            payload := payloadOf (Config.ackPayload nak), crc := 0 }) s

/-- A failed flit: a nak names the flit awaited; later flits are discarded until it comes again. Where it fails 8 times in a row the
port goes down (R41). -/
def crcFailure (port : Nat) (f : Flit) (s : State) : State :=
  let k := s.port port
  if k.awaiting.isSome ∧ f.seq.toNat ≠ k.seqIn then s
  else
    let s := s.setPort port { k with awaiting := some k.seqIn, rxFails := k.rxFails + 1 }
    if 8 ≤ k.rxFails + 1 then s.push (.klkPortDown port) else sendAck port true k.seqIn s

/-- What a data or barrier flit for this device does. -/
def takeFlit (f : Flit) (s : State) : State :=
  if f.kind = 2 then
    match Config.flitBarrier f with
    | some (true, gid, gen) => s.push (.barrierRelease gid gen)
    | some (false, gid, gen) => s.push (.barrierArrival gid gen f.src.toNat)
    | none => s
  else
    match Config.flitRequest f, Config.flitAnswer f with
    | some r, _ =>
      s.push (.peerRequestArrival { r with src := f.src.toNat, scid := f.cid.toNat % 1024, cls := f.cid.toNat / 1024 % 16 })
    | none, some (rid, a) => answerTo rid a s
    | none, none =>
      match Config.flitImage f, Config.flitFree f with
      | some (cid, img), _ => s.push (.migrationFinalArrival cid { img with src := (f.src.toNat, f.cid.toNat % 1024) })
      | none, some cid => s.push (.postcopySourceFree cid)
      | none, none => s

/-- A flit for another device leaves through the port that the route table names (R42). -/
def forwardFlit (f : Flit) (s : State) : State :=
  if routeUp s f.dst.toNat then sendFlit (tget {} s.klk.routes f.dst.toNat).port.toNat f s else s

/-- KLK_FLIT_RECEIVE (R40-R43): a flit that fails is answered with a nak; a good data or barrier flit in its order is
acknowledged, and taken or forwarded; while the device is not joined every one is dropped. -/
def execKlkFlitReceive (port : Nat) (f : Flit) (s : State) : Res :=
  let k := s.port port
  .next (if !s.klk.jn then s
    else if flitBad f then crcFailure port f s
    else if f.kind = 1 then
      s.push (if Config.flitNak f then .klkNakReceive port f.seq.toNat else .klkAckReceive port f.seq.toNat)
    else if f.kind = 3 then s
    else if f.seq.toNat ≠ k.seqIn then (if k.awaiting.isSome then s else sendAck port false ((k.seqIn + 4095) % 4096) s)
    else
      let s := s.setPort port { k with seqIn := (k.seqIn + 1) % 4096, awaiting := none, rxFails := 0 }
      let s := sendAck port false f.seq.toNat s
      if f.dst.toNat = s.klk.dev.toNat then takeFlit f s else forwardFlit f s)

/-! ### Device id and routes (R43, R44) -/

/-- HB_KLK_ID_WRITE: DEV and JN, ignored while a VD has a remote window enabled. A device that joins sends what it holds. -/
def execHbKlkIdWrite (v : BitVec 64) (s : State) : Res :=
  .next (if anyWindow s then s
    else
      let s' := { s with klk := { s.klk with dev := v.extractLsb' 0 10, jn := v.getLsbD 10 } }
      sendWaiting (if s.klk.jn then s' else (List.range 16).foldl (fun s p => replayPort p s) s'))

/-- Whether a request already sent to a device has not completed. -/
def sentTo (s : State) (dst : Nat) : Bool := s.klk.reqs.any fun q => q.sent && decide (q.dst = dst)

/-- Replace a route. -/
def setRoute (dst : Nat) (r : Route) (s : State) : State := { s with klk := { s.klk with routes := tset s.klk.routes dst r } }

/-- HB_KLK_ROUTE_WRITE: held while requests already sent to the device have not completed. -/
def execHbKlkRouteWrite (dst : Nat) (v : BitVec 64) (s : State) : Res :=
  let r := tget {} s.klk.routes dst
  .next (if sentTo s dst then setRoute dst { r with next := some (v.extractLsb' 0 4, v.getLsbD 4) } s
    else sendWaiting (setRoute dst { port := v.extractLsb' 0 4, v := v.getLsbD 4 } s))

/-- ROUTE_CHANGE_APPLY: the held entry takes effect once those requests have completed. -/
def execRouteChangeApply (dst : Nat) (s : State) : Res :=
  let r := tget {} s.klk.routes dst
  .next (match r.next with
    | some (p, v) => if sentTo s dst then s else sendWaiting (setRoute dst { port := p, v := v } s)
    | none => s)

/-! ### Requests of peers (R34, R49-R51, R72) -/

/-- Answer a peer's request: here, if it is this device's own; else on the fabric, in flits that name the issuer of the request (R40). -/
def answerPeer (r : PeerReq) (a : RemoteResp) (s : State) : State :=
  if r.src = s.klk.dev.toNat then answerTo r.back a s
  else
    sendPayloads 0 r.src r.scid r.cls (Config.answerPayloads r a) (s.emit (.answer r a.status a.data))

/-- Whether an entry grants a request (R49): the write of a SIGNAL is a write, the decrement of a packet an atomic (R72). -/
def grants (s : State) (r : PeerReq) (a : ActEntry) : Bool :=
  let put (n : Nat) : Bool := a.wr || (a.pkt && (List.range 64).any fun q => a.qmask.getLsbD q && inRing s r.tcid q r.va n)
  match r.op with
  | .write d _ => put d.length
  | .signalSet _ _ _ _ => put 8
  | .read n => a.rd && !sealedRange s r.tcid r.va n
  | .notify q _ => a.ntf && a.qmask.getLsbD q
  | .atomic _ _ _ | .sc _ _ _ => a.sig && !sealedRange s r.tcid r.va 8
  | .signalDec _ _ _ => a.sig
  | .signalRead => a.rd && !sealedRange s r.tcid r.va 8

/-- Answer a request with a cause. -/
def refusePeer (r : PeerReq) (cause : Cause) (s : State) : State :=
  answerPeer r { status := cause.code, data := [], poison := [] } s

/-! Requests of one source owner in one class perform in the order of their arrival, each after the one before it has performed, and a
request is answered only then (R51, R230). -/

/-- Whether two requests are of one source owner and class. -/
def samePeer (a b : PeerReq) : Bool := decide (a.src = b.src ∧ a.scid = b.scid ∧ a.cls = b.cls)

/-- A granted request is to perform, as soon as it can. -/
def busyWith (r : PeerReq) (s : State) : State := { s with klk := { s.klk with busyPeer := s.klk.busyPeer ++ [r] } }

/-- A granted request has performed: it is answered, and the next of its source owner and class goes on. -/
def peerDone (r : PeerReq) (a : RemoteResp) (s : State) : State :=
  let k := s.klk
  let s := { s with klk := { k with busyPeer := k.busyPeer.filter (· ≠ r), readyPeer := k.readyPeer.filter (·.1 ≠ r)
                                    tornPeer := k.tornPeer.filter (·.1 ≠ r) } }
  let s := answerPeer r a s
  match s.klk.waitPeer.find? (samePeer r) with
  | none => s
  | some n => (busyWith n { s with klk := { s.klk with waitPeer := s.klk.waitPeer.erase n } }).push (.peerRequestArrival n)

/-- A granted request ends with a cause. -/
def peerFails (r : PeerReq) (cause : Cause) (s : State) : State := peerDone r { status := cause.code, data := [], poison := [] } s

/-- A granted request holds on a demand page of its target VD. -/
def holdPeer (r : PeerReq) (page : Nat) (write : Bool) (s : State) : State :=
  pageRequest r.tcid page write { s with klk := { s.klk with heldPeer := s.klk.heldPeer ++ [(page, r)] } }

/-- The end of a granted request that meets an error of the target VD's memory. -/
def peerError (r : PeerReq) (write : Bool) (e : VaErr) (s : State) : State :=
  match e with
  | .demand p => holdPeer r p write s
  | .fault c _ => peerFails r c s

/-- Energy of bytes moved at this device for a peer, charged to the operator (R169). -/
def peerEnergy (r : PeerReq) (n : Nat) (s : State) : State := chargeOper s (rangeEnergy s r.tcid r.va n + n * 40)

/-- The rest of a peer's access of which a first part has performed follows, at a time that is not stated: a free value. -/
def tearPeer (r : PeerReq) (t : Torn) (s : State) : State :=
  hubLater (.peerRequestArrival r) { s with klk := { s.klk with tornPeer := s.klk.tornPeer ++ [(r, t)] } }

/-- A peer's write: its first words, and then the rest, through the translation of the first (R210, R226). -/
def peerWrite (r : PeerReq) (d : List Byte) (poison : List Nat) (s : State) : State :=
  match s.klk.tornPeer.find? (·.1 = r) with
  | none =>
    (match vwriteFirst (translate s r.tcid · true) s r.va d poison with
      | .error e => peerError r true e s
      | .ok (s', t) => tearPeer r t s')
  | some (_, t) => peerDone r { status := 0, data := [], poison := [] } (peerEnergy r d.length (putRest t d poison s))

/-- A peer's read, which finds each word as it was at one of two times (R226), and counts in the VD's meters. -/
def peerRead (r : PeerReq) (n : Nat) (s : State) : State :=
  match s.klk.tornPeer.find? (·.1 = r) with
  | none =>
    (match vreadFirst (translate s r.tcid · false) s r.va n with
      | .error e => peerError r false e s
      | .ok (s', t) => tearPeer r t s')
  | some (_, t) =>
    let d := getRest t s
    peerDone r { status := 0, data := d.1, poison := d.2 } (peerEnergy r n (countRead s r.tcid r.va n))

/-- Whether a write carries a page that the source of a post-copy pushes (R126). -/
def isPush (s : State) (r : PeerReq) (d : List Byte) : Bool :=
  let v := s.vd r.tcid
  decide (v.state ≠ .incoming ∧ v.source = (r.src, r.scid) ∧ r.va % 65536 = 0 ∧ d.length = 65536)

/-- A peer's notify: it performs with the queue's own; held back with them, it is answered when they perform (R230, R58). -/
def peerNotify (r : PeerReq) (q : Nat) (v : W32) (s : State) : State :=
  if suspended s r.tcid q then s.modQueue r.tcid q fun x => { x with heldOps := x.heldOps ++ [.peerRequestArrival r] }
  else
    ({ s with klk := { s.klk with readyPeer := s.klk.readyPeer ++ [(r, 0)] } }).pushAll [.notify r.tcid q v, .peerRequestArrival r]

/-- A peer's operation on a signal of the target VD: it takes a wheel position of the CFE at this hub, and follows the operations held
on the signal (R72, R224). -/
def peerSignal (r : PeerReq) (w3 : W64) (tag : W32) (q : Nat) (write : Option W64) (s : State) : State :=
  atCfeSlot (.peerRequestArrival r) (fun s =>
    signalOp { page := 0, cid := r.tcid, va := r.va, fn := r.tcid, q := q, tag := tag, w3 := w3, write := write, peer := some r }
      (chargeOper s (8 * 40))) s

/-- Perform a granted request as the target VD. -/
def performPeer (r : PeerReq) (s : State) : State :=
  let done (data : List Byte) (poison : List Nat) (s : State) : State :=
    peerDone r { status := 0, data := data, poison := poison } s
  let at8 (op : AtOp) (x new : W64) (s : State) : State :=
    match atomicAt s r.tcid r.va op x new with
    | .error e => peerError r (decide (op ≠ .ld)) e s
    | .ok (old, p, s') => done (natLe 8 old.toNat) (if p then [0] else []) (peerEnergy r 8 s')
  match r.op with
  | .read n => peerRead r n s
  | .signalRead =>
    (match vread s r.tcid r.va 8 with
      | .error e => peerError r false e s
      | .ok (b, p) => done b p (peerEnergy r 8 (countRead s r.tcid r.va 8)))
  | .write d poison =>
    if isPush s r d then done [] [] (s.push (.postcopyPageArrival r.tcid (r.va / 65536) ⟨d, poison⟩)) else peerWrite r d poison s
  | .atomic op x new => at8 op x new s
  | .sc op x new => at8 op x new s
  | .notify q v => peerNotify r q v s
  | .signalDec w3 tag q => peerSignal r w3 tag q none s
  | .signalSet w3 v tag q => peerSignal r w3 tag q (some v) s

/-- Whether the destination of a migration reads a page of the stopped source (R126). -/
def isPull (s : State) (r : PeerReq) : Bool :=
  decide ((s.vd r.tcid).state = .stopped ∧ (s.vd r.tcid).dest = (r.src, r.scid) ∧ r.va % 65536 = 0)
    && match r.op with | .read n => decide (n = 65536) | _ => false

/-- The cycle of the next wheel position of the fabric proxy, or none where the present one is free (R140, R224). -/
def fabricSlot (s : State) : Option Nat :=
  if s.phase = 1 ∧ nextSlot 1920 2048 s.cycle = s.cycle ∧ s.wheel.2 ≠ s.cycle then none else some (nextSlot 1920 2048 (scFrom s))

/-- Whether a request is an SC operation, which takes a position of the fabric proxy: an atomic of XSC, or the read of a WAIT (R224):
DEDUCED (log entry 123). -/
def scRequest : PeerOp → Bool
  | .sc _ _ _ | .signalRead => true
  | _ => false

/-- Perform a granted request; an SC operation takes a position of the fabric proxy. -/
def performGranted (r : PeerReq) (s : State) : State :=
  if scRequest r.op then
    match fabricSlot s with
    | some c => s.at c (.peerRequestArrival r)
    | none => performPeer r { s with wheel := (s.wheel.1, s.cycle) }
  else performPeer r s

/-- Whether a VD takes no request of a peer: it is gone or being reset, or a migration has stopped it (R34, R125). -/
def peerShut (s : State) (cid : Nat) : Bool :=
  !hasVd s cid || (s.vd cid).closing || decide ((s.vd cid).state = .stopped)

/-- A request arrives: a pull is answered with the page; any other is checked against HB_ACT, and denied and recorded, or performed in its
order. R49 checks each incoming request; the pull of a STOPPED VD's page by its migration's destination (R126) is answered unchecked:
DESIGN CHOICE (log entry 130). -/
def newPeer (r : PeerReq) (s : State) : State :=
  if isPull s r then
    let d := pageData s r.tcid (r.va / 65536)
    answerPeer r { status := 0, data := d.1, poison := d.2 } (peerEnergy r 65536 s)
  else if peerShut s r.tcid || !((actsOf s r.src r.tcid).any fun a => grants s r a) then
    refusePeer r .transferAccess (recordDenial r s)
  else if (s.klk.busyPeer ++ s.klk.waitPeer).any (samePeer r) then { s with klk := { s.klk with waitPeer := s.klk.waitPeer ++ [r] } }
  else performGranted r (busyWith r s)

/-- PEER_REQUEST_ARRIVAL: a request is checked against HB_ACT and performed as the target VD, or denied: dropped, recorded,
and answered with TRANSFER_ACCESS (R49). One that was granted goes on: its signal operation has ended, or it is tried again; where the VD
is gone meanwhile, it ends as a denied one. -/
def execPeerRequestArrival (r : PeerReq) (s : State) : Res :=
  .next (match s.klk.readyPeer.find? (·.1 = r) with
    | some (_, st) => peerDone r { status := st, data := [], poison := [] } s
    | none =>
      if !s.klk.busyPeer.contains r then newPeer r s
      else if peerShut s r.tcid then peerFails r .transferAccess s
      else performGranted r s)

/-- HB_ACT_DENY_READ: the oldest record's word is returned, the record removed, and its VA latched; an empty FIFO returns
VALID = 0 (R50). -/
def execHbActDenyRead (s : State) : Res :=
  .next (match s.klk.deny with
    | [] => s.emit (.readData 0 0x121000 (natLe 8 0))
    | d :: _ => (denyPop s).emit (.readData 0 0x121000 (natLe 8 (denyWord d).toNat)))

/-! ### Barriers (R52, R53) -/

/-- Member strands of a group at its root, 0 if this device is not its root. -/
def groupSize (s : State) (gid : Nat) : Nat :=
  match s.klk.fgrp.find? fun (_, e) => e.getLsbD 36 && decide ((e.extractLsb' 0 16).toNat = gid) with
  | some (_, e) => if (e.extractLsb' 16 10) = s.klk.dev then (e.extractLsb' 26 10).toNat else 0
  | none => 0

/-- A release for one member device. -/
def sendRelease (gid gen dev : Nat) (s : State) : State :=
  if dev = s.klk.dev.toNat then s.push (.barrierRelease gid gen)
  else sendPayloads 2 dev 0 0 [Config.barrierPayload true gid gen] (s.emit (.release gid gen dev))

/-- BARRIER_ARRIVAL: with N arrivals of one generation the root sends a release to every member: one to each device that sent an arrival,
whose hub releases its member strands. R53 does not say whether a device of several members gets one: DESIGN CHOICE (log entry 92). -/
def execBarrierArrival (gid gen dev : Nat) (s : State) : Res :=
  let n := groupSize s gid
  let all := s.klk.arrivals ++ [(gid, gen, dev)]
  let mine := all.filter fun (g, h, _) => decide (g = gid ∧ h = gen)
  .next (if n = 0 then s
    else if mine.length < n then { s with klk := { s.klk with arrivals := all } }
    else
      let s := { s with klk := { s.klk with arrivals := all.filter fun (g, h, _) => !decide (g = gid ∧ h = gen) } }
      (sall (mine.map fun (_, _, d) => d) []).foldl (fun s d => sendRelease gid gen d s) s)

/-- BARRIER_RELEASE: the release reaches the strands of the group that wait for it (R53). -/
def execBarrierRelease (gid gen : Nat) (s : State) : Res :=
  .next ((s.strands.filter fun (_, t) => t.g5 && decide (t.gid = gid ∧ t.gen = gen) && !t.released).foldl (fun s (sid, _) =>
    let t := s.strand sid
    let s := s.setStrand sid { t with released := true, relAt := s.cycle }
    match s.klk.reqs.find? fun q => q.why = .barrier sid gen with
    | some q => endRequest q s
    | none => s) s)

end Sys2Proof.Machine
end

