-- ==== Sys2Proof/Machine/Clock.lean ====
section
/-! DEFINITION. The passage of origin time: what falls due in a cycle, the end of its ticks, and of the next cycle its accesses to
registers, its switches, its stalls, and the ticks that it begins (R3, R13, R16, R83-R86, R99, R118, R128-R137, R153-R159, R164-R169,
R216, R229, R261). A cycle passes in parts, each after everything that the one before it asked for has been carried out. -/

namespace Sys2Proof.Machine

/-! ### What falls due

What performs in one cycle performs one after the other, each with all that it asks for before the next: SC operations, then the cores
in increasing number, the CFE, the host proxy and the fabric proxy (R216). Of the requesters of one bank port the first of R199 gets it,
whichever performs first (`portOpen`). -/

/-- The place of a transfer among those of its cycle: its core, and whether it stands there as an inbound request, a put or sum, or an
outbound one. -/
def xferRank (s : State) (tid : Nat) : Nat :=
  match xferOf s tid with
  | none => 0
  | some x => match x.kind with
    | .put | .sumF | .sumI => 8 * x.core + 3
    | _ => 8 * x.core + (if x.kind.reads then 4 else 2)

/-- Whether the present cycle is a wheel position of the CFE, or of the fabric proxy (R140). -/
def cfeCycle (s : State) : Bool := decide (1536 ≤ s.cycle % Config.revolution ∧ s.cycle % Config.revolution < 1792)
def fabricCycle (s : State) : Bool := decide (1920 ≤ s.cycle % Config.revolution)

/-- The rank of the CFE among the agents of a cycle. -/
def cfeRank : Nat := 1 + 8 * Config.cores

/-- Whether a packet that completes has a signal operation of its own at this hub to perform. -/
def signalsHere (s : State) (id : Nat) : Bool :=
  match runOf s id with
  | some r => r.signal.isSome && localSignal r.fn r.pkt.w3
  | none => false

/-- Whether an operation is an SC operation of the present cycle: its position of the wheel is this one (R140, R224). -/
def scNow (s : State) (i : Instr) : Bool :=
  match i with
  | .scOperationPerform _ => true
  | .waitReread _ _ => cfeCycle s
  | .packetCompletion id => cfeCycle s && signalsHere s id
  | .pageDone _ page => cfeCycle s && decide (page = freedPage)
  | .peerRequestArrival r =>
    match r.op with
    | .signalDec _ _ _ | .signalSet _ _ _ _ => cfeCycle s && s.klk.busyPeer.contains r
    | op => fabricCycle s && scRequest op
  | _ => false

/-- The place of an operation among those of its cycle: 0 an SC operation; the cores; the CFE, and what stands nowhere else; the
host proxy; the fabric proxy. -/
def agentRank (s : State) (i : Instr) : Nat :=
  if scNow s i then 0
  else match i with
    | .transferDispatch tid | .transferLanding tid _ | .remotePutArrival tid => 1 + xferRank s tid
    | .cseDone c => 1 + 8 * c
    | .xphyDone c _ | .zfillZeroed c => 2 + 8 * c
    | .hostBar2Read _ _ _ | .hostBar2Write _ _ _ _ _ | .mfApertureAccess _ _ _ | .hostReadCompletionTimeout _ _ => cfeRank + 1
    | .peerRequestArrival _ | .klkFlitReceive _ _ | .barrierArrival _ _ _ | .barrierRelease _ _ => cfeRank + 2
    | _ => cfeRank

/-- The transfer of an owner that takes its lane in this cycle: on a cycle of its lane subclass, the first in issue order
that waits and may perform, or is an SC operation (R137, R218, R225). -/
def laneTurn (s : State) (t : Strand) (i c w : Nat) : Option Instr :=
  let m := t.stride * t.txrate
  if s.cycle % m ≠ (t.lanes.getD i (0, 0)).2 % m then none
  else
    let stuck := stuckOf s c w
    ((xfersOf s c w).find? fun x => decide (x.state = .waiting) && (mayPerform s x || x.isSc) && !stuck.contains x.tid).map
      fun x => .transferDispatch x.tid

/-- The transfers of every strand that take their lanes in this cycle. -/
def laneTurns (s : State) : List Instr :=
  s.strands.flatMap fun (_, t) => (List.range (t.w * t.h)).filterMap fun i =>
    if t.widAt i < 8 then laneTurn s t i (t.place i).1 (t.place i).2 else none

/-! The hub performs what the host sends in the order received (R229). Its accesses to registers come before everything else of their
cycle, so that an update of the same cycle takes effect after a clear (R3); of its accesses to memory one performs among what is due in a
cycle. Whatever is behind an access waits for it. -/

/-- Whether an input is an event outside that no access of the host brings: of the fabric, of the host link, or of the BMC. -/
def deviceEvent : Instr → Bool
  | .hostReadCompletionTimeout _ _ | .pcieLinkTraining _ _ _ | .klkFlitReceive _ _ | .klkNakReceive _ _ | .klkAckReceive _ _
  | .klkPortTrained _ | .klkPortDown _ | .peerRequestArrival _ | .barrierArrival _ _ _ | .barrierRelease _ _ | .migrationLinkLost
  | .migrationFinalArrival _ _ | .postcopyPageArrival _ _ _ | .postcopySourceFree _ | .ceilingSet _ | .railFault => true
  | _ => false

/-- Whether an input is an access of the host to memory. -/
def memoryAccess : Instr → Bool
  | .hostBar2Read _ _ _ | .hostBar2Write _ _ _ _ _ | .mfApertureAccess _ _ _ => true
  | _ => false

/-- The oldest access of the host, if it has arrived, and if it is one to memory, or not. -/
def nextHost (s : State) (mem : Bool) : Option (Nat × Instr) :=
  match s.inputs.find? fun x => !deviceEvent x.2 with
  | some x => if x.1 ≤ s.cycle ∧ memoryAccess x.2 = mem then some x else none
  | none => none

/-- Take up an access of the host to memory, the events that have arrived, the timers that are due, the lanes' transfers and the head that
the CFE examines, in the order of R216. -/
def takeDue (s : State) : State :=
  let due (x : Nat × Instr) : Bool := decide (x.1 ≤ s.cycle)
  let dueNs (x : Nat × Instr) : Bool := decide (x.1 ≤ s.ref)
  let host := nextHost s true
  let left := match host with | some x => s.inputs.erase x | none => s.inputs
  let came (x : Nat × Instr) : Bool := due x && deviceEvent x.2
  let ops : List Instr := (host.toList ++ left.filter came ++ s.timers.filter due ++ s.nsTimers.filter dueNs).map (·.2)
  { s with
    due := sortBy (agentRank s) (ops ++ laneTurns s ++ (cfePick s).toList)
    inputs := left.filter fun x => !came x, timers := s.timers.filter fun x => !due x
    nsTimers := s.nsTimers.filter fun x => !dueNs x }

/-- Whether an operation is a transfer of Cobbler whose next part is its access to a register of the hub (R420). -/
def hubAccess (s : State) (i : Instr) : Bool :=
  match i with
  | .xphyDone c n => (s.cob c).xphy.any fun x => decide (x.num = n) && x.atRegister
  | _ => false

/-- Take up the next access to a register in this cycle, if there is one. -/
def takeEarly (s : State) : Option State :=
  match nextHost s false with
  | some x => some ({ s with inputs := s.inputs.erase x }.push x.2)
  | none => (s.timers.find? fun x => decide (x.1 ≤ s.cycle) && hubAccess s x.2).map fun x => { s with timers := s.timers.erase x }.push x.2

/-! ### The end of a cycle -/

/-- The strands that meet a condition, lowest id first. -/
def sidsWhere (s : State) (f : Strand → Bool) : List Nat := (s.strands.filter fun (_, t) => f t).map (·.1)

/-- A stalled strand takes a fault that has arrived: a first one stops it at once; one that has faulted before its stall goes on to
its stop (R166, R261). -/
def stallFaults (s : State) : State :=
  (sidsWhere s fun t => t.overdue && !t.faults.isEmpty && decide (t.state = .stalled ∨ t.state = .draining ∨ t.state = .stopping)).foldl
    (fun s sid =>
      let first := (s.strand sid).primary.isNone
      let s := takeFaults sid (s.strand sid).stallAt s
      if first then s.push (.strandStop sid) else s) s

/-- Whether a strand's ticks go on: it has not faulted, or has not reached its stop (R261). -/
def Strand.live (t : Strand) : Bool := match t.primary with | some p => decide (t.tick < p.stop) | none => true

/-- Send the arrivals of level-5 SYNCs whose transfers have now landed (R53). -/
def sendBarriers (s : State) : State :=
  (sidsWhere s fun t => !t.released && t.live).foldl (fun s sid => tryBarrier sid s) s

/-- Parts of 10 ns that divide evenly by every number of cycles in 10 ns, 12 to 25 (R13, R16). -/
def edgeUnits : Nat := 26771144400

/-- What a cycle takes at a frequency step, in those parts: 25 - step cycles make 10 ns. -/
def cycleUnits (step : Nat) : Nat := edgeUnits / (25 - step)

/-- Nanoseconds between two CHECKPOINT records (R99). -/
def checkpointNs (s : State) : Nat := max 1 (min 3600 s.wm.ckpt.toNat) * 1000000000

/-- An edge of the reference: 10 ns have passed. The nanosecond clock, which reads 0 until the MF sets it (R14), adds 10, or takes the value
written (R159). A multiple of the checkpoint interval asks for the records among what performs in the cycle (R3, R99): DESIGN CHOICE (log
entry 77). -/
def nsEdge (s : State) : State :=
  let s' := { s with ref := s.ref + 10, ns := s.nsWrite.getD (if s.nsSet then s.ns + 10 else 0), nsSet := s.nsSet || s.nsWrite.isSome
                     nsPhase := s.nsPhase - edgeUnits, nsWrite := none }
  if s.ref / checkpointNs s < s'.ref / checkpointNs s then s'.soon .meterCheckpoint else s'

/-- The next cycle begins. -/
def nextCycle (s : State) : State :=
  let s := { s with cycle := s.cycle + 1, nsPhase := s.nsPhase + cycleUnits s.pwr.step.toNat }
  if edgeUnits ≤ s.nsPhase then nsEdge s else s

/-- The re-phasing switches that name a cycle that has come, before any tick of it (R149). -/
def takeRephase (s : State) : State :=
  let due (x : Nat × Instr) : Bool := decide (x.1 ≤ s.cycle) && (match x.2 with | .rephaseSwitch _ => true | _ => false)
  let ops : List Instr := (s.timers.filter due).map (·.2)
  { s with agenda := s.agenda ++ ops, timers := s.timers.filter fun x => !due x }

/-- Cores whose pending table becomes active in this cycle (R134). -/
def switchCores (s : State) : List Nat :=
  (s.cores.filter fun (_, k) => k.swPend && decide (k.swc ≤ s.cycle)).map (·.1)

/-- The mean power in mW over the revolutions that the estimators keep, each with the energy charged in it and the step at which it
ran: pJ per ns, rounded down. Over fewer than 1,024 where no more have passed: DESIGN CHOICE (log entry 14). -/
def meanPower (l : List (Nat × Nat)) : Nat :=
  l.foldl (fun n x => n + x.1) 0 * edgeUnits / l.foldl (fun n x => n + 10 * Config.revolution * cycleUnits x.2) 0

/-- A revolution ends: its energy joins the last 1,024 (R16). -/
def closeRevolution (s : State) : State :=
  { s with est := { now := 0, revs := ((s.est.now, s.pwr.step.toNat) :: s.est.revs).take 1024 } }

/-- What the package does of itself at a cycle: the reserved refresh slot (R7, R138), and at the boundary of a revolution
the sensors and the governor (R12, R16, R17). The sensors are read once in a revolution, just before the governor decides: DESIGN CHOICE
(log entry 107). A step falls in cycle 2,048k, after the accesses to registers of that cycle: DESIGN CHOICE (log entry 106). -/
def packageTurn (s : State) : State :=
  let s := if s.cycle % 16 = 15 then s.push .hbmRefresh else s
  if s.cycle % Config.revolution = 0 then
    let n := s.pwr.revs
    let s := closeRevolution s
    s.pushAll [.junctionSensorRead ((List.range 5).map fun d => Config.junction d n), .governorRevolution (meanPower s.est.revs)]
  else s

/-- The end of a cycle: its ticks end, stalled strands take their faults, and time advances. -/
def endCycle (s : State) : State :=
  let s := (sidsWhere s (·.inTick)).foldl (fun s sid => endTick sid s) s
  nextCycle (sendBarriers (stallFaults s))

/-- The switches of a cycle, and what the package does at it, after the accesses to registers. -/
def switches (s : State) : State :=
  let s := takeRephase s
  packageTurn (s.pushAll ((switchCores s).map Instr.weaveSwitch))

/-! ### Class cycles (R128, R129, R153) -/

/-- Whether the present cycle is one of a strand's: the weave table of a core of it gives it to its owner (R134). -/
def onClass (s : State) (t : Strand) : Bool :=
  decide (t.start ≤ s.cycle) && decide (t.notBefore ≤ s.cycle) && t.slots.any fun (c, w) => decide (heldBy (s.core c) s.cycle = some w)

/-- Whether a cut of a strand takes hold at its present class cycle: it has come to its tick, or the strand is stalled (R166). -/
def cutNow (t : Strand) : Option CutKind :=
  match t.cut with
  | some (k, kind) => if k ≤ t.tick ∨ t.overdue then some kind else none
  | none => none

/-- Whether a draining stream has left the block that it drains (R189). -/
def Stream.leftBlock (x : Stream) : Bool := match x.drainTo with | some (d, _, _) => decide (x.blocks.length < d) | none => false

/-- Whether a stream issues at tick `k`. -/
def Stream.ready (x : Stream) (k : Nat) : Bool := decide (x.next ≤ k) && !x.ended && !x.stopped && !x.hold && !x.leftBlock

/-- Whether a stream of an owner is to execute END at its next tick (R264). -/
noncomputable def ownerEnds (s : State) (t : Strand) (c w : Nat) : Bool :=
  let o := s.owner c w
  streams.any fun st =>
    let x := o.stream st
    x.ready (ownNext t o) && match decode st (x.img.drop x.pc) with | .ok (.endS _, _) => true | _ => false

/-- Whether a stream of a strand is to execute END in this cycle (R264). -/
noncomputable def endDue (s : State) (t : Strand) : Bool := t.slots.any fun (c, w) => ownerRuns s c w && ownerEnds s t c w

/-- Whether a strand holds a class cycle that its watchdog counts: not the one in which it parks, unless a tick runs in it because of an
END (R167, R264). -/
noncomputable def counted (s : State) (t : Strand) : Bool :=
  match t.state with
  | .running | .stalled => match cutNow t with | none => true | some kind => decide (kind ≠ .discard) && !t.overdue && endDue s t
  | .draining => true
  | .stopping => t.primary.isSome && t.live
  | _ => false

/-- The stalls that end at this cycle (R164, R166). -/
def stallEnds (s : State) : List Instr :=
  (sidsWhere s fun t => decide (t.state = .stalled ∨ t.state = .draining ∨ t.state = .stopping) && t.live && onClass s t
    && stallOver s t s.cycle).map Instr.syncStallEnd

/-- The watchdog counts a class cycle, and expires at its limit; 0 is no limit. -/
def watchdog (sid : Nat) (s : State) : State :=
  let t := s.strand sid
  let s := s.setStrand sid { t with wd := t.wd + 1 }
  if t.wdLimit ≠ 0 ∧ t.wd + 1 = t.wdLimit then s.push (.strandWatchdogExpiry sid) else s

/-! ### A tick begins (R179, R184, R185) -/

/-- The streams of an owner that issue at tick `k`, in the order C, L, M, V, S. -/
def readySlots (s : State) (k c w : Nat) : List Slot :=
  streams.filterMap fun st => if ((s.owner c w).stream st).ready k then some ⟨c, w, st⟩ else none

/-- An owner at a tick of its strand: it begins its own next tick, or one more passes without it (R134, R414). -/
def ownerTick (t : Strand) (s : State) (x : Nat × Nat) : State :=
  let o := s.owner x.1 x.2
  if ownerRuns s x.1 x.2 then
    (s.setOwner x.1 x.2 { o with tick := ownNext t o, ports := [] }).push (.resultWriteback x.1 x.2)
  else s.setOwner x.1 x.2 { o with lag := o.lag + 1, ports := [] }

/-- A strand begins its next tick on the cores whose owners take part in it: a core locked out faults it (R268), what is due takes effect,
and its streams issue. -/
def beginTick (sid : Nat) (s : State) : State :=
  let s := (s.strand sid).slots.foldl (fun s (c, w) => loseOwner c w s) s
  let t := s.strand sid
  let runs := t.slots.filter fun x => ownerRuns s x.1 x.2
  let s := t.slots.foldl (ownerTick t) s
  let slots : List Slot := runs.flatMap fun (c, w) => readySlots s (s.owner c w).tick c w
  { s.setStrand sid { t with tick := t.tick + 1, inTick := true } with issue := s.issue ++ slots }

/-- A class cycle of a stall passes empty (R164). -/
def emptyCycle (sid : Nat) (s : State) : State :=
  let t := s.strand sid
  s.setStrand sid { t with overrun := t.overrun + 1, stallCount := t.stallCount + 1 }

/-! The cuts that PARK arms on a core act on its owner alone; a strand of which every owner is parked is parked (R116, R414). -/

/-- Whether an owner that PARK drains holds everywhere, with everything issued complete. -/
def ownerDrained (s : State) (c w : Nat) : Bool :=
  let o := s.owner c w
  streams.all (fun st => (o.stream st).ended || (o.stream st).hold) && o.pend.isEmpty && (xfersOf s c w).isEmpty

/-- PARK's drain of an owner begins at its eviction tick, unless a stream of it executes END there; streams that have left their blocks
hold, and when everything is complete DRAINED is posted (R118, R414). -/
noncomputable def drainOwner (t : Strand) (c w : Nat) (s : State) : State :=
  let o := s.owner c w
  let due := (s.core c).cuts.any fun a => decide (a.wid = w) && a.drain && (decide (a.tick ≤ ownNext t o) || t.overdue)
  let s :=
    if o.draining then s.setOwner c w (o.mapStreams Stream.settle)
    else if due && (t.overdue || !ownerEnds s t c w) then s.setOwner c w { o.mapStreams Stream.drain with draining := true }
    else s
  let o := s.owner c w
  if o.draining && ownerDrained s c w then endCutsWhere (·.drain) c w 0 o.tick s else s

/-- What an owner's armed cuts do at a class cycle: it parks once it has executed their tick, or at once in a stall, or drains. One whose
streams have all ended departs instead (R416), and a park that meets an eviction is held (R120). -/
noncomputable def ownerCuts (t : Strand) (s : State) (x : Nat × Nat) : State :=
  let (c, w) := x
  let o := s.owner c w
  let due := (s.core c).cuts.any fun a => decide (a.wid = w) && !a.drain && (decide (a.tick < ownNext t o) || t.overdue)
  if !ownerRuns s c w ∨ streams.all (fun st => (o.stream st).ended) ∨ t.state = .draining then s
  else if due && t.evict.isNone then
    let s := reachCuts c w s
    s.setOwner c w { s.owner c w with parked := true }
  else drainOwner t c w s

/-- What a cut at a tick does (R116, R33). -/
def cutOp (sid k : Nat) : CutKind → Instr
  | .discard => .strandStop sid
  | _ => .strandPark sid (k - 1)

/-- A class cycle of a stalled strand: a park or an eviction takes hold at once, a drain that runs already waits; but for a park the
cycle passes empty. -/
def stalledCycle (sid : Nat) (s : State) : State :=
  let t := s.strand sid
  match t.cut with
  | some (_, k) => if t.state = .draining ∧ k ≠ .discard then emptyCycle sid s else s.push (cutOp sid t.tick k)
  | none => if t.evict.isSome && decide (t.state = .stalled) then (emptyCycle sid s).push (.evictionDrain sid) else emptyCycle sid s

/-- A class cycle of a strand that drains: streams that have left their blocks hold; when everything is complete the save
follows (R118). -/
def drainingCycle (sid : Nat) (s : State) : State :=
  let s := (s.strand sid).slots.foldl (fun s (c, w) => s.setOwner c w ((s.owner c w).mapStreams Stream.settle)) s
  let t := s.strand sid
  if t.doomed && (drained s t || (match t.cut with | some (k, _) => decide (k ≤ t.tick) | none => true)) then s.push (.strandStop sid)
  else if drained s t then s.push (.evictionSave sid)
  else beginTick sid s

/-- A class cycle of a running strand: it ends at a cut, or begins its tick, with an eviction that starts at it. END in this tick beats
a park or an eviction, which waits for the next (R264). -/
noncomputable def runningCycle (sid : Nat) (s : State) : State :=
  let t := s.strand sid
  let asks := match t.evict with | some q => decide (q ≤ t.tick) && atEvictionPoint s t t.tick | none => false
  match cutNow t with
  | some .discard => s.push (.strandStop sid)
  | some kind => if endDue s t then beginTick sid s else s.push (cutOp sid t.tick kind)
  | none => if asks && !endDue s t then beginTick sid (s.push (.evictionDrain sid)) else beginTick sid s

/-- A class cycle of a strand between its fault and its stop: it stops there, or in a stall that cannot end. -/
def stoppingCycle (sid : Nat) (s : State) : State :=
  let t := s.strand sid
  if !t.live ∨ (t.overdue ∧ stallDead s t) then s.push (.strandStop sid)
  else if t.overdue then emptyCycle sid s
  else beginTick sid s

/-- Whether a strand's owners may take part in its ticks, or PARK holds all that have this cycle. -/
def anyRuns (s : State) (t : Strand) : Bool := t.slots.any fun x => ownerRuns s x.1 x.2

/-- A class cycle of a strand. -/
noncomputable def classCycle (sid : Nat) (s : State) : State :=
  let t := s.strand sid
  let cuts := decide (t.state = .running ∨ t.state = .stalled)
  let s := if cuts then t.slots.foldl (ownerCuts t) s else s
  let t := s.strand sid
  if cuts && !t.slots.isEmpty && t.slots.all (fun x => (s.owner x.1 x.2).parked) then s.push (.strandPark sid (t.tick - 1))
  else if cuts && !anyRuns s t && (cutNow t).isNone then s
  else
    let s := if counted s t then watchdog sid s else s
    match t.state with
    | .stopping => if t.primary.isSome then stoppingCycle sid s else s
    | .running | .stalled => if t.overdue then stalledCycle sid s else runningCycle sid s
    | .draining => if t.overdue then stalledCycle sid s else drainingCycle sid s
    | _ => s

/-! ### Energy of a cycle (R169, R170) -/

/-- The strand that holds the present cycle of a core, with its weave id. -/
def holder (s : State) (c : Nat) (k : CoreSt) : Option (Nat × Nat) :=
  match heldBy k s.cycle with
  | none => none
  | some w => (tfind k.owners w).map fun o => (o.sid, w)

/-- Charge a core's cycle to its holder. -/
def chargeHeld (s : State) (x : Nat × CoreSt) : State :=
  match holder s x.1 x.2 with
  | none => s
  | some (sid, w) =>
    let nj := Config.coreEnergy s.free
    let o := s.owner x.1 w
    chargeStrand (s.tick1.setOwner x.1 w { o with energy := o.energy + nj }) sid (1000 * nj)

/-- Every core's cycle is charged: to its holder, or to the operator account. -/
def chargeCycle (s : State) : State :=
  let s := s.cores.foldl chargeHeld s
  chargeOper s.tick1 (1000 * Config.coreEnergy s.free)

/-! ### Cobbler's cycles (R83, R84, R86, R405, R407) -/

/-- Whether a C stream idles in tick `k`: it has ended, holds for an eviction, or does not issue (R83, R154). -/
def Stream.idles (x : Stream) (k : Nat) : Bool := x.ended || x.hold || x.leftBlock || (decide (k < x.next) && !x.stopped)

/-- Idling ticks that Cobbler has taken of the aligned group of 32 in which an owner's tick lies (R84). -/
def takenOf (b : Cobbler) (w : Nat) (o : Owner) : Nat :=
  match tfind b.taken w with
  | some (sid, g, n) => if sid = o.sid ∧ g = o.tick / 32 then n else 0
  | none => 0

/-- Whether Cobbler may issue in an owner's tick that its C stream idles, within FW_SHARE. -/
def idleTick (s : State) (c w : Nat) : Bool :=
  let o := s.owner c w
  (s.strand o.sid).inTick && ownerRuns s c w && o.sc.idles o.tick && decide (takenOf (s.cob c) w o < s.fw.share.toNat) && Config.cobblerTakes s.free

/-- Cobbler takes the cycle: it leaves it unused for an idle count, or issues. -/
def cobIssue (c : Nat) (s : State) : State :=
  let b := s.cob c
  if b.wait ≠ 0 then s.setCob c { b with wait := b.wait - 1 } else { s with issue := s.issue ++ [⟨c, 0, .f⟩] }

/-- Cobbler's share of a cycle of core `c`. -/
def cobCycle (c : Nat) (s : State) : State :=
  let b := s.cob c
  if b.cur.isNone ∨ b.zfill.isSome then s
  else
    match heldBy (s.core c) s.cycle with
    | none => cobIssue c s
    | some w =>
      let o := s.owner c w
      if idleTick s c w then cobIssue c (s.tick1.setCob c { b with taken := tset b.taken w (o.sid, o.tick / 32, takenOf b w o + 1) })
      else s.tick1

/-- The firmware watchdog counts a cycle of an event in hand. -/
def cobWatchdog (c : Nat) (s : State) : State :=
  let b := s.cob c
  let s := s.setCob c { b with wd := b.wd + 1 }
  if max 1 s.fw.limit.toNat ≤ b.wd + 1 then s.push (.firmwareWatchdogExpiry c) else s

/-- One cycle of a core's firmware context: an idle one takes the oldest event. -/
def cobTurn (s : State) (x : Nat × CoreSt) : State :=
  let b := s.cob x.1
  if (s.core x.1).locked then s
  else if b.cur.isNone then (if b.queue.isEmpty then s else s.push (.cobblerEventDispatch x.1))
  else cobCycle x.1 (cobWatchdog x.1 s)

/-! ### The cycle -/

/-- The ticks of a cycle begin, its energy is charged, and Cobbler takes what is left. -/
noncomputable def beginCycle (s : State) : State :=
  let s := (sidsWhere s fun t => onClass s t).foldl (fun s sid => classCycle sid s) s
  let s := chargeCycle s
  s.cores.foldl cobTurn s

/-- The package is dark: nothing but the BMC's power-up reaches it, and no cycle passes (R10, R11). -/
def darkTurn (s : State) : Res :=
  match s.inputs with
  | [] => .fault .dark
  | (_, .powerUpSequence) :: l => .next { s with inputs := l, agenda := [.powerUpSequence] }
  | _ :: l => .next { s with inputs := l }

/-- Trace takes its ports of the cycle, last of all requesters (R199). -/
def traceTurn (s : State) (x : Nat × CoreSt) : State :=
  if x.2.traceTodo.isEmpty then s
  else
    let r := portTurn (cycleOwner s) x.2.traceTodo s
    r.2.setCore x.1 { r.2.core x.1 with traceTodo := r.1 }

/-- The issue of an owner's tick is over: an instruction that gives to a full counter performs nothing after all, and one that it kept from
a bank port issues (R317, R339). -/
def settleOwner (s : State) (x : Nat × Nat) : State := reissueOwner x.1 x.2 (s.owner x.1 x.2) (tokenOverflow x.1 x.2 5 s)

/-- The issue of the ticks of a cycle is over. -/
def settleTokens (s : State) : State :=
  (sidsWhere s (·.inTick)).foldl (fun s sid => ((s.strand sid).slots.filter fun x => ownerRuns s x.1 x.2).foldl settleOwner s) s

/-- Perform the first of what is due. -/
def perform (i : Instr) (l : List Instr) (s : State) : State := { s with due := l }.push i

/-- The operations that are due perform in the order of R216. What an SC operation asks for at the CFE's turn takes its place among the
rest; the CFE posts what it has to post when its turn comes. -/
def performDue (s : State) : State :=
  match s.phase, s.due with
  | 1, i :: l => if agentRank s i = 0 then perform i l s else { s with due := sortBy (agentRank s) s.due, phase := 2 }
  | 2, i :: l => if agentRank s i < cfeRank then perform i l s else flushPosts { s with phase := 3 }
  | 3, i :: l => perform i l s
  | 3, [] => { endCycle (s.cores.foldl traceTurn s) with phase := 4 }
  | _, [] => flushPosts { s with phase := 3 }
  | _, _ :: _ => s

/-- The instructions of a cycle have issued, with those that GEN has held back carried out: what falls due in it is taken up. -/
def issued (s : State) : State :=
  match s.due with
  | i :: l => perform i l s
  | [] =>
    let s := settleTokens s
    if s.issue.isEmpty then { takeDue s with phase := 1 } else s

/-- The next access to a register in this cycle; after the last the switches are made. -/
def accesses (s : State) : State :=
  match s.due with
  | i :: l => perform i l s
  | [] => (takeEarly s).getD { switches s with phase := 5 }

/-- Nothing is left to carry out in this part of the cycle. -/
noncomputable def advance (s : State) : Res :=
  if !s.pwr.on then darkTurn s
  else match s.phase with
    | 0 => .next (issued s)
    | 1 | 2 | 3 => .next (performDue s)
    | 4 => .next (accesses s)
    | 5 => .next { s.pushAll (stallEnds s) with phase := 6 }
    | _ => .next { beginCycle s with phase := 0 }

/-! ### Fetch (R175, R213, R298, R316) -/

/-- What stands at the head of an issue slot: nothing to issue any more; an instruction; what locks the core: a system instruction's
absence of meaning, or parcels of firmware memory that fail their check; an owner's parcels that fail; parcels that do not decode. -/
inductive Fetched where
  | idle
  | instr (i : Instr)
  | lock
  | parity
  | bad

/-- Whether the instruction at an offset has a parcel that fails SEC-DED (R213). -/
def parcelsFail (errs : List Nat) (img : List Parcel) (pc : Nat) : Bool := (List.range (plen img pc)).any fun i => errs.contains (pc + i)

/-- The failing parcels of a stream's section. -/
def Owner.failing (o : Owner) (st : StreamId) : List Nat := (o.imErr.filter fun e => e.1 = streamNum st).map (·.2)

/-- Fetch and decode at the program counter of a slot: a stream that has come to hold since its tick began issues
nothing. -/
noncomputable def fetch (x : Slot) (s : State) : Fetched :=
  match x.str with
  | .f =>
    let b := s.cob x.core
    if (s.core x.core).locked ∨ b.cur.isNone then .idle
    else if parcelsFail b.imErr b.img b.pc then .lock
    else match decode .f (b.img.drop b.pc) with
      | .ok (i, _) => .instr i
      | .error _ => .lock
  | st =>
    let o := s.owner x.core x.wid
    let t := o.stream st
    if !t.ready o.tick then .idle
    else if parcelsFail (o.failing st) t.img t.pc then .parity
    else match decode st (t.img.drop t.pc) with
      | .ok (i, _) => .instr i
      | .error _ => .bad

/-! ### The bank ports of Cobbler (R83, R199) -/

/-- The bytes of the reserved area that an instruction of Cobbler accesses: offset, count, and whether it writes. -/
def cobAccess (b : Cobbler) (i : Instr) : Option (Hd × Nat × Nat × Bool) :=
  let at_ (h : Hd) (r d : BitVec 4) (n : Nat) (wr : Bool) : Option (Hd × Nat × Nat × Bool) := some (h, cobAddr (effAddr (b.xr r) d n) n, n, wr)
  match i with
  | .ldB h _ r d | .ldBu h _ r d => at_ h r d 1 false
  | .ldH h _ r d | .ldHu h _ r d => at_ h r d 2 false
  | .ldW h _ r d | .ldWu h _ r d => at_ h r d 4 false
  | .ldD h _ r d | .ldsD h _ r d => at_ h r d 8 false
  | .stB h _ r d => at_ h r d 1 true
  | .stH h _ r d => at_ h r d 2 true
  | .stW h _ r d => at_ h r d 4 true
  | .stD h _ r d => at_ h r d 8 true
  | .wvset h r _ => some (h, (b.xr r).toNat % 16384, 32, false)
  | _ => none

/-- The ports that an instruction of Cobbler takes, if it is selected. -/
def cobPorts (c : Nat) (i : Instr) (s : State) : List PortReq :=
  let b := s.cob c
  match cobAccess b i with
  | none => []
  | some (h, a, n, wr) =>
    if selects b.p b.blocks h.g then reservedPorts c a n wr else []

/-- Whether the CSE of a core, which goes first, takes the bank of a request in this cycle. -/
def cseFirst (s : State) (p : PortReq) : Bool :=
  let b := s.cob p.core
  match b.cse with
  | none => false
  | some (restore, w, _) => s.timers.any (fun x => decide (x.1 ≤ s.cycle) && decide (x.2 = .cseDone p.core))
      && (b.cseTodo.getD (csePorts p.core restore w s)).any fun q => decide (bankOf q.line = bankOf p.line ∧ q.wr = p.wr)

/-- Issue an instruction of Cobbler, `go`, with the bank ports that it needs; where one is not free it issues again in a later cycle,
and the wait is charged to the owner of the cycle. -/
def withCobPorts (c : Nat) (i : Instr) (go : State → Res) (s : State) : Res :=
  let want := cobPorts c i s
  let busy := want.filter fun p => !portOpen s p || cseFirst s p
  if busy.isEmpty then go (portTurn (cycleOwner s) want s).2
  else .next (busy.foldl (fun s p => match cycleOwner s p with | some (c, w) => loseCycle 9 c w (bankOf p.line) s | none => s) s)

/-! ### A word placed to be run -/

/-- An instruction placed alone: on core 0, weave id 0 holds an owner whose stream (or, for the firmware context, Cobbler)
has the parcels as its image, none of them failing its check, with its slot next to issue, nothing else to carry out, and
no port that Cobbler needs taken. -/
def placeWord (s : State) (st : StreamId) (ps : List Parcel) : State :=
  let k := s.core 0
  let e : CobEvent := { kind := .start, wid := 0, sid := 0, args := [] }
  let b : Cobbler := { k.cob with img := ps, imErr := [], pc := 0, blocks := [], wait := 0, zfill := none, cse := none, cur := some e }
  let o : Owner := { k.owner 0 with imErr := [] }
  let k' : CoreSt :=
    match st with
    | .f => { k with locked := false, table := [], used := (s.cycle, []), cob := b }
    | _ => k.setOwner 0 (o.setStream st { img := ps, next := o.tick })
  { s.setCore 0 k' with agenda := [], issue := [⟨0, 0, st⟩] }

end Sys2Proof.Machine
end

