-- ==== Sys2Proof/Machine/Dispatch.lean ====
section
/-! DEFINITION. The dispatch of an instruction to its meaning, one arm per constructor. -/

namespace Sys2Proof.Machine

-- The meaning of an instruction in a state. It is marked noncomputable because Instr has more constructors than the
-- compiled runtime can tag; the kernel evaluates it.
open Sys2Proof in noncomputable
def exec (i : Instr) (s : State) : Host.Outcome State Fault Refusal :=
  match i with
  | .coldReset => Sys2Proof.Machine.execColdReset s
  | .powerUpSequence => Sys2Proof.Machine.execPowerUpSequence s
  | .railFault => Sys2Proof.Machine.execRailFault s
  | .firmwareBoot => Sys2Proof.Machine.execFirmwareBoot s
  | .junctionSensorRead temps => Sys2Proof.Machine.execJunctionSensorRead temps s
  | .governorRevolution meanMw => Sys2Proof.Machine.execGovernorRevolution meanMw s
  | .ceilingSet ceil => Sys2Proof.Machine.execCeilingSet ceil s
  | .hbPwrCapWrite v => Sys2Proof.Machine.execHbPwrCapWrite v s
  | .hbmRefresh => Sys2Proof.Machine.execHbmRefresh s
  | .hotReset => Sys2Proof.Machine.execHotReset s
  | .mfFlr => Sys2Proof.Machine.execMfFlr s
  | .pfFlr pf => Sys2Proof.Machine.execPfFlr pf s
  | .vfFlr fn => Sys2Proof.Machine.execVfFlr fn s
  | .vfEnableWrite pf en => Sys2Proof.Machine.execVfEnableWrite pf en s
  | .numvfsWrite pf n => Sys2Proof.Machine.execNumvfsWrite pf n s
  | .tdispRequest fn r => Sys2Proof.Machine.execTdispRequest fn r s
  | .ideKeyProgramming stream key => Sys2Proof.Machine.execIdeKeyProgramming stream key s
  | .hostBar2Read fn off len => Sys2Proof.Machine.execHostBar2Read fn off len s
  | .hostBar2Write fn off data ep ide => Sys2Proof.Machine.execHostBar2Write fn off data ep ide s
  | .mfApertureAccess off len wr => Sys2Proof.Machine.execMfApertureAccess off len wr s
  | .undecodedRequest addr => Sys2Proof.Machine.execUndecodedRequest addr s
  | .hostReadCompletionTimeout fn q => Sys2Proof.Machine.execHostReadCompletionTimeout fn q s
  | .msixVectorUnmask fn vec => Sys2Proof.Machine.execMsixVectorUnmask fn vec s
  | .registerWrite fn off size v => Sys2Proof.Machine.execRegisterWrite fn off size v s
  | .hbActDenyRead => Sys2Proof.Machine.execHbActDenyRead s
  | .klkFlitReceive port f => Sys2Proof.Machine.execKlkFlitReceive port f s
  | .klkNakReceive port seq => Sys2Proof.Machine.execKlkNakReceive port seq s
  | .klkAckReceive port seq => Sys2Proof.Machine.execKlkAckReceive port seq s
  | .klkPortTrained port => Sys2Proof.Machine.execKlkPortTrained port s
  | .klkRetrainTimeout port => Sys2Proof.Machine.execKlkRetrainTimeout port s
  | .hbKlkIdWrite v => Sys2Proof.Machine.execHbKlkIdWrite v s
  | .hbKlkRouteWrite dst v => Sys2Proof.Machine.execHbKlkRouteWrite dst v s
  | .routeChangeApply dst => Sys2Proof.Machine.execRouteChangeApply dst s
  | .klkRequestTimeout rid => Sys2Proof.Machine.execKlkRequestTimeout rid s
  | .peerRequestArrival r => Sys2Proof.Machine.execPeerRequestArrival r s
  | .barrierArrival gid gen dev => Sys2Proof.Machine.execBarrierArrival gid gen dev s
  | .barrierRelease gid gen => Sys2Proof.Machine.execBarrierRelease gid gen s
  | .notify fn q v => Sys2Proof.Machine.execNotify fn q v s
  | .queueDisable fn q => Sys2Proof.Machine.execQueueDisable fn q s
  | .queueEnable fn q => Sys2Proof.Machine.execQueueEnable fn q s
  | .packetFetch fn q => Sys2Proof.Machine.execPacketFetch fn q s
  | .nopPacket fn q => Sys2Proof.Machine.execNopPacket fn q s
  | .launchPacket fn q => Sys2Proof.Machine.execLaunchPacket fn q s
  | .waitPacket fn q => Sys2Proof.Machine.execWaitPacket fn q s
  | .signalPacket fn q => Sys2Proof.Machine.execSignalPacket fn q s
  | .copyPacket fn q => Sys2Proof.Machine.execCopyPacket fn q s
  | .invalPacket fn q => Sys2Proof.Machine.execInvalPacket fn q s
  | .waitReread fn q => Sys2Proof.Machine.execWaitReread fn q s
  | .launchAgingStep fn q => Sys2Proof.Machine.execLaunchAgingStep fn q s
  | .copyChunk id => Sys2Proof.Machine.execCopyChunk id s
  | .invalCompletion id => Sys2Proof.Machine.execInvalCompletion id s
  | .packetCompletion id => Sys2Proof.Machine.execPacketCompletion id s
  | .cqEnable fn n v => Sys2Proof.Machine.execCqEnable fn n v s
  | .cqCoalesceTimeout fn n => Sys2Proof.Machine.execCqCoalesceTimeout fn n s
  | .attestationRequest fn nonce => Sys2Proof.Machine.execAttestationRequest fn nonce s
  | .attestationReportWrite fn => Sys2Proof.Machine.execAttestationReportWrite fn s
  | .firmwareWatchdogExpiry core => Sys2Proof.Machine.execFirmwareWatchdogExpiry core s
  | .coreLockout core => Sys2Proof.Machine.execCoreLockout core s
  | .cobblerEventDispatch core => Sys2Proof.Machine.execCobblerEventDispatch core s
  | .meterOpen ix => Sys2Proof.Machine.execMeterOpen ix s
  | .meterSeal ix => Sys2Proof.Machine.execMeterSeal ix s
  | .meterRetire ix => Sys2Proof.Machine.execMeterRetire ix s
  | .meterCheckpoint => Sys2Proof.Machine.execMeterCheckpoint s
  | .meterRecordWrite ix => Sys2Proof.Machine.execMeterRecordWrite ix s
  | .tenantLogRidxWrite cid v => Sys2Proof.Machine.execTenantLogRidxWrite cid v s
  | .meterContinuation => Sys2Proof.Machine.execMeterContinuation s
  | .partitionCreate n v => Sys2Proof.Machine.execPartitionCreate n v s
  | .partitionResize n v => Sys2Proof.Machine.execPartitionResize n v s
  | .partitionRemove n => Sys2Proof.Machine.execPartitionRemove n s
  | .vdCreate => Sys2Proof.Machine.execVdCreate s
  | .vdDestroy => Sys2Proof.Machine.execVdDestroy s
  | .vdCreateIncoming => Sys2Proof.Machine.execVdCreateIncoming s
  | .strandPark sid tick => Sys2Proof.Machine.execStrandPark sid tick s
  | .strandUnpark sid cyc => Sys2Proof.Machine.execStrandUnpark sid cyc s
  | .evictionRequest sid => Sys2Proof.Machine.execEvictionRequest sid s
  | .evictionDrain sid => Sys2Proof.Machine.execEvictionDrain sid s
  | .evictionSave sid => Sys2Proof.Machine.execEvictionSave sid s
  | .strandResume sid => Sys2Proof.Machine.execStrandResume sid s
  | .leaseExpiry sid => Sys2Proof.Machine.execLeaseExpiry sid s
  | .migrationStart => Sys2Proof.Machine.execMigrationStart s
  | .migrationPrecopyRound => Sys2Proof.Machine.execMigrationPrecopyRound s
  | .migrationStop => Sys2Proof.Machine.execMigrationStop s
  | .migrationAbort => Sys2Proof.Machine.execMigrationAbort s
  | .migrationLinkLost => Sys2Proof.Machine.execMigrationLinkLost s
  | .migrationFinalArrival cid img => Sys2Proof.Machine.execMigrationFinalArrival cid img s
  | .postcopyPagePull cid page => Sys2Proof.Machine.execPostcopyPagePull cid page s
  | .postcopyPagePush cid => Sys2Proof.Machine.execPostcopyPagePush cid s
  | .postcopyPageArrival cid page data => Sys2Proof.Machine.execPostcopyPageArrival cid page data s
  | .postcopyPullTimeout cid page => Sys2Proof.Machine.execPostcopyPullTimeout cid page s
  | .admissionAttempt fn q => Sys2Proof.Machine.execAdmissionAttempt fn q s
  | .containerStaging sid => Sys2Proof.Machine.execContainerStaging sid s
  | .startDecision sid => Sys2Proof.Machine.execStartDecision sid s
  | .weaveSwitch core => Sys2Proof.Machine.execWeaveSwitch core s
  | .rephaseSwitch sid => Sys2Proof.Machine.execRephaseSwitch sid s
  | .ownerDepart core wid => Sys2Proof.Machine.execOwnerDepart core wid s
  | .nsclkWrite v => Sys2Proof.Machine.execNsclkWrite v s
  | .transferDispatch tid => Sys2Proof.Machine.execTransferDispatch tid s
  | .pageRequestPost cid => Sys2Proof.Machine.execPageRequestPost cid s
  | .pageDone cid page => Sys2Proof.Machine.execPageDone cid page s
  | .prqEnable cid v => Sys2Proof.Machine.execPrqEnable cid v s
  | .transferLanding tid resp => Sys2Proof.Machine.execTransferLanding tid resp s
  | .remotePutArrival tid => Sys2Proof.Machine.execRemotePutArrival tid s
  | .scOperationPerform tid => Sys2Proof.Machine.execScOperationPerform tid s
  | .syncStallEnd sid => Sys2Proof.Machine.execSyncStallEnd sid s
  | .strandWatchdogExpiry sid => Sys2Proof.Machine.execStrandWatchdogExpiry sid s
  | .resultWriteback core wid => Sys2Proof.Machine.execResultWriteback core wid s
  | .asyncFaultReport tid => Sys2Proof.Machine.execAsyncFaultReport tid s
  | .strandStop sid => Sys2Proof.Machine.execStrandStop sid s
  | .faultRingEnable fn v => Sys2Proof.Machine.execFaultRingEnable fn v s
  | .debugHalt cid => Sys2Proof.Machine.execDebugHalt cid s
  | .debugResume cid => Sys2Proof.Machine.execDebugResume cid s
  | .breakpointSet cid => Sys2Proof.Machine.execBreakpointSet cid s
  | .breakpointClear cid => Sys2Proof.Machine.execBreakpointClear cid s
  | .debugDump cid => Sys2Proof.Machine.execDebugDump cid s
  | .debugRelease cid => Sys2Proof.Machine.execDebugRelease cid s
  | .traceEnable cid v => Sys2Proof.Machine.execTraceEnable cid v s
  | .cseDone core => Sys2Proof.Machine.execCseDone core s
  | .xphyDone core n => Sys2Proof.Machine.execXphyDone core n s
  | .rcRegisterRead fn off => Sys2Proof.Machine.execRcRegisterRead fn off s
  | .pcieLinkTraining gen width flit => Sys2Proof.Machine.execPcieLinkTraining gen width flit s
  | .klkPortDown port => Sys2Proof.Machine.execKlkPortDown port s
  | .zfillZeroed core => Sys2Proof.Machine.execZfillZeroed core s
  | .postcopySourceFree cid => Sys2Proof.Machine.execPostcopySourceFree cid s
  | .blockHeader len cs stg cnt => Sys2Proof.Machine.execBlockHeader len cs stg cnt s
  | .nop h => Sys2Proof.Machine.execNop h s
  | .endS h => Sys2Proof.Machine.execEndS h s
  | .idle h k => Sys2Proof.Machine.execIdle h k s
  | .join h k => Sys2Proof.Machine.execJoin h k s
  | .sync h a k => Sys2Proof.Machine.execSync h a k s
  | .mark h k => Sys2Proof.Machine.execMark h k s
  | .inc h a => Sys2Proof.Machine.execInc h a s
  | .dec h a => Sys2Proof.Machine.execDec h a s
  | .neg h a => Sys2Proof.Machine.execNeg h a s
  | .not h a => Sys2Proof.Machine.execNot h a s
  | .clr h a => Sys2Proof.Machine.execClr h a s
  | .pclr h a => Sys2Proof.Machine.execPclr h a s
  | .pset h a => Sys2Proof.Machine.execPset h a s
  | .pnot h a => Sys2Proof.Machine.execPnot h a s
  | .rdtk h a => Sys2Proof.Machine.execRdtk h a s
  | .add h a b c => Sys2Proof.Machine.execAdd h a b c s
  | .sub h a b c => Sys2Proof.Machine.execSub h a b c s
  | .and h a b c => Sys2Proof.Machine.execAnd h a b c s
  | .or h a b c => Sys2Proof.Machine.execOr h a b c s
  | .xor h a b c => Sys2Proof.Machine.execXor h a b c s
  | .shl h a b c => Sys2Proof.Machine.execShl h a b c s
  | .shr h a b c => Sys2Proof.Machine.execShr h a b c s
  | .sar h a b c => Sys2Proof.Machine.execSar h a b c s
  | .mul h a b c => Sys2Proof.Machine.execMul h a b c s
  | .mulh h a b c => Sys2Proof.Machine.execMulh h a b c s
  | .mulhu h a b c => Sys2Proof.Machine.execMulhu h a b c s
  | .min h a b c => Sys2Proof.Machine.execMin h a b c s
  | .max h a b c => Sys2Proof.Machine.execMax h a b c s
  | .minu h a b c => Sys2Proof.Machine.execMinu h a b c s
  | .maxu h a b c => Sys2Proof.Machine.execMaxu h a b c s
  | .rotl h a b c => Sys2Proof.Machine.execRotl h a b c s
  | .rotr h a b c => Sys2Proof.Machine.execRotr h a b c s
  | .div h a b c => Sys2Proof.Machine.execDiv h a b c s
  | .divu h a b c => Sys2Proof.Machine.execDivu h a b c s
  | .rem h a b c => Sys2Proof.Machine.execRem h a b c s
  | .remu h a b c => Sys2Proof.Machine.execRemu h a b c s
  | .clz h a b => Sys2Proof.Machine.execClz h a b s
  | .ctz h a b => Sys2Proof.Machine.execCtz h a b s
  | .popc h a b => Sys2Proof.Machine.execPopc h a b s
  | .abs h a b => Sys2Proof.Machine.execAbs h a b s
  | .sextB h a b => Sys2Proof.Machine.execSextB h a b s
  | .sextH h a b => Sys2Proof.Machine.execSextH h a b s
  | .sextW h a b => Sys2Proof.Machine.execSextW h a b s
  | .zextB h a b => Sys2Proof.Machine.execZextB h a b s
  | .zextH h a b => Sys2Proof.Machine.execZextH h a b s
  | .zextW h a b => Sys2Proof.Machine.execZextW h a b s
  | .bswap h a b => Sys2Proof.Machine.execBswap h a b s
  | .sel h sf a b c => Sys2Proof.Machine.execSel h sf a b c s
  | .csel h sf a b c => Sys2Proof.Machine.execCsel h sf a b c s
  | .ceq h a b c => Sys2Proof.Machine.execCeq h a b c s
  | .cne h a b c => Sys2Proof.Machine.execCne h a b c s
  | .clt h a b c => Sys2Proof.Machine.execClt h a b c s
  | .cltu h a b c => Sys2Proof.Machine.execCltu h a b c s
  | .cle h a b c => Sys2Proof.Machine.execCle h a b c s
  | .cleu h a b c => Sys2Proof.Machine.execCleu h a b c s
  | .addi h a k => Sys2Proof.Machine.execAddi h a k s
  | .andi h a k => Sys2Proof.Machine.execAndi h a k s
  | .ori h a k => Sys2Proof.Machine.execOri h a k s
  | .xori h a k => Sys2Proof.Machine.execXori h a k s
  | .shli h a k => Sys2Proof.Machine.execShli h a k s
  | .shri h a k => Sys2Proof.Machine.execShri h a k s
  | .sari h a k => Sys2Proof.Machine.execSari h a k s
  | .ceqi h a p k => Sys2Proof.Machine.execCeqi h a p k s
  | .clti h a p k => Sys2Proof.Machine.execClti h a p k s
  | .cltui h a p k => Sys2Proof.Machine.execCltui h a p k s
  | .movi h a k => Sys2Proof.Machine.execMovi h a k s
  | .movh h a k => Sys2Proof.Machine.execMovh h a k s
  | .ldB h a b d => Sys2Proof.Machine.execLdB h a b d s
  | .ldBu h a b d => Sys2Proof.Machine.execLdBu h a b d s
  | .ldH h a b d => Sys2Proof.Machine.execLdH h a b d s
  | .ldHu h a b d => Sys2Proof.Machine.execLdHu h a b d s
  | .ldW h a b d => Sys2Proof.Machine.execLdW h a b d s
  | .ldWu h a b d => Sys2Proof.Machine.execLdWu h a b d s
  | .ldD h a b d => Sys2Proof.Machine.execLdD h a b d s
  | .ldsD h a b d => Sys2Proof.Machine.execLdsD h a b d s
  | .stB h a b d => Sys2Proof.Machine.execStB h a b d s
  | .stH h a b d => Sys2Proof.Machine.execStH h a b d s
  | .stW h a b d => Sys2Proof.Machine.execStW h a b d s
  | .stD h a b d => Sys2Proof.Machine.execStD h a b d s
  | .rdl h a k => Sys2Proof.Machine.execRdl h a k s
  | .rds h a k => Sys2Proof.Machine.execRds h a k s
  | .setlc h a b => Sys2Proof.Machine.execSetlc h a b s
  | .ags h a b c => Sys2Proof.Machine.execAgs h a b c s
  | .pute h a b => Sys2Proof.Machine.execPute h a b s
  | .fmt h b => Sys2Proof.Machine.execFmt h b s
  | .pand h a b c => Sys2Proof.Machine.execPand h a b c s
  | .por h a b c => Sys2Proof.Machine.execPor h a b c s
  | .pxor h a b c => Sys2Proof.Machine.execPxor h a b c s
  | .pmov h a b => Sys2Proof.Machine.execPmov h a b s
  | .trap h a k => Sys2Proof.Machine.execTrap h a k s
  | .claim h oa n => Sys2Proof.Machine.execClaim h oa n s
  | .release h oa n => Sys2Proof.Machine.execRelease h oa n s
  | .ldta h oa ag => Sys2Proof.Machine.execLdta h oa ag s
  | .ldtb h oa ag => Sys2Proof.Machine.execLdtb h oa ag s
  | .lde h oa ag => Sys2Proof.Machine.execLde h oa ag s
  | .ldtf h oa ag n => Sys2Proof.Machine.execLdtf h oa ag n s
  | .ldvW h a ag => Sys2Proof.Machine.execLdvW h a ag s
  | .ldvH h a ag => Sys2Proof.Machine.execLdvH h a ag s
  | .ldvHu h a ag => Sys2Proof.Machine.execLdvHu h a ag s
  | .ldvB h a ag => Sys2Proof.Machine.execLdvB h a ag s
  | .ldvBu h a ag => Sys2Proof.Machine.execLdvBu h a ag s
  | .ldvrW h a ag => Sys2Proof.Machine.execLdvrW h a ag s
  | .ldvcW h a ag => Sys2Proof.Machine.execLdvcW h a ag s
  | .ldg h a b ag band => Sys2Proof.Machine.execLdg h a b ag band s
  | .mma h oa n => Sys2Proof.Machine.execMma h oa n s
  | .mmaw h oa n => Sys2Proof.Machine.execMmaw h oa n s
  | .radv h => Sys2Proof.Machine.execRadv h s
  | .rskip h => Sys2Proof.Machine.execRskip h s
  | .tcfg h oa w => Sys2Proof.Machine.execTcfg h oa w s
  | .teval h oa => Sys2Proof.Machine.execTeval h oa s
  | .tmask h k => Sys2Proof.Machine.execTmask h k s
  | .tclr h => Sys2Proof.Machine.execTclr h s
  | .mclr h => Sys2Proof.Machine.execMclr h s
  | .wrs h a k => Sys2Proof.Machine.execWrs h a k s
  | .rdsp h a k => Sys2Proof.Machine.execRdsp h a k s
  | .eret h => Sys2Proof.Machine.execEret h s
  | .waitev h a b => Sys2Proof.Machine.execWaitev h a b s
  | .wvset h b c => Sys2Proof.Machine.execWvset h b c s
  | .cse h a b c => Sys2Proof.Machine.execCse h a b c s
  | .zfill h a b => Sys2Proof.Machine.execZfill h a b s
  | .park h a b c => Sys2Proof.Machine.execPark h a b c s
  | .unpark h a b c => Sys2Proof.Machine.execUnpark h a b c s
  | .xphy h e cls p => Sys2Proof.Machine.execXphy h e cls p s
  | .stvW h a ag => Sys2Proof.Machine.execStvW h a ag s
  | .stvH h a ag => Sys2Proof.Machine.execStvH h a ag s
  | .stvHs h a ag => Sys2Proof.Machine.execStvHs h a ag s
  | .stvB h a ag => Sys2Proof.Machine.execStvB h a ag s
  | .stvBs h a ag => Sys2Proof.Machine.execStvBs h a ag s
  | .stvc h a ag sf m => Sys2Proof.Machine.execStvc h a ag sf m s
  | .xrd h e ag cls p => Sys2Proof.Machine.execXrd h e ag cls p s
  | .xrdSp h e ag cls p => Sys2Proof.Machine.execXrdSp h e ag cls p s
  | .xrdm h e ag cls p => Sys2Proof.Machine.execXrdm h e ag cls p s
  | .xwr h e ag cls p => Sys2Proof.Machine.execXwr h e ag cls p s
  | .xwrZ h e ag cls p => Sys2Proof.Machine.execXwrZ h e ag cls p s
  | .xput h e ag cls p => Sys2Proof.Machine.execXput h e ag cls p s
  | .xget h e ag cls p => Sys2Proof.Machine.execXget h e ag cls p s
  | .xsumF h e ag cls p => Sys2Proof.Machine.execXsumF h e ag cls p s
  | .xsumI h e ag cls p => Sys2Proof.Machine.execXsumI h e ag cls p s
  | .xatAdd h e ag cls p => Sys2Proof.Machine.execXatAdd h e ag cls p s
  | .xatSwp h e ag cls p => Sys2Proof.Machine.execXatSwp h e ag cls p s
  | .xatCas h e ag cls p => Sys2Proof.Machine.execXatCas h e ag cls p s
  | .xatMax h e ag cls p => Sys2Proof.Machine.execXatMax h e ag cls p s
  | .xatMin h e ag cls p => Sys2Proof.Machine.execXatMin h e ag cls p s
  | .xatAnd h e ag cls p => Sys2Proof.Machine.execXatAnd h e ag cls p s
  | .xatOr h e ag cls p => Sys2Proof.Machine.execXatOr h e ag cls p s
  | .xatXor h e ag cls p => Sys2Proof.Machine.execXatXor h e ag cls p s
  | .xscLd h e ag cls p => Sys2Proof.Machine.execXscLd h e ag cls p s
  | .xscSt h e ag cls p => Sys2Proof.Machine.execXscSt h e ag cls p s
  | .xscAdd h e ag cls p => Sys2Proof.Machine.execXscAdd h e ag cls p s
  | .xscSwp h e ag cls p => Sys2Proof.Machine.execXscSwp h e ag cls p s
  | .xscCas h e ag cls p => Sys2Proof.Machine.execXscCas h e ag cls p s
  | .xscMax h e ag cls p => Sys2Proof.Machine.execXscMax h e ag cls p s
  | .fence h k => Sys2Proof.Machine.execFence h k s
  | .xpop h a cls => Sys2Proof.Machine.execXpop h a cls s
  | .xpeek h a cls => Sys2Proof.Machine.execXpeek h a cls s
  | .vzero h a => Sys2Proof.Machine.execVzero h a s
  | .vfadd h a b c => Sys2Proof.Machine.execVfadd h a b c s
  | .vfsub h a b c => Sys2Proof.Machine.execVfsub h a b c s
  | .vfmul h a b c => Sys2Proof.Machine.execVfmul h a b c s
  | .vfma h a b c => Sys2Proof.Machine.execVfma h a b c s
  | .vfms h a b c => Sys2Proof.Machine.execVfms h a b c s
  | .vfnma h a b c => Sys2Proof.Machine.execVfnma h a b c s
  | .vfnms h a b c => Sys2Proof.Machine.execVfnms h a b c s
  | .vfdiv h a b c => Sys2Proof.Machine.execVfdiv h a b c s
  | .vfmin h a b c => Sys2Proof.Machine.execVfmin h a b c s
  | .vfmax h a b c => Sys2Proof.Machine.execVfmax h a b c s
  | .vfabs h a b => Sys2Proof.Machine.execVfabs h a b s
  | .vfneg h a b => Sys2Proof.Machine.execVfneg h a b s
  | .vffloor h a b => Sys2Proof.Machine.execVffloor h a b s
  | .vfround h a b => Sys2Proof.Machine.execVfround h a b s
  | .vfclass h a b => Sys2Proof.Machine.execVfclass h a b s
  | .vfrcp h a b => Sys2Proof.Machine.execVfrcp h a b s
  | .vfsqrt h a b => Sys2Proof.Machine.execVfsqrt h a b s
  | .vfrsq h a b => Sys2Proof.Machine.execVfrsq h a b s
  | .vfexp2 h a b => Sys2Proof.Machine.execVfexp2 h a b s
  | .vflog2 h a b => Sys2Proof.Machine.execVflog2 h a b s
  | .vftanh h a b => Sys2Proof.Machine.execVftanh h a b s
  | .vfsigm h a b => Sys2Proof.Machine.execVfsigm h a b s
  | .vadd h a b c => Sys2Proof.Machine.execVadd h a b c s
  | .vsub h a b c => Sys2Proof.Machine.execVsub h a b c s
  | .vadds h a b c => Sys2Proof.Machine.execVadds h a b c s
  | .vsubs h a b c => Sys2Proof.Machine.execVsubs h a b c s
  | .vmul h a b c => Sys2Proof.Machine.execVmul h a b c s
  | .vmulh h a b c => Sys2Proof.Machine.execVmulh h a b c s
  | .vmin h a b c => Sys2Proof.Machine.execVmin h a b c s
  | .vmax h a b c => Sys2Proof.Machine.execVmax h a b c s
  | .vminu h a b c => Sys2Proof.Machine.execVminu h a b c s
  | .vmaxu h a b c => Sys2Proof.Machine.execVmaxu h a b c s
  | .vabs h a b => Sys2Proof.Machine.execVabs h a b s
  | .vand h a b c => Sys2Proof.Machine.execVand h a b c s
  | .vor h a b c => Sys2Proof.Machine.execVor h a b c s
  | .vxor h a b c => Sys2Proof.Machine.execVxor h a b c s
  | .vnot h a b => Sys2Proof.Machine.execVnot h a b s
  | .vshl h a b c => Sys2Proof.Machine.execVshl h a b c s
  | .vshr h a b c => Sys2Proof.Machine.execVshr h a b c s
  | .vsar h a b c => Sys2Proof.Machine.execVsar h a b c s
  | .vshli h a b k => Sys2Proof.Machine.execVshli h a b k s
  | .vshri h a b k => Sys2Proof.Machine.execVshri h a b k s
  | .vsari h a b k => Sys2Proof.Machine.execVsari h a b k s
  | .vpopc h a b => Sys2Proof.Machine.execVpopc h a b s
  | .vclz h a b => Sys2Proof.Machine.execVclz h a b s
  | .vctz h a b => Sys2Proof.Machine.execVctz h a b s
  | .vclmulL h a b c => Sys2Proof.Machine.execVclmulL h a b c s
  | .vclmulH h a b c => Sys2Proof.Machine.execVclmulH h a b c s
  | .vdot2Bf h a b c => Sys2Proof.Machine.execVdot2Bf h a b c s
  | .vdot4I8 h a b c => Sys2Proof.Machine.execVdot4I8 h a b c s
  | .vfcmpEq h a b c => Sys2Proof.Machine.execVfcmpEq h a b c s
  | .vfcmpNe h a b c => Sys2Proof.Machine.execVfcmpNe h a b c s
  | .vfcmpLt h a b c => Sys2Proof.Machine.execVfcmpLt h a b c s
  | .vfcmpLe h a b c => Sys2Proof.Machine.execVfcmpLe h a b c s
  | .vfcmpUn h a b c => Sys2Proof.Machine.execVfcmpUn h a b c s
  | .vcmpEq h a b c => Sys2Proof.Machine.execVcmpEq h a b c s
  | .vcmpNe h a b c => Sys2Proof.Machine.execVcmpNe h a b c s
  | .vcmpLt h a b c => Sys2Proof.Machine.execVcmpLt h a b c s
  | .vcmpLe h a b c => Sys2Proof.Machine.execVcmpLe h a b c s
  | .vcmpLtu h a b c => Sys2Proof.Machine.execVcmpLtu h a b c s
  | .vcmpLeu h a b c => Sys2Proof.Machine.execVcmpLeu h a b c s
  | .vmov h a b => Sys2Proof.Machine.execVmov h a b s
  | .vspl h a b => Sys2Proof.Machine.execVspl h a b s
  | .vimm h a k => Sys2Proof.Machine.execVimm h a k s
  | .vsel h a b c sf m => Sys2Proof.Machine.execVsel h a b c sf m s
  | .mand h a b c => Sys2Proof.Machine.execMand h a b c s
  | .mor h a b c => Sys2Proof.Machine.execMor h a b c s
  | .mxor h a b c => Sys2Proof.Machine.execMxor h a b c s
  | .mnot h a b => Sys2Proof.Machine.execMnot h a b s
  | .vany h a b => Sys2Proof.Machine.execVany h a b s
  | .vall h a b => Sys2Proof.Machine.execVall h a b s
  | .vlam h b => Sys2Proof.Machine.execVlam h b s
  | .vmpack h a b => Sys2Proof.Machine.execVmpack h a b s
  | .vmunpk h a b => Sys2Proof.Machine.execVmunpk h a b s
  | .vcvtFi h a b => Sys2Proof.Machine.execVcvtFi h a b s
  | .vcvtIf h a b => Sys2Proof.Machine.execVcvtIf h a b s
  | .vcvtFb h a b => Sys2Proof.Machine.execVcvtFb h a b s
  | .vcvtBf h a b => Sys2Proof.Machine.execVcvtBf h a b s
  | .vcvtFk h a b => Sys2Proof.Machine.execVcvtFk h a b s
  | .vquant h a b e sf => Sys2Proof.Machine.execVquant h a b e sf s
  | .vqexp h a b e sf => Sys2Proof.Machine.execVqexp h a b e sf s
  | .vrotR h a b p k => Sys2Proof.Machine.execVrotR h a b p k s
  | .vrotC h a b p k => Sys2Proof.Machine.execVrotC h a b p k s
  | .vbcR h a b p k => Sys2Proof.Machine.execVbcR h a b p k s
  | .vbcC h a b p k => Sys2Proof.Machine.execVbcC h a b p k s
  | .vpermR h a b c p => Sys2Proof.Machine.execVpermR h a b c p s
  | .vpermC h a b c p => Sys2Proof.Machine.execVpermC h a b c p s
  | .vredRFadd h a b p => Sys2Proof.Machine.execVredRFadd h a b p s
  | .vredRIadd h a b p => Sys2Proof.Machine.execVredRIadd h a b p s
  | .vredRXor h a b p => Sys2Proof.Machine.execVredRXor h a b p s
  | .vredRMax h a b p => Sys2Proof.Machine.execVredRMax h a b p s
  | .vredRMin h a b p => Sys2Proof.Machine.execVredRMin h a b p s
  | .vredCFadd h a b p => Sys2Proof.Machine.execVredCFadd h a b p s
  | .vredCIadd h a b p => Sys2Proof.Machine.execVredCIadd h a b p s
  | .vredCXor h a b p => Sys2Proof.Machine.execVredCXor h a b p s
  | .vredCMax h a b p => Sys2Proof.Machine.execVredCMax h a b p s
  | .vredCMin h a b p => Sys2Proof.Machine.execVredCMin h a b p s
  | .vscanRFadd h a b p => Sys2Proof.Machine.execVscanRFadd h a b p s
  | .vscanRIadd h a b p => Sys2Proof.Machine.execVscanRIadd h a b p s
  | .vscanRXor h a b p => Sys2Proof.Machine.execVscanRXor h a b p s
  | .vscanCFadd h a b p => Sys2Proof.Machine.execVscanCFadd h a b p s
  | .vscanCIadd h a b p => Sys2Proof.Machine.execVscanCIadd h a b p s
  | .vscanCXor h a b p => Sys2Proof.Machine.execVscanCXor h a b p s
  | .vcpr h a b sf m => Sys2Proof.Machine.execVcpr h a b sf m s
  | .vidx h a => Sys2Proof.Machine.execVidx h a s
  | .rpop h a k => Sys2Proof.Machine.execRpop h a k s
  | .rfree h => Sys2Proof.Machine.execRfree h s
  | .vbrev h a b => Sys2Proof.Machine.execVbrev h a b s

end Sys2Proof.Machine
end

