-- ==== Sys2Proof/Machine/Step.lean ====
section
/-! DEFINITION. One step of the machine: the oldest operation that is to be carried out; else the next instruction that
issues in this cycle; else time passes (Clock). -/

namespace Sys2Proof.Machine

/-- Issue the instruction that stands at the head of a slot's stream, or of Cobbler. -/
noncomputable def issueSlot (x : Slot) (l : List Slot) (s : State) : Host.Outcome State Fault Refusal :=
  let s := { s with issue := l, cur := x }
  match fetch x s with
  | .idle => .next s
  | .instr i => if x.str = .f then withCobPorts x.core i (exec i) s else exec i s
  | .lock => .next (lockCore x.core s)
  | .parity => .next (raise { cause := .operandParity } s)
  | .bad => .fault .undecodable

/-- One step. -/
noncomputable def step (s : State) : Host.Outcome State Fault Refusal :=
  match s.agenda, s.issue with
  | i :: l, _ => exec i { s with agenda := l }
  | [], x :: l => issueSlot x l s
  | [], [] => advance s

/-- The state with one instruction placed where the next step fetches: weave id 0 of core 0 has an owner whose stream, the one
on which the decoder reads the word, holds it, and that stream issues next. It stands for a LAUNCH that has been staged
and has reached the tick: DESIGN CHOICE (log entry 3). -/
noncomputable def State.withFetchWord (s : State) (nbits w : Nat) : State := placeWord s (tableStream nbits w) (bytesParcels (tableBytes nbits w))

end Sys2Proof.Machine
end

