-- ==== Sys2Proof/Safety.lean ====
section
/-! DEFINITION. What claims are stated in: the canonical form of the memories, the legal settings of the package's clock
governor, what a step answers, and the states that steps reach. -/

namespace Sys2Proof

open Machine

/-- The memories of a core are in canonical form. -/
def Machine.CoreSt.memWf (k : CoreSt) : Bool := cwf k.win && cwf k.om && cwf k.ring && cwf k.vreg

/-- Device memory, host memory and every core's memories are in canonical form: addresses strictly rising, and no entry
that holds what an unlisted address reads as. -/
def Machine.State.memWf (s : State) : Bool := cwf s.mem && cwf s.host && s.cores.all fun x => x.2.memWf

/-- The settings of the clock governor are among those that R16, R18 and R19 give: the frequency step and the ceiling
step at most 13, the cap as written and the cap in force between 500 and 2000 W. -/
def Machine.Power.legal (p : Power) : Bool :=
  decide (p.step.toNat ≤ Config.maxStep) && decide (p.ceil.toNat ≤ Config.maxStep)
    && decide (500 ≤ p.cap.toNat ∧ p.cap.toNat ≤ 2000) && decide (500 ≤ p.capNow.toNat ∧ p.capNow.toNat ≤ 2000)

/-- An outcome is a next state of which `P` holds, if it is a next state at all. -/
def After (r : Res) (P : State → Prop) : Prop := ∀ t, r = .next t → P t

/-- A step does not stop the machine. -/
def Goes (r : Res) : Prop := ∃ t, r = .next t

/-- The states that steps reach from a state. -/
inductive Reaches : State → State → Prop where
  | refl (s : State) : Reaches s s
  | step {s t u : State} (h : Machine.step s = .next t) (r : Reaches t u) : Reaches s u

/-- The bank ports that a request needs are free in the present cycle, with no requester that goes before it, and no two of them are one
port (R199). -/
def Machine.PortsFree (s : State) (l : List PortReq) : Prop :=
  l.Pairwise (fun a b => (a.core, bankOf a.line, a.wr) ≠ (b.core, bankOf b.line, b.wr))
    ∧ ∀ p ∈ l, portOpen s p = true

/-- Every step from a state that `P` holds of answers a next state that it holds of, if it answers one. -/
def Kept (P : State → Prop) : Prop := ∀ s, P s → After (Machine.step s) P

/-! ### What an instruction of an owner's stream does -/

/-- What the issue of an instruction needs before the instruction's own checks: the slot is an owner's; every token
counter that it takes from is above 0 (R184); the guard of a guarded format holds (R181). -/
structure Machine.Ready (s : State) (h : Hd) (guarded : Bool) : Prop where
  slot : s.cur.str ≠ .f
  tokens : ∀ c ∈ tokenTakes (streamNum s.cur.str) h.tok, cget s.curOwner.tok c ≠ 0
  guard : guarded = true → selects s.curOwner.p (s.curOwner.stream s.cur.str).blocks h.g = true

/-- The state after an instruction has performed: its stream has moved past it, idle count and occupancy spent; its
effects wait for their due ticks, by delay from the issue tick, with its token operations and the records of a block's
exit; and the bank ports it took in this tick are taken. Nothing else changes. -/
def Machine.performed (h : Hd) (occ : Nat) (effs : List (Nat × Effect)) (ports : List Port) (s : State) : State :=
  let o := s.curOwner
  let st := s.cur.str
  let t := o.stream st
  let t' := t.advance o.tick h.idle.toNat occ
  let o' := o.setStream st t'
  s.setCurOwner
    { o' with
      pend := o'.pend ++ pendOf o.tick st (t.loc st 0) (effs ++ (tokenEffects (streamNum st) h.tok ++ exitEffects t t'))
      ports := o'.ports ++ portsFor st ports }

/-- Instruction `i`, once it may issue, performs with these effects and bank ports. -/
def Machine.Does (i : Instr) (h : Hd) (guarded : Bool) (occ : Nat) (effs : List (Nat × Effect)) (ports : List Port)
    (s : State) : Prop :=
  Ready s h guarded → exec i s = .next (performed h occ effs ports s)

/-- Instruction `i`, once it may issue, faults: its stream stops with it as its head, and the strand has the fault. -/
def Machine.Faults (i : Instr) (h : Hd) (guarded : Bool) (b : Bad) (s : State) : Prop :=
  Ready s h guarded → exec i s = .next (raiseGiving (tokenGives (streamNum s.cur.str) h.tok) b s)

/-- The opcode fields OP7 of instructions in the long form (R300). -/
def opcodesOf (l : List Instr) : List (BitVec 7) := l.map fun i => (i.encode.headD 0).extractLsb' 8 7

/-! ### Values of scalar results -/

/-- A result of two registers: the first poisoned one, else the value (R192). -/
def Machine.ofTwo (f : W64 → W64 → W64) (x y : XReg) : XReg :=
  if x.poison then x else if y.poison then y else { val := f x.val y.val, poison := false }

/-- A result of one register: it stays poisoned, else the value (R192). -/
def Machine.ofOne (f : W64 → W64) (x : XReg) : XReg := if x.poison then x else { val := f x.val, poison := false }

/-- A value that is never poisoned. -/
def Machine.pure64 (v : W64) : XReg := { val := v, poison := false }

/-- A three-register instruction writes x[A] `lat` ticks after its issue. -/
def Machine.Alu3 (mk : Hd → BitVec 4 → BitVec 4 → BitVec 4 → Instr) (lat : Nat) (f : W64 → W64 → W64) : Prop :=
  ∀ h a b c s, Does (mk h a b c) h true 1 [(lat, .x a (ofTwo f (rx s.curOwner b) (rx s.curOwner c)))] [] s

/-- A two-register instruction writes x[A] in the next tick. -/
def Machine.Alu2 (mk : Hd → BitVec 4 → BitVec 4 → Instr) (f : W64 → W64) : Prop :=
  ∀ h a b s, Does (mk h a b) h true 1 [(1, .x a (ofOne f (rx s.curOwner b)))] [] s

/-- A short form writes x[A] from x[A] in the next tick; it has no guard. -/
def Machine.Alu1 (mk : Hd → BitVec 4 → Instr) (f : W64 → W64) : Prop :=
  ∀ h a s, Does (mk h a) h false 1 [(1, .x a (ofOne f (rx s.curOwner a)))] [] s

/-- An instruction with a constant of `n` bits writes x[A] from x[A] in the next tick. -/
def Machine.AluImm {n : Nat} (mk : Hd → BitVec 4 → BitVec n → Instr) (guarded : Bool) (f : BitVec n → W64 → W64) : Prop :=
  ∀ h a k s, Does (mk h a k) h guarded 1 [(1, .x a (ofOne (f k) (rx s.curOwner a)))] [] s

/-- A compare of two registers writes P(A) in the next tick; a poisoned source makes it 0 (R325). -/
def Machine.Cmp3 (mk : Hd → BitVec 3 → BitVec 4 → BitVec 4 → Instr) (f : W64 → W64 → Bool) : Prop :=
  ∀ h a b c s, Does (mk h a b c) h true 1
    [(1, .pred a (!(rx s.curOwner b).poison && !(rx s.curOwner c).poison
        && f (rx s.curOwner b).val (rx s.curOwner c).val))] [] s

/-- A compare with a constant (R326). -/
def Machine.CmpImm (mk : Hd → BitVec 4 → BitVec 3 → BitVec 5 → Instr) (f : W64 → BitVec 5 → Bool) : Prop :=
  ∀ h a p k s, Does (mk h a p k) h true 1
    [(1, .pred p (!(rx s.curOwner a).poison && f (rx s.curOwner a).val k))] [] s

/-! ### Conditions of the memories of a core -/

/-- An access to these lines of the window meets no bank conflict (R198): no two of them lie in one bank, and no port
that it needs is taken in this tick; reads of one line share a port. -/
structure Machine.BanksFree (o : Owner) (lines : List Nat) (wr : Bool) : Prop where
  apart : lines.Pairwise fun a b => a % 32 ≠ b % 32
  free : ∀ l ∈ lines, ∀ p ∈ o.ports, p.wr = wr → p.line % 32 = l % 32 → wr = false ∧ p.line = l

/-- These lines of the window hold no word that fails SEC-DED and no poison (R213, R214). -/
def Machine.LinesGood (k : CoreSt) (o : Owner) (lines : List Nat) : Prop :=
  ∀ l ∈ lines, (∀ w ∈ k.winErr, w / 8 ≠ (o.winBase + 64 * l) / 64) ∧ (o.winBase + 64 * l) / 64 ∉ k.winPoison

/-- The ports of an access to these lines. -/
def Machine.linesPorts (lines : List Nat) (wr : Bool) : List Port := lines.map fun l => { line := l, wr := wr }

/-- Every row of a pattern lies in the owner's window (R197, R203). -/
def Machine.InWindow (o : Owner) (g : Ag) : Prop :=
  ∀ i, i = 0 ∨ i = g.cnt1.toNat - 1 → 0 ≤ g.row i ∧ g.row i + g.len0.toNat ≤ o.winSize

/-- The pattern has rows of `len0` bytes, `cnt1` of them (R203). -/
def Machine.Shaped (g : Ag) (len0 cnt1 : Nat) : Prop := g.len0.toNat = len0 ∧ g.cnt1.toNat = cnt1

/-- The owner has claimed slots o[a] to o[a + n - 1] (R340). -/
def Machine.HasSlots (o : Owner) (a n : Nat) : Prop := ∀ i < n, o.claims.getLsbD (a + i) = true

/-- No byte [lo, lo + n) of slot o[i] fails its parity (R202). -/
def Machine.SlotGood (k : CoreSt) (o : Owner) (i lo n : Nat) : Prop :=
  ∀ a ∈ k.omErr, ¬ (omPhys o i * 2112 + lo ≤ a ∧ a < omPhys o i * 2112 + lo + n)

/-- No byte of v[r] in a lane of `act` fails its parity (R202, R339). -/
def Machine.LanesGood (k : CoreSt) (o : Owner) (r : BitVec 4) (act : LaneMask) : Prop :=
  ∀ b ∈ k.vErr, ¬ (b / 4096 = o.vbase + r.toNat ∧ act.getLsbD (b % 4096 / 4) = true)

/-- No byte of m[r] fails its parity. -/
def Machine.MaskGood (o : Owner) (r : BitVec 3) : Prop := ∀ b ∈ o.mErr, b / 128 ≠ r.toNat

/-- A load reads its bytes at x[B] + D·size and writes x[A] four ticks after its issue (R328). -/
def Machine.Loads (mk : Hd → BitVec 4 → BitVec 4 → BitVec 4 → Instr) (size : Nat) (ext : Nat → W64) : Prop :=
  ∀ h a b d s,
    let o := s.curOwner
    let ea := ((rx o b).val.toNat + d.toNat * size) % 2 ^ 64
    (rx o b).poison = false → ea % size = 0 → ea + size ≤ o.winSize →
    LinesGood s.curCore o [ea / 64] → BanksFree o [ea / 64] false →
    Does (mk h a b d) h true 1 [(4, .x a (pure64 (ext (leNat (winBytes s.curCore o ea size)))))]
      (linesPorts [ea / 64] false) s

/-- What keeps the line of an access at a window address from being read (R213, R214): a word that fails SEC-DED, or
poison. -/
def Machine.LineBad (k : CoreSt) (o : Owner) (ea : Nat) : Prop := ∃ w ∈ k.winErr, w / 8 = (o.winBase + 64 * (ea / 64)) / 64

/-- The line of an access holds the poison of a landed transfer. -/
def Machine.LinePoisoned (k : CoreSt) (o : Owner) (ea : Nat) : Prop := (o.winBase + 64 * (ea / 64)) / 64 ∈ k.winPoison

/-- Where LD.B to LD.D do not load (R329): a poisoned base makes the result poisoned; a bad address, a line that fails
its check, a poisoned line and a bank conflict are faults. -/
def Machine.LoadStops (mk : Hd → BitVec 4 → BitVec 4 → BitVec 4 → Instr) (size : Nat) : Prop :=
  ∀ h a b d s,
    let o := s.curOwner
    let k := s.curCore
    let ea := ((rx o b).val.toNat + d.toNat * size) % 2 ^ 64
    let va := BitVec.ofNat 64 ea
    let inside := ea % size = 0 ∧ ea + size ≤ o.winSize
    ((rx o b).poison = true → Does (mk h a b d) h true 1 [(4, .x a (rx o b))] [] s)
    ∧ ((rx o b).poison = false → ¬ inside → Faults (mk h a b d) h true { cause := .windowFault, addr := va } s)
    ∧ ((rx o b).poison = false → inside → LineBad k o ea → ¬ LinePoisoned k o ea → BanksFree o [ea / 64] false →
      Faults (mk h a b d) h true { cause := .operandParity, addr := va } s)
    ∧ ((rx o b).poison = false → inside → ¬ LineBad k o ea → LinePoisoned k o ea → BanksFree o [ea / 64] false →
      Faults (mk h a b d) h true { cause := .transferUncorrectable, addr := va } s)
    ∧ ((rx o b).poison = false → inside → LinesGood k o [ea / 64] → ¬ BanksFree o [ea / 64] false →
      ∃ v, Faults (mk h a b d) h true { cause := .bankConflict, addr := v } s)

/-- Where a store faults, in the order of R330: poison of the base, then of the data; the address; a bank conflict. -/
def Machine.StoreStops (mk : Hd → BitVec 4 → BitVec 4 → BitVec 4 → Instr) (size : Nat) : Prop :=
  ∀ h a b d s,
    let o := s.curOwner
    let ea := ((rx o b).val.toNat + d.toNat * size) % 2 ^ 64
    let inside := ea % size = 0 ∧ ea + size ≤ o.winSize
    ((rx o b).poison = true → Faults (mk h a b d) h true { cause := .poisonConsumed, addr := (rx o b).val } s)
    ∧ ((rx o b).poison = false → (rx o a).poison = true →
      Faults (mk h a b d) h true { cause := .poisonConsumed, addr := (rx o a).val } s)
    ∧ ((rx o b).poison = false → (rx o a).poison = false → ¬ inside →
      Faults (mk h a b d) h true { cause := .windowFault, addr := BitVec.ofNat 64 ea } s)
    ∧ ((rx o b).poison = false → (rx o a).poison = false → inside → ¬ BanksFree o [ea / 64] true →
      ∃ v, Faults (mk h a b d) h true { cause := .bankConflict, addr := v } s)

/-- A store writes the low bytes of x[A] at x[B] + D·size, little-endian, from the next tick on (R330). -/
def Machine.Stores (mk : Hd → BitVec 4 → BitVec 4 → BitVec 4 → Instr) (size : Nat) : Prop :=
  ∀ h a b d s,
    let o := s.curOwner
    let ea := ((rx o b).val.toNat + d.toNat * size) % 2 ^ 64
    (rx o b).poison = false → (rx o a).poison = false → ea % size = 0 → ea + size ≤ o.winSize →
    BanksFree o [ea / 64] true →
    Does (mk h a b d) h true 1
      [(1, .win ((List.range size).map fun i => (ea + i, (rx o a).val.extractLsb' (8 * i) 8)))] (linesPorts [ea / 64] true) s

/-- A tile load of one slot reads its pattern in its issue tick; the slot shows it six ticks after (R341). -/
def Machine.TileLoads (mk : Hd → BitVec 5 → BitVec 3 → Instr) (len0 cnt1 : Nat)
    (eff : BitVec 5 → (Nat → Byte) → Effect) : Prop :=
  ∀ h oa ag s,
    let o := s.curOwner
    let g := rag o ag
    let lines := g.lines 0 (len0 * cnt1)
    HasSlots o oa.toNat 1 → Shaped g len0 cnt1 → InWindow o g → LinesGood s.curCore o lines →
    BanksFree o lines false →
    Does (mk h oa ag) h true 1 [(1, .agUse ag), (6, eff oa (patByte s.curCore o g))] (linesPorts lines false) s

/-- A vector load reads the two halves of its pattern in two ticks; the active lanes show them six ticks after the issue
(R343). The second half is read in the next tick, with the checks of its lines then. -/
def Machine.VectorLoads (mk : Hd → BitVec 4 → BitVec 3 → Instr) (q : LdvKind) (shape : Ag → Prop) : Prop :=
  ∀ h a ag s,
    let o := s.curOwner
    let g := rag o ag
    let lines := g.lines 0 (g.bytes / 2)
    shape g → InWindow o g → LinesGood s.curCore o lines → BanksFree o lines false →
    Does (mk h a ag) h true 2
      [(1, .agUse ag), (6, ldvHalf q a.toNat s.curCore o g o.lam 0), (1, .read (.ldv q a.toNat g o.lam))]
      (linesPorts lines false) s

/-- A vector store writes the values of the active lanes in two halves; they are visible four ticks after the issue
(R346). -/
def Machine.VectorStores (mk : Hd → BitVec 4 → BitVec 3 → Instr) (q : StvKind) (len0 : Nat) (value : W32 → Nat) : Prop :=
  ∀ h a ag s,
    let o := s.curOwner
    let k := s.curCore
    let g := rag o ag
    let c := len0 / 64
    let lanes := (List.range 1024).filter fun l => o.lam.getLsbD l
    let vals := lanes.map fun l => (l * c, value (cget (vlanes k o a) l))
    let half := g.bytes / 2
    Shaped g len0 16 → InWindow o g → LanesGood k o a o.lam → BanksFree o (g.lines 0 half) true →
    Does (mk h a ag) h true 2
      [(1, .agUse ag), (4, .win (stvBytes g c vals 0 half)), (1, .port (g.lines half g.bytes) (stvBytes g c vals half g.bytes))]
      (linesPorts (g.lines 0 half) true) s

/-! ### Vector results -/

/-- A vector instruction writes the active lanes of v[A], lane by lane, once the lanes it reads pass their parity. -/
def Machine.VecWrites (i : Instr) (h : Hd) (guarded : Bool) (occ lat : Nat) (a : BitVec 4) (reads : List (BitVec 4))
    (f : (BitVec 4 → Nat → W32) → Nat → W32) (s : State) : Prop :=
  let o := s.curOwner
  let k := s.curCore
  (∀ r ∈ reads, LanesGood k o r o.lam) →
  Does i h guarded occ [(lat, .vreg a.toNat (ctab 1024 (f fun r l => cget (vlanes k o r) l)) o.lam)] [] s

/-- One source. -/
def Machine.Vec1 (mk : Hd → BitVec 4 → BitVec 4 → Instr) (occ lat : Nat) (f : W32 → W32) : Prop :=
  ∀ h a b s, VecWrites (mk h a b) h true occ lat a [b] (fun v l => f (v b l)) s

/-- Two sources. -/
def Machine.Vec2 (mk : Hd → BitVec 4 → BitVec 4 → BitVec 4 → Instr) (occ lat : Nat) (f : W32 → W32 → W32) : Prop :=
  ∀ h a b c s, VecWrites (mk h a b c) h true occ lat a [b, c] (fun v l => f (v b l) (v c l)) s

/-- Two sources and the destination: f of vb, vc and va. -/
def Machine.Vec3 (mk : Hd → BitVec 4 → BitVec 4 → BitVec 4 → Instr) (occ lat : Nat) (f : W32 → W32 → W32 → W32) : Prop :=
  ∀ h a b c s, VecWrites (mk h a b c) h true occ lat a [a, b, c] (fun v l => f (v b l) (v c l) (v a l)) s

/-- A compare writes the active bits of a mask two ticks after its issue (R388). -/
def Machine.VecCmp (mk : Hd → BitVec 3 → BitVec 4 → BitVec 4 → Instr) (f : W32 → W32 → Bool) : Prop :=
  ∀ h a b c s,
    let o := s.curOwner
    let k := s.curCore
    LanesGood k o b o.lam → LanesGood k o c o.lam →
    Does (mk h a b c) h true 1
      [(2, .mask a (maskOf fun l => f (cget (vlanes k o b) l) (cget (vlanes k o c) l)) o.lam)] [] s

/-- Which lanes an operation across lanes reads for the active destination lanes (R380). -/
def Machine.Reaches2 (o : Owner) (src : Nat → List Nat) (j : Nat) : Prop :=
  ∃ l < 1024, o.lam.getLsbD l = true ∧ j ∈ src l

/-- Where an operation across lanes with P = 0 faults (R380): it would read an inactive lane; every such lane stands in the record. -/
def Machine.CrossFaults (i : Instr) (h : Hd) (src : Nat → List Nat) (s : State) : Prop :=
  let o := s.curOwner
  ∀ lanes : LaneMask, (∀ j, lanes.getLsbD j = true ↔ Reaches2 o src j ∧ o.lam.getLsbD j = false) → lanes ≠ 0 →
    Faults i h false { cause := .laneFault, lanes := lanes } s

/-- An operation across lanes: unguarded; each active lane gets `f` of the register, whose inactive lanes read 0; with
P = 0 every lane that it reads must be active, else it faults, and every active lane read must pass its parity (R380). -/
def Machine.CrossWrites (i : Instr) (h : Hd) (lat : Nat) (a b : BitVec 4) (p : BitVec 1) (src : Nat → List Nat)
    (f : (Nat → W32) → Nat → W32) (s : State) : Prop :=
  let o := s.curOwner
  let k := s.curCore
  ((p = 0 → ∀ j, Reaches2 o src j → o.lam.getLsbD j = true) →
    (∀ e ∈ k.vErr, e / 4096 = o.vbase + b.toNat → Reaches2 o src (e % 4096 / 4) → o.lam.getLsbD (e % 4096 / 4) = false) →
    Does i h false 1
      [(lat, .vreg a.toNat (ctab 1024 (f fun j => if o.lam.getLsbD j then cget (vlanes k o b) j else 0)) o.lam)] [] s)
  ∧ (p = 0 → CrossFaults i h src s)

/-- The fixed pairwise tree over 2^n values (R400). -/
def Machine.treeOf (op : W32 → W32 → W32) : Nat → (Nat → W32) → W32
  | 0, x => x 0
  | n + 1, x => treeOf op n fun t => op (x (2 * t)) (x (2 * t + 1))

/-- The inclusive sequential scan up to a place (R401). -/
def Machine.scanOf (op : W32 → W32 → W32) (x : Nat → W32) : Nat → W32
  | 0 => x 0
  | n + 1 => op (scanOf op x n) (x (n + 1))

/-- A reduction of rows: every active lane of a row gets its tree (R400). -/
def Machine.RowReduces (mk : Hd → BitVec 4 → BitVec 4 → BitVec 1 → Instr) (op : W32 → W32 → W32) : Prop :=
  ∀ h a b p s, CrossWrites (mk h a b p) h 6 a b p (fun l => (List.range 64).map fun t => l / 64 * 64 + t)
    (fun v l => treeOf op 6 fun t => v (l / 64 * 64 + t)) s

/-- A reduction of columns. -/
def Machine.ColumnReduces (mk : Hd → BitVec 4 → BitVec 4 → BitVec 1 → Instr) (op : W32 → W32 → W32) : Prop :=
  ∀ h a b p s, CrossWrites (mk h a b p) h 8 a b p (fun l => (List.range 16).map fun t => t * 64 + l % 64)
    (fun v l => treeOf op 4 fun t => v (t * 64 + l % 64)) s

/-- A scan of rows: a lane reads its row up to itself (R401). -/
def Machine.RowScans (mk : Hd → BitVec 4 → BitVec 4 → BitVec 1 → Instr) (op : W32 → W32 → W32) : Prop :=
  ∀ h a b p s, CrossWrites (mk h a b p) h 8 a b p (fun l => (List.range (l % 64 + 1)).map fun t => l / 64 * 64 + t)
    (fun v l => scanOf op (fun t => v (l / 64 * 64 + t)) (l % 64)) s

/-- A scan of columns. -/
def Machine.ColumnScans (mk : Hd → BitVec 4 → BitVec 4 → BitVec 1 → Instr) (op : W32 → W32 → W32) : Prop :=
  ∀ h a b p s, CrossWrites (mk h a b p) h 10 a b p (fun l => (List.range (l / 64 + 1)).map fun t => t * 64 + l % 64)
    (fun v l => scanOf op (fun t => v (t * 64 + l % 64)) (l / 64)) s

/-- A mask instruction writes the active bits of m[A] two ticks after its issue, once the masks read pass their parity. -/
def Machine.MaskWrites (i : Instr) (h : Hd) (a : BitVec 3) (reads : List (BitVec 3)) (val : LaneMask) (s : State) : Prop :=
  (∀ r ∈ reads, MaskGood s.curOwner r) → Does i h true 1 [(2, .mask a val s.curOwner.lam)] [] s

/-! ### Results of one tick -/

/-- Of two results that fall due in one tick, `p` stands over `q` (R186): its stream is later in the order C, L, M, V, S, or it was
issued later by the same stream. -/
def Machine.Over (p q : Pend) : Prop := streamNum q.str < streamNum p.str ∨ (q.str = p.str ∧ q.iss < p.iss)

/-- Of an owner's results that fall due in its tick, `p` is the one that stands over every other of a kind. -/
def Machine.LastDue (o : Owner) (p : Pend) (kind : Effect → Prop) : Prop :=
  p ∈ o.pend ∧ p.due = o.tick ∧ p.iss < 2 ^ 64 ∧
    ∀ q ∈ o.pend, q.due ≤ o.tick → kind q.eff → q = p ∨ (q.due = o.tick ∧ q.iss < 2 ^ 64 ∧ Over p q)

/-! ### Transfers -/

/-- A transfer instruction of a kind makes a transfer outstanding at the end of its tick (R204, R349): fewer than 32 are
outstanding, the lengths and addresses are aligned as `shape` says, the pattern lies in the windows of the cores it
touches; the transfer takes the ag set and the exchange registers as they stand, and a kind that reads its scratchpad
side takes those bytes as released (R220). -/
def Machine.Transfers {n : Nat} (mk : Hd → BitVec n → BitVec 3 → BitVec 4 → BitVec 1 → Instr) (kind : XKind) (stride : Nat)
    (shape : Ag → W64 → Prop) : Prop :=
  ∀ h (e : BitVec n) ag cls p s,
    let o := s.curOwner
    let g := rag o ag
    let r := e.toNat * stride
    (s.xfers.filter fun x => decide (x.core = s.cur.core ∧ x.wid = s.cur.wid) && decide (x.state ≠ .failed)).length < 32 →
    shape g (re o r) → InWindow o g →
    (kind = .rdm → ∀ p ∈ quadOwners (s.strand o.sid) o.region, InWindow (s.owner p.1 p.2) g) →
    ∃ x : Xfer, Does (mk h e ag cls p) h true 1 [(1, .agUse ag), (1, .xfer x)] [] s
      ∧ x.kind = kind ∧ x.core = s.cur.core ∧ x.wid = s.cur.wid ∧ x.sid = o.sid ∧ x.cid = o.cid ∧ x.cls = cls.toNat
      ∧ x.post = decide (p = 1) ∧ x.tick = o.tick ∧ x.ag = g ∧ x.ereg = re o r ∧ x.opx = re o (r + 1)
      ∧ x.opnew = re o (r + 2) ∧ x.state = .waiting
      ∧ x.src = if kind.reads then g.read (released s.curCore o) o 0 g.bytes else []

/-- Device kinds: nonzero lengths, LEN0 and the VA multiples of 4 (R349). -/
def Machine.DeviceShape (g : Ag) (e : W64) : Prop :=
  g.len0 ≠ 0 ∧ g.cnt1 ≠ 0 ∧ g.len0.toNat % 4 = 0 ∧ dva e % 4 = 0

/-- Kinds with a target window: nonzero lengths, LEN0 and the target's address multiples of 4 (R352). -/
def Machine.TargetShape (g : Ag) (e : W64) : Prop :=
  g.len0 ≠ 0 ∧ g.cnt1 ≠ 0 ∧ g.len0.toNat % 4 = 0 ∧ e.toNat % 2 ^ 19 % 4 = 0

/-- Atomics and SC operations: one row of 8 bytes, both addresses multiples of 8 (R353, R354). -/
def Machine.AtomicShape (g : Ag) (e : W64) : Prop := Shaped g 8 1 ∧ dva e % 8 = 0 ∧ g.base.toNat % 8 = 0

/-! ### The firmware context -/

/-- A scalar load in the firmware context (R406): `n` bytes of the reserved area, at the effective address modulo 16,384 with
the low bits below the size cleared; it locks the core where the line fails its check or is poisoned. -/
def Machine.CobLoads (c : Nat) (s : State) (h : Hd) (ra rb d : BitVec 4) (mk : Hd → BitVec 4 → BitVec 4 → BitVec 4 → Instr) (n : Nat)
    (ext : Nat → W64) : Prop :=
  let b := s.cob c
  let k := (s.core c).seen s.cycle
  let a := (((b.xr rb).toNat + d.toNat * n) % 2 ^ 64) % 16384 / n * n
  let line := (Config.reservedBase + a) / 64
  let bad : Prop := (∃ w ∈ k.winErr, w / 8 = line) ∨ line ∈ k.winPoison
  (¬ bad → ∃ t, exec (mk h ra rb d) s = .next t
    ∧ t.cob c = { b with x := cset b.x ra.toNat (ext (leNat (cgets k.win (Config.reservedBase + a) n))) }.advance h.idle.toNat)
  ∧ (bad → exec (mk h ra rb d) s = .next { s with agenda := s.agenda ++ [.coreLockout c] })

/-- A scalar store in the firmware context (R406): the low `n` bytes of x[A] in the reserved area; no other byte of the
scratchpad changes. -/
def Machine.CobStores (c : Nat) (s : State) (h : Hd) (ra rb d : BitVec 4) (mk : Hd → BitVec 4 → BitVec 4 → BitVec 4 → Instr) (n : Nat) : Prop :=
  let b := s.cob c
  let a := Config.reservedBase + (((b.xr rb).toNat + d.toNat * n) % 2 ^ 64) % 16384 / n * n
  ∃ t, exec (mk h ra rb d) s = .next t ∧ t.cob c = b.advance h.idle.toNat
    ∧ (∀ i < n, cget (t.core c).win (a + i) = BitVec.ofNat 8 ((b.xr ra).toNat / 2 ^ (8 * i)))
    ∧ ∀ j, (j < a ∨ a + n ≤ j) → cget (t.core c).win j = cget (s.core c).win j

end Sys2Proof
end

