-- ==== Sys2Proof/Certificates/Slice0/Obligations.lean ====
section
/-! DEFINITION. The statements. Each docstring names the rules of spec/ that its statement formalises. -/

open Sys2Proof Sys2Proof.Machine

/-! ### The control stream -/

/-- Arithmetic and logic of three registers (R321, R322, R192), in exact arithmetic narrowed at the end. -/
def Obligations.ThreeRegisterResults : Prop :=
  (∀ h a b c, opcodesOf [.add h a b c, .sub h a b c, .and h a b c, .or h a b c, .xor h a b c, .shl h a b c, .shr h a b c,
      .sar h a b c, .mul h a b c, .mulh h a b c, .mulhu h a b c, .min h a b c, .max h a b c, .minu h a b c, .maxu h a b c,
      .rotl h a b c, .rotr h a b c, .div h a b c, .divu h a b c, .rem h a b c, .remu h a b c]
    = [0x04, 0x05, 0x06, 0x07, 0x08, 0x09, 0x0A, 0x0B, 0x0C, 0x0D, 0x0E, 0x0F, 0x10, 0x11, 0x12, 0x13, 0x14, 0x15, 0x16,
       0x17, 0x18])
  ∧ Alu3 .add 1 (fun x y => BitVec.ofNat 64 (x.toNat + y.toNat))
  ∧ Alu3 .sub 1 (fun x y => BitVec.ofInt 64 ((x.toNat : Int) - y.toNat))
  ∧ Alu3 .and 1 (fun x y => x &&& y)
  ∧ Alu3 .or 1 (fun x y => x ||| y)
  ∧ Alu3 .xor 1 (fun x y => x ^^^ y)
  ∧ Alu3 .shl 1 (fun x y => BitVec.ofNat 64 (x.toNat * 2 ^ (y.toNat % 64)))
  ∧ Alu3 .shr 1 (fun x y => BitVec.ofNat 64 (x.toNat / 2 ^ (y.toNat % 64)))
  ∧ Alu3 .sar 1 (fun x y => BitVec.ofInt 64 (x.toInt / 2 ^ (y.toNat % 64)))
  ∧ Alu3 .mul 3 (fun x y => BitVec.ofNat 64 (x.toNat * y.toNat))
  ∧ Alu3 .mulh 3 (fun x y => BitVec.ofInt 64 (x.toInt * y.toInt / 2 ^ 64))
  ∧ Alu3 .mulhu 3 (fun x y => BitVec.ofNat 64 (x.toNat * y.toNat / 2 ^ 64))
  ∧ Alu3 .min 1 (fun x y => BitVec.ofInt 64 (min x.toInt y.toInt))
  ∧ Alu3 .max 1 (fun x y => BitVec.ofInt 64 (max x.toInt y.toInt))
  ∧ Alu3 .minu 1 (fun x y => BitVec.ofNat 64 (min x.toNat y.toNat))
  ∧ Alu3 .maxu 1 (fun x y => BitVec.ofNat 64 (max x.toNat y.toNat))
  ∧ Alu3 .rotl 1 (fun x y => BitVec.ofNat 64 (x.toNat * 2 ^ (y.toNat % 64) + x.toNat / 2 ^ (64 - y.toNat % 64)))
  ∧ Alu3 .rotr 1 (fun x y => BitVec.ofNat 64 (x.toNat / 2 ^ (y.toNat % 64) + x.toNat * 2 ^ (64 - y.toNat % 64)))
  ∧ Alu3 .div 12 (fun x y => if y = 0 then BitVec.allOnes 64 else BitVec.ofInt 64 (x.toInt.tdiv y.toInt))
  ∧ Alu3 .divu 12 (fun x y => if y = 0 then BitVec.allOnes 64 else BitVec.ofNat 64 (x.toNat / y.toNat))
  ∧ Alu3 .rem 12 (fun x y => if y = 0 then x else BitVec.ofInt 64 (x.toInt.tmod y.toInt))
  ∧ Alu3 .remu 12 (fun x y => if y = 0 then x else BitVec.ofNat 64 (x.toNat % y.toNat))

/-- Operations of one register (R323, R326, R327, R336, R192): counts of bits, widths, byte order, the short forms, and
those with a constant. MOVH keeps a poisoned register poisoned, MOVI and CLR write a clean one; the short forms, MOVI and
MOVH have no guard. -/
def Obligations.OneRegisterResults : Prop :=
  (∀ h a b (k : BitVec 12), opcodesOf [.clz h a b, .ctz h a b, .popc h a b, .abs h a b, .sextB h a b, .sextH h a b,
      .sextW h a b, .zextB h a b, .zextH h a b, .zextW h a b, .bswap h a b, .movi h a k, .movh h a k]
    = [0x19, 0x1A, 0x1B, 0x1C, 0x1D, 0x1E, 0x1F, 0x20, 0x21, 0x22, 0x23, 0x36, 0x37])
  ∧ (∀ (h : Hd) a, h.idle.toNat < 4 →
      [Instr.inc h a, .dec h a, .neg h a, .not h a, .clr h a].map (fun i => i.encode.map BitVec.toNat)
        = [0x0800, 0x0C00, 0x1000, 0x1400, 0x1800].map fun base =>
            [base + h.idle.toNat * 0x100 + h.tok.toNat * 0x10 + a.toNat])
  ∧ Alu2 .clz (fun x => BitVec.ofNat 64 ((List.range 64).findIdx fun i => x.getLsbD (63 - i)))
  ∧ Alu2 .ctz (fun x => BitVec.ofNat 64 ((List.range 64).findIdx fun i => x.getLsbD i))
  ∧ Alu2 .popc (fun x => BitVec.ofNat 64 ((List.range 64).countP fun i => x.getLsbD i))
  ∧ Alu2 .abs (fun x => BitVec.ofNat 64 x.toInt.natAbs)
  ∧ Alu2 .sextB (fun x => BitVec.ofInt 64 (x.extractLsb' 0 8).toInt)
  ∧ Alu2 .sextH (fun x => BitVec.ofInt 64 (x.extractLsb' 0 16).toInt)
  ∧ Alu2 .sextW (fun x => BitVec.ofInt 64 (x.extractLsb' 0 32).toInt)
  ∧ Alu2 .zextB (fun x => BitVec.ofNat 64 (x.toNat % 2 ^ 8))
  ∧ Alu2 .zextH (fun x => BitVec.ofNat 64 (x.toNat % 2 ^ 16))
  ∧ Alu2 .zextW (fun x => BitVec.ofNat 64 (x.toNat % 2 ^ 32))
  ∧ Alu2 .bswap (fun x => x.extractLsb' 0 8 ++ x.extractLsb' 8 8 ++ x.extractLsb' 16 8 ++ x.extractLsb' 24 8
      ++ x.extractLsb' 32 8 ++ x.extractLsb' 40 8 ++ x.extractLsb' 48 8 ++ x.extractLsb' 56 8)
  ∧ Alu1 .inc (fun x => BitVec.ofNat 64 (x.toNat + 1))
  ∧ Alu1 .dec (fun x => BitVec.ofInt 64 ((x.toNat : Int) - 1))
  ∧ Alu1 .neg (fun x => BitVec.ofInt 64 (-(x.toNat : Int)))
  ∧ Alu1 .not (fun x => BitVec.ofNat 64 (2 ^ 64 - 1 - x.toNat))
  ∧ AluImm .addi true (fun (k : BitVec 8) x => BitVec.ofInt 64 (x.toNat + k.toInt))
  ∧ AluImm .andi true (fun (k : BitVec 8) x => x &&& BitVec.ofInt 64 k.toInt)
  ∧ AluImm .ori true (fun (k : BitVec 8) x => x ||| BitVec.ofInt 64 k.toInt)
  ∧ AluImm .xori true (fun (k : BitVec 8) x => x ^^^ BitVec.ofInt 64 k.toInt)
  ∧ AluImm .shli true (fun (k : BitVec 6) x => BitVec.ofNat 64 (x.toNat * 2 ^ k.toNat))
  ∧ AluImm .shri true (fun (k : BitVec 6) x => BitVec.ofNat 64 (x.toNat / 2 ^ k.toNat))
  ∧ AluImm .sari true (fun (k : BitVec 6) x => BitVec.ofInt 64 (x.toInt / 2 ^ k.toNat))
  ∧ AluImm .movh false (fun (k : BitVec 12) x => BitVec.ofNat 64 (x.toNat * 4096 + k.toNat))
  ∧ (∀ h a k s, Does (.movi h a k) h false 1 [(1, .x a (pure64 (BitVec.ofInt 64 k.toInt)))] [] s)
  ∧ (∀ h a s, Does (.clr h a) h false 1 [(1, .x a (pure64 0))] [] s)

/-- Compares and predicate operations (R325, R326, R335). -/
def Obligations.PredicateResults : Prop :=
  Cmp3 .ceq (fun x y => decide (x = y))
  ∧ Cmp3 .cne (fun x y => decide (x ≠ y))
  ∧ Cmp3 .clt (fun x y => decide (x.toInt < y.toInt))
  ∧ Cmp3 .cltu (fun x y => decide (x.toNat < y.toNat))
  ∧ Cmp3 .cle (fun x y => decide (x.toInt ≤ y.toInt))
  ∧ Cmp3 .cleu (fun x y => decide (x.toNat ≤ y.toNat))
  ∧ CmpImm .ceqi (fun x k => decide (x.toInt = k.toInt))
  ∧ CmpImm .clti (fun x k => decide (x.toInt < k.toInt))
  ∧ CmpImm .cltui (fun x k => decide (x.toNat < k.toNat))
  ∧ (∀ h a b c s, Does (.pand h a b c) h true 1
      [(1, .pred a (s.curOwner.p.getLsbD b.toNat && s.curOwner.p.getLsbD c.toNat))] [] s)
  ∧ (∀ h a b c s, Does (.por h a b c) h true 1
      [(1, .pred a (s.curOwner.p.getLsbD b.toNat || s.curOwner.p.getLsbD c.toNat))] [] s)
  ∧ (∀ h a b c s, Does (.pxor h a b c) h true 1
      [(1, .pred a (s.curOwner.p.getLsbD b.toNat ^^ s.curOwner.p.getLsbD c.toNat))] [] s)
  ∧ (∀ h a b s, Does (.pmov h a b) h true 1 [(1, .pred a (s.curOwner.p.getLsbD b.toNat))] [] s)
  ∧ (∀ h a s, Does (.pclr h a) h false 1 [(1, .pred a false)] [] s)
  ∧ (∀ h a s, Does (.pset h a) h false 1 [(1, .pred a true)] [] s)
  ∧ (∀ h a s, Does (.pnot h a) h false 1 [(1, .pred a (!s.curOwner.p.getLsbD a.toNat))] [] s)

/-- The selector field chooses between two registers (R324, R181): SEL consumes the poison of either source, B first;
CSEL examines only the register that it keeps. -/
def Obligations.SelectResults : Prop :=
  ∀ h g a b c s,
    let o := s.curOwner
    let holds := selects o.p (o.stream s.cur.str).blocks g
    ((rx o b).poison = false → (rx o c).poison = false →
      Does (.sel h g a b c) h false 1 [(1, .x a (if holds then rx o b else rx o c))] [] s)
    ∧ ((rx o b).poison = true → Faults (.sel h g a b c) h false { cause := .poisonConsumed, addr := (rx o b).val } s)
    ∧ ((rx o b).poison = false → (rx o c).poison = true →
        Faults (.sel h g a b c) h false { cause := .poisonConsumed, addr := (rx o c).val } s)
    ∧ ((if holds then rx o b else rx o c).poison = false →
        Does (.csel h g a b c) h false 1 [(1, .x a (if holds then rx o b else rx o c))] [] s)
    ∧ ((if holds then rx o b else rx o c).poison = true →
        Faults (.csel h g a b c) h false
          { cause := .poisonConsumed, addr := (if holds then rx o b else rx o c).val } s)

/-- Reads of launch registers, state registers and the tick (R331, R195, R196). -/
def Obligations.StateReads : Prop :=
  (∀ h a k s, Does (.rdl h a k) h true 1 [(1, .x a (pure64 (cget s.curOwner.lreg k.toNat)))] [] s)
  ∧ (∀ h a s, Does (.rdtk h a) h false 1 [(1, .x a (pure64 (BitVec.ofNat 64 s.curOwner.tick)))] [] s)
  ∧ ∀ h a (k : BitVec 4) s,
      let o := s.curOwner
      let t := s.strand o.sid
      let x := s.cur.core % 48
      let y := s.cur.core / 48
      let reads (v : Nat) : Prop := Does (.rds h a k) h true 1 [(1, .x a (pure64 (BitVec.ofNat 64 v)))] [] s
      (k = 0 → reads o.tick)
      ∧ (k = 1 → reads (s.cycle + 4 * (x + y)))
      ∧ (k = 2 → reads (4 * (x + y)))
      ∧ (k = 3 → reads (x + 2 ^ 8 * y))
      ∧ (k = 4 → reads (s.cur.wid + 2 ^ 3 * t.stride.log2 + 2 ^ 6 * t.phase))
      ∧ (k = 5 → reads o.sid)
      ∧ (k = 6 → reads o.cid)
      ∧ (k = 7 → reads (t.x0 + 2 ^ 8 * t.y0 + 2 ^ 16 * t.w + 2 ^ 24 * t.h))
      ∧ (k = 8 → reads t.tag.toNat)
      ∧ (k = 9 → reads (domainReg t o.region))

/-- Writes of the registers of other streams (R332, R333, R334): they are visible in the second tick after the issue. A
poisoned source is consumed; FMT overflows at 16 entries, pushes not yet visible included. AGS of BASE is applied again
one tick later, so that it replaces the advance of a use in its due tick: that is the model's reading (log entry 9). -/
def Obligations.StreamRegisterWrites : Prop :=
  ∀ h (a : BitVec 3) (b : BitVec 4) (f : BitVec 3) s,
    let o := s.curOwner
    let v := (rx o b).val
    let poisoned : Bad := { cause := .poisonConsumed, addr := v }
    ((rx o b).poison = false →
      Does (.setlc h a b) h true 1 [(2, .lc a (v.setWidth 32))] [] s
      ∧ Does (.pute h a b) h true 1 [(2, .ereg a v)] [] s
      ∧ (f ≠ 0 → Does (.ags h a b f) h true 1 [(2, .agField a f v)] [] s)
      ∧ Does (.ags h a b 0) h true 1 [(2, .agField a 0 v), (3, .agField a 0 v)] [] s
      ∧ (fqFill o < 16 → Does (.fmt h b) h true 1 [(2, .fqPush (v.setWidth 32))] [] s)
      ∧ (16 ≤ fqFill o → Faults (.fmt h b) h true { cause := .fqOverflow } s))
    ∧ ((rx o b).poison = true →
      Faults (.setlc h a b) h true poisoned s ∧ Faults (.pute h a b) h true poisoned s
      ∧ Faults (.ags h a b f) h true poisoned s ∧ Faults (.fmt h b) h true poisoned s)

/-- The common instructions (R318, R319, R160, R190, R191) and TRAP (R337). NOP does nothing, IDLE #n takes n + 1 ticks,
END ends its stream, MARK leaves a record, JOIN and SYNC come to their rendezvous, and TRAP traps when A = 0 or x[A] ≠ 0. -/
def Obligations.CommonInstructions : Prop :=
  (∀ h s, Does (.nop h) h false 1 [] [] s)
  ∧ (∀ h k s, Does (.idle h k) h false (k.toNat + 1) [] [] s)
  ∧ (∀ h s, Does (.endS h) h false 1 [(1, .ended)] [] s)
  ∧ (∀ h k s, Does (.mark h k) h false 1 [(1, .mark k)] [] s)
  ∧ (∀ h k s, Does (.join h k) h false 1 [(1, .rdv false 0 k.toNat)] [] s)
  ∧ (∀ h a k s, Does (.sync h a k) h false (k.toNat + 1) [(1, .rdv true a.toNat k.toNat)] [] s)
  ∧ ∀ h a k s,
      let x := rx s.curOwner a
      (x.poison = true → Faults (.trap h a k) h false { cause := .poisonConsumed, addr := x.val } s)
      ∧ (x.poison = false → (a = 0 ∨ x.val ≠ 0) → Faults (.trap h a k) h false { cause := .trap, addr := x.val } s)
      ∧ (x.poison = false → a ≠ 0 → x.val = 0 → Does (.trap h a k) h false 1 [] [] s)

/-- A block header opens a block in no tick: its stream issues again at once (R176, R177, R188). The count is a constant
or a loop counter; a count of 0 skips the body; a pipelined block runs count + stages - 1 times. -/
def Obligations.BlockHeaderOpens : Prop :=
  ∀ (len : BitVec 12) (cs : BitVec 1) (stg : BitVec 3) (cnt : BitVec 12) s, s.cur.str ≠ .f →
    let o := s.curOwner
    let t := o.stream s.cur.str
    let n := if cs = 1 then (cget o.lc (cnt.toNat % 8)).toNat else cnt.toNat
    let opened (pc : Nat) (blocks : List Block) : State :=
      let t' := { t with pc := pc, blocks := blocks }
      let o' := o.setStream s.cur.str t'
      { s.setCurOwner { o' with pend := o'.pend ++ pendOf o.tick s.cur.str {} (exitEffects t t') } with
        issue := s.cur :: s.issue }
    (n ≠ 0 → exec (.blockHeader len cs stg cnt) s = .next (opened (t.pc + 2)
        ({ start := t.pc + 2, len := len.toNat, count := n, stages := stg.toNat,
           total := if stg = 0 then n else n + stg.toNat - 1 } :: t.blocks)))
    ∧ (n = 0 → exec (.blockHeader len cs stg cnt) s = .next (opened (wrap (t.pc + 2 + len.toNat) t.blocks).1
        (wrap (t.pc + 2 + len.toNat) t.blocks).2))

/-! ### Loads and stores of scalars -/

/-- Scalar loads (R328): the value, its extension, the four ticks of latency and the bank port of the line. -/
def Obligations.ScalarLoads : Prop :=
  (∀ h a b d, opcodesOf [.ldB h a b d, .ldBu h a b d, .ldH h a b d, .ldHu h a b d, .ldW h a b d, .ldWu h a b d,
      .ldD h a b d, .ldsD h a b d] = [0x38, 0x39, 0x3A, 0x3B, 0x3C, 0x3D, 0x3E, 0x3F])
  ∧ Loads .ldB 1 (fun n => BitVec.ofInt 64 (BitVec.ofNat 8 n).toInt)
  ∧ Loads .ldBu 1 (fun n => BitVec.ofNat 64 n)
  ∧ Loads .ldH 2 (fun n => BitVec.ofInt 64 (BitVec.ofNat 16 n).toInt)
  ∧ Loads .ldHu 2 (fun n => BitVec.ofNat 64 n)
  ∧ Loads .ldW 4 (fun n => BitVec.ofInt 64 (BitVec.ofNat 32 n).toInt)
  ∧ Loads .ldWu 4 (fun n => BitVec.ofNat 64 n)
  ∧ Loads .ldD 8 (fun n => BitVec.ofNat 64 n)
  ∧ Loads .ldsD 8 (fun n => BitVec.ofNat 64 n)

/-- Where a scalar load does not load (R329, R192): a poisoned base makes the result poisoned; LD.B to LD.D fault on a
bad address, on a line that fails its check and on a poisoned line, where LDS.D yields poison that holds the address; every
load faults on a bank conflict. -/
def Obligations.LoadFaults : Prop :=
  LoadStops .ldB 1 ∧ LoadStops .ldBu 1 ∧ LoadStops .ldH 2 ∧ LoadStops .ldHu 2 ∧ LoadStops .ldW 4 ∧ LoadStops .ldWu 4
  ∧ LoadStops .ldD 8
  ∧ ∀ h a b d s,
    let o := s.curOwner
    let k := s.curCore
    let ea := ((rx o b).val.toNat + d.toNat * 8) % 2 ^ 64
    let inside := ea % 8 = 0 ∧ ea + 8 ≤ o.winSize
    let held : Effect := .x a { val := BitVec.ofNat 64 ea, poison := true }
    ((rx o b).poison = true → Does (.ldsD h a b d) h true 1 [(4, .x a (rx o b))] [] s)
    ∧ ((rx o b).poison = false → ¬ inside → Does (.ldsD h a b d) h true 1 [(4, held)] [] s)
    ∧ ((rx o b).poison = false → inside → (LineBad k o ea ∨ LinePoisoned k o ea) → BanksFree o [ea / 64] false →
      Does (.ldsD h a b d) h true 1 [(4, held)] (linesPorts [ea / 64] false) s)
    ∧ ((rx o b).poison = false → inside → ¬ BanksFree o [ea / 64] false →
      ∃ v, Faults (.ldsD h a b d) h true { cause := .bankConflict, addr := v } s)

/-- Scalar stores (R330): the bytes stored, visible in the next tick; and where a store faults and writes nothing. -/
def Obligations.ScalarStores : Prop :=
  (∀ h a b d, opcodesOf [.stB h a b d, .stH h a b d, .stW h a b d, .stD h a b d] = [0x40, 0x41, 0x42, 0x43])
  ∧ Stores .stB 1 ∧ Stores .stH 2 ∧ Stores .stW 4 ∧ Stores .stD 8
  ∧ StoreStops .stB 1 ∧ StoreStops .stH 2 ∧ StoreStops .stW 4 ∧ StoreStops .stD 8

/-! ### The load and store streams -/

/-- CLAIM and RELEASE (R340): a claim of slots of which none is claimed, a release of slots that all are. -/
def Obligations.Claims : Prop :=
  ∀ h oa n s,
    let o := s.curOwner
    let c := n.toNat + 1
    ((∀ i < c, o.claims.getLsbD (oa.toNat + i) = false) →
      Does (.claim h oa n) h true 1 [(1, .claim oa.toNat c true)] [] s)
    ∧ ((∃ i < c, o.claims.getLsbD (oa.toNat + i) = true) → Faults (.claim h oa n) h true { cause := .omClaimConflict } s)
    ∧ (HasSlots o oa.toNat c → Does (.release h oa n) h true 1 [(1, .claim oa.toNat c false)] [] s)
    ∧ (¬ HasSlots o oa.toNat c → Faults (.release h oa n) h true { cause := .omUnclaimed } s)

/-- Tile loads (R341, R342): LDTA keeps the order of the rows, LDTB transposes, LDE fills the sidecar; LDTF reads one row
of 2,048 bytes in each tick of its occupancy. -/
def Obligations.TileLoadResults : Prop :=
  TileLoads .ldta 32 64 (fun oa byte => .omMant oa.toNat (ctab 2048 byte))
  ∧ TileLoads .ldtb 64 32 (fun oa byte => .omMant oa.toNat (ctab 2048 fun b => byte (b % 32 * 64 + b / 32)))
  ∧ TileLoads .lde 64 1 (fun oa byte => .omSide oa.toNat (ctab 64 byte))
  ∧ ∀ h oa ag n s,
      let o := s.curOwner
      let g := rag o ag
      let lines := g.lines 0 2048
      HasSlots o oa.toNat (n.toNat + 1) → Shaped g 2048 (n.toNat + 1) → InWindow o g → LinesGood s.curCore o lines →
      BanksFree o lines false →
      Does (.ldtf h oa ag n) h true (n.toNat + 1)
        ([(1, .agUse ag), (6, .omMant oa.toNat (ctab 2048 (patByte s.curCore o g)))]
          ++ (List.range n.toNat).map fun i => (i + 1, .read (.ldtf (oa.toNat + i + 1) g (i + 1))))
        (linesPorts lines false) s

/-- Vector loads (R343, R344), by the shape of their pattern, and the leaf gather (R345, R256), whose table of 256·W bytes
streams through in pieces of 2 KiB, the first in the issue tick. -/
def Obligations.VectorLoadResults : Prop :=
  VectorLoads .ldvW .w (fun g => Shaped g 256 16)
  ∧ VectorLoads .ldvH .h (fun g => Shaped g 128 16 ∨ Shaped g 256 16)
  ∧ VectorLoads .ldvHu .hu (fun g => Shaped g 128 16)
  ∧ VectorLoads .ldvB .b (fun g => Shaped g 64 16)
  ∧ VectorLoads .ldvBu .bu (fun g => Shaped g 64 16)
  ∧ VectorLoads .ldvrW .rw (fun g => Shaped g 256 1)
  ∧ VectorLoads .ldvcW .cw (fun g => Shaped g 4 16)
  ∧ ∀ h a b ag band s,
    let o := s.curOwner
    let k := s.curCore
    let g := rag o ag
    let w := k.thr.w
    let base := g.base.toNat
    let lines := ldgLines base 0
    let ex := vlanes k o b
    let piece (n : Nat) : LateRead := .ldg a.toNat ex band.toNat w o.lam base n
    (o.thr = true → k.thr.conf = true → Shaped g (256 * w) 1 → base % 64 = 0 → InWindow o g → LanesGood k o b o.lam →
      LinesGood k o lines → BanksFree o lines false →
      Does (.ldg h a b ag band) h false 8
        ([(1, .agUse ag), (12, ldgPiece a.toNat ex band.toNat w o.lam base 0 k o)]
          ++ (List.range (w / 8 - 1)).map fun i => (i + 1, .read (piece (i + 1))))
        (linesPorts lines false) s)
    ∧ (o.thr = false ∨ k.thr.conf = false → Faults (.ldg h a b ag band) h false { cause := .thresholdBusy } s)

/-- Vector stores (R346, R347): the word, BF16, the saturated half, the low byte, the saturated byte; STVC packs the words
of the lanes that are active and whose mask bit matches SENSE. That the parity check is of
the active lanes alone is the model's reading (log entry 28). -/
def Obligations.VectorStoreResults : Prop :=
  VectorStores .stvW .w 256 (fun x => x.toNat)
  ∧ VectorStores .stvH .h 128 (fun x => (toBf x).toNat)
  ∧ VectorStores .stvHs .hs 128 (fun x => (BitVec.ofInt 16 (max (-32768) (min 32767 x.toInt))).toNat)
  ∧ VectorStores .stvB .b 64 (fun x => x.toNat % 256)
  ∧ VectorStores .stvBs .bs 64 (fun x => (BitVec.ofInt 8 (max (-128) (min 127 x.toInt))).toNat)
  ∧ ∀ h a ag (sn : BitVec 1) m s,
      let o := s.curOwner
      let k := s.curCore
      let g := rag o ag
      let lanes := (List.range 1024).filter fun l => o.lam.getLsbD l && ((rmask o m).getLsbD l ^^ decide (sn = 1))
      let vals := (List.range lanes.length).map fun n => (4 * n, (cget (vlanes k o a) (lanes.getD n 0)).toNat)
      let half := g.bytes / 2
      Shaped g 4096 1 → InWindow o g → LanesGood k o a o.lam → MaskGood o m → BanksFree o (g.lines 0 half) true →
      Does (.stvc h a ag sn m) h true 2
        [(1, .agUse ag), (4, .win (stvBytes g 4 vals 0 half)), (1, .port (g.lines half g.bytes) (stvBytes g 4 vals half g.bytes))]
        (linesPorts (g.lines 0 half) true) s

/-- Transfers of the store stream (R204, R349-R354).
FENCE, XPOP and XPEEK (R219, R355, R356): XPOP takes the oldest element of its class, sets its predicate by the bytes
moved and acquires its transfer; on a class with no element it is a SCHEDULE_MISS. Which windows an XRDM touches once owners of its
quad have departed is the model's reading (log entry 81). -/
def Obligations.TransferInstructions : Prop :=
  (Transfers .xrd .rd 1 DeviceShape ∧ Transfers .xrdSp .rdSp 1 DeviceShape ∧ Transfers .xrdm .rdm 1 DeviceShape
   ∧ Transfers .xwr .wr 1 DeviceShape ∧ Transfers .xwrZ .wrZ 1 DeviceShape
   ∧ Transfers .xput .put 1 TargetShape ∧ Transfers .xget .get 1 TargetShape
   ∧ Transfers .xsumF .sumF 1 TargetShape ∧ Transfers .xsumI .sumI 1 TargetShape
   ∧ Transfers .xatAdd (.atom .add) 2 AtomicShape ∧ Transfers .xatSwp (.atom .swp) 2 AtomicShape
   ∧ Transfers .xatCas (.atom .cas) 2 AtomicShape ∧ Transfers .xatMax (.atom .max) 2 AtomicShape
   ∧ Transfers .xatMin (.atom .min) 2 AtomicShape ∧ Transfers .xatAnd (.atom .and) 2 AtomicShape
   ∧ Transfers .xatOr (.atom .or) 2 AtomicShape ∧ Transfers .xatXor (.atom .xor) 2 AtomicShape
   ∧ Transfers .xscLd (.sc .ld) 2 AtomicShape ∧ Transfers .xscSt (.sc .st) 2 AtomicShape
   ∧ Transfers .xscAdd (.sc .add) 2 AtomicShape ∧ Transfers .xscSwp (.sc .swp) 2 AtomicShape
   ∧ Transfers .xscCas (.sc .cas) 2 AtomicShape ∧ Transfers .xscMax (.sc .max) 2 AtomicShape)
  ∧ ((∀ h k s, Does (.fence h k) h false 1 [(1, .fence k)] [] s)
     ∧ ∀ h a cls s,
         let fifo := s.curOwner.fifo
         Does (.xpeek h a cls) h true 1 [(1, .pred a (decide (∃ e ∈ fifo, e.cls = cls)))] [] s
         ∧ (∀ old e young, fifo = old ++ e :: young → (∀ d ∈ old, d.cls ≠ cls) → e.cls = cls →
             Does (.xpop h a cls) h true 1 [(1, .acquire e.tid), (1, .pred a (decide (e.bytes ≠ 0)))] [] s)
         ∧ ((∀ e ∈ fifo, e.cls ≠ cls) → Faults (.xpop h a cls) h true { cause := .scheduleMiss } s))

/-! ### The matrix stream -/

/-- The ring operations and MCLR (R367, R369, R201). -/
def Obligations.RingOperations : Prop :=
  ∀ h s,
    let o := s.curOwner
    let next := (o.head + 1) % max o.tiles.length 1
    (o.full.getLsbD next = false → Does (.radv h) h true 1 [(1, .ring .radv)] [] s)
    ∧ (o.full.getLsbD next = true → Faults (.radv h) h true { cause := .ringOverrun } s)
    ∧ Does (.rskip h) h true 1 [(1, .ring .rskip)] [] s
    ∧ (o.full.getLsbD o.head = false → Does (.mclr h) h true 1 [(1, .tile (tilePhys o o.head) (.whole []))] [] s)
    ∧ (o.full.getLsbD o.head = true → Faults (.mclr h) h true { cause := .ringOverrun } s)
    ∧ (o.full.getLsbD o.tail = true → Does (.rfree h) h true 1 [(1, .ring .rfree)] [] s)
    ∧ (o.full.getLsbD o.tail = false → Faults (.rfree h) h true { cause := .ringUnderrun } s)

/-- MMA and MMAW (R236, R361-R365): under a valid format word the products of its SYN mode go into the head tile when
the last of them is done, each of 16·NB ticks, and the word is popped; an invalid word is popped all the same (R236),
and an empty queue underflows. The guard of the statement's hypotheses names the word at the front of the queue. -/
def Obligations.MatrixProducts : Prop :=
  ∀ h oa ob s,
    let o := s.curOwner
    let k := s.curCore
    let slots (n : Nat) : Prop := HasSlots o oa.toNat n ∧ HasSlots o ob.toNat n
      ∧ ∀ i < n, SlotGood k o (oa.toNat + i) 0 2112 ∧ SlotGood k o (ob.toNat + i) 0 2112
    let step (fw : W32) (p : Nat × Nat) : KStep :=
      { fw := fw, a := omSlot k o (oa.toNat + p.1), b := omSlot k o (ob.toNat + p.2) }
    (∀ fw rest, o.fq = fw :: rest → fwValid false fw = true → o.full.getLsbD o.head = false → slots 1 →
      Does (.mma h oa ob) h true (16 * fwNB fw)
        [(1, .fqPop), (1, .product fw),
         (16 * fwNB fw + 4, .tile (tilePhys o o.head)
           (.products (decide (fwACC fw = 1)) [step (if fwACC fw = 1 then fw &&& 0xFFFFCFFF else fw) (0, 0)]))] [] s)
    ∧ (∀ fw rest, o.fq = fw :: rest → fwValid true fw = true → o.full.getLsbD o.head = false →
        slots (if fwSYN fw = 1 then 2 else 3) →
        let ps := products (fwSYN fw)
        Does (.mmaw h oa ob) h true (ps.length * 16 * fwNB fw)
          [(1, .fqPop), (1, .product fw),
           (ps.length * 16 * fwNB fw + 4, .tile (tilePhys o o.head)
             (.products (decide (fwACC fw = 1)) (ps.map (step (if fwACC fw = 1 then fw &&& 0xFFFFCFFF else fw)))))] [] s)
    ∧ (o.fq = [] → Faults (.mma h oa ob) h true { cause := .fqUnderflow } s
        ∧ Faults (.mmaw h oa ob) h true { cause := .fqUnderflow } s)
    ∧ (∀ fw rest, o.fq = fw :: rest → fwValid false fw = false →
        Faults (.mma h oa ob) h true { cause := .formatInvalid, still := [.fqPop] } s)
    ∧ (∀ fw rest, o.fq = fw :: rest → fwValid true fw = false →
        Faults (.mmaw h oa ob) h true { cause := .formatInvalid, still := [.fqPop] } s)

/-- The threshold array's instructions (R256, R370-R375). TCFG reads one slot in each of its 22 ticks and is configured
at the end; TEVAL tests one sample in each of its 16; TMASK writes the saved masks of one sample; TCLR clears the store
of the owner that holds it. -/
def Obligations.ThresholdInstructions : Prop :=
  ∀ h oa s,
    let o := s.curOwner
    let k := s.curCore
    let a := oa.toNat
    let held := o.thr = true ∧ k.thr.conf = true
    (∀ w, HasSlots o a 22 → SlotGood k o a 0 2048 →
      Does (.tcfg h oa w) h true 22
        ([(1, .thr .begin), (1, .thr (.cfgSlot 0 (omSlot k o a)))]
          ++ (List.range 21).map (fun i => (i + 1, .thr (.cfgRead a (i + 1)))) ++ [(22, .thr (.cfgDone w.toNat))]) [] s)
    ∧ (held → HasSlots o a 4 → o.full.getLsbD o.head = false → SlotGood k o a 0 2048 →
      Does (.teval h oa) h true 16
        ([(1, .thr (.acc 0 (testSample k.thr (omSlot k o a).mant 0)))]
          ++ (List.range 15).map (fun i => (i + 1, .thr (.sample a (i + 1)))) ++ [(16, .thr (.evalDone (tilePhys o o.head)))]) [] s)
    ∧ (∀ n : BitVec 4, held → o.full.getLsbD o.head = false →
      let mask (j : Nat) : Nat := (~~~cget k.thr.saved (n.toNat * 64 + j)).toNat
      Does (.tmask h n) h true 1
        [(4, .tile (tilePhys o o.head) (.whole (ctab 128 fun l =>
          BitVec.ofNat 32 (if l < 64 then mask l else mask (l - 64) / 2 ^ 32))))] [] s)
    ∧ (o.thr = true → Does (.tclr h) h true 1 [(1, .thr .clear)] [] s)
    ∧ (o.thr = false → Does (.tclr h) h true 1 [] [] s)
    ∧ (¬ held → Faults (.teval h oa) h true { cause := .thresholdBusy } s
        ∧ ∀ n, Faults (.tmask h n) h true { cause := .thresholdBusy } s)

/-! ### The vector stream -/

/-- Integer, logic and bit operations of the lanes (R377, R378, R384-R387), in exact arithmetic.
The carry-less product (R386): bit `j` of the 64-bit product is the parity of the pairs of one bits whose places add
to `j`; VCLMUL.L writes its low half and VCLMUL.H its high half. That the parity check is of
the active lanes alone is the model's reading (log entry 28). -/
def Obligations.VectorIntegerResults : Prop :=
  (∀ h a b c, opcodesOf [.vadd h a b c, .vsub h a b c, .vadds h a b c, .vsubs h a b c, .vmul h a b c, .vmulh h a b c,
      .vmin h a b c, .vmax h a b c, .vminu h a b c, .vmaxu h a b c, .vabs h a b, .vand h a b c, .vor h a b c, .vxor h a b c,
      .vnot h a b, .vclmulL h a b c, .vclmulH h a b c]
    = [0x1A, 0x1B, 0x1C, 0x1D, 0x1E, 0x1F, 0x20, 0x21, 0x22, 0x23, 0x24, 0x25, 0x26, 0x27, 0x28, 0x32, 0x33])
  ∧ (Vec2 .vadd 1 2 (fun x y => BitVec.ofNat 32 (x.toNat + y.toNat))
   ∧ Vec2 .vsub 1 2 (fun x y => BitVec.ofInt 32 ((x.toNat : Int) - y.toNat))
   ∧ Vec2 .vadds 1 2 (fun x y => BitVec.ofInt 32 (max (-2 ^ 31) (min (2 ^ 31 - 1) (x.toInt + y.toInt))))
   ∧ Vec2 .vsubs 1 2 (fun x y => BitVec.ofInt 32 (max (-2 ^ 31) (min (2 ^ 31 - 1) (x.toInt - y.toInt))))
   ∧ Vec2 .vmul 1 2 (fun x y => BitVec.ofNat 32 (x.toNat * y.toNat))
   ∧ Vec2 .vmulh 1 2 (fun x y => BitVec.ofInt 32 (x.toInt * y.toInt / 2 ^ 32))
   ∧ Vec2 .vmin 1 2 (fun x y => BitVec.ofInt 32 (min x.toInt y.toInt))
   ∧ Vec2 .vmax 1 2 (fun x y => BitVec.ofInt 32 (max x.toInt y.toInt))
   ∧ Vec2 .vminu 1 2 (fun x y => BitVec.ofNat 32 (min x.toNat y.toNat))
   ∧ Vec2 .vmaxu 1 2 (fun x y => BitVec.ofNat 32 (max x.toNat y.toNat))
   ∧ Vec1 .vabs 1 2 (fun x => BitVec.ofNat 32 x.toInt.natAbs)
   ∧ Vec2 .vand 1 2 (fun x y => x &&& y)
   ∧ Vec2 .vor 1 2 (fun x y => x ||| y)
   ∧ Vec2 .vxor 1 2 (fun x y => x ^^^ y)
   ∧ Vec1 .vnot 1 2 (fun x => BitVec.ofNat 32 (2 ^ 32 - 1 - x.toNat))
   ∧ Vec2 .vshl 1 2 (fun x y => BitVec.ofNat 32 (x.toNat * 2 ^ (y.toNat % 32)))
   ∧ Vec2 .vshr 1 2 (fun x y => BitVec.ofNat 32 (x.toNat / 2 ^ (y.toNat % 32)))
   ∧ Vec2 .vsar 1 2 (fun x y => BitVec.ofInt 32 (x.toInt / 2 ^ (y.toNat % 32)))
   ∧ Vec1 .vpopc 1 2 (fun x => BitVec.ofNat 32 ((List.range 32).countP fun i => x.getLsbD i))
   ∧ Vec1 .vclz 1 2 (fun x => BitVec.ofNat 32 ((List.range 32).findIdx fun i => x.getLsbD (31 - i)))
   ∧ Vec1 .vctz 1 2 (fun x => BitVec.ofNat 32 ((List.range 32).findIdx fun i => x.getLsbD i))
   ∧ Vec1 .vbrev 1 2 (fun x => x.reverse)
   ∧ Vec2 .vclmulL 4 4 clmulL
   ∧ Vec2 .vclmulH 4 4 clmulH
   ∧ Vec3 .vdot4I8 4 4 (fun x y acc => BitVec.ofInt 32 (acc.toInt
       + (x.extractLsb' 0 8).toInt * (y.extractLsb' 0 8).toInt + (x.extractLsb' 8 8).toInt * (y.extractLsb' 8 8).toInt
       + (x.extractLsb' 16 8).toInt * (y.extractLsb' 16 8).toInt + (x.extractLsb' 24 8).toInt * (y.extractLsb' 24 8).toInt))
   ∧ (∀ h a b k s, VecWrites (.vshli h a b k) h false 1 2 a [b]
       (fun v l => BitVec.ofNat 32 ((v b l).toNat * 2 ^ k.toNat)) s)
   ∧ (∀ h a b k s, VecWrites (.vshri h a b k) h false 1 2 a [b]
       (fun v l => BitVec.ofNat 32 ((v b l).toNat / 2 ^ k.toNat)) s)
   ∧ ∀ h a b k s, VecWrites (.vsari h a b k) h false 1 2 a [b]
       (fun v l => BitVec.ofInt 32 ((v b l).toInt / 2 ^ k.toNat)) s)
  ∧ (∀ (x y : W32) (j : Nat), j < 32 →
       let pairs (n : Nat) : Nat := (List.range 32).countP fun t => x.getLsbD t && decide (t ≤ n) && y.getLsbD (n - t)
       (clmulL x y).getLsbD j = decide (pairs j % 2 = 1) ∧ (clmulH x y).getLsbD j = decide (pairs (j + 32) % 2 = 1))

/-- Moves (R389, R390): VSPL and VIMM in every lane, VIDX the lane number, VSEL by the mask bit. That the parity check is of
the active lanes alone is the model's reading (log entry 28). -/
def Obligations.VectorMoves : Prop :=
  (∀ (h : Hd) a b (k : BitVec 8), opcodesOf [.vmov h a b, .vspl h a (b.setWidth 3), .vimm h a k, .vidx h a]
        = [0x41, 0x42, 0x43, 0x6C]
      ∧ (h.idle.toNat < 4 → (Instr.vzero h a).encode.map BitVec.toNat
          = [0x0800 + h.idle.toNat * 0x100 + h.tok.toNat * 0x10 + a.toNat]))
  ∧ Vec1 .vmov 1 2 (fun x => x)
  ∧ (∀ h a b s, VecWrites (.vspl h a b) h true 1 2 a [] (fun _ _ => (re s.curOwner b.toNat).setWidth 32) s)
  ∧ (∀ h a (k : BitVec 8) s, VecWrites (.vimm h a k) h true 1 2 a [] (fun _ _ => BitVec.ofInt 32 k.toInt) s)
  ∧ (∀ h a s, VecWrites (.vzero h a) h false 1 2 a [] (fun _ _ => 0) s)
  ∧ (∀ h a s, VecWrites (.vidx h a) h true 1 2 a [] (fun _ l => BitVec.ofNat 32 l) s)
  ∧ ∀ h a b c (sn : BitVec 1) m s, MaskGood s.curOwner m →
      VecWrites (.vsel h a b c sn m) h false 1 2 a [b, c]
        (fun v l => if (rmask s.curOwner m).getLsbD l = decide (sn = 0) then v b l else v c l) s

/-- Floating point of the lanes (R378, R381-R383, R387) and the conversions (R394): the operations of chapter 12, with their latencies and
occupancies. That the parity check is of
the active lanes alone is the model's reading (log entry 28). -/
def Obligations.VectorFloatResults : Prop :=
  Vec2 .vfadd 4 4 add32 ∧ Vec2 .vfsub 4 4 sub32 ∧ Vec2 .vfmul 4 4 mul32
  ∧ Vec3 .vfma 4 4 (fun b c a => fma32 b c a) ∧ Vec3 .vfms 4 4 (fun b c a => fms32 b c a)
  ∧ Vec3 .vfnma 4 4 (fun b c a => fnma32 b c a) ∧ Vec3 .vfnms 4 4 (fun b c a => fnms32 b c a)
  ∧ Vec2 .vfdiv 8 12 div32 ∧ Vec2 .vfmin 4 4 fmin32 ∧ Vec2 .vfmax 4 4 fmax32
  ∧ Vec1 .vfabs 1 2 fabs32 ∧ Vec1 .vfneg 1 2 fneg32 ∧ Vec1 .vffloor 4 4 floor32 ∧ Vec1 .vfround 4 4 rint32
  ∧ Vec1 .vfclass 1 2 fclass32
  ∧ Vec1 .vfrcp 8 12 rcp32 ∧ Vec1 .vfsqrt 8 12 sqrt32 ∧ Vec1 .vfrsq 8 12 rsq32 ∧ Vec1 .vfexp2 8 12 exp2f
  ∧ Vec1 .vflog2 8 12 log2f ∧ Vec1 .vftanh 8 12 tanhf ∧ Vec1 .vfsigm 8 12 sigmf
  ∧ Vec3 .vdot2Bf 4 4 (fun b c a => dot2 a b c)
  ∧ Vec1 .vcvtFi 4 4 toInt32 ∧ Vec1 .vcvtIf 4 4 (fun x => roundDy false x.toInt 0)
  ∧ Vec1 .vcvtFb 4 4 (fun x => (toBf x).setWidth 32) ∧ Vec1 .vcvtBf 4 4 (fun x => BitVec.ofNat 32 (x.toNat % 2 ^ 16 * 2 ^ 16))
  ∧ Vec1 .vcvtFk 4 4 (fun x => (okey x).setWidth 32)

/-- Every NaN result of the floating-point operations is 0x7FC0_0000 (R243), and the special inputs of the functions of
R245 give what its table says. -/
def Obligations.FloatSpecials : Prop :=
  (∀ a b c : W32, ∀ r ∈ [add32 a b, sub32 a b, mul32 a b, fma32 a b c, fms32 a b c, fnma32 a b c, fnms32 a b c, div32 a b,
      fmin32 a b, fmax32 a b, fabs32 a, fneg32 a, floor32 a, rint32 a, rcp32 a, sqrt32 a, rsq32 a, exp2f a, log2f a,
      tanhf a, sigmf a, dot2 a b c],
    isNan r = true → r = 0x7FC00000)
  ∧ (rcp32 0 = 0x7F800000 ∧ rcp32 0x80000000 = 0xFF800000 ∧ rcp32 0x7F800000 = 0 ∧ rcp32 0xFF800000 = 0x80000000)
  ∧ (sqrt32 0x80000000 = 0x80000000 ∧ sqrt32 0x7F800000 = 0x7F800000)
  ∧ (rsq32 0 = 0x7F800000 ∧ rsq32 0x80000000 = 0xFF800000 ∧ rsq32 0x7F800000 = 0)
  ∧ (exp2f 0 = 0x3F800000 ∧ exp2f 0x80000000 = 0x3F800000 ∧ exp2f 0xFF800000 = 0 ∧ exp2f 0x7F800000 = 0x7F800000)
  ∧ (log2f 0 = 0xFF800000 ∧ log2f 0x80000000 = 0xFF800000 ∧ log2f 0x3F800000 = 0 ∧ log2f 0x7F800000 = 0x7F800000)
  ∧ (tanhf 0 = 0 ∧ tanhf 0x80000000 = 0x80000000 ∧ tanhf 0x7F800000 = 0x3F800000 ∧ tanhf 0xFF800000 = 0xBF800000)
  ∧ (sigmf 0 = 0x3F000000 ∧ sigmf 0x80000000 = 0x3F000000 ∧ sigmf 0xFF800000 = 0 ∧ sigmf 0x7F800000 = 0x3F800000)
  ∧ (∀ x : W32, x.getLsbD 31 = true → x ≠ 0x80000000 → sqrt32 x = 0x7FC00000 ∧ rsq32 x = 0x7FC00000 ∧ log2f x = 0x7FC00000)
  ∧ (∀ x : W32, isNan x = true → ∀ f ∈ [rcp32, sqrt32, rsq32, exp2f, log2f, tanhf, sigmf], f x = 0x7FC00000)
  ∧ ∀ x y : W32, isNan x = true ∨ isNan y = true → div32 x y = 0x7FC00000

/-- BF16 (R244): widening is exact; narrowing rounds the low half to nearest, ties to even, and a NaN becomes 0x7FC0.
Order keys (R246, R247): the keys of two values that are not NaN stand in the order of their BF16 roundings, and are
equal exactly when those are; every present key is at least 0x007F. -/
def Obligations.NarrowFormats : Prop :=
  ((∀ b : BitVec 16, (bfTo32 b).toNat = b.toNat * 2 ^ 16)
   ∧ ∀ a : W32,
       (isNan a = true → toBf a = 0x7FC0)
       ∧ (isNan a = false →
         let q := a.toNat / 2 ^ 16
         let r := a.toNat % 2 ^ 16
         toBf a = BitVec.ofNat 16 (if 2 ^ 15 < r ∨ (r = 2 ^ 15 ∧ q % 2 = 1) then q + 1 else q)))
  ∧ ((∀ a : W32, isNan a = true → okey a = 0)
     ∧ (∀ a : W32, isNan a = false → 0x007F ≤ (okey a).toNat)
     ∧ (∀ a c : W32, isNan a = false → isNan c = false →
         ((okey a).toNat < (okey c).toNat ↔ flt (bfTo32 (toBf a)) (bfTo32 (toBf c)) = true)
         ∧ (okey a = okey c ↔ feq (bfTo32 (toBf a)) (bfTo32 (toBf c)) = true))
     ∧ ([0xFF800000, 0xBF800000, 0x80000000, 0, 0x3F800000, 0x3F808000, 0x40200000, 0x7F800000, 0x7FC00000] : List W32).map okey
         = [0x007F, 0x407F, 0x8000, 0x8000, 0xBF80, 0xBF80, 0xC020, 0xFF80, 0x0000])

/-- Compares of the lanes (R388). That the parity check is of
the active lanes alone is the model's reading (log entry 28). -/
def Obligations.VectorCompares : Prop :=
  (∀ h a b c, opcodesOf [.vfcmpEq h a b c, .vfcmpNe h a b c, .vfcmpLt h a b c, .vfcmpLe h a b c, .vfcmpUn h a b c,
      .vcmpEq h a b c, .vcmpNe h a b c, .vcmpLt h a b c, .vcmpLe h a b c, .vcmpLtu h a b c, .vcmpLeu h a b c]
    = [0x36, 0x37, 0x38, 0x39, 0x3A, 0x3B, 0x3C, 0x3D, 0x3E, 0x3F, 0x40])
  ∧ VecCmp .vfcmpEq feq ∧ VecCmp .vfcmpNe (fun x y => !feq x y) ∧ VecCmp .vfcmpLt flt ∧ VecCmp .vfcmpLe fle
  ∧ VecCmp .vfcmpUn (fun x y => isNan x || isNan y)
  ∧ VecCmp .vcmpEq (fun x y => decide (x = y)) ∧ VecCmp .vcmpNe (fun x y => decide (x ≠ y))
  ∧ VecCmp .vcmpLt (fun x y => decide (x.toInt < y.toInt)) ∧ VecCmp .vcmpLe (fun x y => decide (x.toInt ≤ y.toInt))
  ∧ VecCmp .vcmpLtu (fun x y => decide (x.toNat < y.toNat)) ∧ VecCmp .vcmpLeu (fun x y => decide (x.toNat ≤ y.toNat))

/-- Masks (R391-R393): logic, VANY and VALL over the active lanes, VLAM, and moves of masks to and from registers. -/
def Obligations.MaskResults : Prop :=
  ∀ h (a b c : BitVec 3) (v : BitVec 4) s,
    let o := s.curOwner
    let k := s.curCore
    let some1 := ∃ l < 1024, o.lam.getLsbD l = true ∧ (rmask o b).getLsbD l = true
    let all1 := ∀ l < 1024, o.lam.getLsbD l = true → (rmask o b).getLsbD l = true
    opcodesOf [.mand h a b c, .mor h a b c, .mxor h a b c, .mnot h a b, .vany h a b, .vall h a b, .vlam h b, .vmpack h v b,
        .vmunpk h a v] = [0x45, 0x46, 0x47, 0x48, 0x49, 0x4A, 0x4B, 0x4C, 0x4D]
    ∧ MaskWrites (.mand h a b c) h a [b, c] (rmask o b &&& rmask o c) s
    ∧ MaskWrites (.mor h a b c) h a [b, c] (rmask o b ||| rmask o c) s
    ∧ MaskWrites (.mxor h a b c) h a [b, c] (rmask o b ^^^ rmask o c) s
    ∧ MaskWrites (.mnot h a b) h a [b] (~~~rmask o b) s
    ∧ (some1 → MaskWrites (.vany h a b) h a [b] (BitVec.allOnes 1024) s)
    ∧ (¬ some1 → MaskWrites (.vany h a b) h a [b] 0 s)
    ∧ (all1 → MaskWrites (.vall h a b) h a [b] (BitVec.allOnes 1024) s)
    ∧ (¬ all1 → MaskWrites (.vall h a b) h a [b] 0 s)
    ∧ (MaskGood o b → Does (.vlam h b) h true 1 [(2, .lam (rmask o b))] [] s)
    ∧ (MaskGood o b → Does (.vmpack h v b) h true 1
        [(2, .vreg v.toNat (ctab 1024 fun l =>
          if l % 64 < 2 then (rmask o b).extractLsb' (l / 64 * 64 + l % 64 * 32) 32 else 0) o.lam)] [] s)
    ∧ (LanesGood k o v (maskOf fun l => decide (l % 64 < 2)) → Does (.vmunpk h a v) h true 1
        [(2, .mask a (maskOf fun l => (cget (vlanes k o v) (l / 64 * 64 + l % 64 / 32)).getLsbD (l % 32)) o.lam)] [] s)

/-- Quantisation (R395-R397): the statistics of a block take in all its lanes, the writes only the active ones; a bad
parameter word is FORMAT_INVALID. -/
def Obligations.Quantisation : Prop :=
  ∀ h a b e (sl : BitVec 2) s,
    let o := s.curOwner
    let k := s.curCore
    let w := re o e.toNat
    let nm := (w.extractLsb' 0 3).toNat
    let g := (w.extractLsb' 3 3).toNat
    let slice := w.getLsbD 6
    let good := nm ≠ 0 ∧ g ≤ 5 ∧ w.toNat < 2 ^ 7 ∧ (slice = true → nm = 7) ∧ (slice = false → sl = 0)
    let x := vlanes k o b
    let es := blockExps (nm + 1) g slice x
    let ex (l : Nat) : Nat := es.getD (laneBlock g l) 0
    (good → LanesGood k o b allLanes →
      Does (.vquant h a b e sl) h false 4 [(6, .vreg a.toNat (ctab 1024 fun l =>
          BitVec.ofInt 32 (if slice then sliceQ (ex l) sl.toNat (cget x l) else blockQ (nm + 1) (ex l) (cget x l))) o.lam)] [] s
      ∧ Does (.vqexp h a b e sl) h false 4 [(6, .vreg a.toNat (ctab 1024 fun l =>
          if l < 32 then BitVec.ofNat 32 (if slice then sliceE (es.getD l 0) sl.toNat else es.getD l 0) else 0) o.lam)] [] s)
    ∧ (¬ good → Faults (.vquant h a b e sl) h false { cause := .formatInvalid } s
        ∧ Faults (.vqexp h a b e sl) h false { cause := .formatInvalid } s)

/-- Rotates, broadcasts and permutes (R398, R399, R380): what each writes, and where it faults with P = 0, with every inactive lane
that it would read in the record. -/
def Obligations.CrossLaneMoves : Prop :=
  (∀ h a b p (k : BitVec 6) s, CrossWrites (.vrotR h a b p k) h 3 a b p
      (fun l => [l / 64 * 64 + (l % 64 + 64 - k.toNat) % 64]) (fun v l => v (l / 64 * 64 + (l % 64 + 64 - k.toNat) % 64)) s)
  ∧ (∀ h a b p (k : BitVec 4) s, CrossWrites (.vrotC h a b p k) h 5 a b p
      (fun l => [(l / 64 + 16 - k.toNat) % 16 * 64 + l % 64]) (fun v l => v ((l / 64 + 16 - k.toNat) % 16 * 64 + l % 64)) s)
  ∧ (∀ h a b p (k : BitVec 6) s, CrossWrites (.vbcR h a b p k) h 3 a b p
      (fun l => [l / 64 * 64 + k.toNat]) (fun v l => v (l / 64 * 64 + k.toNat)) s)
  ∧ (∀ h a b p (k : BitVec 4) s, CrossWrites (.vbcC h a b p k) h 5 a b p
      (fun l => [k.toNat * 64 + l % 64]) (fun v l => v (k.toNat * 64 + l % 64)) s)
  ∧ (∀ h a b c p s,
      let ix (l : Nat) : Nat := (cget (vlanes s.curCore s.curOwner c) l).toNat
      LanesGood s.curCore s.curOwner c s.curOwner.lam →
      CrossWrites (.vpermR h a b c p) h 4 a b p (fun l => [l / 64 * 64 + ix l % 64]) (fun v l => v (l / 64 * 64 + ix l % 64)) s)
  ∧ (∀ h a b c p s,
      let ix (l : Nat) : Nat := (cget (vlanes s.curCore s.curOwner c) l).toNat
      LanesGood s.curCore s.curOwner c s.curOwner.lam →
      CrossWrites (.vpermC h a b c p) h 6 a b p (fun l => [ix l % 16 * 64 + l % 64]) (fun v l => v (ix l % 16 * 64 + l % 64)) s)

/-- Reductions and scans (R400, R401, R380): what each writes, and where it faults with P = 0. -/
def Obligations.ReductionsAndScans : Prop :=
  (∀ h a b p, opcodesOf [.vredRFadd h a b p, .vredRIadd h a b p, .vredRXor h a b p, .vredRMax h a b p, .vredRMin h a b p,
      .vredCFadd h a b p, .vredCIadd h a b p, .vredCXor h a b p, .vredCMax h a b p, .vredCMin h a b p, .vscanRFadd h a b p,
      .vscanRIadd h a b p, .vscanRXor h a b p, .vscanCFadd h a b p, .vscanCIadd h a b p, .vscanCXor h a b p]
    = [0x5B, 0x5C, 0x5D, 0x5E, 0x5F, 0x60, 0x61, 0x62, 0x63, 0x64, 0x65, 0x66, 0x67, 0x68, 0x69, 0x6A])
  ∧ RowReduces .vredRFadd add32 ∧ RowReduces .vredRIadd (fun x y => x + y) ∧ RowReduces .vredRXor (fun x y => x ^^^ y)
  ∧ RowReduces .vredRMax fmax32 ∧ RowReduces .vredRMin fmin32
  ∧ ColumnReduces .vredCFadd add32 ∧ ColumnReduces .vredCIadd (fun x y => x + y) ∧ ColumnReduces .vredCXor (fun x y => x ^^^ y)
  ∧ ColumnReduces .vredCMax fmax32 ∧ ColumnReduces .vredCMin fmin32
  ∧ RowScans .vscanRFadd add32 ∧ RowScans .vscanRIadd (fun x y => x + y) ∧ RowScans .vscanRXor (fun x y => x ^^^ y)
  ∧ ColumnScans .vscanCFadd add32 ∧ ColumnScans .vscanCIadd (fun x y => x + y) ∧ ColumnScans .vscanCXor (fun x y => x ^^^ y)

/-- VCPR packs the selected lanes (R402); RPOP reads a quarter of the tail tile (R403, R201). -/
def Obligations.CompressAndPop : Prop :=
  (∀ h a b (sn : BitVec 1) m s,
    let o := s.curOwner
    let k := s.curCore
    let lanes := (List.range 1024).filter fun l => o.lam.getLsbD l && decide ((rmask o m).getLsbD l = decide (sn = 0))
    (∀ e ∈ k.vErr, e / 4096 = o.vbase + b.toNat → e % 4096 / 4 ∉ lanes) → MaskGood o m →
    Does (.vcpr h a b sn m) h false 1 [(10, .vreg a.toNat (ctab 1024 fun l =>
      if l < lanes.length then cget (vlanes k o b) (lanes.getD l 0) else 0) o.lam)] [] s)
  ∧ ∀ h a (q : BitVec 2) s,
    let o := s.curOwner
    let k := s.curCore
    let base := tilePhys o o.tail * 4096 + q.toNat * 1024
    (o.full.getLsbD o.tail = true → (∀ w ∈ k.ringErr, ¬ (base ≤ 2 * w ∧ 2 * w < base + 1024)) →
      Does (.rpop h a q) h true 1 [(4, .vreg a.toNat (cslice k.ring base 1024) o.lam)] [] s)
    ∧ (o.full.getLsbD o.tail = false → Faults (.rpop h a q) h true { cause := .ringUnderrun } s)

/-! ### Issue, results and steps -/

/-- What an owner's instruction leaves alone when it issues (R185, R317, R339): of the whole state only the issuing owner
changes, and of it only its five streams, its pending results, the bank ports of the tick (and, for a block header, the
issue of the tick); a fault is added to its strand. Registers, predicates, masks, queues, claims, the ring, every memory
of every core and device memory are as before: results become visible later, by RESULT_WRITEBACK. -/
def Obligations.IssueFrame : Prop :=
  ∀ i st s t, i.onStream st = true → st ≠ .f → i.encode ≠ [] → s.cur.str ≠ .f → exec i s = .next t →
    let o := s.curOwner
    let p := t.curOwner
    t = { s with cores := t.cores, strands := t.strands, issue := t.issue }
    ∧ t.core s.cur.core = (s.core s.cur.core).setOwner s.cur.wid p
    ∧ p = { o with sc := p.sc, sl := p.sl, sm := p.sm, sv := p.sv, ss := p.ss, pend := p.pend, ports := p.ports }
    ∧ (∀ c, c ≠ s.cur.core → t.core c = s.core c)
    ∧ (∀ n, n ≠ o.sid → t.strand n = s.strand n)
    ∧ ∃ fs, t.strand o.sid = { s.strand o.sid with faults := (s.strand o.sid).faults ++ fs }

/-- What stands before an instruction's own part (R181, R184, R317): a take from a counter that holds 0 is a SCHEDULE_MISS
with the counter as its detail, whatever the guard; an instruction whose guard does not hold performs its tokens, spends
its tick, occupancy and idle count, and does nothing else. One instruction of each stream. Where two counters that it takes from are
empty, that the left neighbour's is the one reported is the model's reading (log entry 27). -/
def Obligations.TokensAndGuards : Prop :=
  ∀ (h : Hd) (a b c : BitVec 4) (oa ob : BitVec 5) (ag : BitVec 3) (cls : BitVec 4) s, s.cur.str ≠ .f →
    let o := s.curOwner
    let takes := tokenTakes (streamNum s.cur.str) h.tok
    let miss (n : Nat) : State := raise { cause := .scheduleMiss, detail := n } s
    (∀ before n after, takes = before ++ n :: after → (∀ m ∈ before, cget o.tok m ≠ 0) → cget o.tok n = 0 →
      exec (.add h a b c) s = .next (miss n) ∧ exec (.ldta h oa ag) s = .next (miss n)
      ∧ exec (.mma h oa ob) s = .next (miss n) ∧ exec (.vadd h a b c) s = .next (miss n)
      ∧ exec (.xpeek h ag cls) s = .next (miss n) ∧ exec (.nop h) s = .next (miss n))
    ∧ ((∀ n ∈ takes, cget o.tok n ≠ 0) → selects o.p (o.stream s.cur.str).blocks h.g = false →
      exec (.add h a b c) s = .next (performed h 1 [] [] s) ∧ exec (.ldta h oa ag) s = .next (performed h 1 [] [] s)
      ∧ exec (.mma h oa ob) s = .next (performed h (mmaOcc false o) [] [] s)
      ∧ exec (.vadd h a b c) s = .next (performed h 1 [] [] s) ∧ exec (.xpeek h ag cls) s = .next (performed h 1 [] [] s))

/-- RESULT_WRITEBACK (R185, R186, R203): a result that falls due changes its own place and nothing else. First for an owner
of which exactly one result is due; x0 discards it (R172), a use of an ag set adds STEP to BASE, and a vector register, a
mask or a ring tile takes it as its rule says (R377, R359); a tile that is accumulated onto must pass its parity (R213); a store
ends what the model keeps of an unacquired line's old contents (log entry 16). A claim or a release sets or clears its own bits of
the owner's claims and no other (R340). Then for any number of results: of those of one tick that write one register, or one lane of a
vector register, the one issued later by its stream, or of the stream later in the order C, L, M, V, S, is kept. States that exec
answers a next state, with the effect of the step itself, of: resultWriteback. -/
def Obligations.ResultsAppear : Prop :=
  (∀ (c w : Nat) (p : Pend) (s : State),
     let k := s.core c
     let o := s.owner c w
     let due (q : Pend) : Bool := decide (q.due ≤ o.tick)
     let o1 := { o with pend := o.pend.filter fun q => !due q, ports := [] }
     let shows (k' : CoreSt) (o' : Owner) : Prop :=
       exec (.resultWriteback c w) s = .next (s.setCore c (k'.setOwner w o'))
     o.pend.filter due = [p] →
     (∀ r v, p.eff = .x r v → shows k (if r = 0 then o1 else { o1 with x := tset o.x r.toNat v }))
     ∧ (∀ r b, p.eff = .pred r b → shows k { o1 with p := setPred o.p r b })
     ∧ (∀ r v, p.eff = .ereg r v → shows k { o1 with e := cset o.e r.toNat v })
     ∧ (∀ r v, p.eff = .lc r v → shows k { o1 with lc := cset o.lc r.toNat v })
     ∧ (∀ a v, p.eff = .agField a 0 v → shows k { o1 with ag := tset o.ag a.toNat { rag o a with base := v.setWidth 32 } })
     ∧ (∀ a v, p.eff = .agField a 1 v → shows k { o1 with ag := tset o.ag a.toNat { rag o a with len0 := v.setWidth 17 } })
     ∧ (∀ a v, p.eff = .agField a 2 v → shows k { o1 with ag := tset o.ag a.toNat { rag o a with str1 := v.setWidth 32 } })
     ∧ (∀ a v, p.eff = .agField a 3 v → shows k { o1 with ag := tset o.ag a.toNat { rag o a with cnt1 := v.setWidth 16 } })
     ∧ (∀ a v, p.eff = .agField a 4 v → shows k { o1 with ag := tset o.ag a.toNat { rag o a with step := v.setWidth 32 } })
     ∧ (∀ a, p.eff = .agUse a → shows k
         { o1 with ag := tset o.ag a.toNat { rag o a with base := (rag o a).base + (rag o a).step } })
     ∧ (∀ v, p.eff = .fqPush v → shows k { o1 with fq := o.fq ++ [v] })
     ∧ (p.eff = .fqPop → shows k { o1 with fq := o.fq.tail })
     ∧ (∀ n, p.eff = .token n true → shows k { o1 with tok := cset o.tok n (cget o.tok n + 1) })
     ∧ (∀ n, p.eff = .token n false → shows k { o1 with tok := cset o.tok n (cget o.tok n - 1) })
     ∧ (p.eff = .ring .radv → shows k
         { o1 with full := o.full ||| (1#8 <<< o.head), head := (o.head + 1) % max o.tiles.length 1 })
     ∧ (p.eff = .ring .rskip → shows k { o1 with head := (o.head + 1) % max o.tiles.length 1 })
     ∧ (p.eff = .ring .rfree → shows k
         { o1 with full := o.full &&& ~~~(1#8 <<< o.tail), tail := (o.tail + 1) % max o.tiles.length 1 })
     ∧ (∀ v, p.eff = .lam v → shows k { o1 with lam := v })
     ∧ (∀ l, p.eff = .win l → shows { winWrite k (l.map fun x => (o.winBase + x.1, x.2)) with
         unseen := k.unseen.filter fun u => decide (∀ x ∈ l, (o.winBase + x.1) / 64 ≠ u.line) } o1)
     ∧ (∀ r v act, p.eff = .vreg r v act → shows (dueVreg k o r v act) o1)
     ∧ (∀ r v act, p.eff = .mask r v act → shows k (dueMask o1 r.toNat v act))
     ∧ (∀ t x, p.eff = .tile t x → (x.reads = false ∨ ∀ e ∈ k.ringErr, e / 2048 ≠ t) → shows (dueTile k t x) o1))
  ∧ (∀ (k : CoreSt) (o : Owner) (a n i : Nat) (set : Bool), a + n ≤ 32 → i < 32 →
       (dueEffect k o (.claim a n set)).2.claims.getLsbD i
         = (if a ≤ i ∧ i < a + n then set else o.claims.getLsbD i))
  ∧ (∀ (c w : Nat) (p : Pend) (s : State),
       let o := s.owner c w
       (∀ r v, p.eff = .x r v → r ≠ 0 → LastDue o p (fun e => ∃ u, e = .x r u) →
         ∃ t, exec (.resultWriteback c w) s = .next t ∧ rx (t.owner c w) r = v)
       ∧ (∀ (r : BitVec 4) v act l, p.eff = .vreg r.toNat v act → l < 1024 → act.getLsbD l = true →
         LastDue o p (fun e => ∃ u a, e = .vreg r.toNat u a ∧ a.getLsbD l = true) →
         ∃ t, exec (.resultWriteback c w) s = .next t ∧ cget (vlanes (t.core c) (t.owner c w) r) l = cget v l))

/-- A store changes the bytes it names and no other: bytes of the scratchpad read as before but where the write puts
them, with a later byte of one list over an earlier; a whole 8-byte word renews its check, a whole line clears its
poison (R213, R214, R217). -/
def Obligations.WindowWrites : Prop :=
  ∀ (k : CoreSt) (l : List (Nat × Byte)),
    let t := winWrite k l
    (∀ a, (∀ x ∈ l, x.1 ≠ a) → cget t.win a = cget k.win a)
    ∧ (∀ before a b after, l = before ++ (a, b) :: after → (∀ x ∈ after, x.1 ≠ a) → cget t.win a = b)
    ∧ (∀ w, w ∈ t.winErr ↔ w ∈ k.winErr ∧ ¬ ∀ i < 8, ∃ x ∈ l, x.1 = 8 * w + i)
    ∧ (∀ n, n ∈ t.winPoison ↔ n ∈ k.winPoison ∧ ¬ ∀ i < 64, ∃ x ∈ l, x.1 = 64 * n + i)
    ∧ t = { k with win := t.win, winErr := t.winErr, winPoison := t.winPoison }

/-- A step (R2, R175, R179, R213, R298): it carries out the oldest operation that waits; else it runs the instruction that the
parcels at the program counter of the next slot decode to, on an owner's stream that is ready, or in the firmware context with the
bank ports that the instruction needs there, which it waits for (R83, R199); parcels that fail their check fault the strand; else time
passes.
The package is dark once its power is off: of what arrives from outside, only the BMC's power-up is taken, and anything else is
dropped (R10, R11, and the model's reading, log entry 30). The order agenda, then slots, then time is log entry 6; the stop of a step
of a dark package that nothing raises is log entry 10; that Cobbler takes the ports of an access all at once is log entry 111. -/
def Obligations.StepRuns : Prop :=
  (∀ s : State,
     (∀ i l, s.agenda = i :: l → step s = exec i { s with agenda := l })
     ∧ (∀ x l i n, s.agenda = [] → s.issue = x :: l →
         let o := s.owner x.core x.wid
         let t := o.stream x.str
         x.str ≠ .f → t.ready o.tick = true → parcelsFail (o.failing x.str) t.img t.pc = false →
         decode x.str (t.img.drop t.pc) = .ok (i, n) → step s = exec i { s with issue := l, cur := x })
     ∧ (∀ x l, s.agenda = [] → s.issue = x :: l →
         let o := s.owner x.core x.wid
         let t := o.stream x.str
         x.str ≠ .f → t.ready o.tick = true → parcelsFail (o.failing x.str) t.img t.pc = true →
         step s = .next (raise { cause := .operandParity } { s with issue := l, cur := x }))
     ∧ (∀ x l, s.agenda = [] → s.issue = x :: l → x.str ≠ .f →
         ((s.owner x.core x.wid).stream x.str).ready (s.owner x.core x.wid).tick = false →
         step s = .next { s with issue := l, cur := x })
     ∧ (∀ x l i n, s.agenda = [] → s.issue = x :: l →
         let b := s.cob x.core
         let s' := { s with issue := l, cur := x }
         x.str = .f → (s.core x.core).locked = false → b.cur ≠ none → parcelsFail b.imErr b.img b.pc = false →
         decode .f (b.img.drop b.pc) = .ok (i, n) →
         let want := cobPorts x.core i s'
         let free (p : PortReq) : Prop := portOpen s' p = true ∧ cseFirst s' p = false
         (want = [] → step s = exec i s')
         ∧ ((∀ p ∈ want, free p) → ∃ u, step s = exec i u ∧ u = { s' with cores := u.cores }
             ∧ ∀ c, u.core c = { s'.core c with used := (u.core c).used })
         ∧ ((∃ p ∈ want, ¬ free p) → ∃ u, step s = .next u ∧ ∀ c, u.cob c = s'.cob c))
     ∧ (s.agenda = [] → s.issue = [] → step s = advance s))
  ∧ (∀ s : State, s.pwr.on = false → s.agenda = [] → s.issue = [] →
       (s.inputs = [] → step s = .fault .dark)
       ∧ (∀ c l, s.inputs = (c, .powerUpSequence) :: l → step s = .next { s with inputs := l, agenda := [.powerUpSequence] })
       ∧ ∀ c i l, i ≠ .powerUpSequence → s.inputs = (c, i) :: l → step s = .next { s with inputs := l })

/-- A cycle of origin time passes in parts (R2, R3, R157, R216): what falls due in it, with the oldest access of the host where that is
one to memory, is put in the order of R216, SC operations, the cores in increasing number, the CFE, the host proxy, the fabric proxy,
and performs one after the other; then the cycle counter moves by one, the accesses to registers of the new cycle come first, its
switches and its stalls follow, and its ticks begin. The parts, what stands in none of the agents that R216 ranks, and the ports of
Cobbler taken all at once are the model's; R3 and R216 say what comes before what (log entries 6, 10, 111). -/
def Obligations.CyclePasses : Prop :=
  ∀ s : State, s.pwr.on = true → s.agenda = [] → s.issue = [] →
    let now (i : Instr) (l : List Instr) : Res := .next { s with due := l, agenda := [i] }
    let sorted (l : List Instr) : Prop := l.Pairwise fun a b => agentRank s a ≤ agentRank s b
    (∀ i l, s.phase ≤ 4 → s.phase ≠ 1 → s.phase ≠ 2 → s.due = i :: l → step s = now i l)
    ∧ (s.phase = 0 → s.due = [] → (∀ x ∈ s.strands, x.2.inTick = false) → ∃ t, step s = .next t ∧ t.phase = 1 ∧ t.cycle = s.cycle
      ∧ t.agenda = [] ∧ (∀ x ∈ s.timers, x.1 ≤ s.cycle → x.2 ∈ t.due) ∧ (∀ x ∈ s.nsTimers, x.1 ≤ s.ref → x.2 ∈ t.due)
      ∧ (∀ x ∈ s.inputs, x.1 ≤ s.cycle → deviceEvent x.2 = true → x.2 ∈ t.due)
      ∧ (∀ x, nextHost s true = some x → x.2 ∈ t.due) ∧ sorted t.due)
    ∧ (∀ i l, s.phase = 1 → s.due = i :: l → agentRank s i = 0 → step s = now i l)
    ∧ (∀ i l, s.phase = 1 → s.due = i :: l → agentRank s i ≠ 0 → ∃ t, step s = .next t ∧ t = { s with due := t.due, phase := 2 }
      ∧ t.due.Perm s.due ∧ sorted t.due)
    ∧ (∀ i l, s.phase = 2 → s.due = i :: l → agentRank s i < cfeRank → step s = now i l)
    ∧ (∀ i l, s.phase = 2 → s.due = i :: l → cfeRank ≤ agentRank s i → s.posts = [] → step s = .next { s with phase := 3 })
    ∧ ((s.phase = 1 ∨ s.phase = 2) → s.due = [] → s.posts = [] → step s = .next { s with phase := 3 })
    ∧ (s.cores = [] → s.strands = [] → s.phase = 3 → s.due = [] → ∃ t, step s = .next t ∧ t.phase = 4 ∧ t.cycle = s.cycle + 1)
    ∧ (∀ x, s.phase = 4 → s.due = [] → nextHost s false = some x →
        step s = .next { s with inputs := s.inputs.erase x, agenda := [x.2] })
    ∧ (s.phase = 4 → s.due = [] → nextHost s false = none → (∀ x ∈ s.timers, x.1 ≤ s.cycle → hubAccess s x.2 = false) →
        ∃ t, step s = .next t ∧ t.phase = 5 ∧ t.cycle = s.cycle)
    ∧ (s.phase = 5 → step s = .next { s with agenda := stallEnds s, phase := 6 })
    ∧ (s.cores = [] → s.strands = [] → s.phase = 6 → ∃ t, step s = .next t ∧ t.phase = 0 ∧ t.cycle = s.cycle)

/-! ### Encodings -/

/-- Decoding takes back what encoding gives (R298-R311): an instruction that is well formed on a stream, encoded, followed
by anything, decodes there to itself, with every operand at every value that the encoding admits, and takes its own
parcels. -/
def Obligations.DecodeEncode : Prop :=
  ∀ (i : Instr) (st : StreamId) (rest : List Parcel), i.wellFormed = true → i.onStream st = true → i.encode ≠ [] →
    decode st (i.encode ++ rest) = .ok (i, i.encode.length)

/-- Words written out from the encoding tables decode to the instructions that they stand for (R298-R311): worked
encodings of chapters 16-20 and words of every stream; and what the decoder refuses (R312, R421). -/
def Obligations.DecodeWords : Prop :=
  decode .c [0b0_01000_00_0010_0011] = .ok (.pset ⟨0, 0b0010, 0⟩ 3, 1)
  ∧ decode .v [0b0_00010_00_0000_0101] = .ok (.vzero ⟨0, 0, 0⟩ 5, 1)
  ∧ decode .c [0b1_0000100_0010_0000, 0b0000_0101_0101_0100] = .ok (.add ⟨2, 0, 0⟩ 5 5 4, 2)
  ∧ decode .c [0b1_1000100_0001_0000, 0b0000_0100_0000_0000] = .ok (.rdl ⟨1, 0, 0⟩ 4 0, 2)
  ∧ decode .c [0b1111_000000000010, 0b0_000_000000000100] = .ok (.blockHeader 2 0 0 4, 2)
  ∧ decode .c [0xB300, 0x06BD] = .ok (.ceqi ⟨0, 0, 0⟩ 6 5 0b11101, 2)
  ∧ decode .c [0xA400, 0xA789] = .ok (.sel ⟨0, 0, 0⟩ 10 7 8 9, 2)
  ∧ decode .c [0xBE00, 0x0453] = .ok (.ldD ⟨0, 0, 0⟩ 4 5 3, 2)
  ∧ decode .c [0x8200, 0x4014] = .ok (.sync ⟨0, 0, 0⟩ 4 20, 2)
  ∧ decode .s [0x8304, 0x0005] = .ok (.mark ⟨0, 0b0100, 0⟩ 5, 2)
  ∧ decode .l [0x8604, 0x21D0] = .ok (.ldta ⟨0, 0b0100, 2⟩ 3 5, 2)
  ∧ decode .s [0x8A20, 0x044D] = .ok (.xrd ⟨2, 0, 0⟩ 2 1 3 1, 2)
  ∧ decode .m [0x8404, 0x2004] = .ok (.mma ⟨0, 0b0100, 2⟩ 0 1, 2)
  ∧ decode .m [0x8800, 0x0204] = .ok (.tcfg ⟨0, 0, 0⟩ 4 1, 2)
  ∧ decode .v [0x8430, 0x3123] = .ok (.vfadd ⟨3, 0, 3⟩ 1 2 3, 2)
  ∧ decode .v [0xC400, 0x123C] = .ok (.vsel ⟨0, 0, 0⟩ 1 2 3 1 4, 2)
  ∧ decode .v [0xD500, 0x1285] = .ok (.vrotR ⟨0, 0, 0⟩ 1 2 1 5, 2)
  ∧ decode .v [0xEB00, 0x120B] = .ok (.vcpr ⟨0, 0, 0⟩ 1 2 1 3, 2)
  ∧ decode .f [0b1_1100011_0000_0000, 0b0000_0001_0010_0000] = .ok (.waitev ⟨0, 0, 0⟩ 1 2, 2)
  ∧ decode .c [0x2C00] = .error .unassigned
  ∧ decode .c [0b1_1100011_0000_0000, 0b0000_0001_0010_0000] = .error .privileged
  ∧ decode .m [0x8600, 0x0001] = .error .badField
  ∧ decode .c [0x8420] = .error .cutOff

/-! ### The package and its power -/

/-- What is true right after cold reset (R14, R19, R20, R32, R44, R86, R144): the timebase and the nanosecond clock read
0, the frequency and ceiling steps are 0, the cap is 2000 W, memory lists nothing, no function, partition, VD, queue,
strand or meter is set up, and the registers hold the values that their maps give. That the boot ROM is the first thing to
run is R87; that unlisted bytes read 0 is a choice of the model (log entry 2). -/
def Obligations.ResetState : Prop :=
  let s := State.reset
  s.cycle = 0 ∧ s.ns = 0 ∧ s.pwr.step = 0 ∧ s.pwr.ceil = 0 ∧ s.pwr.cap = 2000 ∧ s.pwr.lowered = 0 ∧ s.pwr.therm = false
  ∧ s.mem = [] ∧ s.fns = [] ∧ s.parts = [] ∧ s.vds = [] ∧ s.queues = [] ∧ s.cqs = [] ∧ s.strands = [] ∧ s.cores = []
  ∧ s.wm.meters = [] ∧ s.wm.ckpt = 10 ∧ s.fw.share = 8 ∧ s.fw.limit = 0x01000000 ∧ s.fw.use = false ∧ s.klk.tmo = 10000
  ∧ s.plc.lease = 10000 ∧ s.plc.lead = 0x040000 ∧ s.plc.slow = true ∧ s.plc.fast = true ∧ s.mfApr = 0
  ∧ s.agenda = [.firmwareBoot] ∧ s.memWf = true
  ∧ s.pwr.legal = true

/-- Power-up, cold reset and a rail fault (R11, R14): each leaves the package in the state right after cold reset, or dark
without any state. What stands outside the package is kept: host memory, what is to arrive, what was sent, and the module's
firmware store; that split is the model's reading (log entry 30), and that a ceiling outside 0-13 is ignored log entry 57. The sensors, the ceiling, the cap, refresh and the
nanosecond clock (R7, R12, R18, R19, R20, R159): THERM tells of a junction at 100 °C, and one at 110 °C makes the BMC remove
power; a ceiling is taken within 0-13; CAP is taken within 500-2000; a write of the nanosecond clock waits for the reference
edge, and one below the reading is ignored. States that exec answers a next state, with the effect of the step itself, of:
coldReset, powerUpSequence, railFault, junctionSensorRead, ceilingSet, hbPwrCapWrite, hbmRefresh, nsclkWrite. -/
def Obligations.PackageOperations : Prop :=
  (∀ s : State,
     let out (ops : List Instr) (p : Power) : State :=
       { State.reset with
         agenda := ops, inputs := s.inputs, free := s.free, host := s.host, hostPoison := s.hostPoison, out := s.out
         fw := { store := s.fw.store }, pwr := p }
     exec .coldReset s = .next (out [.firmwareBoot] { rails := s.pwr.rails, on := s.pwr.on })
     ∧ (s.pwr.on = false → exec .powerUpSequence s
         = .next (out [.firmwareBoot] { rails := [0, 1, 2, 3, 4, 5, 6, 7, 8], on := true }))
     ∧ (s.pwr.on = true → exec .powerUpSequence s = .next s)
     ∧ exec .railFault s = .next (out [] { rails := [], on := false, trip := s.pwr.trip }))
  ∧ (∀ s : State,
       (∀ temps : List Nat, (∀ x ∈ temps, x < 110) → exec (.junctionSensorRead temps) s
           = .next { s with pwr := { s.pwr with therm := decide (∃ x ∈ temps, 100 ≤ x) } })
       ∧ (∀ (temps : List Nat), (∃ x ∈ temps, 110 ≤ x) → exec (.junctionSensorRead temps) s
           = .next { s with
               pwr := { s.pwr with therm := true, trip := true }
               out := s.out ++ [.thermalTrip], agenda := s.agenda ++ [.railFault] })
       ∧ (∀ n, n ≤ 13 → exec (.ceilingSet n) s = .next { s with pwr := { s.pwr with ceil := BitVec.ofNat 4 n } })
       ∧ (∀ n, 13 < n → exec (.ceilingSet n) s = .next s)
       ∧ (∀ v : BitVec 64, ∃ t, exec (.hbPwrCapWrite v) s = .next t ∧ t = { s with pwr := { s.pwr with cap := t.pwr.cap } }
           ∧ t.pwr.cap.toNat = max 500 (min 2000 (v.toNat % 2048)))
       ∧ exec .hbmRefresh s = .next { s with pwr := { s.pwr with refresh := s.cycle } }
       ∧ (∀ v : BitVec 64, s.ns ≤ v.toNat → exec (.nsclkWrite v) s = .next { s with nsWrite := some v.toNat })
       ∧ (∀ v : BitVec 64, v.toNat < s.ns → exec (.nsclkWrite v) s = .next s))

/-- The ceiling step, and the end of a revolution (R16, R17, R18, R19, R20): the governor moves to CEIL where the package
runs faster than it; lowers the frequency by a step where the mean exceeds the cap or a junction is hot; raises it by one
where the mean has been below 95 % of the cap and every junction cool for 1,024 revolutions and the step number exceeds
CEIL; else it holds. LOWERED counts the steps down, FLOOR tells of step 13 with the mean above the cap. The model's readings (log
entry 57): a cap written in the revolution that ends is the one that the decision at its boundary compares with, which is how it reads
"from the next revolution boundary" of R19; LOWERED counts steps; a ceiling outside 0-13 is ignored. States that exec answers a next
state, with the effect of the step itself, of: ceilingSet, governorRevolution. -/
def Obligations.GovernorActs : Prop :=
  ∀ (mean : Nat) (s : State),
    let p := s.pwr
    let low := decide (mean * 100 < p.cap.toNat * 95000)
    let lower := decide (p.cap.toNat * 1000 < mean) || p.therm
    let rise := low && decide (1024 ≤ p.lowRev + 1) && decide (1024 ≤ p.coolRev + 1) && decide (p.ceil.toNat < p.step.toNat)
    (∀ n, n ≤ 13 → exec (.ceilingSet n) s = .next { s with pwr := { p with ceil := BitVec.ofNat 4 n } })
    ∧ (p.legal = true →
    ∃ t, exec (.governorRevolution mean) s = .next t
      ∧ t = { s with pwr := t.pwr }
      ∧ (p.step.toNat < p.ceil.toNat → t.pwr.step = p.ceil)
      ∧ (p.ceil.toNat ≤ p.step.toNat → lower = true → t.pwr.step.toNat = min (p.step.toNat + 1) 13)
      ∧ (p.ceil.toNat ≤ p.step.toNat → lower = false → rise = true → t.pwr.step.toNat + 1 = p.step.toNat)
      ∧ (p.ceil.toNat ≤ p.step.toNat → lower = false → rise = false → t.pwr.step = p.step)
      ∧ t.pwr.lowered.toNat = min (p.lowered.toNat + (t.pwr.step.toNat - p.step.toNat)) 0xFFFFFFFF
      ∧ t.pwr.floor = (decide (t.pwr.step = 13) && decide (p.cap.toNat * 1000 < mean))
      ∧ t.pwr.capNow = p.cap ∧ t.pwr.cap = p.cap ∧ t.pwr.ceil = p.ceil ∧ t.pwr.therm = p.therm
      ∧ t.pwr.lowRev = (if low then p.lowRev + 1 else 0) ∧ t.pwr.coolRev = (if p.therm then 0 else p.coolRev + 1))

/-- FIRMWARE_BOOT from the firmware store (R87, R88): with every image accepted the firmware is booted, the measurements are
the images', and each Cobbler stands at a reset with RESET ahead of its events; the first image that is not accepted stops
the boot with its kind and its cause, and the functions of a package that has not booted answer all ones. States that exec
answers a next state, with the effect of the step itself, of: firmwareBoot. -/
def Obligations.FirmwareBoot : Prop :=
  ∀ s : State, s.fw.use = false →
    let img (k : Nat) : List Byte := s.fw.store.getD (k - 1) []
    ((∀ k ∈ [1, 2, 3, 4], imageFault k (img k) = 0) →
      ∃ t, exec .firmwareBoot s = .next t ∧ t = { s with fw := t.fw, cores := t.cores }
        ∧ t.fw.booted = true ∧ t.fw.failKind = 0 ∧ t.fw.failCause = 0 ∧ t.fw.meas = s.fw.store.map measurement
        ∧ ∀ c < 1536, (t.core c).cob.x = [] ∧ (t.core c).cob.e = [] ∧ (t.core c).cob.p = 0 ∧ (t.core c).cob.cur = none
            ∧ (t.core c).cob.queue.head?.map (·.kind) = some .reset)
    ∧ (∀ k, 1 ≤ k → k ≤ 4 → (∀ j, 1 ≤ j → j < k → imageFault j (img j) = 0) → imageFault k (img k) ≠ 0 →
      ∃ t, exec .firmwareBoot s = .next t ∧ t = { s with fw := t.fw }
        ∧ t.fw.booted = false ∧ t.fw.failKind.toNat = k ∧ t.fw.failCause.toNat = imageFault k (img k)
        ∧ ∀ fn, 1 ≤ fn → fn ≤ 32 → gate t fn = .allOnes)

/-! ### Functions of the host port -/

/-- Function-level and hot resets (R24, R32, R33): an FLR of the MF resets its queues, CQs, MSI-X state and HB_MF_APR and
nothing else; an FLR of a function without a VD does so at once, one with a VD ends the VD first: accesses are dropped from
then on, and the packets that have started, and the heads that have not, are gone; and a PF's clears VF Enable and NumVFs. A
hot reset restores the link, and the PLC_ and FW_ blocks but FW_RCTL. That the TDI is CONFIG_UNLOCKED after an FLR is log entry 60,
where VFs have their place log entry 100. States that exec answers a next state, with the effect of the step itself, of: mfFlr, vfFlr,
pfFlr, hotReset. -/
def Obligations.FunctionResets : Prop :=
  ∀ s : State,
    (∃ t, exec .mfFlr s = .next t
      ∧ t = { s with fns := t.fns, queues := t.queues, cqs := t.cqs, runs := t.runs, sigHeld := t.sigHeld,
                     posts := t.posts, timers := t.timers, nsTimers := t.nsTimers, due := t.due, mfApr := 0 }
      ∧ (∀ q < 64, t.queue 0 q = {} ∧ t.cq 0 q = {}) ∧ (t.fn 0).msixMask = ({} : Fn).msixMask ∧ (t.fn 0).pba = 0
      ∧ (∀ f, f ≠ 0 → t.fn f = s.fn f) ∧ (∀ f q, f ≠ 0 → q < 64 → t.queue f q = s.queue f q ∧ t.cq f q = s.cq f q))
    ∧ (∀ fn, hasVd s fn = false → ∃ t, exec (.vfFlr fn) s = .next t
        ∧ (∀ q < 64, t.queue fn q = {} ∧ t.cq fn q = {}) ∧ (t.fn fn).apr = 0 ∧ (t.fn fn).tdi = .configUnlocked
        ∧ (∀ f, f ≠ fn → t.fn f = s.fn f))
    ∧ (∀ fn, hasVd s fn = true → (s.vd fn).closing = false → s.strands = [] → s.wm.meters = [] →
        ∃ t, exec (.vfFlr fn) s = .next t ∧ t.vd fn = { s.vd fn with closing := true, flr := 9 }
          ∧ t.agenda = s.agenda ++ [.vfFlr fn] ∧ t.mem = s.mem ∧ t.parts = s.parts ∧ t.wm = s.wm
          ∧ (∀ r ∈ t.runs, r ∈ s.runs ∧ (r.fn = fn → r.pkt.type = 1)) ∧ ∀ q < 64, (t.queue fn q).head = none)
    ∧ (∀ fn v, s.vds = [(fn, v)] → v.closing = true → v.flr % 2 = 1 → hasStrands s fn = false →
        ∃ t, exec (.vfFlr fn) s = .next t ∧ hasVd t fn = false ∧ (∀ q < 64, t.queue fn q = {} ∧ t.cq fn q = {})
          ∧ t.mem = s.mem ∧ t.wm.meters = s.wm.meters ∧ t.parts = s.parts)
    ∧ (∀ pf, 1 ≤ pf → pf ≤ 32 → ∃ t, exec (.pfFlr pf) s = .next t ∧ (t.fn pf).vfEnable = false ∧ (t.fn pf).numVfs = 0)
    ∧ (∃ t, exec .hotReset s = .next t ∧ t.link = {} ∧ t.fw.share = 8 ∧ t.fw.limit = 0x01000000 ∧ t.fw.failKind = 0
        ∧ t.plc.lease = 10000 ∧ t.plc.lead = 0x040000 ∧ t.plc.slow = true ∧ t.plc.migBusy = false)

/-- Virtual functions, TDISP, IDE and the link (R21, R24, R37, R38): VF Enable takes effect where the pool of 256 is not
exceeded, the partition exists and the VFs have a place that meets no enabled VF; NumVFs is written while VF Enable is 0; a
TDI locks, starts, stops and reports as its state lets it, and ignores what its state does not allow; a key is set under an SPDM
session, and ends the Insecure state (both log entry 60); the link trains at x16, x8 or x4, and what does not train is logged, as is,
where a free value has it so (log entry 127), an error of the data link that made the link train anew. Where no place is free VF
Enable is not taken (log entry 100). States that exec answers a next
state, with the effect of the step itself, of: vfEnableWrite, numvfsWrite, tdispRequest, ideKeyProgramming,
pcieLinkTraining. -/
def Obligations.FunctionControl : Prop :=
  ∀ s : State,
    (∀ pf, 1 ≤ pf → pf ≤ 32 → (s.fn pf).vfEnable = false → (s.fn pf).tdi = .configUnlocked →
        vfsElse s pf + (s.fn pf).numVfs ≤ 256 → (tget {} s.parts pf).v = true →
        (∀ a, vfHome s pf = some a → ∃ t, exec (.vfEnableWrite pf true) s = .next t
          ∧ t.fn pf = { s.fn pf with vfEnable := true, firstVf := a })
        ∧ (vfHome s pf = none → exec (.vfEnableWrite pf true) s = .next s))
    ∧ (∀ pf a, vfHome s pf = some a → 33 ≤ a ∧ a + (s.fn pf).numVfs ≤ 289
        ∧ ∀ r ∈ vfRanges s, a + (s.fn pf).numVfs ≤ r.1 ∨ r.1 + r.2 ≤ a)
    ∧ (∀ pf, (s.fn pf).vfEnable = false → (256 < vfsElse s pf + (s.fn pf).numVfs ∨ (tget {} s.parts pf).v = false) →
        exec (.vfEnableWrite pf true) s = .next s)
    ∧ (∀ pf n, 1 ≤ pf → pf ≤ 32 → n ≤ 64 → (s.fn pf).vfEnable = false → (s.fn pf).tdi = .configUnlocked →
        ∃ t, exec (.numvfsWrite pf n) s = .next t ∧ (t.fn pf).numVfs = n ∧ (t.fn pf).vfEnable = false)
    ∧ (∀ pf n, (s.fn pf).vfEnable = true → exec (.numvfsWrite pf n) s = .next s)
    ∧ (∀ fn, fn ≠ 0 → fnExists s fn = true →
        ((s.fn fn).tdi = .configUnlocked →
          exec (.tdispRequest fn .lock) s = .next (s.setFn fn { s.fn fn with tdi := .configLocked }))
        ∧ ((s.fn fn).tdi = .configLocked →
          exec (.tdispRequest fn .start) s = .next (s.setFn fn { s.fn fn with tdi := .run }))
        ∧ ((s.fn fn).tdi = .run →
          exec (.tdispRequest fn .stop) s = .next (s.setFn fn { s.fn fn with tdi := .configUnlocked })
          ∧ exec (.tdispRequest fn .report) s = .next { s with out := s.out ++ [.tdispReport fn (tdiReport s fn)] })
        ∧ ((s.fn fn).tdi ≠ .configUnlocked → exec (.tdispRequest fn .lock) s = .next s)
        ∧ ((s.fn fn).tdi ≠ .configLocked → exec (.tdispRequest fn .start) s = .next s)
        ∧ ((s.fn fn).tdi = .configUnlocked ∨ (s.fn fn).tdi = .error → exec (.tdispRequest fn .report) s = .next s))
    ∧ (∀ st key, st ≤ 32 → s.link.session = true → ∃ t, exec (.ideKeyProgramming st key) s = .next t
        ∧ tget 0 t.link.ideKeys st = key ∧ st ∉ t.link.insecure ∧ t = { s with link := t.link })
    ∧ (∀ st key, s.link.session = false ∨ 32 < st → exec (.ideKeyProgramming st key) s = .next s)
    ∧ (∀ gen width flit,
        let good : Prop := 1 ≤ gen ∧ gen ≤ 6 ∧ (width = 16 ∨ width = 8 ∨ width = 4)
        let link := { s.link with up := true, gen := gen, width := width, active := width, flit := decide (gen = 6) || flit }
        let logged (l : List AerError) (k : Link) : Prop := ∃ t, exec (.pcieLinkTraining gen width flit) s = .next t
          ∧ t = { s with free := s.free + 1, fns := t.fns, link := k } ∧ (∀ f, f ≠ 0 → t.fn f = s.fn f)
          ∧ ((t.fn 0).aer = (s.fn 0).aer ++ l ∨ (t.fn 0).aer = (s.fn 0).aer ++ .dataLink :: l)
        (s.link.up = false → good → exec (.pcieLinkTraining gen width flit) s = .next { s with link := link })
        ∧ (s.link.up = false → ¬ good → exec (.pcieLinkTraining gen width flit) s = .next (logAer 0 .link s))
        ∧ (s.link.up = true → good → logged [] link) ∧ (s.link.up = true → ¬ good → logged [.link] s.link))

/-- Accesses of the host (R3, R8, R19, R21, R22, R25, R28-R31, R35-R37, R50, R226): BAR2 reads and writes a VD's memory as
transfers do, but never module memory, and a page that cannot be accessed gives Completer Abort (log entry 126); a request that is too
long is malformed, and one that fails its IDE check is dropped whatever it asks; the MF's BAR2 reaches HBM by physical address,
and a poisoned TLP poisons the lines it writes; an address that no BAR decodes is an Unsupported Request of the MF; a
timed-out read of a ring puts its queue in the error state, that of a COPY's source ends the COPY; an unmasked vector sends its pending
message once; writes and reads of registers, with what a read clears. An access to memory performs in two parts, its 8-byte words
divided among them (log entry 110); a read that meets a poisoned line answers its bytes without a mark (log entry 104); registers are
read in whole words and written by the bytes of a word (log entry 101); which of several reads a time-out is of is a free value (log
entry 127). States that exec answers a next state, with the effect of the step itself, of: hostBar2Read, hostBar2Write,
mfApertureAccess, registerWrite, rcRegisterRead, undecodedRequest, hostReadCompletionTimeout, msixVectorUnmask, hbActDenyRead. -/
def Obligations.HostAccesses : Prop :=
  ∀ s : State,
    let again (i : Instr) (t : Torn) (u : State) : State := { u with tornHost := some t, inputs := (s.cycle + 1, i) :: u.inputs }
    (∀ fn off len ep, gate s fn = .ok → hasVd s fn = true → sealedRange s fn (aperVa s fn off) len = false → len ≤ 4096 →
        let i := Instr.hostBar2Read fn ⟨off, none, ep⟩ len
        (∀ u x, s.tornHost = none → vreadFirst (barXlate s fn false) s (aperVa s fn off) len = .ok (u, x) →
          exec i s = .next (again i x u) ∧ u = { s with free := u.free })
        ∧ (∀ x, s.tornHost = some x → ∃ t, exec i s = .next t
          ∧ t = { s with tornHost := none, wm := t.wm, enOper := t.enOper, est := t.est
                         out := s.out ++ [.readData fn off (getRest x s).1] }))
    ∧ (∀ fn off len ep, gate s fn = .ok → len ≤ 4096 → s.tornHost = none →
        (hasVd s fn = false ∨ sealedRange s fn (aperVa s fn off) len = true
          ∨ ∃ e, vreadFirst (barXlate s fn false) s (aperVa s fn off) len = .error e) →
        exec (.hostBar2Read fn ⟨off, none, ep⟩ len) s
          = .next (logAer fn .completerAbort { s with out := s.out ++ [.completerAbort fn] }))
    ∧ (∀ fn off data, gate s fn = .ok → hasVd s fn = true → data.length ≤ 512 →
        let i := Instr.hostBar2Write fn off data false none
        let va := aperVa s fn off
        (∀ u x, s.tornHost = none → vwriteFirst (barXlate s fn true) s va data [] = .ok (u, x) → exec i s = .next (again i x u))
        ∧ (∀ e, s.tornHost = none → vwriteFirst (barXlate s fn true) s va data [] = .error e →
            exec i s = .next (logAer fn .completerAbort s))
        ∧ (∀ x, s.tornHost = some x → ∃ t, exec i s = .next t
            ∧ t = { putRest x data [] { s with tornHost := none } with enOper := t.enOper, est := t.est }))
    ∧ ((∀ lines, (getRest (getFirst lines s).2 (getFirst lines s).1).1 = (readParts s lines).1)
      ∧ ∀ pa bytes poison, s.memWf = true →
        let lines := paLines pa bytes.length
        (putRest (newTorn lines s) bytes poison (putFirst lines bytes poison s)).mem = csets s.mem pa bytes)
    ∧ (∀ fn wr va pa dt, barXlate s fn wr va = .ok (pa, dt) → pa < 2 ^ 39 ∧ translate s fn va wr = .ok (pa, dt))
    ∧ (∀ fn off data ep, 512 < data.length → exec (.hostBar2Write fn off data ep none) s = .next (logAer fn .malformedTlp s))
    ∧ (∀ fn off len ep, 4096 < len → exec (.hostBar2Read fn ⟨off, none, ep⟩ len) s = .next (logAer fn .malformedTlp s))
    ∧ (∀ st, ∃ t, t = { s with link := t.link, fns := t.fns } ∧ st ∈ t.link.insecure
        ∧ (t.fn 0).aer = (s.fn 0).aer ++ [.ideCheckFailed]
        ∧ (∀ fn off data ep, exec (.hostBar2Write fn off data ep (some st)) s = .next t)
        ∧ (∀ fn off len ep, exec (.hostBar2Read fn ⟨off, some st, ep⟩ len) s = .next t)
        ∧ (∀ off len wr ep, exec (.mfApertureAccess ⟨off, some st, ep⟩ len wr) s = .next t)
        ∧ (∀ fn off size v ep, exec (.registerWrite fn ⟨off, some st, ep⟩ size v) s = .next t)
        ∧ (∀ fn off ep, exec (.rcRegisterRead fn ⟨off, some st, ep⟩) s = .next t)
        ∧ (∀ off ep, exec (.undecodedRequest ⟨off, some st, ep⟩) s = .next t))
    ∧ (∀ off len ep, gate s 0 = .ok → len ≤ 4096 → s.mfApr.toNat * 2 ^ 36 + off + len ≤ 2 ^ 39 →
        let lines := paLines (s.mfApr.toNat * 2 ^ 36 + off) len
        let i := Instr.mfApertureAccess ⟨off, none, ep⟩ len none
        (s.tornHost = none → exec i s = .next (again i (getFirst lines s).2 (getFirst lines s).1))
        ∧ (∀ x, s.tornHost = some x → ∃ t, exec i s = .next t
          ∧ t = { s with tornHost := none, enOper := t.enOper, est := t.est, out := s.out ++ [.readData 0 off (getRest x s).1] }))
    ∧ (∀ off len b ep e, gate s 0 = .ok → b.length ≤ 512 → s.mfApr.toNat * 2 ^ 36 + off + b.length ≤ 2 ^ 39 →
        let a := s.mfApr.toNat * 2 ^ 36 + off
        let lines := paLines a b.length
        let bad := if e then List.range (lineParts a b.length).length else []
        let s1 := if e then logAer 0 .poisonedTlp s else s
        let i := Instr.mfApertureAccess ⟨off, none, ep⟩ len (some ⟨b, e⟩)
        (s.tornHost = none → exec i s = .next (again i (newTorn lines s1) (mfWrites a b.length (putFirst lines b bad) s1)))
        ∧ (∀ x, s.tornHost = some x → ∃ t, exec i s = .next t
          ∧ t = { mfWrites a b.length (putRest x b bad) { s with tornHost := none } with enOper := t.enOper, est := t.est }))
    ∧ (∀ a n f, s.stale = [] → s.vds = [] → (f s).stale = [] → (f s).vds = [] → mfWrites a n f s = f s)
    ∧ (∀ off len ep, len ≤ 4096 → 2 ^ 39 < s.mfApr.toNat * 2 ^ 36 + off + len → s.tornHost = none →
        exec (.mfApertureAccess ⟨off, none, ep⟩ len none) s
          = .next (logAer 0 .unsupportedRequest { s with out := s.out ++ [.unsupported] }))
    ∧ (∀ a ep, exec (.undecodedRequest ⟨a, none, ep⟩) s
        = .next (logAer 0 .unsupportedRequest { s with out := s.out ++ [.unsupported] }))
    ∧ (∀ fn q, working s fn = false ∨ hostReadsOf s fn q = [] →
        exec (.hostReadCompletionTimeout fn ⟨q, none⟩) s = .next (logAer fn .completionTimeout s))
    ∧ (∀ fn q, working s fn = true → hostReadsOf s fn q = [none] →
        ∃ t, exec (.hostReadCompletionTimeout fn ⟨q, none⟩) s = .next t ∧ (t.queue fn q).state = 2)
    ∧ (∀ fn q r, working s fn = true → hostReadsOf s fn q = [some r.id] → s.runs = [r] →
        ∃ t u, exec (.hostReadCompletionTimeout fn ⟨q, none⟩) s = .next t ∧ t.runs = [u] ∧ u.id = r.id ∧ u.status = 0x0501
          ∧ u.ended = true ∧ t.queues = s.queues)
    ∧ (∀ fn vec, let f := s.fn fn
        let sends := f.pba.getLsbD vec && f.cfg.msixOn && !f.cfg.msixAll
        ∃ t, exec (.msixVectorUnmask fn vec) s = .next t ∧ t = { s with fns := t.fns, out := t.out }
        ∧ (t.fn fn).msixMask.getLsbD vec = false ∧ (t.fn fn).pba.getLsbD vec = (f.pba.getLsbD vec && !sends)
        ∧ t.out = s.out ++ (if sends then [.msix fn vec] else []))
    ∧ (∀ fn off size v, gate s fn = .allOnes → off < 2 ^ 40 → exec (.registerWrite fn ⟨off, none, false⟩ size v) s = .next s)
    ∧ (∀ v, gate s 0 = .ok →
        exec (.registerWrite 0 ⟨0x100100, none, false⟩ 8 v) s = .next { s with agenda := s.agenda ++ [.hbPwrCapWrite v] })
    ∧ (∀ fn v, fn ≠ 0 → gate s fn = .ok → (s.fn fn).tdi = .configUnlocked →
        ∃ t, exec (.registerWrite fn ⟨0, none, false⟩ 8 v) s = .next t ∧ (t.fn fn).apr = v.extractLsb' 0 36)
    ∧ (∀ fn q v, fn ≠ 0 → q < 64 → gate s fn = .ok → hasVd s fn = true →
        exec (.registerWrite fn ⟨0x10000 + q * 0x1000, none, false⟩ 8 v) s
          = .next { s with agenda := s.agenda ++ [.notify fn q (v.extractLsb' 0 32)] })
    ∧ (∀ v, gate s 0 = .ok → exec (.registerWrite 0 ⟨0x100100, none, true⟩ 8 v) s
        = .next (logAer 0 .poisonedTlp { s with agenda := s.agenda ++ [.hbPwrCapWrite v] }))
    ∧ (gate s 0 = .ok → ∃ t, exec (.rcRegisterRead 0 ⟨0x100108, none, false⟩) s = .next t ∧ t = { s with pwr := { s.pwr with lowered := 0 }, out := t.out }
        ∧ t.out = s.out ++ [.readData 0 0x100108 (natLe 8 (hbWord s 0x108).toNat)]
        ∧ (hbWord s 0x108).extractLsb' 32 32 = s.pwr.lowered ∧ (hbWord s 0x108).extractLsb' 0 4 = s.pwr.step
        ∧ (hbWord s 0x108).extractLsb' 4 4 = s.pwr.ceil ∧ (hbWord s 0x108).getLsbD 8 = s.pwr.therm)
    ∧ (gate s 0 = .ok → exec (.rcRegisterRead 0 ⟨0x100118, none, false⟩) s
        = .next { s with out := s.out ++ [.readData 0 0x100118 (natLe 8 (s.cycle % 2 ^ 64))] })
    ∧ (s.klk.deny = [] → exec .hbActDenyRead s = .next { s with out := s.out ++ [.readData 0 0x121000 (natLe 8 0)] })
    ∧ (∀ d l, s.klk.deny = d :: l → exec .hbActDenyRead s = .next { s with
        klk := { s.klk with deny := l, denyVa := BitVec.ofNat 64 d.va }
        out := s.out ++ [.readData 0 0x121000 (natLe 8 (denyWord d).toNat)] })

/-! ### The fabric -/

/-- The Kallitu Link (R40-R45): a device that has not joined drops every flit; a flit that fails its check is named in a nak
and not taken, and what fails after it, until that flit comes again, is discarded; a good one in order advances the receiver
and is acknowledged; an ack frees, and a nak replays from, the flit it names; eight failures in a row take the port down; a
port that is down retrains within 10 ms or stays down; the device id, its routes, which are held while requests already sent
have not completed, and the end of a request that is not answered in time. States that exec answers a next state, with the
effect of the step itself, of: klkFlitReceive, klkPortDown, klkAckReceive, klkNakReceive, klkRetrainTimeout, klkPortTrained,
hbKlkIdWrite, hbKlkRouteWrite, routeChangeApply, klkRequestTimeout. -/
def Obligations.FabricLink : Prop :=
  ∀ s : State,
    (∀ port f, s.klk.jn = false → exec (.klkFlitReceive port f) s = .next s)
    ∧ (∀ port f, s.klk.jn = true → flitBad f = true → (s.port port).awaiting ≠ none → f.seq.toNat ≠ (s.port port).seqIn →
        exec (.klkFlitReceive port f) s = .next s)
    ∧ (∀ port f, s.klk.jn = true → flitBad f = true → ((s.port port).awaiting = none ∨ f.seq.toNat = (s.port port).seqIn) →
        ∃ t, exec (.klkFlitReceive port f) s = .next t
        ∧ (t.port port).awaiting = some (s.port port).seqIn ∧ (t.port port).seqIn = (s.port port).seqIn
        ∧ (t.port port).rxFails = (s.port port).rxFails + 1
        ∧ (8 ≤ (s.port port).rxFails + 1 → t.agenda = s.agenda ++ [.klkPortDown port]))
    ∧ (∀ port f, s.klk.jn = true → flitBad f = false → f.kind = 0 → f.seq.toNat = (s.port port).seqIn →
        f.dst.toNat ≠ s.klk.dev.toNat → routeUp s f.dst.toNat = false →
        ∃ t, exec (.klkFlitReceive port f) s = .next t ∧ (t.port port).seqIn = ((s.port port).seqIn + 1) % 4096
          ∧ (t.port port).awaiting = none ∧ (t.port port).rxFails = 0 ∧ t.agenda = s.agenda)
    ∧ (∀ port seq i, (s.port port).up = false → ((s.port port).replay.findIdx? fun f => f.seq.toNat = seq) = some i →
        ∃ t, exec (.klkAckReceive port seq) s = .next t ∧ (t.port port).replay = (s.port port).replay.drop (i + 1))
    ∧ (∀ port seq i, (s.port port).failSeq = seq → 7 ≤ (s.port port).fails →
        ((s.port port).replay.findIdx? fun f => f.seq.toNat = seq) = some i →
        ∃ t, exec (.klkNakReceive port seq) s = .next t ∧ (t.port port).replay = (s.port port).replay.drop i
          ∧ t.agenda = s.agenda ++ [.klkPortDown port])
    ∧ (∀ port, ∃ t, exec (.klkPortDown port) s = .next t ∧ (t.port port).up = false
        ∧ (t.port port).replay = (s.port port).replay
        ∧ t.nsTimers = s.nsTimers ++ [(s.ref + 10000000, .klkRetrainTimeout port)])
    ∧ (∀ port, port < 16 → (s.port port).dead = false → s.klk.reqs = [] → s.klk.unsent = [] →
        ∃ t, exec (.klkPortTrained port) s = .next t ∧ (t.port port).up = true
          ∧ ∀ x ∈ t.nsTimers, x.2 ≠ .klkRetrainTimeout port)
    ∧ (∀ port, (s.port port).dead = true → exec (.klkPortTrained port) s = .next s)
    ∧ (∀ port, (s.port port).up = false → ∃ t, exec (.klkRetrainTimeout port) s = .next t ∧ (t.port port).dead = true)
    ∧ (∀ port, (s.port port).up = true → exec (.klkRetrainTimeout port) s = .next s)
    ∧ (∀ v : BitVec 64, anyWindow s = true → exec (.hbKlkIdWrite v) s = .next s)
    ∧ (∀ v : BitVec 64, anyWindow s = false → s.klk.reqs = [] → s.klk.unsent = [] →
        (s.klk.jn = true ∨ ∀ p, (s.port p).replay = []) → exec (.hbKlkIdWrite v) s
        = .next { s with klk := { s.klk with dev := v.extractLsb' 0 10, jn := v.getLsbD 10 } })
    ∧ (∀ dst (v : BitVec 64), sentTo s dst = true → ∃ t, exec (.hbKlkRouteWrite dst v) s = .next t
        ∧ tget {} t.klk.routes dst
          = { tget {} s.klk.routes dst with next := some (v.extractLsb' 0 4, v.getLsbD 4) })
    ∧ (∀ dst (v : BitVec 64), s.klk.reqs = [] → s.klk.unsent = [] → ∃ t, exec (.hbKlkRouteWrite dst v) s = .next t
        ∧ tget {} t.klk.routes dst = { port := v.extractLsb' 0 4, v := v.getLsbD 4 })
    ∧ (∀ dst p v, s.klk.reqs = [] → s.klk.unsent = [] → (tget {} s.klk.routes dst).next = some (p, v) →
        ∃ t, exec (.routeChangeApply dst) s = .next t ∧ tget {} t.klk.routes dst = { port := p, v := v })
    ∧ (∀ dst, sentTo s dst = true → exec (.routeChangeApply dst) s = .next s)
    ∧ (∀ rid q tid, (s.klk.reqs.find? fun r => r.rid = rid) = some q → q.why = .xfer tid →
        ∃ t r, exec (.klkRequestTimeout rid) s = .next t ∧ t.agenda = s.agenda ++ [.transferLanding tid (some r)]
          ∧ (∀ n, q.req.op = .read n → r.status = 0 ∧ r.data.length = n ∧ ∀ i < (n + 126) / 64, i ∈ r.poison)
          ∧ ((∀ n, q.req.op ≠ .read n) → r.status = 0x13))

/-- Requests of peers and barriers (R34, R48-R53, R226, R230): a request that no entry of HB_ACT grants, or for a function
that is being reset, is dropped, recorded and answered with TRANSFER_ACCESS; a granted read, write and notify act as the
target VD, and are answered when they have performed, reads and writes in two parts whose words are a free choice (log entry 110); an
SC operation and a read of a signal wait for a position of the fabric proxy's wheel (log entry 123); one request that follows another
of its source owner and class waits for it; the root of a group counts arrivals of a generation and at the last releases every member:
its own hub at once, every other device that sent an arrival with a release of its own (log entry 92), and the generation's arrivals
are gone; a release reaches the strands that wait for it. States that exec answers a next state, with the effect of the step itself,
of: peerRequestArrival, barrierArrival, barrierRelease. -/
def Obligations.PeerRequests : Prop :=
  ∀ s : State,
    let fresh (r : PeerReq) : Prop := isPull s r = false ∧ r ∉ s.klk.busyPeer ∧ ∀ x ∈ s.klk.readyPeer, x.1 ≠ r
    let open_ (r : PeerReq) : Prop := hasVd s r.tcid = true ∧ (s.vd r.tcid).closing = false ∧ (s.vd r.tcid).state ≠ .stopped
    let first (r : PeerReq) : Prop := ∀ x ∈ s.klk.busyPeer ++ s.klk.waitPeer, ¬ (x.src = r.src ∧ x.scid = r.scid ∧ x.cls = r.cls)
    let going (r : PeerReq) : Prop := r ∈ s.klk.busyPeer ∧ (∀ x ∈ s.klk.readyPeer, x.1 ≠ r) ∧ open_ r
    let torn (r : PeerReq) (x : Torn) (t : State) : Prop := (r, x) ∈ t.klk.tornPeer ∧ r ∈ t.klk.busyPeer
      ∧ ∃ c, s.cycle < c ∧ (c, .peerRequestArrival r) ∈ t.timers
    (∀ r, fresh r → (¬ open_ r ∨ ∀ a ∈ actsOf s r.src r.tcid, grants s r a = false) → s.klk.deny.length < 64 →
        exec (.peerRequestArrival r) s = .next (refusePeer r .transferAccess { s with klk := { s.klk with
          deny := s.klk.deny ++ [{ src := r.src, scid := r.scid, tcid := r.tcid, kind := denyKind s r, va := r.va }] } }))
    ∧ (∀ r a, fresh r → open_ r → a ∈ actsOf s r.src r.tcid → grants s r a = true → ¬ first r →
        exec (.peerRequestArrival r) s = .next { s with klk := { s.klk with waitPeer := s.klk.waitPeer ++ [r] } })
    ∧ (∀ r q v, fresh r → open_ r → first r → r.op = .notify q v → suspended s r.tcid q = false →
        (∃ a ∈ actsOf s r.src r.tcid, a.ntf = true ∧ a.qmask.getLsbD q = true) →
        exec (.peerRequestArrival r) s = .next { s with
          klk := { s.klk with busyPeer := s.klk.busyPeer ++ [r], readyPeer := s.klk.readyPeer ++ [(r, 0)] }
          agenda := s.agenda ++ [.notify r.tcid q v, .peerRequestArrival r] })
    ∧ (∀ r st, s.klk.readyPeer.find? (fun x => decide (x.1 = r)) = some (r, st) →
        exec (.peerRequestArrival r) s = .next (peerDone r { status := st, data := [], poison := [] } s))
    ∧ (∀ r n u x, fresh r → open_ r → first r → r.op = .read n → sealedRange s r.tcid r.va n = false →
        (∃ a ∈ actsOf s r.src r.tcid, a.rd = true) → (∀ y ∈ s.klk.tornPeer, y.1 ≠ r) →
        vreadFirst (translate s r.tcid · false) s r.va n = .ok (u, x) →
        ∃ t, exec (.peerRequestArrival r) s = .next t ∧ t = { s with free := t.free, timers := t.timers, klk := t.klk } ∧ torn r x t)
    ∧ (∀ r n x, going r → r.op = .read n → s.klk.tornPeer.find? (fun y => decide (y.1 = r)) = some (r, x) →
        ∃ u, exec (.peerRequestArrival r) s = .next (peerDone r { status := 0, data := (getRest x s).1, poison := (getRest x s).2 } u)
          ∧ u = { s with wm := u.wm, enOper := u.enOper, est := u.est })
    ∧ (∀ r d p u x, fresh r → open_ r → first r → r.op = .write d p → isPush s r d = false → (∀ y ∈ s.klk.tornPeer, y.1 ≠ r) →
        (∃ a ∈ actsOf s r.src r.tcid, a.wr = true) → vwriteFirst (translate s r.tcid · true) s r.va d p = .ok (u, x) →
        ∃ t, exec (.peerRequestArrival r) s = .next t ∧ t = { u with free := t.free, timers := t.timers, klk := t.klk } ∧ torn r x t)
    ∧ (∀ r d p x, going r → r.op = .write d p → isPush s r d = false →
        s.klk.tornPeer.find? (fun y => decide (y.1 = r)) = some (r, x) →
        ∃ u, exec (.peerRequestArrival r) s = .next (peerDone r { status := 0, data := [], poison := [] } u)
          ∧ u = { putRest x d p s with enOper := u.enOper, est := u.est })
    ∧ (∀ r a c, fresh r → open_ r → first r → a ∈ actsOf s r.src r.tcid → grants s r a = true → scRequest r.op = true →
        fabricSlot s = some c → exec (.peerRequestArrival r) s = .next { s with
          klk := { s.klk with busyPeer := s.klk.busyPeer ++ [r] }, timers := s.timers ++ [(c, .peerRequestArrival r)] })
    ∧ (∀ gid gen dev, groupSize s gid = 0 → exec (.barrierArrival gid gen dev) s = .next s)
    ∧ (∀ gid gen dev,
        ((s.klk.arrivals.filter fun (g, h, _) => decide (g = gid ∧ h = gen)).length + 1 < groupSize s gid) →
        exec (.barrierArrival gid gen dev) s
          = .next { s with klk := { s.klk with arrivals := s.klk.arrivals ++ [(gid, gen, dev)] } })
    ∧ (∀ gid gen dev,
        let all := s.klk.arrivals ++ [(gid, gen, dev)]
        let own := s.klk.dev.toNat
        groupSize s gid ≠ 0 → groupSize s gid ≤ (all.filter fun x => decide (x.1 = gid ∧ x.2.1 = gen)).length →
        ∃ t, exec (.barrierArrival gid gen dev) s = .next t
          ∧ t.klk.arrivals = all.filter (fun x => !decide (x.1 = gid ∧ x.2.1 = gen))
          ∧ t.agenda = s.agenda ++ (if (gid, gen, own) ∈ all then [.barrierRelease gid gen] else [])
          ∧ ∀ d, (gid, gen, d) ∈ all → d ≠ own → .release gid gen d ∈ t.out)
    ∧ (∀ gid gen sid t, s.strands = [(sid, t)] → t.g5 = true → t.gid = gid → t.gen = gen → t.released = false →
        ∃ u, exec (.barrierRelease gid gen) s = .next u ∧ (u.strand sid).released = true ∧ (u.strand sid).relAt = s.cycle)
    ∧ (∀ gid gen, (∀ x ∈ s.strands, x.2.gid ≠ gid ∨ x.2.gen ≠ gen) → exec (.barrierRelease gid gen) s = .next s)

/-! ### Queues and packets -/

/-- Queues and completion queues (R29, R57, R58, R65, R66, R69, R73, R76): what a notify does by the queue's state, what
enabling and disabling do, when a packet becomes the head, how a waiting LAUNCH ages, and the enable and the timer of a
completion queue. The CFE reads the slot of a ring in two parts (log entry 110); a notify that violates the ring drops the head, which
has not started (log entry 96), and one that arrives during the read lets it start again (log entry 120). States that exec answers a next state, with the effect of the step itself, of: notify, packetFetch,
queueEnable, queueDisable, launchAgingStep, cqEnable, cqCoalesceTimeout. -/
def Obligations.QueueSteps : Prop :=
  ∀ (fn q : Nat) (s : State),
    let x := s.queue fn q
    let c := s.cq fn q
    (∀ v, takesWork s fn = false → exec (.notify fn q v) s = .next s)
    ∧ (∀ v, takesWork s fn = true → suspended s fn q = true → exec (.notify fn q v) s
        = .next (s.setQueue fn q { x with heldOps := x.heldOps ++ [.notify fn q v] }))
    ∧ (∀ v, takesWork s fn = true → x.state = 2 → suspended s fn q = false →
        exec (.notify fn q v) s = .next (s.setQueue fn q { x with widx := v }))
    ∧ (∀ v, takesWork s fn = true → x.state = 1 → suspended s fn q = false →
        ringViolation fn { x with widx := v, idle := false } = none → x.ridx ≠ v →
        ∃ t, exec (.notify fn q v) s = .next t ∧ t.queue fn q = { x with widx := v, idle := false, torn := none }
          ∧ t.timers = s.timers ++ [(s.cycle, .packetFetch fn q)])
    ∧ (∀ v e, takesWork s fn = true → x.state = 1 → suspended s fn q = false →
        ringViolation fn { x with widx := v, idle := false } = some e →
        ∃ t, exec (.notify fn q v) s = .next t ∧ (t.queue fn q).state = 2 ∧ (t.queue fn q).widx = v
          ∧ (t.queue fn q).head = none)
    ∧ (x.state = 0 → ringViolation fn { x with state := 1, idle := false } = none →
        ∃ t, exec (.queueEnable fn q) s = .next t ∧ t.queue fn q = { x with state := 1, idle := false })
    ∧ (x.state ≠ 0 → exec (.queueEnable fn q) s = .next s)
    ∧ (∃ t, exec (.queueDisable fn q) s = .next t ∧ (t.queue fn q).state = 0 ∧ (t.queue fn q).ridx = x.ridx
        ∧ (t.queue fn q).widx = x.widx)
    ∧ (∀ p, x.held = some p → x.torn = none → exec (.packetFetch fn q) s = .next s)
    ∧ (∀ u y, x.state = 1 → suspended s fn q = false → x.head = none → x.idle = false → x.held = none → x.ridx ≠ x.widx →
        x.torn = none → takesWork s fn = true → (fn = 0 ∨ (s.vd fn).state ≠ .incoming) →
        let a := x.rbase.toNat * 4096 + x.ridx.toNat % 2 ^ x.size.toNat * 64
        sideFirst s fn x.host a 64 = .ok (u, y) → ∃ t n, exec (.packetFetch fn q) s = .next t ∧ t.mem = s.mem
          ∧ t.queue fn q = { x with torn := some y, headAt := (x.host, a), headCq := x.cq, headEcq := x.ecq, headPrio := x.prio }
          ∧ s.cycle < n ∧ (n, .packetFetch fn q) ∈ t.timers)
    ∧ (∀ y b, x.torn = some y → takesWork s fn = true → x.head = none → sideRest y x.headAt.1 x.headAt.2 64 s = (b, []) →
        let p := packetOf b
        (p.w0.getLsbD 0 = false → ∃ t, exec (.packetFetch fn q) s = .next t
          ∧ (t.queue fn q).idle = true ∧ (t.queue fn q).head = none ∧ (t.queue fn q).ridx = x.ridx)
        ∧ (p.w0.getLsbD 0 = true → p.valid s fn = true → ∃ t, exec (.packetFetch fn q) s = .next t
          ∧ (t.queue fn q).head = some p ∧ (t.queue fn q).ridx = x.ridx))
    ∧ (∀ host a n u y b, sideFirst s fn host a n = .ok (u, y) → fnRead s fn host a n = .ok b → (sideRest y host a n u).1 = b.1)
    ∧ (∀ p, takesWork s fn = true → x.head = some p → p.type = 1 → x.awaits = true → ∃ t, exec (.launchAgingStep fn q) s = .next t
        ∧ (t.queue fn q).aging = min (x.aging + 1) (7 - x.headPrio.toNat)
        ∧ t.nsTimers = s.nsTimers ++ [(s.ref + 10000000, .launchAgingStep fn q)])
    ∧ (∀ v : BitVec 64, c.en = false → v.getLsbD 5 = true → c.base.extractLsb' 0 8 = 0 → 4 ≤ (v.extractLsb' 0 4).toNat →
        ∃ t, exec (.cqEnable fn q v) s = .next t ∧ (t.cq fn q).en = true ∧ (t.cq fn q).widx = 0
          ∧ (t.cq fn q).size = v.extractLsb' 0 4 ∧ (t.cq fn q).vec = v.extractLsb' 8 6 ∧ (t.cq fn q).cnt = v.extractLsb' 16 8
          ∧ (t.cq fn q).tmr = v.extractLsb' 24 10)
    ∧ (∀ v : BitVec 64, c.en = false → v.getLsbD 5 = true → (c.base.extractLsb' 0 8 ≠ 0 ∨ (v.extractLsb' 0 4).toNat < 4) →
        exec (.cqEnable fn q v) s = .next s)
    ∧ (c.pending = 0 → exec (.cqCoalesceTimeout fn q) s = .next s)
    ∧ (c.pending ≠ 0 → (∀ i, (s.fn fn).masks i = false) →
        exec (.cqCoalesceTimeout fn q) s
          = .next { s.setCq fn q { c with pending := 0 } with
              out := s.out ++ [.msix fn (if 33 ≤ fn then c.vec.toNat % 16 else c.vec.toNat)] })

/-- Packets that start (R66, R67, R70): a packet that starts leaves the ring, whatever the write that clears its V does (log entry 97),
and runs; NOP, SIGNAL, a COPY of no bytes, a LAUNCH of a failed VD and a WAIT whose signal is at most its operand complete at once with
their status; a LAUNCH is examined by the placer; a packet with B = 1 waits for the earlier packets of its queue. Packets that run
(R70, R72, R78, R212): an INVAL ends when every transfer and every access in parts that used an old translation is over; a COPY reads
each chunk whole and then writes it, to and from device memory in two parts (log entry 110), and ends after the last; a packet
completes once: at a wheel position of the CFE, if its signal lies at this hub, the operand of a SIGNAL is written to the signal that
it names and any other's is decremented by 1, and then its entry is posted and its run is gone. States that exec answers a next
state, with the effect of the step itself, of: packetCompletion, nopPacket, launchPacket, copyPacket, copyChunk, invalPacket,
invalCompletion, signalPacket, waitPacket, waitReread. -/
def Obligations.PacketSteps : Prop :=
  (∀ (fn q : Nat) (p : Packet) (s : State),
     let x := s.queue fn q
     let started (t : State) : Prop := (t.queue fn q).ridx = x.ridx + 1 ∧ (t.queue fn q).head = none
     let completes (t : State) (status : Nat) : Prop := started t ∧ ∃ r ∈ t.runs, r.fn = fn ∧ r.q = q ∧ r.pkt = p
       ∧ r.status = status ∧ r.ended = true ∧ (s.cycle, .packetCompletion r.id) ∈ t.timers
     x.head = some p → takesWork s fn = true →
     (p.type = 0 → blockedByB s fn q p = false → ∃ t, exec (.nopPacket fn q) s = .next t ∧ completes t 0)
     ∧ (p.type = 0 → blockedByB s fn q p = true → ∃ t, exec (.nopPacket fn q) s = .next t
         ∧ (t.queue fn q).head = some p ∧ t.runs = s.runs)
     ∧ (p.type = 1 → blockedByB s fn q p = false → (s.vd fn).state ≠ .failed →
         exec (.launchPacket fn q) s = .next { s with agenda := s.agenda ++ [.admissionAttempt fn q] })
     ∧ (p.type = 1 → blockedByB s fn q p = false → (s.vd fn).state = .failed →
         ∃ t, exec (.launchPacket fn q) s = .next t ∧ completes t (s.vd fn).failStatus)
     ∧ (p.type = 3 → blockedByB s fn q p = false → ∃ t, exec (.signalPacket fn q) s = .next t ∧ completes t 0)
     ∧ (p.type = 4 → blockedByB s fn q p = false → p.w5 = 0 → ∃ t, exec (.copyPacket fn q) s = .next t ∧ completes t 0)
     ∧ (p.type = 4 → blockedByB s fn q p = false → p.w5 ≠ 0 → ∃ t, exec (.copyPacket fn q) s = .next t ∧ started t
         ∧ ∃ r ∈ t.runs, r.fn = fn ∧ r.q = q ∧ r.pkt = p ∧ r.done = 0 ∧ r.ended = false ∧ .copyChunk r.id ∈ t.agenda)
     ∧ (p.type = 6 → blockedByB s fn q p = false → ∃ t, exec (.invalPacket fn q) s = .next t ∧ started t
         ∧ ∃ r ∈ t.runs, r.pkt = p ∧ .invalCompletion r.id ∈ t.agenda
           ∧ ∀ x ∈ s.xfers, x.cid = p.w1.toNat → x.translated = true →
               meetsPages (p.w2.toNat, p.w5.toNat) (dva x.ereg) x.deviceBytes = true → x.tid ∈ r.waits)
     ∧ (p.type = 2 → x.waitMet = true → ∃ t, exec (.waitPacket fn q) s = .next t ∧ completes t 0)
     ∧ (∀ b, p.type = 2 → blockedByB s fn q p = false → x.waitMet = false → x.waitHeld = none → localSignal fn p.w3 = true →
         cfeSlot s = none → s.sigHeld = [] → fnRead s fn false (signalVa p.w3) 8 = .ok (b, []) →
         let v := BitVec.ofNat 64 (leNat b)
         ∀ i ∈ [Instr.waitPacket fn q, .waitReread fn q], ∃ t, exec i s = .next t ∧ (t.queue fn q).head = some p ∧ t.mem = s.mem
           ∧ (s.ref + 1000, .waitReread fn q) ∈ t.nsTimers
           ∧ (v.toInt ≤ p.w5.toInt → (t.queue fn q).waitMet = true ∧ .waitPacket fn q ∈ t.due)
           ∧ (p.w5.toInt < v.toInt → (t.queue fn q).waitMet = false ∧ ∀ j ∈ t.due, j ∈ s.due)))
  ∧ (∀ (r : Run) (s : State),
       let src := copySrc r.pkt
       let dst := copyDst r.pkt
       let n := min 4096 (r.pkt.w5.toNat - r.done)
       let near (side : Bool × Nat) : Prop :=
         side.1 = true ∨ (side.2 + r.done < 15 * 2 ^ 68 ∧ (side.2 + r.done) % 2 ^ 65 + n ≤ 2 ^ 65)
       s.runs = [r] →
       ((∀ x ∈ s.xfers, x.tid ∈ r.waits → x.translated = false) → (∀ f ∈ r.tears, f ∉ tearsOf s r.pkt.w1.toNat) →
         ∃ t, exec (.invalCompletion r.id) s = .next t ∧ t.runs = [{ r with status := 0, data := 0, ended := true }]
           ∧ t.timers = s.timers ++ [(s.cycle, .packetCompletion r.id)])
       ∧ ((∃ x ∈ s.xfers, x.tid ∈ r.waits ∧ x.translated = true) ∨ (∃ f ∈ r.tears, f ∈ tearsOf s r.pkt.w1.toNat) →
           exec (.invalCompletion r.id) s = .next { s with timers := s.timers ++ [(s.cycle + 1, .invalCompletion r.id)] })
       ∧ (r.pkt.type = 4 → r.put = 0 → r.asked = false → r.ended = false → working s r.fn = true → 0 < n → near src → near dst →
           (r.fn = 0 ∨ (s.vd r.fn).suspended = false) →
           (∀ u x, r.buf = none → r.torn = none → sideFirst s r.fn src.1 (src.2 + r.done) n = .ok (u, x) →
             ∃ t c, exec (.copyChunk r.id) s = .next t ∧ t.mem = s.mem ∧ t.host = s.host
               ∧ t.runs = [{ r with torn := some x, held := none }] ∧ s.cycle < c ∧ (c, .copyChunk r.id) ∈ t.timers)
           ∧ (∀ x b lines, r.buf = none → r.torn = some x → sideRest x src.1 (src.2 + r.done) n s = (b, []) → b.length = n →
             dst.1 = false → r.fn ≠ 0 → translateAll (fnXlate s r.fn true) (lineParts (dst.2 + r.done) n) = .ok lines →
             ∃ t u y c, exec (.copyChunk r.id) s = .next t ∧ t.runs = [u] ∧ u.buf = some (b.map fun v => (v, false))
               ∧ u.torn = some y ∧ u.done = r.done ∧ u.ended = false ∧ t.mem = (putFirst lines b [] s).mem ∧ y.lines = lines
               ∧ s.cycle < c ∧ (c, .copyChunk r.id) ∈ t.timers)
           ∧ (∀ x b, r.buf = none → r.torn = some x → sideRest x src.1 (src.2 + r.done) n s = (b, []) → b.length = n →
             dst.1 = true → ∃ t u, exec (.copyChunk r.id) s = .next t ∧ t.runs = [u] ∧ t.mem = s.mem
               ∧ t.host = csets s.host (dst.2 + r.done) b ∧ u.done = r.done + n
               ∧ (r.pkt.w5.toNat ≤ r.done + n → u.status = 0 ∧ u.ended = true ∧ (s.cycle, .packetCompletion r.id) ∈ t.timers)
               ∧ (r.done + n < r.pkt.w5.toNat → u.ended = false ∧ u.buf = none ∧ ∃ c, s.cycle < c ∧ (c, .copyChunk r.id) ∈ t.timers))
           ∧ (∀ data y, r.buf = some data → data.length = n → (∀ x ∈ data, x.2 = false) → r.torn = some y → dst.1 = false →
             (r.fn = 0 → s.stale = [] ∧ s.vds = []) → ∃ t u, exec (.copyChunk r.id) s = .next t ∧ t.runs = [u] ∧ t.host = s.host
               ∧ t.mem = (putRest y (data.map (·.1)) [] s).mem ∧ u.done = r.done + n
               ∧ (r.pkt.w5.toNat ≤ r.done + n → u.status = 0 ∧ u.ended = true ∧ (s.cycle, .packetCompletion r.id) ∈ t.timers)
               ∧ (r.done + n < r.pkt.w5.toNat → u.ended = false ∧ u.buf = none ∧ ∃ c, s.cycle < c ∧ (c, .copyChunk r.id) ∈ t.timers)))
       ∧ (working s r.fn = false → exec (.packetCompletion r.id) s = .next { s with runs := [] })
       ∧ (working s r.fn = true → r.pkt.w3 = 0 ∨ r.signalled = true ∨ r.pkt.type = 2 ∨ r.status = 0x0103 →
           (r.pkt.wantsEntry = false → ∃ t, exec (.packetCompletion r.id) s = .next t
             ∧ t = { s with runs := [], queues := t.queues })
           ∧ (r.pkt.wantsEntry = true → s.phase ≠ 3 → ∃ t, exec (.packetCompletion r.id) s = .next t
             ∧ t = { s with runs := [], queues := t.queues, posts := s.posts ++ [{
                     fn := r.fn, n := r.cq.toNat, ecq := r.ecq, w0 := cqEntry 0 r.q r.status r.pkt.tag, w1 := r.data }] }))
       ∧ (working s r.fn = true → r.pkt.w3 ≠ 0 → r.signalled = false → r.pkt.type ≠ 2 → r.status ≠ 0x0103 →
           localSignal r.fn r.pkt.w3 = true →
           (∀ c, cfeSlot s = some c → exec (.packetCompletion r.id) s
             = .next { s with timers := s.timers ++ [(c, .packetCompletion r.id)] })
           ∧ (∀ b w, cfeSlot s = none → s.sigHeld = [] → fnRead s r.fn false (signalVa r.pkt.w3) 16 = .ok (b, []) →
             let v := if r.pkt.type = 3 then r.pkt.w5 else BitVec.ofNat 64 (leNat (b.take 8)) - 1
             v ≠ 0 → fnWrite s r.fn false (signalVa r.pkt.w3) (natLe 8 v.toNat) = .ok w →
             ∃ t, exec (.packetCompletion r.id) s = .next t ∧ t.runs = [{ r with signalled := true }] ∧ t.mem = w.mem
               ∧ t.cqs = s.cqs ∧ t.due = s.due ++ [.packetCompletion r.id]
               ∧ (r.fn = 0 → t.mem = csets s.mem (signalVa r.pkt.w3) (natLe 8 v.toNat)))))

/-! ### Attestation and meters -/

/-- Attestation and weight meters (R92, R93, R96-R103): GO captures a report that is written at DEST with its status; a
meter opens, seals, retires and checkpoints with a record of its kind; a record is chained to the one before it and goes to
the tenant log; a full log makes it wait; a continuation opens its slot with the identity of the record that it verifies.
States that exec answers a next state, with the effect of the step itself, of: attestationRequest, attestationReportWrite,
meterOpen, meterRecordWrite, meterSeal, meterRetire, meterCheckpoint, tenantLogRidxWrite, meterContinuation. -/
def Obligations.MeterSteps : Prop :=
  ∀ (i cid : Nat) (s : State),
    let m := s.meter i
    let v := s.vd cid
    (∀ n, hasVd s cid = true →
        exec (.attestationRequest cid (some n)) s = .next { s with out := s.out ++ [.attest (attestReport s cid n)] })
    ∧ (hasVd s cid = true → v.att.busy = false → ∃ t c, exec (.attestationRequest cid none) s = .next t
        ∧ (t.vd cid).att = { v.att with
            busy := true, report := attestReport s cid (v.att.nonce.flatMap fun w => natLe 8 w.toNat), held := false }
        ∧ t.timers = s.timers ++ [(c, .attestationReportWrite cid)] ∧ s.cycle < c)
    ∧ (v.att.busy = true → v.att.dest.toNat % 256 ≠ 0 → ∃ t, exec (.attestationReportWrite cid) s = .next t
        ∧ (t.vd cid).att.st = 3 ∧ (t.vd cid).att.busy = false ∧ t.mem = s.mem)
    ∧ (∀ u, v.att.busy = true → v.att.dest.toNat % 256 = 0 → vwrite s cid v.att.dest.toNat v.att.report [] = .ok u →
        ∃ t, exec (.attestationReportWrite cid) s = .next t
          ∧ (t.vd cid).att.st = 1 ∧ (t.vd cid).att.busy = false ∧ t.mem = u.mem)
    ∧ (m.v = false → openRefused s i = false → m.waiting = [] → ∃ t, exec (.meterOpen i) s = .next t
        ∧ (t.meter i).v = true ∧ (t.meter i).count = 0 ∧ (t.meter i).base = m.base ∧ (t.meter i).pages = m.pages
        ∧ (t.meter i).sealed = false ∧ (t.meter i).waiting.map (·.type) = [1] ∧ .meterRecordWrite i ∈ t.agenda)
    ∧ (m.v = true ∨ openRefused s i = true → exec (.meterOpen i) s = .next s)
    ∧ (∀ b p, m.v = true → m.sealed = false → m.waiting.length < 8 →
        vread s m.cid.toNat (m.base.toNat * 65536) (m.pages.toNat * 65536) = .ok (b, p) →
        ∃ t, exec (.meterSeal i) s = .next t ∧ (t.meter i).sealed = true ∧ (t.meter i).digest = shake256 64 b
          ∧ (t.meter i).waiting.map (·.type) = m.waiting.map (·.type) ++ [4])
    ∧ (m.v = true → m.waiting.length < 8 → ∃ t, exec (.meterRetire i) s = .next t ∧ (t.meter i).v = false
        ∧ (t.meter i).waiting.map (·.type) = m.waiting.map (·.type) ++ [5])
    ∧ (s.wm.meters = [(i, m)] → m.v = true → m.waiting.length < 8 → ∃ t, exec .meterCheckpoint s = .next t
        ∧ (t.meter i).waiting.map (·.type) = m.waiting.map (·.type) ++ [2] ∧ t.wm.skip = s.wm.skip)
    ∧ (s.wm.meters = [(i, m)] → m.v = true → m.waiting.length = 8 → ∃ t, exec .meterCheckpoint s = .next t
        ∧ t.meter i = m ∧ t.wm.skip = satInc s.wm.skip)
    ∧ (∀ t0 l u, m.waiting = t0 :: l → m.late = [] → m.cid.toNat = cid → hasVd s cid = true → t0.type ≠ 6 → t0.gran = 0 →
        tenantFull v = false →
        vwrite s cid (v.logVa + v.mlogW.toNat % v.logCap * 3584) (signedRecord (recordBody m t0 false t0.count)) [] = .ok u →
        ∃ t, exec (.meterRecordWrite i) s = .next t ∧ t.mem = u.mem ∧ (t.vd cid).mlogW = v.mlogW + 1
          ∧ (t.meter i).seqNo = m.seqNo + 1 ∧ (t.meter i).waiting = l
          ∧ (t.meter i).prev = shake256 64 (recordBody m t0 false t0.count))
    ∧ (m.waiting ≠ [] → m.cid.toNat = cid → hasVd s cid = true → tenantFull v = true →
        exec (.meterRecordWrite i) s = .next s)
    ∧ (∀ n : BitVec 32, (v.mlogW - n).toNat ≤ v.logCap → ∃ t, exec (.tenantLogRidxWrite cid n) s = .next t
        ∧ (t.vd cid).mlogR = n)
    ∧ (∀ n : BitVec 32, v.logCap < (v.mlogW - n).toNat → exec (.tenantLogRidxWrite cid n) s = .next s)
    ∧ (contStatus s ≠ 1 → exec .meterContinuation s
        = .next { s with wm := { s.wm with contSt := BitVec.ofNat 3 (contStatus s) } })
    ∧ (contStatus s = 1 → s.wm.contSlot.toNat = i → m.waiting = [] → ∃ t, exec .meterContinuation s = .next t
        ∧ t.wm.contSt = 1 ∧ (t.meter i).v = true ∧ (t.meter i).base = m.base
        ∧ (t.meter i).count = leAt (pread s s.wm.contPa.toNat 3584) 0x50 8
        ∧ (t.meter i).waiting.map (·.type) = [7, 8])

/-! ### Partitions and virtual devices -/

/-- Partitions and virtual devices (R87, R107-R111, R114): a rectangle of the grid that overlaps no other partition is
created; a partition that holds VDs only grows, and is not removed; a VD is created ACTIVE or INCOMING for a descriptor and
a policy that pass every check, with the next creation count of its CID; else HB_VDCMD tells the first check that failed; a
VD that a migration holds is not destroyed; frames that a VD no longer maps are zeroed when another maps them (R33, R56, R115), at the
times that log entry 113 gives. States that exec answers a next state, with the effect of the step itself, of:
partitionCreate, partitionResize, partitionRemove, vdCreate, vdCreateIncoming, vdDestroy. -/
def Obligations.PartitionsAndDevices : Prop :=
  ∀ (n : Nat) (w : BitVec 64) (s : State),
    let p := partOfWord w
    let old := tget {} s.parts n
    let d := pread s s.vdcmd.pa.toNat 256
    let cid := leAt d 0 2
    (s.fw.booted = true → old.v = false → p.v = true → p.fits = true → overlapsOther s n p = false →
        ∃ t, exec (.partitionCreate n w) s = .next t ∧ tget {} t.parts n = p ∧ ∀ k, k ≠ n → tget {} t.parts k = tget {} s.parts k)
    ∧ (s.fw.booted = false ∨ p.fits = false ∨ overlapsOther s n p = true → exec (.partitionCreate n w) s = .next s)
    ∧ (old.v = true → p.v = true → p.fits = true → overlapsOther s n p = false → vdsOf s n = [] →
        ∃ t, exec (.partitionResize n w) s = .next t ∧ tget {} t.parts n = p)
    ∧ (vdsOf s n ≠ [] → p.contains old = false → exec (.partitionResize n w) s = .next s)
    ∧ (vdsOf s n = [] → ∃ t, exec (.partitionRemove n) s = .next t ∧ (tget {} t.parts n).v = false
        ∧ (1 ≤ n → n ≤ 32 → (t.fn n).vfEnable = false ∧ (t.fn n).numVfs = 0))
    ∧ (vdsOf s n ≠ [] → exec (.partitionRemove n) s = .next s)
    ∧ (createFault s = 0 →
        (∃ t u, exec .vdCreate s = .next t ∧ t.mem = (settleFrames u).mem ∧ t.memPoison = (settleFrames u).memPoison
          ∧ u = { s with vds := u.vds, counts := u.counts } ∧ t.vds = u.vds ∧ hasVd t cid = true ∧ (t.vd cid).state = .active
          ∧ (t.vd cid).count = tget 0 s.counts cid + 1 ∧ tget 0 t.counts cid = tget 0 s.counts cid + 1
          ∧ (t.vd cid).maxCores = leAt d 2 2 ∧ (t.vd cid).root = leAt d 0x10 8 ∧ (t.vd cid).ctx = leAt d 0x18 8
          ∧ t.vdcmd.st = 1 ∧ t.vdcmd.busy = false)
        ∧ (∃ t, exec .vdCreateIncoming s = .next t ∧ hasVd t cid = true ∧ (t.vd cid).state = .incoming ∧ t.vdcmd.st = 1))
    ∧ (∀ r x, s.stale = [r] → mappedFrames s = [x] → r.2.2 ≠ x.2.2 → ∀ f i, r.1 ≤ f → f < r.1 + r.2.1 → x.1 ≤ f →
        f < x.1 + x.2.1 → i < 65536 →
        cget (settleFrames s).mem (f * 65536 + i) = 0 ∧ (f * 65536 + i) / 64 ∉ (settleFrames s).memPoison)
    ∧ (createFault s ≠ 0 →
        exec .vdCreate s
          = .next { s with vdcmd := { s.vdcmd with busy := false, st := BitVec.ofNat 4 (createFault s) } }
        ∧ exec .vdCreateIncoming s
          = .next { s with vdcmd := { s.vdcmd with busy := false, st := BitVec.ofNat 4 (createFault s) } })
    ∧ (s.vdcmd.busy = false → destroyFault s ≠ 0 → exec .vdDestroy s
        = .next { s with vdcmd := { s.vdcmd with busy := false, st := BitVec.ofNat 4 (destroyFault s) } })
    ∧ (s.vdcmd.busy = false → destroyFault s = 0 → (s.vd cid).closing = false → s.strands = [] → s.wm.meters = [] →
        (32 < cid ∨ vfsOf s cid = []) →
        ∃ t, exec .vdDestroy s = .next t ∧ t.vdcmd.busy = true ∧ (t.vd cid).closing = true
          ∧ t.agenda = s.agenda ++ [.vfFlr cid])

/-! ### The life of a strand -/

/-- Admission, staging, start and the weave (R134, R145, R155, R267, R70): the placer refuses a LAUNCH by its shape, its
resources and its pin, in this order (log entry 44), or admits it where its search finds a place; a staged container whose every
check passes arms the start, a failing one ends the LAUNCH with the status of the check; at the start the strand runs, unless a core
is not ready, which ends the LAUNCH with 0x0303; a switch makes the pending table active, and of a queue of switches the next one
pending; a re-phasing gives the class that its command named. States that exec answers a next state,
with the effect of the step itself, of: admissionAttempt, containerStaging, startDecision, weaveSwitch, rephaseSwitch. -/
def Obligations.StrandStarts : Prop :=
  ∀ (fn q sid : Nat) (p : Packet) (s : State),
    let cont := p.w1.toNat * 256
    let v := s.vd fn
    let f := fetchNeeds s fn cont (argBase v p)
    let s' := f.2.foldl (fun s x => countStage fn x.1 x.2 0 s) s
    let t := s.strand sid
    let ended (u : State) (id status : Nat) : Prop :=
      ∃ r ∈ u.runs, r.id = id ∧ r.status = status ∧ r.ended = true ∧ (s.cycle, .packetCompletion id) ∈ u.timers
    let open_ : Prop := (s.queue fn q).head = some p ∧ p.type = 1 ∧ takesWork s fn = true ∧ v.state ≠ .incoming
      ∧ v.state ≠ .stopped ∧ v.closing = false
    (∀ b, open_ → f.1 = .bug b →
        ∃ u, exec (.admissionAttempt fn q) s = .next u ∧ ended u s.nextRun b.status)
    ∧ (∀ m t0, open_ → f.1 = .needs m t0 →
        let x := launchStrand s' fn q p t0
        (badShape s' p x = true → ∃ u, exec (.admissionAttempt fn q) s = .next u ∧ ended u s.nextRun 0x0203)
        ∧ (badShape s' p x = false → badResources s' p m x = true →
            ∃ u, exec (.admissionAttempt fn q) s = .next u ∧ ended u s.nextRun 0x0202)
        ∧ (badShape s' p x = false → badResources s' p m x = false → p.pin ≠ 0xFF →
            pinnedFree s' s.nextSid x p.stride p.pin = false →
            ∃ u, exec (.admissionAttempt fn q) s = .next u ∧ ended u s.nextRun 0x0201)
        ∧ (∀ pl, badShape s' p x = false → badResources s' p m x = false →
            (p.pin = 0xFF ∨ pinnedFree s' s.nextSid x p.stride p.pin = true) → strandCount s fn < 64 →
            search s' s.nextSid x p.stride p.pin = some pl →
            ∃ u, exec (.admissionAttempt fn q) s = .next u ∧ (u.strand s.nextSid).state = .staging
              ∧ (u.strand s.nextSid).x0 = pl.strand.x0 ∧ (u.strand s.nextSid).y0 = pl.strand.y0
              ∧ (u.strand s.nextSid).stride = pl.strand.stride ∧ (u.strand s.nextSid).phase = pl.strand.phase
              ∧ u.nextSid = s.nextSid + 1))
    ∧ (∀ c w raw args, t.state = .staging → t.replay = 0 → t.g5 = false → t.slots = [(c, w)] →
        (let head := (readUpTo s t.cid (lineParts t.cont headBytes)).1
         readUpTo s t.cid (lineParts t.cont (if head.length < 16 then 16 else max 16 (field head 8 8)))
           = (raw, none)) →
        readUpTo s t.cid (lineParts t.args 512) = (args, none) →
        (containerBug t t.cont raw true = none → ∃ u k, exec (.containerStaging sid) s = .next u
          ∧ (u.strand sid).state = .armed ∧ (u.strand sid).start = nextIn t.stride t.phase (s.cycle + s.plc.lead.toNat)
          ∧ (k, .startDecision sid) ∈ u.timers ∧ k + 320 = max 320 (u.strand sid).start
          ∧ (u.owner c w).sc.img = imagesOf raw .c ∧ (u.owner c w).ss.img = imagesOf raw .s)
        ∧ (∀ b, containerBug t t.cont raw true = some b → (∃ r ∈ s.runs, r.id = t.run) →
            ∃ u, exec (.containerStaging sid) s = .next u ∧ tfind u.strands sid = none ∧ ended u t.run b.status))
    ∧ (t.state = .armed → t.start ≤ s.cycle + 1 → t.parkFlag = false → ∃ u, exec (.startDecision sid) s = .next u
        ∧ (u.strand sid).state = .running ∧ (u.strand sid).leaseEnd = s.ref + leaseNs s)
    ∧ (t.state = .armed → s.cycle + 1 < t.start → t.ready = true → (∀ c ∈ t.cores, (s.core c).locked = false) →
        exec (.startDecision sid) s = .next { s with timers := s.timers ++ [(t.start - 1, .startDecision sid)] })
    ∧ (t.state = .armed → s.cycle + 1 < t.start → (t.ready = false ∨ ∃ c ∈ t.cores, (s.core c).locked = true) →
        (∃ r ∈ s.runs, r.id = t.run) → ∃ u, exec (.startDecision sid) s = .next u
          ∧ tfind u.strands sid = none ∧ ended u t.run 0x0303)
    ∧ (∀ c a b, (s.core c).swPend = true → (s.core c).swQueue = [a, b] → (s.core c).swc < b.cyc →
        ∃ u, exec (.weaveSwitch c) s = .next u ∧ (u.core c).swPend = true ∧ (u.core c).swc = b.cyc ∧ (u.core c).swQueue = [b]
          ∧ (u.core c).ptable = b.table (u.core c).table)
    ∧ (∀ c, (s.core c).swPend = true → (s.core c).swQueue.length ≤ 1 → (s.core c).cob.recs = [] → (∀ x ∈ (s.core c).ptable, x.2 = 0 ∨ tfind (s.core c).owners (x.2 - 1) ≠ none) →
        ∃ u, exec (.weaveSwitch c) s = .next u ∧ (u.core c).table = (s.core c).ptable ∧ (u.core c).swPend = false
          ∧ (u.core c).owners = (s.core c).owners
          ∧ (u.cob c).compl = (s.cob c).compl ++ [{ kind := 4, wid := 0, status := 0, seq := 0, detail := 0 }])
    ∧ (∀ c, (s.core c).swPend = false → exec (.weaveSwitch c) s = .next s)
    ∧ (∀ r, t.rephase = some r → ∃ u, exec (.rephaseSwitch sid) s = .next u ∧ (u.strand sid).stride = r.stride
        ∧ (u.strand sid).phase = r.phase ∧ (u.strand sid).lanes = r.lanes ∧ (u.strand sid).rephase = none)

/-- Running, parking, eviction, faults and departure (R116-R122, R147, R161-R167, R191, R261-R265, R270): a park freezes the
strand and its lease, an unpark resumes both; an eviction waits for a point at least D ticks ahead, drains, and saves, or
ends the LAUNCH where no record is free (log entry 46) or where what it would save is poisoned (log entry 47); a strand that stops at a fault departs with
the status of its cause, or is held where FHOLD = 1; a departure of the last owner completes the LAUNCH with its energy; a
stall that ends lets the strand run. States that exec answers a next state, with the effect of the step itself, of:
strandPark, leaseExpiry, strandUnpark, evictionRequest, evictionDrain, evictionSave, strandResume, syncStallEnd,
strandWatchdogExpiry, strandStop, ownerDepart. -/
def Obligations.StrandLife : Prop :=
  ∀ (sid : Nat) (s : State),
    let t := s.strand sid
    let ended (u : State) (status : Nat) : Prop := tfind u.strands sid = none ∧ (s.cycle, .packetCompletion t.run) ∈ u.timers
      ∧ ∀ r ∈ s.runs, r.id = t.run → ∃ x ∈ u.runs, x.id = r.id ∧ x.status = status ∧ x.ended = true
    (∀ k, t.state = .running → ∃ u, exec (.strandPark sid k) s = .next u ∧ (u.strand sid).state = .parked
        ∧ (u.strand sid).cut = none ∧ (u.strand sid).leaseLeft = t.leaseEnd - s.ref ∧ (u.strand sid).tick = t.tick
        ∧ ∀ x ∈ u.nsTimers, x.2 ≠ .leaseExpiry sid)
    ∧ (∀ k, t.state = .parked → exec (.strandPark sid k) s = .next s)
    ∧ (∀ c, t.state = .parked → ∃ u, exec (.strandUnpark sid c) s = .next u
        ∧ (u.strand sid).state = (if t.overdue then .stalled else .running) ∧ (u.strand sid).notBefore = max t.notBefore c
        ∧ (u.strand sid).leaseEnd = s.ref + t.leaseLeft)
    ∧ (∀ c, t.state ≠ .parked → exec (.strandUnpark sid c) s = .next s)
    ∧ (t.evPoints ≠ [] → t.evict = none → t.primary = none → t.state = .running →
        exec (.evictionRequest sid) s = .next (s.setStrand sid { t with evict := some (t.tick + t.dist) }))
    ∧ (t.evPoints = [] ∨ t.primary ≠ none → exec (.evictionRequest sid) s = .next s)
    ∧ (∃ u, exec (.evictionDrain sid) s = .next u ∧ (u.strand sid).state = .draining ∧ (u.strand sid).cut = none
        ∧ ∀ c w, t.slots = [(c, w)] → (s.owner c w).draining = false → u.owner c w = (s.owner c w).mapStreams Stream.drain)
    ∧ (t.state = .draining → ((freeRecords s t.cid t.slots.length).length < t.slots.length
          ∨ ∃ x ∈ t.slots, saveFails (s.core x.1) (s.owner x.1 x.2) = true) →
        ∃ u, exec (.evictionSave sid) s = .next u ∧ ended u 0x0403)
    ∧ (t.state = .draining → t.slots.length ≤ (freeRecords s t.cid t.slots.length).length →
        (∀ x ∈ t.slots, saveFails (s.core x.1) (s.owner x.1 x.2) = false) →
        ∃ u, exec (.evictionSave sid) s = .next u ∧ (u.strand sid).state = .evicted
          ∧ (u.strand sid).savedTick = t.tick - 1 ∧ (u.strand sid).evict = none ∧ (u.strand sid).tick = t.tick
          ∧ (u.strand sid).ctxRecs = freeRecords s t.cid t.slots.length)
    ∧ (t.state ≠ .evicted → exec (.strandResume sid) s = .next s)
    ∧ (t.state = .evicted → (s.vd t.cid).state = .failed →
        ∃ u, exec (.strandResume sid) s = .next u ∧ ended u (s.vd t.cid).failStatus)
    ∧ (∀ p, t.state = .evicted → (s.vd t.cid).state ≠ .failed → search s sid { t with wids := [] } 0 0xFF = some p →
        (∀ c ∈ p.strand.cores, (s.core c).cob.svn = t.savedSvn) →
        (∀ r ∈ t.ctxRecs, ∀ l ∈ s.memPoison, 64 * l + 64 ≤ recordPa s t.cid r ∨ recordPa s t.cid r + Config.coreRecord ≤ 64 * l) →
        ∃ u, exec (.strandResume sid) s = .next u ∧ (u.strand sid).state = .resuming
          ∧ (u.strand sid).x0 = p.strand.x0 ∧ (u.strand sid).y0 = p.strand.y0 ∧ (u.strand sid).stride = p.strand.stride
          ∧ (u.strand sid).start = nextIn p.strand.stride p.strand.phase (s.cycle + s.plc.lead.toNat))
    ∧ (t.state = .running → s.ref < t.leaseEnd → exec (.leaseExpiry sid) s = .next s)
    ∧ (t.state = .running → t.leaseEnd ≤ s.ref → ∃ u, exec (.leaseExpiry sid) s = .next u ∧ ∀ f q, (u.queue f q).tried = false)
    ∧ (t.overdue = false → exec (.syncStallEnd sid) s = .next s)
    ∧ (t.overdue = true → t.state = .stalled → t.syncs = [] → ∃ u, exec (.syncStallEnd sid) s = .next u
        ∧ (u.strand sid).state = .running ∧ (u.strand sid).overdue = false ∧ (u.strand sid).stallCount = 0)
    ∧ (∃ u e, exec (.strandWatchdogExpiry sid) s = .next u ∧ (u.strand sid).faults = t.faults ++ [e]
        ∧ e.cause = .watchdog ∧ e.str = .f ∧ u.cores = s.cores)
    ∧ (∀ p, t.doomed = false → t.primary = some p → t.state = .stopping → toLand s sid = [] →
        (s.vd t.cid).dbg.fhold = false → ∃ u, exec (.strandStop sid) s = .next u ∧ ended u (faultStatus p.ev.cause))
    ∧ (∀ p, t.doomed = false → t.primary = some p → t.state = .stopping → toLand s sid = [] →
        (s.vd t.cid).dbg.fhold = true → ∃ u, exec (.strandStop sid) s = .next u ∧ (u.strand sid).state = .faultHeld
          ∧ (u.strand sid).status = faultStatus p.ev.cause)
    ∧ (∀ c w o, tfind (s.core c).owners w = some o → o.sid = sid → o.pend = [] → o.region = 0 → t.slots = [(c, w)] →
        t.wids = [w] → t.faults = [] → t.doomed = false →
        ∃ u, exec (.ownerDepart c w) s = .next u ∧ ended u 0 ∧ tfind (u.core c).owners w = none)

/-! ### Migration -/

/-- Live migration (R123-R127): OP 1 sets every page's dirty bit once the destination is checked, OP 2 sends the dirty pages
and is BUSY until they are answered, OP 3 suspends the queues, stops the VD once nothing of it stands on a core and no
record waits, and then sends the final round, to a device itself or over the link, and ends when its flits are acknowledged; OP 4 undoes
OP 1; at the destination the final round is installed where HB_ACT lets the source write, with the strands, which stand evicted, and
the handoff records that it carries, of which one that does not verify fails the VD; pages outstanding are pulled, installed once, and
free the source with the last, whose leaves become invalid (log entry 103); a page that does not come is lost, and the VD fails. The
statuses of denials, and of commands of PLC_MIG that meet another in progress, are log entry 108. States that exec answers a next state, with the effect of the step itself, of:
migrationStart, migrationPrecopyRound, migrationAbort, migrationStop, migrationFinalArrival, migrationLinkLost,
postcopyPagePull, postcopyPullTimeout, postcopyPagePush, postcopyPageArrival, postcopySourceFree. -/
def Obligations.MigrationSteps : Prop :=
  ∀ (cid page : Nat) (s : State),
    let v := s.vd cid
    let say (st : Nat) : Res := .next { s with plc := { s.plc with migSt := BitVec.ofNat 4 st } }
    let done (st : Nat) : Res := .next { s with plc := { s.plc with migBusy := false, migSt := BitVec.ofNat 4 st } }
    let denied (src : Nat × Nat) (page : Nat) : Res := .next (migDenied src cid page s)
    (s.plc.migCid.toNat = cid →
      (hasVd s cid = false ∨ v.state ≠ .active → exec .migrationStart s = say 2)
      ∧ (hasVd s cid = true → v.state = .active → migRoute s s.plc.migDev.toNat = false → exec .migrationStart s = say 4)
      ∧ (hasVd s cid = true → v.state = .active → migRoute s s.plc.migDev.toNat = true → destOk s = false →
          ∃ t, exec .migrationStart s = .next t ∧ t.plc.migSt = 3 ∧ (t.vd cid).state = .active)
      ∧ (hasVd s cid = true → v.state = .active → migRoute s s.plc.migDev.toNat = true → destOk s = true →
          ∃ t, exec .migrationStart s = .next t ∧ (t.vd cid).state = .migOut
            ∧ (t.vd cid).dest = (s.plc.migDev.toNat, s.plc.migDcid.toNat) ∧ t.plc.migSt = 1
            ∧ t.plc.migBusy = s.plc.migBusy ∧ ∀ p ∈ pagesOf t cid, p.2 ∈ t.dirty)
      ∧ (hasVd s cid = false ∨ v.state ≠ .migOut ∨ v.suspended = true → exec .migrationPrecopyRound s = say 2)
      ∧ (hasVd s cid = true → v.state = .migOut → v.suspended = false → migRoute s v.dest.1 = false →
          exec .migrationPrecopyRound s = say 4)
      ∧ (hasVd s cid = true → v.state = .migOut → v.suspended = false → migRoute s v.dest.1 = true → dirtyPages s cid = [] →
          s.klk.reqs = [] → ∃ t, exec .migrationPrecopyRound s = .next t ∧ t.plc.migPages = 0 ∧ t.plc.migSt = 1)
      ∧ (hasVd s cid = true → v.state = .migOut → v.suspended = false → migRoute s v.dest.1 = true → dirtyPages s cid ≠ [] →
          ∃ t, exec .migrationPrecopyRound s = .next t ∧ t.plc.migBusy = true
            ∧ t.plc.migPages = BitVec.ofNat 32 (dirtyPages s cid).length
            ∧ ∀ p ∈ dirtyPages s cid, p.2 ∉ t.dirty ∧ ∃ r ∈ t.klk.reqs, r.why = .migPage cid p.1)
      ∧ (hasVd s cid = true → v.state = .migOut → v.suspended = false → ∃ t, exec .migrationAbort s = .next t
          ∧ (t.vd cid).state = .active ∧ t.plc.migSt = 1 ∧ (s.plc.migVd = cid → t.plc.migBusy = false))
      ∧ (hasVd s cid = false ∨ v.state ≠ .migOut ∨ v.suspended = true → exec .migrationAbort s = say 2)
      ∧ (stopping s = false → hasVd s cid = false ∨ (v.state ≠ .migOut ∧ v.state ≠ .stopped) → exec .migrationStop s = say 2)
      ∧ (stopping s = false → hasVd s cid = true → v.state = .migOut →
          (v.dest = (s.plc.migDev.toNat, s.plc.migDcid.toNat) ∨ destOk s = true) → ∃ t, exec .migrationStop s = .next t
          ∧ (t.vd cid).suspended = true ∧ t.plc.migBusy = true ∧ t.plc.migVd = cid
          ∧ (t.vd cid).dest = (s.plc.migDev.toNat, s.plc.migDcid.toNat) ∧ (s.cycle + 1, .migrationStop) ∈ t.timers))
    ∧ (stopping s = true → s.plc.migVd = cid → hasVd s cid = true →
      (v.state = .migOut → s.strands = [] → s.runs = [] → s.wm.meters = [] → ∃ t, exec .migrationStop s = .next t
        ∧ (t.vd cid).state = .stopped ∧ (s.cycle + 1, .migrationStop) ∈ t.timers)
      ∧ (v.state = .stopped → meterWaits s cid = false → (s.plc.migLost = true ∨ migRoute s v.dest.1 = false) →
          exec .migrationStop s = done 4)
      ∧ (v.state = .stopped → meterWaits s cid = false → s.plc.migLost = false → migRoute s v.dest.1 = true →
          s.plc.migFinal = false → s.plc.migKeep = false → v.dest.1 = s.klk.dev.toNat → migGranted s v.dest.1 v.dest.2 = true →
          ∃ t, exec .migrationStop s = .next t ∧ t.plc.migSt = 1 ∧ t.plc.migBusy = false
            ∧ .migrationFinalArrival v.dest.2 (finalImage cid s) ∈ t.agenda)
      ∧ (v.state = .stopped → meterWaits s cid = false → s.plc.migLost = false → migRoute s v.dest.1 = true →
          s.plc.migFinal = false → v.dest.1 ≠ s.klk.dev.toNat →
          ∃ t, exec .migrationStop s = .next t ∧ t.plc.migFinal = true ∧ t.plc.migBusy = true
            ∧ .migImage v.dest.1 v.dest.2 (finalImage cid s) ∈ t.out ∧ (t.vd cid).outstanding = (finalImage cid s).outstanding
            ∧ (s.cycle + 1, .migrationStop) ∈ t.timers)
      ∧ (v.state = .stopped → meterWaits s cid = false → s.plc.migLost = false → migRoute s v.dest.1 = true →
          s.plc.migFinal = true →
          (finalUnderWay s cid = true → ∃ t, exec .migrationStop s = .next t ∧ t.plc = s.plc ∧ (s.cycle + 1, .migrationStop) ∈ t.timers)
          ∧ (finalUnderWay s cid = false → v.outstanding = [] → exec .migrationStop s = done 1)))
    ∧ (s.plc.migVd = cid → s.plc.migBusy = true → hasVd s cid = true →
      (v.suspended = true → v.state ≠ .stopped →
        exec .migrationLinkLost s = .next { s with plc := { s.plc with migLost := true } })
      ∧ (v.suspended = false ∨ v.state = .stopped → exec .migrationLinkLost s = done 4))
    ∧ (s.plc.migBusy = false → exec .migrationLinkLost s = .next s)
    ∧ (∀ img, hasVd s cid = false ∨ v.state ≠ .incoming → exec (.migrationFinalArrival cid img) s = .next s)
    ∧ (∀ img, hasVd s cid = true → v.state = .incoming → migGranted s img.src.1 cid = false →
        exec (.migrationFinalArrival cid img) s = denied img.src 0)
    ∧ (∀ img, hasVd s cid = true → v.state = .incoming → migGranted s img.src.1 cid = true → img.handoffs = [] →
        img.post = false → img.mailbox = [] → img.strands = [] → ∃ t, exec (.migrationFinalArrival cid img) s = .next t
          ∧ (t.vd cid).state = .active ∧ (t.vd cid).outstanding = [] ∧ (t.vd cid).source = img.src)
    ∧ (∀ img, hasVd s cid = true → v.state = .incoming → migGranted s img.src.1 cid = true → img.post = false → img.copies = [] →
        let got := receiveHandoffs cid img.src.1 img.handoffs (installImage cid img s)
        (got = none → ∃ t, exec (.migrationFinalArrival cid img) s = .next t
          ∧ (∀ x p, img.strands = [(x, p)] → ∃ r ∈ t.runs, r.pkt = p ∧ r.status = 0x0403 ∧ r.ended = true)
          ∧ (t.vd cid).state = .failed ∧ (t.vd cid).failStatus = 0x0403)
        ∧ (∀ w, got = some w → ∃ t, exec (.migrationFinalArrival cid img) s = .next t
          ∧ (t.vd cid).state = .active ∧ t.wm.meters = w.wm.meters ∧ t.mem = w.mem
          ∧ ∀ x p, img.strands = [(x, p)] → ∃ r ∈ t.runs, r.pkt = p ∧ r.fn = cid ∧ r.ended = false ∧ (t.strand r.sid).run = r.id
            ∧ (t.strand r.sid).state = .evicted ∧ (t.strand r.sid).cid = cid ∧ (t.strand r.sid).savedOwners = x.savedOwners
            ∧ (t.strand r.sid).savedTick = x.savedTick ∧ (t.strand r.sid).ctxRecs = x.ctxRecs))
    ∧ (page ∈ v.outstanding → page ∉ v.pulls → ∃ t, exec (.postcopyPagePull cid page) s = .next t
        ∧ page ∈ (t.vd cid).pulls ∧ (s.ref + v.pullMs * 1000000, .postcopyPullTimeout cid page) ∈ t.nsTimers)
    ∧ (page ∉ v.outstanding → exec (.postcopyPagePull cid page) s = .next s)
    ∧ (∀ l, v.outstanding = page :: l → v.state = .stopped → ∃ t, exec (.postcopyPagePush cid) s = .next t
        ∧ (t.vd cid).outstanding = l ∧ ∃ r ∈ t.klk.reqs, r.why = .migPage cid page)
    ∧ (v.outstanding = [] → exec (.postcopyPagePush cid) s = .next s)
    ∧ (∀ data poison, v.state = .postcopy → page ∈ v.outstanding → migGranted s v.source.1 cid = false →
        exec (.postcopyPageArrival cid page ⟨data, poison⟩) s = denied v.source page)
    ∧ (∀ data poison, v.state = .postcopy → page ∈ v.outstanding → migGranted s v.source.1 cid = true →
        ∃ t, exec (.postcopyPageArrival cid page ⟨data, poison⟩) s = .next t
        ∧ page ∉ (t.vd cid).outstanding ∧ .pageDone cid page ∈ t.agenda
        ∧ (v.outstanding = [page] → (t.vd cid).state = .active)
        ∧ ∀ pa, pagePa s cid page = some pa → data.length = 65536 →
          (∀ i < 65536, cget t.mem (pa / 65536 * 65536 + i) = data.getD i 0)
          ∧ ∀ a, a / 65536 ≠ pa / 65536 → cget t.mem a = cget s.mem a)
    ∧ (∀ data poison, page ∉ v.outstanding → exec (.postcopyPageArrival cid page ⟨data, poison⟩) s = .next s)
    ∧ (hasVd s cid = true → v.state = .stopped → ∃ t, exec (.postcopySourceFree cid) s = .next t
        ∧ (t.vd cid).outstanding = [] ∧ ∀ l ∈ leavesOf s cid, (cget t.mem l.at_).getLsbD 0 = false)
    ∧ (v.state ≠ .stopped → exec (.postcopySourceFree cid) s = .next s)
    ∧ (page ∈ v.outstanding → page ∈ v.pulls → s.strands = [] → ∃ t, exec (.postcopyPullTimeout cid page) s = .next t
        ∧ (t.vd cid).state = .failed ∧ (t.vd cid).failStatus = 0x0404 ∧ page ∈ (t.vd cid).lost
        ∧ page ∉ (t.vd cid).outstanding ∧ .pageDone cid page ∈ t.agenda)
    ∧ (page ∉ v.pulls → exec (.postcopyPullTimeout cid page) s = .next s)

/-! ### Transfers -/

/-- Transfers on their way (R137, R140, R161, R199, R205, R207, R210, R211, R218, R223-R226, R260): a transfer that waits
and may perform is sent in its turn, an SC operation to its wheel position, whether or not what it follows has performed;
one that finds no place in its unit or in its memory's channels waits; a read and a write perform in two steps, each some of
their aligned words (log entry 110); what acts on a scratchpad acts as a whole once every port that it needs has been free
(log entry 89); a read lands, a transfer holds on a demand page, or a put performs at its target; an SC operation
takes its core's position once what it follows has performed, and waits for the next one otherwise; a fault's report gives
the strand an asynchronous fault. States that exec answers a next state, with the effect of the step itself, of:
transferDispatch, transferLanding, scOperationPerform, remotePutArrival, asyncFaultReport. -/
def Obligations.TransferSteps : Prop :=
  ∀ (x : Xfer) (s : State),
    let va := dva x.ereg
    let parts := lineParts va x.deviceBytes
    let o := s.owner x.core x.wid
    let turn : Prop := x.state = .waiting ∧ mayPerform s x = true ∧ unitFull s (clusterOf x.core) = false
    let near : Prop := x.kind ∈ [XKind.rd, .rdSp, .rdm, .wr, .wrZ] ∧ isRemote va = false
    let pas (l : List (Nat × Nat × Bool)) : List (Nat × Nat) := l.map fun y => (y.1, y.2.1)
    let moved : State := { s with free := s.free + (x.ag.lines 0 x.ag.bytes).length }
    let zeros : List Byte := List.replicate x.deviceBytes 0
    s.xfers = [x] →
    (x.state ≠ .waiting → exec (.transferDispatch x.tid) s = .next s)
    ∧ (unitFull s (clusterOf x.core) = true → exec (.transferDispatch x.tid) s = .next s)
    ∧ (∀ l y u, turn → near → translateAll (x.tr s x.kind.writes) parts = .ok l → landingOf s x (pas l) = some (y, u) →
        ∃ t c, exec (.transferDispatch x.tid) s = .next t ∧ t.xfers = [{ y with state := .sent }] ∧ y.tid = x.tid
          ∧ t.timers = s.timers ++ [(c, .transferLanding x.tid none)] ∧ s.cycle < c ∧ c ≤ y.landAt)
    ∧ (∀ l, turn → near → translateAll (x.tr s x.kind.writes) parts = .ok l → landingOf s x (pas l) = none →
        exec (.transferDispatch x.tid) s = .next s)
    ∧ (∀ op, x.state = .waiting → unitFull s (clusterOf x.core) = false → x.kind = .sc op → isRemote va = false →
        ∃ t c, exec (.transferDispatch x.tid) s = .next t ∧ t.xfers = [{ x with state := .wheel }]
          ∧ t.timers = s.timers ++ [(c, .scOperationPerform x.tid)] ∧ s.cycle < c ∧ c % 2048 = x.core % 2048)
    ∧ (∀ p, turn → near → translateAll (x.tr s x.kind.writes) parts = .error (.demand p) →
        ∃ t, exec (.transferDispatch x.tid) s = .next t ∧ t.xfers = [{ x with state := .held p, torn := none }])
    ∧ (∀ u w, x.state = .sent → x.torn = none → x.todo = none → x.kind ∈ [XKind.rd, .rdSp, .rdm] → isRemote va = false →
        vreadFirst (x.tr s false) s va x.deviceBytes = .ok (u, w) →
        ∃ t, exec (.transferLanding x.tid none) s = .next t ∧ t.mem = s.mem ∧ t.xfers = [{ x with torn := some w }]
          ∧ (max x.landAt (s.cycle + 1), .transferLanding x.tid none) ∈ t.timers)
    ∧ (∀ b w, x.state = .sent → x.torn = some w → x.todo = none → PortsFree s (portsOf x s) → x.kind = .rd → x.post = false →
        x.status = 0 → (s.strand x.sid).replay = 0 → getRest w s = (b, []) →
        ∃ t, exec (.transferLanding x.tid none) s = .next t ∧ t.xfers = [] ∧ t.mem = s.mem
          ∧ (t.core x.core).win
            = (landWindow x x.core x.wid x.ag (b.map fun v => (v, false)) s |>.core x.core).win
          ∧ (t.owner x.core x.wid).lands = o.lands ++ [(x.tick, s.cycle, x.bank)])
    ∧ (∀ u w, x.state = .sent → x.torn = none → x.todo = none → x.kind = .wrZ → isRemote va = false →
        vwriteFirst (x.tr moved true) moved va zeros [] = .ok (u, w) →
        ∃ t, exec (.transferLanding x.tid none) s = .next t ∧ t.mem = u.mem
          ∧ t.xfers = [{ x with torn := some w, src := zeros, srcPoison := [] }]
          ∧ (max x.landAt (s.cycle + 1), .transferLanding x.tid none) ∈ t.timers)
    ∧ (∀ w, x.state = .sent → x.torn = some w → x.todo = none → (x.kind = .wr ∨ x.kind = .wrZ) → x.post = false → x.status = 0 →
        ∃ t, exec (.transferLanding x.tid none) s = .next t ∧ t.xfers = [] ∧ t.mem = (putRest w x.src x.srcPoison s).mem)
    ∧ (x.state = .performed → x.todo = none → x.kind = .put → x.post = true → x.status = 0 → o.fifo.length < Config.fifoDepth →
        ∃ t, exec (.transferLanding x.tid none) s = .next t ∧ t.xfers = []
          ∧ (t.owner x.core x.wid).fifo = o.fifo ++ [x.elem])
    ∧ (∀ c w a, x.kind = .put → x.todo = none → PortsFree s (portsOf x s) → (s.strand x.sid).replay = 0 →
        targetOf s x = .ok (c, w, a) →
        ∃ t k, exec (.remotePutArrival x.tid) s = .next t ∧ (k, .transferLanding x.tid none) ∈ t.timers
          ∧ t.xfers.map (·.state) = [.performed] ∧ t.mem = s.mem
          ∧ ∀ i, i < (s.owner c w).winBase → cget (t.core c).win i = cget (s.core c).win i)
    ∧ (∀ op old p u, x.state = .wheel → mayPerform s x = true → (s.core x.core).scUsed ≠ s.cycle → x.kind = .sc op →
        atomicBy (x.tr s) s x.cid va op x.opx x.opnew = .ok (old, p, u) →
        ∃ t k, exec (.scOperationPerform x.tid) s = .next t ∧ t.mem = u.mem ∧ (k, .transferLanding x.tid none) ∈ t.timers
          ∧ t.xfers.map (fun y => (y.state, y.old)) = [(.performed, old)])
    ∧ (∀ op, x.state = .wheel → x.kind = .sc op → (mayPerform s x = false ∨ (s.core x.core).scUsed = s.cycle) →
        ∃ t, exec (.scOperationPerform x.tid) s = .next t ∧ t.xfers = s.xfers
          ∧ t.timers = s.timers ++ [(s.cycle + 2048, .scOperationPerform x.tid)])
    ∧ (x.state = .failed → ∃ t e, exec (.asyncFaultReport x.tid) s = .next t ∧ t.xfers = []
        ∧ (t.strand x.sid).faults = (s.strand x.sid).faults ++ [e] ∧ e.async = true ∧ e.cause = causeOf x.status
        ∧ e.addr = x.fva ∧ e.str = .s)

/-- Page requests (R211): they are posted in fault order while the queue is on and has room; enabling it zeroes WIDX; DONE
clears the open request, and everything that held on the page is tried again. States that exec answers a next state, with
the effect of the step itself, of: pageRequestPost, prqEnable, pageDone. -/
def Obligations.PageRequests : Prop :=
  ∀ (cid page : Nat) (s : State),
    let v := s.vd cid
    (v.prq.waiting = [] → ∃ t, exec (.pageRequestPost cid) s = .next t ∧ (t.vd cid).prq = v.prq ∧ t.mem = s.mem)
    ∧ (v.prq.en = false → ∃ t, exec (.pageRequestPost cid) s = .next t ∧ (t.vd cid).prq = v.prq)
    ∧ (∀ r u, v.prq.waiting = [r] → v.prq.en = true → hasRoom v.prq.widx v.prq.ridx v.prq.size.toNat = true →
        vwrite s cid (v.prq.base.toNat + v.prq.widx.toNat % 2 ^ v.prq.size.toNat * 16)
          (natLe 8 (b01 (phaseBit v.prq.widx v.prq.size.toNat) + 2 * b01 r.2.1 + r.1 * 256) ++ natLe 8 r.2.2) [] = .ok u →
        ∃ t, exec (.pageRequestPost cid) s = .next t ∧ t.mem = u.mem ∧ (t.vd cid).prq.widx = v.prq.widx + 1
          ∧ (t.vd cid).prq.waiting = [])
    ∧ (∀ w : BitVec 64, v.prq.en = false → v.prq.waiting = [] → w.getLsbD 4 = true → v.prq.base.extractLsb' 0 8 = 0 →
        4 ≤ (w.extractLsb' 0 4).toNat → ∃ t, exec (.prqEnable cid w) s = .next t ∧ (t.vd cid).prq.en = true
          ∧ (t.vd cid).prq.widx = 0 ∧ (t.vd cid).prq.size = w.extractLsb' 0 4 ∧ (t.vd cid).prq.vec = w.extractLsb' 8 6)
    ∧ (∀ w : BitVec 64, v.prq.en = false → w.getLsbD 4 = true →
        (v.prq.base.extractLsb' 0 8 ≠ 0 ∨ (w.extractLsb' 0 4).toNat < 4) → exec (.prqEnable cid w) s = .next s)
    ∧ (∀ x, page ≠ freedPage → s.xfers = [x] → x.cid = cid → x.state = .held page → s.cqs = [] → s.sigHeld = [] →
        ∃ t, exec (.pageDone cid page) s = .next t ∧ t.xfers = [{ x with state := .waiting }]
          ∧ (s.cycle, .transferDispatch x.tid) ∈ t.timers)
    ∧ (∀ q x, page ≠ freedPage → s.queues = [(64 * cid + q, x)] → q < 64 → x.held = some page → s.cqs = [] → s.sigHeld = [] →
        ∃ t, exec (.pageDone cid page) s = .next t ∧ (t.queue cid q).held = none
          ∧ (s.cycle, .packetFetch cid q) ∈ t.timers)

/-! ### Debugging -/

/-- The fault ring, the trace buffer and the debugger (R266, R269, R270, R272): enabling zeroes the write index, and is
ignored where the base or the size is not valid; HALT cuts a running strand at Q + D, RESUME unparks, a breakpoint is set
and cleared, DUMP ends with its status, RELEASE lets a strand held at a fault depart; an operation without a target ends
with ST = 2. What ST tells where the rule names no case is the model's reading (log entry 62). States that exec answers a next state, with the effect of the step itself, of: faultRingEnable, traceEnable,
debugHalt, debugResume, breakpointSet, debugDump, debugRelease, breakpointClear. -/
def Obligations.DebugSteps : Prop :=
  ∀ (cid : Nat) (s : State),
    let v := s.vd cid
    let d := v.dbg
    let sid := d.goStrand.toNat
    let t := s.strand sid
    let target : Prop := tfind s.strands sid = some t ∧ t.cid = cid
    (∀ w : BitVec 64, cid ≠ 0 → v.flt.en = false → w.getLsbD 4 = true → v.flt.base.extractLsb' 0 8 = 0 →
        2 ≤ (w.extractLsb' 0 4).toNat → (w.extractLsb' 0 4).toNat ≤ 12 → ∃ u, exec (.faultRingEnable cid w) s = .next u
          ∧ (u.vd cid).flt = { v.flt with size := w.extractLsb' 0 4, en := true, widx := 0 })
    ∧ (∀ w : BitVec 64, cid ≠ 0 → v.flt.en = false →
        (v.flt.base.extractLsb' 0 8 ≠ 0 ∨ (w.extractLsb' 0 4).toNat < 2 ∨ 12 < (w.extractLsb' 0 4).toNat) →
        ∃ u, exec (.faultRingEnable cid w) s = .next u ∧ (u.vd cid).flt.en = false)
    ∧ (∀ w : BitVec 64, v.trc.en = false → w.getLsbD 0 = true → v.trc.base.toNat % 4096 = 0 → v.trc.size ≠ 0 →
        v.trc.size.toNat % 4096 = 0 → ∃ u, exec (.traceEnable cid w) s = .next u
          ∧ (u.vd cid).trc = { v.trc with en := true, mode := w.getLsbD 1, tmask := w.extractLsb' 8 8, last := 0, off := 0,
                                          full := false })
    ∧ (∀ w : BitVec 64, v.trc.en = false → w.getLsbD 0 = true →
        (v.trc.base.toNat % 4096 ≠ 0 ∨ v.trc.size = 0 ∨ v.trc.size.toNat % 4096 ≠ 0) →
        ∃ u, exec (.traceEnable cid w) s = .next u ∧ (u.vd cid).trc = v.trc)
    ∧ (tfind s.strands sid = none → ∀ i ∈ [Instr.debugHalt cid, .debugResume cid, .breakpointSet cid, .debugDump cid,
        .debugRelease cid], ∃ u, exec i s = .next u ∧ (u.vd cid).dbg = { d with busy := false, st := 2 })
    ∧ (target → t.state = .running → t.evict = none → t.cut = none → t.primary = none → ∃ u, exec (.debugHalt cid) s = .next u
        ∧ (u.strand sid).cut = some (t.tick + t.dist, .halt) ∧ (u.vd cid).dbg.busy = true)
    ∧ (target → t.state = .parked → ∃ u, exec (.debugResume cid) s = .next u ∧ (u.vd cid).dbg.st = 1
        ∧ u.agenda = s.agenda ++ [.strandUnpark sid (s.cycle + 1)])
    ∧ (target → t.state = .faultHeld → ∃ u, exec (.debugResume cid) s = .next u ∧ (u.vd cid).dbg.st = 3
        ∧ u.agenda = s.agenda)
    ∧ (target → ∃ u, exec (.breakpointSet cid) s = .next u ∧ (u.vd cid).dbg.st = 1
        ∧ tfind (u.vd cid).dbg.points d.bp.toNat
          = some { strand := sid, str := d.bstr.toNat, parcel := d.bpar.toNat, iter := d.bitr, tick := d.btick })
    ∧ (∃ u, exec (.breakpointClear cid) s = .next u ∧ (u.vd cid).dbg.st = 1
        ∧ tfind (u.vd cid).dbg.points d.bp.toNat = none)
    ∧ (target → t.state = .running → ∃ u, exec (.debugDump cid) s = .next u ∧ (u.vd cid).dbg.st = 3 ∧ u.mem = s.mem)
    ∧ (target → t.state = .parked → d.goDva.toNat % 65536 ≠ 0 → ∃ u, exec (.debugDump cid) s = .next u
        ∧ (u.vd cid).dbg.st = 4 ∧ u.mem = s.mem)
    ∧ (∀ w, target → t.state = .parked → d.goDva.toNat % 65536 = 0 → dumpCores cid d.goDva.toNat t.slots s = .ok w →
        ∃ u, exec (.debugDump cid) s = .next u ∧ (u.vd cid).dbg.st = 1 ∧ u.mem = w.mem)
    ∧ (target → t.state = .faultHeld → ∃ u, exec (.debugRelease cid) s = .next u ∧ tfind u.strands sid = none
        ∧ .packetCompletion t.run ∈ u.agenda)

/-! ### The firmware context -/

/-- Cobbler's instructions (R405, R409-R420): the system instructions, in the firmware context, with their guard holding, no
token bit and no guard fs; each steps Cobbler past itself, but one that waits stays. States that exec answers a next state,
with the effect of the step itself: a result is there at once (log entry 80), and what a status of PARK, UNPARK and ZFILL stands for is
read per owner of the core (log entries 40 and 52). Of: wrs, rdsp, eret, waitev, wvset, park, unpark, zfill, cse, xphy. -/
def Obligations.SystemInstructions : Prop :=
  ∀ (h : Hd) (a ra rc : BitVec 4) (k : BitVec 8) (e : BitVec 2) (cls : BitVec 4) (s : State),
    let c := s.cur.core
    let b := s.cob c
    let core := s.core c
    let next (b' : Cobbler) : Cobbler := b'.advance h.idle.toNat
    let putX (b' : Cobbler) (v : W64) : Cobbler := { b' with x := cset b'.x a.toNat v }
    let goes (i : Instr) (P : State → Prop) : Prop := ∃ t, exec i s = .next t ∧ P t
    let w := ((b.xr ra).extractLsb' 0 3).toNat
    s.cur.str = .f → h.tok = 0 → h.g ≠ 8 → selects b.p b.blocks h.g = true → a ≠ 0 →
    (0x0E < k.toNat → exec (.wrs h a k) s = .next (lockCore c s) ∧ exec (.rdsp h a k) s = .next (lockCore c s))
    ∧ goes (.wrs h a 0x01) (fun t => t.cob c = next { b with evres := b.xr a })
    ∧ goes (.wrs h a 0x02) (fun t => t.cob c = next { b with wsel := (b.xr a).extractLsb' 0 3 })
    ∧ (k ∈ [0x00#8, 0x08#8, 0x09#8, 0x0A#8, 0x0B#8, 0x0C#8, 0x0D#8, 0x0E#8] → goes (.wrs h a k) (fun t => t.cob c = next b))
    ∧ goes (.rdsp h a 0x01) (fun t => t.cob c = next (putX b b.evres))
    ∧ goes (.rdsp h a 0x08) (fun t => t.cob c = next (putX b (BitVec.ofNat 64 s.cycle)))
    ∧ goes (.rdsp h a 0x09) (fun t => t.cob c = next (putX b (BitVec.ofNat 64 (c % 48 + c / 48 * 256))))
    ∧ goes (.rdsp h a 0x0B) (fun t => t.cob c = next (putX b (BitVec.ofNat 64 (min 63 b.queue.length))))
    ∧ (∀ ev, b.cur = some ev → b.queue = [] → goes (.eret h) (fun t =>
        t.cob c = next { b with evres := 0, cur := none, wd := 0 } ∧ t.out = s.out ++ [.evres c ev.word b.evres]))
    ∧ ((b.xr rc).extractLsb' 0 5 = 0 → goes (.waitev h a rc) (fun t => t.cob c = next (putX b 0)))
    ∧ (∀ x l, b.compl = x :: l → ((b.xr rc).extractLsb' 0 5).getLsbD x.kind.toNat = true → goes (.waitev h a rc) (fun t =>
        t.cob c = next (putX { b with compl := l } (BitVec.ofNat 64 (x.kind.toNat + x.wid.toNat * 2 ^ 4
          + x.status.toNat * 2 ^ 8 + x.seq.toNat * 2 ^ 16 + x.detail.toNat * 2 ^ 32)))))
    ∧ ((b.xr rc).extractLsb' 0 5 ≠ 0 → b.compl = [] → exec (.waitev h a rc) s = .next s)
    ∧ (core.swPend = true → exec (.wvset h ra rc) s = .next s)
    ∧ (core.swPend = false → core.swQueue = [] → reservedBad core ((b.xr ra).toNat % 16384) 32 = false → goes (.wvset h ra rc) (fun t =>
        (t.core c).swPend = true ∧ (t.core c).swc = (b.xr rc).toNat ∧ t.cob c = next b
        ∧ ∀ j < 32, tget 0 (t.core c).ptable j =
            (let v := (reservedBytes core ((b.xr ra).toNat % 16384) 32).getD j 0
             if v.getLsbD 7 then (v.extractLsb' 0 3).toNat + 1 else 0)))
    ∧ (tfind core.owners w = none →
        goes (.park h a ra rc) (fun t => t.cob c = next (putX b 2) ∧ t.strands = s.strands)
        ∧ goes (.unpark h a ra rc) (fun t => t.cob c = next (putX b 2) ∧ t.agenda = s.agenda))
    ∧ (∀ o, tfind core.owners w = some o → core.cuts = [] → o.parked = false → (s.strand o.sid).state = .running →
        (s.strand o.sid).evict = none →
        (ownNext (s.strand o.sid) o ≤ (b.xr rc).toNat → goes (.park h a ra rc) (fun t => t.cob c = next (putX b 0)
          ∧ t.strand o.sid = s.strand o.sid
          ∧ (t.core c).cuts = [{ wid := w, tick := (b.xr rc).toNat, drain := (b.xr ra).getLsbD 3 }]))
        ∧ ((b.xr rc).toNat < ownNext (s.strand o.sid) o → goes (.park h a ra rc) (fun t => t.cob c = next (putX b 1)
          ∧ t.strand o.sid = s.strand o.sid ∧ (t.core c).cuts = []))
        ∧ goes (.unpark h a ra rc) (fun t => t.cob c = next (putX b 3) ∧ t.strand o.sid = s.strand o.sid))
    ∧ (∀ o, tfind core.owners w = some o → o.parked = true → (s.strand o.sid).state = .running →
        goes (.park h a ra rc) (fun t => t.cob c = next (putX b 3) ∧ (t.core c).cuts = core.cuts)
        ∧ (s.cycle ≤ (b.xr rc).toNat → goes (.unpark h a ra rc) (fun t => t.cob c = next (putX b 0)
          ∧ t.strand o.sid = s.strand o.sid
          ∧ t.owner c w = { o with parked := false, resumeAt := max (b.xr rc).toNat (s.cycle + 1) }))
        ∧ ((b.xr rc).toNat < s.cycle → goes (.unpark h a ra rc) (fun t => t.cob c = next (putX b 1) ∧ t.owner c w = o)))
    ∧ (∀ o, tfind core.owners w = some o → tfind s.strands o.sid ≠ none → (s.strand o.sid).slots = [(c, w)] →
        (s.strand o.sid).state = .parked → (s.strand o.sid).overdue = false → s.cycle ≤ (b.xr rc).toNat →
        goes (.unpark h a ra rc) (fun t => t.cob c = next (putX b 0) ∧ (t.strand o.sid).state = .running
          ∧ (t.owner c w).parked = false))
    ∧ (b.zfill = none → activeId core w = true → goes (.zfill h a ra) (fun t => t.cob c = next (putX b 2)))
    ∧ (b.zfill = none → activeId core w = false → (b.xr ra).getLsbD 4 = false → goes (.zfill h a ra) (fun t =>
        t.cob c = { b with zfill := some (w, b.xr ra, a) } ∧ ∃ n, s.cycle < n ∧ (n, .zfillZeroed c) ∈ t.timers))
    ∧ (b.cseBusy = true → goes (.cse h a ra rc) (fun t => t.cob c = next (putX b 1)))
    ∧ (b.cseBusy = false → (b.xr ra).getLsbD 3 = false → w ∈ b.drained → (b.xr rc).toNat % 4096 = 0 →
        (b.xr rc).toNat + 0xB4000 ≤ 2 ^ 39 → goes (.cse h a ra rc) (fun t =>
          t.cob c = next { putX b 0 with cseBusy := true, cse := some (false, w, (b.xr rc).toNat), drained := sdel w b.drained }
          ∧ ∃ n, s.cycle < n ∧ (n, .cseDone c) ∈ t.timers))
    ∧ (16 ≤ b.xphy.length → exec (.xphy h e cls 1) s = .next s)
    ∧ (b.xphy.length < 16 → goes (.xphy h e cls 1) (fun t => ∃ x n, t.cob c = next { b with xphy := b.xphy ++ [x], xcount := b.xcount + 1 }
        ∧ x.num = b.xcount ∧ x.pa = (cget b.e (2 * e.toNat)).toNat ∧ x.post = true ∧ x.cls = cls.toNat
        ∧ s.cycle < n ∧ (n, .xphyDone c x.num) ∈ t.timers))

/-- The firmware context itself (R85, R86, R268, R407, R417-R421): an event is taken with its word and arguments in x1-x5; a
C-stream instruction computes there at once, and where its guard does not hold it does nothing; a scalar load and store go to
the reserved area, the address taken modulo 16,384 and the low bits below the size cleared; a block header opens a block of
constant count, and one with CS or stages locks the core, as a token bit, a guard fs, a vector that fails its check and a load
of a line that fails or is poisoned do; a watchdog expiry puts the event back with REDO =
1, and a second one within LIMIT locks the core; lockout faults the strands that run on it with CORE_LOST; what ZFILL, CSE
and XPHY end with, once the bank ports that they need are free (log entry 111). In an owner's slot a system instruction has no
meaning (log entry 10). That a result is there for the next instruction is log entry 80. States that exec answers a next state, with the
effect of the step itself, of: cobblerEventDispatch, add, ldB to ldsD, stB to stD, sel, csel, blockHeader, coreLockout, firmwareWatchdogExpiry, zfillZeroed, cseDone,
xphyDone. -/
def Obligations.FirmwareContext : Prop :=
  ∀ (c : Nat) (s : State),
    let b := s.cob c
    (∀ e l, b.cur = none → (s.core c).locked = false → b.queue = e :: l → e.args.length = 4 →
        (let v := (cget b.vectors e.kind.code).toNat
         v < 2 ^ 13 → v < b.img.length → vectorFails b e.kind.code = false → ∃ t, exec (.cobblerEventDispatch c) s = .next t
          ∧ (t.cob c).cur = some e ∧ (t.cob c).pc = v ∧ (t.cob c).queue = l ∧ cget (t.cob c).x 1 = e.word
          ∧ ∀ i < 4, cget (t.cob c).x (i + 2) = e.args.getD i 0))
    ∧ (∀ e l, b.cur = none → (s.core c).locked = false → b.queue = e :: l →
        (vectorFails b e.kind.code = true ∨ 2 ^ 13 ≤ (cget b.vectors e.kind.code).toNat
          ∨ b.img.length ≤ (cget b.vectors e.kind.code).toNat) →
        exec (.cobblerEventDispatch c) s = .next { s with agenda := s.agenda ++ [.coreLockout c] })
    ∧ ((b.cur ≠ none ∨ (s.core c).locked = true ∨ b.queue = []) → exec (.cobblerEventDispatch c) s = .next s)
    ∧ (∀ (h : Hd) (ra rb rc : BitVec 4), s.cur.str = .f → s.cur.core = c → h.tok = 0 → h.g ≠ 8 →
        selects b.p b.blocks h.g = true → ra ≠ 0 → ∃ t, exec (.add h ra rb rc) s = .next t
          ∧ t.cob c = { b with x := cset b.x ra.toNat (b.xr rb + b.xr rc) }.advance h.idle.toNat)
    ∧ (∀ (h : Hd) (ra rb rc : BitVec 4), s.cur.str = .f → s.cur.core = c → h.tok ≠ 0 →
        exec (.add h ra rb rc) s = .next { s with agenda := s.agenda ++ [.coreLockout c] })
    ∧ (∀ (h : Hd) (ra rb rc : BitVec 4), s.cur.str = .f → s.cur.core = c → h.tok = 0 → h.g ≠ 8 →
        selects b.p b.blocks h.g = false → ∀ i ∈ [Instr.add h ra rb rc, .ldD h ra rb rc, .stD h ra rb rc],
          ∃ t, exec i s = .next t ∧ t.cob c = b.advance h.idle.toNat ∧ (t.core c).win = (s.core c).win)
    ∧ (∀ (h : Hd) (g ra rb rc : BitVec 4), s.cur.str = .f → s.cur.core = c → h.tok = 0 → g ≠ 8 → ra ≠ 0 →
        ∀ i ∈ [Instr.sel h g ra rb rc, .csel h g ra rb rc], ∃ t, exec i s = .next t
          ∧ t.cob c = { b with x := cset b.x ra.toNat (if selects b.p b.blocks g then b.xr rb else b.xr rc) }.advance h.idle.toNat)
    ∧ (∀ (h : Hd) (ra rb d : BitVec 4), s.cur.str = .f → s.cur.core = c → h.tok = 0 → h.g ≠ 8 →
        selects b.p b.blocks h.g = true → ra ≠ 0 →
        CobLoads c s h ra rb d .ldB 1 (fun n => BitVec.ofInt 64 (BitVec.ofNat 8 n).toInt)
        ∧ CobLoads c s h ra rb d .ldBu 1 (fun n => BitVec.ofNat 64 n)
        ∧ CobLoads c s h ra rb d .ldH 2 (fun n => BitVec.ofInt 64 (BitVec.ofNat 16 n).toInt)
        ∧ CobLoads c s h ra rb d .ldHu 2 (fun n => BitVec.ofNat 64 n)
        ∧ CobLoads c s h ra rb d .ldW 4 (fun n => BitVec.ofInt 64 (BitVec.ofNat 32 n).toInt)
        ∧ CobLoads c s h ra rb d .ldWu 4 (fun n => BitVec.ofNat 64 n)
        ∧ CobLoads c s h ra rb d .ldD 8 (fun n => BitVec.ofNat 64 n)
        ∧ CobLoads c s h ra rb d .ldsD 8 (fun n => BitVec.ofNat 64 n))
    ∧ (∀ (h : Hd) (ra rb d : BitVec 4), s.cur.str = .f → s.cur.core = c → h.tok = 0 → h.g ≠ 8 →
        selects b.p b.blocks h.g = true →
        CobStores c s h ra rb d .stB 1 ∧ CobStores c s h ra rb d .stH 2 ∧ CobStores c s h ra rb d .stW 4
        ∧ CobStores c s h ra rb d .stD 8)
    ∧ (∀ (len cnt : BitVec 12) (cs : BitVec 1) (stg : BitVec 3), s.cur.str = .f → s.cur.core = c →
        ((cs = 1 ∨ stg ≠ 0) → exec (.blockHeader len cs stg cnt) s = .next { s with agenda := s.agenda ++ [.coreLockout c] })
        ∧ (cs = 0 → stg = 0 → cnt ≠ 0 → ∃ t, exec (.blockHeader len cs stg cnt) s = .next t ∧ t.issue = s.cur :: s.issue
          ∧ t.cob c = { b with pc := b.pc + 2, blocks := { start := b.pc + 2, len := len.toNat, count := cnt.toNat, stages := 0,
                                                           total := cnt.toNat } :: b.blocks })
        ∧ (cs = 0 → stg = 0 → cnt = 0 → ∃ t, exec (.blockHeader len cs stg cnt) s = .next t ∧ t.issue = s.cur :: s.issue
          ∧ t.cob c = { b with pc := (wrap (b.pc + 2 + len.toNat) b.blocks).1,
                               blocks := (wrap (b.pc + 2 + len.toNat) b.blocks).2 }))
    ∧ (∀ (h : Hd) (ra rb rc : BitVec 4) (k : BitVec 8) (e : BitVec 2) (p : BitVec 1), s.cur.str ≠ .f →
        ∀ i ∈ [Instr.wrs h ra k, .rdsp h ra k, .eret h, .waitev h ra rb, .wvset h rb rc, .cse h ra rb rc, .zfill h ra rb,
          .park h ra rb rc, .unpark h ra rb rc, .xphy h e ra p], exec i s = .fault .undecodable)
    ∧ (∀ e, b.cur = some e → b.lastReset = none → ∃ t, exec (.firmwareWatchdogExpiry c) s = .next t
        ∧ (t.cob c).cur = none ∧ (t.cob c).lastReset = some s.cycle ∧ (t.cob c).x = [] ∧ (t.cob c).evres = 0
        ∧ ∃ r, (t.cob c).queue = r :: { e with redo := true } :: b.queue ∧ r.kind = .reset)
    ∧ (∀ n, b.lastReset = some n → s.cycle - n ≤ max 1 s.fw.limit.toNat → ∃ t, exec (.firmwareWatchdogExpiry c) s = .next t
        ∧ t.agenda = s.agenda ++ [.coreLockout c])
    ∧ ((s.core c).locked = true → exec (.coreLockout c) s = .next s)
    ∧ ((s.core c).locked = false → ∃ t, exec (.coreLockout c) s = .next t ∧ (t.core c).locked = true)
    ∧ (∀ w o, (s.core c).locked = false → (s.core c).owners = [(w, o)] →
        ((s.strand o.sid).overdue = true → o.lost = false → ∃ t e, exec (.coreLockout c) s = .next t ∧ e.cause = .coreLost
          ∧ (t.strand o.sid).faults = (s.strand o.sid).faults ++ [e])
        ∧ ((s.strand o.sid).overdue = false → (s.strand o.sid).state = .running → ∃ t, exec (.coreLockout c) s = .next t
          ∧ t.strand o.sid = s.strand o.sid))
    ∧ (∀ w o, (s.core c).locked = true → tfind (s.core c).owners w = some o → o.lost = false → ∃ e, e.cause = .coreLost
        ∧ ((loseOwner c w s).strand o.sid).faults = (s.strand o.sid).faults ++ [e])
    ∧ (b.zfill = none → exec (.zfillZeroed c) s = .next s)
    ∧ (∀ w parts a, b.zfill = some (w, parts, a) → a ≠ 0 → b.zfillTodo = none → PortsFree s (zfillPorts c s) → ∃ t, exec (.zfillZeroed c) s = .next t
        ∧ (t.cob c).zfill = none ∧ cget (t.cob c).x a.toNat = 0
        ∧ (parts.getLsbD 3 = true → ∀ u < (tget {} b.recs w).wsize.toNat, ∀ i < 4096,
            cget (t.core c).win (((tget {} b.recs w).wbase.toNat + u) * 4096 + i) = 0))
    ∧ (∀ w pa, b.cse = some (false, w, pa) → b.cseTodo = none → PortsFree s (csePorts c false w s) →
        ∃ t x l, exec (.cseDone c) s = .next t ∧ (t.cob c).cseBusy = false
        ∧ (t.cob c).cse = none ∧ (t.cob c).compl = l ++ [x] ∧ (x.status = 0 → l = b.compl) ∧ x.kind = 0 ∧ x.wid = BitVec.ofNat 3 w
        ∧ x.status = (if activeId (s.core c) w && !saveFails (s.core c) (s.owner c w) then 0 else 0x13))
    ∧ (∀ x n, b.xphy = [x] → x.num = n → x.status = 0 → hubReg x.pa = none → x.write = true → x.post = true → x.srcPoison = [] →
        x.todo = none → PortsFree s (xphyPorts c x) →
        ∃ t y, exec (.xphyDone c n) s = .next t ∧ (t.cob c).xphy = [] ∧ (t.cob c).compl = b.compl ++ [y] ∧ y.kind = 2
          ∧ y.status = 0 ∧ y.seq = BitVec.ofNat 16 n ∧ (x.src ≠ [] → t.mem = csets s.mem x.pa x.src))

/-! ### Invariants -/

/-- Every step keeps the settings of the governor legal (R16, R18, R19): the frequency step and the ceiling step stay
within 0-13, and the cap, as written and in force, within 500-2000 W, whatever is carried out. -/
def Obligations.LegalKept : Prop := Kept fun s => s.pwr.legal = true
end

