-- ==== Sys2Proof/Laws/Dispatch.lean ====
section
/-! SUPPORT. What `exec` does with each constructor: its meaning, by one call. -/

namespace Sys2Proof.Machine

@[simp] theorem exec_coldReset (s : State) : exec .coldReset s = execColdReset s := rfl
@[simp] theorem exec_powerUpSequence (s : State) : exec .powerUpSequence s = execPowerUpSequence s := rfl
@[simp] theorem exec_railFault (s : State) : exec .railFault s = execRailFault s := rfl
@[simp] theorem exec_firmwareBoot (s : State) : exec .firmwareBoot s = execFirmwareBoot s := rfl
@[simp] theorem exec_junctionSensorRead (temps s) : exec (.junctionSensorRead temps) s = execJunctionSensorRead temps s := rfl
@[simp] theorem exec_governorRevolution (meanMw s) : exec (.governorRevolution meanMw) s = execGovernorRevolution meanMw s := rfl
@[simp] theorem exec_ceilingSet (ceil s) : exec (.ceilingSet ceil) s = execCeilingSet ceil s := rfl
@[simp] theorem exec_hbPwrCapWrite (v s) : exec (.hbPwrCapWrite v) s = execHbPwrCapWrite v s := rfl
@[simp] theorem exec_hbmRefresh (s : State) : exec .hbmRefresh s = execHbmRefresh s := rfl
@[simp] theorem exec_hotReset (s : State) : exec .hotReset s = execHotReset s := rfl
@[simp] theorem exec_mfFlr (s : State) : exec .mfFlr s = execMfFlr s := rfl
@[simp] theorem exec_pfFlr (pf s) : exec (.pfFlr pf) s = execPfFlr pf s := rfl
@[simp] theorem exec_vfFlr (fn s) : exec (.vfFlr fn) s = execVfFlr fn s := rfl
@[simp] theorem exec_vfEnableWrite (pf en s) : exec (.vfEnableWrite pf en) s = execVfEnableWrite pf en s := rfl
@[simp] theorem exec_numvfsWrite (pf n s) : exec (.numvfsWrite pf n) s = execNumvfsWrite pf n s := rfl
@[simp] theorem exec_tdispRequest (fn r s) : exec (.tdispRequest fn r) s = execTdispRequest fn r s := rfl
@[simp] theorem exec_ideKeyProgramming (stream key s) : exec (.ideKeyProgramming stream key) s = execIdeKeyProgramming stream key s := rfl
@[simp] theorem exec_hostBar2Read (fn off len s) : exec (.hostBar2Read fn off len) s = execHostBar2Read fn off len s := rfl
@[simp] theorem exec_hostBar2Write (fn off data ep ide s) : exec (.hostBar2Write fn off data ep ide) s = execHostBar2Write fn off data ep ide s := rfl
@[simp] theorem exec_mfApertureAccess (off len wr s) : exec (.mfApertureAccess off len wr) s = execMfApertureAccess off len wr s := rfl
@[simp] theorem exec_undecodedRequest (addr s) : exec (.undecodedRequest addr) s = execUndecodedRequest addr s := rfl
@[simp] theorem exec_hostReadCompletionTimeout (fn q s) : exec (.hostReadCompletionTimeout fn q) s = execHostReadCompletionTimeout fn q s := rfl
@[simp] theorem exec_msixVectorUnmask (fn vec s) : exec (.msixVectorUnmask fn vec) s = execMsixVectorUnmask fn vec s := rfl
@[simp] theorem exec_registerWrite (fn off size v s) : exec (.registerWrite fn off size v) s = execRegisterWrite fn off size v s := rfl
@[simp] theorem exec_hbActDenyRead (s : State) : exec .hbActDenyRead s = execHbActDenyRead s := rfl
@[simp] theorem exec_klkFlitReceive (port f s) : exec (.klkFlitReceive port f) s = execKlkFlitReceive port f s := rfl
@[simp] theorem exec_klkNakReceive (port seq s) : exec (.klkNakReceive port seq) s = execKlkNakReceive port seq s := rfl
@[simp] theorem exec_klkAckReceive (port seq s) : exec (.klkAckReceive port seq) s = execKlkAckReceive port seq s := rfl
@[simp] theorem exec_klkPortTrained (port s) : exec (.klkPortTrained port) s = execKlkPortTrained port s := rfl
@[simp] theorem exec_klkRetrainTimeout (port s) : exec (.klkRetrainTimeout port) s = execKlkRetrainTimeout port s := rfl
@[simp] theorem exec_hbKlkIdWrite (v s) : exec (.hbKlkIdWrite v) s = execHbKlkIdWrite v s := rfl
@[simp] theorem exec_hbKlkRouteWrite (dst v s) : exec (.hbKlkRouteWrite dst v) s = execHbKlkRouteWrite dst v s := rfl
@[simp] theorem exec_routeChangeApply (dst s) : exec (.routeChangeApply dst) s = execRouteChangeApply dst s := rfl
@[simp] theorem exec_klkRequestTimeout (rid s) : exec (.klkRequestTimeout rid) s = execKlkRequestTimeout rid s := rfl
@[simp] theorem exec_peerRequestArrival (r s) : exec (.peerRequestArrival r) s = execPeerRequestArrival r s := rfl
@[simp] theorem exec_barrierArrival (gid gen dev s) : exec (.barrierArrival gid gen dev) s = execBarrierArrival gid gen dev s := rfl
@[simp] theorem exec_barrierRelease (gid gen s) : exec (.barrierRelease gid gen) s = execBarrierRelease gid gen s := rfl
@[simp] theorem exec_notify (fn q v s) : exec (.notify fn q v) s = execNotify fn q v s := rfl
@[simp] theorem exec_queueDisable (fn q s) : exec (.queueDisable fn q) s = execQueueDisable fn q s := rfl
@[simp] theorem exec_queueEnable (fn q s) : exec (.queueEnable fn q) s = execQueueEnable fn q s := rfl
@[simp] theorem exec_packetFetch (fn q s) : exec (.packetFetch fn q) s = execPacketFetch fn q s := rfl
@[simp] theorem exec_nopPacket (fn q s) : exec (.nopPacket fn q) s = execNopPacket fn q s := rfl
@[simp] theorem exec_launchPacket (fn q s) : exec (.launchPacket fn q) s = execLaunchPacket fn q s := rfl
@[simp] theorem exec_waitPacket (fn q s) : exec (.waitPacket fn q) s = execWaitPacket fn q s := rfl
@[simp] theorem exec_signalPacket (fn q s) : exec (.signalPacket fn q) s = execSignalPacket fn q s := rfl
@[simp] theorem exec_copyPacket (fn q s) : exec (.copyPacket fn q) s = execCopyPacket fn q s := rfl
@[simp] theorem exec_invalPacket (fn q s) : exec (.invalPacket fn q) s = execInvalPacket fn q s := rfl
@[simp] theorem exec_waitReread (fn q s) : exec (.waitReread fn q) s = execWaitReread fn q s := rfl
@[simp] theorem exec_launchAgingStep (fn q s) : exec (.launchAgingStep fn q) s = execLaunchAgingStep fn q s := rfl
@[simp] theorem exec_copyChunk (id s) : exec (.copyChunk id) s = execCopyChunk id s := rfl
@[simp] theorem exec_invalCompletion (id s) : exec (.invalCompletion id) s = execInvalCompletion id s := rfl
@[simp] theorem exec_packetCompletion (id s) : exec (.packetCompletion id) s = execPacketCompletion id s := rfl
@[simp] theorem exec_cqEnable (fn n v s) : exec (.cqEnable fn n v) s = execCqEnable fn n v s := rfl
@[simp] theorem exec_cqCoalesceTimeout (fn n s) : exec (.cqCoalesceTimeout fn n) s = execCqCoalesceTimeout fn n s := rfl
@[simp] theorem exec_attestationRequest (fn nonce s) : exec (.attestationRequest fn nonce) s = execAttestationRequest fn nonce s := rfl
@[simp] theorem exec_attestationReportWrite (fn s) : exec (.attestationReportWrite fn) s = execAttestationReportWrite fn s := rfl
@[simp] theorem exec_firmwareWatchdogExpiry (core s) : exec (.firmwareWatchdogExpiry core) s = execFirmwareWatchdogExpiry core s := rfl
@[simp] theorem exec_coreLockout (core s) : exec (.coreLockout core) s = execCoreLockout core s := rfl
@[simp] theorem exec_cobblerEventDispatch (core s) : exec (.cobblerEventDispatch core) s = execCobblerEventDispatch core s := rfl
@[simp] theorem exec_meterOpen (ix s) : exec (.meterOpen ix) s = execMeterOpen ix s := rfl
@[simp] theorem exec_meterSeal (ix s) : exec (.meterSeal ix) s = execMeterSeal ix s := rfl
@[simp] theorem exec_meterRetire (ix s) : exec (.meterRetire ix) s = execMeterRetire ix s := rfl
@[simp] theorem exec_meterCheckpoint (s : State) : exec .meterCheckpoint s = execMeterCheckpoint s := rfl
@[simp] theorem exec_meterRecordWrite (ix s) : exec (.meterRecordWrite ix) s = execMeterRecordWrite ix s := rfl
@[simp] theorem exec_tenantLogRidxWrite (cid v s) : exec (.tenantLogRidxWrite cid v) s = execTenantLogRidxWrite cid v s := rfl
@[simp] theorem exec_meterContinuation (s : State) : exec .meterContinuation s = execMeterContinuation s := rfl
@[simp] theorem exec_partitionCreate (n v s) : exec (.partitionCreate n v) s = execPartitionCreate n v s := rfl
@[simp] theorem exec_partitionResize (n v s) : exec (.partitionResize n v) s = execPartitionResize n v s := rfl
@[simp] theorem exec_partitionRemove (n s) : exec (.partitionRemove n) s = execPartitionRemove n s := rfl
@[simp] theorem exec_vdCreate (s : State) : exec .vdCreate s = execVdCreate s := rfl
@[simp] theorem exec_vdDestroy (s : State) : exec .vdDestroy s = execVdDestroy s := rfl
@[simp] theorem exec_vdCreateIncoming (s : State) : exec .vdCreateIncoming s = execVdCreateIncoming s := rfl
@[simp] theorem exec_strandPark (sid tick s) : exec (.strandPark sid tick) s = execStrandPark sid tick s := rfl
@[simp] theorem exec_strandUnpark (sid cyc s) : exec (.strandUnpark sid cyc) s = execStrandUnpark sid cyc s := rfl
@[simp] theorem exec_evictionRequest (sid s) : exec (.evictionRequest sid) s = execEvictionRequest sid s := rfl
@[simp] theorem exec_evictionDrain (sid s) : exec (.evictionDrain sid) s = execEvictionDrain sid s := rfl
@[simp] theorem exec_evictionSave (sid s) : exec (.evictionSave sid) s = execEvictionSave sid s := rfl
@[simp] theorem exec_strandResume (sid s) : exec (.strandResume sid) s = execStrandResume sid s := rfl
@[simp] theorem exec_leaseExpiry (sid s) : exec (.leaseExpiry sid) s = execLeaseExpiry sid s := rfl
@[simp] theorem exec_migrationStart (s : State) : exec .migrationStart s = execMigrationStart s := rfl
@[simp] theorem exec_migrationPrecopyRound (s : State) : exec .migrationPrecopyRound s = execMigrationPrecopyRound s := rfl
@[simp] theorem exec_migrationStop (s : State) : exec .migrationStop s = execMigrationStop s := rfl
@[simp] theorem exec_migrationAbort (s : State) : exec .migrationAbort s = execMigrationAbort s := rfl
@[simp] theorem exec_migrationLinkLost (s : State) : exec .migrationLinkLost s = execMigrationLinkLost s := rfl
@[simp] theorem exec_migrationFinalArrival (cid img s) : exec (.migrationFinalArrival cid img) s = execMigrationFinalArrival cid img s := rfl
@[simp] theorem exec_postcopyPagePull (cid page s) : exec (.postcopyPagePull cid page) s = execPostcopyPagePull cid page s := rfl
@[simp] theorem exec_postcopyPagePush (cid s) : exec (.postcopyPagePush cid) s = execPostcopyPagePush cid s := rfl
@[simp] theorem exec_postcopyPageArrival (cid page data s) : exec (.postcopyPageArrival cid page data) s = execPostcopyPageArrival cid page data s := rfl
@[simp] theorem exec_postcopyPullTimeout (cid page s) : exec (.postcopyPullTimeout cid page) s = execPostcopyPullTimeout cid page s := rfl
@[simp] theorem exec_admissionAttempt (fn q s) : exec (.admissionAttempt fn q) s = execAdmissionAttempt fn q s := rfl
@[simp] theorem exec_containerStaging (sid s) : exec (.containerStaging sid) s = execContainerStaging sid s := rfl
@[simp] theorem exec_startDecision (sid s) : exec (.startDecision sid) s = execStartDecision sid s := rfl
@[simp] theorem exec_weaveSwitch (core s) : exec (.weaveSwitch core) s = execWeaveSwitch core s := rfl
@[simp] theorem exec_rephaseSwitch (sid s) : exec (.rephaseSwitch sid) s = execRephaseSwitch sid s := rfl
@[simp] theorem exec_ownerDepart (core wid s) : exec (.ownerDepart core wid) s = execOwnerDepart core wid s := rfl
@[simp] theorem exec_nsclkWrite (v s) : exec (.nsclkWrite v) s = execNsclkWrite v s := rfl
@[simp] theorem exec_transferDispatch (tid s) : exec (.transferDispatch tid) s = execTransferDispatch tid s := rfl
@[simp] theorem exec_pageRequestPost (cid s) : exec (.pageRequestPost cid) s = execPageRequestPost cid s := rfl
@[simp] theorem exec_pageDone (cid page s) : exec (.pageDone cid page) s = execPageDone cid page s := rfl
@[simp] theorem exec_prqEnable (cid v s) : exec (.prqEnable cid v) s = execPrqEnable cid v s := rfl
@[simp] theorem exec_transferLanding (tid resp s) : exec (.transferLanding tid resp) s = execTransferLanding tid resp s := rfl
@[simp] theorem exec_remotePutArrival (tid s) : exec (.remotePutArrival tid) s = execRemotePutArrival tid s := rfl
@[simp] theorem exec_scOperationPerform (tid s) : exec (.scOperationPerform tid) s = execScOperationPerform tid s := rfl
@[simp] theorem exec_syncStallEnd (sid s) : exec (.syncStallEnd sid) s = execSyncStallEnd sid s := rfl
@[simp] theorem exec_strandWatchdogExpiry (sid s) : exec (.strandWatchdogExpiry sid) s = execStrandWatchdogExpiry sid s := rfl
@[simp] theorem exec_resultWriteback (core wid s) : exec (.resultWriteback core wid) s = execResultWriteback core wid s := rfl
@[simp] theorem exec_asyncFaultReport (tid s) : exec (.asyncFaultReport tid) s = execAsyncFaultReport tid s := rfl
@[simp] theorem exec_strandStop (sid s) : exec (.strandStop sid) s = execStrandStop sid s := rfl
@[simp] theorem exec_faultRingEnable (fn v s) : exec (.faultRingEnable fn v) s = execFaultRingEnable fn v s := rfl
@[simp] theorem exec_debugHalt (cid s) : exec (.debugHalt cid) s = execDebugHalt cid s := rfl
@[simp] theorem exec_debugResume (cid s) : exec (.debugResume cid) s = execDebugResume cid s := rfl
@[simp] theorem exec_breakpointSet (cid s) : exec (.breakpointSet cid) s = execBreakpointSet cid s := rfl
@[simp] theorem exec_breakpointClear (cid s) : exec (.breakpointClear cid) s = execBreakpointClear cid s := rfl
@[simp] theorem exec_debugDump (cid s) : exec (.debugDump cid) s = execDebugDump cid s := rfl
@[simp] theorem exec_debugRelease (cid s) : exec (.debugRelease cid) s = execDebugRelease cid s := rfl
@[simp] theorem exec_traceEnable (cid v s) : exec (.traceEnable cid v) s = execTraceEnable cid v s := rfl
@[simp] theorem exec_cseDone (core s) : exec (.cseDone core) s = execCseDone core s := rfl
@[simp] theorem exec_xphyDone (core n s) : exec (.xphyDone core n) s = execXphyDone core n s := rfl
@[simp] theorem exec_rcRegisterRead (fn off s) : exec (.rcRegisterRead fn off) s = execRcRegisterRead fn off s := rfl
@[simp] theorem exec_pcieLinkTraining (gen width flit s) : exec (.pcieLinkTraining gen width flit) s = execPcieLinkTraining gen width flit s := rfl
@[simp] theorem exec_klkPortDown (port s) : exec (.klkPortDown port) s = execKlkPortDown port s := rfl
@[simp] theorem exec_zfillZeroed (core s) : exec (.zfillZeroed core) s = execZfillZeroed core s := rfl
@[simp] theorem exec_postcopySourceFree (cid s) : exec (.postcopySourceFree cid) s = execPostcopySourceFree cid s := rfl
@[simp] theorem exec_blockHeader (len cs stg cnt s) : exec (.blockHeader len cs stg cnt) s = execBlockHeader len cs stg cnt s := rfl
@[simp] theorem exec_nop (h s) : exec (.nop h) s = execNop h s := rfl
@[simp] theorem exec_endS (h s) : exec (.endS h) s = execEndS h s := rfl
@[simp] theorem exec_idle (h k s) : exec (.idle h k) s = execIdle h k s := rfl
@[simp] theorem exec_join (h k s) : exec (.join h k) s = execJoin h k s := rfl
@[simp] theorem exec_sync (h a k s) : exec (.sync h a k) s = execSync h a k s := rfl
@[simp] theorem exec_mark (h k s) : exec (.mark h k) s = execMark h k s := rfl
@[simp] theorem exec_inc (h a s) : exec (.inc h a) s = execInc h a s := rfl
@[simp] theorem exec_dec (h a s) : exec (.dec h a) s = execDec h a s := rfl
@[simp] theorem exec_neg (h a s) : exec (.neg h a) s = execNeg h a s := rfl
@[simp] theorem exec_not (h a s) : exec (.not h a) s = execNot h a s := rfl
@[simp] theorem exec_clr (h a s) : exec (.clr h a) s = execClr h a s := rfl
@[simp] theorem exec_pclr (h a s) : exec (.pclr h a) s = execPclr h a s := rfl
@[simp] theorem exec_pset (h a s) : exec (.pset h a) s = execPset h a s := rfl
@[simp] theorem exec_pnot (h a s) : exec (.pnot h a) s = execPnot h a s := rfl
@[simp] theorem exec_rdtk (h a s) : exec (.rdtk h a) s = execRdtk h a s := rfl
@[simp] theorem exec_add (h a b c s) : exec (.add h a b c) s = execAdd h a b c s := rfl
@[simp] theorem exec_sub (h a b c s) : exec (.sub h a b c) s = execSub h a b c s := rfl
@[simp] theorem exec_and (h a b c s) : exec (.and h a b c) s = execAnd h a b c s := rfl
@[simp] theorem exec_or (h a b c s) : exec (.or h a b c) s = execOr h a b c s := rfl
@[simp] theorem exec_xor (h a b c s) : exec (.xor h a b c) s = execXor h a b c s := rfl
@[simp] theorem exec_shl (h a b c s) : exec (.shl h a b c) s = execShl h a b c s := rfl
@[simp] theorem exec_shr (h a b c s) : exec (.shr h a b c) s = execShr h a b c s := rfl
@[simp] theorem exec_sar (h a b c s) : exec (.sar h a b c) s = execSar h a b c s := rfl
@[simp] theorem exec_mul (h a b c s) : exec (.mul h a b c) s = execMul h a b c s := rfl
@[simp] theorem exec_mulh (h a b c s) : exec (.mulh h a b c) s = execMulh h a b c s := rfl
@[simp] theorem exec_mulhu (h a b c s) : exec (.mulhu h a b c) s = execMulhu h a b c s := rfl
@[simp] theorem exec_min (h a b c s) : exec (.min h a b c) s = execMin h a b c s := rfl
@[simp] theorem exec_max (h a b c s) : exec (.max h a b c) s = execMax h a b c s := rfl
@[simp] theorem exec_minu (h a b c s) : exec (.minu h a b c) s = execMinu h a b c s := rfl
@[simp] theorem exec_maxu (h a b c s) : exec (.maxu h a b c) s = execMaxu h a b c s := rfl
@[simp] theorem exec_rotl (h a b c s) : exec (.rotl h a b c) s = execRotl h a b c s := rfl
@[simp] theorem exec_rotr (h a b c s) : exec (.rotr h a b c) s = execRotr h a b c s := rfl
@[simp] theorem exec_div (h a b c s) : exec (.div h a b c) s = execDiv h a b c s := rfl
@[simp] theorem exec_divu (h a b c s) : exec (.divu h a b c) s = execDivu h a b c s := rfl
@[simp] theorem exec_rem (h a b c s) : exec (.rem h a b c) s = execRem h a b c s := rfl
@[simp] theorem exec_remu (h a b c s) : exec (.remu h a b c) s = execRemu h a b c s := rfl
@[simp] theorem exec_clz (h a b s) : exec (.clz h a b) s = execClz h a b s := rfl
@[simp] theorem exec_ctz (h a b s) : exec (.ctz h a b) s = execCtz h a b s := rfl
@[simp] theorem exec_popc (h a b s) : exec (.popc h a b) s = execPopc h a b s := rfl
@[simp] theorem exec_abs (h a b s) : exec (.abs h a b) s = execAbs h a b s := rfl
@[simp] theorem exec_sextB (h a b s) : exec (.sextB h a b) s = execSextB h a b s := rfl
@[simp] theorem exec_sextH (h a b s) : exec (.sextH h a b) s = execSextH h a b s := rfl
@[simp] theorem exec_sextW (h a b s) : exec (.sextW h a b) s = execSextW h a b s := rfl
@[simp] theorem exec_zextB (h a b s) : exec (.zextB h a b) s = execZextB h a b s := rfl
@[simp] theorem exec_zextH (h a b s) : exec (.zextH h a b) s = execZextH h a b s := rfl
@[simp] theorem exec_zextW (h a b s) : exec (.zextW h a b) s = execZextW h a b s := rfl
@[simp] theorem exec_bswap (h a b s) : exec (.bswap h a b) s = execBswap h a b s := rfl
@[simp] theorem exec_sel (h sf a b c s) : exec (.sel h sf a b c) s = execSel h sf a b c s := rfl
@[simp] theorem exec_csel (h sf a b c s) : exec (.csel h sf a b c) s = execCsel h sf a b c s := rfl
@[simp] theorem exec_ceq (h a b c s) : exec (.ceq h a b c) s = execCeq h a b c s := rfl
@[simp] theorem exec_cne (h a b c s) : exec (.cne h a b c) s = execCne h a b c s := rfl
@[simp] theorem exec_clt (h a b c s) : exec (.clt h a b c) s = execClt h a b c s := rfl
@[simp] theorem exec_cltu (h a b c s) : exec (.cltu h a b c) s = execCltu h a b c s := rfl
@[simp] theorem exec_cle (h a b c s) : exec (.cle h a b c) s = execCle h a b c s := rfl
@[simp] theorem exec_cleu (h a b c s) : exec (.cleu h a b c) s = execCleu h a b c s := rfl
@[simp] theorem exec_addi (h a k s) : exec (.addi h a k) s = execAddi h a k s := rfl
@[simp] theorem exec_andi (h a k s) : exec (.andi h a k) s = execAndi h a k s := rfl
@[simp] theorem exec_ori (h a k s) : exec (.ori h a k) s = execOri h a k s := rfl
@[simp] theorem exec_xori (h a k s) : exec (.xori h a k) s = execXori h a k s := rfl
@[simp] theorem exec_shli (h a k s) : exec (.shli h a k) s = execShli h a k s := rfl
@[simp] theorem exec_shri (h a k s) : exec (.shri h a k) s = execShri h a k s := rfl
@[simp] theorem exec_sari (h a k s) : exec (.sari h a k) s = execSari h a k s := rfl
@[simp] theorem exec_ceqi (h a p k s) : exec (.ceqi h a p k) s = execCeqi h a p k s := rfl
@[simp] theorem exec_clti (h a p k s) : exec (.clti h a p k) s = execClti h a p k s := rfl
@[simp] theorem exec_cltui (h a p k s) : exec (.cltui h a p k) s = execCltui h a p k s := rfl
@[simp] theorem exec_movi (h a k s) : exec (.movi h a k) s = execMovi h a k s := rfl
@[simp] theorem exec_movh (h a k s) : exec (.movh h a k) s = execMovh h a k s := rfl
@[simp] theorem exec_ldB (h a b d s) : exec (.ldB h a b d) s = execLdB h a b d s := rfl
@[simp] theorem exec_ldBu (h a b d s) : exec (.ldBu h a b d) s = execLdBu h a b d s := rfl
@[simp] theorem exec_ldH (h a b d s) : exec (.ldH h a b d) s = execLdH h a b d s := rfl
@[simp] theorem exec_ldHu (h a b d s) : exec (.ldHu h a b d) s = execLdHu h a b d s := rfl
@[simp] theorem exec_ldW (h a b d s) : exec (.ldW h a b d) s = execLdW h a b d s := rfl
@[simp] theorem exec_ldWu (h a b d s) : exec (.ldWu h a b d) s = execLdWu h a b d s := rfl
@[simp] theorem exec_ldD (h a b d s) : exec (.ldD h a b d) s = execLdD h a b d s := rfl
@[simp] theorem exec_ldsD (h a b d s) : exec (.ldsD h a b d) s = execLdsD h a b d s := rfl
@[simp] theorem exec_stB (h a b d s) : exec (.stB h a b d) s = execStB h a b d s := rfl
@[simp] theorem exec_stH (h a b d s) : exec (.stH h a b d) s = execStH h a b d s := rfl
@[simp] theorem exec_stW (h a b d s) : exec (.stW h a b d) s = execStW h a b d s := rfl
@[simp] theorem exec_stD (h a b d s) : exec (.stD h a b d) s = execStD h a b d s := rfl
@[simp] theorem exec_rdl (h a k s) : exec (.rdl h a k) s = execRdl h a k s := rfl
@[simp] theorem exec_rds (h a k s) : exec (.rds h a k) s = execRds h a k s := rfl
@[simp] theorem exec_setlc (h a b s) : exec (.setlc h a b) s = execSetlc h a b s := rfl
@[simp] theorem exec_ags (h a b c s) : exec (.ags h a b c) s = execAgs h a b c s := rfl
@[simp] theorem exec_pute (h a b s) : exec (.pute h a b) s = execPute h a b s := rfl
@[simp] theorem exec_fmt (h b s) : exec (.fmt h b) s = execFmt h b s := rfl
@[simp] theorem exec_pand (h a b c s) : exec (.pand h a b c) s = execPand h a b c s := rfl
@[simp] theorem exec_por (h a b c s) : exec (.por h a b c) s = execPor h a b c s := rfl
@[simp] theorem exec_pxor (h a b c s) : exec (.pxor h a b c) s = execPxor h a b c s := rfl
@[simp] theorem exec_pmov (h a b s) : exec (.pmov h a b) s = execPmov h a b s := rfl
@[simp] theorem exec_trap (h a k s) : exec (.trap h a k) s = execTrap h a k s := rfl
@[simp] theorem exec_claim (h oa n s) : exec (.claim h oa n) s = execClaim h oa n s := rfl
@[simp] theorem exec_release (h oa n s) : exec (.release h oa n) s = execRelease h oa n s := rfl
@[simp] theorem exec_ldta (h oa ag s) : exec (.ldta h oa ag) s = execLdta h oa ag s := rfl
@[simp] theorem exec_ldtb (h oa ag s) : exec (.ldtb h oa ag) s = execLdtb h oa ag s := rfl
@[simp] theorem exec_lde (h oa ag s) : exec (.lde h oa ag) s = execLde h oa ag s := rfl
@[simp] theorem exec_ldtf (h oa ag n s) : exec (.ldtf h oa ag n) s = execLdtf h oa ag n s := rfl
@[simp] theorem exec_ldvW (h a ag s) : exec (.ldvW h a ag) s = execLdvW h a ag s := rfl
@[simp] theorem exec_ldvH (h a ag s) : exec (.ldvH h a ag) s = execLdvH h a ag s := rfl
@[simp] theorem exec_ldvHu (h a ag s) : exec (.ldvHu h a ag) s = execLdvHu h a ag s := rfl
@[simp] theorem exec_ldvB (h a ag s) : exec (.ldvB h a ag) s = execLdvB h a ag s := rfl
@[simp] theorem exec_ldvBu (h a ag s) : exec (.ldvBu h a ag) s = execLdvBu h a ag s := rfl
@[simp] theorem exec_ldvrW (h a ag s) : exec (.ldvrW h a ag) s = execLdvrW h a ag s := rfl
@[simp] theorem exec_ldvcW (h a ag s) : exec (.ldvcW h a ag) s = execLdvcW h a ag s := rfl
@[simp] theorem exec_ldg (h a b ag band s) : exec (.ldg h a b ag band) s = execLdg h a b ag band s := rfl
@[simp] theorem exec_mma (h oa n s) : exec (.mma h oa n) s = execMma h oa n s := rfl
@[simp] theorem exec_mmaw (h oa n s) : exec (.mmaw h oa n) s = execMmaw h oa n s := rfl
@[simp] theorem exec_radv (h s) : exec (.radv h) s = execRadv h s := rfl
@[simp] theorem exec_rskip (h s) : exec (.rskip h) s = execRskip h s := rfl
@[simp] theorem exec_tcfg (h oa w s) : exec (.tcfg h oa w) s = execTcfg h oa w s := rfl
@[simp] theorem exec_teval (h oa s) : exec (.teval h oa) s = execTeval h oa s := rfl
@[simp] theorem exec_tmask (h k s) : exec (.tmask h k) s = execTmask h k s := rfl
@[simp] theorem exec_tclr (h s) : exec (.tclr h) s = execTclr h s := rfl
@[simp] theorem exec_mclr (h s) : exec (.mclr h) s = execMclr h s := rfl
@[simp] theorem exec_wrs (h a k s) : exec (.wrs h a k) s = execWrs h a k s := rfl
@[simp] theorem exec_rdsp (h a k s) : exec (.rdsp h a k) s = execRdsp h a k s := rfl
@[simp] theorem exec_eret (h s) : exec (.eret h) s = execEret h s := rfl
@[simp] theorem exec_waitev (h a b s) : exec (.waitev h a b) s = execWaitev h a b s := rfl
@[simp] theorem exec_wvset (h b c s) : exec (.wvset h b c) s = execWvset h b c s := rfl
@[simp] theorem exec_cse (h a b c s) : exec (.cse h a b c) s = execCse h a b c s := rfl
@[simp] theorem exec_zfill (h a b s) : exec (.zfill h a b) s = execZfill h a b s := rfl
@[simp] theorem exec_park (h a b c s) : exec (.park h a b c) s = execPark h a b c s := rfl
@[simp] theorem exec_unpark (h a b c s) : exec (.unpark h a b c) s = execUnpark h a b c s := rfl
@[simp] theorem exec_xphy (h e cls p s) : exec (.xphy h e cls p) s = execXphy h e cls p s := rfl
@[simp] theorem exec_stvW (h a ag s) : exec (.stvW h a ag) s = execStvW h a ag s := rfl
@[simp] theorem exec_stvH (h a ag s) : exec (.stvH h a ag) s = execStvH h a ag s := rfl
@[simp] theorem exec_stvHs (h a ag s) : exec (.stvHs h a ag) s = execStvHs h a ag s := rfl
@[simp] theorem exec_stvB (h a ag s) : exec (.stvB h a ag) s = execStvB h a ag s := rfl
@[simp] theorem exec_stvBs (h a ag s) : exec (.stvBs h a ag) s = execStvBs h a ag s := rfl
@[simp] theorem exec_stvc (h a ag sf m s) : exec (.stvc h a ag sf m) s = execStvc h a ag sf m s := rfl
@[simp] theorem exec_xrd (h e ag cls p s) : exec (.xrd h e ag cls p) s = execXrd h e ag cls p s := rfl
@[simp] theorem exec_xrdSp (h e ag cls p s) : exec (.xrdSp h e ag cls p) s = execXrdSp h e ag cls p s := rfl
@[simp] theorem exec_xrdm (h e ag cls p s) : exec (.xrdm h e ag cls p) s = execXrdm h e ag cls p s := rfl
@[simp] theorem exec_xwr (h e ag cls p s) : exec (.xwr h e ag cls p) s = execXwr h e ag cls p s := rfl
@[simp] theorem exec_xwrZ (h e ag cls p s) : exec (.xwrZ h e ag cls p) s = execXwrZ h e ag cls p s := rfl
@[simp] theorem exec_xput (h e ag cls p s) : exec (.xput h e ag cls p) s = execXput h e ag cls p s := rfl
@[simp] theorem exec_xget (h e ag cls p s) : exec (.xget h e ag cls p) s = execXget h e ag cls p s := rfl
@[simp] theorem exec_xsumF (h e ag cls p s) : exec (.xsumF h e ag cls p) s = execXsumF h e ag cls p s := rfl
@[simp] theorem exec_xsumI (h e ag cls p s) : exec (.xsumI h e ag cls p) s = execXsumI h e ag cls p s := rfl
@[simp] theorem exec_xatAdd (h e ag cls p s) : exec (.xatAdd h e ag cls p) s = execXatAdd h e ag cls p s := rfl
@[simp] theorem exec_xatSwp (h e ag cls p s) : exec (.xatSwp h e ag cls p) s = execXatSwp h e ag cls p s := rfl
@[simp] theorem exec_xatCas (h e ag cls p s) : exec (.xatCas h e ag cls p) s = execXatCas h e ag cls p s := rfl
@[simp] theorem exec_xatMax (h e ag cls p s) : exec (.xatMax h e ag cls p) s = execXatMax h e ag cls p s := rfl
@[simp] theorem exec_xatMin (h e ag cls p s) : exec (.xatMin h e ag cls p) s = execXatMin h e ag cls p s := rfl
@[simp] theorem exec_xatAnd (h e ag cls p s) : exec (.xatAnd h e ag cls p) s = execXatAnd h e ag cls p s := rfl
@[simp] theorem exec_xatOr (h e ag cls p s) : exec (.xatOr h e ag cls p) s = execXatOr h e ag cls p s := rfl
@[simp] theorem exec_xatXor (h e ag cls p s) : exec (.xatXor h e ag cls p) s = execXatXor h e ag cls p s := rfl
@[simp] theorem exec_xscLd (h e ag cls p s) : exec (.xscLd h e ag cls p) s = execXscLd h e ag cls p s := rfl
@[simp] theorem exec_xscSt (h e ag cls p s) : exec (.xscSt h e ag cls p) s = execXscSt h e ag cls p s := rfl
@[simp] theorem exec_xscAdd (h e ag cls p s) : exec (.xscAdd h e ag cls p) s = execXscAdd h e ag cls p s := rfl
@[simp] theorem exec_xscSwp (h e ag cls p s) : exec (.xscSwp h e ag cls p) s = execXscSwp h e ag cls p s := rfl
@[simp] theorem exec_xscCas (h e ag cls p s) : exec (.xscCas h e ag cls p) s = execXscCas h e ag cls p s := rfl
@[simp] theorem exec_xscMax (h e ag cls p s) : exec (.xscMax h e ag cls p) s = execXscMax h e ag cls p s := rfl
@[simp] theorem exec_fence (h k s) : exec (.fence h k) s = execFence h k s := rfl
@[simp] theorem exec_xpop (h a cls s) : exec (.xpop h a cls) s = execXpop h a cls s := rfl
@[simp] theorem exec_xpeek (h a cls s) : exec (.xpeek h a cls) s = execXpeek h a cls s := rfl
@[simp] theorem exec_vzero (h a s) : exec (.vzero h a) s = execVzero h a s := rfl
@[simp] theorem exec_vfadd (h a b c s) : exec (.vfadd h a b c) s = execVfadd h a b c s := rfl
@[simp] theorem exec_vfsub (h a b c s) : exec (.vfsub h a b c) s = execVfsub h a b c s := rfl
@[simp] theorem exec_vfmul (h a b c s) : exec (.vfmul h a b c) s = execVfmul h a b c s := rfl
@[simp] theorem exec_vfma (h a b c s) : exec (.vfma h a b c) s = execVfma h a b c s := rfl
@[simp] theorem exec_vfms (h a b c s) : exec (.vfms h a b c) s = execVfms h a b c s := rfl
@[simp] theorem exec_vfnma (h a b c s) : exec (.vfnma h a b c) s = execVfnma h a b c s := rfl
@[simp] theorem exec_vfnms (h a b c s) : exec (.vfnms h a b c) s = execVfnms h a b c s := rfl
@[simp] theorem exec_vfdiv (h a b c s) : exec (.vfdiv h a b c) s = execVfdiv h a b c s := rfl
@[simp] theorem exec_vfmin (h a b c s) : exec (.vfmin h a b c) s = execVfmin h a b c s := rfl
@[simp] theorem exec_vfmax (h a b c s) : exec (.vfmax h a b c) s = execVfmax h a b c s := rfl
@[simp] theorem exec_vfabs (h a b s) : exec (.vfabs h a b) s = execVfabs h a b s := rfl
@[simp] theorem exec_vfneg (h a b s) : exec (.vfneg h a b) s = execVfneg h a b s := rfl
@[simp] theorem exec_vffloor (h a b s) : exec (.vffloor h a b) s = execVffloor h a b s := rfl
@[simp] theorem exec_vfround (h a b s) : exec (.vfround h a b) s = execVfround h a b s := rfl
@[simp] theorem exec_vfclass (h a b s) : exec (.vfclass h a b) s = execVfclass h a b s := rfl
@[simp] theorem exec_vfrcp (h a b s) : exec (.vfrcp h a b) s = execVfrcp h a b s := rfl
@[simp] theorem exec_vfsqrt (h a b s) : exec (.vfsqrt h a b) s = execVfsqrt h a b s := rfl
@[simp] theorem exec_vfrsq (h a b s) : exec (.vfrsq h a b) s = execVfrsq h a b s := rfl
@[simp] theorem exec_vfexp2 (h a b s) : exec (.vfexp2 h a b) s = execVfexp2 h a b s := rfl
@[simp] theorem exec_vflog2 (h a b s) : exec (.vflog2 h a b) s = execVflog2 h a b s := rfl
@[simp] theorem exec_vftanh (h a b s) : exec (.vftanh h a b) s = execVftanh h a b s := rfl
@[simp] theorem exec_vfsigm (h a b s) : exec (.vfsigm h a b) s = execVfsigm h a b s := rfl
@[simp] theorem exec_vadd (h a b c s) : exec (.vadd h a b c) s = execVadd h a b c s := rfl
@[simp] theorem exec_vsub (h a b c s) : exec (.vsub h a b c) s = execVsub h a b c s := rfl
@[simp] theorem exec_vadds (h a b c s) : exec (.vadds h a b c) s = execVadds h a b c s := rfl
@[simp] theorem exec_vsubs (h a b c s) : exec (.vsubs h a b c) s = execVsubs h a b c s := rfl
@[simp] theorem exec_vmul (h a b c s) : exec (.vmul h a b c) s = execVmul h a b c s := rfl
@[simp] theorem exec_vmulh (h a b c s) : exec (.vmulh h a b c) s = execVmulh h a b c s := rfl
@[simp] theorem exec_vmin (h a b c s) : exec (.vmin h a b c) s = execVmin h a b c s := rfl
@[simp] theorem exec_vmax (h a b c s) : exec (.vmax h a b c) s = execVmax h a b c s := rfl
@[simp] theorem exec_vminu (h a b c s) : exec (.vminu h a b c) s = execVminu h a b c s := rfl
@[simp] theorem exec_vmaxu (h a b c s) : exec (.vmaxu h a b c) s = execVmaxu h a b c s := rfl
@[simp] theorem exec_vabs (h a b s) : exec (.vabs h a b) s = execVabs h a b s := rfl
@[simp] theorem exec_vand (h a b c s) : exec (.vand h a b c) s = execVand h a b c s := rfl
@[simp] theorem exec_vor (h a b c s) : exec (.vor h a b c) s = execVor h a b c s := rfl
@[simp] theorem exec_vxor (h a b c s) : exec (.vxor h a b c) s = execVxor h a b c s := rfl
@[simp] theorem exec_vnot (h a b s) : exec (.vnot h a b) s = execVnot h a b s := rfl
@[simp] theorem exec_vshl (h a b c s) : exec (.vshl h a b c) s = execVshl h a b c s := rfl
@[simp] theorem exec_vshr (h a b c s) : exec (.vshr h a b c) s = execVshr h a b c s := rfl
@[simp] theorem exec_vsar (h a b c s) : exec (.vsar h a b c) s = execVsar h a b c s := rfl
@[simp] theorem exec_vshli (h a b k s) : exec (.vshli h a b k) s = execVshli h a b k s := rfl
@[simp] theorem exec_vshri (h a b k s) : exec (.vshri h a b k) s = execVshri h a b k s := rfl
@[simp] theorem exec_vsari (h a b k s) : exec (.vsari h a b k) s = execVsari h a b k s := rfl
@[simp] theorem exec_vpopc (h a b s) : exec (.vpopc h a b) s = execVpopc h a b s := rfl
@[simp] theorem exec_vclz (h a b s) : exec (.vclz h a b) s = execVclz h a b s := rfl
@[simp] theorem exec_vctz (h a b s) : exec (.vctz h a b) s = execVctz h a b s := rfl
@[simp] theorem exec_vclmulL (h a b c s) : exec (.vclmulL h a b c) s = execVclmulL h a b c s := rfl
@[simp] theorem exec_vclmulH (h a b c s) : exec (.vclmulH h a b c) s = execVclmulH h a b c s := rfl
@[simp] theorem exec_vdot2Bf (h a b c s) : exec (.vdot2Bf h a b c) s = execVdot2Bf h a b c s := rfl
@[simp] theorem exec_vdot4I8 (h a b c s) : exec (.vdot4I8 h a b c) s = execVdot4I8 h a b c s := rfl
@[simp] theorem exec_vfcmpEq (h a b c s) : exec (.vfcmpEq h a b c) s = execVfcmpEq h a b c s := rfl
@[simp] theorem exec_vfcmpNe (h a b c s) : exec (.vfcmpNe h a b c) s = execVfcmpNe h a b c s := rfl
@[simp] theorem exec_vfcmpLt (h a b c s) : exec (.vfcmpLt h a b c) s = execVfcmpLt h a b c s := rfl
@[simp] theorem exec_vfcmpLe (h a b c s) : exec (.vfcmpLe h a b c) s = execVfcmpLe h a b c s := rfl
@[simp] theorem exec_vfcmpUn (h a b c s) : exec (.vfcmpUn h a b c) s = execVfcmpUn h a b c s := rfl
@[simp] theorem exec_vcmpEq (h a b c s) : exec (.vcmpEq h a b c) s = execVcmpEq h a b c s := rfl
@[simp] theorem exec_vcmpNe (h a b c s) : exec (.vcmpNe h a b c) s = execVcmpNe h a b c s := rfl
@[simp] theorem exec_vcmpLt (h a b c s) : exec (.vcmpLt h a b c) s = execVcmpLt h a b c s := rfl
@[simp] theorem exec_vcmpLe (h a b c s) : exec (.vcmpLe h a b c) s = execVcmpLe h a b c s := rfl
@[simp] theorem exec_vcmpLtu (h a b c s) : exec (.vcmpLtu h a b c) s = execVcmpLtu h a b c s := rfl
@[simp] theorem exec_vcmpLeu (h a b c s) : exec (.vcmpLeu h a b c) s = execVcmpLeu h a b c s := rfl
@[simp] theorem exec_vmov (h a b s) : exec (.vmov h a b) s = execVmov h a b s := rfl
@[simp] theorem exec_vspl (h a b s) : exec (.vspl h a b) s = execVspl h a b s := rfl
@[simp] theorem exec_vimm (h a k s) : exec (.vimm h a k) s = execVimm h a k s := rfl
@[simp] theorem exec_vsel (h a b c sf m s) : exec (.vsel h a b c sf m) s = execVsel h a b c sf m s := rfl
@[simp] theorem exec_mand (h a b c s) : exec (.mand h a b c) s = execMand h a b c s := rfl
@[simp] theorem exec_mor (h a b c s) : exec (.mor h a b c) s = execMor h a b c s := rfl
@[simp] theorem exec_mxor (h a b c s) : exec (.mxor h a b c) s = execMxor h a b c s := rfl
@[simp] theorem exec_mnot (h a b s) : exec (.mnot h a b) s = execMnot h a b s := rfl
@[simp] theorem exec_vany (h a b s) : exec (.vany h a b) s = execVany h a b s := rfl
@[simp] theorem exec_vall (h a b s) : exec (.vall h a b) s = execVall h a b s := rfl
@[simp] theorem exec_vlam (h b s) : exec (.vlam h b) s = execVlam h b s := rfl
@[simp] theorem exec_vmpack (h a b s) : exec (.vmpack h a b) s = execVmpack h a b s := rfl
@[simp] theorem exec_vmunpk (h a b s) : exec (.vmunpk h a b) s = execVmunpk h a b s := rfl
@[simp] theorem exec_vcvtFi (h a b s) : exec (.vcvtFi h a b) s = execVcvtFi h a b s := rfl
@[simp] theorem exec_vcvtIf (h a b s) : exec (.vcvtIf h a b) s = execVcvtIf h a b s := rfl
@[simp] theorem exec_vcvtFb (h a b s) : exec (.vcvtFb h a b) s = execVcvtFb h a b s := rfl
@[simp] theorem exec_vcvtBf (h a b s) : exec (.vcvtBf h a b) s = execVcvtBf h a b s := rfl
@[simp] theorem exec_vcvtFk (h a b s) : exec (.vcvtFk h a b) s = execVcvtFk h a b s := rfl
@[simp] theorem exec_vquant (h a b e sf s) : exec (.vquant h a b e sf) s = execVquant h a b e sf s := rfl
@[simp] theorem exec_vqexp (h a b e sf s) : exec (.vqexp h a b e sf) s = execVqexp h a b e sf s := rfl
@[simp] theorem exec_vrotR (h a b p k s) : exec (.vrotR h a b p k) s = execVrotR h a b p k s := rfl
@[simp] theorem exec_vrotC (h a b p k s) : exec (.vrotC h a b p k) s = execVrotC h a b p k s := rfl
@[simp] theorem exec_vbcR (h a b p k s) : exec (.vbcR h a b p k) s = execVbcR h a b p k s := rfl
@[simp] theorem exec_vbcC (h a b p k s) : exec (.vbcC h a b p k) s = execVbcC h a b p k s := rfl
@[simp] theorem exec_vpermR (h a b c p s) : exec (.vpermR h a b c p) s = execVpermR h a b c p s := rfl
@[simp] theorem exec_vpermC (h a b c p s) : exec (.vpermC h a b c p) s = execVpermC h a b c p s := rfl
@[simp] theorem exec_vredRFadd (h a b p s) : exec (.vredRFadd h a b p) s = execVredRFadd h a b p s := rfl
@[simp] theorem exec_vredRIadd (h a b p s) : exec (.vredRIadd h a b p) s = execVredRIadd h a b p s := rfl
@[simp] theorem exec_vredRXor (h a b p s) : exec (.vredRXor h a b p) s = execVredRXor h a b p s := rfl
@[simp] theorem exec_vredRMax (h a b p s) : exec (.vredRMax h a b p) s = execVredRMax h a b p s := rfl
@[simp] theorem exec_vredRMin (h a b p s) : exec (.vredRMin h a b p) s = execVredRMin h a b p s := rfl
@[simp] theorem exec_vredCFadd (h a b p s) : exec (.vredCFadd h a b p) s = execVredCFadd h a b p s := rfl
@[simp] theorem exec_vredCIadd (h a b p s) : exec (.vredCIadd h a b p) s = execVredCIadd h a b p s := rfl
@[simp] theorem exec_vredCXor (h a b p s) : exec (.vredCXor h a b p) s = execVredCXor h a b p s := rfl
@[simp] theorem exec_vredCMax (h a b p s) : exec (.vredCMax h a b p) s = execVredCMax h a b p s := rfl
@[simp] theorem exec_vredCMin (h a b p s) : exec (.vredCMin h a b p) s = execVredCMin h a b p s := rfl
@[simp] theorem exec_vscanRFadd (h a b p s) : exec (.vscanRFadd h a b p) s = execVscanRFadd h a b p s := rfl
@[simp] theorem exec_vscanRIadd (h a b p s) : exec (.vscanRIadd h a b p) s = execVscanRIadd h a b p s := rfl
@[simp] theorem exec_vscanRXor (h a b p s) : exec (.vscanRXor h a b p) s = execVscanRXor h a b p s := rfl
@[simp] theorem exec_vscanCFadd (h a b p s) : exec (.vscanCFadd h a b p) s = execVscanCFadd h a b p s := rfl
@[simp] theorem exec_vscanCIadd (h a b p s) : exec (.vscanCIadd h a b p) s = execVscanCIadd h a b p s := rfl
@[simp] theorem exec_vscanCXor (h a b p s) : exec (.vscanCXor h a b p) s = execVscanCXor h a b p s := rfl
@[simp] theorem exec_vcpr (h a b sf m s) : exec (.vcpr h a b sf m) s = execVcpr h a b sf m s := rfl
@[simp] theorem exec_vidx (h a s) : exec (.vidx h a) s = execVidx h a s := rfl
@[simp] theorem exec_rpop (h a k s) : exec (.rpop h a k) s = execRpop h a k s := rfl
@[simp] theorem exec_rfree (h s) : exec (.rfree h) s = execRfree h s := rfl
@[simp] theorem exec_vbrev (h a b s) : exec (.vbrev h a b) s = execVbrev h a b s := rfl

end Sys2Proof.Machine
end

