-- ==== Sys2Proof/Laws/Issue.lean ====
section
/-! SUPPORT. What the issue of an instruction of an owner's stream answers, said once: it performs, it is guarded off, it
faults by its own checks, or a token that it takes is missing. -/

namespace Sys2Proof.Machine

@[simp] theorem ok_bind {ε α β : Type} (a : α) (f : α → Except ε β) : (Except.ok a >>= f) = f a := rfl

@[simp] theorem error_bind {ε α β : Type} (e : ε) (f : α → Except ε β) : (Except.error e >>= f) = Except.error e := rfl

theorem missingTake_eq_none {tok : Cells 4} {l : List Nat} : missingTake tok l = none ↔ ∀ c ∈ l, cget tok c ≠ 0 := by
  induction l with
  | nil => simp [missingTake]
  | cons c l ih =>
    unfold missingTake
    split
    · simp_all
    · simp_all

/-- A body that answers an act performs it. -/
theorem issue_performed {h : Hd} {guarded fw : Bool} {occ : Nat} {body : Body} {s : State} {a : Act}
    (hr : Ready s h guarded) (hb : body s s.curOwner = .ok a) :
    issue h guarded occ fw body s = .next (performed h occ a.effs a.ports s) := by
  have ht := missingTake_eq_none.2 hr.tokens
  have hg : (guarded && !selects s.curOwner.p (s.curOwner.stream s.cur.str).blocks h.g) = false := by
    cases guarded
    · rfl
    · simp [hr.guard rfl]
  simp only [issue, hr.slot, if_false, issueOwner, ht, hg, hb, performed]
  rfl

/-- A body whose checks fail raises their fault. -/
theorem issue_raises {h : Hd} {guarded fw : Bool} {occ : Nat} {body : Body} {s : State} {b : Bad}
    (hr : Ready s h guarded) (hb : body s s.curOwner = .error b) :
    issue h guarded occ fw body s = .next (raiseGiving (tokenGives (streamNum s.cur.str) h.tok) b s) := by
  have ht := missingTake_eq_none.2 hr.tokens
  have hg : (guarded && !selects s.curOwner.p (s.curOwner.stream s.cur.str).blocks h.g) = false := by
    cases guarded
    · rfl
    · simp [hr.guard rfl]
  simp only [issue, hr.slot, if_false, issueOwner, ht, hg, hb]
  rfl

/-- An instruction whose guard does not hold performs its tokens and spends its time, and does nothing else. -/
theorem issue_guarded_off {h : Hd} {fw : Bool} {occ : Nat} {body : Body} {s : State} (hs : s.cur.str ≠ .f)
    (ht : ∀ c ∈ tokenTakes (streamNum s.cur.str) h.tok, cget s.curOwner.tok c ≠ 0)
    (hg : selects s.curOwner.p (s.curOwner.stream s.cur.str).blocks h.g = false) :
    issue h true occ fw body s = .next (performed h occ [] [] s) := by
  have ht := missingTake_eq_none.2 ht
  simp only [issue, hs, if_false, issueOwner, ht, hg, performed, Bool.not_false, Bool.and_true, if_true, List.nil_append, portsFor, List.map_nil,
    List.append_nil]

/-- A take from a counter that holds 0 is a SCHEDULE_MISS, guard or not. -/
theorem issue_missing {h : Hd} {guarded fw : Bool} {occ : Nat} {body : Body} {s : State} {c : Nat} (hs : s.cur.str ≠ .f)
    (ht : missingTake s.curOwner.tok (tokenTakes (streamNum s.cur.str) h.tok) = some c) :
    issue h guarded occ fw body s = .next (raise { cause := .scheduleMiss, detail := c } s) := by
  simp only [issue, hs, if_false, issueOwner, ht]

/-- An instruction whose meaning is an issue of a body that answers an act does what the act says. -/
theorem does_of_body {i : Instr} {h : Hd} {guarded fw : Bool} {occ : Nat} {body : Body} {s : State}
    {effs : List (Nat × Effect)} {ports : List Port} (hx : exec i s = issue h guarded occ fw body s)
    (hb : body s s.curOwner = .ok { effs := effs, ports := ports }) : Does i h guarded occ effs ports s :=
  fun hr => hx.trans (issue_performed hr hb)

/-- An instruction whose meaning is an issue of a body whose checks fail raises their fault. -/
theorem faults_of_body {i : Instr} {h : Hd} {guarded fw : Bool} {occ : Nat} {body : Body} {s : State} {b : Bad}
    (hx : exec i s = issue h guarded occ fw body s) (hb : body s s.curOwner = .error b) : Faults i h guarded b s :=
  fun hr => hx.trans (issue_raises hr hb)

/-- In an owner's slot an issue always answers a next state. -/
theorem issue_next {h : Hd} {guarded fw : Bool} {occ : Nat} {body : Body} {s : State} :
    ∃ t, issue h guarded occ fw body s = .next t := ⟨_, rfl⟩

end Sys2Proof.Machine
end

