-- ==== Sys2Proof/Laws/Operands.lean ====
section
/-! SUPPORT. When the checks of an instruction pass, in the terms of the statements: one lemma per check. -/

namespace Sys2Proof.Machine

theorem readable_ok {k : CoreSt} {o : Owner} {lines : List Nat} (h : LinesGood k o lines) : readable k o lines = .ok () := by
  have h1 : lines.find? (lineErr k o) = none := by
    simp only [List.find?_eq_none, lineErr, List.any_eq_true, decide_eq_true_eq, not_exists, not_and]
    exact fun l hl w hw => (h l hl).1 w hw
  have h2 : lines.find? (linePoison k o) = none := by
    simp only [List.find?_eq_none, linePoison, List.contains_iff_mem]
    exact fun l hl => (h l hl).2
  unfold readable
  rw [h1, h2]

theorem readable_bad {k : CoreSt} {o : Owner} {lines : List Nat} (h : ¬ LinesGood k o lines) :
    ∃ c a, (c = .operandParity ∨ c = .transferUncorrectable) ∧ readable k o lines = .error { cause := c, addr := a } := by
  unfold readable
  cases h1 : lines.find? (lineErr k o) with
  | some l => exact ⟨_, _, .inl rfl, rfl⟩
  | none =>
    cases h2 : lines.find? (linePoison k o) with
    | some l => exact ⟨_, _, .inr rfl, rfl⟩
    | none =>
      refine absurd (fun l hl => ⟨fun w hw => ?_, ?_⟩) h
      · have := List.find?_eq_none.1 h1 l hl
        simp only [lineErr, List.any_eq_true, decide_eq_true_eq, not_exists, not_and] at this
        exact this w hw
      · have := List.find?_eq_none.1 h2 l hl
        simp only [linePoison, List.contains_iff_mem] at this
        exact this

theorem selfClash_eq_none {l : List Nat} : selfClash l = none ↔ l.Pairwise fun a b => a % 32 ≠ b % 32 := by
  induction l with
  | nil => simp [selfClash]
  | cons a l ih =>
    simp only [selfClash, List.pairwise_cons]
    by_cases hc : ∃ b ∈ l, bankOf b = bankOf a
    · have h1 : (l.any fun b => decide (bankOf b = bankOf a)) = true := by simpa using hc
      obtain ⟨b, hb, he⟩ := hc
      simp only [h1, if_true, reduceCtorEq, false_iff, not_and]
      exact fun h => absurd he.symm (h b hb)
    · have h1 : (l.any fun b => decide (bankOf b = bankOf a)) = false := by simpa using hc
      simp only [not_exists, not_and] at hc
      simp only [h1, Bool.false_eq_true, if_false, ih, iff_and_self]
      exact fun _ b hb he => hc b hb he.symm

theorem portTaken_eq_false {ports : List Port} {wr : Bool} {l : Nat} :
    portTaken ports wr l = false ↔ ∀ p ∈ ports, p.wr = wr → p.line % 32 = l % 32 → wr = false ∧ p.line = l := by
  simp only [portTaken, List.any_eq_false, Bool.and_eq_true, Bool.or_eq_true, decide_eq_true_eq, not_and, not_or,
    Bool.not_eq_true, not_not, and_imp]
  exact Iff.rfl

theorem takePorts_ok {o : Owner} {lines : List Nat} {wr : Bool} (h : BanksFree o lines wr) :
    takePorts o.ports lines wr = .ok (linesPorts lines wr) := by
  have h1 : lines.find? (portTaken o.ports wr) = none := by
    simp only [List.find?_eq_none, Bool.not_eq_true]
    exact fun l hl => portTaken_eq_false.2 (h.free l hl)
  unfold takePorts
  rw [selfClash_eq_none.2 h.apart, h1]
  rfl

theorem takePorts_bad {o : Owner} {lines : List Nat} {wr : Bool} (h : ¬ BanksFree o lines wr) :
    ∃ v, takePorts o.ports lines wr = .error { cause := .bankConflict, addr := v } := by
  unfold takePorts
  cases h1 : selfClash lines with
  | some l => exact ⟨_, rfl⟩
  | none =>
    cases h2 : lines.find? (portTaken o.ports wr) with
    | some l => exact ⟨_, rfl⟩
    | none =>
      simp only [List.find?_eq_none, Bool.not_eq_true] at h2
      exact absurd ⟨selfClash_eq_none.1 h1, fun l hl => portTaken_eq_false.1 (h2 l hl)⟩ h

theorem needClean_ok {x : XReg} (h : x.poison = false) : needClean x = .ok () := by simp [needClean, h]

theorem needClean_bad {x : XReg} (h : x.poison = true) :
    needClean x = .error { cause := .poisonConsumed, addr := x.val } := by simp [needClean, h]

theorem claimed_iff {o : Owner} {a n : Nat} : claimed o a n = true ↔ HasSlots o a n := by simp [claimed, HasSlots]

theorem needClaim_ok {o : Owner} {a n : Nat} (h : HasSlots o a n) : needClaim o a n = .ok () := by
  simp [needClaim, claimed_iff.2 h]

theorem needClaim_bad {o : Owner} {a n : Nat} (h : ¬ HasSlots o a n) :
    needClaim o a n = .error { cause := .omUnclaimed } := by
  have : claimed o a n = false := by rw [← Bool.not_eq_true, claimed_iff]; exact h
  simp [needClaim, this]

theorem needPattern_ok {b : Bool} (h : b = true) : needPattern b = .ok () := by simp [needPattern, h]

theorem shape_iff {g : Ag} {a b : Nat} : g.shape a b = true ↔ Shaped g a b := by simp [Ag.shape, Shaped]

theorem needWindow_ok {o : Owner} {g : Ag} (h : InWindow o g) : needWindow o g = .ok () := by
  have h1 : g.inside o.winSize = true := by
    simp only [Ag.inside, Ag.rowIn, Bool.and_eq_true, decide_eq_true_eq]
    exact ⟨h 0 (.inl rfl), h _ (.inr rfl)⟩
  simp [needWindow, h1]

theorem omParity_ok {k : CoreSt} {o : Owner} {i lo n : Nat} (h : SlotGood k o i lo n) : omParity k o i lo n = .ok () := by
  simp only [omParity]
  rw [if_neg]
  simp only [List.any_eq_true, not_exists, not_and, decide_eq_true_eq]
  exact fun a ha h1 h2 => h a ha ⟨h1, h2⟩

theorem vBad_eq_false {k : CoreSt} {o : Owner} {r : BitVec 4} {act : LaneMask} (h : LanesGood k o r act) :
    vBad k o r.toNat act = false := by
  simp only [vBad, List.any_eq_false, Bool.and_eq_true, decide_eq_true_eq]
  exact h

theorem needParity_ok {k : CoreSt} {o : Owner} {l : List (BitVec 4 × LaneMask)} (h : ∀ x ∈ l, LanesGood k o x.1 x.2) :
    needParity k o l = .ok () := by
  simp only [needParity]
  rw [if_neg]
  simp only [List.any_eq_true, not_exists, not_and, Bool.not_eq_true]
  exact fun x hx => vBad_eq_false (h x hx)

theorem needMask_ok {o : Owner} {l : List (BitVec 3)} (h : ∀ r ∈ l, MaskGood o r) : needMask o l = .ok () := by
  simp only [needMask]
  rw [if_neg]
  simp only [List.any_eq_true, not_exists, not_and, decide_eq_true_eq]
  exact fun r hr b hb => h r hr b hb

theorem readPart_ok {k : CoreSt} {o : Owner} {g : Ag} {lo hi : Nat} (h : LinesGood k o (g.lines lo hi))
    (hb : BanksFree o (g.lines lo hi) false) : readPart k o g lo hi = .ok (linesPorts (g.lines lo hi) false) := by
  simp only [readPart, takePorts_ok hb, readable_ok h]
  rfl

theorem needTarget_ok {o : Owner} (h : o.full.getLsbD o.head = false) : needTarget o = .ok (tilePhys o o.head) := by
  simp [needTarget, tileFull, h]

theorem needTarget_bad {o : Owner} (h : o.full.getLsbD o.head = true) : needTarget o = .error { cause := .ringOverrun } := by
  simp [needTarget, tileFull, h]

theorem needStore_ok {k : CoreSt} {o : Owner} (h : o.thr = true ∧ k.thr.conf = true) : needStore k o = .ok () := by
  simp [needStore, h.1, h.2]

theorem needStore_bad {k : CoreSt} {o : Owner} (h : ¬ (o.thr = true ∧ k.thr.conf = true)) :
    needStore k o = .error { cause := .thresholdBusy } := by
  have : (o.thr && k.thr.conf) = false := by rw [← Bool.not_eq_true, Bool.and_eq_true]; exact h
  simp [needStore, this]

end Sys2Proof.Machine
end

