-- ==== Sys2Proof/Laws/PerInstr.lean ====
section
/-! SUPPORT. One fact of every instruction, by constructor: an event has no encoding; a short form is one parcel with bit 15
clear; a long form or a block header is two parcels, the first with bit 15 set, which is how its length is told (R298). -/

namespace Sys2Proof.Laws.Encoding

/-- The length of an instruction's encoding is told by bit 15 of its first parcel (R298). -/
def Statement (i : Instr) : Prop :=
  i.encode = [] ∨ (∃ p, i.encode = [p] ∧ p.getLsbD 15 = false) ∨ ∃ p q, i.encode = [p, q] ∧ p.getLsbD 15 = true

theorem of_short {i : Instr} {op : BitVec 5} {h : Hd} {a : BitVec 4} (e : i.encode = [shortWord op h a]) : Statement i :=
  .inr (.inl ⟨_, e, by simp only [shortWord, BitVec.getLsbD_append]; simp⟩)

theorem of_two {i : Instr} {w : W32} (e : i.encode = two w) (h : w.getLsbD 31 = true) : Statement i :=
  .inr (.inr ⟨_, _, e, by simp [h]⟩)

theorem of_long {i : Instr} {t : BitVec 8} {h : Hd} {f : BitVec 16} (e : i.encode = two (longWord t h f))
    (ht : t.getLsbD 7 = true) : Statement i :=
  of_two e (by simp only [longWord, BitVec.getLsbD_append]; simp [ht])

theorem coldReset : Statement .coldReset := .inl rfl
theorem powerUpSequence : Statement .powerUpSequence := .inl rfl
theorem railFault : Statement .railFault := .inl rfl
theorem firmwareBoot : Statement .firmwareBoot := .inl rfl
theorem junctionSensorRead (temps) : Statement (.junctionSensorRead temps) := .inl rfl
theorem governorRevolution (meanMw) : Statement (.governorRevolution meanMw) := .inl rfl
theorem ceilingSet (ceil) : Statement (.ceilingSet ceil) := .inl rfl
theorem hbPwrCapWrite (v) : Statement (.hbPwrCapWrite v) := .inl rfl
theorem hbmRefresh : Statement .hbmRefresh := .inl rfl
theorem hotReset : Statement .hotReset := .inl rfl
theorem mfFlr : Statement .mfFlr := .inl rfl
theorem pfFlr (pf) : Statement (.pfFlr pf) := .inl rfl
theorem vfFlr (fn) : Statement (.vfFlr fn) := .inl rfl
theorem vfEnableWrite (pf en) : Statement (.vfEnableWrite pf en) := .inl rfl
theorem numvfsWrite (pf n) : Statement (.numvfsWrite pf n) := .inl rfl
theorem tdispRequest (fn r) : Statement (.tdispRequest fn r) := .inl rfl
theorem ideKeyProgramming (stream key) : Statement (.ideKeyProgramming stream key) := .inl rfl
theorem hostBar2Read (fn off len) : Statement (.hostBar2Read fn off len) := .inl rfl
theorem hostBar2Write (fn off data ep ide) : Statement (.hostBar2Write fn off data ep ide) := .inl rfl
theorem mfApertureAccess (off len wr) : Statement (.mfApertureAccess off len wr) := .inl rfl
theorem undecodedRequest (addr) : Statement (.undecodedRequest addr) := .inl rfl
theorem hostReadCompletionTimeout (fn q) : Statement (.hostReadCompletionTimeout fn q) := .inl rfl
theorem msixVectorUnmask (fn vec) : Statement (.msixVectorUnmask fn vec) := .inl rfl
theorem registerWrite (fn off size v) : Statement (.registerWrite fn off size v) := .inl rfl
theorem hbActDenyRead : Statement .hbActDenyRead := .inl rfl
theorem klkFlitReceive (port f) : Statement (.klkFlitReceive port f) := .inl rfl
theorem klkNakReceive (port seq) : Statement (.klkNakReceive port seq) := .inl rfl
theorem klkAckReceive (port seq) : Statement (.klkAckReceive port seq) := .inl rfl
theorem klkPortTrained (port) : Statement (.klkPortTrained port) := .inl rfl
theorem klkRetrainTimeout (port) : Statement (.klkRetrainTimeout port) := .inl rfl
theorem hbKlkIdWrite (v) : Statement (.hbKlkIdWrite v) := .inl rfl
theorem hbKlkRouteWrite (dst v) : Statement (.hbKlkRouteWrite dst v) := .inl rfl
theorem routeChangeApply (dst) : Statement (.routeChangeApply dst) := .inl rfl
theorem klkRequestTimeout (rid) : Statement (.klkRequestTimeout rid) := .inl rfl
theorem peerRequestArrival (r) : Statement (.peerRequestArrival r) := .inl rfl
theorem barrierArrival (gid gen dev) : Statement (.barrierArrival gid gen dev) := .inl rfl
theorem barrierRelease (gid gen) : Statement (.barrierRelease gid gen) := .inl rfl
theorem notify (fn q v) : Statement (.notify fn q v) := .inl rfl
theorem queueDisable (fn q) : Statement (.queueDisable fn q) := .inl rfl
theorem queueEnable (fn q) : Statement (.queueEnable fn q) := .inl rfl
theorem packetFetch (fn q) : Statement (.packetFetch fn q) := .inl rfl
theorem nopPacket (fn q) : Statement (.nopPacket fn q) := .inl rfl
theorem launchPacket (fn q) : Statement (.launchPacket fn q) := .inl rfl
theorem waitPacket (fn q) : Statement (.waitPacket fn q) := .inl rfl
theorem signalPacket (fn q) : Statement (.signalPacket fn q) := .inl rfl
theorem copyPacket (fn q) : Statement (.copyPacket fn q) := .inl rfl
theorem invalPacket (fn q) : Statement (.invalPacket fn q) := .inl rfl
theorem waitReread (fn q) : Statement (.waitReread fn q) := .inl rfl
theorem launchAgingStep (fn q) : Statement (.launchAgingStep fn q) := .inl rfl
theorem copyChunk (id) : Statement (.copyChunk id) := .inl rfl
theorem invalCompletion (id) : Statement (.invalCompletion id) := .inl rfl
theorem packetCompletion (id) : Statement (.packetCompletion id) := .inl rfl
theorem cqEnable (fn n v) : Statement (.cqEnable fn n v) := .inl rfl
theorem cqCoalesceTimeout (fn n) : Statement (.cqCoalesceTimeout fn n) := .inl rfl
theorem attestationRequest (fn nonce) : Statement (.attestationRequest fn nonce) := .inl rfl
theorem attestationReportWrite (fn) : Statement (.attestationReportWrite fn) := .inl rfl
theorem firmwareWatchdogExpiry (core) : Statement (.firmwareWatchdogExpiry core) := .inl rfl
theorem coreLockout (core) : Statement (.coreLockout core) := .inl rfl
theorem cobblerEventDispatch (core) : Statement (.cobblerEventDispatch core) := .inl rfl
theorem meterOpen (ix) : Statement (.meterOpen ix) := .inl rfl
theorem meterSeal (ix) : Statement (.meterSeal ix) := .inl rfl
theorem meterRetire (ix) : Statement (.meterRetire ix) := .inl rfl
theorem meterCheckpoint : Statement .meterCheckpoint := .inl rfl
theorem meterRecordWrite (ix) : Statement (.meterRecordWrite ix) := .inl rfl
theorem tenantLogRidxWrite (cid v) : Statement (.tenantLogRidxWrite cid v) := .inl rfl
theorem meterContinuation : Statement .meterContinuation := .inl rfl
theorem partitionCreate (n v) : Statement (.partitionCreate n v) := .inl rfl
theorem partitionResize (n v) : Statement (.partitionResize n v) := .inl rfl
theorem partitionRemove (n) : Statement (.partitionRemove n) := .inl rfl
theorem vdCreate : Statement .vdCreate := .inl rfl
theorem vdDestroy : Statement .vdDestroy := .inl rfl
theorem vdCreateIncoming : Statement .vdCreateIncoming := .inl rfl
theorem strandPark (sid tick) : Statement (.strandPark sid tick) := .inl rfl
theorem strandUnpark (sid cyc) : Statement (.strandUnpark sid cyc) := .inl rfl
theorem evictionRequest (sid) : Statement (.evictionRequest sid) := .inl rfl
theorem evictionDrain (sid) : Statement (.evictionDrain sid) := .inl rfl
theorem evictionSave (sid) : Statement (.evictionSave sid) := .inl rfl
theorem strandResume (sid) : Statement (.strandResume sid) := .inl rfl
theorem leaseExpiry (sid) : Statement (.leaseExpiry sid) := .inl rfl
theorem migrationStart : Statement .migrationStart := .inl rfl
theorem migrationPrecopyRound : Statement .migrationPrecopyRound := .inl rfl
theorem migrationStop : Statement .migrationStop := .inl rfl
theorem migrationAbort : Statement .migrationAbort := .inl rfl
theorem migrationLinkLost : Statement .migrationLinkLost := .inl rfl
theorem migrationFinalArrival (cid img) : Statement (.migrationFinalArrival cid img) := .inl rfl
theorem postcopyPagePull (cid page) : Statement (.postcopyPagePull cid page) := .inl rfl
theorem postcopyPagePush (cid) : Statement (.postcopyPagePush cid) := .inl rfl
theorem postcopyPageArrival (cid page data) : Statement (.postcopyPageArrival cid page data) := .inl rfl
theorem postcopyPullTimeout (cid page) : Statement (.postcopyPullTimeout cid page) := .inl rfl
theorem admissionAttempt (fn q) : Statement (.admissionAttempt fn q) := .inl rfl
theorem containerStaging (sid) : Statement (.containerStaging sid) := .inl rfl
theorem startDecision (sid) : Statement (.startDecision sid) := .inl rfl
theorem weaveSwitch (core) : Statement (.weaveSwitch core) := .inl rfl
theorem rephaseSwitch (sid) : Statement (.rephaseSwitch sid) := .inl rfl
theorem ownerDepart (core wid) : Statement (.ownerDepart core wid) := .inl rfl
theorem nsclkWrite (v) : Statement (.nsclkWrite v) := .inl rfl
theorem transferDispatch (tid) : Statement (.transferDispatch tid) := .inl rfl
theorem pageRequestPost (cid) : Statement (.pageRequestPost cid) := .inl rfl
theorem pageDone (cid page) : Statement (.pageDone cid page) := .inl rfl
theorem prqEnable (cid v) : Statement (.prqEnable cid v) := .inl rfl
theorem transferLanding (tid resp) : Statement (.transferLanding tid resp) := .inl rfl
theorem remotePutArrival (tid) : Statement (.remotePutArrival tid) := .inl rfl
theorem scOperationPerform (tid) : Statement (.scOperationPerform tid) := .inl rfl
theorem syncStallEnd (sid) : Statement (.syncStallEnd sid) := .inl rfl
theorem strandWatchdogExpiry (sid) : Statement (.strandWatchdogExpiry sid) := .inl rfl
theorem resultWriteback (core wid) : Statement (.resultWriteback core wid) := .inl rfl
theorem asyncFaultReport (tid) : Statement (.asyncFaultReport tid) := .inl rfl
theorem strandStop (sid) : Statement (.strandStop sid) := .inl rfl
theorem faultRingEnable (fn v) : Statement (.faultRingEnable fn v) := .inl rfl
theorem debugHalt (cid) : Statement (.debugHalt cid) := .inl rfl
theorem debugResume (cid) : Statement (.debugResume cid) := .inl rfl
theorem breakpointSet (cid) : Statement (.breakpointSet cid) := .inl rfl
theorem breakpointClear (cid) : Statement (.breakpointClear cid) := .inl rfl
theorem debugDump (cid) : Statement (.debugDump cid) := .inl rfl
theorem debugRelease (cid) : Statement (.debugRelease cid) := .inl rfl
theorem traceEnable (cid v) : Statement (.traceEnable cid v) := .inl rfl
theorem cseDone (core) : Statement (.cseDone core) := .inl rfl
theorem xphyDone (core n) : Statement (.xphyDone core n) := .inl rfl
theorem rcRegisterRead (fn off) : Statement (.rcRegisterRead fn off) := .inl rfl
theorem pcieLinkTraining (gen width flit) : Statement (.pcieLinkTraining gen width flit) := .inl rfl
theorem klkPortDown (port) : Statement (.klkPortDown port) := .inl rfl
theorem zfillZeroed (core) : Statement (.zfillZeroed core) := .inl rfl
theorem postcopySourceFree (cid) : Statement (.postcopySourceFree cid) := .inl rfl
theorem blockHeader (len cs stg cnt) : Statement (.blockHeader len cs stg cnt) := of_two rfl (by simp only [BitVec.getLsbD_append]; simp)
theorem nop (h) : Statement (.nop h) := of_short rfl
theorem endS (h) : Statement (.endS h) := of_short rfl
theorem idle (h k) : Statement (.idle h k) := of_long rfl rfl
theorem join (h k) : Statement (.join h k) := of_long rfl rfl
theorem sync (h a k) : Statement (.sync h a k) := of_long rfl rfl
theorem mark (h k) : Statement (.mark h k) := of_long rfl rfl
theorem inc (h a) : Statement (.inc h a) := of_short rfl
theorem dec (h a) : Statement (.dec h a) := of_short rfl
theorem neg (h a) : Statement (.neg h a) := of_short rfl
theorem not (h a) : Statement (.not h a) := of_short rfl
theorem clr (h a) : Statement (.clr h a) := of_short rfl
theorem pclr (h a) : Statement (.pclr h a) := of_short rfl
theorem pset (h a) : Statement (.pset h a) := of_short rfl
theorem pnot (h a) : Statement (.pnot h a) := of_short rfl
theorem rdtk (h a) : Statement (.rdtk h a) := of_short rfl
theorem add (h a b c) : Statement (.add h a b c) := of_long rfl rfl
theorem sub (h a b c) : Statement (.sub h a b c) := of_long rfl rfl
theorem and (h a b c) : Statement (.and h a b c) := of_long rfl rfl
theorem or (h a b c) : Statement (.or h a b c) := of_long rfl rfl
theorem xor (h a b c) : Statement (.xor h a b c) := of_long rfl rfl
theorem shl (h a b c) : Statement (.shl h a b c) := of_long rfl rfl
theorem shr (h a b c) : Statement (.shr h a b c) := of_long rfl rfl
theorem sar (h a b c) : Statement (.sar h a b c) := of_long rfl rfl
theorem mul (h a b c) : Statement (.mul h a b c) := of_long rfl rfl
theorem mulh (h a b c) : Statement (.mulh h a b c) := of_long rfl rfl
theorem mulhu (h a b c) : Statement (.mulhu h a b c) := of_long rfl rfl
theorem min (h a b c) : Statement (.min h a b c) := of_long rfl rfl
theorem max (h a b c) : Statement (.max h a b c) := of_long rfl rfl
theorem minu (h a b c) : Statement (.minu h a b c) := of_long rfl rfl
theorem maxu (h a b c) : Statement (.maxu h a b c) := of_long rfl rfl
theorem rotl (h a b c) : Statement (.rotl h a b c) := of_long rfl rfl
theorem rotr (h a b c) : Statement (.rotr h a b c) := of_long rfl rfl
theorem div (h a b c) : Statement (.div h a b c) := of_long rfl rfl
theorem divu (h a b c) : Statement (.divu h a b c) := of_long rfl rfl
theorem rem (h a b c) : Statement (.rem h a b c) := of_long rfl rfl
theorem remu (h a b c) : Statement (.remu h a b c) := of_long rfl rfl
theorem clz (h a b) : Statement (.clz h a b) := of_long rfl rfl
theorem ctz (h a b) : Statement (.ctz h a b) := of_long rfl rfl
theorem popc (h a b) : Statement (.popc h a b) := of_long rfl rfl
theorem abs (h a b) : Statement (.abs h a b) := of_long rfl rfl
theorem sextB (h a b) : Statement (.sextB h a b) := of_long rfl rfl
theorem sextH (h a b) : Statement (.sextH h a b) := of_long rfl rfl
theorem sextW (h a b) : Statement (.sextW h a b) := of_long rfl rfl
theorem zextB (h a b) : Statement (.zextB h a b) := of_long rfl rfl
theorem zextH (h a b) : Statement (.zextH h a b) := of_long rfl rfl
theorem zextW (h a b) : Statement (.zextW h a b) := of_long rfl rfl
theorem bswap (h a b) : Statement (.bswap h a b) := of_long rfl rfl
theorem sel (h sf a b c) : Statement (.sel h sf a b c) := of_long rfl rfl
theorem csel (h sf a b c) : Statement (.csel h sf a b c) := of_long rfl rfl
theorem ceq (h a b c) : Statement (.ceq h a b c) := of_long rfl rfl
theorem cne (h a b c) : Statement (.cne h a b c) := of_long rfl rfl
theorem clt (h a b c) : Statement (.clt h a b c) := of_long rfl rfl
theorem cltu (h a b c) : Statement (.cltu h a b c) := of_long rfl rfl
theorem cle (h a b c) : Statement (.cle h a b c) := of_long rfl rfl
theorem cleu (h a b c) : Statement (.cleu h a b c) := of_long rfl rfl
theorem addi (h a k) : Statement (.addi h a k) := of_long rfl rfl
theorem andi (h a k) : Statement (.andi h a k) := of_long rfl rfl
theorem ori (h a k) : Statement (.ori h a k) := of_long rfl rfl
theorem xori (h a k) : Statement (.xori h a k) := of_long rfl rfl
theorem shli (h a k) : Statement (.shli h a k) := of_long rfl rfl
theorem shri (h a k) : Statement (.shri h a k) := of_long rfl rfl
theorem sari (h a k) : Statement (.sari h a k) := of_long rfl rfl
theorem ceqi (h a p k) : Statement (.ceqi h a p k) := of_long rfl rfl
theorem clti (h a p k) : Statement (.clti h a p k) := of_long rfl rfl
theorem cltui (h a p k) : Statement (.cltui h a p k) := of_long rfl rfl
theorem movi (h a k) : Statement (.movi h a k) := of_long rfl rfl
theorem movh (h a k) : Statement (.movh h a k) := of_long rfl rfl
theorem ldB (h a b d) : Statement (.ldB h a b d) := of_long rfl rfl
theorem ldBu (h a b d) : Statement (.ldBu h a b d) := of_long rfl rfl
theorem ldH (h a b d) : Statement (.ldH h a b d) := of_long rfl rfl
theorem ldHu (h a b d) : Statement (.ldHu h a b d) := of_long rfl rfl
theorem ldW (h a b d) : Statement (.ldW h a b d) := of_long rfl rfl
theorem ldWu (h a b d) : Statement (.ldWu h a b d) := of_long rfl rfl
theorem ldD (h a b d) : Statement (.ldD h a b d) := of_long rfl rfl
theorem ldsD (h a b d) : Statement (.ldsD h a b d) := of_long rfl rfl
theorem stB (h a b d) : Statement (.stB h a b d) := of_long rfl rfl
theorem stH (h a b d) : Statement (.stH h a b d) := of_long rfl rfl
theorem stW (h a b d) : Statement (.stW h a b d) := of_long rfl rfl
theorem stD (h a b d) : Statement (.stD h a b d) := of_long rfl rfl
theorem rdl (h a k) : Statement (.rdl h a k) := of_long rfl rfl
theorem rds (h a k) : Statement (.rds h a k) := of_long rfl rfl
theorem setlc (h a b) : Statement (.setlc h a b) := of_long rfl rfl
theorem ags (h a b c) : Statement (.ags h a b c) := of_long rfl rfl
theorem pute (h a b) : Statement (.pute h a b) := of_long rfl rfl
theorem fmt (h b) : Statement (.fmt h b) := of_long rfl rfl
theorem pand (h a b c) : Statement (.pand h a b c) := of_long rfl rfl
theorem por (h a b c) : Statement (.por h a b c) := of_long rfl rfl
theorem pxor (h a b c) : Statement (.pxor h a b c) := of_long rfl rfl
theorem pmov (h a b) : Statement (.pmov h a b) := of_long rfl rfl
theorem trap (h a k) : Statement (.trap h a k) := of_long rfl rfl
theorem claim (h oa n) : Statement (.claim h oa n) := of_long rfl rfl
theorem release (h oa n) : Statement (.release h oa n) := of_long rfl rfl
theorem ldta (h oa ag) : Statement (.ldta h oa ag) := of_long rfl rfl
theorem ldtb (h oa ag) : Statement (.ldtb h oa ag) := of_long rfl rfl
theorem lde (h oa ag) : Statement (.lde h oa ag) := of_long rfl rfl
theorem ldtf (h oa ag n) : Statement (.ldtf h oa ag n) := of_long rfl rfl
theorem ldvW (h a ag) : Statement (.ldvW h a ag) := of_long rfl rfl
theorem ldvH (h a ag) : Statement (.ldvH h a ag) := of_long rfl rfl
theorem ldvHu (h a ag) : Statement (.ldvHu h a ag) := of_long rfl rfl
theorem ldvB (h a ag) : Statement (.ldvB h a ag) := of_long rfl rfl
theorem ldvBu (h a ag) : Statement (.ldvBu h a ag) := of_long rfl rfl
theorem ldvrW (h a ag) : Statement (.ldvrW h a ag) := of_long rfl rfl
theorem ldvcW (h a ag) : Statement (.ldvcW h a ag) := of_long rfl rfl
theorem ldg (h a b ag band) : Statement (.ldg h a b ag band) := of_long rfl rfl
theorem mma (h oa n) : Statement (.mma h oa n) := of_long rfl rfl
theorem mmaw (h oa n) : Statement (.mmaw h oa n) := of_long rfl rfl
theorem radv (h) : Statement (.radv h) := of_long rfl rfl
theorem rskip (h) : Statement (.rskip h) := of_long rfl rfl
theorem tcfg (h oa w) : Statement (.tcfg h oa w) := of_long rfl rfl
theorem teval (h oa) : Statement (.teval h oa) := of_long rfl rfl
theorem tmask (h k) : Statement (.tmask h k) := of_long rfl rfl
theorem tclr (h) : Statement (.tclr h) := of_long rfl rfl
theorem mclr (h) : Statement (.mclr h) := of_long rfl rfl
theorem wrs (h a k) : Statement (.wrs h a k) := of_long rfl rfl
theorem rdsp (h a k) : Statement (.rdsp h a k) := of_long rfl rfl
theorem eret (h) : Statement (.eret h) := of_long rfl rfl
theorem waitev (h a b) : Statement (.waitev h a b) := of_long rfl rfl
theorem wvset (h b c) : Statement (.wvset h b c) := of_long rfl rfl
theorem cse (h a b c) : Statement (.cse h a b c) := of_long rfl rfl
theorem zfill (h a b) : Statement (.zfill h a b) := of_long rfl rfl
theorem park (h a b c) : Statement (.park h a b c) := of_long rfl rfl
theorem unpark (h a b c) : Statement (.unpark h a b c) := of_long rfl rfl
theorem xphy (h e cls p) : Statement (.xphy h e cls p) := of_long rfl rfl
theorem stvW (h a ag) : Statement (.stvW h a ag) := of_long rfl rfl
theorem stvH (h a ag) : Statement (.stvH h a ag) := of_long rfl rfl
theorem stvHs (h a ag) : Statement (.stvHs h a ag) := of_long rfl rfl
theorem stvB (h a ag) : Statement (.stvB h a ag) := of_long rfl rfl
theorem stvBs (h a ag) : Statement (.stvBs h a ag) := of_long rfl rfl
theorem stvc (h a ag sf m) : Statement (.stvc h a ag sf m) := of_long rfl rfl
theorem xrd (h e ag cls p) : Statement (.xrd h e ag cls p) := of_long rfl rfl
theorem xrdSp (h e ag cls p) : Statement (.xrdSp h e ag cls p) := of_long rfl rfl
theorem xrdm (h e ag cls p) : Statement (.xrdm h e ag cls p) := of_long rfl rfl
theorem xwr (h e ag cls p) : Statement (.xwr h e ag cls p) := of_long rfl rfl
theorem xwrZ (h e ag cls p) : Statement (.xwrZ h e ag cls p) := of_long rfl rfl
theorem xput (h e ag cls p) : Statement (.xput h e ag cls p) := of_long rfl rfl
theorem xget (h e ag cls p) : Statement (.xget h e ag cls p) := of_long rfl rfl
theorem xsumF (h e ag cls p) : Statement (.xsumF h e ag cls p) := of_long rfl rfl
theorem xsumI (h e ag cls p) : Statement (.xsumI h e ag cls p) := of_long rfl rfl
theorem xatAdd (h e ag cls p) : Statement (.xatAdd h e ag cls p) := of_long rfl rfl
theorem xatSwp (h e ag cls p) : Statement (.xatSwp h e ag cls p) := of_long rfl rfl
theorem xatCas (h e ag cls p) : Statement (.xatCas h e ag cls p) := of_long rfl rfl
theorem xatMax (h e ag cls p) : Statement (.xatMax h e ag cls p) := of_long rfl rfl
theorem xatMin (h e ag cls p) : Statement (.xatMin h e ag cls p) := of_long rfl rfl
theorem xatAnd (h e ag cls p) : Statement (.xatAnd h e ag cls p) := of_long rfl rfl
theorem xatOr (h e ag cls p) : Statement (.xatOr h e ag cls p) := of_long rfl rfl
theorem xatXor (h e ag cls p) : Statement (.xatXor h e ag cls p) := of_long rfl rfl
theorem xscLd (h e ag cls p) : Statement (.xscLd h e ag cls p) := of_long rfl rfl
theorem xscSt (h e ag cls p) : Statement (.xscSt h e ag cls p) := of_long rfl rfl
theorem xscAdd (h e ag cls p) : Statement (.xscAdd h e ag cls p) := of_long rfl rfl
theorem xscSwp (h e ag cls p) : Statement (.xscSwp h e ag cls p) := of_long rfl rfl
theorem xscCas (h e ag cls p) : Statement (.xscCas h e ag cls p) := of_long rfl rfl
theorem xscMax (h e ag cls p) : Statement (.xscMax h e ag cls p) := of_long rfl rfl
theorem fence (h k) : Statement (.fence h k) := of_long rfl rfl
theorem xpop (h a cls) : Statement (.xpop h a cls) := of_long rfl rfl
theorem xpeek (h a cls) : Statement (.xpeek h a cls) := of_long rfl rfl
theorem vzero (h a) : Statement (.vzero h a) := of_short rfl
theorem vfadd (h a b c) : Statement (.vfadd h a b c) := of_long rfl rfl
theorem vfsub (h a b c) : Statement (.vfsub h a b c) := of_long rfl rfl
theorem vfmul (h a b c) : Statement (.vfmul h a b c) := of_long rfl rfl
theorem vfma (h a b c) : Statement (.vfma h a b c) := of_long rfl rfl
theorem vfms (h a b c) : Statement (.vfms h a b c) := of_long rfl rfl
theorem vfnma (h a b c) : Statement (.vfnma h a b c) := of_long rfl rfl
theorem vfnms (h a b c) : Statement (.vfnms h a b c) := of_long rfl rfl
theorem vfdiv (h a b c) : Statement (.vfdiv h a b c) := of_long rfl rfl
theorem vfmin (h a b c) : Statement (.vfmin h a b c) := of_long rfl rfl
theorem vfmax (h a b c) : Statement (.vfmax h a b c) := of_long rfl rfl
theorem vfabs (h a b) : Statement (.vfabs h a b) := of_long rfl rfl
theorem vfneg (h a b) : Statement (.vfneg h a b) := of_long rfl rfl
theorem vffloor (h a b) : Statement (.vffloor h a b) := of_long rfl rfl
theorem vfround (h a b) : Statement (.vfround h a b) := of_long rfl rfl
theorem vfclass (h a b) : Statement (.vfclass h a b) := of_long rfl rfl
theorem vfrcp (h a b) : Statement (.vfrcp h a b) := of_long rfl rfl
theorem vfsqrt (h a b) : Statement (.vfsqrt h a b) := of_long rfl rfl
theorem vfrsq (h a b) : Statement (.vfrsq h a b) := of_long rfl rfl
theorem vfexp2 (h a b) : Statement (.vfexp2 h a b) := of_long rfl rfl
theorem vflog2 (h a b) : Statement (.vflog2 h a b) := of_long rfl rfl
theorem vftanh (h a b) : Statement (.vftanh h a b) := of_long rfl rfl
theorem vfsigm (h a b) : Statement (.vfsigm h a b) := of_long rfl rfl
theorem vadd (h a b c) : Statement (.vadd h a b c) := of_long rfl rfl
theorem vsub (h a b c) : Statement (.vsub h a b c) := of_long rfl rfl
theorem vadds (h a b c) : Statement (.vadds h a b c) := of_long rfl rfl
theorem vsubs (h a b c) : Statement (.vsubs h a b c) := of_long rfl rfl
theorem vmul (h a b c) : Statement (.vmul h a b c) := of_long rfl rfl
theorem vmulh (h a b c) : Statement (.vmulh h a b c) := of_long rfl rfl
theorem vmin (h a b c) : Statement (.vmin h a b c) := of_long rfl rfl
theorem vmax (h a b c) : Statement (.vmax h a b c) := of_long rfl rfl
theorem vminu (h a b c) : Statement (.vminu h a b c) := of_long rfl rfl
theorem vmaxu (h a b c) : Statement (.vmaxu h a b c) := of_long rfl rfl
theorem vabs (h a b) : Statement (.vabs h a b) := of_long rfl rfl
theorem vand (h a b c) : Statement (.vand h a b c) := of_long rfl rfl
theorem vor (h a b c) : Statement (.vor h a b c) := of_long rfl rfl
theorem vxor (h a b c) : Statement (.vxor h a b c) := of_long rfl rfl
theorem vnot (h a b) : Statement (.vnot h a b) := of_long rfl rfl
theorem vshl (h a b c) : Statement (.vshl h a b c) := of_long rfl rfl
theorem vshr (h a b c) : Statement (.vshr h a b c) := of_long rfl rfl
theorem vsar (h a b c) : Statement (.vsar h a b c) := of_long rfl rfl
theorem vshli (h a b k) : Statement (.vshli h a b k) := of_long rfl rfl
theorem vshri (h a b k) : Statement (.vshri h a b k) := of_long rfl rfl
theorem vsari (h a b k) : Statement (.vsari h a b k) := of_long rfl rfl
theorem vpopc (h a b) : Statement (.vpopc h a b) := of_long rfl rfl
theorem vclz (h a b) : Statement (.vclz h a b) := of_long rfl rfl
theorem vctz (h a b) : Statement (.vctz h a b) := of_long rfl rfl
theorem vclmulL (h a b c) : Statement (.vclmulL h a b c) := of_long rfl rfl
theorem vclmulH (h a b c) : Statement (.vclmulH h a b c) := of_long rfl rfl
theorem vdot2Bf (h a b c) : Statement (.vdot2Bf h a b c) := of_long rfl rfl
theorem vdot4I8 (h a b c) : Statement (.vdot4I8 h a b c) := of_long rfl rfl
theorem vfcmpEq (h a b c) : Statement (.vfcmpEq h a b c) := of_long rfl rfl
theorem vfcmpNe (h a b c) : Statement (.vfcmpNe h a b c) := of_long rfl rfl
theorem vfcmpLt (h a b c) : Statement (.vfcmpLt h a b c) := of_long rfl rfl
theorem vfcmpLe (h a b c) : Statement (.vfcmpLe h a b c) := of_long rfl rfl
theorem vfcmpUn (h a b c) : Statement (.vfcmpUn h a b c) := of_long rfl rfl
theorem vcmpEq (h a b c) : Statement (.vcmpEq h a b c) := of_long rfl rfl
theorem vcmpNe (h a b c) : Statement (.vcmpNe h a b c) := of_long rfl rfl
theorem vcmpLt (h a b c) : Statement (.vcmpLt h a b c) := of_long rfl rfl
theorem vcmpLe (h a b c) : Statement (.vcmpLe h a b c) := of_long rfl rfl
theorem vcmpLtu (h a b c) : Statement (.vcmpLtu h a b c) := of_long rfl rfl
theorem vcmpLeu (h a b c) : Statement (.vcmpLeu h a b c) := of_long rfl rfl
theorem vmov (h a b) : Statement (.vmov h a b) := of_long rfl rfl
theorem vspl (h a b) : Statement (.vspl h a b) := of_long rfl rfl
theorem vimm (h a k) : Statement (.vimm h a k) := of_long rfl rfl
theorem vsel (h a b c sf m) : Statement (.vsel h a b c sf m) := of_long rfl rfl
theorem mand (h a b c) : Statement (.mand h a b c) := of_long rfl rfl
theorem mor (h a b c) : Statement (.mor h a b c) := of_long rfl rfl
theorem mxor (h a b c) : Statement (.mxor h a b c) := of_long rfl rfl
theorem mnot (h a b) : Statement (.mnot h a b) := of_long rfl rfl
theorem vany (h a b) : Statement (.vany h a b) := of_long rfl rfl
theorem vall (h a b) : Statement (.vall h a b) := of_long rfl rfl
theorem vlam (h b) : Statement (.vlam h b) := of_long rfl rfl
theorem vmpack (h a b) : Statement (.vmpack h a b) := of_long rfl rfl
theorem vmunpk (h a b) : Statement (.vmunpk h a b) := of_long rfl rfl
theorem vcvtFi (h a b) : Statement (.vcvtFi h a b) := of_long rfl rfl
theorem vcvtIf (h a b) : Statement (.vcvtIf h a b) := of_long rfl rfl
theorem vcvtFb (h a b) : Statement (.vcvtFb h a b) := of_long rfl rfl
theorem vcvtBf (h a b) : Statement (.vcvtBf h a b) := of_long rfl rfl
theorem vcvtFk (h a b) : Statement (.vcvtFk h a b) := of_long rfl rfl
theorem vquant (h a b e sf) : Statement (.vquant h a b e sf) := of_long rfl rfl
theorem vqexp (h a b e sf) : Statement (.vqexp h a b e sf) := of_long rfl rfl
theorem vrotR (h a b p k) : Statement (.vrotR h a b p k) := of_long rfl rfl
theorem vrotC (h a b p k) : Statement (.vrotC h a b p k) := of_long rfl rfl
theorem vbcR (h a b p k) : Statement (.vbcR h a b p k) := of_long rfl rfl
theorem vbcC (h a b p k) : Statement (.vbcC h a b p k) := of_long rfl rfl
theorem vpermR (h a b c p) : Statement (.vpermR h a b c p) := of_long rfl rfl
theorem vpermC (h a b c p) : Statement (.vpermC h a b c p) := of_long rfl rfl
theorem vredRFadd (h a b p) : Statement (.vredRFadd h a b p) := of_long rfl rfl
theorem vredRIadd (h a b p) : Statement (.vredRIadd h a b p) := of_long rfl rfl
theorem vredRXor (h a b p) : Statement (.vredRXor h a b p) := of_long rfl rfl
theorem vredRMax (h a b p) : Statement (.vredRMax h a b p) := of_long rfl rfl
theorem vredRMin (h a b p) : Statement (.vredRMin h a b p) := of_long rfl rfl
theorem vredCFadd (h a b p) : Statement (.vredCFadd h a b p) := of_long rfl rfl
theorem vredCIadd (h a b p) : Statement (.vredCIadd h a b p) := of_long rfl rfl
theorem vredCXor (h a b p) : Statement (.vredCXor h a b p) := of_long rfl rfl
theorem vredCMax (h a b p) : Statement (.vredCMax h a b p) := of_long rfl rfl
theorem vredCMin (h a b p) : Statement (.vredCMin h a b p) := of_long rfl rfl
theorem vscanRFadd (h a b p) : Statement (.vscanRFadd h a b p) := of_long rfl rfl
theorem vscanRIadd (h a b p) : Statement (.vscanRIadd h a b p) := of_long rfl rfl
theorem vscanRXor (h a b p) : Statement (.vscanRXor h a b p) := of_long rfl rfl
theorem vscanCFadd (h a b p) : Statement (.vscanCFadd h a b p) := of_long rfl rfl
theorem vscanCIadd (h a b p) : Statement (.vscanCIadd h a b p) := of_long rfl rfl
theorem vscanCXor (h a b p) : Statement (.vscanCXor h a b p) := of_long rfl rfl
theorem vcpr (h a b sf m) : Statement (.vcpr h a b sf m) := of_long rfl rfl
theorem vidx (h a) : Statement (.vidx h a) := of_long rfl rfl
theorem rpop (h a k) : Statement (.rpop h a k) := of_long rfl rfl
theorem rfree (h) : Statement (.rfree h) := of_long rfl rfl
theorem vbrev (h a b) : Statement (.vbrev h a b) := of_long rfl rfl

end Sys2Proof.Laws.Encoding
end

