-- ==== Sys2Proof/Laws/Power.lean ====
section
/-! SUPPORT. What leaves the settings of the clock governor alone: every operation but those of the governor itself. -/

namespace Sys2Proof.Machine

/-- A fold of steps that keep the package's settings keeps them. -/
theorem pwr_foldl_trans {α : Type} {g : State → α → State} {l : List α} {s0 : State} {p : Power}
    (hg : ∀ s a, (g s a).pwr = s.pwr) (h0 : s0.pwr = p) : (l.foldl g s0).pwr = p := by
  induction l generalizing s0 with
  | nil => exact h0
  | cons a l ih => exact ih ((hg s0 a).trans h0)

@[simp] theorem pwr_foldl {α : Type} {g : State → α → State} (hg : ∀ s a, (g s a).pwr = s.pwr) (l : List α) (s : State) :
    (l.foldl g s).pwr = s.pwr := pwr_foldl_trans hg rfl

@[simp] theorem pwr_ite {c : Prop} [Decidable c] (a b : State) : (if c then a else b).pwr = if c then a.pwr else b.pwr :=
  apply_ite State.pwr c a b

@[simp] theorem pwr_setCore (s : State) c k : (State.setCore s c k).pwr = s.pwr := by
  rfl

@[simp] theorem pwr_setOwner (s : State) c w o : (State.setOwner s c w o).pwr = s.pwr := by
  rfl

@[simp] theorem pwr_setCurOwner (s : State) o : (State.setCurOwner s o).pwr = s.pwr := by
  rfl

@[simp] theorem pwr_setStrand (s : State) i t : (State.setStrand s i t).pwr = s.pwr := by
  rfl

@[simp] theorem pwr_setVd (s : State) c v : (State.setVd s c v).pwr = s.pwr := by
  rfl

@[simp] theorem pwr_setFn (s : State) f v : (State.setFn s f v).pwr = s.pwr := by
  rfl

@[simp] theorem pwr_setQueue (s : State) f q v : (State.setQueue s f q v).pwr = s.pwr := by
  rfl

@[simp] theorem pwr_setCq (s : State) f n v : (State.setCq s f n v).pwr = s.pwr := by
  rfl

@[simp] theorem pwr_setCob (s : State) c b : (State.setCob s c b).pwr = s.pwr := by
  rfl

@[simp] theorem pwr_push (s : State) i : (State.push s i).pwr = s.pwr := by
  rfl

@[simp] theorem pwr_soon (s : State) (i : Instr) : (State.soon s i).pwr = s.pwr := by
  unfold State.soon
  rfl

@[simp] theorem pwr_pushAll (s : State) l : (State.pushAll s l).pwr = s.pwr := by
  rfl

@[simp] theorem pwr_at (s : State) c i : (State.at s c i).pwr = s.pwr := by
  rfl

@[simp] theorem pwr_afterNs (s : State) d i : (State.afterNs s d i).pwr = s.pwr := by
  rfl

@[simp] theorem pwr_cancel (s : State) i : (State.cancel s i).pwr = s.pwr := by
  rfl

@[simp] theorem pwr_emit (s : State) x : (State.emit s x).pwr = s.pwr := by
  rfl

@[simp] theorem pwr_tick1 (s : State) : (State.tick1 s).pwr = s.pwr := by
  rfl

@[simp] theorem pwr_addFault (s : State) sid e : (State.addFault s sid e).pwr = s.pwr := by
  rfl

@[simp] theorem pwr_raiseGiving (gives : List Nat) (b : Bad) (s : State) : (raiseGiving gives b s).pwr = s.pwr := by
  unfold raiseGiving
  rfl

@[simp] theorem pwr_raise b (s : State) : (raise b s).pwr = s.pwr := by
  rfl

@[simp] theorem pwr_raiseLate c w st iss loc b (s : State) : (raiseLate c w st iss loc b s).pwr = s.pwr := by
  rfl

@[simp] theorem pwr_raiseAt sid core wid st async cause addr loc (s : State) : (raiseAt sid core wid st async cause addr loc s).pwr = s.pwr := by
  rfl

@[simp] theorem pwr_issueOwner h guarded occ body (s : State) : (issueOwner h guarded occ body s).pwr = s.pwr := by
  unfold issueOwner
  dsimp only
  repeat' (first | rfl | split)

@[simp] theorem pwr_lockCore c (s : State) : (lockCore c s).pwr = s.pwr := by
  rfl

@[simp] theorem pwr_issueCob h guarded occ fw body (s : State) : (issueCob h guarded occ fw body s).pwr = s.pwr := by
  unfold issueCob
  dsimp only
  repeat' (first | rfl | split)

@[simp] theorem pwr_pwrite (s : State) pa bytes poison dt : (pwrite s pa bytes poison dt).pwr = s.pwr := by
  simp [pwrite]

@[simp] theorem pwr_countRead (s : State) cid va n : (countRead s cid va n).pwr = s.pwr := by
  rfl

@[simp] theorem pwr_tlbFill (clu cid va : Nat) (s : State) : (tlbFill clu cid va s).pwr = s.pwr := by
  unfold tlbFill
  rfl

@[simp] theorem pwr_tlbFillAll (clu cid va n : Nat) (s : State) : (tlbFillAll clu cid va n s).pwr = s.pwr := by
  unfold tlbFillAll
  simp

@[simp] theorem pwr_tlbDrop (cid : Nat) (s : State) : (tlbDrop cid s).pwr = s.pwr := by
  unfold tlbDrop
  rfl

@[simp] theorem pwr_writeParts (s : State) (q : List Nat) (i : Nat) (l : List (Nat × Nat × Bool)) (bs : List Byte) :
    (writeParts s q i l bs).pwr = s.pwr := by
  induction l generalizing s i bs with
  | nil => rfl
  | cons x l ih => obtain ⟨a, n, d⟩ := x; simp [writeParts, ih]

theorem pwr_vwriteBy {tr : Xlate} {s t : State} {va : Nat} {b : List Byte} {q : List Nat} (h : vwriteBy tr s va b q = .ok t) :
    t.pwr = s.pwr := by
  unfold vwriteBy at h
  split at h
  · cases h
  · cases h; simp

@[simp] theorem pwr_writeWords (sel : Nat → Bool) (i : Nat) (l : List (Nat × Nat × Bool)) (bs : List Byte) (s : State) :
    (writeWords sel i l bs s).pwr = s.pwr := by
  induction l generalizing s i bs with
  | nil => rfl
  | cons x l ih =>
    obtain ⟨a, n, d⟩ := x
    unfold writeWords
    rw [ih]
    split <;> simp

@[simp] theorem pwr_poisonParts (s : State) (q : List Nat) (i : Nat) (l : List (Nat × Nat × Bool)) :
    (poisonParts s q i l).pwr = s.pwr := by
  induction l generalizing s i with
  | nil => rfl
  | cons x l ih => obtain ⟨a, n, d⟩ := x; unfold poisonParts; rw [ih]

theorem pwr_vwrite {s t : State} {cid va : Nat} {b : List Byte} {q : List Nat} (h : vwrite s cid va b q = .ok t) :
    t.pwr = s.pwr := by
  exact pwr_vwriteBy h

@[simp] theorem pwr_writeBefore (tr : Xlate) (l : List (Nat × Nat)) (bs : List (Byte × Bool)) (s : State) :
    (writeBefore tr l bs s).1.pwr = s.pwr := by
  induction l generalizing s bs with
  | nil => rfl
  | cons x l ih =>
    unfold writeBefore
    split
    · rfl
    · dsimp only
      split <;> simp [ih]

@[simp] theorem pwr_putFirst (lines : List (Nat × Nat × Bool)) (bytes : List Byte) (poison : List Nat) (s : State) : (putFirst lines bytes poison s).pwr = s.pwr := by
  unfold putFirst
  simp

theorem pwr_vwriteFirst {tr : Xlate} {s : State} {va : Nat} {b : List Byte} {q : List Nat} {x : State × Torn}
    (h : vwriteFirst tr s va b q = .ok x) : x.1.pwr = s.pwr := by
  unfold vwriteFirst at h
  split at h
  · cases h
  · cases h; exact pwr_putFirst ..

@[simp] theorem pwr_putRest (t : Torn) (bytes : List Byte) (poison : List Nat) (s : State) : (putRest t bytes poison s).pwr = s.pwr := by
  unfold putRest
  simp

@[simp] theorem pwr_getFirst (lines : List (Nat × Nat × Bool)) (s : State) : (getFirst lines s).1.pwr = s.pwr := by
  unfold getFirst
  rfl

theorem pwr_vreadFirst {tr : Xlate} {s : State} {va n : Nat} {x : State × Torn} (h : vreadFirst tr s va n = .ok x) :
    x.1.pwr = s.pwr := by
  unfold vreadFirst at h
  split at h
  · cases h
  · cases h; exact pwr_getFirst ..

@[simp] theorem pwr_hostTlp (fn : Nat) (wr : Bool) (a n : Nat) (ido : Bool) (s : State) : (hostTlp fn wr a n ido s).pwr = s.pwr := by
  unfold hostTlp
  rfl

@[simp] theorem pwr_hostReads (fn a n : Nat) (ido : Bool) (s : State) : (hostReads fn a n ido s).pwr = s.pwr := by
  unfold hostReads
  simp

@[simp] theorem pwr_hwrite (s : State) fn a b q : (hwrite s fn a b q).pwr = s.pwr := by
  simp [hwrite]

theorem pwr_dwrite {s t : State} {h : Bool} {cid a : Nat} {b : List Byte} (e : dwrite s h cid a b = .ok t) :
    t.pwr = s.pwr := by
  unfold dwrite at e
  split at e
  · cases e; simp
  · exact pwr_vwrite e

@[simp] theorem pwr_estimate (pj : Nat) (s : State) : (estimate pj s).pwr = s.pwr := by
  unfold estimate
  rfl

@[simp] theorem pwr_chargeStrand (s : State) sid pj : (chargeStrand s sid pj).pwr = s.pwr := by
  rfl

@[simp] theorem pwr_chargeOper (s : State) pj : (chargeOper s pj).pwr = s.pwr := by
  rfl

theorem pwr_hubPut {s t : State} {cid a : Nat} {b : List Byte} (h : hubPut s cid a b = .ok t) : t.pwr = s.pwr := by
  unfold hubPut at h
  split at h
  · cases h
  · cases h; simp [pwr_vwrite ‹_›]

theorem pwr_hubPutHbm {s t : State} {a : Nat} {b : List Byte} (h : hubPutHbm s a b = .ok t) : t.pwr = s.pwr := by
  unfold hubPutHbm at h
  split at h
  · cases h; simp
  · cases h

@[simp] theorem pwr_logAer fn e (s : State) : (logAer fn e s).pwr = s.pwr := by
  rfl

@[simp] theorem pwr_msix fn vec (s : State) : (msix fn vec s).pwr = s.pwr := by
  simp [msix]

@[simp] theorem pwr_msixRelease (fn vec : Nat) (s : State) : (msixRelease fn vec s).pwr = s.pwr := by
  unfold msixRelease
  simp

@[simp] theorem pwr_msixControl (fn : Nat) (on all : Bool) (s : State) : (msixControl fn on all s).pwr = s.pwr := by
  unfold msixControl
  simp

@[simp] theorem pwr_pageRequest cid page write (s : State) : (pageRequest cid page write s).pwr = s.pwr := by
  simp [pageRequest]

theorem pwr_prqPost {cid : Nat} {r : Nat × Bool × Nat} {s t : State} (h : prqPost cid r s = some t) : t.pwr = s.pwr := by
  unfold prqPost at h
  dsimp only at h
  split at h
  · cases h
  · split at h
    · cases h
    · cases h; simp [pwr_hubPut ‹_›]

@[simp] theorem pwr_prqDrain (cid : Nat) (l : List (Nat × Bool × Nat)) (s : State) : (prqDrain cid l s).pwr = s.pwr := by
  induction l generalizing s with
  | nil => simp [prqDrain]
  | cons r l ih =>
    unfold prqDrain
    split
    · rw [ih, pwr_prqPost ‹prqPost _ _ _ = some _›]
    · simp

theorem pwr_fnWrite {s t : State} {fn : Nat} {host : Bool} {a : Nat} {b : List Byte} (h : fnWrite s fn host a b = .ok t) :
    t.pwr = s.pwr := by
  unfold fnWrite at h
  split at h
  · cases h; simp
  · split at h
    · split at h
      · cases h; simp
      · cases h
    · exact pwr_hubPut h

@[simp] theorem pwr_cqDropped fn n ovf (s : State) : (cqDropped fn n ovf s).pwr = s.pwr := by
  rfl

@[simp] theorem pwr_cqCoalesce fn n (s : State) : (cqCoalesce fn n s).pwr = s.pwr := by
  simp [cqCoalesce]

@[simp] theorem pwr_cqWrite fn n w0 w1 (s : State) : (cqWrite fn n w0 w1 s).pwr = s.pwr := by
  unfold cqWrite
  repeat' (first | split | (rw [pwr_fnWrite ‹fnWrite _ _ _ _ _ = .ok _›]) | simp)

@[simp] theorem pwr_cqPostNow (e : CqPost) (s : State) : (cqPostNow e s).pwr = s.pwr := by
  unfold cqPostNow
  simp

@[simp] theorem pwr_cqSend (e : CqPost) (s : State) : (cqSend e s).pwr = s.pwr := by
  unfold cqSend
  simp

@[simp] theorem pwr_flushPosts (s : State) : (flushPosts s).pwr = s.pwr := by
  unfold flushPosts
  simp

@[simp] theorem pwr_cqPost fn n w0 w1 (s : State) : (cqPost fn n w0 w1 s).pwr = s.pwr := by
  simp [cqPost]

@[simp] theorem pwr_ecqPost fn q kind status tag data (s : State) : (ecqPost fn q kind status tag data s).pwr = s.pwr := by
  simp [ecqPost]

@[simp] theorem pwr_signalFault fn q ecq tag w3 (s : State) : (signalFault fn q ecq tag w3 s).pwr = s.pwr := by
  simp [signalFault]

theorem pwr_trcWrite {put : State → Nat → List Byte → Except VaErr State}
    (hp : ∀ {s t a b}, put s a b = .ok t → t.pwr = s.pwr) (k : Nat) (l : List W64) (t : Trc) (s : State) :
    (trcWrite put k l t s).1.pwr = s.pwr := by
  unfold trcWrite
  dsimp only
  split
  · rfl
  · split
    · split
      · rfl
      · exact hp ‹_›
    · split
      · rfl
      · split
        · rfl
        · have h1 := ‹(if _ then put _ _ _ else Except.ok s) = Except.ok _›
          have h2 : ∀ u, (if t.off < t.size.toNat then put s t.off (natLe 8 (traceHead 1 0 k).toNat) else .ok s) = .ok u →
              u.pwr = s.pwr := by
            intro u hu
            split at hu
            · exact hp hu
            · cases hu; rfl
          split
          · exact h2 _ h1
          · exact (hp ‹_›).trans (h2 _ h1)

@[simp] theorem pwr_trace (cid type k : Nat) (l m : List W64) (s : State) : (trace cid type k l m s).pwr = s.pwr := by
  unfold trace
  dsimp only
  split
  · rfl
  · split
    · simp [pwr_trcWrite (fun h => pwr_hubPut h)]
    · simp [pwr_trcWrite (fun h => pwr_hubPut h), pwr_trcWrite (fun h => pwr_hubPutHbm h)]

@[simp] theorem pwr_traceRec cid type tick fields (s : State) : (traceRec cid type tick fields s).pwr = s.pwr := by
  simp [traceRec]

@[simp] theorem pwr_traceEvent sid code oldS oldP (s : State) : (traceEvent sid code oldS oldP s).pwr = s.pwr := by
  simp [traceEvent]

theorem pwr_ringWrite {put : State → Nat → List Byte → Except VaErr State}
    (hp : ∀ {s t a b}, put s a b = .ok t → t.pwr = s.pwr) (f : FaultRing) (b : List Byte) (s : State) :
    (ringWrite put f b s).1.pwr = s.pwr := by
  unfold ringWrite
  dsimp only
  split
  · rfl
  · split
    · rfl
    · exact hp ‹_›

@[simp] theorem pwr_recordWrite (r : FaultRec) (s : State) : (recordWrite r s).1.pwr = s.pwr := by
  unfold recordWrite
  simp [pwr_ringWrite (fun h => pwr_hubPut h), pwr_ringWrite (fun h => pwr_hubPutHbm h)]

@[simp] theorem pwr_writeRecord (r : FaultRec) (k : Nat) (s : State) : (writeRecord r k s).1.pwr = s.pwr := by
  simp [writeRecord]

@[simp] theorem pwr_tellRecord (fn q st : Nat) (tag : W32) (i : Nat) (s : State) : (tellRecord fn q st tag i s).pwr = s.pwr := by
  simp [tellRecord]

@[simp] theorem pwr_postRecord (r : FaultRec) (tick fn q : Nat) (s : State) : (postRecord r tick fn q s).pwr = s.pwr := by
  simp [postRecord]

@[simp] theorem pwr_meterTrigger i type event extra (s : State) : (meterTrigger i type event extra s).pwr = s.pwr := by
  unfold meterTrigger
  dsimp only
  repeat' (first | rfl | split)

@[simp] theorem pwr_meterEvent cid event (s : State) : (meterEvent cid event s).pwr = s.pwr := by
  simp [meterEvent]

@[simp] theorem pwr_setDt (cid : Nat) (on : Bool) (s : State) : (setDt cid on s).pwr = s.pwr := by
  unfold setDt
  exact pwr_foldl_trans (fun _ _ => rfl) rfl

@[simp] theorem pwr_zeroFrames (p n : Nat) (s : State) : (zeroFrames p n s).pwr = s.pwr := by
  unfold zeroFrames
  rfl

@[simp] theorem pwr_takeFrames (s : State) x : (takeFrames s x).pwr = s.pwr := by
  unfold takeFrames
  exact pwr_foldl_trans (fun s r => by dsimp only; split <;> simp) rfl

@[simp] theorem pwr_settleFrames (s : State) : (settleFrames s).pwr = s.pwr := by
  unfold settleFrames
  split
  · rfl
  · exact pwr_foldl (fun s x => pwr_takeFrames ..) ..

@[simp] theorem pwr_noteTables (old s : State) : (noteTables old s).pwr = s.pwr := by
  simp [noteTables]

@[simp] theorem pwr_claimFrames (pa n : Nat) (s : State) : (claimFrames pa n s).pwr = s.pwr := by
  unfold claimFrames
  simp

@[simp] theorem pwr_putFrames (p n : Nat) (b : List (Nat × Byte) × List Nat) (s : State) : (putFrames p n b s).pwr = s.pwr := by
  unfold putFrames
  rfl

@[simp] theorem pwr_setLeaf l p (s : State) : (setLeaf l p s).pwr = s.pwr := by
  simp [setLeaf]

@[simp] theorem pwr_putPage (p : Nat) (b : List Byte × List Nat) (s : State) : (putPage p b s).pwr = s.pwr := by
  unfold putPage
  rfl

@[simp] theorem pwr_swapLeaves (s : State) x : (swapLeaves s x).pwr = s.pwr := by
  simp [swapLeaves]

@[simp] theorem pwr_moveLeaf (l : Leaf) (p : Nat) (s : State) : (moveLeaf l p s).pwr = s.pwr := by
  simp [moveLeaf]

@[simp] theorem pwr_moveTo (tier : Nat) (s : State) (l : Leaf) : (moveTo tier s l).pwr = s.pwr := by
  unfold moveTo
  split <;> simp

@[simp] theorem pwr_placeTiers cid (s : State) : (placeTiers cid s).pwr = s.pwr := by
  unfold placeTiers
  simp only [pwr_tlbDrop]
  refine pwr_foldl_trans (fun s l => pwr_setLeaf ..) ?_
  refine pwr_foldl_trans (fun s l => pwr_moveTo ..) ?_
  refine pwr_foldl_trans (fun s l => pwr_moveTo ..) ?_
  exact pwr_foldl_trans (fun s x => pwr_swapLeaves ..) (pwr_foldl (fun s x => pwr_swapLeaves ..) ..)

@[simp] theorem pwr_setPort (s : State) p k : (State.setPort s p k).pwr = s.pwr := by
  rfl

@[simp] theorem pwr_emitFlit (port : Nat) (f : Flit) (s : State) : (emitFlit port f s).pwr = s.pwr := by
  unfold emitFlit
  simp

@[simp] theorem pwr_sendFlit port f (s : State) : (sendFlit port f s).pwr = s.pwr := by
  simp [sendFlit]

@[simp] theorem pwr_sendPayloads kind dst cid cls ps (s : State) : (sendPayloads kind dst cid cls ps s).pwr = s.pwr := by
  simp [sendPayloads]

@[simp] theorem pwr_sendUnsent (s : State) : (sendUnsent s).pwr = s.pwr := by
  unfold sendUnsent
  simp

@[simp] theorem pwr_emitRequest r (s : State) : (emitRequest r s).pwr = s.pwr := by
  unfold emitRequest
  split <;> simp

@[simp] theorem pwr_sendRequest dst scid tcid cls va op why (s : State) : (sendRequest dst scid tcid cls va op why s).pwr = s.pwr := by
  simp [sendRequest]

@[simp] theorem pwr_sendWaiting (s : State) : (sendWaiting s).pwr = s.pwr := by
  simp [sendWaiting]

@[simp] theorem pwr_dropRequest rid (s : State) : (dropRequest rid s).pwr = s.pwr := by
  rfl

@[simp] theorem pwr_endRequest r (s : State) : (endRequest r s).pwr = s.pwr := by
  simp [endRequest]

@[simp] theorem pwr_takePort (c bank : Nat) (wr : Bool) (s : State) : (takePort c bank wr s).pwr = s.pwr := by
  unfold takePort
  rfl

@[simp] theorem pwr_loseCycle (row c w bank : Nat) (s : State) : (loseCycle row c w bank s).pwr = s.pwr := by
  unfold loseCycle
  rfl

@[simp] theorem pwr_addXfer x (s : State) : (addXfer x s).pwr = s.pwr := by
  rfl

@[simp] theorem pwr_addFence core wid mask (s : State) : (addFence core wid mask s).pwr = s.pwr := by
  rfl

@[simp] theorem pwr_setXfer x (s : State) : (setXfer x s).pwr = s.pwr := by
  rfl

@[simp] theorem pwr_landed x (s : State) : (landed x s).pwr = s.pwr := by
  simp [landed]

@[simp] theorem pwr_finishXfer x (s : State) : (finishXfer x s).pwr = s.pwr := by
  simp [finishXfer]

@[simp] theorem pwr_acquireWhere (core : Nat) (f : Unseen → Bool) (s : State) : (acquireWhere core f s).pwr = s.pwr := by
  unfold acquireWhere
  rfl

@[simp] theorem pwr_popElement core wid tid (s : State) : (popElement core wid tid s).pwr = s.pwr := by
  unfold popElement
  dsimp only
  split <;> simp

@[simp] theorem pwr_deliver x data (s : State) : (deliver x data s).pwr = s.pwr := by
  simp [deliver]

@[simp] theorem pwr_hideLines (x : Xfer) (core : Nat) (lines : List Nat) (s : State) : (hideLines x core lines s).pwr = s.pwr := by
  unfold hideLines
  rfl

@[simp] theorem pwr_landWindow x core wid g data (s : State) : (landWindow x core wid g data s).pwr = s.pwr := by
  simp [landWindow]

@[simp] theorem pwr_stopSecondary (s : State) (e : FaultEv) : (stopSecondary s e).pwr = s.pwr := by
  unfold stopSecondary
  rfl

@[simp] theorem pwr_xferFault x cause va (s : State) : (xferFault x cause va s).pwr = s.pwr := by
  simp [xferFault]

theorem pwr_atomicBy {tr : Bool → Xlate} {s t : State} {cid va : Nat} {op : AtOp} {x new old : W64} {p : Bool}
    (h : atomicBy tr s cid va op x new = .ok (old, p, t)) : t.pwr = s.pwr := by
  unfold atomicBy at h
  dsimp only at h
  split at h
  · cases h
  · split at h
    · cases h; simp
    · split at h
      · cases h
      · cases h; rw [pwr_vwriteBy ‹vwriteBy _ _ _ _ _ = .ok _›]; simp

theorem pwr_atomicAt {s t : State} {cid va : Nat} {op : AtOp} {x new old : W64} {p : Bool}
    (h : atomicAt s cid va op x new = .ok (old, p, t)) : t.pwr = s.pwr := by
  exact pwr_atomicBy h

@[simp] theorem pwr_landRead x va data poison (s : State) : (landRead x va data poison s).pwr = s.pwr := by
  unfold landRead
  dsimp only
  rw [pwr_finishXfer, pwr_deliver]
  split
  · exact pwr_foldl (fun s p => pwr_landWindow ..) ..
  · simp

@[simp] theorem pwr_landOld x op old poison (s : State) : (landOld x op old poison s).pwr = s.pwr := by
  simp [landOld]

@[simp] theorem pwr_holdXfer x page write (s : State) : (holdXfer x page write s).pwr = s.pwr := by
  simp [holdXfer]

@[simp] theorem pwr_fill (x : Xfer) (s : State) : (Xfer.fill x s).pwr = s.pwr := by
  unfold Xfer.fill
  simp

@[simp] theorem pwr_xferError x va data e (s : State) : (xferError x va data e s).pwr = s.pwr := by
  unfold xferError
  dsimp only
  split <;> simp

@[simp] theorem pwr_noteReads (sid va n : Nat) (s : State) : (noteReads sid va n s).pwr = s.pwr := by
  unfold noteReads
  rfl

@[simp] theorem pwr_chargeLines (x : Xfer) (t : Torn) (s : State) : (chargeLines x t s).pwr = s.pwr := by
  simp [chargeLines]

@[simp] theorem pwr_secondPart (x : Xfer) (t : Torn) (s : State) : (secondPart x t s).pwr = s.pwr := by
  simp [secondPart]

@[simp] theorem pwr_writeFirst x (s : State) : (writeFirst x s).pwr = s.pwr := by
  unfold writeFirst
  dsimp only
  split
  · exact pwr_xferError ..
  · exact (pwr_secondPart ..).trans (pwr_vwriteFirst ‹_›)

@[simp] theorem pwr_writeRest x t (s : State) : (writeRest x t s).pwr = s.pwr := by
  simp [writeRest]

@[simp] theorem pwr_readFirst (x : Xfer) (s : State) : (readFirst x s).pwr = s.pwr := by
  unfold readFirst
  dsimp only
  split
  · exact pwr_xferError ..
  · exact (pwr_secondPart ..).trans (pwr_vreadFirst ‹_›)

@[simp] theorem pwr_readRest (x : Xfer) (t : Torn) (s : State) : (readRest x t s).pwr = s.pwr := by
  unfold readRest
  simp

@[simp] theorem pwr_performLocal (x : Xfer) (s : State) : (performLocal x s).pwr = s.pwr := by
  unfold performLocal
  dsimp only
  repeat' (first | split | (rw [pwr_atomicBy ‹atomicBy _ _ _ _ _ _ _ = .ok _›]) | simp)

@[simp] theorem pwr_performRest (x : Xfer) (t : Torn) (s : State) : (performRest x t s).pwr = s.pwr := by
  unfold performRest
  simp

@[simp] theorem pwr_portTurn (who : PortReq → Option (Nat × Nat)) (l : List PortReq) (s : State) : (portTurn who l s).2.pwr = s.pwr := by
  unfold portTurn
  dsimp only
  repeat' (first | split | apply pwr_foldl_trans | intro _ | simp)

theorem pwr_withPorts (x : Xfer) (l : List PortReq) (again : Instr) (s : State) (go : Xfer → State → State)
    (hf : ∀ x s, (go x s).pwr = s.pwr) : (withPorts x l again s go).pwr = s.pwr := by
  unfold withPorts
  dsimp only
  split
  · rw [hf]; simp
  · simp

@[simp] theorem pwr_performPut (x : Xfer) (s : State) : (performPut x s).pwr = s.pwr := by
  unfold performPut
  dsimp only
  split <;> simp

@[simp] theorem pwr_performGet x (s : State) : (performGet x s).pwr = s.pwr := by
  unfold performGet
  split <;> simp

@[simp] theorem pwr_beginAt (x : Xfer) (s : State) : (beginAt x s).pwr = s.pwr := by
  unfold beginAt
  rfl

@[simp] theorem pwr_repassStrand (sid : Nat) (was new : Nat × Nat) (c : Nat) (s : State) : (repassStrand sid was new c s).pwr = s.pwr := by
  unfold repassStrand
  simp

@[simp] theorem pwr_dispatchRemote x (s : State) : (dispatchRemote x s).pwr = s.pwr := by
  unfold dispatchRemote
  dsimp only
  split <;> simp

@[simp] theorem pwr_sendXfer (x : Xfer) (i : Instr) (s : State) : (sendXfer x i s).pwr = s.pwr := by
  unfold sendXfer
  rfl

@[simp] theorem pwr_dispatchLocal (x : Xfer) (s : State) : (dispatchLocal x s).pwr = s.pwr := by
  unfold dispatchLocal
  dsimp only
  repeat' (first | split | simp)

@[simp] theorem pwr_performSc (x : Xfer) op (s : State) : (performSc x op s).pwr = s.pwr := by
  unfold performSc
  dsimp only
  split
  · rw [pwr_xferError]
  · have h := pwr_atomicBy ‹_›
    simp only [pwr_tick1, pwr_at, pwr_setXfer, pwr_setCore, pwr_chargeStrand, pwr_fill]
    exact h

@[simp] theorem pwr_landRemote x r (s : State) : (landRemote x r s).pwr = s.pwr := by
  unfold landRemote
  repeat' (first | split | simp)

@[simp] theorem pwr_predConflict c w l (s : State) : (predConflict c w l s).pwr = s.pwr := by
  unfold predConflict
  repeat' (first | split | apply pwr_foldl_trans | intro _ | simp)

@[simp] theorem pwr_dueThr c w p op (s : State) : (dueThr c w p op s).pwr = s.pwr := by
  unfold dueThr
  dsimp only
  repeat' (first | rfl | split)

@[simp] theorem pwr_dueRead c w p r (s : State) : (dueRead c w p r s).pwr = s.pwr := by
  unfold dueRead
  dsimp only
  split <;> simp

@[simp] theorem pwr_duePort c w p lines bytes (s : State) : (duePort c w p lines bytes s).pwr = s.pwr := by
  unfold duePort
  dsimp only
  split <;> simp

@[simp] theorem pwr_dueLate c w (s : State) p : (dueLate c w s p).pwr = s.pwr := by
  unfold dueLate
  split <;> simp

@[simp] theorem pwr_dueParity (c w : Nat) (s : State) (p : Pend) : (dueParity c w s p).pwr = s.pwr := by
  unfold dueParity
  rfl

@[simp] theorem pwr_dueTick c w k (s : State) : (dueTick c w k s).pwr = s.pwr := by
  simp [dueTick]

@[simp] theorem pwr_flushTicks (c w n k : Nat) (s : State) : (flushTicks c w n k s).pwr = s.pwr := by
  induction n generalizing k s with
  | zero => rfl
  | succ n ih => simp [flushTicks, ih]

@[simp] theorem pwr_flushOwner c w (s : State) : (flushOwner c w s).pwr = s.pwr := by
  simp [flushOwner]

@[simp] theorem pwr_retract c w st (s : State) : (retract c w st s).pwr = s.pwr := by
  rfl

@[simp] theorem pwr_tokenOverflow (c w n : Nat) (s : State) : (tokenOverflow c w n s).pwr = s.pwr := by
  induction n generalizing s with
  | zero => rfl
  | succ n ih =>
    unfold tokenOverflow
    dsimp only
    split
    · rfl
    · rw [ih]; exact pwr_foldl_trans (fun s a => by simp) rfl

@[simp] theorem pwr_reissueOwner (c w : Nat) (had : Owner) (s : State) : (reissueOwner c w had s).pwr = s.pwr := by
  unfold reissueOwner
  simp

@[simp] theorem pwr_giveFaults (c w : Nat) (s : State) : (giveFaults c w s).pwr = s.pwr := by
  unfold giveFaults
  rfl

@[simp] theorem pwr_tlmRecords c w (s : State) : (tlmRecords c w s).pwr = s.pwr := by
  simp [tlmRecords]

@[simp] theorem pwr_traceTakes (c cid type : Nat) (s : State) : (traceTakes c cid type s).pwr = s.pwr := by
  unfold traceTakes
  simp

@[simp] theorem pwr_endEffect (c w : Nat) (s : State) (p : Pend) : (endEffect c w s p).pwr = s.pwr := by
  unfold endEffect
  cases p.eff <;> simp

@[simp] theorem pwr_endOwner c w (s : State) : (endOwner c w s).pwr = s.pwr := by
  simp [endOwner]

@[simp] theorem pwr_tryBarrier sid (s : State) : (tryBarrier sid s).pwr = s.pwr := by
  unfold tryBarrier
  repeat' (first | split | simp)

@[simp] theorem pwr_lostInStall t (s : State) : (lostInStall t s).pwr = s.pwr := by
  simp [lostInStall]

@[simp] theorem pwr_cobEvent c kind wid sid args (s : State) : (cobEvent c kind wid sid args s).pwr = s.pwr := by
  rfl

@[simp] theorem pwr_armPark sid k kind (s : State) : (armPark sid k kind s).pwr = s.pwr := by
  simp [armPark]

@[simp] theorem pwr_joinPark (sid at_ : Nat) (kind : CutKind) (s : State) : (joinPark sid at_ kind s).pwr = s.pwr := by
  unfold joinPark
  simp

@[simp] theorem pwr_divergence sid idx go (s : State) : (divergence sid idx go s).pwr = s.pwr := by
  unfold divergence
  dsimp only
  split <;> simp

@[simp] theorem pwr_replayMismatch (sid idx : Nat) (s : State) : (replayMismatch sid idx s).pwr = s.pwr := by
  unfold replayMismatch
  dsimp only
  split
  · simp
  · split <;> simp

@[simp] theorem pwr_replayStep (sid : Nat) (r : SyncRec) (s : State) : (replayStep sid r s).pwr = s.pwr := by
  unfold replayStep
  dsimp only
  repeat' (first | split | rw [pwr_vwrite ‹_›] | simp)

@[simp] theorem pwr_acquireStep (sid : Nat) (t : Strand) (r : SyncRec) (s : State) : (acquireStep sid t r s).pwr = s.pwr := by
  unfold acquireStep
  simp

@[simp] theorem pwr_stepEnd sid r (s : State) : (stepEnd sid r s).pwr = s.pwr := by
  unfold stepEnd
  extract_lets t s1 s2 v s3 src s4 s5 s6 s7
  have h1 : s1.pwr = s.pwr := pwr_foldl_trans (fun s i => by simp) rfl
  clear_value s1
  have h2 : s2.pwr = s.pwr := pwr_foldl_trans (fun s x => pwr_setOwner ..) h1
  clear_value s2
  have h5 : s5.pwr = s.pwr := pwr_foldl_trans (fun s i => pwr_setOwner ..) h2
  clear_value s5
  have h6 : s6.pwr = s.pwr := (pwr_acquireStep ..).trans h5
  clear_value s6
  rw [pwr_replayStep]
  exact h6

@[simp] theorem pwr_verdicts sid k (s : State) : (verdicts sid k s).pwr = s.pwr := by
  simp [verdicts]

@[simp] theorem pwr_mismatchFault t sid (s : State) i : (mismatchFault t sid s i).pwr = s.pwr := by
  rfl

@[simp] theorem pwr_rendezvous sid k (s : State) : (rendezvous sid k s).pwr = s.pwr := by
  simp [rendezvous]

@[simp] theorem pwr_strandFault sid c (s : State) : (strandFault sid c s).pwr = s.pwr := by
  rfl

@[simp] theorem pwr_postCompletion c x (s : State) : (postCompletion c x s).pwr = s.pwr := by
  rfl

@[simp] theorem pwr_endCutsWhere (f : ArmedCut → Bool) (c w status tick : Nat) (s : State) : (endCutsWhere f c w status tick s).pwr = s.pwr := by
  unfold endCutsWhere
  simp

@[simp] theorem pwr_endCuts c w status tick (s : State) : (endCuts c w status tick s).pwr = s.pwr := by
  simp [endCuts]

@[simp] theorem pwr_endAllCuts sid status (s : State) : (endAllCuts sid status s).pwr = s.pwr := by
  simp [endAllCuts]

@[simp] theorem pwr_dbgDone cid st (s : State) : (dbgDone cid st s).pwr = s.pwr := by
  rfl

@[simp] theorem pwr_dbgEnd sid st (s : State) : (dbgEnd sid st s).pwr = s.pwr := by
  simp [dbgEnd]

@[simp] theorem pwr_takeFaults sid k (s : State) : (takeFaults sid k s).pwr = s.pwr := by
  unfold takeFaults
  repeat' (first | split | simp)

@[simp] theorem pwr_breakpoints sid k (s : State) : (breakpoints sid k s).pwr = s.pwr := by
  simp [breakpoints]

@[simp] theorem pwr_departures sid (s : State) : (departures sid s).pwr = s.pwr := by
  simp [departures]

@[simp] theorem pwr_endTick (sid : Nat) (s : State) : (endTick sid s).pwr = s.pwr := by
  unfold endTick
  dsimp only
  simp only [pwr_departures, pwr_verdicts, pwr_takeFaults, pwr_breakpoints, pwr_rendezvous, pwr_setStrand]
  exact pwr_foldl_trans (fun s x => pwr_endOwner ..) rfl

@[simp] theorem pwr_grantCore (s : State) c t g evicted : (grantCore s c t g evicted).pwr = s.pwr := by
  rfl

@[simp] theorem pwr_syncWids (core : Nat) (sids : List Nat) (s : State) : (syncWids core sids s).pwr = s.pwr := by
  unfold syncWids
  repeat' (first | split | apply pwr_foldl_trans | intro _ | simp)

@[simp] theorem pwr_pendClass (sid stride phase cyc : Nat) (s : State) : (pendClass sid stride phase cyc s).pwr = s.pwr := by
  unfold pendClass
  simp

@[simp] theorem pwr_cancelPending (sid : Nat) (s : State) : (cancelPending sid s).pwr = s.pwr := by
  unfold cancelPending
  simp

@[simp] theorem pwr_startRephase sid r (s : State) : (startRephase sid r s).pwr = s.pwr := by
  simp [startRephase]

@[simp] theorem pwr_grantsChanged (s : State) : (grantsChanged s).pwr = s.pwr := by
  rfl

@[simp] theorem pwr_speedOne c (s : State) : (speedOne c s).pwr = s.pwr := by
  unfold speedOne
  repeat' (first | split | simp)

@[simp] theorem pwr_speedAll (cs : List Nat) (s : State) : (speedAll cs s).pwr = s.pwr := by
  unfold speedAll
  simp

@[simp] theorem pwr_freeOwner ends c w (s : State) : (freeOwner ends c w s).pwr = s.pwr := by
  simp [freeOwner]

@[simp] theorem pwr_freeEach (ends : Bool) (sid : Nat) (s : State) : (freeEach ends sid s).pwr = s.pwr := by
  unfold freeEach
  simp

@[simp] theorem pwr_freeAll sid (s : State) : (freeAll sid s).pwr = s.pwr := by
  simp [freeAll]

@[simp] theorem pwr_noteLaunch (t : Strand) (s : State) : (noteLaunch t s).pwr = s.pwr := by
  unfold noteLaunch
  simp

@[simp] theorem pwr_finishLaunch sid status (s : State) : (finishLaunch sid status s).pwr = s.pwr := by
  unfold finishLaunch
  dsimp only
  rw [pwr_grantsChanged, pwr_soon, pwr_noteLaunch]
  split <;> simp

@[simp] theorem pwr_discardStrand sid (s : State) : (discardStrand sid s).pwr = s.pwr := by
  simp [discardStrand]

@[simp] theorem pwr_discardDoomed sid (s : State) : (discardDoomed sid s).pwr = s.pwr := by
  simp [discardDoomed]

@[simp] theorem pwr_reachCuts (c w : Nat) (s : State) : (reachCuts c w s).pwr = s.pwr := by
  unfold reachCuts
  simp

@[simp] theorem pwr_parkOwners (sid : Nat) (on : Bool) (s : State) : (parkOwners sid on s).pwr = s.pwr := by
  unfold parkOwners
  simp

@[simp] theorem pwr_unparkStrand (sid cyc : Nat) (s : State) : (unparkStrand sid cyc s).pwr = s.pwr := by
  unfold unparkStrand
  simp

@[simp] theorem pwr_departStopped sid (s : State) : (departStopped sid s).pwr = s.pwr := by
  simp [departStopped]

@[simp] theorem pwr_doomStrands cid (s : State) : (doomStrands cid s).pwr = s.pwr := by
  simp [doomStrands]

@[simp] theorem pwr_noteSave (r : SavedRec) (s : State) : (noteSave r s).pwr = s.pwr := by
  unfold noteSave
  rfl

@[simp] theorem pwr_saveRecord c w pa (s : State) : (saveRecord c w pa s).pwr = s.pwr := by
  simp [saveRecord]

@[simp] theorem pwr_restoreRecord c w pa old (s : State) : (restoreRecord c w pa old s).pwr = s.pwr := by
  rfl

@[simp] theorem pwr_evictEvents sid t (s : State) : (evictEvents sid t s).pwr = s.pwr := by
  simp [evictEvents]

@[simp] theorem pwr_armEvents sid start t c w i (s : State) : (armEvents sid start t c w i s).pwr = s.pwr := by
  unfold armEvents
  dsimp only
  split <;> rfl

@[simp] theorem pwr_armStart sid (s : State) : (armStart sid s).pwr = s.pwr := by
  simp [armStart]

@[simp] theorem pwr_placeOwners sid p evicted mk (s : State) : (placeOwners sid p evicted mk s).pwr = s.pwr := by
  simp [placeOwners]

@[simp] theorem pwr_modQueue (s : State) fn q f : (State.modQueue s fn q f).pwr = s.pwr := by
  rfl

theorem pwr_clearV (s : State) fn host a : (match fnRead s fn host a 1 with
    | .ok (b, _) => (match fnWrite s fn host a [b.headD 0 &&& 0xFE] with | .ok s' => s' | .error _ => s)
    | .error _ => s).pwr = s.pwr := by
  split
  · split
    · exact pwr_fnWrite ‹_›
    · rfl
  · rfl

@[simp] theorem pwr_dropHead (fn q : Nat) (s : State) : (dropHead fn q s).pwr = s.pwr := by
  unfold dropHead
  rfl

@[simp] theorem pwr_queueError fn q status data (s : State) : (queueError fn q status data s).pwr = s.pwr := by
  simp [queueError]

@[simp] theorem pwr_hostError (fn q : Nat) (ecq : BitVec 6) (e : AerError) (tag : W32) (status : Nat) (data : W64) (s : State) : (hostError fn q ecq e tag status data s).pwr = s.pwr := by
  unfold hostError
  simp

@[simp] theorem pwr_validateRing fn q (s : State) : (validateRing fn q s).pwr = s.pwr := by
  unfold validateRing
  dsimp only
  split <;> simp

@[simp] theorem pwr_retire fn q (s : State) : (retire fn q s).pwr = s.pwr := by
  unfold retire
  dsimp only
  rw [pwr_soon]
  exact (pwr_dropHead fn q _).trans ((pwr_modQueue ..).trans (pwr_clearV ..))

@[simp] theorem pwr_startPacket (fn q : Nat) (p : Packet) (s : State) : (startPacket fn q p s).1.pwr = s.pwr := by
  simp [startPacket]

@[simp] theorem pwr_setRun r (s : State) : (setRun r s).pwr = s.pwr := by
  rfl

@[simp] theorem pwr_endRun r status data (s : State) : (endRun r status data s).pwr = s.pwr := by
  rfl

@[simp] theorem pwr_startAndEnd (fn q : Nat) (p : Packet) (st : Nat) (s : State) :
    (startAndEnd fn q p st s).pwr = s.pwr := by
  simp [startAndEnd]

theorem pwr_sideFirst {s : State} {fn a n : Nat} {host : Bool} {x : State × Torn} (h : sideFirst s fn host a n = .ok x) :
    x.1.pwr = s.pwr := by
  unfold sideFirst at h
  split at h
  · cases h; rfl
  · exact pwr_vreadFirst h

@[simp] theorem pwr_hubLater (i : Instr) (s : State) : (hubLater i s).pwr = s.pwr := by
  unfold hubLater
  rfl

@[simp] theorem pwr_ringBegin (fn q : Nat) (s : State) : (ringBegin fn q s).pwr = s.pwr := by
  unfold ringBegin
  dsimp only
  split
  · simp
  · simp
  · have e := pwr_sideFirst ‹_›
    simp only [pwr_hubLater, pwr_setQueue]
    split
    · exact (pwr_hostReads ..).trans e
    · exact e

@[simp] theorem pwr_ringEnd (fn q : Nat) (t : Torn) (s : State) : (ringEnd fn q t s).pwr = s.pwr := by
  unfold ringEnd
  simp

@[simp] theorem pwr_passOver fn q (s : State) : (passOver fn q s).pwr = s.pwr := by
  rfl

@[simp] theorem pwr_rereadWaits place (s : State) : (rereadWaits place s).pwr = s.pwr := by
  unfold rereadWaits
  repeat' (first | split | apply pwr_foldl_trans | intro _ | simp)

@[simp] theorem pwr_mailbox cid q tag w3 mb (s : State) : (mailbox cid q tag w3 mb s).pwr = s.pwr := by
  simp [mailbox]

@[simp] theorem pwr_signalEnd (o : SigOp) (status : Nat) (s : State) : (signalEnd o status s).pwr = s.pwr := by
  unfold signalEnd
  split
  · split <;> simp
  · simp

@[simp] theorem pwr_cfeRead (cid va n : Nat) (s : State) : (cfeRead cid va n s).pwr = s.pwr := by
  unfold cfeRead
  rfl

theorem pwr_signalTry {q : SigOp} {s t : State} (h : signalTry q s = .ok t) : t.pwr = s.pwr := by
  unfold signalTry at h
  dsimp only at h
  split at h
  · cases h
  · cases h; simp
  · split at h
    · cases h; rw [pwr_rereadWaits, pwr_signalEnd]; split <;> simp
    · split at h
      · cases h
      · cases h; rw [pwr_rereadWaits, pwr_signalEnd]; split <;> simp
      · have e := pwr_fnWrite ‹fnWrite _ _ _ _ _ = .ok _›
        cases h
        rw [pwr_rereadWaits, pwr_signalEnd]
        split
        · rw [pwr_mailbox, pwr_cfeRead, e]; split <;> simp
        · rw [e]; split <;> simp

@[simp] theorem pwr_signalOp (q : SigOp) (s : State) : (signalOp q s).pwr = s.pwr := by
  unfold signalOp
  repeat' (first | split | (rw [pwr_signalTry ‹signalTry _ _ = .ok _›]) | simp)

@[simp] theorem pwr_releaseOne cid (s : State) : (releaseOne cid s).pwr = s.pwr := by
  unfold releaseOne
  dsimp only
  repeat' (first | split | (rw [pwr_signalTry ‹signalTry _ _ = .ok _›]) | simp)

@[simp] theorem pwr_signalFor fn q ecq tag w3 write (s : State) : (signalFor fn q ecq tag w3 write s).pwr = s.pwr := by
  unfold signalFor
  dsimp only
  split
  · split
    · simp
    · split <;> simp
  · simp

theorem pwr_atCfeSlot (i : Instr) {f : State → State} (hf : ∀ s, (f s).pwr = s.pwr) (s : State) :
    (atCfeSlot i f s).pwr = s.pwr := by
  unfold atCfeSlot
  split
  · exact hf _
  · simp

@[simp] theorem pwr_cfeTurn (i : Instr) (s : State) : (cfeTurn i s).pwr = s.pwr := by
  unfold cfeTurn
  simp

@[simp] theorem pwr_waitResult fn q p v (s : State) : (waitResult fn q p v s).pwr = s.pwr := by
  unfold waitResult
  dsimp only
  split
  · split <;> simp
  · split <;> simp

@[simp] theorem pwr_rereadLater fn q (s : State) : (rereadLater fn q s).pwr = s.pwr := by
  rfl

@[simp] theorem pwr_waitRemote (fn q : Nat) (p : Packet) (s : State) : (waitRemote fn q p s).pwr = s.pwr := by
  unfold waitRemote
  simp

@[simp] theorem pwr_waitLocal (fn q : Nat) (p : Packet) (s : State) : (waitLocal fn q p s).pwr = s.pwr := by
  unfold waitLocal
  dsimp only
  repeat' (first | split | simp)

@[simp] theorem pwr_waitNow (fn q : Nat) (p : Packet) (s : State) : (waitNow fn q p s).pwr = s.pwr := by
  unfold waitNow
  split
  · simp
  · split
    · exact (pwr_atCfeSlot _ (fun s => pwr_waitLocal ..) _).trans (pwr_cancel ..)
    · exact (pwr_atCfeSlot _ (fun s => pwr_waitRemote ..) _).trans (pwr_cancel ..)

@[simp] theorem pwr_tlbInval (cid : Nat) (pages : Nat × Nat) (s : State) : (tlbInval cid pages s).pwr = s.pwr := by
  unfold tlbInval
  rfl

@[simp] theorem pwr_copyFault r va (s : State) : (copyFault r va s).pwr = s.pwr := by
  rfl

@[simp] theorem pwr_copyLater (r : Run) (s : State) : (copyLater r s).pwr = s.pwr := by
  unfold copyLater
  rfl

@[simp] theorem pwr_copyNext r n (s : State) : (copyNext r n s).pwr = s.pwr := by
  simp [copyNext]

@[simp] theorem pwr_copyError r write e (s : State) : (copyError r write e s).pwr = s.pwr := by
  unfold copyError
  split <;> simp

@[simp] theorem pwr_copyWrote (r : Run) (n : Nat) (s : State) : (copyWrote r n s).pwr = s.pwr := by
  unfold copyWrote
  simp

theorem pwr_mfWrites (pa n : Nat) {f : State → State} (s : State) (hf : ∀ s, (f s).pwr = s.pwr) : (mfWrites pa n f s).pwr = s.pwr := by
  simp [mfWrites, hf]

@[simp] theorem pwr_copyPut (r : Run) d data (s : State) : (copyPut r d data s).pwr = s.pwr := by
  have hm : ∀ n (t : Torn) q (s : State) b, (mfWrites d n (putRest t b q) s).pwr = s.pwr :=
    fun n t q s b => pwr_mfWrites _ _ _ fun s => pwr_putRest ..
  have hf : ∀ n l q (s : State) b, (mfWrites d n (putFirst l b q) s).pwr = s.pwr :=
    fun n l q s b => pwr_mfWrites _ _ _ fun s => pwr_putFirst ..
  unfold copyPut
  dsimp only
  split
  · split
    · simp
    · split <;> simp [hf]
  · split <;> simp [hm]

@[simp] theorem pwr_copyWrite (r : Run) (s : State) : (copyWrite r s).pwr = s.pwr := by
  unfold copyWrite
  dsimp only
  simp

@[simp] theorem pwr_copyRead (r : Run) data (s : State) : (copyRead r data s).pwr = s.pwr := by
  unfold copyRead
  dsimp only
  simp

@[simp] theorem pwr_copyAsk (r : Run) (s : State) : (copyAsk r s).pwr = s.pwr := by
  unfold copyAsk
  dsimp only
  split
  · split <;> simp
  · split
    · split
      · simp
      · have e := pwr_sideFirst ‹_›
        rw [pwr_copyLater]
        split
        · exact (pwr_hostReads ..).trans e
        · exact e
    · rw [pwr_copyRead, pwr_estimate]
      split
      · split <;> simp
      · split <;> simp

@[simp] theorem pwr_copyAnswer id a (s : State) : (copyAnswer id a s).pwr = s.pwr := by
  unfold copyAnswer
  split <;> simp

@[simp] theorem pwr_runDone (r : Run) (s : State) : (runDone r s).pwr = s.pwr := by
  unfold runDone
  simp

@[simp] theorem pwr_soonAll (l : List Instr) (s : State) : (soonAll l s).pwr = s.pwr := by
  unfold soonAll
  simp

@[simp] theorem pwr_releaseCq (cid n : Nat) (s : State) : (releaseCq cid n s).pwr = s.pwr := by
  unfold releaseCq
  simp

@[simp] theorem pwr_retryPage cid page (s : State) : (retryPage cid page s).pwr = s.pwr := by
  unfold retryPage
  extract_lets v src s1 mine tids s2 rings waits s3 s4 cqs s5 mineOp s6 copies peers s7 logs stg dump att
  have h4 : s4.pwr = s.pwr := pwr_soonAll ..
  clear_value s4
  have h5 : s5.pwr = s.pwr := pwr_foldl_trans (fun s i => pwr_releaseCq ..) h4
  clear_value s5
  have h6 : s6.pwr = s.pwr := by
    dsimp only [s6]
    split
    · exact h5
    · exact h5
  clear_value s6
  exact (pwr_soonAll ..).trans ((pwr_settleFrames ..).trans h6)

@[simp] theorem pwr_countStage (cid va n had : Nat) (s : State) : (countStage cid va n had s).pwr = s.pwr := by
  simp [countStage]

@[simp] theorem pwr_emptied (s : State) : (emptied s).pwr = s.pwr := by
  rfl

@[simp] theorem pwr_without (s : State) sid : (without s sid).pwr = s.pwr := by
  simp [without]

@[simp] theorem pwr_evictFor cid prio find (s : State) : (evictFor cid prio find s).pwr = s.pwr := by
  unfold evictFor
  dsimp only
  repeat' (first | rfl | split)

@[simp] theorem pwr_awaitAdmission fn q (s : State) : (awaitAdmission fn q s).pwr = s.pwr := by
  simp [awaitAdmission]

@[simp] theorem pwr_launchBug fn q p b (s : State) : (launchBug fn q p b s).pwr = s.pwr := by
  simp [launchBug]

@[simp] theorem pwr_admitLaunch (fn q : Nat) (p : Packet) (pl : Placement) (s : State) :
    (admitLaunch fn q p pl s).pwr = s.pwr := by
  unfold admitLaunch
  have h := pwr_startPacket fn q p s
  generalize startPacket fn q p s = r at h
  obtain ⟨s', id⟩ := r
  simpa using h

theorem pwr_placeOrWait (cid prio : Nat) (find : State → Option Placement) {go : Placement → State → State}
    {wait : State → State} (hg : ∀ p s, (go p s).pwr = s.pwr) (hw : ∀ s, (wait s).pwr = s.pwr) (s : State) :
    (placeOrWait cid prio find go wait s).pwr = s.pwr := by
  unfold placeOrWait
  split
  · exact hg _ _
  · split
    · rw [hg]; exact pwr_foldl_trans (fun s a => by simp) rfl
    · rw [hw]; simp

@[simp] theorem pwr_resumeAt sid p (s : State) : (resumeAt sid p s).pwr = s.pwr := by
  simp [resumeAt]

@[simp] theorem pwr_stageFail (sid : Nat) (b : Bug) (s : State) : (stageFail sid b s).pwr = s.pwr := by
  unfold stageFail
  simp only [pwr_finishLaunch, pwr_freeAll, pwr_postRecord]

@[simp] theorem pwr_chainOn t raw (s : State) : (chainOn t raw s).pwr = s.pwr := by
  rfl

@[simp] theorem pwr_loadOwner raw args (s : State) x : (loadOwner raw args s x).pwr = s.pwr := by
  rfl

@[simp] theorem pwr_beginRecording (sid : Nat) (l : List Byte) (s : State) : (beginRecording sid l s).pwr = s.pwr := by
  unfold beginRecording
  dsimp only
  split
  · simp only [pwr_setStrand]
    split
    · exact pwr_vwrite ‹_›
    · rfl
  · simp
  · rfl

@[simp] theorem pwr_startSlip (sid : Nat) (s : State) : (startSlip sid s).pwr = s.pwr := by
  unfold startSlip
  simp only [pwr_stageFail, pwr_cancelPending]

@[simp] theorem pwr_startStrand sid (s : State) : (startStrand sid s).pwr = s.pwr := by
  unfold startStrand
  repeat' (first | split | simp)

@[simp] theorem pwr_dropPackets (fn : Nat) (s : State) : (dropPackets fn s).pwr = s.pwr := by
  unfold dropPackets
  rfl

@[simp] theorem pwr_tdiChange fn (s : State) : (tdiChange fn s).pwr = s.pwr := by
  simp [tdiChange]

@[simp] theorem pwr_holdMf i (s : State) : (holdMf i s).pwr = s.pwr := by
  rfl

@[simp] theorem pwr_ideFail (st : Nat) (s : State) : (ideFail st s).pwr = s.pwr := by
  unfold ideFail
  rfl

@[simp] theorem pwr_replacePolicy (cid pa : Nat) (s : State) : (replacePolicy cid pa s).pwr = s.pwr := by
  unfold replacePolicy
  simp

@[simp] theorem pwr_setGen fn q g (s : State) : (setGen fn q g s).pwr = s.pwr := by
  simp [setGen]

@[simp] theorem pwr_qcbPut fn q i v m (s : State) : (qcbPut fn q i v m s).pwr = s.pwr := by
  simp [qcbPut]

@[simp] theorem pwr_qcbFirmware fn q i v (s : State) : (qcbFirmware fn q i v s).pwr = s.pwr := by
  unfold qcbFirmware
  split <;> simp

@[simp] theorem pwr_cqPut fn n i v m (s : State) : (cqPut fn n i v m s).pwr = s.pwr := by
  unfold cqPut
  split <;> simp

@[simp] theorem pwr_msixPut fn k v m (s : State) : (msixPut fn k v m s).pwr = s.pwr := by
  simp [msixPut]

@[simp] theorem pwr_setFlt fn f (s : State) : (setFlt fn f s).pwr = s.pwr := by
  simp [setFlt]

@[simp] theorem pwr_fltPut fn f i v m (s : State) : (fltPut fn f i v m s).pwr = s.pwr := by
  unfold fltPut
  split <;> simp

@[simp] theorem pwr_attPut cid i w v (s : State) : (attPut cid i w v s).pwr = s.pwr := by
  simp [attPut]

@[simp] theorem pwr_prqPut cid i w v (s : State) : (prqPut cid i w v s).pwr = s.pwr := by
  unfold prqPut
  split <;> simp

@[simp] theorem pwr_dbgPut cid i w v (s : State) : (dbgPut cid i w v s).pwr = s.pwr := by
  unfold dbgPut
  dsimp only
  repeat' (first | rfl | split)

@[simp] theorem pwr_vdPut cid off v m (s : State) : (vdPut cid off v m s).pwr = s.pwr := by
  unfold vdPut
  repeat' (first | split | simp)

@[simp] theorem pwr_vdClear cid off (s : State) : (vdClear cid off s).pwr = s.pwr := by
  unfold vdClear
  split <;> simp

@[simp] theorem pwr_cfePut fn off v m (s : State) : (cfePut fn off v m s).pwr = s.pwr := by
  simp [cfePut]

@[simp] theorem pwr_cfeClear fn off (s : State) : (cfeClear fn off s).pwr = s.pwr := by
  simp [cfeClear]

@[simp] theorem pwr_vdcmdPut w v (s : State) : (vdcmdPut w v s).pwr = s.pwr := by
  unfold vdcmdPut
  dsimp only
  repeat' (first | rfl | split)

@[simp] theorem pwr_partPut n w (s : State) : (partPut n w s).pwr = s.pwr := by
  unfold partPut
  split <;> simp

@[simp] theorem pwr_actPut i k w (s : State) : (actPut i k w s).pwr = s.pwr := by
  rfl

@[simp] theorem pwr_hbPut off v m (s : State) : (hbPut off v m s).pwr = s.pwr := by
  simp [hbPut]

@[simp] theorem pwr_denyPop (s : State) : (denyPop s).pwr = s.pwr := by
  unfold denyPop
  dsimp only
  split <;> simp

theorem legal_hbClear (off : Nat) (s : State) : (hbClear off s).pwr.legal = s.pwr.legal := by
  unfold hbClear
  repeat' split
  all_goals first
    | rfl
    | rw [pwr_denyPop]

@[simp] theorem pwr_plcPut off v m (s : State) : (plcPut off v m s).pwr = s.pwr := by
  unfold plcPut
  repeat' (first | split | simp)

@[simp] theorem pwr_plcClear off (s : State) : (plcClear off s).pwr = s.pwr := by
  simp [plcClear]

@[simp] theorem pwr_meterPut i k w v (s : State) : (meterPut i k w v s).pwr = s.pwr := by
  unfold meterPut
  split <;> simp

@[simp] theorem pwr_retryRecords (s : State) : (retryRecords s).pwr = s.pwr := by
  rfl

@[simp] theorem pwr_wmPut off v m (s : State) : (wmPut off v m s).pwr = s.pwr := by
  simp [wmPut]

@[simp] theorem pwr_wmClear off (s : State) : (wmClear off s).pwr = s.pwr := by
  simp [wmClear]

@[simp] theorem pwr_trcBlockPut off v m (s : State) : (trcBlockPut off v m s).pwr = s.pwr := by
  unfold trcBlockPut
  dsimp only
  repeat' (first | rfl | split)

@[simp] theorem pwr_trcBlockClear off (s : State) : (trcBlockClear off s).pwr = s.pwr := by
  simp [trcBlockClear]

@[simp] theorem pwr_fwPut off v m (s : State) : (fwPut off v m s).pwr = s.pwr := by
  simp [fwPut]

@[simp] theorem pwr_fwClear off (s : State) : (fwClear off s).pwr = s.pwr := by
  simp [fwClear]

theorem legal_regClear (fn off : Nat) (s : State) : (regClear fn off s).pwr.legal = s.pwr.legal := by
  unfold regClear
  split
  · split
    · rfl
    · split
      · rw [pwr_vdClear]
      · rw [pwr_cfeClear]
  · dsimp only
    split
    · rw [pwr_cfeClear]
    · exact legal_hbClear _ _
    · rw [pwr_plcClear]
    · rw [pwr_wmClear]
    · rw [pwr_trcBlockClear]
    · rw [pwr_fwClear]
    · rfl

@[simp] theorem pwr_mfPut off v m (s : State) : (mfPut off v m s).pwr = s.pwr := by
  unfold mfPut
  split <;> simp

@[simp] theorem pwr_fnPut fn off v m (s : State) : (fnPut fn off v m s).pwr = s.pwr := by
  simp [fnPut]

@[simp] theorem pwr_regPut fn off v m (s : State) : (regPut fn off v m s).pwr = s.pwr := by
  simp [regPut]

@[simp] theorem pwr_setCfg (fn : Nat) (c : PciCfg) (s : State) : (setCfg fn c s).pwr = s.pwr := by
  unfold setCfg
  rfl

@[simp] theorem pwr_cfgChange (fn : Nat) (c : PciCfg) (s : State) : (cfgChange fn c s).pwr = s.pwr := by
  unfold cfgChange
  simp

@[simp] theorem pwr_devControl (fn : Nat) (w : Nat) (s : State) : (devControl fn w s).pwr = s.pwr := by
  unfold devControl
  simp

@[simp] theorem pwr_doeGo (s : State) : (doeGo s).pwr = s.pwr := by
  unfold doeGo
  rfl

@[simp] theorem pwr_doePut (i : Nat) (w : W64) (s : State) : (doePut i w s).pwr = s.pwr := by
  unfold doePut
  split <;> simp

@[simp] theorem pwr_capPut (fn : Nat) (c : Cap) (i : Nat) (v m : W64) (s : State) : (capPut fn c i v m s).pwr = s.pwr := by
  unfold capPut
  split <;> simp

@[simp] theorem pwr_cfgPut (fn i : Nat) (v m : W64) (s : State) : (cfgPut fn i v m s).pwr = s.pwr := by
  unfold cfgPut
  dsimp only
  repeat' (first | split | simp)

@[simp] theorem pwr_cfgWrite fn at_ size (v : W64) (s : State) : (cfgWrite fn at_ size v s).pwr = s.pwr := by
  unfold cfgWrite
  dsimp only
  split
  · rw [pwr_cfgPut]; split <;> simp
  · simp

@[simp] theorem pwr_cfgRead (fn off : Nat) (s : State) : (cfgRead fn off s).pwr = s.pwr := by
  unfold cfgRead
  simp

@[simp] theorem pwr_barWrite fn at_ size (v : W64) (s : State) : (barWrite fn at_ size v s).pwr = s.pwr := by
  unfold barWrite
  dsimp only
  have e : (if at_.ep = true then logAer fn .poisonedTlp s else s).pwr = s.pwr := by split <;> simp
  generalize (if at_.ep = true then logAer fn .poisonedTlp s else s) = s1 at e
  split
  · simp
  · simp
  · rfl
  · rfl
  · rfl
  · split
    · simp [e]
    · split
      · simp [holdMf, e]
      · split <;> simp [e]

theorem legal_barRead (fn off : Nat) (s : State) : (barRead fn off s).pwr.legal = s.pwr.legal := by
  unfold barRead
  dsimp only
  split
  · simp
  · simp
  · simp
  · simp
  · rfl
  · split
    · simp
    · rw [legal_regClear, pwr_emit]

@[simp] theorem pwr_setMeter (s : State) i m : (State.setMeter s i m).pwr = s.pwr := by
  rfl

@[simp] theorem pwr_releaseMf (s : State) : (releaseMf s).pwr = s.pwr := by
  rfl

@[simp] theorem pwr_markPage cid on (s : State) page : (markPage cid on s page).pwr = s.pwr := by
  unfold markPage
  split <;> simp

@[simp] theorem pwr_markRegion m on (s : State) : (markRegion m on s).pwr = s.pwr := by
  simp [markRegion]

@[simp] theorem pwr_readRegion (m : Meter) (s : State) : (readRegion m s).pwr = s.pwr := by
  unfold readRegion
  rfl

@[simp] theorem pwr_operatorWrite b (s : State) : (operatorWrite b s).pwr = s.pwr := by
  unfold operatorWrite
  dsimp only
  split
  · exact pwr_hubPutHbm ‹_›
  · rfl

@[simp] theorem pwr_recordDone i digest (s : State) : (recordDone i digest s).pwr = s.pwr := by
  simp [recordDone]

@[simp] theorem pwr_setPartition (s : State) n p : (State.setPartition s n p).pwr = s.pwr := by
  rfl

@[simp] theorem pwr_packVfs (s : State) : (packVfs s).pwr = s.pwr := by
  unfold packVfs
  dsimp only
  have h : ∀ (g : State × List (Nat × Nat) × Nat → Nat → State × List (Nat × Nat) × Nat) (l : List Nat) a,
      (∀ a p, (g a p).1.pwr = a.1.pwr) → (l.foldl g a).1.pwr = a.1.pwr := by
    intro g l
    induction l with
    | nil => intro a _; rfl
    | cons x l ih => intro a hg; exact (ih _ hg).trans (hg a x)
  rw [h]
  intro a p
  repeat' split
  all_goals first
    | rfl
    | exact pwr_setFn ..

@[simp] theorem pwr_clearVfs pf (s : State) : (clearVfs pf s).pwr = s.pwr := by
  unfold clearVfs
  rw [pwr_packVfs, pwr_setFn]

@[simp] theorem pwr_resetFunction fn (s : State) : (resetFunction fn s).pwr = s.pwr := by
  rfl

@[simp] theorem pwr_endRequests (cid : Nat) (s : State) : (endRequests cid s).pwr = s.pwr := by
  unfold endRequests
  simp

@[simp] theorem pwr_removeVd cid (s : State) : (removeVd cid s).pwr = s.pwr := by
  simp [removeVd]

@[simp] theorem pwr_flrStep fn event (s : State) : (flrStep fn event s).pwr = s.pwr := by
  simp [flrStep]

@[simp] theorem pwr_pfEnd pf event (s : State) : (pfEnd pf event s).pwr = s.pwr := by
  unfold pfEnd
  simp only [pwr_clearVfs, pwr_flrStep]
  exact pwr_foldl_trans (fun s v => pwr_flrStep ..) rfl

@[simp] theorem pwr_vdcmdDone st (s : State) : (vdcmdDone st s).pwr = s.pwr := by
  rfl

@[simp] theorem pwr_createVd state (s : State) : (createVd state s).pwr = s.pwr := by
  unfold createVd
  split <;> simp

@[simp] theorem pwr_destroyVd (s : State) : (destroyVd s).pwr = s.pwr := by
  unfold destroyVd
  simp

@[simp] theorem pwr_recordDenial r (s : State) : (recordDenial r s).pwr = s.pwr := by
  simp [recordDenial]

@[simp] theorem pwr_migDenied (src : Nat × Nat) (cid page : Nat) (s : State) : (migDenied src cid page s).pwr = s.pwr := by
  unfold migDenied
  simp

@[simp] theorem pwr_migSay (st : Nat) (s : State) : (migSay st s).pwr = s.pwr := by
  unfold migSay
  rfl

@[simp] theorem pwr_migDone st (s : State) : (migDone st s).pwr = s.pwr := by
  rfl

@[simp] theorem pwr_sendPage cid (s : State) p d : (sendPage cid s p d).pwr = s.pwr := by
  simp [sendPage]

@[simp] theorem pwr_copyRound (cid : Nat) (s : State) : (copyRound cid s).pwr = s.pwr := by
  unfold copyRound
  exact pwr_foldl_trans (fun _ _ => pwr_sendPage _ _ _ _) rfl

@[simp] theorem pwr_migPageAnswer cid st (s : State) : (migPageAnswer cid st s).pwr = s.pwr := by
  unfold migPageAnswer
  simp

@[simp] theorem pwr_stopStrands cid (s : State) : (stopStrands cid s).pwr = s.pwr := by
  unfold stopStrands
  repeat' (first | split | apply pwr_foldl_trans | intro _ | simp)

@[simp] theorem pwr_finalSent (cid : Nat) (s : State) : (finalSent cid s).pwr = s.pwr := by
  unfold finalSent
  simp

@[simp] theorem pwr_sendFinal cid (s : State) : (sendFinal cid s).pwr = s.pwr := by
  simp [sendFinal]

@[simp] theorem pwr_handOff cid (s : State) : (handOff cid s).pwr = s.pwr := by
  simp [handOff]

@[simp] theorem pwr_beginStop (cid : Nat) (s : State) : (beginStop cid s).pwr = s.pwr := by
  unfold beginStop
  dsimp only
  rw [pwr_setVd]
  split <;> rfl

@[simp] theorem pwr_installPage cid (s : State) p : (installPage cid s p).pwr = s.pwr := by
  unfold installPage
  split <;> simp

theorem pwr_receiveHandoff {cid dev : Nat} {b : List Byte} {s t : State} (h : receiveHandoff cid dev b s = some t) :
    t.pwr = s.pwr := by
  unfold receiveHandoff at h
  dsimp only at h
  split at h
  · cases h
  · split at h
    · cases h
    · cases h; simp

theorem pwr_receiveHandoffs {cid dev : Nat} {l : List (List Byte)} {s t : State}
    (h : receiveHandoffs cid dev l s = some t) : t.pwr = s.pwr := by
  have g : ∀ (l : List (List Byte)) (u : Option State),
      l.foldl (fun u b => u.bind (receiveHandoff cid dev b)) u = some t → ∃ v, u = some v ∧ t.pwr = v.pwr := by
    intro l
    induction l with
    | nil => exact fun u e => ⟨t, e, rfl⟩
    | cons b l ih =>
      intro u e
      obtain ⟨v, hv, ht⟩ := ih _ e
      obtain ⟨w, hw, hb⟩ := Option.bind_eq_some_iff.1 hv
      exact ⟨w, hw, ht.trans (pwr_receiveHandoff hb)⟩
  obtain ⟨v, hv, ht⟩ := g l (some s) h
  cases hv
  exact ht

@[simp] theorem pwr_resumeCopy cid (s : State) l : (resumeCopy cid s l).pwr = s.pwr := by
  rfl

@[simp] theorem pwr_takeStrand cid failed (s : State) x : (takeStrand cid failed s x).pwr = s.pwr := by
  unfold takeStrand
  split <;> simp

@[simp] theorem pwr_tellSource (cid : Nat) (s : State) : (tellSource cid s).pwr = s.pwr := by
  unfold tellSource
  simp

@[simp] theorem pwr_installImage (cid : Nat) (img : MigImage) (s : State) : (installImage cid img s).pwr = s.pwr := by
  unfold installImage
  simp

@[simp] theorem pwr_freeLeaf (s : State) (l : Leaf) : (freeLeaf s l).pwr = s.pwr := by
  unfold freeLeaf
  simp

@[simp] theorem pwr_loseStill sid (s : State) : (loseStill sid s).pwr = s.pwr := by
  unfold loseStill
  simp only [pwr_departStopped, pwr_setStrand, pwr_postRecord]

@[simp] theorem pwr_loseStrand (s : State) sid : (loseStrand s sid).pwr = s.pwr := by
  unfold loseStrand
  split <;> simp only [pwr_strandFault, pwr_loseStill]

@[simp] theorem pwr_gapRecord (s : State) i : (gapRecord s i).pwr = s.pwr := by
  simp [gapRecord]

@[simp] theorem pwr_poisonPage cid page (s : State) : (poisonPage cid page s).pwr = s.pwr := by
  unfold poisonPage
  split <;> simp

@[simp] theorem pwr_abortAt fn (s : State) : (abortAt fn s).pwr = s.pwr := by
  rfl

@[simp] theorem pwr_unsupportedAt (s : State) : (unsupportedAt s).pwr = s.pwr := by
  rfl



theorem pwr_hostRequest (fn : Nat) (ide : Option Nat) (tooLong : Bool) (f : State → State) (s : State) (hf : ∀ s, (f s).pwr = s.pwr) :
    (hostRequest fn ide tooLong f s).pwr = s.pwr := by
  unfold hostRequest
  split
  · simp
  · split
    · simp
    · exact hf s

@[simp] theorem pwr_hostAgain (i : Instr) (t : Torn) (s : State) : (hostAgain i t s).pwr = s.pwr := by
  unfold hostAgain
  rfl

@[simp] theorem pwr_barTwoRead fn at_ len (s : State) : (barTwoRead fn at_ len s).pwr = s.pwr := by
  unfold barTwoRead
  dsimp only
  split
  · simp
  · simp
  · rfl
  · simp
  · simp
  · split
    · simp
    · split
      · simp
      · split
        · simp
        · exact (pwr_hostAgain ..).trans (pwr_vreadFirst ‹_›)

@[simp] theorem pwr_barTwoWrite fn off data ep ide (s : State) : (barTwoWrite fn off data ep ide s).pwr = s.pwr := by
  unfold barTwoWrite
  extract_lets s0 va poison s1
  have e : s1.pwr = s.pwr := by dsimp only [s1]; split <;> simp [s0]
  clear_value s1
  split
  · exact pwr_unsupportedAt ..
  · rfl
  · rfl
  · rfl
  · exact pwr_abortAt ..
  · split
    · exact (pwr_chargeOper ..).trans (pwr_putRest ..)
    · split
      · exact (pwr_abortAt ..).trans e
      · split
        · exact (pwr_logAer ..).trans e
        · exact (pwr_hostAgain ..).trans ((pwr_vwriteFirst ‹_›).trans e)

@[simp] theorem pwr_mfWindow at_ len wr (s : State) : (mfWindow at_ len wr s).pwr = s.pwr := by
  unfold mfWindow
  extract_lets s0 pa n again pj s1
  split
  · exact pwr_unsupportedAt ..
  · split
    · exact (pwr_hostAgain ..).trans (pwr_getFirst ..)
    · rfl
    · refine (pwr_hostAgain ..).trans ((pwr_mfWrites _ _ _ fun s => pwr_putFirst ..).trans ?_)
      split
      · exact pwr_logAer ..
      · rfl
    · exact (pwr_chargeOper ..).trans (pwr_mfWrites _ _ _ fun s => pwr_putRest ..)

@[simp] theorem pwr_copyTimeout (r : Run) (s : State) : (copyTimeout r s).pwr = s.pwr := by
  simp [copyTimeout]

@[simp] theorem pwr_hostReadFails (fn q : Nat) (which : Option Nat) (s : State) : (hostReadFails fn q which s).pwr = s.pwr := by
  unfold hostReadFails
  split
  · simp
  · split <;> simp

@[simp] theorem pwr_mfReset (s : State) : (mfReset s).pwr = s.pwr := by
  rfl

@[simp] theorem pwr_hotClear (s : State) : (hotClear s).pwr = s.pwr := by
  unfold hotClear
  rfl



theorem legal_packageReset (l : List Instr) (s : State) : (packageReset l s).pwr.legal = true := by
  unfold packageReset
  rfl

theorem pwr_onTarget (cid : Nat) {f : Nat → Strand → State} (s : State) (hf : ∀ i t, (f i t).pwr = s.pwr) :
    (onTarget cid s f).pwr = s.pwr := by
  unfold onTarget
  split
  · simp
  · exact hf _ _

@[simp] theorem pwr_dbgBusy (cid : Nat) (s : State) : (dbgBusy cid s).pwr = s.pwr := by
  unfold dbgBusy
  rfl

theorem pwr_dumpParts {cid va : Nat} {l : List (Nat × List Byte × List Nat)} {s t : State}
    (h : dumpParts cid va l s = .ok t) : t.pwr = s.pwr := by
  induction l generalizing s with
  | nil => cases h; rfl
  | cons x l ih =>
    unfold dumpParts at h
    split at h
    · cases h
    · exact (ih h).trans ((pwr_chargeOper ..).trans (pwr_vwrite ‹_›))

theorem pwr_dumpCores {cid va : Nat} {l : List (Nat × Nat)} {s t : State}
    (h : dumpCores cid va l s = .ok t) : t.pwr = s.pwr := by
  induction l generalizing s with
  | nil => cases h; rfl
  | cons x l ih =>
    unfold dumpCores at h
    dsimp only at h
    split at h
    · cases h
    · exact (ih h).trans ((pwr_dumpParts ‹_›).trans (by simp))

@[simp] theorem pwr_cobWrite c r v (s : State) : (cobWrite c r v s).pwr = s.pwr := by
  simp [cobWrite]

@[simp] theorem pwr_unparkOwner (c w cyc : Nat) (s : State) : (unparkOwner c w cyc s).pwr = s.pwr := by
  unfold unparkOwner
  simp

@[simp] theorem pwr_zfillDone (core w : Nat) (parts : W64) (a : BitVec 4) (s : State) : (zfillDone core w parts a s).pwr = s.pwr := by
  unfold zfillDone
  simp

@[simp] theorem pwr_cseRestore (c w pa : Nat) (s : State) : (cseRestore c w pa s).1.pwr = s.pwr := by
  unfold cseRestore
  dsimp only
  repeat' split
  all_goals simp

@[simp] theorem pwr_csePerform (core : Nat) (restore : Bool) (w pa : Nat) (s : State) : (csePerform core restore w pa s).1.pwr = s.pwr := by
  unfold csePerform
  dsimp only
  repeat' (first | split | simp)

@[simp] theorem pwr_cseFailed (sid : Nat) (s : State) : (cseFailed sid s).pwr = s.pwr := by
  unfold cseFailed
  split <;> simp

@[simp] theorem pwr_unfiltered (s : State) : (unfiltered s).pwr = s.pwr := by
  unfold unfiltered
  rfl

theorem legal_hubRead (f o : Nat) (s : State) : (hubRead f o s).2.pwr.legal = s.pwr.legal := legal_regClear f o s

@[simp] theorem pwr_cqRo (fn n i : Nat) (v : W64) (s : State) : (cqRo fn n i v s).pwr = s.pwr := by
  unfold cqRo
  split <;> simp

@[simp] theorem pwr_trcBlockRo (off : Nat) (v : W64) (s : State) : (trcBlockRo off v s).pwr = s.pwr := by
  unfold trcBlockRo
  dsimp only
  repeat' (first | rfl | split)

theorem legal_hbRo (off : Nat) (v : W64) (s : State) (h : s.pwr.legal = true) : (hbRo off v s).pwr.legal = true := by
  have hs : ∀ (a b : BitVec 4), a.toNat ≤ Config.maxStep → (stepRo a b).toNat ≤ Config.maxStep := by
    intro a b ha
    unfold stepRo
    split <;> assumption
  unfold hbRo
  extract_lets k
  by_cases h0 : off = 0x108
  · rw [if_pos h0]
    simp only [Power.legal, Bool.and_eq_true, decide_eq_true_eq] at h ⊢
    exact ⟨⟨⟨hs _ _ h.1.1.1, hs _ _ h.1.1.2⟩, h.1.2⟩, h.2⟩
  · rw [if_neg h0]
    refine (congrArg Power.legal ?_).trans h
    split
    · rfl
    · split
      · rfl
      · split
        · refine pwr_foldl_trans (fun s i => ?_) rfl
          dsimp only
          split
          · rfl
          · exact pwr_setCore ..
        · split
          · rfl
          · split
            · split <;> rfl
            · split
              · rfl
              · split <;> rfl

theorem legal_roPut (fn off : Nat) (v : W64) (s : State) (h : s.pwr.legal = true) : (roPut fn off v s).pwr.legal = true := by
  have hc : ∀ o (u : State), (if 0x2000 ≤ o ∧ o < 0x2800 then cqRo fn ((o - 0x2000) / 0x20) (o % 0x20 / 8) v u else u).pwr = u.pwr := by
    intro o u
    split <;> simp
  unfold roPut
  dsimp only
  split
  · split
    · exact h
    · split
      · exact h
      · split
        · exact h
        · rw [hc]; exact h
  · split
    · rw [hc]; exact h
    · exact legal_hbRo _ _ _ h
    · exact h
    · exact h
    · rw [pwr_trcBlockRo]; exact h
    · exact h
    · split <;> exact h
    · exact h

theorem legal_hubWrite (f o : Nat) (v : W64) (s : State) (h : s.pwr.legal = true) : (hubWrite f o v s).pwr.legal = true := by
  unfold hubWrite
  split
  · rw [pwr_qcbFirmware]; exact h
  · rw [pwr_regPut]; exact legal_roPut _ _ _ _ h

@[simp] theorem pwr_reservedWrite c off b (s : State) : (reservedWrite c off b s).pwr = s.pwr := by
  simp [reservedWrite]

theorem legal_xphyPerform (c : Nat) (x : Xphy) (s : State) (h : s.pwr.legal = true) : (xphyPerform c x s).1.pwr.legal = true := by
  unfold xphyPerform
  dsimp only
  split
  · exact h
  · split
    · split
      · split
        · exact legal_hubWrite _ _ _ _ h
        · exact h
      · rw [pwr_reservedWrite]; exact h
    · split <;> simpa using h

theorem legal_xphyEnd (core : Nat) (x : Xphy) (s : State) (h : s.pwr.legal = true) : (xphyEnd core x s).pwr.legal = true := by
  have e := legal_xphyPerform core x s h
  unfold xphyEnd
  dsimp only
  split <;> simpa using e

@[simp] theorem pwr_xphyAgain (core : Nat) (x : Xphy) (at_ : Nat) (s : State) : (xphyAgain core x at_ s).pwr = s.pwr := by
  unfold xphyAgain
  rfl

@[simp] theorem pwr_completeUpdate area (s : State) e : (completeUpdate area s e).pwr = s.pwr := by
  have hf : ([0, 1, 2, 3, 5].foldl (fun s i => qcbFirmware e.2.1 e.2.2.1 i (e.2.2.2.getD i (qcbWord e.2.1 (s.queue e.2.1 e.2.2.1) i)) s) s).pwr = s.pwr :=
    pwr_foldl (fun s i => pwr_qcbFirmware ..) ..
  unfold completeUpdate
  dsimp only
  split
  · rfl
  · split
    · exact (pwr_qcbFirmware ..).trans hf
    · exact hf

@[simp] theorem pwr_clearEntry (core off valid : Nat) (s : State) : (clearEntry core off valid s).pwr = s.pwr := by
  unfold clearEntry
  rfl

@[simp] theorem pwr_examineJournal (core : Nat) (s : State) : (examineJournal core s).pwr = s.pwr := by
  unfold examineJournal
  dsimp only
  split
  · simp
  · exact pwr_foldl_trans (fun s e => pwr_clearEntry ..) (pwr_foldl (fun s e => pwr_completeUpdate ..) ..)

@[simp] theorem pwr_lockoutNotice (c : Nat) (s : State) : (lockoutNotice c s).pwr = s.pwr := by
  unfold lockoutNotice
  split
  · rfl
  · dsimp only
    split <;> simp

@[simp] theorem pwr_loseOwner (core w : Nat) (s : State) : (loseOwner core w s).pwr = s.pwr := by
  unfold loseOwner
  simp

@[simp] theorem pwr_lockOwner (core : Nat) (s : State) (x : Nat × Owner) : (lockOwner core s x).pwr = s.pwr := by
  unfold lockOwner
  simp

@[simp] theorem pwr_signalAnswered q ok fn qn ecq tag w3 (s : State) : (signalAnswered q ok fn qn ecq tag w3 s).pwr = s.pwr := by
  unfold signalAnswered
  dsimp only
  split
  · simp
  · split <;> simp

@[simp] theorem pwr_answered q r (s : State) : (answered q r s).pwr = s.pwr := by
  unfold answered
  dsimp only
  split
  · simp
  · simp
  · simp
  · split <;> simp
  · simp
  · rfl
  · split <;> simp
  · simp

@[simp] theorem pwr_answerTo rid r (s : State) : (answerTo rid r s).pwr = s.pwr := by
  unfold answerTo
  split <;> simp

@[simp] theorem pwr_replayPort port (s : State) : (replayPort port s).pwr = s.pwr := by
  simp [replayPort]

@[simp] theorem pwr_releaseFlits port n (s : State) : (releaseFlits port n s).pwr = s.pwr := by
  simp [releaseFlits]

@[simp] theorem pwr_sendAck port nak seq (s : State) : (sendAck port nak seq s).pwr = s.pwr := by
  simp [sendAck]

@[simp] theorem pwr_crcFailure port f (s : State) : (crcFailure port f s).pwr = s.pwr := by
  unfold crcFailure
  dsimp only
  simp

@[simp] theorem pwr_takeFlit f (s : State) : (takeFlit f s).pwr = s.pwr := by
  unfold takeFlit
  repeat' (first | split | simp)

@[simp] theorem pwr_forwardFlit f (s : State) : (forwardFlit f s).pwr = s.pwr := by
  simp [forwardFlit]

@[simp] theorem pwr_setRoute dst r (s : State) : (setRoute dst r s).pwr = s.pwr := by
  rfl

@[simp] theorem pwr_answerPeer r a (s : State) : (answerPeer r a s).pwr = s.pwr := by
  simp [answerPeer]

@[simp] theorem pwr_refusePeer r cause (s : State) : (refusePeer r cause s).pwr = s.pwr := by
  simp [refusePeer]

@[simp] theorem pwr_busyWith (r : PeerReq) (s : State) : (busyWith r s).pwr = s.pwr := by
  unfold busyWith
  rfl

@[simp] theorem pwr_peerDone (r : PeerReq) (a : RemoteResp) (s : State) : (peerDone r a s).pwr = s.pwr := by
  unfold peerDone
  dsimp only
  split <;> simp

@[simp] theorem pwr_peerFails (r : PeerReq) (cause : Cause) (s : State) : (peerFails r cause s).pwr = s.pwr := by
  unfold peerFails
  simp

@[simp] theorem pwr_holdPeer r page write (s : State) : (holdPeer r page write s).pwr = s.pwr := by
  simp [holdPeer]

@[simp] theorem pwr_peerError r write e (s : State) : (peerError r write e s).pwr = s.pwr := by
  unfold peerError
  split <;> simp

@[simp] theorem pwr_peerEnergy r n (s : State) : (peerEnergy r n s).pwr = s.pwr := by
  rfl

@[simp] theorem pwr_tearPeer (r : PeerReq) (t : Torn) (s : State) : (tearPeer r t s).pwr = s.pwr := by
  unfold tearPeer
  rfl

@[simp] theorem pwr_peerWrite r d poison (s : State) : (peerWrite r d poison s).pwr = s.pwr := by
  unfold peerWrite
  split
  · split
    · simp
    · exact (pwr_tearPeer ..).trans (pwr_vwriteFirst ‹_›)
  · simp

@[simp] theorem pwr_peerRead (r : PeerReq) (n : Nat) (s : State) : (peerRead r n s).pwr = s.pwr := by
  unfold peerRead
  split
  · split
    · simp
    · exact (pwr_tearPeer ..).trans (pwr_vreadFirst ‹_›)
  · simp

@[simp] theorem pwr_peerNotify (r : PeerReq) (q : Nat) (v : W32) (s : State) : (peerNotify r q v s).pwr = s.pwr := by
  unfold peerNotify
  simp

@[simp] theorem pwr_peerSignal r w3 tag q write (s : State) : (peerSignal r w3 tag q write s).pwr = s.pwr := by
  unfold peerSignal
  exact pwr_atCfeSlot _ (fun s => by simp) s

@[simp] theorem pwr_performPeer (r : PeerReq) (s : State) : (performPeer r s).pwr = s.pwr := by
  unfold performPeer
  dsimp only
  split
  all_goals
    first
    | (simp; done)
    | (split
       · simp
       · first
         | (simp; done)
         | (simp [pwr_vwrite ‹vwrite _ _ _ _ _ = .ok _›]; done)
         | simp [pwr_atomicAt ‹atomicAt _ _ _ _ _ _ = .ok _›])

@[simp] theorem pwr_performGranted r (s : State) : (performGranted r s).pwr = s.pwr := by
  unfold performGranted
  repeat' (first | split | simp)

@[simp] theorem pwr_newPeer (r : PeerReq) (s : State) : (newPeer r s).pwr = s.pwr := by
  unfold newPeer
  simp

@[simp] theorem pwr_sendRelease gid gen dev (s : State) : (sendRelease gid gen dev s).pwr = s.pwr := by
  simp [sendRelease]

@[simp] theorem pwr_takeDue (s : State) : (takeDue s).pwr = s.pwr := by
  rfl

@[simp] theorem pwr_stallFaults (s : State) : (stallFaults s).pwr = s.pwr := by
  simp [stallFaults]

@[simp] theorem pwr_sendBarriers (s : State) : (sendBarriers s).pwr = s.pwr := by
  simp [sendBarriers]

@[simp] theorem pwr_nsEdge (s : State) : (nsEdge s).pwr = s.pwr := by
  unfold nsEdge
  extract_lets s'
  have e : s'.pwr = s.pwr := rfl
  clear_value s'
  split
  · exact (pwr_soon ..).trans e
  · exact e

@[simp] theorem pwr_nextCycle (s : State) : (nextCycle s).pwr = s.pwr := by
  simp [nextCycle]

@[simp] theorem pwr_takeRephase (s : State) : (takeRephase s).pwr = s.pwr := by
  rfl

@[simp] theorem pwr_closeRevolution (s : State) : (closeRevolution s).pwr = s.pwr := by
  unfold closeRevolution
  rfl

@[simp] theorem pwr_packageTurn (s : State) : (packageTurn s).pwr = s.pwr := by
  simp [packageTurn]

@[simp] theorem pwr_endCycle (s : State) : (endCycle s).pwr = s.pwr := by
  simp [endCycle]

@[simp] theorem pwr_switches (s : State) : (switches s).pwr = s.pwr := by
  unfold switches
  simp

theorem pwr_takeEarly {s t : State} (h : takeEarly s = some t) : t.pwr = s.pwr := by
  unfold takeEarly at h
  split at h
  · cases h; rfl
  · simp only [Option.map_eq_some_iff] at h
    obtain ⟨x, -, rfl⟩ := h
    rfl

@[simp] theorem pwr_watchdog sid (s : State) : (watchdog sid s).pwr = s.pwr := by
  simp [watchdog]

@[simp] theorem pwr_ownerTick (t : Strand) (s : State) (x : Nat × Nat) : (ownerTick t s x).pwr = s.pwr := by
  unfold ownerTick
  simp

@[simp] theorem pwr_beginTick sid (s : State) : (beginTick sid s).pwr = s.pwr := by
  simp [beginTick]

@[simp] theorem pwr_emptyCycle sid (s : State) : (emptyCycle sid s).pwr = s.pwr := by
  rfl

@[simp] theorem pwr_drainOwner (t : Strand) (c w : Nat) (s : State) : (drainOwner t c w s).pwr = s.pwr := by
  unfold drainOwner
  simp

@[simp] theorem pwr_ownerCuts (t : Strand) (s : State) (x : Nat × Nat) : (ownerCuts t s x).pwr = s.pwr := by
  unfold ownerCuts
  simp

@[simp] theorem pwr_stalledCycle sid (s : State) : (stalledCycle sid s).pwr = s.pwr := by
  unfold stalledCycle
  dsimp only
  split <;> simp

@[simp] theorem pwr_drainingCycle sid (s : State) : (drainingCycle sid s).pwr = s.pwr := by
  simp [drainingCycle]

@[simp] theorem pwr_runningCycle sid (s : State) : (runningCycle sid s).pwr = s.pwr := by
  unfold runningCycle
  extract_lets t asks
  clear_value asks
  split
  · simp
  · split <;> simp
  · split <;> simp

@[simp] theorem pwr_stoppingCycle (sid : Nat) (s : State) : (stoppingCycle sid s).pwr = s.pwr := by
  unfold stoppingCycle
  simp

@[simp] theorem pwr_classCycle sid (s : State) : (classCycle sid s).pwr = s.pwr := by
  unfold classCycle
  extract_lets t cuts s1 t1 s2
  have h1 : s1.pwr = s.pwr := by
    dsimp only [s1]
    split
    · exact pwr_foldl (fun s x => pwr_ownerCuts ..) ..
    · rfl
  clear_value s1
  have h2 : s2.pwr = s.pwr := by
    dsimp only [s2]
    split
    · exact (pwr_watchdog ..).trans h1
    · exact h1
  clear_value s2
  split
  · simp [h1]
  · split
    · exact h1
    · split
      · split <;> simp [h2]
      · split <;> simp [h2]
      · split <;> simp [h2]
      · split <;> simp [h2]
      · exact h2

@[simp] theorem pwr_chargeHeld (s : State) x : (chargeHeld s x).pwr = s.pwr := by
  unfold chargeHeld
  split <;> simp

@[simp] theorem pwr_chargeCycle (s : State) : (chargeCycle s).pwr = s.pwr := by
  simp [chargeCycle]

@[simp] theorem pwr_cobIssue c (s : State) : (cobIssue c s).pwr = s.pwr := by
  simp [cobIssue]

@[simp] theorem pwr_cobCycle c (s : State) : (cobCycle c s).pwr = s.pwr := by
  unfold cobCycle
  split <;> simp

@[simp] theorem pwr_cobWatchdog c (s : State) : (cobWatchdog c s).pwr = s.pwr := by
  simp [cobWatchdog]

@[simp] theorem pwr_cobTurn (s : State) x : (cobTurn s x).pwr = s.pwr := by
  simp [cobTurn]

@[simp] theorem pwr_beginCycle (s : State) : (beginCycle s).pwr = s.pwr := by
  unfold beginCycle
  exact pwr_foldl_trans (fun s x => pwr_cobTurn ..) ((pwr_chargeCycle ..).trans (pwr_foldl (fun s x => pwr_classCycle ..) ..))

@[simp] theorem pwr_traceTurn (s : State) (x : Nat × CoreSt) : (traceTurn s x).pwr = s.pwr := by
  unfold traceTurn
  simp

@[simp] theorem pwr_settleOwner (s : State) (x : Nat × Nat) : (settleOwner s x).pwr = s.pwr := by
  unfold settleOwner
  simp

@[simp] theorem pwr_settleTokens (s : State) : (settleTokens s).pwr = s.pwr := by
  unfold settleTokens
  simp

@[simp] theorem pwr_perform (i : Instr) (l : List Instr) (s : State) : (perform i l s).pwr = s.pwr := by
  unfold perform
  rfl

@[simp] theorem pwr_performDue (s : State) : (performDue s).pwr = s.pwr := by
  unfold performDue
  dsimp only
  split <;> simp

@[simp] theorem pwr_issued (s : State) : (issued s).pwr = s.pwr := by
  unfold issued
  split <;> simp

@[simp] theorem pwr_accesses (s : State) : (accesses s).pwr = s.pwr := by
  unfold accesses
  split
  · simp
  · cases h : takeEarly s with
    | none => exact pwr_switches ..
    | some t => exact pwr_takeEarly h

@[simp] theorem pwr_placeWord (s : State) st ps : (placeWord s st ps).pwr = s.pwr := by
  rfl

@[simp] theorem pwr_withFetchWord (s : State) nbits w : (State.withFetchWord s nbits w).pwr = s.pwr := by
  rfl

/-! ### The operations -/

theorem pwr_issue {h : Hd} {g : Bool} {occ : Nat} {fw : Bool} {body : Body} {s t : State}
    (e : issue h g occ fw body s = .next t) : t.pwr = s.pwr := by
  unfold issue at e
  cases e
  split <;> simp

/-- A system instruction's own part keeps the settings of the governor. -/
def KeepsPwr (s : State) : SysOut → Prop
  | .done t => t.pwr = s.pwr
  | .wait t => t.pwr = s.pwr
  | .lock => True

theorem keepsPwr_ite {s : State} {c : Prop} [Decidable c] {a b : SysOut} (ha : KeepsPwr s a) (hb : KeepsPwr s b) :
    KeepsPwr s (if c then a else b) := by
  split
  · exact ha
  · exact hb

theorem pwr_issueSys {h : Hd} {act : Nat → Cobbler → State → SysOut} {s t : State}
    (ha : ∀ c b s, KeepsPwr s (act c b s)) (e : issueSys h act s = .next t) : t.pwr = s.pwr := by
  unfold issueSys at e
  dsimp only at e
  split at e
  · cases e
  · cases e
    split
    · simp
    · split
      · simp
      · have := ha s.cur.core (s.cob s.cur.core) s
        split
        · simp_all [KeepsPwr]
        · simp_all [KeepsPwr]
        · simp

theorem pwr_execNop {h} {s t : State} (h : execNop h s = .next t) : t.pwr = s.pwr := by
  exact pwr_issue h

theorem pwr_execIdle {h k} {s t : State} (h : execIdle h k s = .next t) : t.pwr = s.pwr := by
  exact pwr_issue h

theorem pwr_execEndS {h} {s t : State} (h : execEndS h s = .next t) : t.pwr = s.pwr := by
  exact pwr_issue h

theorem pwr_execBlockHeader {len cs stg cnt} {s t : State} (h : execBlockHeader len cs stg cnt s = .next t) : t.pwr = s.pwr := by
  unfold execBlockHeader at h
  dsimp only at h
  split at h
  · split at h
    · injection h with h; subst h; simp
    · injection h with h; subst h; simp
  · injection h with h; subst h; simp

theorem pwr_execAdd {h a b c} {s t : State} (h : execAdd h a b c s = .next t) : t.pwr = s.pwr := by
  exact pwr_issue h

theorem pwr_execSub {h a b c} {s t : State} (h : execSub h a b c s = .next t) : t.pwr = s.pwr := by
  exact pwr_issue h

theorem pwr_execAnd {h a b c} {s t : State} (h : execAnd h a b c s = .next t) : t.pwr = s.pwr := by
  exact pwr_issue h

theorem pwr_execOr {h a b c} {s t : State} (h : execOr h a b c s = .next t) : t.pwr = s.pwr := by
  exact pwr_issue h

theorem pwr_execXor {h a b c} {s t : State} (h : execXor h a b c s = .next t) : t.pwr = s.pwr := by
  exact pwr_issue h

theorem pwr_execShl {h a b c} {s t : State} (h : execShl h a b c s = .next t) : t.pwr = s.pwr := by
  exact pwr_issue h

theorem pwr_execShr {h a b c} {s t : State} (h : execShr h a b c s = .next t) : t.pwr = s.pwr := by
  exact pwr_issue h

theorem pwr_execSar {h a b c} {s t : State} (h : execSar h a b c s = .next t) : t.pwr = s.pwr := by
  exact pwr_issue h

theorem pwr_execMul {h a b c} {s t : State} (h : execMul h a b c s = .next t) : t.pwr = s.pwr := by
  exact pwr_issue h

theorem pwr_execMulh {h a b c} {s t : State} (h : execMulh h a b c s = .next t) : t.pwr = s.pwr := by
  exact pwr_issue h

theorem pwr_execMulhu {h a b c} {s t : State} (h : execMulhu h a b c s = .next t) : t.pwr = s.pwr := by
  exact pwr_issue h

theorem pwr_execMin {h a b c} {s t : State} (h : execMin h a b c s = .next t) : t.pwr = s.pwr := by
  exact pwr_issue h

theorem pwr_execMax {h a b c} {s t : State} (h : execMax h a b c s = .next t) : t.pwr = s.pwr := by
  exact pwr_issue h

theorem pwr_execMinu {h a b c} {s t : State} (h : execMinu h a b c s = .next t) : t.pwr = s.pwr := by
  exact pwr_issue h

theorem pwr_execMaxu {h a b c} {s t : State} (h : execMaxu h a b c s = .next t) : t.pwr = s.pwr := by
  exact pwr_issue h

theorem pwr_execRotl {h a b c} {s t : State} (h : execRotl h a b c s = .next t) : t.pwr = s.pwr := by
  exact pwr_issue h

theorem pwr_execRotr {h a b c} {s t : State} (h : execRotr h a b c s = .next t) : t.pwr = s.pwr := by
  exact pwr_issue h

theorem pwr_execDiv {h a b c} {s t : State} (h : execDiv h a b c s = .next t) : t.pwr = s.pwr := by
  exact pwr_issue h

theorem pwr_execDivu {h a b c} {s t : State} (h : execDivu h a b c s = .next t) : t.pwr = s.pwr := by
  exact pwr_issue h

theorem pwr_execRem {h a b c} {s t : State} (h : execRem h a b c s = .next t) : t.pwr = s.pwr := by
  exact pwr_issue h

theorem pwr_execRemu {h a b c} {s t : State} (h : execRemu h a b c s = .next t) : t.pwr = s.pwr := by
  exact pwr_issue h

theorem pwr_execClz {h a b} {s t : State} (h : execClz h a b s = .next t) : t.pwr = s.pwr := by
  exact pwr_issue h

theorem pwr_execCtz {h a b} {s t : State} (h : execCtz h a b s = .next t) : t.pwr = s.pwr := by
  exact pwr_issue h

theorem pwr_execPopc {h a b} {s t : State} (h : execPopc h a b s = .next t) : t.pwr = s.pwr := by
  exact pwr_issue h

theorem pwr_execAbs {h a b} {s t : State} (h : execAbs h a b s = .next t) : t.pwr = s.pwr := by
  exact pwr_issue h

theorem pwr_execSextB {h a b} {s t : State} (h : execSextB h a b s = .next t) : t.pwr = s.pwr := by
  exact pwr_issue h

theorem pwr_execSextH {h a b} {s t : State} (h : execSextH h a b s = .next t) : t.pwr = s.pwr := by
  exact pwr_issue h

theorem pwr_execSextW {h a b} {s t : State} (h : execSextW h a b s = .next t) : t.pwr = s.pwr := by
  exact pwr_issue h

theorem pwr_execZextB {h a b} {s t : State} (h : execZextB h a b s = .next t) : t.pwr = s.pwr := by
  exact pwr_issue h

theorem pwr_execZextH {h a b} {s t : State} (h : execZextH h a b s = .next t) : t.pwr = s.pwr := by
  exact pwr_issue h

theorem pwr_execZextW {h a b} {s t : State} (h : execZextW h a b s = .next t) : t.pwr = s.pwr := by
  exact pwr_issue h

theorem pwr_execBswap {h a b} {s t : State} (h : execBswap h a b s = .next t) : t.pwr = s.pwr := by
  exact pwr_issue h

theorem pwr_execSel {h sl a b c} {s t : State} (h : execSel h sl a b c s = .next t) : t.pwr = s.pwr := by
  exact pwr_issue h

theorem pwr_execCsel {h sl a b c} {s t : State} (h : execCsel h sl a b c s = .next t) : t.pwr = s.pwr := by
  exact pwr_issue h

theorem pwr_execCeq {h a b c} {s t : State} (h : execCeq h a b c s = .next t) : t.pwr = s.pwr := by
  exact pwr_issue h

theorem pwr_execCne {h a b c} {s t : State} (h : execCne h a b c s = .next t) : t.pwr = s.pwr := by
  exact pwr_issue h

theorem pwr_execClt {h a b c} {s t : State} (h : execClt h a b c s = .next t) : t.pwr = s.pwr := by
  exact pwr_issue h

theorem pwr_execCltu {h a b c} {s t : State} (h : execCltu h a b c s = .next t) : t.pwr = s.pwr := by
  exact pwr_issue h

theorem pwr_execCle {h a b c} {s t : State} (h : execCle h a b c s = .next t) : t.pwr = s.pwr := by
  exact pwr_issue h

theorem pwr_execCleu {h a b c} {s t : State} (h : execCleu h a b c s = .next t) : t.pwr = s.pwr := by
  exact pwr_issue h

theorem pwr_execAddi {h a k} {s t : State} (h : execAddi h a k s = .next t) : t.pwr = s.pwr := by
  exact pwr_issue h

theorem pwr_execAndi {h a k} {s t : State} (h : execAndi h a k s = .next t) : t.pwr = s.pwr := by
  exact pwr_issue h

theorem pwr_execOri {h a k} {s t : State} (h : execOri h a k s = .next t) : t.pwr = s.pwr := by
  exact pwr_issue h

theorem pwr_execXori {h a k} {s t : State} (h : execXori h a k s = .next t) : t.pwr = s.pwr := by
  exact pwr_issue h

theorem pwr_execShli {h a k} {s t : State} (h : execShli h a k s = .next t) : t.pwr = s.pwr := by
  exact pwr_issue h

theorem pwr_execShri {h a k} {s t : State} (h : execShri h a k s = .next t) : t.pwr = s.pwr := by
  exact pwr_issue h

theorem pwr_execSari {h a k} {s t : State} (h : execSari h a k s = .next t) : t.pwr = s.pwr := by
  exact pwr_issue h

theorem pwr_execCeqi {h a p k} {s t : State} (h : execCeqi h a p k s = .next t) : t.pwr = s.pwr := by
  exact pwr_issue h

theorem pwr_execClti {h a p k} {s t : State} (h : execClti h a p k s = .next t) : t.pwr = s.pwr := by
  exact pwr_issue h

theorem pwr_execCltui {h a p k} {s t : State} (h : execCltui h a p k s = .next t) : t.pwr = s.pwr := by
  exact pwr_issue h

theorem pwr_execMovi {h a k} {s t : State} (h : execMovi h a k s = .next t) : t.pwr = s.pwr := by
  exact pwr_issue h

theorem pwr_execMovh {h a k} {s t : State} (h : execMovh h a k s = .next t) : t.pwr = s.pwr := by
  exact pwr_issue h

theorem pwr_execInc {h a} {s t : State} (h : execInc h a s = .next t) : t.pwr = s.pwr := by
  exact pwr_issue h

theorem pwr_execDec {h a} {s t : State} (h : execDec h a s = .next t) : t.pwr = s.pwr := by
  exact pwr_issue h

theorem pwr_execNeg {h a} {s t : State} (h : execNeg h a s = .next t) : t.pwr = s.pwr := by
  exact pwr_issue h

theorem pwr_execNot {h a} {s t : State} (h : execNot h a s = .next t) : t.pwr = s.pwr := by
  exact pwr_issue h

theorem pwr_execClr {h a} {s t : State} (h : execClr h a s = .next t) : t.pwr = s.pwr := by
  exact pwr_issue h

theorem pwr_execPand {h a b c} {s t : State} (h : execPand h a b c s = .next t) : t.pwr = s.pwr := by
  exact pwr_issue h

theorem pwr_execPor {h a b c} {s t : State} (h : execPor h a b c s = .next t) : t.pwr = s.pwr := by
  exact pwr_issue h

theorem pwr_execPxor {h a b c} {s t : State} (h : execPxor h a b c s = .next t) : t.pwr = s.pwr := by
  exact pwr_issue h

theorem pwr_execPmov {h a b} {s t : State} (h : execPmov h a b s = .next t) : t.pwr = s.pwr := by
  exact pwr_issue h

theorem pwr_execPclr {h a} {s t : State} (h : execPclr h a s = .next t) : t.pwr = s.pwr := by
  exact pwr_issue h

theorem pwr_execPset {h a} {s t : State} (h : execPset h a s = .next t) : t.pwr = s.pwr := by
  exact pwr_issue h

theorem pwr_execPnot {h a} {s t : State} (h : execPnot h a s = .next t) : t.pwr = s.pwr := by
  exact pwr_issue h

theorem pwr_execMma {h oa n} {s t : State} (h : execMma h oa n s = .next t) : t.pwr = s.pwr := by
  exact pwr_issue h

theorem pwr_execMmaw {h oa n} {s t : State} (h : execMmaw h oa n s = .next t) : t.pwr = s.pwr := by
  exact pwr_issue h

theorem pwr_execRadv {h} {s t : State} (h : execRadv h s = .next t) : t.pwr = s.pwr := by
  exact pwr_issue h

theorem pwr_execRskip {h} {s t : State} (h : execRskip h s = .next t) : t.pwr = s.pwr := by
  exact pwr_issue h

theorem pwr_execMclr {h} {s t : State} (h : execMclr h s = .next t) : t.pwr = s.pwr := by
  exact pwr_issue h

theorem pwr_execTcfg {h oa w} {s t : State} (h : execTcfg h oa w s = .next t) : t.pwr = s.pwr := by
  exact pwr_issue h

theorem pwr_execTeval {h oa} {s t : State} (h : execTeval h oa s = .next t) : t.pwr = s.pwr := by
  exact pwr_issue h

theorem pwr_execTmask {h k} {s t : State} (h : execTmask h k s = .next t) : t.pwr = s.pwr := by
  exact pwr_issue h

theorem pwr_execTclr {h} {s t : State} (h : execTclr h s = .next t) : t.pwr = s.pwr := by
  exact pwr_issue h

theorem pwr_execVfadd {h a b c} {s t : State} (h : execVfadd h a b c s = .next t) : t.pwr = s.pwr := by
  exact pwr_issue h

theorem pwr_execVfsub {h a b c} {s t : State} (h : execVfsub h a b c s = .next t) : t.pwr = s.pwr := by
  exact pwr_issue h

theorem pwr_execVfmul {h a b c} {s t : State} (h : execVfmul h a b c s = .next t) : t.pwr = s.pwr := by
  exact pwr_issue h

theorem pwr_execVfma {h a b c} {s t : State} (h : execVfma h a b c s = .next t) : t.pwr = s.pwr := by
  exact pwr_issue h

theorem pwr_execVfms {h a b c} {s t : State} (h : execVfms h a b c s = .next t) : t.pwr = s.pwr := by
  exact pwr_issue h

theorem pwr_execVfnma {h a b c} {s t : State} (h : execVfnma h a b c s = .next t) : t.pwr = s.pwr := by
  exact pwr_issue h

theorem pwr_execVfnms {h a b c} {s t : State} (h : execVfnms h a b c s = .next t) : t.pwr = s.pwr := by
  exact pwr_issue h

theorem pwr_execVfdiv {h a b c} {s t : State} (h : execVfdiv h a b c s = .next t) : t.pwr = s.pwr := by
  exact pwr_issue h

theorem pwr_execVfmin {h a b c} {s t : State} (h : execVfmin h a b c s = .next t) : t.pwr = s.pwr := by
  exact pwr_issue h

theorem pwr_execVfmax {h a b c} {s t : State} (h : execVfmax h a b c s = .next t) : t.pwr = s.pwr := by
  exact pwr_issue h

theorem pwr_execVfabs {h a b} {s t : State} (h : execVfabs h a b s = .next t) : t.pwr = s.pwr := by
  exact pwr_issue h

theorem pwr_execVfneg {h a b} {s t : State} (h : execVfneg h a b s = .next t) : t.pwr = s.pwr := by
  exact pwr_issue h

theorem pwr_execVffloor {h a b} {s t : State} (h : execVffloor h a b s = .next t) : t.pwr = s.pwr := by
  exact pwr_issue h

theorem pwr_execVfround {h a b} {s t : State} (h : execVfround h a b s = .next t) : t.pwr = s.pwr := by
  exact pwr_issue h

theorem pwr_execVfclass {h a b} {s t : State} (h : execVfclass h a b s = .next t) : t.pwr = s.pwr := by
  exact pwr_issue h

theorem pwr_execVfrcp {h a b} {s t : State} (h : execVfrcp h a b s = .next t) : t.pwr = s.pwr := by
  exact pwr_issue h

theorem pwr_execVfsqrt {h a b} {s t : State} (h : execVfsqrt h a b s = .next t) : t.pwr = s.pwr := by
  exact pwr_issue h

theorem pwr_execVfrsq {h a b} {s t : State} (h : execVfrsq h a b s = .next t) : t.pwr = s.pwr := by
  exact pwr_issue h

theorem pwr_execVfexp2 {h a b} {s t : State} (h : execVfexp2 h a b s = .next t) : t.pwr = s.pwr := by
  exact pwr_issue h

theorem pwr_execVflog2 {h a b} {s t : State} (h : execVflog2 h a b s = .next t) : t.pwr = s.pwr := by
  exact pwr_issue h

theorem pwr_execVftanh {h a b} {s t : State} (h : execVftanh h a b s = .next t) : t.pwr = s.pwr := by
  exact pwr_issue h

theorem pwr_execVfsigm {h a b} {s t : State} (h : execVfsigm h a b s = .next t) : t.pwr = s.pwr := by
  exact pwr_issue h

theorem pwr_execVadd {h a b c} {s t : State} (h : execVadd h a b c s = .next t) : t.pwr = s.pwr := by
  exact pwr_issue h

theorem pwr_execVsub {h a b c} {s t : State} (h : execVsub h a b c s = .next t) : t.pwr = s.pwr := by
  exact pwr_issue h

theorem pwr_execVadds {h a b c} {s t : State} (h : execVadds h a b c s = .next t) : t.pwr = s.pwr := by
  exact pwr_issue h

theorem pwr_execVsubs {h a b c} {s t : State} (h : execVsubs h a b c s = .next t) : t.pwr = s.pwr := by
  exact pwr_issue h

theorem pwr_execVmul {h a b c} {s t : State} (h : execVmul h a b c s = .next t) : t.pwr = s.pwr := by
  exact pwr_issue h

theorem pwr_execVmulh {h a b c} {s t : State} (h : execVmulh h a b c s = .next t) : t.pwr = s.pwr := by
  exact pwr_issue h

theorem pwr_execVmin {h a b c} {s t : State} (h : execVmin h a b c s = .next t) : t.pwr = s.pwr := by
  exact pwr_issue h

theorem pwr_execVmax {h a b c} {s t : State} (h : execVmax h a b c s = .next t) : t.pwr = s.pwr := by
  exact pwr_issue h

theorem pwr_execVminu {h a b c} {s t : State} (h : execVminu h a b c s = .next t) : t.pwr = s.pwr := by
  exact pwr_issue h

theorem pwr_execVmaxu {h a b c} {s t : State} (h : execVmaxu h a b c s = .next t) : t.pwr = s.pwr := by
  exact pwr_issue h

theorem pwr_execVabs {h a b} {s t : State} (h : execVabs h a b s = .next t) : t.pwr = s.pwr := by
  exact pwr_issue h

theorem pwr_execVand {h a b c} {s t : State} (h : execVand h a b c s = .next t) : t.pwr = s.pwr := by
  exact pwr_issue h

theorem pwr_execVor {h a b c} {s t : State} (h : execVor h a b c s = .next t) : t.pwr = s.pwr := by
  exact pwr_issue h

theorem pwr_execVxor {h a b c} {s t : State} (h : execVxor h a b c s = .next t) : t.pwr = s.pwr := by
  exact pwr_issue h

theorem pwr_execVnot {h a b} {s t : State} (h : execVnot h a b s = .next t) : t.pwr = s.pwr := by
  exact pwr_issue h

theorem pwr_execVshl {h a b c} {s t : State} (h : execVshl h a b c s = .next t) : t.pwr = s.pwr := by
  exact pwr_issue h

theorem pwr_execVshr {h a b c} {s t : State} (h : execVshr h a b c s = .next t) : t.pwr = s.pwr := by
  exact pwr_issue h

theorem pwr_execVsar {h a b c} {s t : State} (h : execVsar h a b c s = .next t) : t.pwr = s.pwr := by
  exact pwr_issue h

theorem pwr_execVshli {h a b k} {s t : State} (h : execVshli h a b k s = .next t) : t.pwr = s.pwr := by
  exact pwr_issue h

theorem pwr_execVshri {h a b k} {s t : State} (h : execVshri h a b k s = .next t) : t.pwr = s.pwr := by
  exact pwr_issue h

theorem pwr_execVsari {h a b k} {s t : State} (h : execVsari h a b k s = .next t) : t.pwr = s.pwr := by
  exact pwr_issue h

theorem pwr_execVpopc {h a b} {s t : State} (h : execVpopc h a b s = .next t) : t.pwr = s.pwr := by
  exact pwr_issue h

theorem pwr_execVclz {h a b} {s t : State} (h : execVclz h a b s = .next t) : t.pwr = s.pwr := by
  exact pwr_issue h

theorem pwr_execVctz {h a b} {s t : State} (h : execVctz h a b s = .next t) : t.pwr = s.pwr := by
  exact pwr_issue h

theorem pwr_execVbrev {h a b} {s t : State} (h : execVbrev h a b s = .next t) : t.pwr = s.pwr := by
  exact pwr_issue h

theorem pwr_execVclmulL {h a b c} {s t : State} (h : execVclmulL h a b c s = .next t) : t.pwr = s.pwr := by
  exact pwr_issue h

theorem pwr_execVclmulH {h a b c} {s t : State} (h : execVclmulH h a b c s = .next t) : t.pwr = s.pwr := by
  exact pwr_issue h

theorem pwr_execVdot2Bf {h a b c} {s t : State} (h : execVdot2Bf h a b c s = .next t) : t.pwr = s.pwr := by
  exact pwr_issue h

theorem pwr_execVdot4I8 {h a b c} {s t : State} (h : execVdot4I8 h a b c s = .next t) : t.pwr = s.pwr := by
  exact pwr_issue h

theorem pwr_execVfcmpEq {h a b c} {s t : State} (h : execVfcmpEq h a b c s = .next t) : t.pwr = s.pwr := by
  exact pwr_issue h

theorem pwr_execVfcmpNe {h a b c} {s t : State} (h : execVfcmpNe h a b c s = .next t) : t.pwr = s.pwr := by
  exact pwr_issue h

theorem pwr_execVfcmpLt {h a b c} {s t : State} (h : execVfcmpLt h a b c s = .next t) : t.pwr = s.pwr := by
  exact pwr_issue h

theorem pwr_execVfcmpLe {h a b c} {s t : State} (h : execVfcmpLe h a b c s = .next t) : t.pwr = s.pwr := by
  exact pwr_issue h

theorem pwr_execVfcmpUn {h a b c} {s t : State} (h : execVfcmpUn h a b c s = .next t) : t.pwr = s.pwr := by
  exact pwr_issue h

theorem pwr_execVcmpEq {h a b c} {s t : State} (h : execVcmpEq h a b c s = .next t) : t.pwr = s.pwr := by
  exact pwr_issue h

theorem pwr_execVcmpNe {h a b c} {s t : State} (h : execVcmpNe h a b c s = .next t) : t.pwr = s.pwr := by
  exact pwr_issue h

theorem pwr_execVcmpLt {h a b c} {s t : State} (h : execVcmpLt h a b c s = .next t) : t.pwr = s.pwr := by
  exact pwr_issue h

theorem pwr_execVcmpLe {h a b c} {s t : State} (h : execVcmpLe h a b c s = .next t) : t.pwr = s.pwr := by
  exact pwr_issue h

theorem pwr_execVcmpLtu {h a b c} {s t : State} (h : execVcmpLtu h a b c s = .next t) : t.pwr = s.pwr := by
  exact pwr_issue h

theorem pwr_execVcmpLeu {h a b c} {s t : State} (h : execVcmpLeu h a b c s = .next t) : t.pwr = s.pwr := by
  exact pwr_issue h

theorem pwr_execVmov {h a b} {s t : State} (h : execVmov h a b s = .next t) : t.pwr = s.pwr := by
  exact pwr_issue h

theorem pwr_execVspl {h a b} {s t : State} (h : execVspl h a b s = .next t) : t.pwr = s.pwr := by
  exact pwr_issue h

theorem pwr_execVimm {h a k} {s t : State} (h : execVimm h a k s = .next t) : t.pwr = s.pwr := by
  exact pwr_issue h

theorem pwr_execVzero {h a} {s t : State} (h : execVzero h a s = .next t) : t.pwr = s.pwr := by
  exact pwr_issue h

theorem pwr_execVidx {h a} {s t : State} (h : execVidx h a s = .next t) : t.pwr = s.pwr := by
  exact pwr_issue h

theorem pwr_execVsel {h a b c sn m} {s t : State} (h : execVsel h a b c sn m s = .next t) : t.pwr = s.pwr := by
  exact pwr_issue h

theorem pwr_execMand {h a b c} {s t : State} (h : execMand h a b c s = .next t) : t.pwr = s.pwr := by
  exact pwr_issue h

theorem pwr_execMor {h a b c} {s t : State} (h : execMor h a b c s = .next t) : t.pwr = s.pwr := by
  exact pwr_issue h

theorem pwr_execMxor {h a b c} {s t : State} (h : execMxor h a b c s = .next t) : t.pwr = s.pwr := by
  exact pwr_issue h

theorem pwr_execMnot {h a b} {s t : State} (h : execMnot h a b s = .next t) : t.pwr = s.pwr := by
  exact pwr_issue h

theorem pwr_execVany {h a b} {s t : State} (h : execVany h a b s = .next t) : t.pwr = s.pwr := by
  exact pwr_issue h

theorem pwr_execVall {h a b} {s t : State} (h : execVall h a b s = .next t) : t.pwr = s.pwr := by
  exact pwr_issue h

theorem pwr_execVlam {h b} {s t : State} (h : execVlam h b s = .next t) : t.pwr = s.pwr := by
  exact pwr_issue h

theorem pwr_execVmpack {h a b} {s t : State} (h : execVmpack h a b s = .next t) : t.pwr = s.pwr := by
  exact pwr_issue h

theorem pwr_execVmunpk {h a b} {s t : State} (h : execVmunpk h a b s = .next t) : t.pwr = s.pwr := by
  exact pwr_issue h

theorem pwr_execVcvtFi {h a b} {s t : State} (h : execVcvtFi h a b s = .next t) : t.pwr = s.pwr := by
  exact pwr_issue h

theorem pwr_execVcvtIf {h a b} {s t : State} (h : execVcvtIf h a b s = .next t) : t.pwr = s.pwr := by
  exact pwr_issue h

theorem pwr_execVcvtFb {h a b} {s t : State} (h : execVcvtFb h a b s = .next t) : t.pwr = s.pwr := by
  exact pwr_issue h

theorem pwr_execVcvtBf {h a b} {s t : State} (h : execVcvtBf h a b s = .next t) : t.pwr = s.pwr := by
  exact pwr_issue h

theorem pwr_execVcvtFk {h a b} {s t : State} (h : execVcvtFk h a b s = .next t) : t.pwr = s.pwr := by
  exact pwr_issue h

theorem pwr_execVquant {h a b e sl} {s t : State} (h : execVquant h a b e sl s = .next t) : t.pwr = s.pwr := by
  exact pwr_issue h

theorem pwr_execVqexp {h a b e sl} {s t : State} (h : execVqexp h a b e sl s = .next t) : t.pwr = s.pwr := by
  exact pwr_issue h

theorem pwr_execVrotR {h a b p k} {s t : State} (h : execVrotR h a b p k s = .next t) : t.pwr = s.pwr := by
  exact pwr_issue h

theorem pwr_execVrotC {h a b p k} {s t : State} (h : execVrotC h a b p k s = .next t) : t.pwr = s.pwr := by
  exact pwr_issue h

theorem pwr_execVbcR {h a b p k} {s t : State} (h : execVbcR h a b p k s = .next t) : t.pwr = s.pwr := by
  exact pwr_issue h

theorem pwr_execVbcC {h a b p k} {s t : State} (h : execVbcC h a b p k s = .next t) : t.pwr = s.pwr := by
  exact pwr_issue h

theorem pwr_execVpermR {h a b c p} {s t : State} (h : execVpermR h a b c p s = .next t) : t.pwr = s.pwr := by
  exact pwr_issue h

theorem pwr_execVpermC {h a b c p} {s t : State} (h : execVpermC h a b c p s = .next t) : t.pwr = s.pwr := by
  exact pwr_issue h

theorem pwr_execVredRFadd {h a b p} {s t : State} (h : execVredRFadd h a b p s = .next t) : t.pwr = s.pwr := by
  exact pwr_issue h

theorem pwr_execVredRIadd {h a b p} {s t : State} (h : execVredRIadd h a b p s = .next t) : t.pwr = s.pwr := by
  exact pwr_issue h

theorem pwr_execVredRXor {h a b p} {s t : State} (h : execVredRXor h a b p s = .next t) : t.pwr = s.pwr := by
  exact pwr_issue h

theorem pwr_execVredRMax {h a b p} {s t : State} (h : execVredRMax h a b p s = .next t) : t.pwr = s.pwr := by
  exact pwr_issue h

theorem pwr_execVredRMin {h a b p} {s t : State} (h : execVredRMin h a b p s = .next t) : t.pwr = s.pwr := by
  exact pwr_issue h

theorem pwr_execVredCFadd {h a b p} {s t : State} (h : execVredCFadd h a b p s = .next t) : t.pwr = s.pwr := by
  exact pwr_issue h

theorem pwr_execVredCIadd {h a b p} {s t : State} (h : execVredCIadd h a b p s = .next t) : t.pwr = s.pwr := by
  exact pwr_issue h

theorem pwr_execVredCXor {h a b p} {s t : State} (h : execVredCXor h a b p s = .next t) : t.pwr = s.pwr := by
  exact pwr_issue h

theorem pwr_execVredCMax {h a b p} {s t : State} (h : execVredCMax h a b p s = .next t) : t.pwr = s.pwr := by
  exact pwr_issue h

theorem pwr_execVredCMin {h a b p} {s t : State} (h : execVredCMin h a b p s = .next t) : t.pwr = s.pwr := by
  exact pwr_issue h

theorem pwr_execVscanRFadd {h a b p} {s t : State} (h : execVscanRFadd h a b p s = .next t) : t.pwr = s.pwr := by
  exact pwr_issue h

theorem pwr_execVscanRIadd {h a b p} {s t : State} (h : execVscanRIadd h a b p s = .next t) : t.pwr = s.pwr := by
  exact pwr_issue h

theorem pwr_execVscanRXor {h a b p} {s t : State} (h : execVscanRXor h a b p s = .next t) : t.pwr = s.pwr := by
  exact pwr_issue h

theorem pwr_execVscanCFadd {h a b p} {s t : State} (h : execVscanCFadd h a b p s = .next t) : t.pwr = s.pwr := by
  exact pwr_issue h

theorem pwr_execVscanCIadd {h a b p} {s t : State} (h : execVscanCIadd h a b p s = .next t) : t.pwr = s.pwr := by
  exact pwr_issue h

theorem pwr_execVscanCXor {h a b p} {s t : State} (h : execVscanCXor h a b p s = .next t) : t.pwr = s.pwr := by
  exact pwr_issue h

theorem pwr_execVcpr {h a b sn m} {s t : State} (h : execVcpr h a b sn m s = .next t) : t.pwr = s.pwr := by
  exact pwr_issue h

theorem pwr_execRpop {h a q} {s t : State} (h : execRpop h a q s = .next t) : t.pwr = s.pwr := by
  exact pwr_issue h

theorem pwr_execRfree {h} {s t : State} (h : execRfree h s = .next t) : t.pwr = s.pwr := by
  exact pwr_issue h

theorem pwr_execClaim {h oa n} {s t : State} (h : execClaim h oa n s = .next t) : t.pwr = s.pwr := by
  exact pwr_issue h

theorem pwr_execRelease {h oa n} {s t : State} (h : execRelease h oa n s = .next t) : t.pwr = s.pwr := by
  exact pwr_issue h

theorem pwr_execLdta {h oa ag} {s t : State} (h : execLdta h oa ag s = .next t) : t.pwr = s.pwr := by
  exact pwr_issue h

theorem pwr_execLdtb {h oa ag} {s t : State} (h : execLdtb h oa ag s = .next t) : t.pwr = s.pwr := by
  exact pwr_issue h

theorem pwr_execLde {h oa ag} {s t : State} (h : execLde h oa ag s = .next t) : t.pwr = s.pwr := by
  exact pwr_issue h

theorem pwr_execLdtf {h oa ag n} {s t : State} (h : execLdtf h oa ag n s = .next t) : t.pwr = s.pwr := by
  exact pwr_issue h

theorem pwr_execLdvW {h a ag} {s t : State} (h : execLdvW h a ag s = .next t) : t.pwr = s.pwr := by
  exact pwr_issue h

theorem pwr_execLdvH {h a ag} {s t : State} (h : execLdvH h a ag s = .next t) : t.pwr = s.pwr := by
  exact pwr_issue h

theorem pwr_execLdvHu {h a ag} {s t : State} (h : execLdvHu h a ag s = .next t) : t.pwr = s.pwr := by
  exact pwr_issue h

theorem pwr_execLdvB {h a ag} {s t : State} (h : execLdvB h a ag s = .next t) : t.pwr = s.pwr := by
  exact pwr_issue h

theorem pwr_execLdvBu {h a ag} {s t : State} (h : execLdvBu h a ag s = .next t) : t.pwr = s.pwr := by
  exact pwr_issue h

theorem pwr_execLdvrW {h a ag} {s t : State} (h : execLdvrW h a ag s = .next t) : t.pwr = s.pwr := by
  exact pwr_issue h

theorem pwr_execLdvcW {h a ag} {s t : State} (h : execLdvcW h a ag s = .next t) : t.pwr = s.pwr := by
  exact pwr_issue h

theorem pwr_execLdg {h a b ag band} {s t : State} (h : execLdg h a b ag band s = .next t) : t.pwr = s.pwr := by
  exact pwr_issue h

theorem pwr_execStvW {h a ag} {s t : State} (h : execStvW h a ag s = .next t) : t.pwr = s.pwr := by
  exact pwr_issue h

theorem pwr_execStvH {h a ag} {s t : State} (h : execStvH h a ag s = .next t) : t.pwr = s.pwr := by
  exact pwr_issue h

theorem pwr_execStvHs {h a ag} {s t : State} (h : execStvHs h a ag s = .next t) : t.pwr = s.pwr := by
  exact pwr_issue h

theorem pwr_execStvB {h a ag} {s t : State} (h : execStvB h a ag s = .next t) : t.pwr = s.pwr := by
  exact pwr_issue h

theorem pwr_execStvBs {h a ag} {s t : State} (h : execStvBs h a ag s = .next t) : t.pwr = s.pwr := by
  exact pwr_issue h

theorem pwr_execStvc {h a ag sn m} {s t : State} (h : execStvc h a ag sn m s = .next t) : t.pwr = s.pwr := by
  exact pwr_issue h

theorem pwr_execLdB {h a b d} {s t : State} (h : execLdB h a b d s = .next t) : t.pwr = s.pwr := by
  exact pwr_issue h

theorem pwr_execLdBu {h a b d} {s t : State} (h : execLdBu h a b d s = .next t) : t.pwr = s.pwr := by
  exact pwr_issue h

theorem pwr_execLdH {h a b d} {s t : State} (h : execLdH h a b d s = .next t) : t.pwr = s.pwr := by
  exact pwr_issue h

theorem pwr_execLdHu {h a b d} {s t : State} (h : execLdHu h a b d s = .next t) : t.pwr = s.pwr := by
  exact pwr_issue h

theorem pwr_execLdW {h a b d} {s t : State} (h : execLdW h a b d s = .next t) : t.pwr = s.pwr := by
  exact pwr_issue h

theorem pwr_execLdWu {h a b d} {s t : State} (h : execLdWu h a b d s = .next t) : t.pwr = s.pwr := by
  exact pwr_issue h

theorem pwr_execLdD {h a b d} {s t : State} (h : execLdD h a b d s = .next t) : t.pwr = s.pwr := by
  exact pwr_issue h

theorem pwr_execLdsD {h a b d} {s t : State} (h : execLdsD h a b d s = .next t) : t.pwr = s.pwr := by
  exact pwr_issue h

theorem pwr_execStB {h a b d} {s t : State} (h : execStB h a b d s = .next t) : t.pwr = s.pwr := by
  exact pwr_issue h

theorem pwr_execStH {h a b d} {s t : State} (h : execStH h a b d s = .next t) : t.pwr = s.pwr := by
  exact pwr_issue h

theorem pwr_execStW {h a b d} {s t : State} (h : execStW h a b d s = .next t) : t.pwr = s.pwr := by
  exact pwr_issue h

theorem pwr_execStD {h a b d} {s t : State} (h : execStD h a b d s = .next t) : t.pwr = s.pwr := by
  exact pwr_issue h

theorem pwr_execRdl {h a k} {s t : State} (h : execRdl h a k s = .next t) : t.pwr = s.pwr := by
  exact pwr_issue h

theorem pwr_execRds {h a k} {s t : State} (h : execRds h a k s = .next t) : t.pwr = s.pwr := by
  exact pwr_issue h

theorem pwr_execRdtk {h a} {s t : State} (h : execRdtk h a s = .next t) : t.pwr = s.pwr := by
  exact pwr_issue h

theorem pwr_execSetlc {h a b} {s t : State} (h : execSetlc h a b s = .next t) : t.pwr = s.pwr := by
  exact pwr_issue h

theorem pwr_execAgs {h a b c} {s t : State} (h : execAgs h a b c s = .next t) : t.pwr = s.pwr := by
  exact pwr_issue h

theorem pwr_execPute {h a b} {s t : State} (h : execPute h a b s = .next t) : t.pwr = s.pwr := by
  exact pwr_issue h

theorem pwr_execFmt {h b} {s t : State} (h : execFmt h b s = .next t) : t.pwr = s.pwr := by
  exact pwr_issue h

theorem pwr_execTrap {h a _k} {s t : State} (h : execTrap h a _k s = .next t) : t.pwr = s.pwr := by
  exact pwr_issue h

theorem pwr_execMark {h k} {s t : State} (h : execMark h k s = .next t) : t.pwr = s.pwr := by
  exact pwr_issue h

theorem pwr_execMsixVectorUnmask {fn vec} {s t : State} (h : execMsixVectorUnmask fn vec s = .next t) : t.pwr = s.pwr := by
  unfold execMsixVectorUnmask at h
  injection h with h
  subst h
  simp

theorem pwr_execPageRequestPost {cid} {s t : State} (h : execPageRequestPost cid s = .next t) : t.pwr = s.pwr := by
  unfold execPageRequestPost at h
  injection h with h
  subst h
  simp

theorem pwr_execPrqEnable {cid v} {s t : State} (h : execPrqEnable cid v s = .next t) : t.pwr = s.pwr := by
  unfold execPrqEnable at h
  injection h with h
  subst h
  simp

theorem pwr_execCqCoalesceTimeout {fn n} {s t : State} (h : execCqCoalesceTimeout fn n s = .next t) : t.pwr = s.pwr := by
  unfold execCqCoalesceTimeout at h
  injection h with h
  subst h
  simp

theorem pwr_execCqEnable {fn n v} {s t : State} (h : execCqEnable fn n v s = .next t) : t.pwr = s.pwr := by
  unfold execCqEnable at h
  injection h with h
  subst h
  rw [apply_ite State.pwr, pwr_setCq, ite_self]

theorem pwr_execXrd {h e ag cls p} {s t : State} (h : execXrd h e ag cls p s = .next t) : t.pwr = s.pwr := by
  exact pwr_issue h

theorem pwr_execXrdSp {h e ag cls p} {s t : State} (h : execXrdSp h e ag cls p s = .next t) : t.pwr = s.pwr := by
  exact pwr_issue h

theorem pwr_execXrdm {h e ag cls p} {s t : State} (h : execXrdm h e ag cls p s = .next t) : t.pwr = s.pwr := by
  exact pwr_issue h

theorem pwr_execXwr {h e ag cls p} {s t : State} (h : execXwr h e ag cls p s = .next t) : t.pwr = s.pwr := by
  exact pwr_issue h

theorem pwr_execXwrZ {h e ag cls p} {s t : State} (h : execXwrZ h e ag cls p s = .next t) : t.pwr = s.pwr := by
  exact pwr_issue h

theorem pwr_execXput {h e ag cls p} {s t : State} (h : execXput h e ag cls p s = .next t) : t.pwr = s.pwr := by
  exact pwr_issue h

theorem pwr_execXget {h e ag cls p} {s t : State} (h : execXget h e ag cls p s = .next t) : t.pwr = s.pwr := by
  exact pwr_issue h

theorem pwr_execXsumF {h e ag cls p} {s t : State} (h : execXsumF h e ag cls p s = .next t) : t.pwr = s.pwr := by
  exact pwr_issue h

theorem pwr_execXsumI {h e ag cls p} {s t : State} (h : execXsumI h e ag cls p s = .next t) : t.pwr = s.pwr := by
  exact pwr_issue h

theorem pwr_execXatAdd {h e ag cls p} {s t : State} (h : execXatAdd h e ag cls p s = .next t) : t.pwr = s.pwr := by
  exact pwr_issue h

theorem pwr_execXatSwp {h e ag cls p} {s t : State} (h : execXatSwp h e ag cls p s = .next t) : t.pwr = s.pwr := by
  exact pwr_issue h

theorem pwr_execXatCas {h e ag cls p} {s t : State} (h : execXatCas h e ag cls p s = .next t) : t.pwr = s.pwr := by
  exact pwr_issue h

theorem pwr_execXatMax {h e ag cls p} {s t : State} (h : execXatMax h e ag cls p s = .next t) : t.pwr = s.pwr := by
  exact pwr_issue h

theorem pwr_execXatMin {h e ag cls p} {s t : State} (h : execXatMin h e ag cls p s = .next t) : t.pwr = s.pwr := by
  exact pwr_issue h

theorem pwr_execXatAnd {h e ag cls p} {s t : State} (h : execXatAnd h e ag cls p s = .next t) : t.pwr = s.pwr := by
  exact pwr_issue h

theorem pwr_execXatOr {h e ag cls p} {s t : State} (h : execXatOr h e ag cls p s = .next t) : t.pwr = s.pwr := by
  exact pwr_issue h

theorem pwr_execXatXor {h e ag cls p} {s t : State} (h : execXatXor h e ag cls p s = .next t) : t.pwr = s.pwr := by
  exact pwr_issue h

theorem pwr_execXscLd {h e ag cls p} {s t : State} (h : execXscLd h e ag cls p s = .next t) : t.pwr = s.pwr := by
  exact pwr_issue h

theorem pwr_execXscSt {h e ag cls p} {s t : State} (h : execXscSt h e ag cls p s = .next t) : t.pwr = s.pwr := by
  exact pwr_issue h

theorem pwr_execXscAdd {h e ag cls p} {s t : State} (h : execXscAdd h e ag cls p s = .next t) : t.pwr = s.pwr := by
  exact pwr_issue h

theorem pwr_execXscSwp {h e ag cls p} {s t : State} (h : execXscSwp h e ag cls p s = .next t) : t.pwr = s.pwr := by
  exact pwr_issue h

theorem pwr_execXscCas {h e ag cls p} {s t : State} (h : execXscCas h e ag cls p s = .next t) : t.pwr = s.pwr := by
  exact pwr_issue h

theorem pwr_execXscMax {h e ag cls p} {s t : State} (h : execXscMax h e ag cls p s = .next t) : t.pwr = s.pwr := by
  exact pwr_issue h

theorem pwr_execFence {h k} {s t : State} (h : execFence h k s = .next t) : t.pwr = s.pwr := by
  exact pwr_issue h

theorem pwr_execXpop {h a cls} {s t : State} (h : execXpop h a cls s = .next t) : t.pwr = s.pwr := by
  exact pwr_issue h

theorem pwr_execXpeek {h a cls} {s t : State} (h : execXpeek h a cls s = .next t) : t.pwr = s.pwr := by
  exact pwr_issue h

theorem pwr_execJoin {h k} {s t : State} (h : execJoin h k s = .next t) : t.pwr = s.pwr := by
  exact pwr_issue h

theorem pwr_execSync {h a k} {s t : State} (h : execSync h a k s = .next t) : t.pwr = s.pwr := by
  exact pwr_issue h

theorem pwr_execAsyncFaultReport {tid} {s t : State} (h : execAsyncFaultReport tid s = .next t) : t.pwr = s.pwr := by
  unfold execAsyncFaultReport at h
  injection h with h
  subst h
  split
  · rfl
  · extract_lets src loc second s1 src2 s2
    have h2 : s2.pwr = s.pwr := by
      dsimp only [s2]
      split
      · exact (pwr_setOwner ..).trans (pwr_raiseAt ..)
      · exact pwr_raiseAt ..
    clear_value s2
    split
    · exact h2
    · exact h2

theorem pwr_execRemotePutArrival {tid} {s t : State} (h : execRemotePutArrival tid s = .next t) : t.pwr = s.pwr := by
  unfold execRemotePutArrival at h
  injection h with h
  subst h
  split
  · rfl
  · exact pwr_withPorts _ _ _ _ _ (fun x s => pwr_performPut ..)

theorem pwr_execTransferDispatch {tid} {s t : State} (h : execTransferDispatch tid s = .next t) : t.pwr = s.pwr := by
  unfold execTransferDispatch at h
  injection h with h
  subst h
  repeat' (first | split | simp)

theorem pwr_execScOperationPerform {tid} {s t : State} (h : execScOperationPerform tid s = .next t) : t.pwr = s.pwr := by
  unfold execScOperationPerform at h
  injection h with h
  subst h
  split
  · rfl
  · split
    · split
      · rfl
      · split <;> simp
    · rfl

theorem pwr_execTransferLanding {tid resp} {s t : State} (h : execTransferLanding tid resp s = .next t) : t.pwr = s.pwr := by
  unfold execTransferLanding at h
  extract_lets s1 at h
  have h1 : s1.pwr = s.pwr := by
    dsimp only [s1]
    split
    · exact pwr_endRequest ..
    · rfl
  clear_value s1
  injection h with h
  subst h
  split
  · exact h1
  · dsimp only
    split
    · exact (pwr_withPorts _ _ _ _ _ (fun x s => pwr_landRemote ..)).trans h1
    · split
      · exact (pwr_withPorts _ _ _ _ _ (fun x s => pwr_landOld ..)).trans h1
      · exact (pwr_finishXfer ..).trans h1
      · exact (pwr_withPorts _ _ _ _ _ (fun x s => pwr_performGet ..)).trans h1
      · exact (pwr_withPorts _ _ _ _ _ (fun x s => pwr_performRest ..)).trans h1
      · refine (pwr_withPorts _ _ _ _ _ (fun x s => ?_)).trans h1
        split <;> simp
      · exact h1

theorem pwr_execResultWriteback {core wid} {s t : State} (h : execResultWriteback core wid s = .next t) : t.pwr = s.pwr := by
  unfold execResultWriteback at h
  injection h with h
  subst h
  simp

theorem pwr_execSyncStallEnd {sid} {s t : State} (h : execSyncStallEnd sid s = .next t) : t.pwr = s.pwr := by
  unfold execSyncStallEnd at h
  injection h with h
  subst h
  simp

theorem pwr_execStrandWatchdogExpiry {sid} {s t : State} (h : execStrandWatchdogExpiry sid s = .next t) : t.pwr = s.pwr := by
  unfold execStrandWatchdogExpiry at h
  injection h with h
  subst h
  rfl

theorem pwr_execWeaveSwitch {core} {s t : State} (h : execWeaveSwitch core s = .next t) : t.pwr = s.pwr := by
  unfold execWeaveSwitch at h
  injection h with h
  subst h
  simp

theorem pwr_execRephaseSwitch {sid} {s t : State} (h : execRephaseSwitch sid s = .next t) : t.pwr = s.pwr := by
  unfold execRephaseSwitch at h
  injection h with h
  subst h
  split <;> simp

theorem pwr_execOwnerDepart {core wid} {s t : State} (h : execOwnerDepart core wid s = .next t) : t.pwr = s.pwr := by
  unfold execOwnerDepart at h
  injection h with h
  subst h
  split <;> simp

theorem pwr_execStrandPark {sid tick} {s t : State} (h : execStrandPark sid tick s = .next t) : t.pwr = s.pwr := by
  unfold execStrandPark at h
  injection h with h
  subst h
  simp

theorem pwr_execStrandUnpark {sid cyc} {s t : State} (h : execStrandUnpark sid cyc s = .next t) : t.pwr = s.pwr := by
  unfold execStrandUnpark at h
  injection h with h
  subst h
  simp

theorem pwr_execStrandStop {sid} {s t : State} (h : execStrandStop sid s = .next t) : t.pwr = s.pwr := by
  unfold execStrandStop at h
  injection h with h
  subst h
  split
  · simp only [pwr_discardDoomed]
  · split
    · rfl
    · split
      · rfl
      · extract_lets s0 s1 s2 s3
        have h0 : s0.pwr = s.pwr := by
          dsimp only [s0]
          split
          · exact pwr_lostInStall ..
          · rfl
        clear_value s0
        have h1 : s1.pwr = s.pwr := pwr_foldl_trans (fun s ⟨c, w⟩ => pwr_flushOwner c w s) h0
        clear_value s1
        have h3 : s3.pwr = s.pwr := (pwr_postRecord ..).trans h1
        clear_value s3
        split
        · exact (pwr_meterEvent ..).trans ((pwr_traceEvent ..).trans h3)
        · exact (pwr_departStopped ..).trans h3

theorem pwr_execEvictionRequest {sid} {s t : State} (h : execEvictionRequest sid s = .next t) : t.pwr = s.pwr := by
  unfold execEvictionRequest at h
  injection h with h
  subst h
  split
  · rfl
  · split <;> simp

theorem pwr_execEvictionDrain {sid} {s t : State} (h : execEvictionDrain sid s = .next t) : t.pwr = s.pwr := by
  unfold execEvictionDrain at h
  injection h with h
  subst h
  simp

theorem pwr_execEvictionSave {sid} {s t : State} (h : execEvictionSave sid s = .next t) : t.pwr = s.pwr := by
  unfold execEvictionSave at h
  injection h with h
  subst h
  simp

theorem pwr_execLeaseExpiry {sid} {s t : State} (h : execLeaseExpiry sid s = .next t) : t.pwr = s.pwr := by
  unfold execLeaseExpiry at h
  injection h with h
  subst h
  simp

theorem pwr_execNotify {fn q v} {s t : State} (h : execNotify fn q v s = .next t) : t.pwr = s.pwr := by
  unfold execNotify at h
  injection h with h
  subst h
  simp

theorem pwr_execQueueDisable {fn q} {s t : State} (h : execQueueDisable fn q s = .next t) : t.pwr = s.pwr := by
  unfold execQueueDisable at h
  injection h with h
  subst h
  split <;> simp

theorem pwr_execQueueEnable {fn q} {s t : State} (h : execQueueEnable fn q s = .next t) : t.pwr = s.pwr := by
  unfold execQueueEnable at h
  injection h with h
  subst h
  simp

theorem pwr_execPacketFetch {fn q} {s t : State} (h : execPacketFetch fn q s = .next t) : t.pwr = s.pwr := by
  unfold execPacketFetch at h
  injection h with h
  subst h
  split <;> simp

theorem pwr_execNopPacket {fn q} {s t : State} (h : execNopPacket fn q s = .next t) : t.pwr = s.pwr := by
  unfold execNopPacket at h
  injection h with h
  subst h
  split <;> simp

theorem pwr_execSignalPacket {fn q} {s t : State} (h : execSignalPacket fn q s = .next t) : t.pwr = s.pwr := by
  unfold execSignalPacket at h
  injection h with h
  subst h
  split
  · rfl
  · split <;> simp

theorem pwr_execWaitPacket {fn q} {s t : State} (h : execWaitPacket fn q s = .next t) : t.pwr = s.pwr := by
  unfold execWaitPacket at h
  injection h with h
  subst h
  split <;> simp

theorem pwr_execWaitReread {fn q} {s t : State} (h : execWaitReread fn q s = .next t) : t.pwr = s.pwr := by
  unfold execWaitReread at h
  injection h with h
  subst h
  split <;> simp

theorem pwr_execLaunchPacket {fn q} {s t : State} (h : execLaunchPacket fn q s = .next t) : t.pwr = s.pwr := by
  unfold execLaunchPacket at h
  injection h with h
  subst h
  split <;> simp

theorem pwr_execLaunchAgingStep {fn q} {s t : State} (h : execLaunchAgingStep fn q s = .next t) : t.pwr = s.pwr := by
  unfold execLaunchAgingStep at h
  injection h with h
  subst h
  split <;> simp

theorem pwr_execInvalPacket {fn q} {s t : State} (h : execInvalPacket fn q s = .next t) : t.pwr = s.pwr := by
  unfold execInvalPacket at h
  injection h with h
  subst h
  split <;> simp

theorem pwr_execInvalCompletion {id} {s t : State} (h : execInvalCompletion id s = .next t) : t.pwr = s.pwr := by
  unfold execInvalCompletion at h
  injection h with h
  subst h
  split <;> simp

theorem pwr_execCopyPacket {fn q} {s t : State} (h : execCopyPacket fn q s = .next t) : t.pwr = s.pwr := by
  unfold execCopyPacket at h
  injection h with h
  subst h
  split
  · rfl
  · split
    · simp
    · split
      · simp
      · have := pwr_startPacket fn q ‹Packet› s
        split
        simp_all

theorem pwr_execCopyChunk {id} {s t : State} (h : execCopyChunk id s = .next t) : t.pwr = s.pwr := by
  unfold execCopyChunk at h
  injection h with h
  subst h
  split <;> simp

theorem pwr_execPacketCompletion {id} {s t : State} (h : execPacketCompletion id s = .next t) : t.pwr = s.pwr := by
  unfold execPacketCompletion at h
  injection h with h
  subst h
  split
  · rfl
  · dsimp only
    split
    · rfl
    · split
      · simp
      · split
        · exact pwr_atCfeSlot _ (fun s => by simp) _
        · simp

theorem pwr_execPageDone {cid page} {s t : State} (h : execPageDone cid page s = .next t) : t.pwr = s.pwr := by
  unfold execPageDone at h
  injection h with h
  subst h
  split
  · exact pwr_atCfeSlot _ (fun s => pwr_releaseOne ..) _
  · simp

theorem pwr_execAdmissionAttempt {fn q} {s t : State} (h : execAdmissionAttempt fn q s = .next t) : t.pwr = s.pwr := by
  unfold execAdmissionAttempt at h
  injection h with h
  subst h
  split
  · rfl
  · dsimp only
    split
    · simp
    · split
      · simp
      · simp
      · repeat' split
        all_goals first
          | (simp; done)
          | (rw [pwr_placeOrWait _ _ _ (fun p s => pwr_admitLaunch _ _ _ p s) (fun s => pwr_awaitAdmission _ _ s)]; simp)

theorem pwr_execStrandResume {sid} {s t : State} (h : execStrandResume sid s = .next t) : t.pwr = s.pwr := by
  unfold execStrandResume at h
  injection h with h
  subst h
  split
  · rfl
  · split
    · simp
    · exact pwr_placeOrWait _ _ _ (fun p s => pwr_resumeAt _ p s) (fun s => by simp) s

theorem pwr_execContainerStaging {sid} {s t : State} (h : execContainerStaging sid s = .next t) : t.pwr = s.pwr := by
  unfold execContainerStaging at h
  extract_lets t0 at h
  injection h with h
  subst h
  have hf : ∀ (raw args : List Byte) (l : List (Nat × Nat)) (u : State), (l.foldl (loadOwner raw args) u).pwr = u.pwr :=
    fun raw args l u => pwr_foldl_trans (fun s x => pwr_loadOwner ..) rfl
  split
  · rfl
  · rename_i head total argVa got s1 t1 s2 _
    have h2 : s2.pwr = s.pwr := by simp only [s2, s1, pwr_setStrand, pwr_countStage]
    clear_value s2
    split
    · exact (pwr_pageRequest ..).trans h2
    · exact (pwr_pageRequest ..).trans h2
    · have h3 : ∀ (x : Strand) (raw : List Byte) (b : Bool), (if b = true then chainOn x raw s2 else s2).pwr = s.pwr := by
        intro x raw b
        split
        · exact (pwr_chainOn ..).trans h2
        · exact h2
      extract_lets s3 arg
      replace h3 : s3.pwr = s.pwr := h3 ..
      clear_value s3 arg s1 t1
      split
      · exact (pwr_stageFail ..).trans h3
      · split
        · exact (pwr_finishLaunch ..).trans ((pwr_freeAll ..).trans h3)
        · exact (pwr_grantsChanged ..).trans ((pwr_armStart ..).trans ((pwr_beginRecording ..).trans
            ((hf ..).trans ((pwr_setStrand ..).trans h3))))

theorem pwr_execStartDecision {sid} {s t : State} (h : execStartDecision sid s = .next t) : t.pwr = s.pwr := by
  unfold execStartDecision at h
  injection h with h
  subst h
  split
  · rfl
  · split
    · rw [pwr_startStrand]
    · split
      · rw [pwr_at]
      · rw [pwr_startSlip]

theorem pwr_execRegisterWrite {fn at_ size v} {s t : State} (h : execRegisterWrite fn at_ size v s = .next t) :
    t.pwr = s.pwr := by
  unfold execRegisterWrite at h
  injection h with h
  subst h
  split
  · simp
  · split <;> simp

theorem pwr_execFirmwareBoot {s t : State} (h : execFirmwareBoot s = .next t) : t.pwr = s.pwr := by
  unfold execFirmwareBoot at h
  injection h with h
  subst h
  split <;> simp

theorem pwr_execAttestationRequest {fn nonce} {s t : State} (h : execAttestationRequest fn nonce s = .next t) : t.pwr = s.pwr := by
  unfold execAttestationRequest at h
  injection h with h
  subst h
  dsimp only
  repeat' (first | rfl | split)

theorem pwr_execAttestationReportWrite {fn} {s t : State} (h : execAttestationReportWrite fn s = .next t) : t.pwr = s.pwr := by
  unfold execAttestationReportWrite at h
  injection h with h
  subst h
  split
  · rfl
  · split
    · simp
    · split
      · exact (pwr_setVd ..).trans (pwr_hubPut ‹_›)
      · simp
      · simp

theorem pwr_execMeterOpen {i} {s t : State} (h : execMeterOpen i s = .next t) : t.pwr = s.pwr := by
  unfold execMeterOpen at h
  injection h with h
  subst h
  simp

theorem pwr_execMeterSeal {i} {s t : State} (h : execMeterSeal i s = .next t) : t.pwr = s.pwr := by
  unfold execMeterSeal at h
  injection h with h
  subst h
  split
  · rfl
  · split
    · simp
    · dsimp only
      rw [pwr_meterTrigger, pwr_setMeter]
      split <;> simp

theorem pwr_execMeterRetire {i} {s t : State} (h : execMeterRetire i s = .next t) : t.pwr = s.pwr := by
  unfold execMeterRetire at h
  injection h with h
  subst h
  simp

theorem pwr_execMeterCheckpoint {s t : State} (h : execMeterCheckpoint s = .next t) : t.pwr = s.pwr := by
  unfold execMeterCheckpoint at h
  injection h with h
  subst h
  simp

theorem pwr_execMeterRecordWrite {i} {s t : State} (h : execMeterRecordWrite i s = .next t) : t.pwr = s.pwr := by
  unfold execMeterRecordWrite at h
  extract_lets m at h
  injection h with h
  subst h
  split
  · rfl
  · extract_lets body op r keep finish
    have hk : ∀ s, (keep s).pwr = s.pwr := by
      intro s
      dsimp only [keep]
      split <;> rfl
    have hf : ∀ s, (finish s).pwr = s.pwr := by
      intro s
      dsimp only [finish]
      rw [hk, pwr_recordDone]
      generalize op = o
      cases o
      · rfl
      · exact pwr_operatorWrite ..
    clear_value keep finish
    split
    · rfl
    · split
      · exact hf _
      · split
        · exact (hf _).trans ((pwr_setVd ..).trans (pwr_hubPut ‹_›))
        · exact (hf _).trans (pwr_setVd ..)
        · exact pwr_pageRequest ..

theorem pwr_execTenantLogRidxWrite {cid v} {s t : State} (h : execTenantLogRidxWrite cid v s = .next t) : t.pwr = s.pwr := by
  unfold execTenantLogRidxWrite at h
  injection h with h
  subst h
  simp

theorem pwr_execMeterContinuation {s t : State} (h : execMeterContinuation s = .next t) : t.pwr = s.pwr := by
  unfold execMeterContinuation at h
  injection h with h
  subst h
  simp

theorem pwr_execPartitionCreate {n v} {s t : State} (h : execPartitionCreate n v s = .next t) : t.pwr = s.pwr := by
  unfold execPartitionCreate at h
  injection h with h
  subst h
  simp

theorem pwr_execPartitionResize {n v} {s t : State} (h : execPartitionResize n v s = .next t) : t.pwr = s.pwr := by
  unfold execPartitionResize at h
  injection h with h
  subst h
  simp

theorem pwr_execPartitionRemove {n} {s t : State} (h : execPartitionRemove n s = .next t) : t.pwr = s.pwr := by
  unfold execPartitionRemove at h
  injection h with h
  subst h
  simp

theorem pwr_execVdCreate {s t : State} (h : execVdCreate s = .next t) : t.pwr = s.pwr := by
  unfold execVdCreate at h
  injection h with h
  subst h
  simp

theorem pwr_execVdCreateIncoming {s t : State} (h : execVdCreateIncoming s = .next t) : t.pwr = s.pwr := by
  unfold execVdCreateIncoming at h
  injection h with h
  subst h
  simp

theorem pwr_execVdDestroy {s t : State} (h : execVdDestroy s = .next t) : t.pwr = s.pwr := by
  unfold execVdDestroy at h
  injection h with h
  subst h
  repeat' (first | split | simp)

theorem pwr_execMigrationStart {s t : State} (h : execMigrationStart s = .next t) : t.pwr = s.pwr := by
  unfold execMigrationStart at h
  injection h with h
  subst h
  split
  · rw [pwr_migSay]
  · split
    · rw [pwr_migSay]
    · split
      · rw [pwr_migSay, pwr_tick1]
      · rw [pwr_migSay, pwr_setVd]
        dsimp only
        rw [pwr_setDt, pwr_tick1]

theorem pwr_execMigrationPrecopyRound {s t : State} (h : execMigrationPrecopyRound s = .next t) : t.pwr = s.pwr := by
  unfold execMigrationPrecopyRound at h
  injection h with h
  subst h
  split
  · rw [pwr_migSay]
  · split
    · rw [pwr_migSay]
    · dsimp only
      split
      · rw [pwr_copyRound]
      · rw [pwr_migSay, pwr_copyRound]

theorem pwr_execMigrationAbort {s t : State} (h : execMigrationAbort s = .next t) : t.pwr = s.pwr := by
  unfold execMigrationAbort at h
  injection h with h
  subst h
  dsimp only
  split
  · rw [pwr_migSay]
  · split
    · rw [pwr_migDone, pwr_setDt, pwr_setVd]
    · rw [pwr_migSay, pwr_setDt, pwr_setVd]

theorem pwr_execMigrationLinkLost {s t : State} (h : execMigrationLinkLost s = .next t) : t.pwr = s.pwr := by
  unfold execMigrationLinkLost at h
  injection h with h
  subst h
  simp

theorem pwr_execMigrationStop {s t : State} (h : execMigrationStop s = .next t) : t.pwr = s.pwr := by
  unfold execMigrationStop at h
  injection h with h
  subst h
  simp

theorem pwr_execMigrationFinalArrival {cid img} {s t : State} (h : execMigrationFinalArrival cid img s = .next t) :
    t.pwr = s.pwr := by
  unfold execMigrationFinalArrival at h
  injection h with h
  subst h
  split
  · rfl
  · split
    · simp
    · dsimp only
      split
      · refine pwr_foldl_trans (fun s x => pwr_takeStrand ..) ?_
        simp
      · have h := pwr_receiveHandoffs ‹_›
        simp only [pwr_grantsChanged, pwr_pushAll]
        refine pwr_foldl_trans (fun s x => pwr_resumeCopy ..) (pwr_foldl_trans (fun s x => pwr_takeStrand ..) ?_)
        split
        · rw [pwr_tellSource, pwr_setVd, h, pwr_installImage]
        · rw [pwr_setVd, h, pwr_installImage]

theorem pwr_execPostcopyPagePull {cid page} {s t : State} (h : execPostcopyPagePull cid page s = .next t) : t.pwr = s.pwr := by
  unfold execPostcopyPagePull at h
  injection h with h
  subst h
  simp

theorem pwr_execPostcopyPagePush {cid} {s t : State} (h : execPostcopyPagePush cid s = .next t) : t.pwr = s.pwr := by
  unfold execPostcopyPagePush at h
  injection h with h
  subst h
  split <;> simp

theorem pwr_execPostcopyPageArrival {cid page data} {s t : State} (h : execPostcopyPageArrival cid page data s = .next t) :
    t.pwr = s.pwr := by
  unfold execPostcopyPageArrival at h
  injection h with h
  subst h
  dsimp only
  split
  · rfl
  · split
    · simp
    · split <;> simp

theorem pwr_execPostcopySourceFree {cid} {s t : State} (h : execPostcopySourceFree cid s = .next t) : t.pwr = s.pwr := by
  unfold execPostcopySourceFree at h
  injection h with h
  subst h
  simp

theorem pwr_execPostcopyPullTimeout {cid page} {s t : State} (h : execPostcopyPullTimeout cid page s = .next t) : t.pwr = s.pwr := by
  unfold execPostcopyPullTimeout at h
  injection h with h
  subst h
  simp

theorem pwr_execHostBar2Read {fn at_ len} {s t : State} (h : execHostBar2Read fn at_ len s = .next t) : t.pwr = s.pwr := by
  unfold execHostBar2Read at h
  injection h with h
  subst h
  exact pwr_hostRequest _ _ _ _ _ (fun s => pwr_barTwoRead ..)

theorem pwr_execHostBar2Write {fn off data ep ide} {s t : State} (h : execHostBar2Write fn off data ep ide s = .next t) : t.pwr = s.pwr := by
  unfold execHostBar2Write at h
  injection h with h
  subst h
  exact pwr_hostRequest _ _ _ _ _ (fun s => pwr_barTwoWrite ..)

theorem pwr_execMfApertureAccess {at_ len wr} {s t : State} (h : execMfApertureAccess at_ len wr s = .next t) : t.pwr = s.pwr := by
  unfold execMfApertureAccess at h
  injection h with h
  subst h
  exact pwr_hostRequest _ _ _ _ _ (fun s => pwr_mfWindow ..)

theorem pwr_execUndecodedRequest {addr} {s t : State} (h : execUndecodedRequest addr s = .next t) : t.pwr = s.pwr := by
  unfold execUndecodedRequest at h
  injection h with h
  subst h
  exact pwr_hostRequest _ _ _ _ _ (fun s => pwr_unsupportedAt ..)

theorem pwr_execHostReadCompletionTimeout {fn q} {s t : State} (h : execHostReadCompletionTimeout fn q s = .next t) :
    t.pwr = s.pwr := by
  unfold execHostReadCompletionTimeout at h
  extract_lets s1 s2 l at h
  have h1 : s1.pwr = s.pwr := by
    dsimp only [s1]
    split <;> simp
  clear_value s1
  have h2 : s2.pwr = s.pwr := (pwr_logAer ..).trans h1
  clear_value s2
  injection h with h
  subst h
  split
  · exact h2
  · split
    · exact h2
    · exact (pwr_hostReadFails ..).trans h2

theorem pwr_execPcieLinkTraining {gen width flit} {s t : State} (h : execPcieLinkTraining gen width flit s = .next t) : t.pwr = s.pwr := by
  unfold execPcieLinkTraining at h
  injection h with h
  subst h
  simp

theorem pwr_execIdeKeyProgramming {stream key} {s t : State} (h : execIdeKeyProgramming stream key s = .next t) : t.pwr = s.pwr := by
  unfold execIdeKeyProgramming at h
  injection h with h
  subst h
  simp

theorem pwr_execTdispRequest {fn r} {s t : State} (h : execTdispRequest fn r s = .next t) : t.pwr = s.pwr := by
  unfold execTdispRequest at h
  injection h with h
  subst h
  repeat' (first | split | simp)

theorem pwr_execVfEnableWrite {pf en} {s t : State} (h : execVfEnableWrite pf en s = .next t) : t.pwr = s.pwr := by
  unfold execVfEnableWrite at h
  injection h with h
  subst h
  split
  · rfl
  · split
    · split
      · rfl
      · split <;> simp
    · dsimp only
      rw [pwr_tdiChange, pwr_setFn]
      exact pwr_foldl_trans (fun s v => by rw [pwr_flrStep, pwr_tdiChange]) rfl

theorem pwr_execNumvfsWrite {pf n} {s t : State} (h : execNumvfsWrite pf n s = .next t) : t.pwr = s.pwr := by
  unfold execNumvfsWrite at h
  injection h with h
  subst h
  simp

theorem pwr_execVfFlr {fn} {s t : State} (h : execVfFlr fn s = .next t) : t.pwr = s.pwr := by
  unfold execVfFlr at h
  injection h with h
  subst h
  simp

theorem pwr_execPfFlr {pf} {s t : State} (h : execPfFlr pf s = .next t) : t.pwr = s.pwr := by
  unfold execPfFlr at h
  injection h with h
  subst h
  simp

theorem pwr_execMfFlr {s t : State} (h : execMfFlr s = .next t) : t.pwr = s.pwr := by
  unfold execMfFlr at h
  injection h with h
  subst h
  rfl

@[simp] theorem pwr_hotReset (s : State) : (hotReset s).pwr = s.pwr := by
  unfold hotReset
  simp only [apply_ite State.pwr, pwr_push, pwr_hotClear, ite_self]
  exact pwr_foldl_trans (fun s i => pwr_pfEnd ..) (pwr_mfReset ..)

theorem pwr_execHotReset {s t : State} (h : execHotReset s = .next t) : t.pwr = s.pwr := by
  unfold execHotReset at h
  injection h with h
  subst h
  rw [pwr_hotReset]

theorem pwr_execNsclkWrite {v} {s t : State} (h : execNsclkWrite v s = .next t) : t.pwr = s.pwr := by
  unfold execNsclkWrite at h
  injection h with h
  subst h
  simp

theorem pwr_execFaultRingEnable {fn v} {s t : State} (h : execFaultRingEnable fn v s = .next t) : t.pwr = s.pwr := by
  unfold execFaultRingEnable at h
  injection h with h
  subst h
  simp

theorem pwr_execTraceEnable {cid v} {s t : State} (h : execTraceEnable cid v s = .next t) : t.pwr = s.pwr := by
  unfold execTraceEnable at h
  injection h with h
  subst h
  rfl

theorem pwr_execDebugHalt {cid} {s t : State} (h : execDebugHalt cid s = .next t) : t.pwr = s.pwr := by
  unfold execDebugHalt at h
  injection h with h
  subst h
  refine pwr_onTarget cid s fun i t => ?_
  dsimp only
  split
  · simp
  · split <;> simp

theorem pwr_execDebugResume {cid} {s t : State} (h : execDebugResume cid s = .next t) : t.pwr = s.pwr := by
  unfold execDebugResume at h
  injection h with h
  subst h
  refine pwr_onTarget cid s fun i t => ?_
  split <;> simp

theorem pwr_execBreakpointSet {cid} {s t : State} (h : execBreakpointSet cid s = .next t) : t.pwr = s.pwr := by
  unfold execBreakpointSet at h
  injection h with h
  subst h
  refine pwr_onTarget cid s fun i t => ?_
  simp

theorem pwr_execBreakpointClear {cid} {s t : State} (h : execBreakpointClear cid s = .next t) : t.pwr = s.pwr := by
  unfold execBreakpointClear at h
  injection h with h
  subst h
  rfl

theorem pwr_execDebugDump {cid} {s t : State} (h : execDebugDump cid s = .next t) : t.pwr = s.pwr := by
  unfold execDebugDump at h
  injection h with h
  subst h
  refine pwr_onTarget cid s fun i t => ?_
  dsimp only
  split
  · simp
  · split
    · simp
    · split
      · rw [pwr_dbgDone, pwr_dumpCores ‹dumpCores _ _ _ _ = .ok _›]
      · simp
      · simp

theorem pwr_execDebugRelease {cid} {s t : State} (h : execDebugRelease cid s = .next t) : t.pwr = s.pwr := by
  unfold execDebugRelease at h
  injection h with h
  subst h
  refine pwr_onTarget cid s fun i t => ?_
  split <;> simp

theorem pwr_execCobblerEventDispatch {core} {s t : State} (h : execCobblerEventDispatch core s = .next t) : t.pwr = s.pwr := by
  unfold execCobblerEventDispatch at h
  injection h with h
  subst h
  dsimp only
  repeat' (first | rfl | split)

theorem pwr_execWrs {h' a k} {s t : State} (h : execWrs h' a k s = .next t) : t.pwr = s.pwr := by
  unfold execWrs at h
  refine pwr_issueSys (fun c b s => ?_) h
  split <;> simp [KeepsPwr]

theorem pwr_execRdsp {h' a k} {s t : State} (h : execRdsp h' a k s = .next t) : t.pwr = s.pwr := by
  unfold execRdsp at h
  refine pwr_issueSys (fun c b s => ?_) h
  split <;> simp [KeepsPwr]

theorem pwr_execEret {h} {s t : State} (h : execEret h s = .next t) : t.pwr = s.pwr := by
  unfold execEret at h
  refine pwr_issueSys (fun c b s => ?_) h
  dsimp only
  repeat' split
  all_goals simp [KeepsPwr]

theorem pwr_execWaitev {h' a b} {s t : State} (h : execWaitev h' a b s = .next t) : t.pwr = s.pwr := by
  unfold execWaitev at h
  refine pwr_issueSys (fun c b s => ?_) h
  dsimp only
  split
  · simp [KeepsPwr]
  · split <;> simp [KeepsPwr]

theorem pwr_execWvset {h' b c} {s t : State} (h : execWvset h' b c s = .next t) : t.pwr = s.pwr := by
  unfold execWvset at h
  refine pwr_issueSys (fun co x u => ?_) h
  extract_lets k a t
  apply keepsPwr_ite
  · simp only [KeepsPwr]
  · generalize reservedBad k a 32 = q
    cases q
    · simp only [KeepsPwr, Bool.false_eq_true, if_false, pwr_setCore]
    · simp only [KeepsPwr, if_true]

theorem pwr_execPark {h a b c} {s t : State} (h : execPark h a b c s = .next t) : t.pwr = s.pwr := by
  unfold execPark at h
  refine pwr_issueSys (fun c b s => ?_) h
  dsimp only
  repeat' split
  all_goals simp [KeepsPwr]

theorem pwr_execUnpark {h a b c} {s t : State} (h : execUnpark h a b c s = .next t) : t.pwr = s.pwr := by
  unfold execUnpark at h
  refine pwr_issueSys (fun c b s => ?_) h
  dsimp only
  repeat' split
  all_goals simp [KeepsPwr]

theorem pwr_execZfill {h' a b} {s t : State} (h : execZfill h' a b s = .next t) : t.pwr = s.pwr := by
  unfold execZfill at h
  refine pwr_issueSys (fun c b s => ?_) h
  dsimp only
  split
  · simp [KeepsPwr]
  · split
    · simp [KeepsPwr]
    · split <;> simp [KeepsPwr]

theorem pwr_execZfillZeroed {core} {s t : State} (h : execZfillZeroed core s = .next t) : t.pwr = s.pwr := by
  unfold execZfillZeroed at h
  injection h with h
  subst h
  split
  · rfl
  · dsimp only
    split <;> simp

theorem pwr_execCse {h a b c} {s t : State} (h : execCse h a b c s = .next t) : t.pwr = s.pwr := by
  unfold execCse at h
  refine pwr_issueSys (fun c b s => ?_) h
  dsimp only
  repeat' split
  all_goals simp [KeepsPwr]

theorem pwr_execCseDone {core} {s t : State} (h : execCseDone core s = .next t) : t.pwr = s.pwr := by
  unfold execCseDone at h
  injection h with h
  subst h
  split
  · rfl
  · dsimp only
    split
    · simp
    · simp

theorem pwr_execXphy {h e cls p} {s t : State} (h : execXphy h e cls p s = .next t) : t.pwr = s.pwr := by
  unfold execXphy at h
  refine pwr_issueSys (fun c b s => ?_) h
  dsimp only
  repeat' split
  all_goals simp [KeepsPwr]

theorem pwr_execFirmwareWatchdogExpiry {core} {s t : State} (h : execFirmwareWatchdogExpiry core s = .next t) : t.pwr = s.pwr := by
  unfold execFirmwareWatchdogExpiry at h
  injection h with h
  subst h
  simp

theorem pwr_execCoreLockout {core} {s t : State} (h : execCoreLockout core s = .next t) : t.pwr = s.pwr := by
  unfold execCoreLockout at h
  injection h with h
  subst h
  simp

theorem pwr_execKlkRequestTimeout {rid} {s t : State} (h : execKlkRequestTimeout rid s = .next t) : t.pwr = s.pwr := by
  unfold execKlkRequestTimeout at h
  injection h with h
  subst h
  repeat' (first | split | simp)

theorem pwr_execKlkAckReceive {port seq} {s t : State} (h : execKlkAckReceive port seq s = .next t) : t.pwr = s.pwr := by
  unfold execKlkAckReceive at h
  injection h with h
  subst h
  split <;> simp

theorem pwr_execKlkNakReceive {port seq} {s t : State} (h : execKlkNakReceive port seq s = .next t) : t.pwr = s.pwr := by
  unfold execKlkNakReceive at h
  injection h with h
  subst h
  split <;> simp

theorem pwr_execKlkPortDown {port} {s t : State} (h : execKlkPortDown port s = .next t) : t.pwr = s.pwr := by
  unfold execKlkPortDown at h
  injection h with h
  subst h
  rfl

theorem pwr_execKlkPortTrained {port} {s t : State} (h : execKlkPortTrained port s = .next t) : t.pwr = s.pwr := by
  unfold execKlkPortTrained at h
  injection h with h
  subst h
  simp

theorem pwr_execKlkRetrainTimeout {port} {s t : State} (h : execKlkRetrainTimeout port s = .next t) : t.pwr = s.pwr := by
  unfold execKlkRetrainTimeout at h
  injection h with h
  subst h
  simp

theorem pwr_execKlkFlitReceive {port f} {s t : State} (h : execKlkFlitReceive port f s = .next t) : t.pwr = s.pwr := by
  unfold execKlkFlitReceive at h
  injection h with h
  subst h
  simp

theorem pwr_execHbKlkIdWrite {v} {s t : State} (h : execHbKlkIdWrite v s = .next t) : t.pwr = s.pwr := by
  unfold execHbKlkIdWrite at h
  injection h with h
  subst h
  simp

theorem pwr_execHbKlkRouteWrite {dst v} {s t : State} (h : execHbKlkRouteWrite dst v s = .next t) : t.pwr = s.pwr := by
  unfold execHbKlkRouteWrite at h
  injection h with h
  subst h
  simp

theorem pwr_execRouteChangeApply {dst} {s t : State} (h : execRouteChangeApply dst s = .next t) : t.pwr = s.pwr := by
  unfold execRouteChangeApply at h
  injection h with h
  subst h
  split <;> simp

theorem pwr_execPeerRequestArrival {r} {s t : State} (h : execPeerRequestArrival r s = .next t) : t.pwr = s.pwr := by
  unfold execPeerRequestArrival at h
  injection h with h
  subst h
  split
  · simp
  · split
    · simp
    · split <;> simp

theorem pwr_execHbActDenyRead {s t : State} (h : execHbActDenyRead s = .next t) : t.pwr = s.pwr := by
  unfold execHbActDenyRead at h
  injection h with h
  subst h
  split <;> simp

theorem pwr_execBarrierArrival {gid gen dev} {s t : State} (h : execBarrierArrival gid gen dev s = .next t) : t.pwr = s.pwr := by
  unfold execBarrierArrival at h
  injection h with h
  subst h
  simp

theorem pwr_execBarrierRelease {gid gen} {s t : State} (h : execBarrierRelease gid gen s = .next t) : t.pwr = s.pwr := by
  unfold execBarrierRelease at h
  injection h with h
  subst h
  repeat' (first | split | apply pwr_foldl_trans | intro _ | simp)

/-! ### Operations that read a register which clears -/

theorem legal_execXphyDone {core n : Nat} {s t : State} (h : execXphyDone core n s = .next t) (hl : s.pwr.legal = true) :
    t.pwr.legal = true := by
  unfold execXphyDone at h
  injection h with h
  subst h
  split
  · exact hl
  · split
    · exact hl
    · split
      · split
        · dsimp only
          rw [pwr_xphyAgain, legal_hubRead]; exact hl
        · exact hl
      · dsimp only
        split
        · simpa using hl
        · split
          · simpa using hl
          · exact legal_xphyEnd _ _ _ (by simpa using hl)

theorem legal_execRcRegisterRead {fn at_} {s t : State} (h : execRcRegisterRead fn at_ s = .next t) :
    t.pwr.legal = s.pwr.legal := by
  unfold execRcRegisterRead at h
  injection h with h
  subst h
  split
  · simp
  · split
    · simp
    · exact legal_barRead ..


end Sys2Proof.Machine
end

