-- ==== Sys2Proof/Laws/Store.lean ====
section
/-! SUPPORT. The laws of memories and tables: a read after a write, the canonical form, and that every memory operation
keeps it. -/

namespace Sys2Proof.Machine

variable {w : Nat}

/-! ### Read after write -/

theorem cget_filter_ne (m : Cells w) (a k : Nat) :
    cget (m.filter fun x => decide (x.1 ≠ a)) k = if k = a then 0 else cget m k := by
  induction m with
  | nil => simp [cget]
  | cons x m ih =>
    obtain ⟨b, u⟩ := x
    by_cases hb : b = a
    · subst hb
      rw [List.filter_cons_of_neg (by simp), ih]
      by_cases hk : k = b <;> simp [cget, hk]
    · rw [List.filter_cons_of_pos (by simp [hb])]
      simp only [cget, ih]
      by_cases hk : k = b
      · subst hk; simp [hb]
      · simp [hk]

theorem cget_cput (m : Cells w) (a k : Nat) (v : BitVec w) : cget (cput m a v) k = if k = a then v else cget m k := by
  induction m with
  | nil => rfl
  | cons x m ih =>
    obtain ⟨b, u⟩ := x
    by_cases h1 : a < b
    · simp [cput, h1, cget]
    · by_cases h2 : a = b
      · subst h2
        by_cases hk : k = a <;> simp [cput, cget, hk]
      · simp only [cput, h1, h2, if_false, cget, ih]
        by_cases hk : k = b
        · simp [hk, Ne.symm h2]
        · simp [hk]

/-- A read gives the cell written, and every other cell is as it was. -/
theorem cget_cset (m : Cells w) (a k : Nat) (v : BitVec w) : cget (cset m a v) k = if k = a then v else cget m k := by
  unfold cset
  split
  · rename_i h; subst h; exact cget_filter_ne m a k
  · exact cget_cput m a k v

@[simp] theorem cget_cset_self (m : Cells w) (a : Nat) (v : BitVec w) : cget (cset m a v) a = v := by simp [cget_cset]

theorem cget_cset_ne (m : Cells w) {a k : Nat} (v : BitVec w) (h : k ≠ a) : cget (cset m a v) k = cget m k := by
  simp [cget_cset, h]

/-- Cells that no pair of a list names are as they were. -/
theorem cget_cputs_of_forall_ne {l : List (Nat × BitVec w)} {k : Nat} (h : ∀ x ∈ l, x.1 ≠ k) (m : Cells w) :
    cget (cputs m l) k = cget m k := by
  induction l generalizing m with
  | nil => rfl
  | cons x l ih =>
    obtain ⟨a, v⟩ := x
    rw [cputs, ih fun y hy => h y (.tail _ hy), cget_cset_ne _ _ (Ne.symm (h _ (.head _)))]

theorem cputs_append (m : Cells w) (l l' : List (Nat × BitVec w)) : cputs m (l ++ l') = cputs (cputs m l) l' := by
  induction l generalizing m with
  | nil => rfl
  | cons x l ih => exact ih _

/-- The last pair of a list that names a cell gives its value. -/
theorem cget_cputs_last {before after : List (Nat × BitVec w)} {k : Nat} {v : BitVec w} (h : ∀ x ∈ after, x.1 ≠ k)
    (m : Cells w) : cget (cputs m (before ++ (k, v) :: after)) k = v := by
  rw [cputs_append, cputs, cget_cputs_of_forall_ne h, cget_cset_self]

/-- A table gives the record written, and every other record is as it was. -/
theorem tget_tset {α : Type} (d : α) (t : Tab α) (i j : Nat) (v : α) :
    tget d (tset t i v) j = if j = i then v else tget d t j := by
  induction t with
  | nil => rfl
  | cons x t ih =>
    obtain ⟨b, u⟩ := x
    by_cases h1 : i < b
    · simp [tset, h1, tget]
    · by_cases h2 : i = b
      · subst h2
        by_cases hj : j = i <;> simp [tset, tget, hj]
      · simp only [tset, h1, h2, if_false, tget, ih]
        by_cases hj : j = b
        · simp [hj, Ne.symm h2]
        · simp [hj]

@[simp] theorem tget_tset_self {α : Type} (d : α) (t : Tab α) (i : Nat) (v : α) : tget d (tset t i v) i = v := by
  simp [tget_tset]

theorem tget_tset_ne {α : Type} (d : α) (t : Tab α) {i j : Nat} (v : α) (h : j ≠ i) : tget d (tset t i v) j = tget d t j := by
  simp [tget_tset, h]

/-! ### The canonical form -/

theorem cwfFrom_mono {lo lo' : Nat} (h : lo ≤ lo') {m : Cells w} (hm : cwfFrom lo' m = true) : cwfFrom lo m = true := by
  cases m with
  | nil => rfl
  | cons x m =>
    obtain ⟨a, v⟩ := x
    simp only [cwfFrom, Bool.and_eq_true, decide_eq_true_eq] at hm ⊢
    exact ⟨⟨Nat.le_trans h hm.1.1, hm.1.2⟩, hm.2⟩

theorem cwfFrom_filter (p : Nat × BitVec w → Bool) {lo : Nat} {m : Cells w} (hm : cwfFrom lo m = true) :
    cwfFrom lo (m.filter p) = true := by
  induction m generalizing lo with
  | nil => rfl
  | cons x m ih =>
    obtain ⟨a, v⟩ := x
    simp only [cwfFrom, Bool.and_eq_true, decide_eq_true_eq] at hm
    rw [List.filter_cons]
    split
    · simp only [cwfFrom, Bool.and_eq_true, decide_eq_true_eq]
      exact ⟨hm.1, ih hm.2⟩
    · exact cwfFrom_mono (by omega) (ih hm.2)

theorem cwfFrom_cput {lo a : Nat} {v : BitVec w} (ha : lo ≤ a) (hv : v ≠ 0) {m : Cells w} (hm : cwfFrom lo m = true) :
    cwfFrom lo (cput m a v) = true := by
  induction m generalizing lo with
  | nil => simpa [cput, cwfFrom, ha] using hv
  | cons x m ih =>
    obtain ⟨b, u⟩ := x
    simp only [cwfFrom, Bool.and_eq_true, decide_eq_true_eq] at hm
    by_cases h1 : a < b
    · simp only [cput, h1, if_true, cwfFrom, Bool.and_eq_true, decide_eq_true_eq]
      exact ⟨⟨ha, hv⟩, ⟨h1, hm.1.2⟩, hm.2⟩
    · by_cases h2 : a = b
      · subst h2
        simp only [cput, Nat.lt_irrefl, if_false, if_true, cwfFrom, Bool.and_eq_true, decide_eq_true_eq]
        exact ⟨⟨ha, hv⟩, hm.2⟩
      · simp only [cput, h1, h2, if_false, cwfFrom, Bool.and_eq_true, decide_eq_true_eq]
        exact ⟨hm.1, ih (by omega) hm.2⟩

/-- A write keeps the canonical form. -/
theorem cwf_cset {m : Cells w} (a : Nat) (v : BitVec w) (hm : cwf m = true) : cwf (cset m a v) = true := by
  unfold cset
  split
  · exact cwfFrom_filter _ hm
  · exact cwfFrom_cput (Nat.zero_le _) ‹_› hm

theorem cwf_csets {m : Cells w} (l : List (BitVec w)) (a : Nat) (hm : cwf m = true) : cwf (csets m a l) = true := by
  induction l generalizing m a with
  | nil => exact hm
  | cons v l ih => exact ih _ (cwf_cset a v hm)

theorem cwf_cputs {m : Cells w} (l : List (Nat × BitVec w)) (hm : cwf m = true) : cwf (cputs m l) = true := by
  induction l generalizing m with
  | nil => exact hm
  | cons x l ih => exact ih (cwf_cset x.1 x.2 hm)

theorem cwf_czero {m : Cells w} (lo n : Nat) (hm : cwf m = true) : cwf (czero m lo n) = true := cwfFrom_filter _ hm

theorem cwf_cblit {m : Cells w} (lo n : Nat) (r : Cells w) (hm : cwf m = true) : cwf (cblit m lo n r) = true :=
  cwf_cputs _ (cwf_czero lo n hm)

theorem cwf_writeLe {m : Cells 8} (a n v : Nat) (hm : cwf m = true) : cwf (writeLe m a n v) = true := cwf_csets _ _ hm

/-- In the canonical form every entry holds what is not 0, so that memories that read alike are alike. -/
theorem cget_ne_zero_of_mem {lo : Nat} {m : Cells w} (hm : cwfFrom lo m = true) {x : Nat × BitVec w} (hx : x ∈ m) :
    lo ≤ x.1 ∧ cget m x.1 = x.2 ∧ x.2 ≠ 0 := by
  induction m generalizing lo with
  | nil => cases hx
  | cons y m ih =>
    obtain ⟨a, v⟩ := y
    simp only [cwfFrom, Bool.and_eq_true, decide_eq_true_eq] at hm
    cases hx with
    | head => exact ⟨hm.1.1, by simp [cget], hm.1.2⟩
    | tail _ hx =>
      obtain ⟨h1, h2, h3⟩ := ih hm.2 hx
      exact ⟨by omega, by rw [cget, if_neg (by omega), h2], h3⟩

/-! ### The operations over the memories of the machine -/

/-- What each step of a fold leaves as it is, the fold leaves. -/
theorem foldl_eq {α β γ : Type} (f : β → α → β) (g : β → γ) (h : ∀ s x, g (f s x) = g s) : ∀ (l : List α) (s : β), g (l.foldl f s) = g s
  | [], _ => rfl
  | x :: l, s => (foldl_eq f g h l (f s x)).trans (h s x)

/-- A write of device memory keeps its canonical form. -/
theorem cwf_pwrite {s : State} (a : Nat) (l : List Byte) (p : List Nat) (dt : Bool) (hm : cwf s.mem = true) :
    cwf (pwrite s a l p dt).mem = true := by
  unfold pwrite
  dsimp only
  split
  · exact hm
  · exact cwf_csets _ _ hm

/-- A write of host memory keeps its canonical form. -/
theorem cwf_hwrite {s : State} (fn a : Nat) (l : List Byte) (p : List Nat) (hm : cwf s.host = true) :
    cwf (hwrite s fn a l p).host = true := by
  refine cwf_csets _ _ ?_
  rw [foldl_eq (fun s (x : Nat × Nat) => hostTlp fn true x.1 x.2 false s) State.host (fun _ _ => rfl)]
  exact hm

theorem cwf_winWrite {k : CoreSt} (l : List (Nat × Byte)) (hm : cwf k.win = true) : cwf (winWrite k l).win = true :=
  cwf_cputs _ hm

theorem cwf_winLand {k : CoreSt} (l : List (Nat × Byte × Bool)) (hm : cwf k.win = true) : cwf (winLand k l).win = true :=
  cwf_cputs _ hm

theorem cwf_sumLand : ∀ {k : CoreSt} (l : List (Nat × Byte × Bool)), cwf k.win = true → cwf (sumLand k l).win = true
  | _, a :: b :: c :: d :: l, hm => cwf_sumLand l (cwf_winLand [a, b, c, d] hm)
  | _, [], hm => cwf_winLand [] hm
  | _, [a], hm => cwf_winLand [a] hm
  | _, [a, b], hm => cwf_winLand [a, b] hm
  | _, [a, b, c], hm => cwf_winLand [a, b, c] hm

theorem cwf_putLand {k : CoreSt} (kind : XKind) (l : List (Nat × Byte × Bool)) (hm : cwf k.win = true) :
    cwf (putLand kind k l).win = true := by
  unfold putLand
  split
  · exact cwf_sumLand l hm
  · exact cwf_sumLand l hm
  · exact cwf_winLand l hm

end Sys2Proof.Machine
end

