-- ==== Sys2Proof/Laws/State.lean ====
section
/-! SUPPORT. What each update of the state leaves in each field, so that no proof unfolds a record update; and what an
accessor reads after an update. -/

namespace Sys2Proof.Machine

@[simp] theorem State.setCore_cycle (s : State) (c : Nat) (k : CoreSt) : (s.setCore c k).cycle = s.cycle := rfl
@[simp] theorem State.setCore_ns (s : State) (c : Nat) (k : CoreSt) : (s.setCore c k).ns = s.ns := rfl
@[simp] theorem State.setCore_nsSet (s : State) (c : Nat) (k : CoreSt) : (s.setCore c k).nsSet = s.nsSet := rfl
@[simp] theorem State.setCore_nsWrite (s : State) (c : Nat) (k : CoreSt) : (s.setCore c k).nsWrite = s.nsWrite := rfl
@[simp] theorem State.setCore_ref (s : State) (c : Nat) (k : CoreSt) : (s.setCore c k).ref = s.ref := rfl
@[simp] theorem State.setCore_nsPhase (s : State) (c : Nat) (k : CoreSt) : (s.setCore c k).nsPhase = s.nsPhase := rfl
@[simp] theorem State.setCore_agenda (s : State) (c : Nat) (k : CoreSt) : (s.setCore c k).agenda = s.agenda := rfl
@[simp] theorem State.setCore_due (s : State) (c : Nat) (k : CoreSt) : (s.setCore c k).due = s.due := rfl
@[simp] theorem State.setCore_issue (s : State) (c : Nat) (k : CoreSt) : (s.setCore c k).issue = s.issue := rfl
@[simp] theorem State.setCore_cur (s : State) (c : Nat) (k : CoreSt) : (s.setCore c k).cur = s.cur := rfl
@[simp] theorem State.setCore_phase (s : State) (c : Nat) (k : CoreSt) : (s.setCore c k).phase = s.phase := rfl
@[simp] theorem State.setCore_inputs (s : State) (c : Nat) (k : CoreSt) : (s.setCore c k).inputs = s.inputs := rfl
@[simp] theorem State.setCore_tornHost (s : State) (c : Nat) (k : CoreSt) : (s.setCore c k).tornHost = s.tornHost := rfl
@[simp] theorem State.setCore_timers (s : State) (c : Nat) (k : CoreSt) : (s.setCore c k).timers = s.timers := rfl
@[simp] theorem State.setCore_nsTimers (s : State) (c : Nat) (k : CoreSt) : (s.setCore c k).nsTimers = s.nsTimers := rfl
@[simp] theorem State.setCore_wheel (s : State) (c : Nat) (k : CoreSt) : (s.setCore c k).wheel = s.wheel := rfl
@[simp] theorem State.setCore_free (s : State) (c : Nat) (k : CoreSt) : (s.setCore c k).free = s.free := rfl
@[simp] theorem State.setCore_pwr (s : State) (c : Nat) (k : CoreSt) : (s.setCore c k).pwr = s.pwr := rfl
@[simp] theorem State.setCore_est (s : State) (c : Nat) (k : CoreSt) : (s.setCore c k).est = s.est := rfl
@[simp] theorem State.setCore_link (s : State) (c : Nat) (k : CoreSt) : (s.setCore c k).link = s.link := rfl
@[simp] theorem State.setCore_fns (s : State) (c : Nat) (k : CoreSt) : (s.setCore c k).fns = s.fns := rfl
@[simp] theorem State.setCore_mfApr (s : State) (c : Nat) (k : CoreSt) : (s.setCore c k).mfApr = s.mfApr := rfl
@[simp] theorem State.setCore_parts (s : State) (c : Nat) (k : CoreSt) : (s.setCore c k).parts = s.parts := rfl
@[simp] theorem State.setCore_vdcmd (s : State) (c : Nat) (k : CoreSt) : (s.setCore c k).vdcmd = s.vdcmd := rfl
@[simp] theorem State.setCore_vds (s : State) (c : Nat) (k : CoreSt) : (s.setCore c k).vds = s.vds := rfl
@[simp] theorem State.setCore_counts (s : State) (c : Nat) (k : CoreSt) : (s.setCore c k).counts = s.counts := rfl
@[simp] theorem State.setCore_queues (s : State) (c : Nat) (k : CoreSt) : (s.setCore c k).queues = s.queues := rfl
@[simp] theorem State.setCore_cqs (s : State) (c : Nat) (k : CoreSt) : (s.setCore c k).cqs = s.cqs := rfl
@[simp] theorem State.setCore_rot (s : State) (c : Nat) (k : CoreSt) : (s.setCore c k).rot = s.rot := rfl
@[simp] theorem State.setCore_runs (s : State) (c : Nat) (k : CoreSt) : (s.setCore c k).runs = s.runs := rfl
@[simp] theorem State.setCore_nextRun (s : State) (c : Nat) (k : CoreSt) : (s.setCore c k).nextRun = s.nextRun := rfl
@[simp] theorem State.setCore_sigHeld (s : State) (c : Nat) (k : CoreSt) : (s.setCore c k).sigHeld = s.sigHeld := rfl
@[simp] theorem State.setCore_posts (s : State) (c : Nat) (k : CoreSt) : (s.setCore c k).posts = s.posts := rfl
@[simp] theorem State.setCore_klk (s : State) (c : Nat) (k : CoreSt) : (s.setCore c k).klk = s.klk := rfl
@[simp] theorem State.setCore_fw (s : State) (c : Nat) (k : CoreSt) : (s.setCore c k).fw = s.fw := rfl
@[simp] theorem State.setCore_wm (s : State) (c : Nat) (k : CoreSt) : (s.setCore c k).wm = s.wm := rfl
@[simp] theorem State.setCore_plc (s : State) (c : Nat) (k : CoreSt) : (s.setCore c k).plc = s.plc := rfl
@[simp] theorem State.setCore_strands (s : State) (c : Nat) (k : CoreSt) : (s.setCore c k).strands = s.strands := rfl
@[simp] theorem State.setCore_nextSid (s : State) (c : Nat) (k : CoreSt) : (s.setCore c k).nextSid = s.nextSid := rfl
@[simp] theorem State.setCore_cores (s : State) (c : Nat) (k : CoreSt) : (s.setCore c k).cores = tset s.cores c k := rfl
@[simp] theorem State.setCore_xfers (s : State) (c : Nat) (k : CoreSt) : (s.setCore c k).xfers = s.xfers := rfl
@[simp] theorem State.setCore_nextTid (s : State) (c : Nat) (k : CoreSt) : (s.setCore c k).nextTid = s.nextTid := rfl
@[simp] theorem State.setCore_saves (s : State) (c : Nat) (k : CoreSt) : (s.setCore c k).saves = s.saves := rfl
@[simp] theorem State.setCore_mem (s : State) (c : Nat) (k : CoreSt) : (s.setCore c k).mem = s.mem := rfl
@[simp] theorem State.setCore_memPoison (s : State) (c : Nat) (k : CoreSt) : (s.setCore c k).memPoison = s.memPoison := rfl
@[simp] theorem State.setCore_dirty (s : State) (c : Nat) (k : CoreSt) : (s.setCore c k).dirty = s.dirty := rfl
@[simp] theorem State.setCore_stale (s : State) (c : Nat) (k : CoreSt) : (s.setCore c k).stale = s.stale := rfl
@[simp] theorem State.setCore_tlb (s : State) (c : Nat) (k : CoreSt) : (s.setCore c k).tlb = s.tlb := rfl
@[simp] theorem State.setCore_host (s : State) (c : Nat) (k : CoreSt) : (s.setCore c k).host = s.host := rfl
@[simp] theorem State.setCore_hostPoison (s : State) (c : Nat) (k : CoreSt) : (s.setCore c k).hostPoison = s.hostPoison := rfl
@[simp] theorem State.setCore_mfFlt (s : State) (c : Nat) (k : CoreSt) : (s.setCore c k).mfFlt = s.mfFlt := rfl
@[simp] theorem State.setCore_optrc (s : State) (c : Nat) (k : CoreSt) : (s.setCore c k).optrc = s.optrc := rfl
@[simp] theorem State.setCore_tlmSel (s : State) (c : Nat) (k : CoreSt) : (s.setCore c k).tlmSel = s.tlmSel := rfl
@[simp] theorem State.setCore_enOper (s : State) (c : Nat) (k : CoreSt) : (s.setCore c k).enOper = s.enOper := rfl
@[simp] theorem State.setCore_corrected (s : State) (c : Nat) (k : CoreSt) : (s.setCore c k).corrected = s.corrected := rfl
@[simp] theorem State.setCore_out (s : State) (c : Nat) (k : CoreSt) : (s.setCore c k).out = s.out := rfl
@[simp] theorem State.setOwner_cycle (s : State) (c w : Nat) (o : Owner) : (s.setOwner c w o).cycle = s.cycle := rfl
@[simp] theorem State.setOwner_ns (s : State) (c w : Nat) (o : Owner) : (s.setOwner c w o).ns = s.ns := rfl
@[simp] theorem State.setOwner_nsSet (s : State) (c w : Nat) (o : Owner) : (s.setOwner c w o).nsSet = s.nsSet := rfl
@[simp] theorem State.setOwner_nsWrite (s : State) (c w : Nat) (o : Owner) : (s.setOwner c w o).nsWrite = s.nsWrite := rfl
@[simp] theorem State.setOwner_ref (s : State) (c w : Nat) (o : Owner) : (s.setOwner c w o).ref = s.ref := rfl
@[simp] theorem State.setOwner_nsPhase (s : State) (c w : Nat) (o : Owner) : (s.setOwner c w o).nsPhase = s.nsPhase := rfl
@[simp] theorem State.setOwner_agenda (s : State) (c w : Nat) (o : Owner) : (s.setOwner c w o).agenda = s.agenda := rfl
@[simp] theorem State.setOwner_due (s : State) (c w : Nat) (o : Owner) : (s.setOwner c w o).due = s.due := rfl
@[simp] theorem State.setOwner_issue (s : State) (c w : Nat) (o : Owner) : (s.setOwner c w o).issue = s.issue := rfl
@[simp] theorem State.setOwner_cur (s : State) (c w : Nat) (o : Owner) : (s.setOwner c w o).cur = s.cur := rfl
@[simp] theorem State.setOwner_phase (s : State) (c w : Nat) (o : Owner) : (s.setOwner c w o).phase = s.phase := rfl
@[simp] theorem State.setOwner_inputs (s : State) (c w : Nat) (o : Owner) : (s.setOwner c w o).inputs = s.inputs := rfl
@[simp] theorem State.setOwner_tornHost (s : State) (c w : Nat) (o : Owner) : (s.setOwner c w o).tornHost = s.tornHost := rfl
@[simp] theorem State.setOwner_timers (s : State) (c w : Nat) (o : Owner) : (s.setOwner c w o).timers = s.timers := rfl
@[simp] theorem State.setOwner_nsTimers (s : State) (c w : Nat) (o : Owner) : (s.setOwner c w o).nsTimers = s.nsTimers := rfl
@[simp] theorem State.setOwner_wheel (s : State) (c w : Nat) (o : Owner) : (s.setOwner c w o).wheel = s.wheel := rfl
@[simp] theorem State.setOwner_free (s : State) (c w : Nat) (o : Owner) : (s.setOwner c w o).free = s.free := rfl
@[simp] theorem State.setOwner_pwr (s : State) (c w : Nat) (o : Owner) : (s.setOwner c w o).pwr = s.pwr := rfl
@[simp] theorem State.setOwner_est (s : State) (c w : Nat) (o : Owner) : (s.setOwner c w o).est = s.est := rfl
@[simp] theorem State.setOwner_link (s : State) (c w : Nat) (o : Owner) : (s.setOwner c w o).link = s.link := rfl
@[simp] theorem State.setOwner_fns (s : State) (c w : Nat) (o : Owner) : (s.setOwner c w o).fns = s.fns := rfl
@[simp] theorem State.setOwner_mfApr (s : State) (c w : Nat) (o : Owner) : (s.setOwner c w o).mfApr = s.mfApr := rfl
@[simp] theorem State.setOwner_parts (s : State) (c w : Nat) (o : Owner) : (s.setOwner c w o).parts = s.parts := rfl
@[simp] theorem State.setOwner_vdcmd (s : State) (c w : Nat) (o : Owner) : (s.setOwner c w o).vdcmd = s.vdcmd := rfl
@[simp] theorem State.setOwner_vds (s : State) (c w : Nat) (o : Owner) : (s.setOwner c w o).vds = s.vds := rfl
@[simp] theorem State.setOwner_counts (s : State) (c w : Nat) (o : Owner) : (s.setOwner c w o).counts = s.counts := rfl
@[simp] theorem State.setOwner_queues (s : State) (c w : Nat) (o : Owner) : (s.setOwner c w o).queues = s.queues := rfl
@[simp] theorem State.setOwner_cqs (s : State) (c w : Nat) (o : Owner) : (s.setOwner c w o).cqs = s.cqs := rfl
@[simp] theorem State.setOwner_rot (s : State) (c w : Nat) (o : Owner) : (s.setOwner c w o).rot = s.rot := rfl
@[simp] theorem State.setOwner_runs (s : State) (c w : Nat) (o : Owner) : (s.setOwner c w o).runs = s.runs := rfl
@[simp] theorem State.setOwner_nextRun (s : State) (c w : Nat) (o : Owner) : (s.setOwner c w o).nextRun = s.nextRun := rfl
@[simp] theorem State.setOwner_sigHeld (s : State) (c w : Nat) (o : Owner) : (s.setOwner c w o).sigHeld = s.sigHeld := rfl
@[simp] theorem State.setOwner_posts (s : State) (c w : Nat) (o : Owner) : (s.setOwner c w o).posts = s.posts := rfl
@[simp] theorem State.setOwner_klk (s : State) (c w : Nat) (o : Owner) : (s.setOwner c w o).klk = s.klk := rfl
@[simp] theorem State.setOwner_fw (s : State) (c w : Nat) (o : Owner) : (s.setOwner c w o).fw = s.fw := rfl
@[simp] theorem State.setOwner_wm (s : State) (c w : Nat) (o : Owner) : (s.setOwner c w o).wm = s.wm := rfl
@[simp] theorem State.setOwner_plc (s : State) (c w : Nat) (o : Owner) : (s.setOwner c w o).plc = s.plc := rfl
@[simp] theorem State.setOwner_strands (s : State) (c w : Nat) (o : Owner) : (s.setOwner c w o).strands = s.strands := rfl
@[simp] theorem State.setOwner_nextSid (s : State) (c w : Nat) (o : Owner) : (s.setOwner c w o).nextSid = s.nextSid := rfl
@[simp] theorem State.setOwner_xfers (s : State) (c w : Nat) (o : Owner) : (s.setOwner c w o).xfers = s.xfers := rfl
@[simp] theorem State.setOwner_nextTid (s : State) (c w : Nat) (o : Owner) : (s.setOwner c w o).nextTid = s.nextTid := rfl
@[simp] theorem State.setOwner_saves (s : State) (c w : Nat) (o : Owner) : (s.setOwner c w o).saves = s.saves := rfl
@[simp] theorem State.setOwner_mem (s : State) (c w : Nat) (o : Owner) : (s.setOwner c w o).mem = s.mem := rfl
@[simp] theorem State.setOwner_memPoison (s : State) (c w : Nat) (o : Owner) : (s.setOwner c w o).memPoison = s.memPoison := rfl
@[simp] theorem State.setOwner_dirty (s : State) (c w : Nat) (o : Owner) : (s.setOwner c w o).dirty = s.dirty := rfl
@[simp] theorem State.setOwner_stale (s : State) (c w : Nat) (o : Owner) : (s.setOwner c w o).stale = s.stale := rfl
@[simp] theorem State.setOwner_tlb (s : State) (c w : Nat) (o : Owner) : (s.setOwner c w o).tlb = s.tlb := rfl
@[simp] theorem State.setOwner_host (s : State) (c w : Nat) (o : Owner) : (s.setOwner c w o).host = s.host := rfl
@[simp] theorem State.setOwner_hostPoison (s : State) (c w : Nat) (o : Owner) : (s.setOwner c w o).hostPoison = s.hostPoison := rfl
@[simp] theorem State.setOwner_mfFlt (s : State) (c w : Nat) (o : Owner) : (s.setOwner c w o).mfFlt = s.mfFlt := rfl
@[simp] theorem State.setOwner_optrc (s : State) (c w : Nat) (o : Owner) : (s.setOwner c w o).optrc = s.optrc := rfl
@[simp] theorem State.setOwner_tlmSel (s : State) (c w : Nat) (o : Owner) : (s.setOwner c w o).tlmSel = s.tlmSel := rfl
@[simp] theorem State.setOwner_enOper (s : State) (c w : Nat) (o : Owner) : (s.setOwner c w o).enOper = s.enOper := rfl
@[simp] theorem State.setOwner_corrected (s : State) (c w : Nat) (o : Owner) : (s.setOwner c w o).corrected = s.corrected := rfl
@[simp] theorem State.setOwner_out (s : State) (c w : Nat) (o : Owner) : (s.setOwner c w o).out = s.out := rfl
@[simp] theorem State.setCurOwner_cycle (s : State) (o : Owner) : (s.setCurOwner o).cycle = s.cycle := rfl
@[simp] theorem State.setCurOwner_ns (s : State) (o : Owner) : (s.setCurOwner o).ns = s.ns := rfl
@[simp] theorem State.setCurOwner_nsSet (s : State) (o : Owner) : (s.setCurOwner o).nsSet = s.nsSet := rfl
@[simp] theorem State.setCurOwner_nsWrite (s : State) (o : Owner) : (s.setCurOwner o).nsWrite = s.nsWrite := rfl
@[simp] theorem State.setCurOwner_ref (s : State) (o : Owner) : (s.setCurOwner o).ref = s.ref := rfl
@[simp] theorem State.setCurOwner_nsPhase (s : State) (o : Owner) : (s.setCurOwner o).nsPhase = s.nsPhase := rfl
@[simp] theorem State.setCurOwner_agenda (s : State) (o : Owner) : (s.setCurOwner o).agenda = s.agenda := rfl
@[simp] theorem State.setCurOwner_due (s : State) (o : Owner) : (s.setCurOwner o).due = s.due := rfl
@[simp] theorem State.setCurOwner_issue (s : State) (o : Owner) : (s.setCurOwner o).issue = s.issue := rfl
@[simp] theorem State.setCurOwner_cur (s : State) (o : Owner) : (s.setCurOwner o).cur = s.cur := rfl
@[simp] theorem State.setCurOwner_phase (s : State) (o : Owner) : (s.setCurOwner o).phase = s.phase := rfl
@[simp] theorem State.setCurOwner_inputs (s : State) (o : Owner) : (s.setCurOwner o).inputs = s.inputs := rfl
@[simp] theorem State.setCurOwner_tornHost (s : State) (o : Owner) : (s.setCurOwner o).tornHost = s.tornHost := rfl
@[simp] theorem State.setCurOwner_timers (s : State) (o : Owner) : (s.setCurOwner o).timers = s.timers := rfl
@[simp] theorem State.setCurOwner_nsTimers (s : State) (o : Owner) : (s.setCurOwner o).nsTimers = s.nsTimers := rfl
@[simp] theorem State.setCurOwner_wheel (s : State) (o : Owner) : (s.setCurOwner o).wheel = s.wheel := rfl
@[simp] theorem State.setCurOwner_free (s : State) (o : Owner) : (s.setCurOwner o).free = s.free := rfl
@[simp] theorem State.setCurOwner_pwr (s : State) (o : Owner) : (s.setCurOwner o).pwr = s.pwr := rfl
@[simp] theorem State.setCurOwner_est (s : State) (o : Owner) : (s.setCurOwner o).est = s.est := rfl
@[simp] theorem State.setCurOwner_link (s : State) (o : Owner) : (s.setCurOwner o).link = s.link := rfl
@[simp] theorem State.setCurOwner_fns (s : State) (o : Owner) : (s.setCurOwner o).fns = s.fns := rfl
@[simp] theorem State.setCurOwner_mfApr (s : State) (o : Owner) : (s.setCurOwner o).mfApr = s.mfApr := rfl
@[simp] theorem State.setCurOwner_parts (s : State) (o : Owner) : (s.setCurOwner o).parts = s.parts := rfl
@[simp] theorem State.setCurOwner_vdcmd (s : State) (o : Owner) : (s.setCurOwner o).vdcmd = s.vdcmd := rfl
@[simp] theorem State.setCurOwner_vds (s : State) (o : Owner) : (s.setCurOwner o).vds = s.vds := rfl
@[simp] theorem State.setCurOwner_counts (s : State) (o : Owner) : (s.setCurOwner o).counts = s.counts := rfl
@[simp] theorem State.setCurOwner_queues (s : State) (o : Owner) : (s.setCurOwner o).queues = s.queues := rfl
@[simp] theorem State.setCurOwner_cqs (s : State) (o : Owner) : (s.setCurOwner o).cqs = s.cqs := rfl
@[simp] theorem State.setCurOwner_rot (s : State) (o : Owner) : (s.setCurOwner o).rot = s.rot := rfl
@[simp] theorem State.setCurOwner_runs (s : State) (o : Owner) : (s.setCurOwner o).runs = s.runs := rfl
@[simp] theorem State.setCurOwner_nextRun (s : State) (o : Owner) : (s.setCurOwner o).nextRun = s.nextRun := rfl
@[simp] theorem State.setCurOwner_sigHeld (s : State) (o : Owner) : (s.setCurOwner o).sigHeld = s.sigHeld := rfl
@[simp] theorem State.setCurOwner_posts (s : State) (o : Owner) : (s.setCurOwner o).posts = s.posts := rfl
@[simp] theorem State.setCurOwner_klk (s : State) (o : Owner) : (s.setCurOwner o).klk = s.klk := rfl
@[simp] theorem State.setCurOwner_fw (s : State) (o : Owner) : (s.setCurOwner o).fw = s.fw := rfl
@[simp] theorem State.setCurOwner_wm (s : State) (o : Owner) : (s.setCurOwner o).wm = s.wm := rfl
@[simp] theorem State.setCurOwner_plc (s : State) (o : Owner) : (s.setCurOwner o).plc = s.plc := rfl
@[simp] theorem State.setCurOwner_strands (s : State) (o : Owner) : (s.setCurOwner o).strands = s.strands := rfl
@[simp] theorem State.setCurOwner_nextSid (s : State) (o : Owner) : (s.setCurOwner o).nextSid = s.nextSid := rfl
@[simp] theorem State.setCurOwner_xfers (s : State) (o : Owner) : (s.setCurOwner o).xfers = s.xfers := rfl
@[simp] theorem State.setCurOwner_nextTid (s : State) (o : Owner) : (s.setCurOwner o).nextTid = s.nextTid := rfl
@[simp] theorem State.setCurOwner_saves (s : State) (o : Owner) : (s.setCurOwner o).saves = s.saves := rfl
@[simp] theorem State.setCurOwner_mem (s : State) (o : Owner) : (s.setCurOwner o).mem = s.mem := rfl
@[simp] theorem State.setCurOwner_memPoison (s : State) (o : Owner) : (s.setCurOwner o).memPoison = s.memPoison := rfl
@[simp] theorem State.setCurOwner_dirty (s : State) (o : Owner) : (s.setCurOwner o).dirty = s.dirty := rfl
@[simp] theorem State.setCurOwner_stale (s : State) (o : Owner) : (s.setCurOwner o).stale = s.stale := rfl
@[simp] theorem State.setCurOwner_tlb (s : State) (o : Owner) : (s.setCurOwner o).tlb = s.tlb := rfl
@[simp] theorem State.setCurOwner_host (s : State) (o : Owner) : (s.setCurOwner o).host = s.host := rfl
@[simp] theorem State.setCurOwner_hostPoison (s : State) (o : Owner) : (s.setCurOwner o).hostPoison = s.hostPoison := rfl
@[simp] theorem State.setCurOwner_mfFlt (s : State) (o : Owner) : (s.setCurOwner o).mfFlt = s.mfFlt := rfl
@[simp] theorem State.setCurOwner_optrc (s : State) (o : Owner) : (s.setCurOwner o).optrc = s.optrc := rfl
@[simp] theorem State.setCurOwner_tlmSel (s : State) (o : Owner) : (s.setCurOwner o).tlmSel = s.tlmSel := rfl
@[simp] theorem State.setCurOwner_enOper (s : State) (o : Owner) : (s.setCurOwner o).enOper = s.enOper := rfl
@[simp] theorem State.setCurOwner_corrected (s : State) (o : Owner) : (s.setCurOwner o).corrected = s.corrected := rfl
@[simp] theorem State.setCurOwner_out (s : State) (o : Owner) : (s.setCurOwner o).out = s.out := rfl
@[simp] theorem State.setCob_cycle (s : State) (c : Nat) (b : Cobbler) : (s.setCob c b).cycle = s.cycle := rfl
@[simp] theorem State.setCob_ns (s : State) (c : Nat) (b : Cobbler) : (s.setCob c b).ns = s.ns := rfl
@[simp] theorem State.setCob_nsSet (s : State) (c : Nat) (b : Cobbler) : (s.setCob c b).nsSet = s.nsSet := rfl
@[simp] theorem State.setCob_nsWrite (s : State) (c : Nat) (b : Cobbler) : (s.setCob c b).nsWrite = s.nsWrite := rfl
@[simp] theorem State.setCob_ref (s : State) (c : Nat) (b : Cobbler) : (s.setCob c b).ref = s.ref := rfl
@[simp] theorem State.setCob_nsPhase (s : State) (c : Nat) (b : Cobbler) : (s.setCob c b).nsPhase = s.nsPhase := rfl
@[simp] theorem State.setCob_agenda (s : State) (c : Nat) (b : Cobbler) : (s.setCob c b).agenda = s.agenda := rfl
@[simp] theorem State.setCob_due (s : State) (c : Nat) (b : Cobbler) : (s.setCob c b).due = s.due := rfl
@[simp] theorem State.setCob_issue (s : State) (c : Nat) (b : Cobbler) : (s.setCob c b).issue = s.issue := rfl
@[simp] theorem State.setCob_cur (s : State) (c : Nat) (b : Cobbler) : (s.setCob c b).cur = s.cur := rfl
@[simp] theorem State.setCob_phase (s : State) (c : Nat) (b : Cobbler) : (s.setCob c b).phase = s.phase := rfl
@[simp] theorem State.setCob_inputs (s : State) (c : Nat) (b : Cobbler) : (s.setCob c b).inputs = s.inputs := rfl
@[simp] theorem State.setCob_tornHost (s : State) (c : Nat) (b : Cobbler) : (s.setCob c b).tornHost = s.tornHost := rfl
@[simp] theorem State.setCob_timers (s : State) (c : Nat) (b : Cobbler) : (s.setCob c b).timers = s.timers := rfl
@[simp] theorem State.setCob_nsTimers (s : State) (c : Nat) (b : Cobbler) : (s.setCob c b).nsTimers = s.nsTimers := rfl
@[simp] theorem State.setCob_wheel (s : State) (c : Nat) (b : Cobbler) : (s.setCob c b).wheel = s.wheel := rfl
@[simp] theorem State.setCob_free (s : State) (c : Nat) (b : Cobbler) : (s.setCob c b).free = s.free := rfl
@[simp] theorem State.setCob_pwr (s : State) (c : Nat) (b : Cobbler) : (s.setCob c b).pwr = s.pwr := rfl
@[simp] theorem State.setCob_est (s : State) (c : Nat) (b : Cobbler) : (s.setCob c b).est = s.est := rfl
@[simp] theorem State.setCob_link (s : State) (c : Nat) (b : Cobbler) : (s.setCob c b).link = s.link := rfl
@[simp] theorem State.setCob_fns (s : State) (c : Nat) (b : Cobbler) : (s.setCob c b).fns = s.fns := rfl
@[simp] theorem State.setCob_mfApr (s : State) (c : Nat) (b : Cobbler) : (s.setCob c b).mfApr = s.mfApr := rfl
@[simp] theorem State.setCob_parts (s : State) (c : Nat) (b : Cobbler) : (s.setCob c b).parts = s.parts := rfl
@[simp] theorem State.setCob_vdcmd (s : State) (c : Nat) (b : Cobbler) : (s.setCob c b).vdcmd = s.vdcmd := rfl
@[simp] theorem State.setCob_vds (s : State) (c : Nat) (b : Cobbler) : (s.setCob c b).vds = s.vds := rfl
@[simp] theorem State.setCob_counts (s : State) (c : Nat) (b : Cobbler) : (s.setCob c b).counts = s.counts := rfl
@[simp] theorem State.setCob_queues (s : State) (c : Nat) (b : Cobbler) : (s.setCob c b).queues = s.queues := rfl
@[simp] theorem State.setCob_cqs (s : State) (c : Nat) (b : Cobbler) : (s.setCob c b).cqs = s.cqs := rfl
@[simp] theorem State.setCob_rot (s : State) (c : Nat) (b : Cobbler) : (s.setCob c b).rot = s.rot := rfl
@[simp] theorem State.setCob_runs (s : State) (c : Nat) (b : Cobbler) : (s.setCob c b).runs = s.runs := rfl
@[simp] theorem State.setCob_nextRun (s : State) (c : Nat) (b : Cobbler) : (s.setCob c b).nextRun = s.nextRun := rfl
@[simp] theorem State.setCob_sigHeld (s : State) (c : Nat) (b : Cobbler) : (s.setCob c b).sigHeld = s.sigHeld := rfl
@[simp] theorem State.setCob_posts (s : State) (c : Nat) (b : Cobbler) : (s.setCob c b).posts = s.posts := rfl
@[simp] theorem State.setCob_klk (s : State) (c : Nat) (b : Cobbler) : (s.setCob c b).klk = s.klk := rfl
@[simp] theorem State.setCob_fw (s : State) (c : Nat) (b : Cobbler) : (s.setCob c b).fw = s.fw := rfl
@[simp] theorem State.setCob_wm (s : State) (c : Nat) (b : Cobbler) : (s.setCob c b).wm = s.wm := rfl
@[simp] theorem State.setCob_plc (s : State) (c : Nat) (b : Cobbler) : (s.setCob c b).plc = s.plc := rfl
@[simp] theorem State.setCob_strands (s : State) (c : Nat) (b : Cobbler) : (s.setCob c b).strands = s.strands := rfl
@[simp] theorem State.setCob_nextSid (s : State) (c : Nat) (b : Cobbler) : (s.setCob c b).nextSid = s.nextSid := rfl
@[simp] theorem State.setCob_xfers (s : State) (c : Nat) (b : Cobbler) : (s.setCob c b).xfers = s.xfers := rfl
@[simp] theorem State.setCob_nextTid (s : State) (c : Nat) (b : Cobbler) : (s.setCob c b).nextTid = s.nextTid := rfl
@[simp] theorem State.setCob_saves (s : State) (c : Nat) (b : Cobbler) : (s.setCob c b).saves = s.saves := rfl
@[simp] theorem State.setCob_mem (s : State) (c : Nat) (b : Cobbler) : (s.setCob c b).mem = s.mem := rfl
@[simp] theorem State.setCob_memPoison (s : State) (c : Nat) (b : Cobbler) : (s.setCob c b).memPoison = s.memPoison := rfl
@[simp] theorem State.setCob_dirty (s : State) (c : Nat) (b : Cobbler) : (s.setCob c b).dirty = s.dirty := rfl
@[simp] theorem State.setCob_stale (s : State) (c : Nat) (b : Cobbler) : (s.setCob c b).stale = s.stale := rfl
@[simp] theorem State.setCob_tlb (s : State) (c : Nat) (b : Cobbler) : (s.setCob c b).tlb = s.tlb := rfl
@[simp] theorem State.setCob_host (s : State) (c : Nat) (b : Cobbler) : (s.setCob c b).host = s.host := rfl
@[simp] theorem State.setCob_hostPoison (s : State) (c : Nat) (b : Cobbler) : (s.setCob c b).hostPoison = s.hostPoison := rfl
@[simp] theorem State.setCob_mfFlt (s : State) (c : Nat) (b : Cobbler) : (s.setCob c b).mfFlt = s.mfFlt := rfl
@[simp] theorem State.setCob_optrc (s : State) (c : Nat) (b : Cobbler) : (s.setCob c b).optrc = s.optrc := rfl
@[simp] theorem State.setCob_tlmSel (s : State) (c : Nat) (b : Cobbler) : (s.setCob c b).tlmSel = s.tlmSel := rfl
@[simp] theorem State.setCob_enOper (s : State) (c : Nat) (b : Cobbler) : (s.setCob c b).enOper = s.enOper := rfl
@[simp] theorem State.setCob_corrected (s : State) (c : Nat) (b : Cobbler) : (s.setCob c b).corrected = s.corrected := rfl
@[simp] theorem State.setCob_out (s : State) (c : Nat) (b : Cobbler) : (s.setCob c b).out = s.out := rfl
@[simp] theorem State.setStrand_cycle (s : State) (i : Nat) (t : Strand) : (s.setStrand i t).cycle = s.cycle := rfl
@[simp] theorem State.setStrand_ns (s : State) (i : Nat) (t : Strand) : (s.setStrand i t).ns = s.ns := rfl
@[simp] theorem State.setStrand_nsSet (s : State) (i : Nat) (t : Strand) : (s.setStrand i t).nsSet = s.nsSet := rfl
@[simp] theorem State.setStrand_nsWrite (s : State) (i : Nat) (t : Strand) : (s.setStrand i t).nsWrite = s.nsWrite := rfl
@[simp] theorem State.setStrand_ref (s : State) (i : Nat) (t : Strand) : (s.setStrand i t).ref = s.ref := rfl
@[simp] theorem State.setStrand_nsPhase (s : State) (i : Nat) (t : Strand) : (s.setStrand i t).nsPhase = s.nsPhase := rfl
@[simp] theorem State.setStrand_agenda (s : State) (i : Nat) (t : Strand) : (s.setStrand i t).agenda = s.agenda := rfl
@[simp] theorem State.setStrand_due (s : State) (i : Nat) (t : Strand) : (s.setStrand i t).due = s.due := rfl
@[simp] theorem State.setStrand_issue (s : State) (i : Nat) (t : Strand) : (s.setStrand i t).issue = s.issue := rfl
@[simp] theorem State.setStrand_cur (s : State) (i : Nat) (t : Strand) : (s.setStrand i t).cur = s.cur := rfl
@[simp] theorem State.setStrand_phase (s : State) (i : Nat) (t : Strand) : (s.setStrand i t).phase = s.phase := rfl
@[simp] theorem State.setStrand_inputs (s : State) (i : Nat) (t : Strand) : (s.setStrand i t).inputs = s.inputs := rfl
@[simp] theorem State.setStrand_tornHost (s : State) (i : Nat) (t : Strand) : (s.setStrand i t).tornHost = s.tornHost := rfl
@[simp] theorem State.setStrand_timers (s : State) (i : Nat) (t : Strand) : (s.setStrand i t).timers = s.timers := rfl
@[simp] theorem State.setStrand_nsTimers (s : State) (i : Nat) (t : Strand) : (s.setStrand i t).nsTimers = s.nsTimers := rfl
@[simp] theorem State.setStrand_wheel (s : State) (i : Nat) (t : Strand) : (s.setStrand i t).wheel = s.wheel := rfl
@[simp] theorem State.setStrand_free (s : State) (i : Nat) (t : Strand) : (s.setStrand i t).free = s.free := rfl
@[simp] theorem State.setStrand_pwr (s : State) (i : Nat) (t : Strand) : (s.setStrand i t).pwr = s.pwr := rfl
@[simp] theorem State.setStrand_est (s : State) (i : Nat) (t : Strand) : (s.setStrand i t).est = s.est := rfl
@[simp] theorem State.setStrand_link (s : State) (i : Nat) (t : Strand) : (s.setStrand i t).link = s.link := rfl
@[simp] theorem State.setStrand_fns (s : State) (i : Nat) (t : Strand) : (s.setStrand i t).fns = s.fns := rfl
@[simp] theorem State.setStrand_mfApr (s : State) (i : Nat) (t : Strand) : (s.setStrand i t).mfApr = s.mfApr := rfl
@[simp] theorem State.setStrand_parts (s : State) (i : Nat) (t : Strand) : (s.setStrand i t).parts = s.parts := rfl
@[simp] theorem State.setStrand_vdcmd (s : State) (i : Nat) (t : Strand) : (s.setStrand i t).vdcmd = s.vdcmd := rfl
@[simp] theorem State.setStrand_vds (s : State) (i : Nat) (t : Strand) : (s.setStrand i t).vds = s.vds := rfl
@[simp] theorem State.setStrand_counts (s : State) (i : Nat) (t : Strand) : (s.setStrand i t).counts = s.counts := rfl
@[simp] theorem State.setStrand_queues (s : State) (i : Nat) (t : Strand) : (s.setStrand i t).queues = s.queues := rfl
@[simp] theorem State.setStrand_cqs (s : State) (i : Nat) (t : Strand) : (s.setStrand i t).cqs = s.cqs := rfl
@[simp] theorem State.setStrand_rot (s : State) (i : Nat) (t : Strand) : (s.setStrand i t).rot = s.rot := rfl
@[simp] theorem State.setStrand_runs (s : State) (i : Nat) (t : Strand) : (s.setStrand i t).runs = s.runs := rfl
@[simp] theorem State.setStrand_nextRun (s : State) (i : Nat) (t : Strand) : (s.setStrand i t).nextRun = s.nextRun := rfl
@[simp] theorem State.setStrand_sigHeld (s : State) (i : Nat) (t : Strand) : (s.setStrand i t).sigHeld = s.sigHeld := rfl
@[simp] theorem State.setStrand_posts (s : State) (i : Nat) (t : Strand) : (s.setStrand i t).posts = s.posts := rfl
@[simp] theorem State.setStrand_klk (s : State) (i : Nat) (t : Strand) : (s.setStrand i t).klk = s.klk := rfl
@[simp] theorem State.setStrand_fw (s : State) (i : Nat) (t : Strand) : (s.setStrand i t).fw = s.fw := rfl
@[simp] theorem State.setStrand_wm (s : State) (i : Nat) (t : Strand) : (s.setStrand i t).wm = s.wm := rfl
@[simp] theorem State.setStrand_plc (s : State) (i : Nat) (t : Strand) : (s.setStrand i t).plc = s.plc := rfl
@[simp] theorem State.setStrand_strands (s : State) (i : Nat) (t : Strand) : (s.setStrand i t).strands = tset s.strands i t := rfl
@[simp] theorem State.setStrand_nextSid (s : State) (i : Nat) (t : Strand) : (s.setStrand i t).nextSid = s.nextSid := rfl
@[simp] theorem State.setStrand_cores (s : State) (i : Nat) (t : Strand) : (s.setStrand i t).cores = s.cores := rfl
@[simp] theorem State.setStrand_xfers (s : State) (i : Nat) (t : Strand) : (s.setStrand i t).xfers = s.xfers := rfl
@[simp] theorem State.setStrand_nextTid (s : State) (i : Nat) (t : Strand) : (s.setStrand i t).nextTid = s.nextTid := rfl
@[simp] theorem State.setStrand_saves (s : State) (i : Nat) (t : Strand) : (s.setStrand i t).saves = s.saves := rfl
@[simp] theorem State.setStrand_mem (s : State) (i : Nat) (t : Strand) : (s.setStrand i t).mem = s.mem := rfl
@[simp] theorem State.setStrand_memPoison (s : State) (i : Nat) (t : Strand) : (s.setStrand i t).memPoison = s.memPoison := rfl
@[simp] theorem State.setStrand_dirty (s : State) (i : Nat) (t : Strand) : (s.setStrand i t).dirty = s.dirty := rfl
@[simp] theorem State.setStrand_stale (s : State) (i : Nat) (t : Strand) : (s.setStrand i t).stale = s.stale := rfl
@[simp] theorem State.setStrand_tlb (s : State) (i : Nat) (t : Strand) : (s.setStrand i t).tlb = s.tlb := rfl
@[simp] theorem State.setStrand_host (s : State) (i : Nat) (t : Strand) : (s.setStrand i t).host = s.host := rfl
@[simp] theorem State.setStrand_hostPoison (s : State) (i : Nat) (t : Strand) : (s.setStrand i t).hostPoison = s.hostPoison := rfl
@[simp] theorem State.setStrand_mfFlt (s : State) (i : Nat) (t : Strand) : (s.setStrand i t).mfFlt = s.mfFlt := rfl
@[simp] theorem State.setStrand_optrc (s : State) (i : Nat) (t : Strand) : (s.setStrand i t).optrc = s.optrc := rfl
@[simp] theorem State.setStrand_tlmSel (s : State) (i : Nat) (t : Strand) : (s.setStrand i t).tlmSel = s.tlmSel := rfl
@[simp] theorem State.setStrand_enOper (s : State) (i : Nat) (t : Strand) : (s.setStrand i t).enOper = s.enOper := rfl
@[simp] theorem State.setStrand_corrected (s : State) (i : Nat) (t : Strand) : (s.setStrand i t).corrected = s.corrected := rfl
@[simp] theorem State.setStrand_out (s : State) (i : Nat) (t : Strand) : (s.setStrand i t).out = s.out := rfl
@[simp] theorem State.setVd_cycle (s : State) (c : Nat) (v : Vd) : (s.setVd c v).cycle = s.cycle := rfl
@[simp] theorem State.setVd_ns (s : State) (c : Nat) (v : Vd) : (s.setVd c v).ns = s.ns := rfl
@[simp] theorem State.setVd_nsSet (s : State) (c : Nat) (v : Vd) : (s.setVd c v).nsSet = s.nsSet := rfl
@[simp] theorem State.setVd_nsWrite (s : State) (c : Nat) (v : Vd) : (s.setVd c v).nsWrite = s.nsWrite := rfl
@[simp] theorem State.setVd_ref (s : State) (c : Nat) (v : Vd) : (s.setVd c v).ref = s.ref := rfl
@[simp] theorem State.setVd_nsPhase (s : State) (c : Nat) (v : Vd) : (s.setVd c v).nsPhase = s.nsPhase := rfl
@[simp] theorem State.setVd_agenda (s : State) (c : Nat) (v : Vd) : (s.setVd c v).agenda = s.agenda := rfl
@[simp] theorem State.setVd_due (s : State) (c : Nat) (v : Vd) : (s.setVd c v).due = s.due := rfl
@[simp] theorem State.setVd_issue (s : State) (c : Nat) (v : Vd) : (s.setVd c v).issue = s.issue := rfl
@[simp] theorem State.setVd_cur (s : State) (c : Nat) (v : Vd) : (s.setVd c v).cur = s.cur := rfl
@[simp] theorem State.setVd_phase (s : State) (c : Nat) (v : Vd) : (s.setVd c v).phase = s.phase := rfl
@[simp] theorem State.setVd_inputs (s : State) (c : Nat) (v : Vd) : (s.setVd c v).inputs = s.inputs := rfl
@[simp] theorem State.setVd_tornHost (s : State) (c : Nat) (v : Vd) : (s.setVd c v).tornHost = s.tornHost := rfl
@[simp] theorem State.setVd_timers (s : State) (c : Nat) (v : Vd) : (s.setVd c v).timers = s.timers := rfl
@[simp] theorem State.setVd_nsTimers (s : State) (c : Nat) (v : Vd) : (s.setVd c v).nsTimers = s.nsTimers := rfl
@[simp] theorem State.setVd_wheel (s : State) (c : Nat) (v : Vd) : (s.setVd c v).wheel = s.wheel := rfl
@[simp] theorem State.setVd_free (s : State) (c : Nat) (v : Vd) : (s.setVd c v).free = s.free := rfl
@[simp] theorem State.setVd_pwr (s : State) (c : Nat) (v : Vd) : (s.setVd c v).pwr = s.pwr := rfl
@[simp] theorem State.setVd_est (s : State) (c : Nat) (v : Vd) : (s.setVd c v).est = s.est := rfl
@[simp] theorem State.setVd_link (s : State) (c : Nat) (v : Vd) : (s.setVd c v).link = s.link := rfl
@[simp] theorem State.setVd_fns (s : State) (c : Nat) (v : Vd) : (s.setVd c v).fns = s.fns := rfl
@[simp] theorem State.setVd_mfApr (s : State) (c : Nat) (v : Vd) : (s.setVd c v).mfApr = s.mfApr := rfl
@[simp] theorem State.setVd_parts (s : State) (c : Nat) (v : Vd) : (s.setVd c v).parts = s.parts := rfl
@[simp] theorem State.setVd_vdcmd (s : State) (c : Nat) (v : Vd) : (s.setVd c v).vdcmd = s.vdcmd := rfl
@[simp] theorem State.setVd_vds (s : State) (c : Nat) (v : Vd) : (s.setVd c v).vds = tset s.vds c v := rfl
@[simp] theorem State.setVd_counts (s : State) (c : Nat) (v : Vd) : (s.setVd c v).counts = s.counts := rfl
@[simp] theorem State.setVd_queues (s : State) (c : Nat) (v : Vd) : (s.setVd c v).queues = s.queues := rfl
@[simp] theorem State.setVd_cqs (s : State) (c : Nat) (v : Vd) : (s.setVd c v).cqs = s.cqs := rfl
@[simp] theorem State.setVd_rot (s : State) (c : Nat) (v : Vd) : (s.setVd c v).rot = s.rot := rfl
@[simp] theorem State.setVd_runs (s : State) (c : Nat) (v : Vd) : (s.setVd c v).runs = s.runs := rfl
@[simp] theorem State.setVd_nextRun (s : State) (c : Nat) (v : Vd) : (s.setVd c v).nextRun = s.nextRun := rfl
@[simp] theorem State.setVd_sigHeld (s : State) (c : Nat) (v : Vd) : (s.setVd c v).sigHeld = s.sigHeld := rfl
@[simp] theorem State.setVd_posts (s : State) (c : Nat) (v : Vd) : (s.setVd c v).posts = s.posts := rfl
@[simp] theorem State.setVd_klk (s : State) (c : Nat) (v : Vd) : (s.setVd c v).klk = s.klk := rfl
@[simp] theorem State.setVd_fw (s : State) (c : Nat) (v : Vd) : (s.setVd c v).fw = s.fw := rfl
@[simp] theorem State.setVd_wm (s : State) (c : Nat) (v : Vd) : (s.setVd c v).wm = s.wm := rfl
@[simp] theorem State.setVd_plc (s : State) (c : Nat) (v : Vd) : (s.setVd c v).plc = s.plc := rfl
@[simp] theorem State.setVd_strands (s : State) (c : Nat) (v : Vd) : (s.setVd c v).strands = s.strands := rfl
@[simp] theorem State.setVd_nextSid (s : State) (c : Nat) (v : Vd) : (s.setVd c v).nextSid = s.nextSid := rfl
@[simp] theorem State.setVd_cores (s : State) (c : Nat) (v : Vd) : (s.setVd c v).cores = s.cores := rfl
@[simp] theorem State.setVd_xfers (s : State) (c : Nat) (v : Vd) : (s.setVd c v).xfers = s.xfers := rfl
@[simp] theorem State.setVd_nextTid (s : State) (c : Nat) (v : Vd) : (s.setVd c v).nextTid = s.nextTid := rfl
@[simp] theorem State.setVd_saves (s : State) (c : Nat) (v : Vd) : (s.setVd c v).saves = s.saves := rfl
@[simp] theorem State.setVd_mem (s : State) (c : Nat) (v : Vd) : (s.setVd c v).mem = s.mem := rfl
@[simp] theorem State.setVd_memPoison (s : State) (c : Nat) (v : Vd) : (s.setVd c v).memPoison = s.memPoison := rfl
@[simp] theorem State.setVd_dirty (s : State) (c : Nat) (v : Vd) : (s.setVd c v).dirty = s.dirty := rfl
@[simp] theorem State.setVd_stale (s : State) (c : Nat) (v : Vd) : (s.setVd c v).stale = s.stale := rfl
@[simp] theorem State.setVd_tlb (s : State) (c : Nat) (v : Vd) : (s.setVd c v).tlb = s.tlb := rfl
@[simp] theorem State.setVd_host (s : State) (c : Nat) (v : Vd) : (s.setVd c v).host = s.host := rfl
@[simp] theorem State.setVd_hostPoison (s : State) (c : Nat) (v : Vd) : (s.setVd c v).hostPoison = s.hostPoison := rfl
@[simp] theorem State.setVd_mfFlt (s : State) (c : Nat) (v : Vd) : (s.setVd c v).mfFlt = s.mfFlt := rfl
@[simp] theorem State.setVd_optrc (s : State) (c : Nat) (v : Vd) : (s.setVd c v).optrc = s.optrc := rfl
@[simp] theorem State.setVd_tlmSel (s : State) (c : Nat) (v : Vd) : (s.setVd c v).tlmSel = s.tlmSel := rfl
@[simp] theorem State.setVd_enOper (s : State) (c : Nat) (v : Vd) : (s.setVd c v).enOper = s.enOper := rfl
@[simp] theorem State.setVd_corrected (s : State) (c : Nat) (v : Vd) : (s.setVd c v).corrected = s.corrected := rfl
@[simp] theorem State.setVd_out (s : State) (c : Nat) (v : Vd) : (s.setVd c v).out = s.out := rfl
@[simp] theorem State.setFn_cycle (s : State) (f : Nat) (v : Fn) : (s.setFn f v).cycle = s.cycle := rfl
@[simp] theorem State.setFn_ns (s : State) (f : Nat) (v : Fn) : (s.setFn f v).ns = s.ns := rfl
@[simp] theorem State.setFn_nsSet (s : State) (f : Nat) (v : Fn) : (s.setFn f v).nsSet = s.nsSet := rfl
@[simp] theorem State.setFn_nsWrite (s : State) (f : Nat) (v : Fn) : (s.setFn f v).nsWrite = s.nsWrite := rfl
@[simp] theorem State.setFn_ref (s : State) (f : Nat) (v : Fn) : (s.setFn f v).ref = s.ref := rfl
@[simp] theorem State.setFn_nsPhase (s : State) (f : Nat) (v : Fn) : (s.setFn f v).nsPhase = s.nsPhase := rfl
@[simp] theorem State.setFn_agenda (s : State) (f : Nat) (v : Fn) : (s.setFn f v).agenda = s.agenda := rfl
@[simp] theorem State.setFn_due (s : State) (f : Nat) (v : Fn) : (s.setFn f v).due = s.due := rfl
@[simp] theorem State.setFn_issue (s : State) (f : Nat) (v : Fn) : (s.setFn f v).issue = s.issue := rfl
@[simp] theorem State.setFn_cur (s : State) (f : Nat) (v : Fn) : (s.setFn f v).cur = s.cur := rfl
@[simp] theorem State.setFn_phase (s : State) (f : Nat) (v : Fn) : (s.setFn f v).phase = s.phase := rfl
@[simp] theorem State.setFn_inputs (s : State) (f : Nat) (v : Fn) : (s.setFn f v).inputs = s.inputs := rfl
@[simp] theorem State.setFn_tornHost (s : State) (f : Nat) (v : Fn) : (s.setFn f v).tornHost = s.tornHost := rfl
@[simp] theorem State.setFn_timers (s : State) (f : Nat) (v : Fn) : (s.setFn f v).timers = s.timers := rfl
@[simp] theorem State.setFn_nsTimers (s : State) (f : Nat) (v : Fn) : (s.setFn f v).nsTimers = s.nsTimers := rfl
@[simp] theorem State.setFn_wheel (s : State) (f : Nat) (v : Fn) : (s.setFn f v).wheel = s.wheel := rfl
@[simp] theorem State.setFn_free (s : State) (f : Nat) (v : Fn) : (s.setFn f v).free = s.free := rfl
@[simp] theorem State.setFn_pwr (s : State) (f : Nat) (v : Fn) : (s.setFn f v).pwr = s.pwr := rfl
@[simp] theorem State.setFn_est (s : State) (f : Nat) (v : Fn) : (s.setFn f v).est = s.est := rfl
@[simp] theorem State.setFn_link (s : State) (f : Nat) (v : Fn) : (s.setFn f v).link = s.link := rfl
@[simp] theorem State.setFn_fns (s : State) (f : Nat) (v : Fn) : (s.setFn f v).fns = tset s.fns f v := rfl
@[simp] theorem State.setFn_mfApr (s : State) (f : Nat) (v : Fn) : (s.setFn f v).mfApr = s.mfApr := rfl
@[simp] theorem State.setFn_parts (s : State) (f : Nat) (v : Fn) : (s.setFn f v).parts = s.parts := rfl
@[simp] theorem State.setFn_vdcmd (s : State) (f : Nat) (v : Fn) : (s.setFn f v).vdcmd = s.vdcmd := rfl
@[simp] theorem State.setFn_vds (s : State) (f : Nat) (v : Fn) : (s.setFn f v).vds = s.vds := rfl
@[simp] theorem State.setFn_counts (s : State) (f : Nat) (v : Fn) : (s.setFn f v).counts = s.counts := rfl
@[simp] theorem State.setFn_queues (s : State) (f : Nat) (v : Fn) : (s.setFn f v).queues = s.queues := rfl
@[simp] theorem State.setFn_cqs (s : State) (f : Nat) (v : Fn) : (s.setFn f v).cqs = s.cqs := rfl
@[simp] theorem State.setFn_rot (s : State) (f : Nat) (v : Fn) : (s.setFn f v).rot = s.rot := rfl
@[simp] theorem State.setFn_runs (s : State) (f : Nat) (v : Fn) : (s.setFn f v).runs = s.runs := rfl
@[simp] theorem State.setFn_nextRun (s : State) (f : Nat) (v : Fn) : (s.setFn f v).nextRun = s.nextRun := rfl
@[simp] theorem State.setFn_sigHeld (s : State) (f : Nat) (v : Fn) : (s.setFn f v).sigHeld = s.sigHeld := rfl
@[simp] theorem State.setFn_posts (s : State) (f : Nat) (v : Fn) : (s.setFn f v).posts = s.posts := rfl
@[simp] theorem State.setFn_klk (s : State) (f : Nat) (v : Fn) : (s.setFn f v).klk = s.klk := rfl
@[simp] theorem State.setFn_fw (s : State) (f : Nat) (v : Fn) : (s.setFn f v).fw = s.fw := rfl
@[simp] theorem State.setFn_wm (s : State) (f : Nat) (v : Fn) : (s.setFn f v).wm = s.wm := rfl
@[simp] theorem State.setFn_plc (s : State) (f : Nat) (v : Fn) : (s.setFn f v).plc = s.plc := rfl
@[simp] theorem State.setFn_strands (s : State) (f : Nat) (v : Fn) : (s.setFn f v).strands = s.strands := rfl
@[simp] theorem State.setFn_nextSid (s : State) (f : Nat) (v : Fn) : (s.setFn f v).nextSid = s.nextSid := rfl
@[simp] theorem State.setFn_cores (s : State) (f : Nat) (v : Fn) : (s.setFn f v).cores = s.cores := rfl
@[simp] theorem State.setFn_xfers (s : State) (f : Nat) (v : Fn) : (s.setFn f v).xfers = s.xfers := rfl
@[simp] theorem State.setFn_nextTid (s : State) (f : Nat) (v : Fn) : (s.setFn f v).nextTid = s.nextTid := rfl
@[simp] theorem State.setFn_saves (s : State) (f : Nat) (v : Fn) : (s.setFn f v).saves = s.saves := rfl
@[simp] theorem State.setFn_mem (s : State) (f : Nat) (v : Fn) : (s.setFn f v).mem = s.mem := rfl
@[simp] theorem State.setFn_memPoison (s : State) (f : Nat) (v : Fn) : (s.setFn f v).memPoison = s.memPoison := rfl
@[simp] theorem State.setFn_dirty (s : State) (f : Nat) (v : Fn) : (s.setFn f v).dirty = s.dirty := rfl
@[simp] theorem State.setFn_stale (s : State) (f : Nat) (v : Fn) : (s.setFn f v).stale = s.stale := rfl
@[simp] theorem State.setFn_tlb (s : State) (f : Nat) (v : Fn) : (s.setFn f v).tlb = s.tlb := rfl
@[simp] theorem State.setFn_host (s : State) (f : Nat) (v : Fn) : (s.setFn f v).host = s.host := rfl
@[simp] theorem State.setFn_hostPoison (s : State) (f : Nat) (v : Fn) : (s.setFn f v).hostPoison = s.hostPoison := rfl
@[simp] theorem State.setFn_mfFlt (s : State) (f : Nat) (v : Fn) : (s.setFn f v).mfFlt = s.mfFlt := rfl
@[simp] theorem State.setFn_optrc (s : State) (f : Nat) (v : Fn) : (s.setFn f v).optrc = s.optrc := rfl
@[simp] theorem State.setFn_tlmSel (s : State) (f : Nat) (v : Fn) : (s.setFn f v).tlmSel = s.tlmSel := rfl
@[simp] theorem State.setFn_enOper (s : State) (f : Nat) (v : Fn) : (s.setFn f v).enOper = s.enOper := rfl
@[simp] theorem State.setFn_corrected (s : State) (f : Nat) (v : Fn) : (s.setFn f v).corrected = s.corrected := rfl
@[simp] theorem State.setFn_out (s : State) (f : Nat) (v : Fn) : (s.setFn f v).out = s.out := rfl
@[simp] theorem State.setQueue_cycle (s : State) (f q : Nat) (v : Queue) : (s.setQueue f q v).cycle = s.cycle := rfl
@[simp] theorem State.setQueue_ns (s : State) (f q : Nat) (v : Queue) : (s.setQueue f q v).ns = s.ns := rfl
@[simp] theorem State.setQueue_nsSet (s : State) (f q : Nat) (v : Queue) : (s.setQueue f q v).nsSet = s.nsSet := rfl
@[simp] theorem State.setQueue_nsWrite (s : State) (f q : Nat) (v : Queue) : (s.setQueue f q v).nsWrite = s.nsWrite := rfl
@[simp] theorem State.setQueue_ref (s : State) (f q : Nat) (v : Queue) : (s.setQueue f q v).ref = s.ref := rfl
@[simp] theorem State.setQueue_nsPhase (s : State) (f q : Nat) (v : Queue) : (s.setQueue f q v).nsPhase = s.nsPhase := rfl
@[simp] theorem State.setQueue_agenda (s : State) (f q : Nat) (v : Queue) : (s.setQueue f q v).agenda = s.agenda := rfl
@[simp] theorem State.setQueue_due (s : State) (f q : Nat) (v : Queue) : (s.setQueue f q v).due = s.due := rfl
@[simp] theorem State.setQueue_issue (s : State) (f q : Nat) (v : Queue) : (s.setQueue f q v).issue = s.issue := rfl
@[simp] theorem State.setQueue_cur (s : State) (f q : Nat) (v : Queue) : (s.setQueue f q v).cur = s.cur := rfl
@[simp] theorem State.setQueue_phase (s : State) (f q : Nat) (v : Queue) : (s.setQueue f q v).phase = s.phase := rfl
@[simp] theorem State.setQueue_inputs (s : State) (f q : Nat) (v : Queue) : (s.setQueue f q v).inputs = s.inputs := rfl
@[simp] theorem State.setQueue_tornHost (s : State) (f q : Nat) (v : Queue) : (s.setQueue f q v).tornHost = s.tornHost := rfl
@[simp] theorem State.setQueue_timers (s : State) (f q : Nat) (v : Queue) : (s.setQueue f q v).timers = s.timers := rfl
@[simp] theorem State.setQueue_nsTimers (s : State) (f q : Nat) (v : Queue) : (s.setQueue f q v).nsTimers = s.nsTimers := rfl
@[simp] theorem State.setQueue_wheel (s : State) (f q : Nat) (v : Queue) : (s.setQueue f q v).wheel = s.wheel := rfl
@[simp] theorem State.setQueue_free (s : State) (f q : Nat) (v : Queue) : (s.setQueue f q v).free = s.free := rfl
@[simp] theorem State.setQueue_pwr (s : State) (f q : Nat) (v : Queue) : (s.setQueue f q v).pwr = s.pwr := rfl
@[simp] theorem State.setQueue_est (s : State) (f q : Nat) (v : Queue) : (s.setQueue f q v).est = s.est := rfl
@[simp] theorem State.setQueue_link (s : State) (f q : Nat) (v : Queue) : (s.setQueue f q v).link = s.link := rfl
@[simp] theorem State.setQueue_fns (s : State) (f q : Nat) (v : Queue) : (s.setQueue f q v).fns = s.fns := rfl
@[simp] theorem State.setQueue_mfApr (s : State) (f q : Nat) (v : Queue) : (s.setQueue f q v).mfApr = s.mfApr := rfl
@[simp] theorem State.setQueue_parts (s : State) (f q : Nat) (v : Queue) : (s.setQueue f q v).parts = s.parts := rfl
@[simp] theorem State.setQueue_vdcmd (s : State) (f q : Nat) (v : Queue) : (s.setQueue f q v).vdcmd = s.vdcmd := rfl
@[simp] theorem State.setQueue_vds (s : State) (f q : Nat) (v : Queue) : (s.setQueue f q v).vds = s.vds := rfl
@[simp] theorem State.setQueue_counts (s : State) (f q : Nat) (v : Queue) : (s.setQueue f q v).counts = s.counts := rfl
@[simp] theorem State.setQueue_queues (s : State) (f q : Nat) (v : Queue) : (s.setQueue f q v).queues = tset s.queues (64 * f + q) v := rfl
@[simp] theorem State.setQueue_cqs (s : State) (f q : Nat) (v : Queue) : (s.setQueue f q v).cqs = s.cqs := rfl
@[simp] theorem State.setQueue_rot (s : State) (f q : Nat) (v : Queue) : (s.setQueue f q v).rot = s.rot := rfl
@[simp] theorem State.setQueue_runs (s : State) (f q : Nat) (v : Queue) : (s.setQueue f q v).runs = s.runs := rfl
@[simp] theorem State.setQueue_nextRun (s : State) (f q : Nat) (v : Queue) : (s.setQueue f q v).nextRun = s.nextRun := rfl
@[simp] theorem State.setQueue_sigHeld (s : State) (f q : Nat) (v : Queue) : (s.setQueue f q v).sigHeld = s.sigHeld := rfl
@[simp] theorem State.setQueue_posts (s : State) (f q : Nat) (v : Queue) : (s.setQueue f q v).posts = s.posts := rfl
@[simp] theorem State.setQueue_klk (s : State) (f q : Nat) (v : Queue) : (s.setQueue f q v).klk = s.klk := rfl
@[simp] theorem State.setQueue_fw (s : State) (f q : Nat) (v : Queue) : (s.setQueue f q v).fw = s.fw := rfl
@[simp] theorem State.setQueue_wm (s : State) (f q : Nat) (v : Queue) : (s.setQueue f q v).wm = s.wm := rfl
@[simp] theorem State.setQueue_plc (s : State) (f q : Nat) (v : Queue) : (s.setQueue f q v).plc = s.plc := rfl
@[simp] theorem State.setQueue_strands (s : State) (f q : Nat) (v : Queue) : (s.setQueue f q v).strands = s.strands := rfl
@[simp] theorem State.setQueue_nextSid (s : State) (f q : Nat) (v : Queue) : (s.setQueue f q v).nextSid = s.nextSid := rfl
@[simp] theorem State.setQueue_cores (s : State) (f q : Nat) (v : Queue) : (s.setQueue f q v).cores = s.cores := rfl
@[simp] theorem State.setQueue_xfers (s : State) (f q : Nat) (v : Queue) : (s.setQueue f q v).xfers = s.xfers := rfl
@[simp] theorem State.setQueue_nextTid (s : State) (f q : Nat) (v : Queue) : (s.setQueue f q v).nextTid = s.nextTid := rfl
@[simp] theorem State.setQueue_saves (s : State) (f q : Nat) (v : Queue) : (s.setQueue f q v).saves = s.saves := rfl
@[simp] theorem State.setQueue_mem (s : State) (f q : Nat) (v : Queue) : (s.setQueue f q v).mem = s.mem := rfl
@[simp] theorem State.setQueue_memPoison (s : State) (f q : Nat) (v : Queue) : (s.setQueue f q v).memPoison = s.memPoison := rfl
@[simp] theorem State.setQueue_dirty (s : State) (f q : Nat) (v : Queue) : (s.setQueue f q v).dirty = s.dirty := rfl
@[simp] theorem State.setQueue_stale (s : State) (f q : Nat) (v : Queue) : (s.setQueue f q v).stale = s.stale := rfl
@[simp] theorem State.setQueue_tlb (s : State) (f q : Nat) (v : Queue) : (s.setQueue f q v).tlb = s.tlb := rfl
@[simp] theorem State.setQueue_host (s : State) (f q : Nat) (v : Queue) : (s.setQueue f q v).host = s.host := rfl
@[simp] theorem State.setQueue_hostPoison (s : State) (f q : Nat) (v : Queue) : (s.setQueue f q v).hostPoison = s.hostPoison := rfl
@[simp] theorem State.setQueue_mfFlt (s : State) (f q : Nat) (v : Queue) : (s.setQueue f q v).mfFlt = s.mfFlt := rfl
@[simp] theorem State.setQueue_optrc (s : State) (f q : Nat) (v : Queue) : (s.setQueue f q v).optrc = s.optrc := rfl
@[simp] theorem State.setQueue_tlmSel (s : State) (f q : Nat) (v : Queue) : (s.setQueue f q v).tlmSel = s.tlmSel := rfl
@[simp] theorem State.setQueue_enOper (s : State) (f q : Nat) (v : Queue) : (s.setQueue f q v).enOper = s.enOper := rfl
@[simp] theorem State.setQueue_corrected (s : State) (f q : Nat) (v : Queue) : (s.setQueue f q v).corrected = s.corrected := rfl
@[simp] theorem State.setQueue_out (s : State) (f q : Nat) (v : Queue) : (s.setQueue f q v).out = s.out := rfl
@[simp] theorem State.setCq_cycle (s : State) (f n : Nat) (v : Cq) : (s.setCq f n v).cycle = s.cycle := rfl
@[simp] theorem State.setCq_ns (s : State) (f n : Nat) (v : Cq) : (s.setCq f n v).ns = s.ns := rfl
@[simp] theorem State.setCq_nsSet (s : State) (f n : Nat) (v : Cq) : (s.setCq f n v).nsSet = s.nsSet := rfl
@[simp] theorem State.setCq_nsWrite (s : State) (f n : Nat) (v : Cq) : (s.setCq f n v).nsWrite = s.nsWrite := rfl
@[simp] theorem State.setCq_ref (s : State) (f n : Nat) (v : Cq) : (s.setCq f n v).ref = s.ref := rfl
@[simp] theorem State.setCq_nsPhase (s : State) (f n : Nat) (v : Cq) : (s.setCq f n v).nsPhase = s.nsPhase := rfl
@[simp] theorem State.setCq_agenda (s : State) (f n : Nat) (v : Cq) : (s.setCq f n v).agenda = s.agenda := rfl
@[simp] theorem State.setCq_due (s : State) (f n : Nat) (v : Cq) : (s.setCq f n v).due = s.due := rfl
@[simp] theorem State.setCq_issue (s : State) (f n : Nat) (v : Cq) : (s.setCq f n v).issue = s.issue := rfl
@[simp] theorem State.setCq_cur (s : State) (f n : Nat) (v : Cq) : (s.setCq f n v).cur = s.cur := rfl
@[simp] theorem State.setCq_phase (s : State) (f n : Nat) (v : Cq) : (s.setCq f n v).phase = s.phase := rfl
@[simp] theorem State.setCq_inputs (s : State) (f n : Nat) (v : Cq) : (s.setCq f n v).inputs = s.inputs := rfl
@[simp] theorem State.setCq_tornHost (s : State) (f n : Nat) (v : Cq) : (s.setCq f n v).tornHost = s.tornHost := rfl
@[simp] theorem State.setCq_timers (s : State) (f n : Nat) (v : Cq) : (s.setCq f n v).timers = s.timers := rfl
@[simp] theorem State.setCq_nsTimers (s : State) (f n : Nat) (v : Cq) : (s.setCq f n v).nsTimers = s.nsTimers := rfl
@[simp] theorem State.setCq_wheel (s : State) (f n : Nat) (v : Cq) : (s.setCq f n v).wheel = s.wheel := rfl
@[simp] theorem State.setCq_free (s : State) (f n : Nat) (v : Cq) : (s.setCq f n v).free = s.free := rfl
@[simp] theorem State.setCq_pwr (s : State) (f n : Nat) (v : Cq) : (s.setCq f n v).pwr = s.pwr := rfl
@[simp] theorem State.setCq_est (s : State) (f n : Nat) (v : Cq) : (s.setCq f n v).est = s.est := rfl
@[simp] theorem State.setCq_link (s : State) (f n : Nat) (v : Cq) : (s.setCq f n v).link = s.link := rfl
@[simp] theorem State.setCq_fns (s : State) (f n : Nat) (v : Cq) : (s.setCq f n v).fns = s.fns := rfl
@[simp] theorem State.setCq_mfApr (s : State) (f n : Nat) (v : Cq) : (s.setCq f n v).mfApr = s.mfApr := rfl
@[simp] theorem State.setCq_parts (s : State) (f n : Nat) (v : Cq) : (s.setCq f n v).parts = s.parts := rfl
@[simp] theorem State.setCq_vdcmd (s : State) (f n : Nat) (v : Cq) : (s.setCq f n v).vdcmd = s.vdcmd := rfl
@[simp] theorem State.setCq_vds (s : State) (f n : Nat) (v : Cq) : (s.setCq f n v).vds = s.vds := rfl
@[simp] theorem State.setCq_counts (s : State) (f n : Nat) (v : Cq) : (s.setCq f n v).counts = s.counts := rfl
@[simp] theorem State.setCq_queues (s : State) (f n : Nat) (v : Cq) : (s.setCq f n v).queues = s.queues := rfl
@[simp] theorem State.setCq_cqs (s : State) (f n : Nat) (v : Cq) : (s.setCq f n v).cqs = tset s.cqs (64 * f + n) v := rfl
@[simp] theorem State.setCq_rot (s : State) (f n : Nat) (v : Cq) : (s.setCq f n v).rot = s.rot := rfl
@[simp] theorem State.setCq_runs (s : State) (f n : Nat) (v : Cq) : (s.setCq f n v).runs = s.runs := rfl
@[simp] theorem State.setCq_nextRun (s : State) (f n : Nat) (v : Cq) : (s.setCq f n v).nextRun = s.nextRun := rfl
@[simp] theorem State.setCq_sigHeld (s : State) (f n : Nat) (v : Cq) : (s.setCq f n v).sigHeld = s.sigHeld := rfl
@[simp] theorem State.setCq_posts (s : State) (f n : Nat) (v : Cq) : (s.setCq f n v).posts = s.posts := rfl
@[simp] theorem State.setCq_klk (s : State) (f n : Nat) (v : Cq) : (s.setCq f n v).klk = s.klk := rfl
@[simp] theorem State.setCq_fw (s : State) (f n : Nat) (v : Cq) : (s.setCq f n v).fw = s.fw := rfl
@[simp] theorem State.setCq_wm (s : State) (f n : Nat) (v : Cq) : (s.setCq f n v).wm = s.wm := rfl
@[simp] theorem State.setCq_plc (s : State) (f n : Nat) (v : Cq) : (s.setCq f n v).plc = s.plc := rfl
@[simp] theorem State.setCq_strands (s : State) (f n : Nat) (v : Cq) : (s.setCq f n v).strands = s.strands := rfl
@[simp] theorem State.setCq_nextSid (s : State) (f n : Nat) (v : Cq) : (s.setCq f n v).nextSid = s.nextSid := rfl
@[simp] theorem State.setCq_cores (s : State) (f n : Nat) (v : Cq) : (s.setCq f n v).cores = s.cores := rfl
@[simp] theorem State.setCq_xfers (s : State) (f n : Nat) (v : Cq) : (s.setCq f n v).xfers = s.xfers := rfl
@[simp] theorem State.setCq_nextTid (s : State) (f n : Nat) (v : Cq) : (s.setCq f n v).nextTid = s.nextTid := rfl
@[simp] theorem State.setCq_saves (s : State) (f n : Nat) (v : Cq) : (s.setCq f n v).saves = s.saves := rfl
@[simp] theorem State.setCq_mem (s : State) (f n : Nat) (v : Cq) : (s.setCq f n v).mem = s.mem := rfl
@[simp] theorem State.setCq_memPoison (s : State) (f n : Nat) (v : Cq) : (s.setCq f n v).memPoison = s.memPoison := rfl
@[simp] theorem State.setCq_dirty (s : State) (f n : Nat) (v : Cq) : (s.setCq f n v).dirty = s.dirty := rfl
@[simp] theorem State.setCq_stale (s : State) (f n : Nat) (v : Cq) : (s.setCq f n v).stale = s.stale := rfl
@[simp] theorem State.setCq_tlb (s : State) (f n : Nat) (v : Cq) : (s.setCq f n v).tlb = s.tlb := rfl
@[simp] theorem State.setCq_host (s : State) (f n : Nat) (v : Cq) : (s.setCq f n v).host = s.host := rfl
@[simp] theorem State.setCq_hostPoison (s : State) (f n : Nat) (v : Cq) : (s.setCq f n v).hostPoison = s.hostPoison := rfl
@[simp] theorem State.setCq_mfFlt (s : State) (f n : Nat) (v : Cq) : (s.setCq f n v).mfFlt = s.mfFlt := rfl
@[simp] theorem State.setCq_optrc (s : State) (f n : Nat) (v : Cq) : (s.setCq f n v).optrc = s.optrc := rfl
@[simp] theorem State.setCq_tlmSel (s : State) (f n : Nat) (v : Cq) : (s.setCq f n v).tlmSel = s.tlmSel := rfl
@[simp] theorem State.setCq_enOper (s : State) (f n : Nat) (v : Cq) : (s.setCq f n v).enOper = s.enOper := rfl
@[simp] theorem State.setCq_corrected (s : State) (f n : Nat) (v : Cq) : (s.setCq f n v).corrected = s.corrected := rfl
@[simp] theorem State.setCq_out (s : State) (f n : Nat) (v : Cq) : (s.setCq f n v).out = s.out := rfl
@[simp] theorem State.push_cycle (s : State) (i : Instr) : (s.push i).cycle = s.cycle := rfl
@[simp] theorem State.push_ns (s : State) (i : Instr) : (s.push i).ns = s.ns := rfl
@[simp] theorem State.push_nsSet (s : State) (i : Instr) : (s.push i).nsSet = s.nsSet := rfl
@[simp] theorem State.push_nsWrite (s : State) (i : Instr) : (s.push i).nsWrite = s.nsWrite := rfl
@[simp] theorem State.push_ref (s : State) (i : Instr) : (s.push i).ref = s.ref := rfl
@[simp] theorem State.push_nsPhase (s : State) (i : Instr) : (s.push i).nsPhase = s.nsPhase := rfl
@[simp] theorem State.push_agenda (s : State) (i : Instr) : (s.push i).agenda = s.agenda ++ [i] := rfl
@[simp] theorem State.push_due (s : State) (i : Instr) : (s.push i).due = s.due := rfl
@[simp] theorem State.push_issue (s : State) (i : Instr) : (s.push i).issue = s.issue := rfl
@[simp] theorem State.push_cur (s : State) (i : Instr) : (s.push i).cur = s.cur := rfl
@[simp] theorem State.push_phase (s : State) (i : Instr) : (s.push i).phase = s.phase := rfl
@[simp] theorem State.push_inputs (s : State) (i : Instr) : (s.push i).inputs = s.inputs := rfl
@[simp] theorem State.push_tornHost (s : State) (i : Instr) : (s.push i).tornHost = s.tornHost := rfl
@[simp] theorem State.push_timers (s : State) (i : Instr) : (s.push i).timers = s.timers := rfl
@[simp] theorem State.push_nsTimers (s : State) (i : Instr) : (s.push i).nsTimers = s.nsTimers := rfl
@[simp] theorem State.push_wheel (s : State) (i : Instr) : (s.push i).wheel = s.wheel := rfl
@[simp] theorem State.push_free (s : State) (i : Instr) : (s.push i).free = s.free := rfl
@[simp] theorem State.push_pwr (s : State) (i : Instr) : (s.push i).pwr = s.pwr := rfl
@[simp] theorem State.push_est (s : State) (i : Instr) : (s.push i).est = s.est := rfl
@[simp] theorem State.push_link (s : State) (i : Instr) : (s.push i).link = s.link := rfl
@[simp] theorem State.push_fns (s : State) (i : Instr) : (s.push i).fns = s.fns := rfl
@[simp] theorem State.push_mfApr (s : State) (i : Instr) : (s.push i).mfApr = s.mfApr := rfl
@[simp] theorem State.push_parts (s : State) (i : Instr) : (s.push i).parts = s.parts := rfl
@[simp] theorem State.push_vdcmd (s : State) (i : Instr) : (s.push i).vdcmd = s.vdcmd := rfl
@[simp] theorem State.push_vds (s : State) (i : Instr) : (s.push i).vds = s.vds := rfl
@[simp] theorem State.push_counts (s : State) (i : Instr) : (s.push i).counts = s.counts := rfl
@[simp] theorem State.push_queues (s : State) (i : Instr) : (s.push i).queues = s.queues := rfl
@[simp] theorem State.push_cqs (s : State) (i : Instr) : (s.push i).cqs = s.cqs := rfl
@[simp] theorem State.push_rot (s : State) (i : Instr) : (s.push i).rot = s.rot := rfl
@[simp] theorem State.push_runs (s : State) (i : Instr) : (s.push i).runs = s.runs := rfl
@[simp] theorem State.push_nextRun (s : State) (i : Instr) : (s.push i).nextRun = s.nextRun := rfl
@[simp] theorem State.push_sigHeld (s : State) (i : Instr) : (s.push i).sigHeld = s.sigHeld := rfl
@[simp] theorem State.push_posts (s : State) (i : Instr) : (s.push i).posts = s.posts := rfl
@[simp] theorem State.push_klk (s : State) (i : Instr) : (s.push i).klk = s.klk := rfl
@[simp] theorem State.push_fw (s : State) (i : Instr) : (s.push i).fw = s.fw := rfl
@[simp] theorem State.push_wm (s : State) (i : Instr) : (s.push i).wm = s.wm := rfl
@[simp] theorem State.push_plc (s : State) (i : Instr) : (s.push i).plc = s.plc := rfl
@[simp] theorem State.push_strands (s : State) (i : Instr) : (s.push i).strands = s.strands := rfl
@[simp] theorem State.push_nextSid (s : State) (i : Instr) : (s.push i).nextSid = s.nextSid := rfl
@[simp] theorem State.push_cores (s : State) (i : Instr) : (s.push i).cores = s.cores := rfl
@[simp] theorem State.push_xfers (s : State) (i : Instr) : (s.push i).xfers = s.xfers := rfl
@[simp] theorem State.push_nextTid (s : State) (i : Instr) : (s.push i).nextTid = s.nextTid := rfl
@[simp] theorem State.push_saves (s : State) (i : Instr) : (s.push i).saves = s.saves := rfl
@[simp] theorem State.push_mem (s : State) (i : Instr) : (s.push i).mem = s.mem := rfl
@[simp] theorem State.push_memPoison (s : State) (i : Instr) : (s.push i).memPoison = s.memPoison := rfl
@[simp] theorem State.push_dirty (s : State) (i : Instr) : (s.push i).dirty = s.dirty := rfl
@[simp] theorem State.push_stale (s : State) (i : Instr) : (s.push i).stale = s.stale := rfl
@[simp] theorem State.push_tlb (s : State) (i : Instr) : (s.push i).tlb = s.tlb := rfl
@[simp] theorem State.push_host (s : State) (i : Instr) : (s.push i).host = s.host := rfl
@[simp] theorem State.push_hostPoison (s : State) (i : Instr) : (s.push i).hostPoison = s.hostPoison := rfl
@[simp] theorem State.push_mfFlt (s : State) (i : Instr) : (s.push i).mfFlt = s.mfFlt := rfl
@[simp] theorem State.push_optrc (s : State) (i : Instr) : (s.push i).optrc = s.optrc := rfl
@[simp] theorem State.push_tlmSel (s : State) (i : Instr) : (s.push i).tlmSel = s.tlmSel := rfl
@[simp] theorem State.push_enOper (s : State) (i : Instr) : (s.push i).enOper = s.enOper := rfl
@[simp] theorem State.push_corrected (s : State) (i : Instr) : (s.push i).corrected = s.corrected := rfl
@[simp] theorem State.push_out (s : State) (i : Instr) : (s.push i).out = s.out := rfl
@[simp] theorem State.pushAll_cycle (s : State) (l : List Instr) : (s.pushAll l).cycle = s.cycle := rfl
@[simp] theorem State.pushAll_ns (s : State) (l : List Instr) : (s.pushAll l).ns = s.ns := rfl
@[simp] theorem State.pushAll_nsSet (s : State) (l : List Instr) : (s.pushAll l).nsSet = s.nsSet := rfl
@[simp] theorem State.pushAll_nsWrite (s : State) (l : List Instr) : (s.pushAll l).nsWrite = s.nsWrite := rfl
@[simp] theorem State.pushAll_ref (s : State) (l : List Instr) : (s.pushAll l).ref = s.ref := rfl
@[simp] theorem State.pushAll_nsPhase (s : State) (l : List Instr) : (s.pushAll l).nsPhase = s.nsPhase := rfl
@[simp] theorem State.pushAll_agenda (s : State) (l : List Instr) : (s.pushAll l).agenda = s.agenda ++ l := rfl
@[simp] theorem State.pushAll_due (s : State) (l : List Instr) : (s.pushAll l).due = s.due := rfl
@[simp] theorem State.pushAll_issue (s : State) (l : List Instr) : (s.pushAll l).issue = s.issue := rfl
@[simp] theorem State.pushAll_cur (s : State) (l : List Instr) : (s.pushAll l).cur = s.cur := rfl
@[simp] theorem State.pushAll_phase (s : State) (l : List Instr) : (s.pushAll l).phase = s.phase := rfl
@[simp] theorem State.pushAll_inputs (s : State) (l : List Instr) : (s.pushAll l).inputs = s.inputs := rfl
@[simp] theorem State.pushAll_tornHost (s : State) (l : List Instr) : (s.pushAll l).tornHost = s.tornHost := rfl
@[simp] theorem State.pushAll_timers (s : State) (l : List Instr) : (s.pushAll l).timers = s.timers := rfl
@[simp] theorem State.pushAll_nsTimers (s : State) (l : List Instr) : (s.pushAll l).nsTimers = s.nsTimers := rfl
@[simp] theorem State.pushAll_wheel (s : State) (l : List Instr) : (s.pushAll l).wheel = s.wheel := rfl
@[simp] theorem State.pushAll_free (s : State) (l : List Instr) : (s.pushAll l).free = s.free := rfl
@[simp] theorem State.pushAll_pwr (s : State) (l : List Instr) : (s.pushAll l).pwr = s.pwr := rfl
@[simp] theorem State.pushAll_est (s : State) (l : List Instr) : (s.pushAll l).est = s.est := rfl
@[simp] theorem State.pushAll_link (s : State) (l : List Instr) : (s.pushAll l).link = s.link := rfl
@[simp] theorem State.pushAll_fns (s : State) (l : List Instr) : (s.pushAll l).fns = s.fns := rfl
@[simp] theorem State.pushAll_mfApr (s : State) (l : List Instr) : (s.pushAll l).mfApr = s.mfApr := rfl
@[simp] theorem State.pushAll_parts (s : State) (l : List Instr) : (s.pushAll l).parts = s.parts := rfl
@[simp] theorem State.pushAll_vdcmd (s : State) (l : List Instr) : (s.pushAll l).vdcmd = s.vdcmd := rfl
@[simp] theorem State.pushAll_vds (s : State) (l : List Instr) : (s.pushAll l).vds = s.vds := rfl
@[simp] theorem State.pushAll_counts (s : State) (l : List Instr) : (s.pushAll l).counts = s.counts := rfl
@[simp] theorem State.pushAll_queues (s : State) (l : List Instr) : (s.pushAll l).queues = s.queues := rfl
@[simp] theorem State.pushAll_cqs (s : State) (l : List Instr) : (s.pushAll l).cqs = s.cqs := rfl
@[simp] theorem State.pushAll_rot (s : State) (l : List Instr) : (s.pushAll l).rot = s.rot := rfl
@[simp] theorem State.pushAll_runs (s : State) (l : List Instr) : (s.pushAll l).runs = s.runs := rfl
@[simp] theorem State.pushAll_nextRun (s : State) (l : List Instr) : (s.pushAll l).nextRun = s.nextRun := rfl
@[simp] theorem State.pushAll_sigHeld (s : State) (l : List Instr) : (s.pushAll l).sigHeld = s.sigHeld := rfl
@[simp] theorem State.pushAll_posts (s : State) (l : List Instr) : (s.pushAll l).posts = s.posts := rfl
@[simp] theorem State.pushAll_klk (s : State) (l : List Instr) : (s.pushAll l).klk = s.klk := rfl
@[simp] theorem State.pushAll_fw (s : State) (l : List Instr) : (s.pushAll l).fw = s.fw := rfl
@[simp] theorem State.pushAll_wm (s : State) (l : List Instr) : (s.pushAll l).wm = s.wm := rfl
@[simp] theorem State.pushAll_plc (s : State) (l : List Instr) : (s.pushAll l).plc = s.plc := rfl
@[simp] theorem State.pushAll_strands (s : State) (l : List Instr) : (s.pushAll l).strands = s.strands := rfl
@[simp] theorem State.pushAll_nextSid (s : State) (l : List Instr) : (s.pushAll l).nextSid = s.nextSid := rfl
@[simp] theorem State.pushAll_cores (s : State) (l : List Instr) : (s.pushAll l).cores = s.cores := rfl
@[simp] theorem State.pushAll_xfers (s : State) (l : List Instr) : (s.pushAll l).xfers = s.xfers := rfl
@[simp] theorem State.pushAll_nextTid (s : State) (l : List Instr) : (s.pushAll l).nextTid = s.nextTid := rfl
@[simp] theorem State.pushAll_saves (s : State) (l : List Instr) : (s.pushAll l).saves = s.saves := rfl
@[simp] theorem State.pushAll_mem (s : State) (l : List Instr) : (s.pushAll l).mem = s.mem := rfl
@[simp] theorem State.pushAll_memPoison (s : State) (l : List Instr) : (s.pushAll l).memPoison = s.memPoison := rfl
@[simp] theorem State.pushAll_dirty (s : State) (l : List Instr) : (s.pushAll l).dirty = s.dirty := rfl
@[simp] theorem State.pushAll_stale (s : State) (l : List Instr) : (s.pushAll l).stale = s.stale := rfl
@[simp] theorem State.pushAll_tlb (s : State) (l : List Instr) : (s.pushAll l).tlb = s.tlb := rfl
@[simp] theorem State.pushAll_host (s : State) (l : List Instr) : (s.pushAll l).host = s.host := rfl
@[simp] theorem State.pushAll_hostPoison (s : State) (l : List Instr) : (s.pushAll l).hostPoison = s.hostPoison := rfl
@[simp] theorem State.pushAll_mfFlt (s : State) (l : List Instr) : (s.pushAll l).mfFlt = s.mfFlt := rfl
@[simp] theorem State.pushAll_optrc (s : State) (l : List Instr) : (s.pushAll l).optrc = s.optrc := rfl
@[simp] theorem State.pushAll_tlmSel (s : State) (l : List Instr) : (s.pushAll l).tlmSel = s.tlmSel := rfl
@[simp] theorem State.pushAll_enOper (s : State) (l : List Instr) : (s.pushAll l).enOper = s.enOper := rfl
@[simp] theorem State.pushAll_corrected (s : State) (l : List Instr) : (s.pushAll l).corrected = s.corrected := rfl
@[simp] theorem State.pushAll_out (s : State) (l : List Instr) : (s.pushAll l).out = s.out := rfl
@[simp] theorem State.at_cycle (s : State) (c : Nat) (i : Instr) : (s.at c i).cycle = s.cycle := rfl
@[simp] theorem State.at_ns (s : State) (c : Nat) (i : Instr) : (s.at c i).ns = s.ns := rfl
@[simp] theorem State.at_nsSet (s : State) (c : Nat) (i : Instr) : (s.at c i).nsSet = s.nsSet := rfl
@[simp] theorem State.at_nsWrite (s : State) (c : Nat) (i : Instr) : (s.at c i).nsWrite = s.nsWrite := rfl
@[simp] theorem State.at_ref (s : State) (c : Nat) (i : Instr) : (s.at c i).ref = s.ref := rfl
@[simp] theorem State.at_nsPhase (s : State) (c : Nat) (i : Instr) : (s.at c i).nsPhase = s.nsPhase := rfl
@[simp] theorem State.at_agenda (s : State) (c : Nat) (i : Instr) : (s.at c i).agenda = s.agenda := rfl
@[simp] theorem State.at_due (s : State) (c : Nat) (i : Instr) : (s.at c i).due = s.due := rfl
@[simp] theorem State.at_issue (s : State) (c : Nat) (i : Instr) : (s.at c i).issue = s.issue := rfl
@[simp] theorem State.at_cur (s : State) (c : Nat) (i : Instr) : (s.at c i).cur = s.cur := rfl
@[simp] theorem State.at_phase (s : State) (c : Nat) (i : Instr) : (s.at c i).phase = s.phase := rfl
@[simp] theorem State.at_inputs (s : State) (c : Nat) (i : Instr) : (s.at c i).inputs = s.inputs := rfl
@[simp] theorem State.at_tornHost (s : State) (c : Nat) (i : Instr) : (s.at c i).tornHost = s.tornHost := rfl
@[simp] theorem State.at_timers (s : State) (c : Nat) (i : Instr) : (s.at c i).timers = s.timers ++ [(c, i)] := rfl
@[simp] theorem State.at_nsTimers (s : State) (c : Nat) (i : Instr) : (s.at c i).nsTimers = s.nsTimers := rfl
@[simp] theorem State.at_wheel (s : State) (c : Nat) (i : Instr) : (s.at c i).wheel = s.wheel := rfl
@[simp] theorem State.at_free (s : State) (c : Nat) (i : Instr) : (s.at c i).free = s.free := rfl
@[simp] theorem State.at_pwr (s : State) (c : Nat) (i : Instr) : (s.at c i).pwr = s.pwr := rfl
@[simp] theorem State.at_est (s : State) (c : Nat) (i : Instr) : (s.at c i).est = s.est := rfl
@[simp] theorem State.at_link (s : State) (c : Nat) (i : Instr) : (s.at c i).link = s.link := rfl
@[simp] theorem State.at_fns (s : State) (c : Nat) (i : Instr) : (s.at c i).fns = s.fns := rfl
@[simp] theorem State.at_mfApr (s : State) (c : Nat) (i : Instr) : (s.at c i).mfApr = s.mfApr := rfl
@[simp] theorem State.at_parts (s : State) (c : Nat) (i : Instr) : (s.at c i).parts = s.parts := rfl
@[simp] theorem State.at_vdcmd (s : State) (c : Nat) (i : Instr) : (s.at c i).vdcmd = s.vdcmd := rfl
@[simp] theorem State.at_vds (s : State) (c : Nat) (i : Instr) : (s.at c i).vds = s.vds := rfl
@[simp] theorem State.at_counts (s : State) (c : Nat) (i : Instr) : (s.at c i).counts = s.counts := rfl
@[simp] theorem State.at_queues (s : State) (c : Nat) (i : Instr) : (s.at c i).queues = s.queues := rfl
@[simp] theorem State.at_cqs (s : State) (c : Nat) (i : Instr) : (s.at c i).cqs = s.cqs := rfl
@[simp] theorem State.at_rot (s : State) (c : Nat) (i : Instr) : (s.at c i).rot = s.rot := rfl
@[simp] theorem State.at_runs (s : State) (c : Nat) (i : Instr) : (s.at c i).runs = s.runs := rfl
@[simp] theorem State.at_nextRun (s : State) (c : Nat) (i : Instr) : (s.at c i).nextRun = s.nextRun := rfl
@[simp] theorem State.at_sigHeld (s : State) (c : Nat) (i : Instr) : (s.at c i).sigHeld = s.sigHeld := rfl
@[simp] theorem State.at_posts (s : State) (c : Nat) (i : Instr) : (s.at c i).posts = s.posts := rfl
@[simp] theorem State.at_klk (s : State) (c : Nat) (i : Instr) : (s.at c i).klk = s.klk := rfl
@[simp] theorem State.at_fw (s : State) (c : Nat) (i : Instr) : (s.at c i).fw = s.fw := rfl
@[simp] theorem State.at_wm (s : State) (c : Nat) (i : Instr) : (s.at c i).wm = s.wm := rfl
@[simp] theorem State.at_plc (s : State) (c : Nat) (i : Instr) : (s.at c i).plc = s.plc := rfl
@[simp] theorem State.at_strands (s : State) (c : Nat) (i : Instr) : (s.at c i).strands = s.strands := rfl
@[simp] theorem State.at_nextSid (s : State) (c : Nat) (i : Instr) : (s.at c i).nextSid = s.nextSid := rfl
@[simp] theorem State.at_cores (s : State) (c : Nat) (i : Instr) : (s.at c i).cores = s.cores := rfl
@[simp] theorem State.at_xfers (s : State) (c : Nat) (i : Instr) : (s.at c i).xfers = s.xfers := rfl
@[simp] theorem State.at_nextTid (s : State) (c : Nat) (i : Instr) : (s.at c i).nextTid = s.nextTid := rfl
@[simp] theorem State.at_saves (s : State) (c : Nat) (i : Instr) : (s.at c i).saves = s.saves := rfl
@[simp] theorem State.at_mem (s : State) (c : Nat) (i : Instr) : (s.at c i).mem = s.mem := rfl
@[simp] theorem State.at_memPoison (s : State) (c : Nat) (i : Instr) : (s.at c i).memPoison = s.memPoison := rfl
@[simp] theorem State.at_dirty (s : State) (c : Nat) (i : Instr) : (s.at c i).dirty = s.dirty := rfl
@[simp] theorem State.at_stale (s : State) (c : Nat) (i : Instr) : (s.at c i).stale = s.stale := rfl
@[simp] theorem State.at_tlb (s : State) (c : Nat) (i : Instr) : (s.at c i).tlb = s.tlb := rfl
@[simp] theorem State.at_host (s : State) (c : Nat) (i : Instr) : (s.at c i).host = s.host := rfl
@[simp] theorem State.at_hostPoison (s : State) (c : Nat) (i : Instr) : (s.at c i).hostPoison = s.hostPoison := rfl
@[simp] theorem State.at_mfFlt (s : State) (c : Nat) (i : Instr) : (s.at c i).mfFlt = s.mfFlt := rfl
@[simp] theorem State.at_optrc (s : State) (c : Nat) (i : Instr) : (s.at c i).optrc = s.optrc := rfl
@[simp] theorem State.at_tlmSel (s : State) (c : Nat) (i : Instr) : (s.at c i).tlmSel = s.tlmSel := rfl
@[simp] theorem State.at_enOper (s : State) (c : Nat) (i : Instr) : (s.at c i).enOper = s.enOper := rfl
@[simp] theorem State.at_corrected (s : State) (c : Nat) (i : Instr) : (s.at c i).corrected = s.corrected := rfl
@[simp] theorem State.at_out (s : State) (c : Nat) (i : Instr) : (s.at c i).out = s.out := rfl
@[simp] theorem State.afterNs_cycle (s : State) (d : Nat) (i : Instr) : (s.afterNs d i).cycle = s.cycle := rfl
@[simp] theorem State.afterNs_ns (s : State) (d : Nat) (i : Instr) : (s.afterNs d i).ns = s.ns := rfl
@[simp] theorem State.afterNs_nsSet (s : State) (d : Nat) (i : Instr) : (s.afterNs d i).nsSet = s.nsSet := rfl
@[simp] theorem State.afterNs_nsWrite (s : State) (d : Nat) (i : Instr) : (s.afterNs d i).nsWrite = s.nsWrite := rfl
@[simp] theorem State.afterNs_ref (s : State) (d : Nat) (i : Instr) : (s.afterNs d i).ref = s.ref := rfl
@[simp] theorem State.afterNs_nsPhase (s : State) (d : Nat) (i : Instr) : (s.afterNs d i).nsPhase = s.nsPhase := rfl
@[simp] theorem State.afterNs_agenda (s : State) (d : Nat) (i : Instr) : (s.afterNs d i).agenda = s.agenda := rfl
@[simp] theorem State.afterNs_due (s : State) (d : Nat) (i : Instr) : (s.afterNs d i).due = s.due := rfl
@[simp] theorem State.afterNs_issue (s : State) (d : Nat) (i : Instr) : (s.afterNs d i).issue = s.issue := rfl
@[simp] theorem State.afterNs_cur (s : State) (d : Nat) (i : Instr) : (s.afterNs d i).cur = s.cur := rfl
@[simp] theorem State.afterNs_phase (s : State) (d : Nat) (i : Instr) : (s.afterNs d i).phase = s.phase := rfl
@[simp] theorem State.afterNs_inputs (s : State) (d : Nat) (i : Instr) : (s.afterNs d i).inputs = s.inputs := rfl
@[simp] theorem State.afterNs_tornHost (s : State) (d : Nat) (i : Instr) : (s.afterNs d i).tornHost = s.tornHost := rfl
@[simp] theorem State.afterNs_timers (s : State) (d : Nat) (i : Instr) : (s.afterNs d i).timers = s.timers := rfl
@[simp] theorem State.afterNs_nsTimers (s : State) (d : Nat) (i : Instr) : (s.afterNs d i).nsTimers = s.nsTimers ++ [(s.ref + d, i)] := rfl
@[simp] theorem State.afterNs_wheel (s : State) (d : Nat) (i : Instr) : (s.afterNs d i).wheel = s.wheel := rfl
@[simp] theorem State.afterNs_free (s : State) (d : Nat) (i : Instr) : (s.afterNs d i).free = s.free := rfl
@[simp] theorem State.afterNs_pwr (s : State) (d : Nat) (i : Instr) : (s.afterNs d i).pwr = s.pwr := rfl
@[simp] theorem State.afterNs_est (s : State) (d : Nat) (i : Instr) : (s.afterNs d i).est = s.est := rfl
@[simp] theorem State.afterNs_link (s : State) (d : Nat) (i : Instr) : (s.afterNs d i).link = s.link := rfl
@[simp] theorem State.afterNs_fns (s : State) (d : Nat) (i : Instr) : (s.afterNs d i).fns = s.fns := rfl
@[simp] theorem State.afterNs_mfApr (s : State) (d : Nat) (i : Instr) : (s.afterNs d i).mfApr = s.mfApr := rfl
@[simp] theorem State.afterNs_parts (s : State) (d : Nat) (i : Instr) : (s.afterNs d i).parts = s.parts := rfl
@[simp] theorem State.afterNs_vdcmd (s : State) (d : Nat) (i : Instr) : (s.afterNs d i).vdcmd = s.vdcmd := rfl
@[simp] theorem State.afterNs_vds (s : State) (d : Nat) (i : Instr) : (s.afterNs d i).vds = s.vds := rfl
@[simp] theorem State.afterNs_counts (s : State) (d : Nat) (i : Instr) : (s.afterNs d i).counts = s.counts := rfl
@[simp] theorem State.afterNs_queues (s : State) (d : Nat) (i : Instr) : (s.afterNs d i).queues = s.queues := rfl
@[simp] theorem State.afterNs_cqs (s : State) (d : Nat) (i : Instr) : (s.afterNs d i).cqs = s.cqs := rfl
@[simp] theorem State.afterNs_rot (s : State) (d : Nat) (i : Instr) : (s.afterNs d i).rot = s.rot := rfl
@[simp] theorem State.afterNs_runs (s : State) (d : Nat) (i : Instr) : (s.afterNs d i).runs = s.runs := rfl
@[simp] theorem State.afterNs_nextRun (s : State) (d : Nat) (i : Instr) : (s.afterNs d i).nextRun = s.nextRun := rfl
@[simp] theorem State.afterNs_sigHeld (s : State) (d : Nat) (i : Instr) : (s.afterNs d i).sigHeld = s.sigHeld := rfl
@[simp] theorem State.afterNs_posts (s : State) (d : Nat) (i : Instr) : (s.afterNs d i).posts = s.posts := rfl
@[simp] theorem State.afterNs_klk (s : State) (d : Nat) (i : Instr) : (s.afterNs d i).klk = s.klk := rfl
@[simp] theorem State.afterNs_fw (s : State) (d : Nat) (i : Instr) : (s.afterNs d i).fw = s.fw := rfl
@[simp] theorem State.afterNs_wm (s : State) (d : Nat) (i : Instr) : (s.afterNs d i).wm = s.wm := rfl
@[simp] theorem State.afterNs_plc (s : State) (d : Nat) (i : Instr) : (s.afterNs d i).plc = s.plc := rfl
@[simp] theorem State.afterNs_strands (s : State) (d : Nat) (i : Instr) : (s.afterNs d i).strands = s.strands := rfl
@[simp] theorem State.afterNs_nextSid (s : State) (d : Nat) (i : Instr) : (s.afterNs d i).nextSid = s.nextSid := rfl
@[simp] theorem State.afterNs_cores (s : State) (d : Nat) (i : Instr) : (s.afterNs d i).cores = s.cores := rfl
@[simp] theorem State.afterNs_xfers (s : State) (d : Nat) (i : Instr) : (s.afterNs d i).xfers = s.xfers := rfl
@[simp] theorem State.afterNs_nextTid (s : State) (d : Nat) (i : Instr) : (s.afterNs d i).nextTid = s.nextTid := rfl
@[simp] theorem State.afterNs_saves (s : State) (d : Nat) (i : Instr) : (s.afterNs d i).saves = s.saves := rfl
@[simp] theorem State.afterNs_mem (s : State) (d : Nat) (i : Instr) : (s.afterNs d i).mem = s.mem := rfl
@[simp] theorem State.afterNs_memPoison (s : State) (d : Nat) (i : Instr) : (s.afterNs d i).memPoison = s.memPoison := rfl
@[simp] theorem State.afterNs_dirty (s : State) (d : Nat) (i : Instr) : (s.afterNs d i).dirty = s.dirty := rfl
@[simp] theorem State.afterNs_stale (s : State) (d : Nat) (i : Instr) : (s.afterNs d i).stale = s.stale := rfl
@[simp] theorem State.afterNs_tlb (s : State) (d : Nat) (i : Instr) : (s.afterNs d i).tlb = s.tlb := rfl
@[simp] theorem State.afterNs_host (s : State) (d : Nat) (i : Instr) : (s.afterNs d i).host = s.host := rfl
@[simp] theorem State.afterNs_hostPoison (s : State) (d : Nat) (i : Instr) : (s.afterNs d i).hostPoison = s.hostPoison := rfl
@[simp] theorem State.afterNs_mfFlt (s : State) (d : Nat) (i : Instr) : (s.afterNs d i).mfFlt = s.mfFlt := rfl
@[simp] theorem State.afterNs_optrc (s : State) (d : Nat) (i : Instr) : (s.afterNs d i).optrc = s.optrc := rfl
@[simp] theorem State.afterNs_tlmSel (s : State) (d : Nat) (i : Instr) : (s.afterNs d i).tlmSel = s.tlmSel := rfl
@[simp] theorem State.afterNs_enOper (s : State) (d : Nat) (i : Instr) : (s.afterNs d i).enOper = s.enOper := rfl
@[simp] theorem State.afterNs_corrected (s : State) (d : Nat) (i : Instr) : (s.afterNs d i).corrected = s.corrected := rfl
@[simp] theorem State.afterNs_out (s : State) (d : Nat) (i : Instr) : (s.afterNs d i).out = s.out := rfl
@[simp] theorem State.cancel_cycle (s : State) (i : Instr) : (s.cancel i).cycle = s.cycle := rfl
@[simp] theorem State.cancel_ns (s : State) (i : Instr) : (s.cancel i).ns = s.ns := rfl
@[simp] theorem State.cancel_nsSet (s : State) (i : Instr) : (s.cancel i).nsSet = s.nsSet := rfl
@[simp] theorem State.cancel_nsWrite (s : State) (i : Instr) : (s.cancel i).nsWrite = s.nsWrite := rfl
@[simp] theorem State.cancel_ref (s : State) (i : Instr) : (s.cancel i).ref = s.ref := rfl
@[simp] theorem State.cancel_nsPhase (s : State) (i : Instr) : (s.cancel i).nsPhase = s.nsPhase := rfl
@[simp] theorem State.cancel_agenda (s : State) (i : Instr) : (s.cancel i).agenda = s.agenda := rfl
@[simp] theorem State.cancel_issue (s : State) (i : Instr) : (s.cancel i).issue = s.issue := rfl
@[simp] theorem State.cancel_cur (s : State) (i : Instr) : (s.cancel i).cur = s.cur := rfl
@[simp] theorem State.cancel_phase (s : State) (i : Instr) : (s.cancel i).phase = s.phase := rfl
@[simp] theorem State.cancel_inputs (s : State) (i : Instr) : (s.cancel i).inputs = s.inputs := rfl
@[simp] theorem State.cancel_tornHost (s : State) (i : Instr) : (s.cancel i).tornHost = s.tornHost := rfl
@[simp] theorem State.cancel_wheel (s : State) (i : Instr) : (s.cancel i).wheel = s.wheel := rfl
@[simp] theorem State.cancel_free (s : State) (i : Instr) : (s.cancel i).free = s.free := rfl
@[simp] theorem State.cancel_pwr (s : State) (i : Instr) : (s.cancel i).pwr = s.pwr := rfl
@[simp] theorem State.cancel_est (s : State) (i : Instr) : (s.cancel i).est = s.est := rfl
@[simp] theorem State.cancel_link (s : State) (i : Instr) : (s.cancel i).link = s.link := rfl
@[simp] theorem State.cancel_fns (s : State) (i : Instr) : (s.cancel i).fns = s.fns := rfl
@[simp] theorem State.cancel_mfApr (s : State) (i : Instr) : (s.cancel i).mfApr = s.mfApr := rfl
@[simp] theorem State.cancel_parts (s : State) (i : Instr) : (s.cancel i).parts = s.parts := rfl
@[simp] theorem State.cancel_vdcmd (s : State) (i : Instr) : (s.cancel i).vdcmd = s.vdcmd := rfl
@[simp] theorem State.cancel_vds (s : State) (i : Instr) : (s.cancel i).vds = s.vds := rfl
@[simp] theorem State.cancel_counts (s : State) (i : Instr) : (s.cancel i).counts = s.counts := rfl
@[simp] theorem State.cancel_queues (s : State) (i : Instr) : (s.cancel i).queues = s.queues := rfl
@[simp] theorem State.cancel_cqs (s : State) (i : Instr) : (s.cancel i).cqs = s.cqs := rfl
@[simp] theorem State.cancel_rot (s : State) (i : Instr) : (s.cancel i).rot = s.rot := rfl
@[simp] theorem State.cancel_runs (s : State) (i : Instr) : (s.cancel i).runs = s.runs := rfl
@[simp] theorem State.cancel_nextRun (s : State) (i : Instr) : (s.cancel i).nextRun = s.nextRun := rfl
@[simp] theorem State.cancel_sigHeld (s : State) (i : Instr) : (s.cancel i).sigHeld = s.sigHeld := rfl
@[simp] theorem State.cancel_posts (s : State) (i : Instr) : (s.cancel i).posts = s.posts := rfl
@[simp] theorem State.cancel_klk (s : State) (i : Instr) : (s.cancel i).klk = s.klk := rfl
@[simp] theorem State.cancel_fw (s : State) (i : Instr) : (s.cancel i).fw = s.fw := rfl
@[simp] theorem State.cancel_wm (s : State) (i : Instr) : (s.cancel i).wm = s.wm := rfl
@[simp] theorem State.cancel_plc (s : State) (i : Instr) : (s.cancel i).plc = s.plc := rfl
@[simp] theorem State.cancel_strands (s : State) (i : Instr) : (s.cancel i).strands = s.strands := rfl
@[simp] theorem State.cancel_nextSid (s : State) (i : Instr) : (s.cancel i).nextSid = s.nextSid := rfl
@[simp] theorem State.cancel_cores (s : State) (i : Instr) : (s.cancel i).cores = s.cores := rfl
@[simp] theorem State.cancel_xfers (s : State) (i : Instr) : (s.cancel i).xfers = s.xfers := rfl
@[simp] theorem State.cancel_nextTid (s : State) (i : Instr) : (s.cancel i).nextTid = s.nextTid := rfl
@[simp] theorem State.cancel_saves (s : State) (i : Instr) : (s.cancel i).saves = s.saves := rfl
@[simp] theorem State.cancel_mem (s : State) (i : Instr) : (s.cancel i).mem = s.mem := rfl
@[simp] theorem State.cancel_memPoison (s : State) (i : Instr) : (s.cancel i).memPoison = s.memPoison := rfl
@[simp] theorem State.cancel_dirty (s : State) (i : Instr) : (s.cancel i).dirty = s.dirty := rfl
@[simp] theorem State.cancel_stale (s : State) (i : Instr) : (s.cancel i).stale = s.stale := rfl
@[simp] theorem State.cancel_tlb (s : State) (i : Instr) : (s.cancel i).tlb = s.tlb := rfl
@[simp] theorem State.cancel_host (s : State) (i : Instr) : (s.cancel i).host = s.host := rfl
@[simp] theorem State.cancel_hostPoison (s : State) (i : Instr) : (s.cancel i).hostPoison = s.hostPoison := rfl
@[simp] theorem State.cancel_mfFlt (s : State) (i : Instr) : (s.cancel i).mfFlt = s.mfFlt := rfl
@[simp] theorem State.cancel_optrc (s : State) (i : Instr) : (s.cancel i).optrc = s.optrc := rfl
@[simp] theorem State.cancel_tlmSel (s : State) (i : Instr) : (s.cancel i).tlmSel = s.tlmSel := rfl
@[simp] theorem State.cancel_enOper (s : State) (i : Instr) : (s.cancel i).enOper = s.enOper := rfl
@[simp] theorem State.cancel_corrected (s : State) (i : Instr) : (s.cancel i).corrected = s.corrected := rfl
@[simp] theorem State.cancel_out (s : State) (i : Instr) : (s.cancel i).out = s.out := rfl
@[simp] theorem State.soon_cycle (s : State) (i : Instr) : (s.soon i).cycle = s.cycle := rfl
@[simp] theorem State.soon_ns (s : State) (i : Instr) : (s.soon i).ns = s.ns := rfl
@[simp] theorem State.soon_nsSet (s : State) (i : Instr) : (s.soon i).nsSet = s.nsSet := rfl
@[simp] theorem State.soon_nsWrite (s : State) (i : Instr) : (s.soon i).nsWrite = s.nsWrite := rfl
@[simp] theorem State.soon_ref (s : State) (i : Instr) : (s.soon i).ref = s.ref := rfl
@[simp] theorem State.soon_nsPhase (s : State) (i : Instr) : (s.soon i).nsPhase = s.nsPhase := rfl
@[simp] theorem State.soon_agenda (s : State) (i : Instr) : (s.soon i).agenda = s.agenda := rfl
@[simp] theorem State.soon_due (s : State) (i : Instr) : (s.soon i).due = s.due := rfl
@[simp] theorem State.soon_issue (s : State) (i : Instr) : (s.soon i).issue = s.issue := rfl
@[simp] theorem State.soon_cur (s : State) (i : Instr) : (s.soon i).cur = s.cur := rfl
@[simp] theorem State.soon_phase (s : State) (i : Instr) : (s.soon i).phase = s.phase := rfl
@[simp] theorem State.soon_inputs (s : State) (i : Instr) : (s.soon i).inputs = s.inputs := rfl
@[simp] theorem State.soon_tornHost (s : State) (i : Instr) : (s.soon i).tornHost = s.tornHost := rfl
@[simp] theorem State.soon_timers (s : State) (i : Instr) : (s.soon i).timers = s.timers ++ [(s.cycle, i)] := rfl
@[simp] theorem State.soon_nsTimers (s : State) (i : Instr) : (s.soon i).nsTimers = s.nsTimers := rfl
@[simp] theorem State.soon_wheel (s : State) (i : Instr) : (s.soon i).wheel = s.wheel := rfl
@[simp] theorem State.soon_free (s : State) (i : Instr) : (s.soon i).free = s.free := rfl
@[simp] theorem State.soon_pwr (s : State) (i : Instr) : (s.soon i).pwr = s.pwr := rfl
@[simp] theorem State.soon_est (s : State) (i : Instr) : (s.soon i).est = s.est := rfl
@[simp] theorem State.soon_link (s : State) (i : Instr) : (s.soon i).link = s.link := rfl
@[simp] theorem State.soon_fns (s : State) (i : Instr) : (s.soon i).fns = s.fns := rfl
@[simp] theorem State.soon_mfApr (s : State) (i : Instr) : (s.soon i).mfApr = s.mfApr := rfl
@[simp] theorem State.soon_parts (s : State) (i : Instr) : (s.soon i).parts = s.parts := rfl
@[simp] theorem State.soon_vdcmd (s : State) (i : Instr) : (s.soon i).vdcmd = s.vdcmd := rfl
@[simp] theorem State.soon_vds (s : State) (i : Instr) : (s.soon i).vds = s.vds := rfl
@[simp] theorem State.soon_counts (s : State) (i : Instr) : (s.soon i).counts = s.counts := rfl
@[simp] theorem State.soon_queues (s : State) (i : Instr) : (s.soon i).queues = s.queues := rfl
@[simp] theorem State.soon_cqs (s : State) (i : Instr) : (s.soon i).cqs = s.cqs := rfl
@[simp] theorem State.soon_rot (s : State) (i : Instr) : (s.soon i).rot = s.rot := rfl
@[simp] theorem State.soon_runs (s : State) (i : Instr) : (s.soon i).runs = s.runs := rfl
@[simp] theorem State.soon_nextRun (s : State) (i : Instr) : (s.soon i).nextRun = s.nextRun := rfl
@[simp] theorem State.soon_sigHeld (s : State) (i : Instr) : (s.soon i).sigHeld = s.sigHeld := rfl
@[simp] theorem State.soon_posts (s : State) (i : Instr) : (s.soon i).posts = s.posts := rfl
@[simp] theorem State.soon_klk (s : State) (i : Instr) : (s.soon i).klk = s.klk := rfl
@[simp] theorem State.soon_fw (s : State) (i : Instr) : (s.soon i).fw = s.fw := rfl
@[simp] theorem State.soon_wm (s : State) (i : Instr) : (s.soon i).wm = s.wm := rfl
@[simp] theorem State.soon_plc (s : State) (i : Instr) : (s.soon i).plc = s.plc := rfl
@[simp] theorem State.soon_strands (s : State) (i : Instr) : (s.soon i).strands = s.strands := rfl
@[simp] theorem State.soon_nextSid (s : State) (i : Instr) : (s.soon i).nextSid = s.nextSid := rfl
@[simp] theorem State.soon_cores (s : State) (i : Instr) : (s.soon i).cores = s.cores := rfl
@[simp] theorem State.soon_xfers (s : State) (i : Instr) : (s.soon i).xfers = s.xfers := rfl
@[simp] theorem State.soon_nextTid (s : State) (i : Instr) : (s.soon i).nextTid = s.nextTid := rfl
@[simp] theorem State.soon_saves (s : State) (i : Instr) : (s.soon i).saves = s.saves := rfl
@[simp] theorem State.soon_mem (s : State) (i : Instr) : (s.soon i).mem = s.mem := rfl
@[simp] theorem State.soon_memPoison (s : State) (i : Instr) : (s.soon i).memPoison = s.memPoison := rfl
@[simp] theorem State.soon_dirty (s : State) (i : Instr) : (s.soon i).dirty = s.dirty := rfl
@[simp] theorem State.soon_stale (s : State) (i : Instr) : (s.soon i).stale = s.stale := rfl
@[simp] theorem State.soon_tlb (s : State) (i : Instr) : (s.soon i).tlb = s.tlb := rfl
@[simp] theorem State.soon_host (s : State) (i : Instr) : (s.soon i).host = s.host := rfl
@[simp] theorem State.soon_hostPoison (s : State) (i : Instr) : (s.soon i).hostPoison = s.hostPoison := rfl
@[simp] theorem State.soon_mfFlt (s : State) (i : Instr) : (s.soon i).mfFlt = s.mfFlt := rfl
@[simp] theorem State.soon_optrc (s : State) (i : Instr) : (s.soon i).optrc = s.optrc := rfl
@[simp] theorem State.soon_tlmSel (s : State) (i : Instr) : (s.soon i).tlmSel = s.tlmSel := rfl
@[simp] theorem State.soon_enOper (s : State) (i : Instr) : (s.soon i).enOper = s.enOper := rfl
@[simp] theorem State.soon_corrected (s : State) (i : Instr) : (s.soon i).corrected = s.corrected := rfl
@[simp] theorem State.soon_out (s : State) (i : Instr) : (s.soon i).out = s.out := rfl
@[simp] theorem State.emit_cycle (s : State) (x : Out) : (s.emit x).cycle = s.cycle := rfl
@[simp] theorem State.emit_ns (s : State) (x : Out) : (s.emit x).ns = s.ns := rfl
@[simp] theorem State.emit_nsSet (s : State) (x : Out) : (s.emit x).nsSet = s.nsSet := rfl
@[simp] theorem State.emit_nsWrite (s : State) (x : Out) : (s.emit x).nsWrite = s.nsWrite := rfl
@[simp] theorem State.emit_ref (s : State) (x : Out) : (s.emit x).ref = s.ref := rfl
@[simp] theorem State.emit_nsPhase (s : State) (x : Out) : (s.emit x).nsPhase = s.nsPhase := rfl
@[simp] theorem State.emit_agenda (s : State) (x : Out) : (s.emit x).agenda = s.agenda := rfl
@[simp] theorem State.emit_due (s : State) (x : Out) : (s.emit x).due = s.due := rfl
@[simp] theorem State.emit_issue (s : State) (x : Out) : (s.emit x).issue = s.issue := rfl
@[simp] theorem State.emit_cur (s : State) (x : Out) : (s.emit x).cur = s.cur := rfl
@[simp] theorem State.emit_phase (s : State) (x : Out) : (s.emit x).phase = s.phase := rfl
@[simp] theorem State.emit_inputs (s : State) (x : Out) : (s.emit x).inputs = s.inputs := rfl
@[simp] theorem State.emit_tornHost (s : State) (x : Out) : (s.emit x).tornHost = s.tornHost := rfl
@[simp] theorem State.emit_timers (s : State) (x : Out) : (s.emit x).timers = s.timers := rfl
@[simp] theorem State.emit_nsTimers (s : State) (x : Out) : (s.emit x).nsTimers = s.nsTimers := rfl
@[simp] theorem State.emit_wheel (s : State) (x : Out) : (s.emit x).wheel = s.wheel := rfl
@[simp] theorem State.emit_free (s : State) (x : Out) : (s.emit x).free = s.free := rfl
@[simp] theorem State.emit_pwr (s : State) (x : Out) : (s.emit x).pwr = s.pwr := rfl
@[simp] theorem State.emit_est (s : State) (x : Out) : (s.emit x).est = s.est := rfl
@[simp] theorem State.emit_link (s : State) (x : Out) : (s.emit x).link = s.link := rfl
@[simp] theorem State.emit_fns (s : State) (x : Out) : (s.emit x).fns = s.fns := rfl
@[simp] theorem State.emit_mfApr (s : State) (x : Out) : (s.emit x).mfApr = s.mfApr := rfl
@[simp] theorem State.emit_parts (s : State) (x : Out) : (s.emit x).parts = s.parts := rfl
@[simp] theorem State.emit_vdcmd (s : State) (x : Out) : (s.emit x).vdcmd = s.vdcmd := rfl
@[simp] theorem State.emit_vds (s : State) (x : Out) : (s.emit x).vds = s.vds := rfl
@[simp] theorem State.emit_counts (s : State) (x : Out) : (s.emit x).counts = s.counts := rfl
@[simp] theorem State.emit_queues (s : State) (x : Out) : (s.emit x).queues = s.queues := rfl
@[simp] theorem State.emit_cqs (s : State) (x : Out) : (s.emit x).cqs = s.cqs := rfl
@[simp] theorem State.emit_rot (s : State) (x : Out) : (s.emit x).rot = s.rot := rfl
@[simp] theorem State.emit_runs (s : State) (x : Out) : (s.emit x).runs = s.runs := rfl
@[simp] theorem State.emit_nextRun (s : State) (x : Out) : (s.emit x).nextRun = s.nextRun := rfl
@[simp] theorem State.emit_sigHeld (s : State) (x : Out) : (s.emit x).sigHeld = s.sigHeld := rfl
@[simp] theorem State.emit_posts (s : State) (x : Out) : (s.emit x).posts = s.posts := rfl
@[simp] theorem State.emit_klk (s : State) (x : Out) : (s.emit x).klk = s.klk := rfl
@[simp] theorem State.emit_fw (s : State) (x : Out) : (s.emit x).fw = s.fw := rfl
@[simp] theorem State.emit_wm (s : State) (x : Out) : (s.emit x).wm = s.wm := rfl
@[simp] theorem State.emit_plc (s : State) (x : Out) : (s.emit x).plc = s.plc := rfl
@[simp] theorem State.emit_strands (s : State) (x : Out) : (s.emit x).strands = s.strands := rfl
@[simp] theorem State.emit_nextSid (s : State) (x : Out) : (s.emit x).nextSid = s.nextSid := rfl
@[simp] theorem State.emit_cores (s : State) (x : Out) : (s.emit x).cores = s.cores := rfl
@[simp] theorem State.emit_xfers (s : State) (x : Out) : (s.emit x).xfers = s.xfers := rfl
@[simp] theorem State.emit_nextTid (s : State) (x : Out) : (s.emit x).nextTid = s.nextTid := rfl
@[simp] theorem State.emit_saves (s : State) (x : Out) : (s.emit x).saves = s.saves := rfl
@[simp] theorem State.emit_mem (s : State) (x : Out) : (s.emit x).mem = s.mem := rfl
@[simp] theorem State.emit_memPoison (s : State) (x : Out) : (s.emit x).memPoison = s.memPoison := rfl
@[simp] theorem State.emit_dirty (s : State) (x : Out) : (s.emit x).dirty = s.dirty := rfl
@[simp] theorem State.emit_stale (s : State) (x : Out) : (s.emit x).stale = s.stale := rfl
@[simp] theorem State.emit_tlb (s : State) (x : Out) : (s.emit x).tlb = s.tlb := rfl
@[simp] theorem State.emit_host (s : State) (x : Out) : (s.emit x).host = s.host := rfl
@[simp] theorem State.emit_hostPoison (s : State) (x : Out) : (s.emit x).hostPoison = s.hostPoison := rfl
@[simp] theorem State.emit_mfFlt (s : State) (x : Out) : (s.emit x).mfFlt = s.mfFlt := rfl
@[simp] theorem State.emit_optrc (s : State) (x : Out) : (s.emit x).optrc = s.optrc := rfl
@[simp] theorem State.emit_tlmSel (s : State) (x : Out) : (s.emit x).tlmSel = s.tlmSel := rfl
@[simp] theorem State.emit_enOper (s : State) (x : Out) : (s.emit x).enOper = s.enOper := rfl
@[simp] theorem State.emit_corrected (s : State) (x : Out) : (s.emit x).corrected = s.corrected := rfl
@[simp] theorem State.emit_out (s : State) (x : Out) : (s.emit x).out = s.out ++ [x] := rfl
@[simp] theorem State.tick1_cycle (s : State) : (s.tick1).cycle = s.cycle := rfl
@[simp] theorem State.tick1_ns (s : State) : (s.tick1).ns = s.ns := rfl
@[simp] theorem State.tick1_nsSet (s : State) : (s.tick1).nsSet = s.nsSet := rfl
@[simp] theorem State.tick1_nsWrite (s : State) : (s.tick1).nsWrite = s.nsWrite := rfl
@[simp] theorem State.tick1_ref (s : State) : (s.tick1).ref = s.ref := rfl
@[simp] theorem State.tick1_nsPhase (s : State) : (s.tick1).nsPhase = s.nsPhase := rfl
@[simp] theorem State.tick1_agenda (s : State) : (s.tick1).agenda = s.agenda := rfl
@[simp] theorem State.tick1_due (s : State) : (s.tick1).due = s.due := rfl
@[simp] theorem State.tick1_issue (s : State) : (s.tick1).issue = s.issue := rfl
@[simp] theorem State.tick1_cur (s : State) : (s.tick1).cur = s.cur := rfl
@[simp] theorem State.tick1_phase (s : State) : (s.tick1).phase = s.phase := rfl
@[simp] theorem State.tick1_inputs (s : State) : (s.tick1).inputs = s.inputs := rfl
@[simp] theorem State.tick1_tornHost (s : State) : (s.tick1).tornHost = s.tornHost := rfl
@[simp] theorem State.tick1_timers (s : State) : (s.tick1).timers = s.timers := rfl
@[simp] theorem State.tick1_nsTimers (s : State) : (s.tick1).nsTimers = s.nsTimers := rfl
@[simp] theorem State.tick1_wheel (s : State) : (s.tick1).wheel = s.wheel := rfl
@[simp] theorem State.tick1_free (s : State) : (s.tick1).free = s.free + 1 := rfl
@[simp] theorem State.tick1_pwr (s : State) : (s.tick1).pwr = s.pwr := rfl
@[simp] theorem State.tick1_est (s : State) : (s.tick1).est = s.est := rfl
@[simp] theorem State.tick1_link (s : State) : (s.tick1).link = s.link := rfl
@[simp] theorem State.tick1_fns (s : State) : (s.tick1).fns = s.fns := rfl
@[simp] theorem State.tick1_mfApr (s : State) : (s.tick1).mfApr = s.mfApr := rfl
@[simp] theorem State.tick1_parts (s : State) : (s.tick1).parts = s.parts := rfl
@[simp] theorem State.tick1_vdcmd (s : State) : (s.tick1).vdcmd = s.vdcmd := rfl
@[simp] theorem State.tick1_vds (s : State) : (s.tick1).vds = s.vds := rfl
@[simp] theorem State.tick1_counts (s : State) : (s.tick1).counts = s.counts := rfl
@[simp] theorem State.tick1_queues (s : State) : (s.tick1).queues = s.queues := rfl
@[simp] theorem State.tick1_cqs (s : State) : (s.tick1).cqs = s.cqs := rfl
@[simp] theorem State.tick1_rot (s : State) : (s.tick1).rot = s.rot := rfl
@[simp] theorem State.tick1_runs (s : State) : (s.tick1).runs = s.runs := rfl
@[simp] theorem State.tick1_nextRun (s : State) : (s.tick1).nextRun = s.nextRun := rfl
@[simp] theorem State.tick1_sigHeld (s : State) : (s.tick1).sigHeld = s.sigHeld := rfl
@[simp] theorem State.tick1_posts (s : State) : (s.tick1).posts = s.posts := rfl
@[simp] theorem State.tick1_klk (s : State) : (s.tick1).klk = s.klk := rfl
@[simp] theorem State.tick1_fw (s : State) : (s.tick1).fw = s.fw := rfl
@[simp] theorem State.tick1_wm (s : State) : (s.tick1).wm = s.wm := rfl
@[simp] theorem State.tick1_plc (s : State) : (s.tick1).plc = s.plc := rfl
@[simp] theorem State.tick1_strands (s : State) : (s.tick1).strands = s.strands := rfl
@[simp] theorem State.tick1_nextSid (s : State) : (s.tick1).nextSid = s.nextSid := rfl
@[simp] theorem State.tick1_cores (s : State) : (s.tick1).cores = s.cores := rfl
@[simp] theorem State.tick1_xfers (s : State) : (s.tick1).xfers = s.xfers := rfl
@[simp] theorem State.tick1_nextTid (s : State) : (s.tick1).nextTid = s.nextTid := rfl
@[simp] theorem State.tick1_saves (s : State) : (s.tick1).saves = s.saves := rfl
@[simp] theorem State.tick1_mem (s : State) : (s.tick1).mem = s.mem := rfl
@[simp] theorem State.tick1_memPoison (s : State) : (s.tick1).memPoison = s.memPoison := rfl
@[simp] theorem State.tick1_dirty (s : State) : (s.tick1).dirty = s.dirty := rfl
@[simp] theorem State.tick1_stale (s : State) : (s.tick1).stale = s.stale := rfl
@[simp] theorem State.tick1_tlb (s : State) : (s.tick1).tlb = s.tlb := rfl
@[simp] theorem State.tick1_host (s : State) : (s.tick1).host = s.host := rfl
@[simp] theorem State.tick1_hostPoison (s : State) : (s.tick1).hostPoison = s.hostPoison := rfl
@[simp] theorem State.tick1_mfFlt (s : State) : (s.tick1).mfFlt = s.mfFlt := rfl
@[simp] theorem State.tick1_optrc (s : State) : (s.tick1).optrc = s.optrc := rfl
@[simp] theorem State.tick1_tlmSel (s : State) : (s.tick1).tlmSel = s.tlmSel := rfl
@[simp] theorem State.tick1_enOper (s : State) : (s.tick1).enOper = s.enOper := rfl
@[simp] theorem State.tick1_corrected (s : State) : (s.tick1).corrected = s.corrected := rfl
@[simp] theorem State.tick1_out (s : State) : (s.tick1).out = s.out := rfl
@[simp] theorem State.addFault_cycle (s : State) (i : Nat) (e : FaultEv) : (s.addFault i e).cycle = s.cycle := rfl
@[simp] theorem State.addFault_ns (s : State) (i : Nat) (e : FaultEv) : (s.addFault i e).ns = s.ns := rfl
@[simp] theorem State.addFault_nsSet (s : State) (i : Nat) (e : FaultEv) : (s.addFault i e).nsSet = s.nsSet := rfl
@[simp] theorem State.addFault_nsWrite (s : State) (i : Nat) (e : FaultEv) : (s.addFault i e).nsWrite = s.nsWrite := rfl
@[simp] theorem State.addFault_ref (s : State) (i : Nat) (e : FaultEv) : (s.addFault i e).ref = s.ref := rfl
@[simp] theorem State.addFault_nsPhase (s : State) (i : Nat) (e : FaultEv) : (s.addFault i e).nsPhase = s.nsPhase := rfl
@[simp] theorem State.addFault_agenda (s : State) (i : Nat) (e : FaultEv) : (s.addFault i e).agenda = s.agenda := rfl
@[simp] theorem State.addFault_due (s : State) (i : Nat) (e : FaultEv) : (s.addFault i e).due = s.due := rfl
@[simp] theorem State.addFault_issue (s : State) (i : Nat) (e : FaultEv) : (s.addFault i e).issue = s.issue := rfl
@[simp] theorem State.addFault_cur (s : State) (i : Nat) (e : FaultEv) : (s.addFault i e).cur = s.cur := rfl
@[simp] theorem State.addFault_phase (s : State) (i : Nat) (e : FaultEv) : (s.addFault i e).phase = s.phase := rfl
@[simp] theorem State.addFault_inputs (s : State) (i : Nat) (e : FaultEv) : (s.addFault i e).inputs = s.inputs := rfl
@[simp] theorem State.addFault_tornHost (s : State) (i : Nat) (e : FaultEv) : (s.addFault i e).tornHost = s.tornHost := rfl
@[simp] theorem State.addFault_timers (s : State) (i : Nat) (e : FaultEv) : (s.addFault i e).timers = s.timers := rfl
@[simp] theorem State.addFault_nsTimers (s : State) (i : Nat) (e : FaultEv) : (s.addFault i e).nsTimers = s.nsTimers := rfl
@[simp] theorem State.addFault_wheel (s : State) (i : Nat) (e : FaultEv) : (s.addFault i e).wheel = s.wheel := rfl
@[simp] theorem State.addFault_free (s : State) (i : Nat) (e : FaultEv) : (s.addFault i e).free = s.free := rfl
@[simp] theorem State.addFault_pwr (s : State) (i : Nat) (e : FaultEv) : (s.addFault i e).pwr = s.pwr := rfl
@[simp] theorem State.addFault_est (s : State) (i : Nat) (e : FaultEv) : (s.addFault i e).est = s.est := rfl
@[simp] theorem State.addFault_link (s : State) (i : Nat) (e : FaultEv) : (s.addFault i e).link = s.link := rfl
@[simp] theorem State.addFault_fns (s : State) (i : Nat) (e : FaultEv) : (s.addFault i e).fns = s.fns := rfl
@[simp] theorem State.addFault_mfApr (s : State) (i : Nat) (e : FaultEv) : (s.addFault i e).mfApr = s.mfApr := rfl
@[simp] theorem State.addFault_parts (s : State) (i : Nat) (e : FaultEv) : (s.addFault i e).parts = s.parts := rfl
@[simp] theorem State.addFault_vdcmd (s : State) (i : Nat) (e : FaultEv) : (s.addFault i e).vdcmd = s.vdcmd := rfl
@[simp] theorem State.addFault_vds (s : State) (i : Nat) (e : FaultEv) : (s.addFault i e).vds = s.vds := rfl
@[simp] theorem State.addFault_counts (s : State) (i : Nat) (e : FaultEv) : (s.addFault i e).counts = s.counts := rfl
@[simp] theorem State.addFault_queues (s : State) (i : Nat) (e : FaultEv) : (s.addFault i e).queues = s.queues := rfl
@[simp] theorem State.addFault_cqs (s : State) (i : Nat) (e : FaultEv) : (s.addFault i e).cqs = s.cqs := rfl
@[simp] theorem State.addFault_rot (s : State) (i : Nat) (e : FaultEv) : (s.addFault i e).rot = s.rot := rfl
@[simp] theorem State.addFault_runs (s : State) (i : Nat) (e : FaultEv) : (s.addFault i e).runs = s.runs := rfl
@[simp] theorem State.addFault_nextRun (s : State) (i : Nat) (e : FaultEv) : (s.addFault i e).nextRun = s.nextRun := rfl
@[simp] theorem State.addFault_sigHeld (s : State) (i : Nat) (e : FaultEv) : (s.addFault i e).sigHeld = s.sigHeld := rfl
@[simp] theorem State.addFault_posts (s : State) (i : Nat) (e : FaultEv) : (s.addFault i e).posts = s.posts := rfl
@[simp] theorem State.addFault_klk (s : State) (i : Nat) (e : FaultEv) : (s.addFault i e).klk = s.klk := rfl
@[simp] theorem State.addFault_fw (s : State) (i : Nat) (e : FaultEv) : (s.addFault i e).fw = s.fw := rfl
@[simp] theorem State.addFault_wm (s : State) (i : Nat) (e : FaultEv) : (s.addFault i e).wm = s.wm := rfl
@[simp] theorem State.addFault_plc (s : State) (i : Nat) (e : FaultEv) : (s.addFault i e).plc = s.plc := rfl
@[simp] theorem State.addFault_nextSid (s : State) (i : Nat) (e : FaultEv) : (s.addFault i e).nextSid = s.nextSid := rfl
@[simp] theorem State.addFault_cores (s : State) (i : Nat) (e : FaultEv) : (s.addFault i e).cores = s.cores := rfl
@[simp] theorem State.addFault_xfers (s : State) (i : Nat) (e : FaultEv) : (s.addFault i e).xfers = s.xfers := rfl
@[simp] theorem State.addFault_nextTid (s : State) (i : Nat) (e : FaultEv) : (s.addFault i e).nextTid = s.nextTid := rfl
@[simp] theorem State.addFault_saves (s : State) (i : Nat) (e : FaultEv) : (s.addFault i e).saves = s.saves := rfl
@[simp] theorem State.addFault_mem (s : State) (i : Nat) (e : FaultEv) : (s.addFault i e).mem = s.mem := rfl
@[simp] theorem State.addFault_memPoison (s : State) (i : Nat) (e : FaultEv) : (s.addFault i e).memPoison = s.memPoison := rfl
@[simp] theorem State.addFault_dirty (s : State) (i : Nat) (e : FaultEv) : (s.addFault i e).dirty = s.dirty := rfl
@[simp] theorem State.addFault_stale (s : State) (i : Nat) (e : FaultEv) : (s.addFault i e).stale = s.stale := rfl
@[simp] theorem State.addFault_tlb (s : State) (i : Nat) (e : FaultEv) : (s.addFault i e).tlb = s.tlb := rfl
@[simp] theorem State.addFault_host (s : State) (i : Nat) (e : FaultEv) : (s.addFault i e).host = s.host := rfl
@[simp] theorem State.addFault_hostPoison (s : State) (i : Nat) (e : FaultEv) : (s.addFault i e).hostPoison = s.hostPoison := rfl
@[simp] theorem State.addFault_mfFlt (s : State) (i : Nat) (e : FaultEv) : (s.addFault i e).mfFlt = s.mfFlt := rfl
@[simp] theorem State.addFault_optrc (s : State) (i : Nat) (e : FaultEv) : (s.addFault i e).optrc = s.optrc := rfl
@[simp] theorem State.addFault_tlmSel (s : State) (i : Nat) (e : FaultEv) : (s.addFault i e).tlmSel = s.tlmSel := rfl
@[simp] theorem State.addFault_enOper (s : State) (i : Nat) (e : FaultEv) : (s.addFault i e).enOper = s.enOper := rfl
@[simp] theorem State.addFault_corrected (s : State) (i : Nat) (e : FaultEv) : (s.addFault i e).corrected = s.corrected := rfl
@[simp] theorem State.addFault_out (s : State) (i : Nat) (e : FaultEv) : (s.addFault i e).out = s.out := rfl

/-! ### What an accessor reads after an update -/

@[simp] theorem State.core_setCore (s : State) (c d : Nat) (k : CoreSt) : (s.setCore c k).core d = if d = c then k else s.core d :=
  tget_tset ..
@[simp] theorem State.strand_setStrand (s : State) (i j : Nat) (t : Strand) :
    (s.setStrand i t).strand j = if j = i then t else s.strand j := tget_tset ..
@[simp] theorem State.vd_setVd (s : State) (c d : Nat) (v : Vd) : (s.setVd c v).vd d = if d = c then v else s.vd d := tget_tset ..
@[simp] theorem State.fn_setFn (s : State) (f g : Nat) (v : Fn) : (s.setFn f v).fn g = if g = f then v else s.fn g := tget_tset ..
theorem State.queue_setQueue (s : State) (f q g r : Nat) (v : Queue) :
    (s.setQueue f q v).queue g r = if 64 * g + r = 64 * f + q then v else s.queue g r := tget_tset ..
theorem State.cq_setCq (s : State) (f n g r : Nat) (v : Cq) :
    (s.setCq f n v).cq g r = if 64 * g + r = 64 * f + n then v else s.cq g r := tget_tset ..
@[simp] theorem CoreSt.owner_setOwner (k : CoreSt) (w v : Nat) (o : Owner) :
    (k.setOwner w o).owner v = if v = w then o else k.owner v := tget_tset ..
@[simp] theorem State.owner_setOwner_self (s : State) (c w : Nat) (o : Owner) : (s.setOwner c w o).owner c w = o := by
  simp [State.owner, State.setOwner]
theorem State.owner_setOwner_of_ne (s : State) {c w d v : Nat} (o : Owner) (h : ¬ (d = c ∧ v = w)) :
    (s.setOwner c w o).owner d v = s.owner d v := by
  simp only [State.owner, State.setOwner, State.core_setCore]
  by_cases hd : d = c
  · have hv : v ≠ w := fun e => h ⟨hd, e⟩
    subst hd
    simp [hv]
  · simp [hd]
@[simp] theorem State.cob_setCob (s : State) (c d : Nat) (b : Cobbler) : (s.setCob c b).cob d = if d = c then b else s.cob d := by
  simp only [State.cob, State.setCob, State.core_setCore]
  split <;> rfl
@[simp] theorem State.curOwner_setCurOwner (s : State) (o : Owner) : (s.setCurOwner o).curOwner = o :=
  State.owner_setOwner_self ..
@[simp] theorem State.core_setStrand (s : State) (i : Nat) (t : Strand) (n : Nat) : (s.setStrand i t).core n = s.core n := rfl
@[simp] theorem State.core_setVd (s : State) (c : Nat) (v : Vd) (n : Nat) : (s.setVd c v).core n = s.core n := rfl
@[simp] theorem State.core_setFn (s : State) (f : Nat) (v : Fn) (n : Nat) : (s.setFn f v).core n = s.core n := rfl
@[simp] theorem State.core_setQueue (s : State) (f q : Nat) (v : Queue) (n : Nat) : (s.setQueue f q v).core n = s.core n := rfl
@[simp] theorem State.core_setCq (s : State) (f m : Nat) (v : Cq) (n : Nat) : (s.setCq f m v).core n = s.core n := rfl
@[simp] theorem State.core_push (s : State) (i : Instr) (n : Nat) : (s.push i).core n = s.core n := rfl
@[simp] theorem State.core_pushAll (s : State) (l : List Instr) (n : Nat) : (s.pushAll l).core n = s.core n := rfl
@[simp] theorem State.core_at (s : State) (c : Nat) (i : Instr) (n : Nat) : (s.at c i).core n = s.core n := rfl
@[simp] theorem State.core_afterNs (s : State) (d : Nat) (i : Instr) (n : Nat) : (s.afterNs d i).core n = s.core n := rfl
@[simp] theorem State.core_cancel (s : State) (i : Instr) (n : Nat) : (s.cancel i).core n = s.core n := rfl
@[simp] theorem State.core_soon (s : State) (i : Instr) (n : Nat) : (s.soon i).core n = s.core n := rfl
@[simp] theorem State.core_emit (s : State) (x : Out) (n : Nat) : (s.emit x).core n = s.core n := rfl
@[simp] theorem State.core_tick1 (s : State) (n : Nat) : (s.tick1).core n = s.core n := rfl
@[simp] theorem State.core_addFault (s : State) (i : Nat) (e : FaultEv) (n : Nat) : (s.addFault i e).core n = s.core n := rfl
@[simp] theorem State.strand_setCore (s : State) (c : Nat) (k : CoreSt) (n : Nat) : (s.setCore c k).strand n = s.strand n := rfl
@[simp] theorem State.strand_setOwner (s : State) (c w : Nat) (o : Owner) (n : Nat) : (s.setOwner c w o).strand n = s.strand n := rfl
@[simp] theorem State.strand_setCurOwner (s : State) (o : Owner) (n : Nat) : (s.setCurOwner o).strand n = s.strand n := rfl
@[simp] theorem State.strand_setCob (s : State) (c : Nat) (b : Cobbler) (n : Nat) : (s.setCob c b).strand n = s.strand n := rfl
@[simp] theorem State.strand_setVd (s : State) (c : Nat) (v : Vd) (n : Nat) : (s.setVd c v).strand n = s.strand n := rfl
@[simp] theorem State.strand_setFn (s : State) (f : Nat) (v : Fn) (n : Nat) : (s.setFn f v).strand n = s.strand n := rfl
@[simp] theorem State.strand_setQueue (s : State) (f q : Nat) (v : Queue) (n : Nat) : (s.setQueue f q v).strand n = s.strand n := rfl
@[simp] theorem State.strand_setCq (s : State) (f m : Nat) (v : Cq) (n : Nat) : (s.setCq f m v).strand n = s.strand n := rfl
@[simp] theorem State.strand_push (s : State) (i : Instr) (n : Nat) : (s.push i).strand n = s.strand n := rfl
@[simp] theorem State.strand_pushAll (s : State) (l : List Instr) (n : Nat) : (s.pushAll l).strand n = s.strand n := rfl
@[simp] theorem State.strand_at (s : State) (c : Nat) (i : Instr) (n : Nat) : (s.at c i).strand n = s.strand n := rfl
@[simp] theorem State.strand_afterNs (s : State) (d : Nat) (i : Instr) (n : Nat) : (s.afterNs d i).strand n = s.strand n := rfl
@[simp] theorem State.strand_cancel (s : State) (i : Instr) (n : Nat) : (s.cancel i).strand n = s.strand n := rfl
@[simp] theorem State.strand_soon (s : State) (i : Instr) (n : Nat) : (s.soon i).strand n = s.strand n := rfl
@[simp] theorem State.strand_emit (s : State) (x : Out) (n : Nat) : (s.emit x).strand n = s.strand n := rfl
@[simp] theorem State.strand_tick1 (s : State) (n : Nat) : (s.tick1).strand n = s.strand n := rfl
@[simp] theorem State.vd_setCore (s : State) (c : Nat) (k : CoreSt) (n : Nat) : (s.setCore c k).vd n = s.vd n := rfl
@[simp] theorem State.vd_setOwner (s : State) (c w : Nat) (o : Owner) (n : Nat) : (s.setOwner c w o).vd n = s.vd n := rfl
@[simp] theorem State.vd_setCurOwner (s : State) (o : Owner) (n : Nat) : (s.setCurOwner o).vd n = s.vd n := rfl
@[simp] theorem State.vd_setCob (s : State) (c : Nat) (b : Cobbler) (n : Nat) : (s.setCob c b).vd n = s.vd n := rfl
@[simp] theorem State.vd_setStrand (s : State) (i : Nat) (t : Strand) (n : Nat) : (s.setStrand i t).vd n = s.vd n := rfl
@[simp] theorem State.vd_setFn (s : State) (f : Nat) (v : Fn) (n : Nat) : (s.setFn f v).vd n = s.vd n := rfl
@[simp] theorem State.vd_setQueue (s : State) (f q : Nat) (v : Queue) (n : Nat) : (s.setQueue f q v).vd n = s.vd n := rfl
@[simp] theorem State.vd_setCq (s : State) (f m : Nat) (v : Cq) (n : Nat) : (s.setCq f m v).vd n = s.vd n := rfl
@[simp] theorem State.vd_push (s : State) (i : Instr) (n : Nat) : (s.push i).vd n = s.vd n := rfl
@[simp] theorem State.vd_pushAll (s : State) (l : List Instr) (n : Nat) : (s.pushAll l).vd n = s.vd n := rfl
@[simp] theorem State.vd_at (s : State) (c : Nat) (i : Instr) (n : Nat) : (s.at c i).vd n = s.vd n := rfl
@[simp] theorem State.vd_afterNs (s : State) (d : Nat) (i : Instr) (n : Nat) : (s.afterNs d i).vd n = s.vd n := rfl
@[simp] theorem State.vd_cancel (s : State) (i : Instr) (n : Nat) : (s.cancel i).vd n = s.vd n := rfl
@[simp] theorem State.vd_soon (s : State) (i : Instr) (n : Nat) : (s.soon i).vd n = s.vd n := rfl
@[simp] theorem State.vd_emit (s : State) (x : Out) (n : Nat) : (s.emit x).vd n = s.vd n := rfl
@[simp] theorem State.vd_tick1 (s : State) (n : Nat) : (s.tick1).vd n = s.vd n := rfl
@[simp] theorem State.vd_addFault (s : State) (i : Nat) (e : FaultEv) (n : Nat) : (s.addFault i e).vd n = s.vd n := rfl
@[simp] theorem State.fn_setCore (s : State) (c : Nat) (k : CoreSt) (n : Nat) : (s.setCore c k).fn n = s.fn n := rfl
@[simp] theorem State.fn_setOwner (s : State) (c w : Nat) (o : Owner) (n : Nat) : (s.setOwner c w o).fn n = s.fn n := rfl
@[simp] theorem State.fn_setCurOwner (s : State) (o : Owner) (n : Nat) : (s.setCurOwner o).fn n = s.fn n := rfl
@[simp] theorem State.fn_setCob (s : State) (c : Nat) (b : Cobbler) (n : Nat) : (s.setCob c b).fn n = s.fn n := rfl
@[simp] theorem State.fn_setStrand (s : State) (i : Nat) (t : Strand) (n : Nat) : (s.setStrand i t).fn n = s.fn n := rfl
@[simp] theorem State.fn_setVd (s : State) (c : Nat) (v : Vd) (n : Nat) : (s.setVd c v).fn n = s.fn n := rfl
@[simp] theorem State.fn_setQueue (s : State) (f q : Nat) (v : Queue) (n : Nat) : (s.setQueue f q v).fn n = s.fn n := rfl
@[simp] theorem State.fn_setCq (s : State) (f m : Nat) (v : Cq) (n : Nat) : (s.setCq f m v).fn n = s.fn n := rfl
@[simp] theorem State.fn_push (s : State) (i : Instr) (n : Nat) : (s.push i).fn n = s.fn n := rfl
@[simp] theorem State.fn_pushAll (s : State) (l : List Instr) (n : Nat) : (s.pushAll l).fn n = s.fn n := rfl
@[simp] theorem State.fn_at (s : State) (c : Nat) (i : Instr) (n : Nat) : (s.at c i).fn n = s.fn n := rfl
@[simp] theorem State.fn_afterNs (s : State) (d : Nat) (i : Instr) (n : Nat) : (s.afterNs d i).fn n = s.fn n := rfl
@[simp] theorem State.fn_cancel (s : State) (i : Instr) (n : Nat) : (s.cancel i).fn n = s.fn n := rfl
@[simp] theorem State.fn_soon (s : State) (i : Instr) (n : Nat) : (s.soon i).fn n = s.fn n := rfl
@[simp] theorem State.fn_emit (s : State) (x : Out) (n : Nat) : (s.emit x).fn n = s.fn n := rfl
@[simp] theorem State.fn_tick1 (s : State) (n : Nat) : (s.tick1).fn n = s.fn n := rfl
@[simp] theorem State.fn_addFault (s : State) (i : Nat) (e : FaultEv) (n : Nat) : (s.addFault i e).fn n = s.fn n := rfl

end Sys2Proof.Machine
end

