-- ==== Sys2Proof/Tests/Slice0.lean ====
section
/-! SUPPORT. The model's own tests: terms that the well-formedness checks refuse, words that decode to their instructions,
single steps on small states with results taken from the manual, and for every statement a state that meets its hypotheses,
clause by clause. -/

namespace Sys2Proof.Tests

open Machine

set_option maxRecDepth 8000

/-- The fields of a long form with idle count 0, no token and no guard. -/
def hd : Hd := ⟨0, 0, 0⟩

/-- A package with one owner, as weave id 0 of core 0, that issues on a stream. -/
def one (st : StreamId) (o : Owner) (k : CoreSt := {}) : State :=
  { cores := [(0, { k with owners := [(0, o)] })], cur := ⟨0, 0, st⟩ }

/-- An instruction with no token and no guard may issue on any owner's stream. -/
theorem ready_one {st : StreamId} (h : st ≠ .f) (o : Owner) (k : CoreSt) (g : Bool) : Ready (one st o k) hd g :=
  ⟨h, by simp [hd, tokenTakes], fun _ => by simp [hd, selects]⟩

/-- A register that holds a value. -/
def val (v : W64) : XReg := { val := v, poison := false }

/-- A register that is poisoned. -/
def poi (v : W64) : XReg := { val := v, poison := true }

/-! ### Terms that are not instructions

One ill-formed term for each check of `Instr.wellFormed`. -/

theorem test_ill_formed_1 : ∀ i ∈ ([
    .junctionSensorRead [1], .ceilingSet 14, .pfFlr 33, .pfFlr 0, .vfFlr 289, .vfEnableWrite 33 false,
    .vfEnableWrite 0 false, .numvfsWrite 33 1, .numvfsWrite 1 65, .numvfsWrite 0 1, .tdispRequest 289 .lock,
    .ideKeyProgramming 33 1, .hostBar2Read 289 ⟨1, none, false⟩ 1, .hostBar2Write 289 1 [] false none,
    .hostReadCompletionTimeout 289 ⟨1, none⟩, .hostReadCompletionTimeout 1 ⟨64, none⟩, .msixVectorUnmask 289 1,
    .msixVectorUnmask 1 64, .registerWrite 289 ⟨1, none, false⟩ 1 1, .registerWrite 1 ⟨0, none, false⟩ 2 0,
    .klkFlitReceive 16 ⟨0, 0, 0, 0, 0, [], 0⟩, .klkNakReceive 16 1, .klkAckReceive 16 1, .klkPortTrained 16,
    .klkRetrainTimeout 16, .hbKlkRouteWrite 1024 1, .routeChangeApply 1024, .barrierArrival 65536 1 1,
    .barrierRelease 65536 1, .notify 289 1 0, .notify 1 64 0, .queueDisable 289 1, .queueDisable 1 64,
    .queueEnable 289 1, .queueEnable 1 64, .packetFetch 289 1] : List Instr), i.wellFormed = false := by decide

theorem test_ill_formed_2 : ∀ i ∈ ([
    .packetFetch 1 64, .nopPacket 289 1, .nopPacket 1 64, .launchPacket 289 1, .launchPacket 1 64, .waitPacket 289 1,
    .waitPacket 1 64, .signalPacket 289 1, .signalPacket 1 64, .copyPacket 289 1, .copyPacket 1 64,
    .invalPacket 289 1, .invalPacket 1 64, .waitReread 289 1, .waitReread 1 64, .launchAgingStep 289 1,
    .launchAgingStep 1 64, .cqEnable 289 1 1, .cqEnable 1 64 1, .cqCoalesceTimeout 289 1, .cqCoalesceTimeout 1 64,
    .attestationRequest 289 none, .attestationReportWrite 289, .firmwareWatchdogExpiry 1536, .coreLockout 1536,
    .cobblerEventDispatch 1536, .meterOpen 4096, .meterSeal 4096, .meterRetire 4096, .meterRecordWrite 4096,
    .tenantLogRidxWrite 289 1, .partitionCreate 33 1, .partitionCreate 0 1, .partitionResize 33 1,
    .partitionResize 0 1, .partitionRemove 33] : List Instr), i.wellFormed = false := by decide

theorem test_ill_formed_3 : ∀ i ∈ ([
    .partitionRemove 0, .migrationFinalArrival 289 ⟨(0, 0), [], [], [], [], [], [], [], [], [], false⟩,
    .postcopyPagePull 289 1, .postcopyPagePush 289, .postcopyPageArrival 289 1 ⟨[], []⟩, .postcopyPullTimeout 289 1,
    .admissionAttempt 289 1, .admissionAttempt 1 64, .weaveSwitch 1536, .ownerDepart 1536 1, .ownerDepart 1 8,
    .pageRequestPost 289, .pageDone 289 1, .prqEnable 289 1, .resultWriteback 1536 1, .resultWriteback 1 8,
    .faultRingEnable 289 1, .debugHalt 289, .debugResume 289, .breakpointSet 289, .breakpointClear 289,
    .debugDump 289, .debugRelease 289, .traceEnable 289 1, .cseDone 1536, .xphyDone 1536 1,
    .rcRegisterRead 289 ⟨1, none, false⟩, .mfApertureAccess ⟨0, some 33, false⟩ 8 none,
    .rcRegisterRead 1 ⟨8, some 33, false⟩, .klkPortDown 16, .zfillZeroed 1536, .postcopySourceFree 289,
    .blockHeader 0 0 0 1, .blockHeader 1 0 0 0, .blockHeader 1 1 0 8, .nop ⟨4, 0, 0⟩] : List Instr), i.wellFormed = false := by decide

theorem test_ill_formed_4 : ∀ i ∈ ([
    .endS ⟨4, 0, 0⟩, .idle ⟨0, 0, 1⟩ 1, .join ⟨0, 0, 1⟩ 1, .sync ⟨0, 0, 1⟩ 1 1, .sync ⟨0, 0, 0⟩ 6 1,
    .mark ⟨0, 0, 1⟩ 1, .inc ⟨4, 0, 0⟩ 1, .dec ⟨4, 0, 0⟩ 1, .neg ⟨4, 0, 0⟩ 1, .not ⟨4, 0, 0⟩ 1, .clr ⟨4, 0, 0⟩ 1,
    .pclr ⟨4, 0, 0⟩ 1, .pclr ⟨0, 0, 0⟩ 0, .pset ⟨4, 0, 0⟩ 1, .pset ⟨0, 0, 0⟩ 0, .pnot ⟨4, 0, 0⟩ 1, .pnot ⟨0, 0, 0⟩ 0,
    .rdtk ⟨4, 0, 0⟩ 1, .sel ⟨0, 0, 1⟩ 1 1 1 1, .sel ⟨0, 0, 0⟩ 0 1 1 1, .csel ⟨0, 0, 1⟩ 1 1 1 1,
    .csel ⟨0, 0, 0⟩ 0 1 1 1, .ceq ⟨0, 0, 0⟩ 0 1 1, .cne ⟨0, 0, 0⟩ 0 1 1, .clt ⟨0, 0, 0⟩ 0 1 1, .cltu ⟨0, 0, 0⟩ 0 1 1,
    .cle ⟨0, 0, 0⟩ 0 1 1, .cleu ⟨0, 0, 0⟩ 0 1 1, .ceqi ⟨0, 0, 0⟩ 1 0 1, .clti ⟨0, 0, 0⟩ 1 0 1, .cltui ⟨0, 0, 0⟩ 1 0 1,
    .movi ⟨0, 0, 1⟩ 1 1, .movh ⟨0, 0, 1⟩ 1 1, .rds ⟨0, 0, 0⟩ 1 10, .ags ⟨0, 0, 0⟩ 1 1 5, .pand ⟨0, 0, 0⟩ 0 1 1] : List Instr), i.wellFormed = false := by decide

theorem test_ill_formed_5 : ∀ i ∈ ([
    .pand ⟨0, 0, 0⟩ 1 0 1, .pand ⟨0, 0, 0⟩ 1 1 0, .por ⟨0, 0, 0⟩ 0 1 1, .por ⟨0, 0, 0⟩ 1 0 1, .por ⟨0, 0, 0⟩ 1 1 0,
    .pxor ⟨0, 0, 0⟩ 0 1 1, .pxor ⟨0, 0, 0⟩ 1 0 1, .pxor ⟨0, 0, 0⟩ 1 1 0, .pmov ⟨0, 0, 0⟩ 0 1, .pmov ⟨0, 0, 0⟩ 1 0,
    .trap ⟨0, 0, 1⟩ 1 1, .claim ⟨0, 0, 0⟩ 31 1, .release ⟨0, 0, 0⟩ 31 1, .ldtf ⟨0, 0, 0⟩ 31 1 1,
    .ldg ⟨0, 0, 1⟩ 1 1 1 1, .mmaw ⟨0, 0, 0⟩ 30 1, .mmaw ⟨0, 0, 0⟩ 1 30, .tcfg ⟨0, 0, 0⟩ 11 1, .tcfg ⟨0, 0, 0⟩ 1 3,
    .teval ⟨0, 0, 0⟩ 29, .wrs ⟨0, 1, 0⟩ 1 1, .wrs ⟨0, 0, 0⟩ 1 15, .rdsp ⟨0, 1, 0⟩ 1 1, .rdsp ⟨0, 0, 0⟩ 1 15,
    .eret ⟨0, 1, 0⟩, .waitev ⟨0, 1, 0⟩ 1 1, .wvset ⟨0, 1, 0⟩ 1 1, .cse ⟨0, 1, 0⟩ 1 1 1, .zfill ⟨0, 1, 0⟩ 1 1,
    .park ⟨0, 1, 0⟩ 1 1 1, .unpark ⟨0, 1, 0⟩ 1 1 1, .xphy ⟨0, 1, 0⟩ 1 1 1, .xatCas ⟨0, 0, 0⟩ 3 1 1 1,
    .xscCas ⟨0, 0, 0⟩ 3 1 1 1, .fence ⟨0, 0, 1⟩ 1, .xpop ⟨0, 0, 0⟩ 0 1] : List Instr), i.wellFormed = false := by decide

theorem test_ill_formed_6 : ∀ i ∈ ([
    .xpeek ⟨0, 0, 0⟩ 0 1, .vzero ⟨4, 0, 0⟩ 1, .vshli ⟨0, 0, 1⟩ 1 1 1, .vshri ⟨0, 0, 1⟩ 1 1 1, .vsari ⟨0, 0, 1⟩ 1 1 1,
    .vsel ⟨0, 0, 1⟩ 1 1 1 1 1, .vquant ⟨0, 0, 1⟩ 1 1 1 1, .vquant ⟨0, 0, 0⟩ 1 1 1 3, .vqexp ⟨0, 0, 1⟩ 1 1 1 1,
    .vqexp ⟨0, 0, 0⟩ 1 1 1 3, .vrotR ⟨0, 0, 1⟩ 1 1 1 1, .vrotC ⟨0, 0, 1⟩ 1 1 1 1, .vbcR ⟨0, 0, 1⟩ 1 1 1 1,
    .vbcC ⟨0, 0, 1⟩ 1 1 1 1, .vpermR ⟨0, 0, 1⟩ 1 1 1 1, .vpermC ⟨0, 0, 1⟩ 1 1 1 1, .vredRFadd ⟨0, 0, 1⟩ 1 1 1,
    .vredRIadd ⟨0, 0, 1⟩ 1 1 1, .vredRXor ⟨0, 0, 1⟩ 1 1 1, .vredRMax ⟨0, 0, 1⟩ 1 1 1, .vredRMin ⟨0, 0, 1⟩ 1 1 1,
    .vredCFadd ⟨0, 0, 1⟩ 1 1 1, .vredCIadd ⟨0, 0, 1⟩ 1 1 1, .vredCXor ⟨0, 0, 1⟩ 1 1 1, .vredCMax ⟨0, 0, 1⟩ 1 1 1,
    .vredCMin ⟨0, 0, 1⟩ 1 1 1, .vscanRFadd ⟨0, 0, 1⟩ 1 1 1, .vscanRIadd ⟨0, 0, 1⟩ 1 1 1, .vscanRXor ⟨0, 0, 1⟩ 1 1 1,
    .vscanCFadd ⟨0, 0, 1⟩ 1 1 1, .vscanCIadd ⟨0, 0, 1⟩ 1 1 1, .vscanCXor ⟨0, 0, 1⟩ 1 1 1, .vcpr ⟨0, 0, 1⟩ 1 1 1 1] : List Instr), i.wellFormed = false := by decide

/-! ### Words -/

/-- Worked encodings of chapters 11, 17 and 20, each word split into its two parcels. -/
theorem test_words_common : decode .c [0x8100, 0x0007] = .ok (.join hd 7, 2) ∧ decode .m [0x8000, 0x001E] = .ok (.idle hd 30, 2)
    ∧ decode .c [0x0400] = .ok (.endS hd, 1) ∧ decode .s [0xA100, 0x0002] = .ok (.fence hd 2, 2)
    ∧ decode .c [0xB600, 0x4001] = .ok (.movi hd 4 1, 2) ∧ decode .c [0xB700, 0x4234] = .ok (.movh hd 4 0x234, 2) :=
  ⟨rfl, rfl, rfl, rfl, rfl, rfl⟩

theorem test_words_vector : decode .v [0x8700, 0x0123] = .ok (.vfma hd 1 2 3, 2) ∧ decode .v [0xAE00, 0x2210] = .ok (.vsari hd 2 2 16, 2)
    ∧ decode .v [0xB200, 0x0213] = .ok (.vclmulL hd 2 1 3, 2) ∧ decode .v [0xC200, 0x0240] = .ok (.vspl hd 2 4, 2)
    ∧ decode .v [0xC300, 0x01FB] = .ok (.vimm hd 1 0xFB, 2) ∧ decode .v [0x0805] = .ok (.vzero hd 5, 1)
    ∧ decode .v [0xCB00, 0x0030] = .ok (.vlam hd 3, 2) ∧ decode .v [0xD300, 0x2134] = .ok (.vquant hd 2 1 3 1, 2)
    ∧ decode .v [0xED00, 0x0302] = .ok (.rpop hd 3 2, 2) ∧ decode .v [0xEE00, 0x0000] = .ok (.rfree hd, 2) :=
  ⟨rfl, rfl, rfl, rfl, rfl, rfl, rfl, rfl, rfl, rfl⟩

/-- Words of each stream written out field by field: OP7, idle count, tokens, then the operand fields (R302, R304-R311). -/
theorem test_words_fields :
    decode .c [0b1_0000101_0010_0000, 0b1001_0001_0010_0011] = .ok (.sub ⟨2, 0, 9⟩ 1 2 3, 2)
    ∧ decode .l [0b1_0000100_0000_0000, 0b0000_11110_00001_00] = .ok (.claim hd 30 1, 2)
    ∧ decode .m [0b1_0000101_0000_0010, 0b0000_00010_00101_00] = .ok (.mmaw ⟨0, 2, 0⟩ 2 5, 2)
    ∧ decode .f [0b1_1100010_0000_0000, 0b0000_0000_0000_0000] = .ok (.eret hd, 2) := ⟨rfl, rfl, rfl, rfl⟩

/-- The table numbers bit 0 as the least significant bit of the first parcel: ADD x1, x2, x3 and PSET p3 ^tl. -/
theorem test_table_words : decodeTableWord 32 0x84000123 = some (.add hd 1 2 3) ∧ decodeTableWord 16 0x2023 = some (.pset ⟨0, 2, 0⟩ 3) :=
  ⟨rfl, rfl⟩

/-! ### Single steps, with results from the manual -/

/-- The effects that a state holds for the owner of the slot in issue, with their delays. -/
def effects (r : Res) : List (Nat × Effect) :=
  match r with
  | .next t => t.curOwner.pend.map fun p => (p.due - p.iss, p.eff)
  | _ => []

/-- The faults of strand 1. -/
def causes (r : Res) : List Cause :=
  match r with
  | .next t => (t.strand 1).faults.map (·.cause)
  | _ => []

/-- R327: the second step of building 0x0012_3456_7800. -/
theorem test_movh : effects (exec (.movh hd 4 0x234) (one .c { x := [(4, val 1)] })) = [(1, .x 4 (val 0x1234))] := by rfl

/-- R322: the most negative number over -1, and a division by 0. -/
theorem test_div : effects (exec (.div hd 1 2 3) (one .c { x := [(2, val (1 <<< 63)), (3, val (-1))] })) = [(12, .x 1 (val (1 <<< 63)))]
    ∧ effects (exec (.rem hd 1 2 3) (one .c { x := [(2, val 7)] })) = [(12, .x 1 (val 7))] := ⟨rfl, rfl⟩

/-- R333: SETLC writes the low 32 bits, so 2^32 + 5 sets 5. -/
theorem test_setlc : effects (exec (.setlc hd 3 2) (one .c { x := [(2, val 0x100000005)] })) = [(2, .lc 3 5)] := by rfl

/-- R325: CNE of poison is 0. -/
theorem test_cne_poison : effects (exec (.cne hd 1 2 3) (one .c { x := [(2, poi 9), (3, val 4)] })) = [(1, .pred 1 false)] := by rfl

/-- R330: a store whose base is poisoned faults, and nothing is stored. -/
theorem test_store_poison :
    let s := exec (.stD hd 1 2 0) (one .c { sid := 1, x := [(2, poi 9)], winSize := 4096 })
    causes s = [.poisonConsumed] ∧ effects s = [] := ⟨rfl, rfl⟩

/-- R201: RADV into a full tile. -/
theorem test_radv_full : causes (exec (.radv hd) (one .m { sid := 1, tiles := [4, 5], full := 2 })) = [.ringOverrun] := by rfl

/-- R184: the takes of a NOP with TL miss when C's left neighbour has given nothing. -/
theorem test_take_missed : causes (exec (.nop ⟨0, 2, 0⟩) (one .c { sid := 1 })) = [.scheduleMiss] := by rfl

/-- R386: the two worked cases of VCLMUL.L. -/
theorem test_clmul : clmulL 0x00000041 0xFFFFFFFF = 0x0000003F ∧ clmulL 0x00000100 0xFFFFFFFF = 0xFFFFFF00 := by decide

/-- R400: the tree of 16,777,216.0 and 63 times 1.0 gives 16,777,278. -/
theorem test_tree : treeOf add32 6 (fun j => if j = 0 then 0x4B800000 else 0x3F800000) = 0x4B80001F := by decide +kernel

/-- R401: the XOR scan of 1, 0, 1, 1. -/
theorem test_scan : (List.range 4).map (scanOf (fun x y => x ^^^ y) fun j => if j = 1 then 0 else 1) = [1, 1, 0, 1] := by decide

/-- R246: the keys of 1.0 and of a tie that rounds to it. -/
theorem test_okey : okey 0x3F800000 = 0xBF80 ∧ okey 0x3F808000 = 0xBF80 := by decide

/-- R18: a package below its ceiling moves to it. -/
theorem test_ceiling :
    (match exec (.governorRevolution 0) { pwr := { ceil := 5 } } with | .next t => t.pwr.step | _ => 0) = 5 := by rfl

/-- The word of ADD runs as the first instruction after it is placed. -/
theorem test_first_step :
    effects (step (State.reset.withFetchWord 32 0x84000123)) = [(1, .x 1 (val 0))] := by rfl

/-! ### Witnesses: the control stream -/

/-- The hypotheses of the statements that ask only that the instruction may issue: with a guard and without; and with a take
from a counter that holds 1, and the guard p1. -/
theorem witness_Does : Ready (one .c {}) hd true ∧ Ready (one .l {}) hd false ∧ Ready (one .m {}) hd true ∧ Ready (one .v {}) hd true
    ∧ Ready (one .s {}) hd true
    ∧ Ready (one .c { tok := [(8, 1)], p := 2 }) ⟨0, 2, 1⟩ true := by
  refine ⟨ready_one ?_ .., ready_one ?_ .., ready_one ?_ .., ready_one ?_ .., ready_one ?_ .., ⟨?_, ?_, ?_⟩⟩ <;> decide

/-- SelectResults: both clean; the first poisoned; the second poisoned. -/
theorem witness_SelectResults :
    let o : Owner := { x := [(1, val 5), (2, poi 7)] }
    Ready (one .c o) hd false ∧ (rx o 1).poison = false ∧ (rx o 2).poison = true ∧ (rx o 3).poison = false :=
  ⟨ready_one (by decide) .., by decide⟩

/-- StreamRegisterWrites: a clean and a poisoned source; 15 and 16 entries in the format queue. -/
theorem witness_StreamRegisterWrites :
    let o : Owner := { x := [(1, val 5), (2, poi 7)], fq := List.replicate 15 0 }
    let o' : Owner := { fq := List.replicate 15 0, pend := pendOf 0 .c {} [(2, .fqPush 0)] }
    Ready (one .c o) hd true ∧ (rx o 1).poison = false ∧ (rx o 2).poison = true ∧ (4 : BitVec 3) ≠ 0 ∧ fqFill o < 16 ∧ 16 ≤ fqFill o' :=
  ⟨ready_one (by decide) .., by decide⟩

/-- CommonInstructions: TRAP on a poisoned register, on x0, on a register that is not 0 and on one that is. -/
theorem witness_CommonInstructions :
    let o : Owner := { x := [(1, val 5), (2, poi 7)] }
    Ready (one .c o) hd false ∧ (rx o 2).poison = true ∧ (rx o 0).poison = false
      ∧ ((rx o 1).poison = false ∧ (rx o 1).val ≠ 0) ∧ (rx o 3).poison = false ∧ (3 : BitVec 4) ≠ 0 ∧ (rx o 3).val = 0 :=
  ⟨ready_one (by decide) .., by decide⟩

/-- BlockHeaderOpens: a count from the header that is not 0, and a loop counter that is. -/
theorem witness_BlockHeaderOpens :
    (one .v {}).cur.str ≠ .f ∧ (1 : BitVec 12).toNat ≠ 0 ∧ (cget ({} : Owner).lc 7).toNat = 0 := by decide

/-- ScalarLoads: the last doubleword of a window of 4096 bytes. -/
theorem witness_ScalarLoads :
    let o : Owner := { x := [(1, val 4088)], winSize := 4096 }
    Ready (one .c o) hd true ∧ (rx o 1).poison = false ∧ 4088 % 8 = 0 ∧ 4088 + 8 ≤ o.winSize
      ∧ LinesGood (one .c o).curCore o [4088 / 64] ∧ BanksFree o [4088 / 64] false := by
  refine ⟨ready_one (by decide) .., by decide, by decide, by decide, ?_, ?_, ?_⟩
  · unfold LinesGood; decide
  · decide
  · decide

/-- LoadFaults: a poisoned base; an address past the window; a line that fails its check; a poisoned line; a taken bank. -/
theorem witness_LoadFaults :
    let o : Owner := { x := [(1, val 4088), (2, poi 7), (3, val 4096)], winSize := 4096 }
    let o' : Owner := { o with ports := [{ line := 31, wr := false }] }
    let bad : CoreSt := { winErr := [511] }
    let poisoned : CoreSt := { winPoison := [63] }
    Ready (one .c o bad) hd true ∧ (rx o 2).poison = true ∧ (rx o 1).poison = false
      ∧ ¬ (4096 % 8 = 0 ∧ 4096 + 8 ≤ o.winSize)
      ∧ (LineBad bad o 4088 ∧ ¬ LinePoisoned bad o 4088) ∧ (¬ LineBad poisoned o 4088 ∧ LinePoisoned poisoned o 4088)
      ∧ BanksFree o [4088 / 64] false
      ∧ LinesGood (one .c o').curCore o' [4088 / 64] ∧ ¬ BanksFree o' [4088 / 64] false := by
  refine ⟨ready_one (by decide) .., by decide, by decide, by decide, ⟨?_, ?_⟩, ⟨?_, ?_⟩, ⟨?_, ?_⟩, ?_, ?_⟩
  · unfold LineBad; decide
  · unfold LinePoisoned; decide
  · unfold LineBad; decide
  · unfold LinePoisoned; decide
  · decide
  · decide
  · unfold LinesGood; decide
  · intro h
    exact absurd (h.free 63 (by decide) _ (List.mem_singleton.2 rfl) rfl (by decide)) (by decide)

/-- ScalarStores: as for the loads, with a poisoned datum. -/
theorem witness_ScalarStores :
    let o : Owner := { x := [(1, val 4095), (2, poi 7), (3, val 4096)], winSize := 4096 }
    let o' : Owner := { o with ports := [{ line := 63, wr := true }] }
    Ready (one .c o) hd true ∧ ((rx o 1).poison = false ∧ (rx o 3).poison = false) ∧ (rx o 2).poison = true
      ∧ (4095 % 1 = 0 ∧ 4095 + 1 ≤ o.winSize) ∧ ¬ (4096 % 1 = 0 ∧ 4096 + 1 ≤ o.winSize)
      ∧ BanksFree o [4095 / 64] true ∧ ¬ BanksFree o' [4095 / 64] true := by
  refine ⟨ready_one (by decide) .., by decide, by decide, by decide, by decide, ⟨?_, ?_⟩, ?_⟩
  · decide
  · decide
  · intro h
    exact absurd (h.free 63 (by decide) _ (List.mem_singleton.2 rfl) rfl (by decide)).1 (by decide)
/-! ### Witnesses: loads, stores, matrix and vector streams -/

theorem linesGood_clean {k : CoreSt} {o : Owner} (h : k.winErr = []) (h' : k.winPoison = []) (l : List Nat) : LinesGood k o l :=
  fun _ _ => ⟨by simp [h], by simp [h']⟩

theorem banksFree_clean {o : Owner} {l : List Nat} {wr : Bool} (h : o.ports = [])
    (ha : l.Pairwise fun a b => a % 32 ≠ b % 32) : BanksFree o l wr := ⟨ha, by simp [h]⟩

theorem inWindow_of {o : Owner} {g : Ag} (h : g.inside o.winSize = true) : InWindow o g := by
  simp only [Ag.inside, Ag.rowIn, Bool.and_eq_true, decide_eq_true_eq] at h
  exact fun i hi => hi.elim (fun e => e ▸ h.1) fun e => e ▸ h.2

/-- An owner whose ag1 is one pattern in a window of 8 KiB, with every slot of the operand memory. -/
def withAg (len0 cnt1 : Nat) : Owner :=
  { winSize := 8192, claims := BitVec.allOnes 32, oms := List.range 32, tiles := [0, 1], thr := true
    ag := [(1, { len0 := BitVec.ofNat 17 len0, cnt1 := BitVec.ofNat 16 cnt1, str1 := BitVec.ofNat 32 len0 })] }

/-- Claims: none of the last two slots claimed; one of them; both; not both. -/
theorem witness_Claims :
    Ready (one .l {}) hd true ∧ (∀ i < 2, ({} : Owner).claims.getLsbD (30 + i) = false)
      ∧ (∃ i < 2, ({ claims := 1 <<< 31 } : Owner).claims.getLsbD (30 + i) = true)
      ∧ HasSlots { claims := 3 <<< 30 } 30 2 ∧ ¬ HasSlots { claims := 1 <<< 31 } 30 2 := by
  refine ⟨ready_one (by decide) .., by decide, by decide, ?_, ?_⟩ <;> unfold HasSlots <;> decide

/-- TileLoadResults: the patterns of LDTA, LDTB, LDE, and LDTF of the last two slots. -/
theorem witness_TileLoadResults :
    Ready (one .l (withAg 32 64)) hd true ∧ HasSlots (withAg 32 64) 31 1 ∧ HasSlots (withAg 2048 2) 30 2
      ∧ (∀ x ∈ [(32, 64), (64, 32), (64, 1)], let o := withAg x.1 x.2
          Shaped (rag o 1) x.1 x.2 ∧ InWindow o (rag o 1) ∧ LinesGood {} o ((rag o 1).lines 0 (x.1 * x.2))
            ∧ BanksFree o ((rag o 1).lines 0 (x.1 * x.2)) false)
      ∧ (let o := withAg 2048 2
         Shaped (rag o 1) 2048 2 ∧ InWindow o (rag o 1) ∧ LinesGood {} o ((rag o 1).lines 0 2048)
            ∧ BanksFree o ((rag o 1).lines 0 2048) false) := by
  refine ⟨ready_one (by decide) .., ?_, ?_, ?_, ?_, inWindow_of (by decide), linesGood_clean rfl rfl _, banksFree_clean rfl ?_⟩
  · unfold HasSlots; decide
  · unfold HasSlots; decide
  · intro x hx
    simp only [List.mem_cons, List.not_mem_nil, or_false] at hx
    obtain rfl | rfl | rfl := hx <;>
      exact ⟨by unfold Shaped; decide, inWindow_of (by decide), linesGood_clean rfl rfl _, banksFree_clean rfl (by decide)⟩
  · unfold Shaped; decide
  · decide

/-- VectorLoadResults: the patterns of each shape; LDG on a configured threshold array of W = 8, and on none. -/
theorem witness_VectorLoadResults :
    Ready (one .l (withAg 256 16)) hd true
      ∧ (∀ x ∈ [(256, 16), (128, 16), (64, 16), (256, 1), (4, 16)], let o := withAg x.1 x.2
          Shaped (rag o 1) x.1 x.2 ∧ InWindow o (rag o 1) ∧ LinesGood {} o ((rag o 1).lines 0 ((rag o 1).bytes / 2))
            ∧ BanksFree o ((rag o 1).lines 0 ((rag o 1).bytes / 2)) false)
      ∧ (let o := withAg 2048 1
         let k : CoreSt := { thr := { conf := true, w := 8 } }
         o.thr = true ∧ k.thr.conf = true ∧ Shaped (rag o 1) (256 * k.thr.w) 1 ∧ (rag o 1).base.toNat % 64 = 0
           ∧ InWindow o (rag o 1) ∧ LanesGood k o 2 o.lam ∧ LinesGood k o (ldgLines 0 0) ∧ BanksFree o (ldgLines 0 0) false)
      ∧ (({} : Owner).thr = false ∨ ({} : CoreSt).thr.conf = false) := by
  refine ⟨ready_one (by decide) .., ?_, ⟨rfl, rfl, ?_, by decide, inWindow_of (by decide), ?_, linesGood_clean rfl rfl _,
    banksFree_clean rfl (by decide)⟩, .inl rfl⟩
  · intro x hx
    simp only [List.mem_cons, List.not_mem_nil, or_false] at hx
    obtain rfl | rfl | rfl | rfl | rfl := hx <;>
      exact ⟨by unfold Shaped; decide, inWindow_of (by decide), linesGood_clean rfl rfl _, banksFree_clean rfl (by decide)⟩
  · unfold Shaped; decide
  · unfold LanesGood; simp

/-- VectorStoreResults: the patterns of each shape and of STVC. -/
theorem witness_VectorStoreResults :
    Ready (one .s (withAg 256 16)) hd true
      ∧ (∀ x ∈ [(256, 16), (128, 16), (64, 16), (4096, 1)], let o := withAg x.1 x.2
          Shaped (rag o 1) x.1 x.2 ∧ InWindow o (rag o 1) ∧ LanesGood {} o 2 o.lam ∧ MaskGood o 3
            ∧ BanksFree o ((rag o 1).lines 0 ((rag o 1).bytes / 2)) true) := by
  refine ⟨ready_one (by decide) .., ?_⟩
  intro x hx
  simp only [List.mem_cons, List.not_mem_nil, or_false] at hx
  obtain rfl | rfl | rfl | rfl := hx <;>
    exact ⟨by unfold Shaped; decide, inWindow_of (by decide), by unfold LanesGood; simp, by unfold MaskGood; simp [withAg],
      banksFree_clean rfl (by decide)⟩

/-- TransferInstructions: fewer than 32 outstanding, the three shapes, a pattern in the window; a domain of one core; elements
of the class and of none. -/
theorem witness_TransferInstructions :
    let o : Owner := { withAg 64 1 with sid := 1, e := [(0, 0x1000)] }
    let a : Owner := { withAg 8 1 with sid := 1, e := [(0, 0x1000)] }
    let s : State := { one .s o with strands := [(1, { w := 1, h := 1, wids := [0] })] }
    Ready (one .s o) hd true
      ∧ (s.xfers.filter fun x => decide (x.core = s.cur.core ∧ x.wid = s.cur.wid) && decide (x.state ≠ .failed)).length < 32
      ∧ DeviceShape (rag o 1) (re o 0) ∧ TargetShape (rag o 1) (re o 0) ∧ AtomicShape (rag a 1) (re a 0) ∧ InWindow o (rag o 1)
      ∧ InWindow a (rag a 1)
      ∧ (∀ p ∈ quadOwners (s.strand 1) 0, InWindow (s.owner p.1 p.2) (rag o 1)) := by
  refine ⟨ready_one (by decide) .., by decide, ?_, ?_, ?_, inWindow_of (by decide), inWindow_of (by decide), ?_⟩
  · unfold DeviceShape; decide
  · unfold TargetShape; decide
  · unfold AtomicShape Shaped; decide
  · intro i hi
    have : quadOwners (State.strand { one .s { withAg 64 1 with sid := 1, e := [(0, 0x1000)] } with
      strands := [(1, { w := 1, h := 1, wids := [0] })] } 1) 0 = [(0, 0)] := by decide
    rw [this, List.mem_singleton] at hi
    subst hi
    exact inWindow_of (by decide)

/-- TransferInstructions: XPOP with an element of its class behind one of another, and with none. -/
theorem witness_XPOP :
    let a : Elem := { cls := 1, tid := 0, bytes := 0, kind := 0, status := 0, seq := 0 }
    let e : Elem := { cls := 3, tid := 1, bytes := 8, kind := 0, status := 0, seq := 0 }
    let o : Owner := { fifo := [a, e] }
    Ready (one .s o) hd true ∧ o.fifo = [a] ++ e :: [] ∧ (∀ d ∈ [a], d.cls ≠ e.cls) ∧ (∀ d ∈ o.fifo, d.cls ≠ 2) :=
  ⟨ready_one (by decide) .., by decide⟩

/-- RingOperations: an empty ring and a full one. -/
theorem witness_RingOperations :
    let o : Owner := { tiles := [4, 5] }
    let f : Owner := { tiles := [4, 5], full := 3 }
    Ready (one .m o) hd true ∧ (o.full.getLsbD ((o.head + 1) % max o.tiles.length 1) = false ∧ o.full.getLsbD o.head = false)
      ∧ o.full.getLsbD o.tail = false
      ∧ f.full.getLsbD ((f.head + 1) % max f.tiles.length 1) = true ∧ f.full.getLsbD f.head = true ∧ f.full.getLsbD f.tail = true :=
  ⟨ready_one (by decide) .., by decide⟩
/-- MatrixProducts: the example word of R236 for MMA, a SYN word of 2 and of 3 slices for MMAW, an empty queue, and words that
each instruction refuses; an empty head tile; claimed slots. -/
theorem witness_MatrixProducts :
    let o : Owner := { withAg 1 1 with fq := [0x0000103F] }
    Ready (one .m o) hd true ∧ fwValid false 0x0000103F = true ∧ fwValid true 0x0000503F = true ∧ fwSYN 0x0000503F = 1
      ∧ fwValid true 0x0000803F = true ∧ fwSYN 0x0000803F ≠ 1 ∧ o.full.getLsbD o.head = false
      ∧ (HasSlots o 31 1 ∧ HasSlots o 29 3) ∧ (∀ i, SlotGood {} o i 0 2112) ∧ ({} : Owner).fq = []
      ∧ fwValid false 0 = false ∧ fwValid true 0x0000103F = false := by
  refine ⟨ready_one (by decide) .., by decide, by decide, by decide, by decide, by decide, by decide, ?_, ?_, by decide, by decide,
    by decide⟩
  · unfold HasSlots; decide
  · intro i; unfold SlotGood; simp

/-- ThresholdInstructions: the last 22 and the last 4 slots; the array held and configured; not held; an empty head tile. -/
theorem witness_ThresholdInstructions :
    let o := withAg 1 1
    let k : CoreSt := { thr := { conf := true } }
    Ready (one .m o k) hd true ∧ HasSlots o 10 22 ∧ HasSlots o 28 4 ∧ SlotGood k o 10 0 2048 ∧ (o.thr = true ∧ k.thr.conf = true)
      ∧ o.full.getLsbD o.head = false ∧ ({} : Owner).thr = false ∧ ¬ (({} : Owner).thr = true ∧ k.thr.conf = true) := by
  refine ⟨ready_one (by decide) .., ?_, ?_, ?_, by decide, by decide, by decide, by decide⟩
  · unfold HasSlots; decide
  · unfold HasSlots; decide
  · unfold SlotGood; simp

/-- The hypotheses of the vector statements: lanes and masks whose bytes pass their parity, beside a byte that does not. -/
theorem witness_Lanes :
    let k : CoreSt := { vErr := [4 * 4096 + 4095] }
    let o : Owner := { vbase := 3, mErr := [128] }
    Ready (one .v o k) hd true ∧ LanesGood k o 0 o.lam ∧ LanesGood k o 1 (o.lam >>> 1) ∧ MaskGood o 0 := by
  refine ⟨ready_one (by decide) .., ?_, ?_, ?_⟩
  · unfold LanesGood; simp
  · unfold LanesGood; simp
  · unfold MaskGood; decide

/-- MaskResults: an active lane whose bit is set and none; every active lane's bit set and not. -/
theorem witness_MaskResults :
    let o : Owner := { m := [(1, BitVec.twoPow 1024 1023)] }
    Ready (one .v o) hd true ∧ MaskGood o 1
      ∧ (∃ l < 1024, o.lam.getLsbD l = true ∧ (rmask o 1).getLsbD l = true)
      ∧ (¬ ∃ l < 1024, o.lam.getLsbD l = true ∧ (rmask o 2).getLsbD l = true)
      ∧ (∀ l < 1024, ({ lam := 0 } : Owner).lam.getLsbD l = true → (rmask { lam := 0 } 2).getLsbD l = true)
      ∧ ¬ ∀ l < 1024, o.lam.getLsbD l = true → (rmask o 2).getLsbD l = true := by
  have h2 : rmask { m := [(1, BitVec.twoPow 1024 1023)] } 2 = 0 := rfl
  have h1 : rmask { m := [(1, BitVec.twoPow 1024 1023)] } 1 = BitVec.twoPow 1024 1023 := rfl
  refine ⟨ready_one (by decide) .., by unfold MaskGood; decide, ⟨1023, by decide, by simp, by rw [h1]; simp⟩, ?_, by simp, ?_⟩
  · rintro ⟨l, _, _, h⟩
    rw [h2] at h
    simp at h
  · intro h
    have := h 0 (by decide) (by simp)
    rw [h2] at this
    simp at this

/-- Quantisation: NM = 1 with G = 5; slice mode; and a word that is not valid. -/
theorem witness_Quantisation :
    let good (w : W64) (sl : BitVec 2) : Prop :=
      (w.extractLsb' 0 3).toNat ≠ 0 ∧ (w.extractLsb' 3 3).toNat ≤ 5 ∧ w.toNat < 2 ^ 7
        ∧ (w.getLsbD 6 = true → (w.extractLsb' 0 3).toNat = 7) ∧ (w.getLsbD 6 = false → sl = 0)
    Ready (one .v {}) hd false ∧ good 0x29 0 ∧ good 0x47 2 ∧ ¬ good 0 0 ∧ LanesGood {} {} 1 allLanes := by
  refine ⟨ready_one (by decide) .., by decide, by decide, by decide, ?_⟩
  unfold LanesGood; simp

/-- CrossLaneMoves, ReductionsAndScans: with P = 1; with P = 0 and every lane active; and lane 1 alone active, which a rotate by
one would make read lane 0. -/
theorem witness_CrossLaneMoves :
    Ready (one .v {}) hd false ∧ ((1 : BitVec 1) = 0 → False)
      ∧ (∀ j, Reaches2 {} (fun l => [l / 64 * 64 + (l % 64 + 64 - 63) % 64]) j → ({} : Owner).lam.getLsbD j = true)
      ∧ (let o : Owner := { lam := BitVec.twoPow 1024 1 }
         ∀ j, (BitVec.twoPow 1024 0).getLsbD j = true
            ↔ Reaches2 o (fun l => [l / 64 * 64 + (l % 64 + 64 - 1) % 64]) j ∧ o.lam.getLsbD j = false)
      ∧ BitVec.twoPow 1024 0 ≠ 0 := by
  refine ⟨ready_one (by decide) .., by decide, ?_, ?_, ?_⟩
  · rintro j ⟨l, hl, _, hj⟩
    simp only [List.mem_singleton] at hj
    have : j < 1024 := by omega
    change (BitVec.allOnes 1024).getLsbD j = true
    rw [BitVec.getLsbD_allOnes, decide_eq_true this]
  · intro o j
    simp only [BitVec.getLsbD_twoPow, Bool.and_eq_true, decide_eq_true_eq, Reaches2, List.mem_singleton, o]
    constructor
    · rintro ⟨_, rfl⟩
      exact ⟨⟨1, by decide, by decide, by decide⟩, by decide⟩
    · rintro ⟨⟨l, hl, ⟨_, rfl⟩, rfl⟩, h⟩
      decide
  · intro h
    have := congrArg (fun v => v.getLsbD 0) h
    simp at this

/-- CompressAndPop: a byte in error in an unselected lane; a full tail tile with an error in another tile; an empty one. -/
theorem witness_CompressAndPop :
    let o : Owner := { tiles := [4], full := 1, lam := BitVec.twoPow 1024 5 }
    let k : CoreSt := { vErr := [0], ringErr := [0] }
    Ready (one .v o k) hd true
      ∧ (∀ e ∈ k.vErr, e / 4096 = o.vbase + (0 : BitVec 4).toNat → e % 4096 / 4 ∉
          ((List.range 1024).filter fun l => o.lam.getLsbD l && decide ((rmask o 0).getLsbD l = decide ((0 : BitVec 1) = 0))))
      ∧ MaskGood o 0 ∧ o.full.getLsbD o.tail = true
      ∧ (∀ w ∈ k.ringErr, ¬ (tilePhys o o.tail * 4096 + 3 * 1024 ≤ 2 * w ∧ 2 * w < tilePhys o o.tail * 4096 + 3 * 1024 + 1024))
      ∧ ({} : Owner).full.getLsbD 0 = false := by
  refine ⟨ready_one (by decide) .., ?_, by unfold MaskGood; simp, by decide, by decide, by decide⟩
  intro e he _ hm
  rw [List.mem_singleton] at he
  subst he
  simp at hm

/-! ### Witnesses: issue, results, steps -/

/-- IssueFrame: an instruction that answers a next state. -/
theorem witness_IssueFrame :
    (Instr.nop hd).onStream .s = true ∧ StreamId.s ≠ .f ∧ (Instr.nop hd).encode ≠ [] ∧ (one .s {}).cur.str ≠ .f
      ∧ ∃ t, exec (.nop hd) (one .s {}) = .next t := by
  refine ⟨by decide, by decide, by decide, by decide, _, rfl⟩

/-- TokensAndGuards: the second of two takes misses; and no take misses while the guard p1 does not hold. -/
theorem witness_TokensAndGuards :
    let o : Owner := { tok := [(8, 1)] }
    let o' : Owner := { tok := [(3, 1), (8, 1)] }
    (one .c o).cur.str ≠ .f ∧ tokenTakes 0 3 = [8] ++ 3 :: [] ∧ (∀ m ∈ [8], cget o.tok m ≠ 0) ∧ cget o.tok 3 = 0
      ∧ (∀ n ∈ tokenTakes 0 3, cget o'.tok n ≠ 0) ∧ selects o'.p (o'.stream .c).blocks 1 = false := by decide

/-- ResultsAppear: any one effect that falls due in the present tick, beside one that does not; a range at the end; of two results of
one register, and of one lane, the one that stands over the other. -/
theorem witness_ResultsAppear :
    (∀ e : Effect,
      let p : Pend := { due := 5, iss := 4, str := .c, eff := e }
      let o : Owner := { tick := 5, pend := [p, { p with due := 6 }] }
      (o.pend.filter fun q => decide (q.due ≤ o.tick)) = [p])
      ∧ (∀ e ∈ [(2048 : Nat)], e / 2048 ≠ 0) ∧ (31 + 1 ≤ 32 ∧ 31 < 32)
      ∧ (∀ e : Effect, ∀ kind : Effect → Prop,
          let p : Pend := { due := 5, iss := 4, str := .c, eff := e }
          LastDue { tick := 5, pend := [{ p with iss := 1 }, p] } p kind)
      ∧ ((1 : BitVec 4) ≠ 0 ∧ 1023 < 1024 ∧ (BitVec.twoPow 1024 1023).getLsbD 1023 = true) := by
  refine ⟨fun _ => rfl, by decide, by decide, fun e kind => ⟨by simp, rfl, by simp, ?_⟩, by decide, by decide, by simp⟩
  intro q hq _ _
  simp only [List.mem_cons, List.not_mem_nil, or_false] at hq
  obtain rfl | rfl := hq
  · exact .inr ⟨rfl, by simp, .inr ⟨rfl, by simp⟩⟩
  · exact .inl rfl

/-- WindowWrites: an address that is not named; one named twice, the later one last. -/
theorem witness_WindowWrites :
    let l : List (Nat × Byte) := [(4, 1), (4, 2), (5, 3)]
    (∀ x ∈ l, x.1 ≠ 6) ∧ l = [(4, 1)] ++ (4, 2) :: [(5, 3)] ∧ (∀ x ∈ [((5 : Nat), (3 : Byte))], x.1 ≠ 4) := by decide

/-- StepRuns: an operation waits; an owner's stream at a NOP whose parcel passes its check, and at one that fails it; a stream that is
not ready; Cobbler with an event in hand, at a NOP, which needs no port, and at a load, with the port free and with it taken; nothing
to do; a dark package, with and without something to arrive. -/
theorem witness_StepRuns :
    State.reset.agenda = .firmwareBoot :: []
      ∧ (let s := one .c { sc := { img := [0] } }
         s.agenda = [] ∧ StreamId.c ≠ .f ∧ ((s.owner 0 0).stream .c).ready (s.owner 0 0).tick = true
           ∧ parcelsFail ((s.owner 0 0).failing .c) [0] 0 = false
           ∧ parcelsFail (({ imErr := [(streamNum .c, 0)] } : Owner).failing .c) [0] 0 = true
           ∧ ({ img := [0], ended := true } : Stream).ready 0 = false)
      ∧ decode .c (([0] : List Parcel).drop 0) = .ok (.nop hd, 1) ∧ decode .f (([0] : List Parcel).drop 0) = .ok (.nop hd, 1)
      ∧ (let s : State := { cores := [(0, { cob := { cur := some { kind := .reset, wid := 0, sid := 0, args := [] } } })] }
         let p : PortReq := { row := 9, core := 0, wid := 0, line := Config.reservedBase / 64, wr := false }
         let u : State := { s with cores := [(0, { used := (0, [(bankOf p.line, false)]) })] }
         s.agenda = [] ∧ s.issue = [] ∧ (s.core 0).locked = false ∧ (s.cob 0).cur ≠ none ∧ cobPorts 0 (.nop hd) s = []
           ∧ cobPorts 0 (.ldB hd 1 0 0) s = [p] ∧ portOpen s p = true ∧ cseFirst s p = false
           ∧ portOpen u p = false)
      ∧ (let s : State := { pwr := { on := false } }
         let t : State := { pwr := { on := false }, inputs := [(0, .powerUpSequence)] }
         s.pwr.on = false ∧ s.agenda = [] ∧ s.issue = [] ∧ s.inputs = [] ∧ t.inputs = (0, .powerUpSequence) :: [])
      ∧ (let s : State := { pwr := { on := false }, inputs := [(0, .coldReset)] }
         s.pwr.on = false ∧ s.agenda = [] ∧ s.issue = [] ∧ Instr.coldReset ≠ .powerUpSequence
           ∧ s.inputs = (0, .coldReset) :: []) := by
  refine ⟨rfl, by decide, rfl, rfl, by decide, by decide, by decide⟩

/-- CyclePasses: a running package in each part of a cycle; an operation due; one that no agent ranks before, one of a core, one of
the CFE; an access of the host to memory, and to a register, and none. -/
theorem witness_CyclePasses :
    (∀ n ∈ [0, 1, 2, 3, 4, 5, 6],
      let s : State := { phase := n }
      s.pwr.on = true ∧ s.agenda = [] ∧ s.issue = [] ∧ s.cores = [] ∧ s.strands = [] ∧ s.phase = n ∧ s.due = [] ∧ s.timers = []
        ∧ s.posts = [] ∧ nextHost s false = none)
      ∧ ({ phase := 3, due := [.hbmRefresh] } : State).due = .hbmRefresh :: []
      ∧ (agentRank {} (.scOperationPerform 1) = 0 ∧ agentRank {} (.cseDone 0) ≠ 0 ∧ agentRank {} (.cseDone 0) < cfeRank
          ∧ cfeRank ≤ agentRank {} .hbmRefresh)
      ∧ (let s : State := { cycle := 5, inputs := [(5, .hostBar2Read 1 ⟨0, none, false⟩ 4), (5, .registerWrite 0 ⟨0, none, false⟩ 8 1)] }
         let t : State := { s with inputs := [(5, .registerWrite 0 ⟨0, none, false⟩ 8 1)] }
         nextHost s true = some (5, .hostBar2Read 1 ⟨0, none, false⟩ 4) ∧ nextHost s false = none
           ∧ nextHost t false = some (5, .registerWrite 0 ⟨0, none, false⟩ 8 1)) := by decide

/-- DecodeEncode: an instruction of every stream. -/
theorem witness_DecodeEncode :
    ∀ x ∈ [(StreamId.c, Instr.add hd 15 15 15), (.l, .claim hd 31 0), (.m, .mma hd 31 31), (.v, .vidx hd 15), (.s, .fence hd 65535),
        (.f, .eret hd)], x.2.wellFormed = true ∧ x.2.onStream x.1 = true ∧ x.2.encode ≠ [] := by decide

/-- FloatSpecials and NarrowFormats: operands that are NaN and that are not, and a negative one. -/
theorem witness_FloatSpecials :
    isNan (add32 0x7FC00000 0) = true ∧ isNan (0x7F800001 : W32) = true ∧ isNan (0xFF7FFFFF : W32) = false
      ∧ (0xBF800000 : W32).getLsbD 31 = true ∧ (0xBF800000 : W32) ≠ 0x80000000 := by decide
/-! ### Witnesses: the package, functions and the fabric -/

/-- A VD of PF 1 whose page 0 maps physical page 1, writable, with a dirty bit: four tables of one entry each. -/
def withVd : State :=
  { fw := { booted := true }, parts := [(1, { v := true })], vds := [(1, { root := 0x20000, desc := [1] })]
    mem := [(0x20000, 1), (0x20002, 4), (0x40000, 1), (0x40002, 6), (0x60000, 1), (0x60002, 8), (0x80000, 0x17), (0x80002, 1)] }

theorem of_isOk {ε α : Type} {r : Except ε α} (h : r.isOk = true) : ∃ t, r = .ok t := by
  cases r with
  | ok t => exact ⟨t, rfl⟩
  | error e => cases h

theorem of_not_isOk {ε α : Type} {r : Except ε α} (h : r.isOk = false) : ∃ e, r = .error e := by
  cases r with
  | ok t => cases h
  | error e => exact ⟨e, rfl⟩

theorem of_isOk2 {ε α β : Type} {r : Except ε (α × β)} (h : r.isOk = true) : ∃ t u, r = .ok (t, u) := by
  obtain ⟨t, h⟩ := of_isOk h
  exact ⟨t.1, t.2, h⟩

theorem first_ok {tr : Xlate} {s : State} {va : Nat} {b : List Byte} {p : List Nat}
    (h : (translateAll tr (lineParts va b.length)).isOk = true) : ∃ t u, vwriteFirst tr s va b p = .ok (t, u) := by
  obtain ⟨l, hl⟩ := of_isOk h
  exact ⟨putFirst l b p s, newTorn l s, by simp only [vwriteFirst, hl]⟩

theorem read_ok {tr : Xlate} {s : State} {va n : Nat} (h : (translateAll tr (lineParts va n)).isOk = true) :
    ∃ t u, vreadFirst tr s va n = .ok (t, u) := by
  obtain ⟨l, hl⟩ := of_isOk h
  exact ⟨(getFirst l s).1, (getFirst l s).2, by simp only [vreadFirst, hl]⟩

theorem side_ok {s : State} {fn a n : Nat} (h : (translateAll (fnXlate s fn false) (lineParts a n)).isOk = true) :
    ∃ t u, sideFirst s fn false a n = .ok (t, u) := by
  simpa [sideFirst] using read_ok (s := s) h

/-- An access of which no line is left: what stands for one that has been read or written in part. -/
def noLines : Torn := { f := 0, lines := [] }

/-- PackageOperations: off and on; every junction below 110 °C and one at it; the last ceiling and one past it; a write of the
present reading and one below it. -/
theorem witness_PackageOperations :
    ({ pwr := { on := false } } : State).pwr.on = false ∧ ({} : State).pwr.on = true ∧ (∀ x ∈ [100, 109], x < 110) ∧ (∃ x ∈ [30, 110], 110 ≤ x)
      ∧ 13 ≤ 13 ∧ 13 < 14 ∧ ({ ns := 10 } : State).ns ≤ (10 : W64).toNat ∧ (9 : W64).toNat < ({ ns := 10 } : State).ns := by decide

/-- GovernorActs: legal settings below the ceiling; above the cap; long below it and cool, above the ceiling; and between. -/
theorem witness_GovernorActs :
    let p : Power := { ceil := 13 }
    let q : Power := { step := 13, lowRev := 1023, coolRev := 1023 }
    p.legal = true ∧ q.legal = true ∧ p.step.toNat < p.ceil.toNat ∧ q.ceil.toNat ≤ q.step.toNat
      ∧ (decide (q.cap.toNat * 1000 < 2000001) || q.therm) = true
      ∧ (decide (q.cap.toNat * 1000 < 1899999) || q.therm) = false
      ∧ (decide (1899999 * 100 < q.cap.toNat * 95000) && decide (1024 ≤ q.lowRev + 1) && decide (1024 ≤ q.coolRev + 1)
          && decide (q.ceil.toNat < q.step.toNat)) = true
      ∧ (decide (1900000 * 100 < q.cap.toNat * 95000) && decide (1024 ≤ q.lowRev + 1) && decide (1024 ≤ q.coolRev + 1)
          && decide (q.ceil.toNat < q.step.toNat)) = false := by decide

/-- FirmwareBoot: a store whose first image is cut short. Whether an image is accepted rests on its signature, whose check is
opaque here: the other clause is met by any store whose four images pass it. -/
theorem witness_FirmwareBoot :
    let s : State := {}
    s.fw.use = false ∧ 1 ≤ 1 ∧ (∀ j, 1 ≤ j → j < 1 → imageFault j (s.fw.store.getD (j - 1) []) = 0) ∧ imageFault 1 (s.fw.store.getD 0 []) ≠ 0 := by
  refine ⟨rfl, by decide, fun j h h' => absurd h' (by omega), ?_⟩
  simp [imageFault, imageHead]

/-- FunctionResets: a function without a VD; one with a VD, open; one whose VD closes and has no strand left; PF 32. -/
theorem witness_FunctionResets :
    let t : State := { withVd with vds := [(1, { closing := true, flr := 9 })] }
    hasVd withVd 2 = false ∧ hasVd withVd 1 = true ∧ (withVd.vd 1).closing = false ∧ withVd.strands = [] ∧ withVd.wm.meters = []
      ∧ (t.vds = [(1, t.vd 1)] ∧ (t.vd 1).closing = true ∧ (t.vd 1).flr % 2 = 1 ∧ hasStrands t 1 = false) ∧ 1 ≤ 32 ∧ 32 ≤ 32 := by decide

/-- FunctionControl: VF Enable within the pool and past it; a TDI in each state; the last stream, generation and width. -/
theorem witness_FunctionControl :
    let f : Fn := { numVfs := 64 }
    let s : State := { withVd with fns := [(1, f), (2, { numVfs := 64, vfEnable := true }), (3, { numVfs := 64, vfEnable := true })] }
    let t : State := { s with
      fns := s.fns ++ [(4, { numVfs := 64, vfEnable := true }), (5, { numVfs := 64, vfEnable := true })] }
    let u : State := { withVd with fns := [(1, f), (2, { numVfs := 64, firstVf := 33, vfEnable := true }), (3, { numVfs := 64, firstVf := 100, vfEnable := true }),
                                           (4, { numVfs := 64, firstVf := 180, vfEnable := true })] }
    vfHome s 1 = some 64 ∧ vfHome u 1 = none ∧ ({ session := true } : Link).session = true ∧ ({} : Link).session = false ∧
    (s.fn 1).vfEnable = false ∧ (s.fn 1).tdi = .configUnlocked ∧ vfsElse s 1 + (s.fn 1).numVfs ≤ 256 ∧ (tget {} s.parts 1).v = true
      ∧ 256 < vfsElse t 1 + (t.fn 1).numVfs ∧ (s.fn 2).vfEnable = true ∧ fnExists s 32 = true
      ∧ ({ tdi := .configLocked } : Fn).tdi = .configLocked ∧ ({ tdi := .run } : Fn).tdi = .run ∧ ({ tdi := .error } : Fn).tdi = .error
      ∧ ({ up := true } : Link).up = true ∧ ({} : Link).up = false ∧ (1 ≤ 6 ∧ 6 ≤ 6 ∧ (4 : Nat) = 4) ∧ 32 < 33 ∧ (33 ≤ 64 ∧ 64 + 64 ≤ 289)
      ∧ ¬ ((2 : Nat) = 16 ∨ (2 : Nat) = 8 ∨ (2 : Nat) = 4) := by decide

/-- HostAccesses: the VD's page read and written, at first and in part; a page that is not mapped, and one that a meter seals; the last
byte of HBM and one past it; the least length that is too long; a time-out of a ring's read, of a COPY's, and of none; a dark
function; the queue block of queue 63; a denied request recorded. -/
theorem witness_HostAccesses :
    let c : Run := { id := 3, fn := 1, q := 0, pkt := { w0 := 0x41, w4 := 0x10000, w5 := 1 }, torn := some noLines }
    let r : State := { withVd with runs := [c] }
    let q : State := { withVd with queues := [(64, { state := 1, headAt := (true, 0), torn := some noLines })] }
    (gate withVd 1 = .ok ∧ hasVd withVd 1 = true ∧ sealedRange withVd 1 (aperVa withVd 1 0) 64 = false ∧ 4096 ≤ 4096 ∧ withVd.tornHost = none
        ∧ ({ withVd with tornHost := some noLines } : State).tornHost = some noLines)
      ∧ (∃ u x, vreadFirst (barXlate withVd 1 false) withVd (aperVa withVd 1 0) 4 = .ok (u, x))
      ∧ (∃ u x, vwriteFirst (barXlate withVd 1 true) withVd (aperVa withVd 1 0) [7] [] = .ok (u, x))
      ∧ (∃ e, vreadFirst (barXlate withVd 1 false) withVd (aperVa withVd 1 65536) 4 = .error e)
      ∧ (∃ e, vwriteFirst (barXlate withVd 1 true) withVd (aperVa withVd 1 65536) [7] [] = .error e)
      ∧ (∃ x, barXlate withVd 1 true 0 = .ok x) ∧ (List.replicate 513 (0 : Byte)).length = 513 ∧ 4096 < 4097 ∧ withVd.memWf = true
      ∧ (withVd.mfApr.toNat * 2 ^ 36 + (2 ^ 39 - 1) + 1 ≤ 2 ^ 39 ∧ 2 ^ 39 < withVd.mfApr.toNat * 2 ^ 36 + 2 ^ 39 + 1)
      ∧ (gate {} 0 = .ok ∧ ({} : State).stale = [] ∧ ({} : State).vds = [])
      ∧ (working withVd 1 = true ∧ working withVd 2 = false ∧ hostReadsOf withVd 1 0 = [])
      ∧ (working q 1 = true ∧ hostReadsOf q 1 0 = [none]) ∧ (working r 1 = true ∧ hostReadsOf r 1 0 = [some c.id] ∧ r.runs = [c])
      ∧ gate {} 1 = .allOnes ∧ 63 < 2 ^ 40 ∧ (withVd.fn 1).tdi = .configUnlocked ∧ 63 < 64 ∧ withVd.klk.deny = [] := by
  refine ⟨by decide, read_ok (by decide +kernel), first_ok (by decide +kernel), of_not_isOk (by decide +kernel),
    of_not_isOk (by decide +kernel), of_isOk (by decide +kernel), List.length_replicate, by decide, by decide +kernel, by decide, by decide,
    by decide, by decide, by decide, by decide, by decide, by decide, by decide, by decide⟩

/-- FabricLink: a flit that fails (its fields are out of range) and one that passes (its check is the opaque CRC of its bytes);
a flit to replay; seven failures; ports up, down and dead; ids; routes; a request that waits. -/
theorem witness_FabricLink :
    let bad : Flit := { dst := 0, src := 0, kind := 15, cid := 0, seq := 0, payload := List.replicate 240 0, crc := 0 }
    let f : Flit := { bad with kind := 0 }
    let good : Flit := { f with crc := Config.flitCrc (flitBytes f) }
    let s : State := { klk := { ports := [(0, { replay := [f], failSeq := 0, fails := 7, seqIn := 0 })] } }
    let r : PeerReq := { src := 0, scid := 1, tcid := 1, cls := 0, op := .read 64, va := 0, back := 0 }
    let t : State := { klk := { rwin := [(0, 1)], reqs := [{ rid := 4, dst := 2, sent := true, req := r, why := .xfer 9 }]
                                routes := [(3, { next := some (1, true) })] } }
    let w : State := { klk := { routes := [(3, { next := some (1, true) })] } }
    let j : State := { klk := { jn := true, dev := 1, ports := [(0, { awaiting := some 3, seqIn := 3 })] } }
    flitBad bad = true ∧ flitBad good = false ∧ good.kind = 0 ∧ good.seq.toNat = (s.port 0).seqIn ∧ s.klk.jn = false
      ∧ (j.klk.jn = true ∧ (j.port 0).awaiting ≠ none ∧ bad.seq.toNat ≠ (j.port 0).seqIn ∧ (j.port 1).awaiting = none
          ∧ good.seq.toNat = (j.port 1).seqIn ∧ good.dst.toNat ≠ j.klk.dev.toNat ∧ routeUp j good.dst.toNat = false)
      ∧ ((s.port 0).replay.findIdx? fun g => g.seq.toNat = 0) = some 0 ∧ (s.port 0).failSeq = 0 ∧ 7 ≤ (s.port 0).fails
      ∧ (s.port 0).dead = false ∧ (s.port 0).up = false ∧ s.klk.reqs = [] ∧ anyWindow s = false ∧ anyWindow t = true
      ∧ sentTo t 2 = true ∧ ((tget {} w.klk.routes 3).next = some (1, true) ∧ w.klk.reqs = [] ∧ w.klk.unsent = [])
      ∧ (s.klk.unsent = [] ∧ 15 < 16 ∧ (j.klk.jn = true ∧ j.klk.reqs = [] ∧ j.klk.unsent = [] ∧ anyWindow j = false))
      ∧ ((t.klk.reqs.find? fun q => q.rid = 4).map (·.why)) = some (.xfer 9) := by
  refine ⟨by simp [flitBad], ?_, rfl, rfl, rfl, by decide, rfl, rfl, by decide, rfl, rfl, rfl, rfl, rfl, rfl, ⟨rfl, rfl, rfl⟩, ⟨rfl, by decide, rfl, rfl, rfl, by decide⟩, rfl⟩
  simp only [flitBad, Bool.or_eq_false_iff, decide_eq_false_iff_not, not_not]
  exact ⟨⟨⟨⟨⟨by decide, rfl⟩, by decide⟩, by decide⟩, by decide⟩, by decide⟩

/-- PeerRequests: a VD that closes; one that grants nothing; one whose entry grants a notify, a read, a write and an SC operation; a
request behind another of its source owner; one that is ready to be answered; a read and a write half done; a group of two and of one
rooted here; no group; the last arrival of two, one of them this device's; one strand that waits for a release, and none. -/
theorem witness_PeerRequests :
    let act : ActEntry := { src := 5, tcid := 1, v := true, ntf := true, sig := true, rd := true, wr := true, qmask := 1 <<< 63 }
    let s : State := { withVd with klk := { act := [(0, act)], fgrp := [(0, 2 <<< 26 ||| 1 <<< 36 ||| 7)] } }
    let two : State := { s with klk := { s.klk with arrivals := [(7, 2, 0)] } }
    let c : State := { vds := [(1, { closing := true })] }
    let r : PeerReq := { src := 5, scid := 1, tcid := 1, cls := 0, op := .write [1] [], va := 0, back := 0 }
    let n : PeerReq := { r with op := .notify 63 1 }
    let w : Strand := { g5 := true, gid := 7, gen := 2, released := false }
    let d : PeerReq := { r with op := .read 4 }
    let h : State := { s with klk := { s.klk with busyPeer := [r, d], readyPeer := [(n, 0)], tornPeer := [(r, noLines), (d, noLines)] } }
    (isPull c r = false ∧ hasVd c 1 = true ∧ (c.vd 1).closing = true)
      ∧ (isPull s r = false ∧ r ∉ s.klk.busyPeer ∧ (∀ x ∈ s.klk.readyPeer, x.1 ≠ r) ∧ hasVd s 1 = true ∧ (s.vd 1).closing = false
          ∧ (s.vd 1).state ≠ .stopped ∧ suspended s 1 63 = false ∧ isPush s r [1] = false ∧ (∀ x ∈ s.klk.tornPeer, x.1 ≠ r) ∧ sealedRange s 1 0 4 = false)
      ∧ ((∀ a ∈ actsOf withVd 5 1, grants withVd r a = false) ∧ withVd.klk.deny.length < 64)
      ∧ ((∀ x ∈ s.klk.busyPeer ++ s.klk.waitPeer, ¬ (x.src = r.src ∧ x.scid = r.scid ∧ x.cls = r.cls)) ∧ act ∈ actsOf s 5 1
          ∧ (let e : PeerReq := { d with va := 64 }
             grants s e act = true ∧ isPull h e = false ∧ e ∉ h.klk.busyPeer ∧ (∀ x ∈ h.klk.readyPeer, x.1 ≠ e)
               ∧ ∃ x ∈ h.klk.busyPeer ++ h.klk.waitPeer, x.src = e.src ∧ x.scid = e.scid ∧ x.cls = e.cls))
      ∧ (act.ntf = true ∧ act.qmask.getLsbD 63 = true ∧ act.wr = true ∧ act.rd = true)
      ∧ h.klk.readyPeer.find? (fun x => decide (x.1 = n)) = some (n, 0)
      ∧ (r ∈ h.klk.busyPeer ∧ (∀ x ∈ h.klk.readyPeer, x.1 ≠ r) ∧ h.klk.tornPeer.find? (fun x => decide (x.1 = r)) = some (r, noLines))
      ∧ (d ∈ h.klk.busyPeer ∧ (∀ x ∈ h.klk.readyPeer, x.1 ≠ d) ∧ h.klk.tornPeer.find? (fun x => decide (x.1 = d)) = some (d, noLines))
      ∧ (∃ u x, vreadFirst (translate s 1 · false) s 0 4 = .ok (u, x)) ∧ (∃ u x, vwriteFirst (translate s 1 · true) s 0 [1] [] = .ok (u, x))
      ∧ (let e : PeerReq := { r with op := .sc .add 1 0 }
         scRequest e.op = true ∧ grants s e act = true ∧ fabricSlot s = some 1920)
      ∧ groupSize s 8 = 0 ∧ (s.klk.arrivals.filter fun (g, h, _) => decide (g = 7 ∧ h = 2)).length + 1 < groupSize s 7
      ∧ (groupSize two 7 ≠ 0 ∧ groupSize two 7 ≤ ((two.klk.arrivals ++ [(7, 2, 4)]).filter fun (x : Nat × Nat × Nat) => decide (x.1 = 7 ∧ x.2.1 = 2)).length
          ∧ (7, 2, two.klk.dev.toNat) ∈ two.klk.arrivals ++ [(7, 2, 4)] ∧ (4 : Nat) ≠ two.klk.dev.toNat)
      ∧ (w.g5 = true ∧ w.gid = 7 ∧ w.gen = 2 ∧ w.released = false) ∧ (∀ x ∈ withVd.strands, x.2.gid ≠ 7 ∨ x.2.gen ≠ 2) := by
  refine ⟨by decide, by decide, by decide, by decide, by decide, by decide, by decide, by decide, read_ok (by decide +kernel),
    first_ok (by decide +kernel), by decide, by decide, by decide, by decide, by decide, by decide⟩/-! ### Witnesses: queues, packets, meters, partitions -/

/-- QueueSteps: a function that takes no work; a queue whose GEN is odd; one in the error state; one enabled whose ring of 16 is
filled whole, and beyond; one disabled; a ring whose read begins, and rests with V = 0 and V = 1; a LAUNCH head that awaits admission;
a CQ. -/
theorem witness_QueueSteps :
    let x : Queue := { size := 4, host := true, state := 1, widx := 1 }
    let s : State := { queues := [(0, x), (1, { x with gen := 1 }), (2, { x with state := 2 }), (3, { size := 4 }), (4, { x with host := false }),
                                  (5, { x with torn := some noLines, headAt := (true, 0) })] }
    let l : Packet := { w0 := 0x11 }
    let v : W64 := 0x24
    takesWork s 1 = false ∧ takesWork s 0 = true
      ∧ ((s.queue 0 1).state ≠ 0 ∧ suspended s 0 1 = true) ∧ ((s.queue 0 2).state = 2 ∧ suspended s 0 2 = false)
      ∧ ((s.queue 0 0).state = 1 ∧ suspended s 0 0 = false ∧ ringViolation 0 { x with widx := 16, idle := false } = none
          ∧ (s.queue 0 0).ridx ≠ 16 ∧ ringViolation 0 { x with widx := 17, idle := false } = some 0x0102)
      ∧ ((s.queue 0 3).state = 0 ∧ ringViolation 0 { (s.queue 0 3) with state := 1, idle := false } = none)
      ∧ ((s.queue 0 0).head = none ∧ (s.queue 0 0).idle = false ∧ (s.queue 0 0).ridx ≠ (s.queue 0 0).widx ∧ (s.queue 0 0).held = none
          ∧ (s.queue 0 0).torn = none)
      ∧ ({ x with held := some 3 } : Queue).held = some 3
      ∧ (∃ u y, sideFirst s 0 true 0 64 = .ok (u, y)) ∧ (∃ u y, sideFirst s 0 false 0 64 = .ok (u, y)) ∧ (∃ b, fnRead s 0 true 0 64 = .ok b)
      ∧ ((s.queue 0 5).torn = some noLines ∧ (s.queue 0 5).head = none ∧ (s.queue 0 5).headAt.1 = true)
      ∧ ((packetOf (List.replicate 64 0)).w0.getLsbD 0 = false ∧ (packetOf (1 :: List.replicate 63 0)).w0.getLsbD 0 = true
          ∧ (packetOf (1 :: List.replicate 63 0)).valid s 0 = true)
      ∧ (l.type = 1 ∧ ({ x with head := some l, awaits := true } : Queue).awaits = true)
      ∧ (({} : Cq).en = false ∧ v.getLsbD 5 = true ∧ ({} : Cq).base.extractLsb' 0 8 = 0 ∧ 4 ≤ (v.extractLsb' 0 4).toNat)
      ∧ ((0x23 : W64).extractLsb' 0 4).toNat < 4 ∧ ({} : Cq).pending = 0 ∧ ({ pending := 1 } : Cq).pending ≠ 0
      ∧ (∀ i, ({ msixMask := 0, cfg := { msixOn := true } } : Fn).masks i = false) := by
  refine ⟨by decide, by decide, by decide, by decide, by decide, by decide, by decide, by decide, ⟨_, _, rfl⟩, ?_, of_isOk (by decide +kernel),
    by decide, by decide +kernel, by decide, by decide, by decide, by decide, by decide, fun i => by simp [Fn.masks]⟩
  exact side_ok (by decide +kernel)

theorem mixWords_self (sel : Nat → Bool) (i : Nat) (l : List (Nat × Nat × Bool)) (a : List Byte) :
    mixWords sel i l a a = a.take ((l.map (·.2.1)).sum) := by
  induction l generalizing i a with
  | nil => simp [mixWords]
  | cons x l ih => simp only [mixWords, ite_self, ih, List.map_cons, List.sum_cons, List.take_add]

/-- QueueSteps: the ring of a host rests at a packet with V = 1, whichever of its words were read first. -/
theorem witness_RingRest :
    let s : State := { host := [(0, 1)] }
    sideRest { f := 0, lines := [(0, 64, false)], first := hread s 0 64 } true 0 64 s = (1 :: List.replicate 63 0, []) := by
  intro s
  have h : hread s 0 64 = 1 :: List.replicate 63 0 := by decide +kernel
  simp only [sideRest, if_true, mixWords_self, h]
  decide +kernel

/-- PacketSteps: a head of each type, free to start and held back by B; a failed VD; a CFE position free and not; a signal of 0
against 0 and -1; one run of each kind, a transfer and an access in parts under way and over, each step of a chunk of 4096 bytes, and
a signal that does not reach 0. -/
theorem witness_PacketSteps :
    let p : Packet := { w0 := 3 }
    let q : Queue := { state := 1, head := some p }
    let r : Run := { id := 0, fn := 0, q := 0, pkt := { w0 := 0x41, w1 := 0, w2 := 4096, w5 := 4096 } }
    let g : Run := { r with fn := 1, pkt := { r.pkt with w1 := 0, w2 := 0 } }
    let s : State := { phase := 1, cycle := 1536, queues := [(0, q)] }
    let t : State := { s with cycle := 0, runs := [r] }
    let x : Xfer := { tid := 5, core := 0, wid := 0, sid := 1, cid := 1, kind := .rd, cls := 0, post := false, seq := 0, tick := 0, ag := {},
                      ereg := 0, opx := 0, opnew := 0, src := [], srcPoison := [], after := [], state := .sent }
    (s.queue 0 0).head = some p ∧ p.type = 0 ∧ blockedByB s 0 0 p = false ∧ blockedByB t 0 0 p = true
      ∧ (({ w0 := 0x11 } : Packet).type = 1 ∧ ({ w0 := 0x21 } : Packet).type = 2 ∧ ({ w0 := 0x31 } : Packet).type = 3
          ∧ ({ w0 := 0x41 } : Packet).type = 4 ∧ ({ w0 := 0x61 } : Packet).type = 6)
      ∧ ((s.vd 0).state ≠ .failed ∧ ({ state := .failed } : Vd).state = .failed ∧ takesWork s 0 = true)
      ∧ localSignal 0 8 = true ∧ cfeSlot s = none ∧ cfeSlot t = some 1536
      ∧ (fnRead s 0 false (signalVa 8) 8 = .ok (List.replicate 8 0, [])
          ∧ (BitVec.ofNat 64 (leNat (List.replicate 8 0))).toInt ≤ (0 : W64).toInt
          ∧ (-1 : W64).toInt < (BitVec.ofNat 64 (leNat (List.replicate 8 0))).toInt)
      ∧ (q.waitHeld = none ∧ q.waitMet = false ∧ ({ q with waitMet := true } : Queue).waitMet = true)
      ∧ t.runs = [r] ∧ ((∀ y ∈ t.xfers, y.tid ∈ [5] → y.translated = false) ∧ ∀ f ∈ ([] : List Nat), f ∉ tearsOf t 0)
      ∧ (∃ y ∈ [x], y.tid ∈ [5] ∧ y.translated = true) ∧ 0 ∈ tearsOf { withVd with tornHost := some noLines } 1
      ∧ (r.pkt.type = 4 ∧ r.put = 0 ∧ r.asked = false ∧ r.ended = false ∧ working t 0 = true ∧ working withVd 1 = true
          ∧ 0 < min 4096 (r.pkt.w5.toNat - r.done) ∧ ((copySrc r.pkt).2 + r.done < 15 * 2 ^ 68 ∧ ((copySrc r.pkt).2 + r.done) % 2 ^ 65 + 4096 ≤ 2 ^ 65)
          ∧ (r.fn = 0 ∨ False) ∧ (withVd.vd 1).suspended = false)
      ∧ (∃ u y, sideFirst t 0 false 0 4096 = .ok (u, y)) ∧ (∃ u y, sideFirst withVd 1 false 0 4096 = .ok (u, y))
      ∧ (∃ l, translateAll (fnXlate withVd g.fn true) (lineParts 0 4096) = .ok l)
      ∧ (r.buf = none ∧ ({ r with torn := some noLines } : Run).torn = some noLines ∧ (copyDst { w0 := 0x41, w4 := 0x20000, w5 := 4096 }).1 = true
          ∧ (copyDst r.pkt).1 = false)
      ∧ ((List.replicate 4096 ((0 : Byte), false)).length = 4096 ∧ (∀ x ∈ List.replicate 4096 ((0 : Byte), false), x.2 = false)
          ∧ t.stale = [] ∧ t.vds = [])
      ∧ (r.pkt.w3 = 0 ∧ r.pkt.wantsEntry = false ∧ ({ w0 := 5 } : Packet).wantsEntry = true ∧ s.phase ≠ 3)
      ∧ working t 1 = false
      ∧ (s.sigHeld = [] ∧ (∃ b, fnRead s 0 false (signalVa 8) 16 = .ok (b, []) ∧ BitVec.ofNat 64 (leNat (b.take 8)) - 1 ≠ 0)
          ∧ ({ w0 := 0x31, w5 := 7 } : Packet).w5 ≠ 0 ∧ ∃ w, fnWrite s 0 false (signalVa 8) (natLe 8 7) = .ok w) := by
  refine ⟨by decide, by decide, by decide, by decide, by decide, by decide, by decide, by decide, by decide, by decide +kernel, by decide,
    by decide, by decide, by decide, by decide, by decide, side_ok (by decide +kernel), side_ok (by decide +kernel), of_isOk (by decide +kernel),
    by decide, ⟨List.length_replicate, fun x hx => by rw [List.eq_of_mem_replicate hx], rfl, rfl⟩, by decide, by decide,
    by decide, ⟨List.replicate 16 0, by decide +kernel, by decide⟩, by decide, of_isOk (by decide +kernel)⟩

theorem length_padTo (n : Nat) (l : List Byte) : (padTo n l).length = n := by
  unfold padTo
  simp

/-- MeterSteps: an attestation request free and in progress; a destination in the VD's page and one that is not aligned; a meter
that may be opened and one that may not, with 7 and with 8 records waiting; a tenant log with room and full; read indices within
it and beyond; a record outside HBM. That a record is accepted rests on a certificate and a signature, which are opaque here. -/
theorem witness_MeterSteps :
    let a : Vd := { withVd.vd 1 with att := { busy := true, dest := 256 } }
    let s : State := { withVd with vds := [(1, a)], wm := { meters := [(0, { pages := 1, cid := 1 })] } }
    let tr : MeterTrig := { type := 1, event := 0, late := false, count := 0, timebase := 0, ns := 0 }
    let m : Meter := { cid := 1, v := true, waiting := List.replicate 7 tr }
    let u : State := { s with wm := { meters := [(0, { m with waiting := [tr] })] } }
    hasVd s 1 = true ∧ (withVd.vd 1).att.busy = false ∧ ((s.vd 1).att.busy = true ∧ (s.vd 1).att.dest.toNat % 256 = 0)
      ∧ (257 : Nat) % 256 ≠ 0 ∧ (∃ t, vwrite s 1 (s.vd 1).att.dest.toNat (s.vd 1).att.report [] = .ok t)
      ∧ ((s.meter 0).v = false ∧ openRefused s 0 = false ∧ (s.meter 0).waiting = []) ∧ openRefused {} 0 = true
      ∧ (m.v = true ∧ m.sealed = false ∧ m.waiting.length < 8 ∧ (∃ t, vread s 1 (m.base.toNat * 65536) (m.pages.toNat * 65536) = .ok t))
      ∧ ({ m with waiting := tr :: m.waiting } : Meter).waiting.length = 8
      ∧ (u.wm.meters = [(0, u.meter 0)] ∧ (u.meter 0).waiting = tr :: [] ∧ (u.meter 0).late = [] ∧ (u.meter 0).cid.toNat = 1
          ∧ tr.type ≠ 6 ∧ tr.gran = 0 ∧ tenantFull (u.vd 1) = false)
      ∧ tenantFull { a with mlogW := 1 } = true ∧ ((0 : W32) - 0xFFFFFFFF).toNat ≤ a.logCap ∧ a.logCap < ((0 : W32) - 0xFFFFFFFE).toNat
      ∧ contStatus { wm := { contPa := 0x8000000000 } } ≠ 1 := by
  refine ⟨by decide, by decide, by decide, by decide, of_isOk (by decide +kernel), by decide, by decide, ⟨by decide, by decide, by decide,
    of_isOk (by decide +kernel)⟩, by decide, by decide, by decide, by decide, by decide, ?_⟩
  have h : Config.hbmBytes < BitVec.toNat (0x8000000000 : BitVec 44) + 3584 + Config.certBytes :=
    Nat.lt_of_lt_of_le (m := 0x8000000000 + 3584) (by decide) (Nat.le_add_right _ _)
  simp only [contStatus, h, if_true]
  decide

/-- PartitionsAndDevices: a rectangle of the grid, one beyond it, and one that meets another partition; a partition with a VD, that
does not hold the new rectangle, and one without; descriptors that fail a check; a VD that may be destroyed and one of a migration.
That a descriptor passes every check rests on its policy's signature, which is opaque here. -/
theorem witness_PartitionsAndDevices :
    let w : W64 := 0x400 ||| 3 <<< 5 ||| 7 <<< 7
    let s : State := { withVd with vdcmd := { pa := 0x30000 }, mem := withVd.mem ++ [] }
    let d : State := { vds := [(1, {})], vdcmd := { pa := 0 }, mem := [(0, 1)] }
    let g : State := { vds := [(1, { state := .migOut })], vdcmd := { pa := 0 }, mem := [(0, 1)] }
    (s.fw.booted = true ∧ (tget {} s.parts 2).v = false ∧ (partOfWord 0x401).v = true ∧ (partOfWord 0x401).fits = true
        ∧ overlapsOther s 2 (partOfWord 0x401) = false)
      ∧ ((partOfWord (w + 1)).fits = false ∧ overlapsOther s 2 (partOfWord 0x400) = true ∧ ({} : State).fw.booted = false)
      ∧ ((tget {} s.parts 1).v = true ∧ (partOfWord w).v = true ∧ (partOfWord w).fits = true ∧ overlapsOther s 1 (partOfWord w) = false)
      ∧ vdsOf { s with vds := [] } 1 = [] ∧ vdsOf s 1 ≠ [] ∧ (partOfWord 0x401).contains (tget {} s.parts 1) = false
      ∧ createFault s ≠ 0 ∧ destroyFault s ≠ 0 ∧ destroyFault g ≠ 0
      ∧ (destroyFault d = 0 ∧ (d.vd (leAt (pread d d.vdcmd.pa.toNat 256) 0 2)).closing = false ∧ d.strands = [] ∧ d.wm.meters = [] ∧ d.vdcmd.busy = false ∧ vfsOf d 1 = [])
      ∧ (let a : State := { s with vds := [(1, s.vd 1)], stale := [(1, 1, 2, 0)] }
         a.stale = [(1, 1, 2, 0)] ∧ mappedFrames a = [(1, 1, 1, 0)] ∧ (2 : Nat) ≠ 1) := by
  refine ⟨by decide, by decide, by decide, by decide, by decide, by decide, by decide +kernel, by decide +kernel, by decide +kernel,
    by decide +kernel, by decide +kernel⟩

/-- Device memory that holds a container at VA 0 of `withVd`: five images of one END, a region of one core, strides 1-32. -/
def container : Cells 8 :=
  [
    (0x10000, 68), (0x10001, 65), (0x10002, 83), (0x10003, 79), (0x10004, 1), (0x10006, 9), (0x10008, 64), (0x10009, 8),
    (0x10040, 1), (0x10049, 2), (0x10050, 2), (0x10058, 1), (0x10060, 2), (0x10069, 3), (0x10070, 2), (0x10078, 1),
    (0x10080, 3), (0x10089, 4), (0x10090, 2), (0x10098, 1), (0x100a0, 4), (0x100a9, 5), (0x100b0, 2), (0x100b8, 1),
    (0x100c0, 5), (0x100c9, 6), (0x100d0, 2), (0x100d8, 1), (0x100e0, 6), (0x100e9, 7), (0x10100, 7), (0x10109, 7),
    (0x10110, 32), (0x10118, 1), (0x10120, 8), (0x10129, 8), (0x10140, 9), (0x10149, 8), (0x10150, 64), (0x10158, 1),
    (0x10201, 4), (0x10301, 4), (0x10401, 4), (0x10501, 4), (0x10601, 4), (0x10700, 1), (0x10702, 1), (0x10705, 5),
    (0x10709, 16), (0x10710, 1), (0x10711, 1)] ++ withVd.mem

theorem vwrite_ok {s : State} {cid va : Nat} {b : List Byte} {p : List Nat}
    (h : (translateAll (translate s cid · true) (lineParts va b.length)).isOk = true) : ∃ t, vwrite s cid va b p = .ok t := by
  obtain ⟨l, hl⟩ := of_isOk h
  exact ⟨_, by simp only [vwrite, vwriteBy, hl]; rfl⟩

/-- MeterSteps: a record of 3,584 bytes goes into the VD's page, whatever its signature. -/
theorem witness_MeterRecord (body : List Byte) : ∃ t, vwrite withVd 1 0 (signedRecord body) [] = .ok t := by
  apply vwrite_ok
  rw [show (signedRecord body).length = 3584 from length_padTo ..]
  decide +kernel

/-! ### Witnesses: strands -/

/-- A strand of one core, core 0 as weave id 0, of VD 1, in a state. -/
def strandIn (st : StrandState) : Strand := { cid := 1, wids := [0], state := st }

/-- StrandStarts: a LAUNCH at the head; a container that is malformed; one that is not, with a stride it allows and with one it does
not, in a VD of one core and of none, pinned to a class that another strand holds everywhere, and free. -/
theorem witness_StrandStarts :
    let p : Packet := { w0 := 0x11, w4 := 0xFF00 }
    let s : State := { withVd with queues := [(64, { state := 1, head := some p })] }
    let c : State := { s with mem := container }
    let m := cgets container 0x10700 32
    let t := metaStrand m 10
    let seen (s : State) : State := (fetchNeeds s 1 0 0).2.foldl (fun s x => countStage 1 x.1 x.2 0 s) s
    let x := launchStrand (seen c) 1 0 p t
    let n : State := { c with vds := [(1, { c.vd 1 with maxCores := 0 })] }
    let o : State := { c with strands := [(9, { cid := 2, w := 12, h := 4, wids := List.replicate 48 0, state := .running })] }
    let q : Packet := { p with w4 := 0x0001 }
    ((s.queue 1 0).head = some p ∧ p.type = 1 ∧ takesWork s 1 = true ∧ (s.vd 1).state ≠ .incoming ∧ (s.vd 1).state ≠ .stopped ∧ (s.vd 1).closing = false)
      ∧ (fetchNeeds s 1 0 (argBase (s.vd 1) p)).1 = .bug malformed ∧ (fetchNeeds c 1 0 (argBase (c.vd 1) p)).1 = .needs m t
      ∧ badShape (seen c) p x = false ∧ badShape (seen c) { p with w4 := 0xFF03 } x = true
      ∧ badResources (seen c) p m x = false ∧ badResources (seen n) p m (launchStrand (seen n) 1 0 p t) = true
      ∧ (p.pin = 0xFF ∧ strandCount c 1 < 64 ∧ (search (seen c) c.nextSid x p.stride p.pin).isSome = true)
      ∧ (q.pin ≠ 0xFF ∧ pinnedFree (seen c) c.nextSid x q.stride q.pin = true
          ∧ badResources (seen o) q m (launchStrand (seen o) 1 0 q t) = false
          ∧ pinnedFree (seen o) o.nextSid (launchStrand (seen o) 1 0 q t) q.stride q.pin = false) := by
  refine ⟨by decide, by decide +kernel, by decide +kernel, by decide +kernel, by decide +kernel, by decide +kernel, by decide +kernel,
    by decide +kernel, by decide +kernel⟩

/-- StrandStarts: a container that is read and is malformed, its argument block read too; a strand that starts now, one that is
still ahead and ready, and one that is not ready; a table switch, with an entry of an owner and one without, and none; a
re-phasing. That a whole container passes every check rests on its digest, which is opaque here. -/
theorem witness_Starts :
    let head := pread withVd 0x10000 headBytes
    let s : State := { withVd with strands := [(1, strandIn .staging)] }
    let k : CoreSt := { swPend := true, ptable := [(0, 1), (1, 0)], owners := [(0, {})] }
    let two : CoreSt := { swPend := true, swc := 3, swQueue := [{ cyc := 3 }, { cyc := 4 }] }
    let u : State := { s with runs := [{ id := 0, fn := 1, q := 0, pkt := {} }] }
    let r : Rephase := { cyc := 0, stride := 2, phase := 1, lanes := [], hbmP := 0 }
    ((s.strand 1).state = .staging ∧ (s.strand 1).replay = 0 ∧ (s.strand 1).g5 = false ∧ (s.strand 1).slots = [(0, 0)])
      ∧ readUpTo s 1 (lineParts 0 headBytes) = (head, none)
      ∧ (readUpTo s 1 (lineParts 0 (if head.length < 16 then 16 else max 16 (field head 8 8)))).2 = none
      ∧ (readUpTo s 1 (lineParts 0 512)).2 = none ∧ (∃ b, containerBug (s.strand 1) 0 head true = some b)
      ∧ ((strandIn .armed).state = .armed ∧ (strandIn .armed).start ≤ s.cycle + 1 ∧ (strandIn .armed).parkFlag = false)
      ∧ (let t : Strand := { strandIn .armed with start := 9, ready := true }
         s.cycle + 1 < t.start ∧ t.ready = true ∧ ∀ c ∈ t.cores, (s.core c).locked = false)
      ∧ ((strandIn .armed).ready = false ∧ ∃ r ∈ u.runs, r.id = (u.strand 1).run)
      ∧ (two.swPend = true ∧ two.swQueue = [{ cyc := 3 }, { cyc := 4 }] ∧ two.swc < 4 ∧ k.swQueue.length ≤ 1)
      ∧ (k.swPend = true ∧ k.cob.recs = [] ∧ ∀ x ∈ k.ptable, x.2 = 0 ∨ tfind k.owners (x.2 - 1) ≠ none) ∧ ({} : CoreSt).swPend = false
      ∧ ({ strandIn .running with rephase := some r } : Strand).rephase = some r := by
  refine ⟨by decide, by decide +kernel, by decide +kernel, by decide +kernel, ⟨malformed, ?_⟩, by decide, by decide, by decide, by decide,
    by decide, by decide, by decide⟩
  have h1 : ¬ (pread withVd 0x10000 headBytes).length < headBytes := by decide +kernel
  have h2 : (!headOk (pread withVd 0x10000 headBytes)) = true := by decide +kernel
  simp only [containerBug, h1, h2, if_false, if_true]

/-- StrandLife: a strand in each state that a clause names, with eviction points and a fault; too few records of its context and
enough; a failed VD; a place to resume at; a lease that has run out and one that has not; an overdue SYNC; a fault with
everything landed, held and not; the last owner of a strand. -/
theorem witness_StrandLife :
    let e : FaultEv := { cause := .trap, core := 0, wid := 0, region := 0, str := .c }
    let pr : Primary := { ev := e, tick := 1, stop := 4 }
    let s : State := { withVd with strands := [(1, { strandIn .evicted with win := 4096 })] }
    let a : State := { s with strands := [(1, { s.strand 1 with ctxRecs := [0] })], memPoison := [0] }
    let n : State := { s with vds := [(1, { s.vd 1 with maxCores := 0 })] }
    let f : State := { s with vds := [(1, { state := .failed })] }
    let t : Strand := { strandIn .running with leaseEnd := 5, evPoints := [[0, 0, 0, 0, 0]] }
    let o : State := { withVd with strands := [(1, strandIn .running)], cores := [(0, { owners := [(0, { sid := 1 })] })] }
    (t.state = .running ∧ t.evPoints ≠ [] ∧ t.evict = none ∧ t.primary = none) ∧ (strandIn .parked).state = .parked
      ∧ ((strandIn .running).evPoints = [] ∧ (strandIn .running).slots = [(0, 0)]) ∧ (strandIn .draining).state = .draining
      ∧ (freeRecords n 1 1).length < 1 ∧ 1 ≤ (freeRecords s 1 1).length
      ∧ saveFails { winPoison := [0] } { winSize := 64 } = true ∧ saveFails {} { winSize := 64 } = false
      ∧ ((f.strand 1).state = .evicted ∧ (f.vd 1).state = .failed)
      ∧ ((s.vd 1).state ≠ .failed ∧ (search s 1 { s.strand 1 with wids := [] } 0 0xFF).isSome = true
          ∧ (∀ r ∈ (a.strand 1).ctxRecs, ∀ l ∈ a.memPoison, 64 * l + 64 ≤ recordPa a 1 r ∨ recordPa a 1 r + Config.coreRecord ≤ 64 * l)
          ∧ ∀ c ∈ List.range 1536, (s.core c).cob.svn = (s.strand 1).savedSvn)
      ∧ (({ ref := 4 } : State).ref < t.leaseEnd ∧ t.leaseEnd ≤ ({ ref := 5 } : State).ref)
      ∧ (let w : Strand := { strandIn .stalled with overdue := true }
         w.overdue = true ∧ w.state = .stalled ∧ w.syncs = [] ∧ t.overdue = false)
      ∧ (let w : Strand := { strandIn .stopping with primary := some pr }
         w.doomed = false ∧ w.primary = some pr ∧ w.state = .stopping ∧ toLand s 1 = [] ∧ (s.vd 1).dbg.fhold = false
           ∧ ({ dbg := { fhold := true } } : Vd).dbg.fhold = true)
      ∧ (tfind (o.core 0).owners 0 = some { sid := 1 } ∧ (o.strand 1).slots = [(0, 0)] ∧ (o.strand 1).wids = [0]
          ∧ (o.strand 1).faults = [] ∧ (o.strand 1).doomed = false) := by
  refine ⟨by decide, by decide, by decide, by decide, by decide, by decide, by decide, by decide, by decide,
    ⟨by decide, by decide +kernel, by decide, fun c _ => ?_⟩,
    by decide, by decide, ⟨by decide, rfl, by decide, by decide, by decide, by decide⟩,
    ⟨rfl, by decide, by decide, by decide, by decide⟩⟩
  rfl

/-! ### Witnesses: migration, transfers, debugging, the firmware context -/

/-- A handoff record that is cut short is refused, whatever its signature. -/
theorem receive_short (w : State) : receiveHandoff 2 0 [] w = none := by
  unfold receiveHandoff
  have h : leAt (List.take 3584 ([] : List Byte)) 0 1 ≠ 6 := by rw [List.take_nil]; decide
  cases freeMeter w with
  | none => rfl
  | some i => simp only [List.take_nil] at h ⊢; exact if_pos (.inr (.inl h))

theorem handoff_refused (w : State) : receiveHandoffs 2 0 [[]] w = none := by
  unfold receiveHandoffs
  rw [List.foldl_cons, List.foldl_nil, Option.bind_some]
  exact receive_short w

/-- MigrationSteps: no VD; one in each state of its migration, with no page dirty and with one, suspended and not; a destination on this
device that matches, one that does not, and none that can be reached; a stop in progress, before and after the VD has stopped, with
its destination there and lost; a source that HB_ACT lets write, and one that it does not; a page outstanding, and pulled. -/
theorem witness_MigrationSteps :
    let v : Vd := withVd.vd 1
    let act : ActEntry := { tcid := 2, v := true, rd := true, wr := true }
    let s : State := { withVd with
      vds := [(1, v), (2, { v with state := .incoming })], parts := [(1, { v := true }), (2, { v := true })], plc := { migCid := 1, migDcid := 2 }
      klk := { act := [(0, act)] } }
    let f : State := { s with plc := { migCid := 1, migDev := 3 } }
    let m : State := { s with vds := [(1, { v with state := .migOut })] }
    let x : State := { s with vds := [(1, { v with state := .migOut, dest := (3, 2) })] }
    let u : State := { s with vds := [(1, { v with state := .migOut, suspended := true })], plc := { s.plc with migBusy := true, migVd := 1 } }
    let e : State := { u with vds := [(1, { v with state := .stopped, suspended := true, dest := (0, 2) })] }
    let l : State := { e with plc := { e.plc with migLost := true } }
    let a : State := { e with vds := [(1, { v with state := .stopped, suspended := true, dest := (3, 2) })]
                              klk := { e.klk with jn := true, routes := [(3, { port := 0, v := true })], ports := [(0, { up := true })] } }
    let h : State := { a with klk := { a.klk with ports := [(0, { up := true, replay := [{ dst := 3, src := 0, kind := 0, cid := 1, seq := 0, payload := [], crc := 0 }] })] } }
    let w : Vd := { v with state := .postcopy, outstanding := [0], pulls := [0] }
    (s.plc.migCid.toNat = 1 ∧ hasVd {} 1 = false)
      ∧ (hasVd s 1 = true ∧ (s.vd 1).state = .active ∧ migRoute s s.plc.migDev.toNat = true ∧ destOk s = true)
      ∧ (destOk { s with vds := [(1, v)] } = false ∧ migRoute f f.plc.migDev.toNat = false ∧ (m.vd 1).state ≠ .active)
      ∧ (hasVd m 1 = true ∧ (m.vd 1).state = .migOut ∧ (m.vd 1).suspended = false ∧ migRoute m (m.vd 1).dest.1 = true ∧ m.klk.reqs = []
          ∧ stopping m = false ∧ migRoute x (x.vd 1).dest.1 = false)
      ∧ dirtyPages m 1 = []
      ∧ (stopping u = true ∧ u.plc.migVd = 1 ∧ hasVd u 1 = true ∧ (u.vd 1).state = .migOut ∧ u.strands = [] ∧ u.runs = []
          ∧ u.wm.meters = [] ∧ u.plc.migBusy = true) ∧ s.plc.migBusy = false
      ∧ ((e.vd 1).state = .stopped ∧ meterWaits e 1 = false ∧ e.plc.migLost = false ∧ l.plc.migLost = true ∧ migRoute e (e.vd 1).dest.1 = true
          ∧ e.plc.migKeep = false ∧ (e.vd 1).dest.1 = e.klk.dev.toNat ∧ migGranted e (e.vd 1).dest.1 (e.vd 1).dest.2 = true ∧ e.plc.migFinal = false
          ∧ (a.vd 1).dest.1 ≠ a.klk.dev.toNat ∧ migRoute a (a.vd 1).dest.1 = true ∧ (a.vd 1).state = .stopped ∧ meterWaits a 1 = false
          ∧ finalUnderWay h 1 = true ∧ finalUnderWay a 1 = false ∧ ({ a.plc with migFinal := true } : Placer).migFinal = true)
      ∧ (let g := finalImage 1 e
         g.handoffs = [] ∧ g.post = false ∧ g.mailbox = [] ∧ g.strands = [] ∧ g.copies = []
           ∧ ({ g with strands := [(strandIn .evicted, {})] } : MigImage).strands = [(strandIn .evicted, {})]
           ∧ receiveHandoffs 2 0 [] (installImage 2 g s) = some (installImage 2 g s)
           ∧ ∀ w, receiveHandoffs 2 0 [[]] w = none)
      ∧ ((s.vd 2).state = .incoming ∧ (s.vd 1).state ≠ .incoming ∧ migGranted s 0 2 = true ∧ migGranted s 3 2 = false)
      ∧ (0 ∈ w.outstanding ∧ 0 ∉ v.pulls ∧ 0 ∈ w.pulls ∧ 1 ∉ w.outstanding ∧ w.state = .postcopy ∧ w.outstanding = [0] ∧ v.outstanding = []
          ∧ v.state ≠ .stopped ∧ ({ v with state := .stopped } : Vd).state = .stopped)
      ∧ pagePa withVd 1 0 = some 0x10000 ∧ (List.replicate 65536 (0 : Byte)).length = 65536
      ∧ dirtyPages { m with dirty := [1] } 1 ≠ [] := by
  refine ⟨by decide, by decide, by decide, by decide, ?_, by decide, by decide, by decide, ⟨rfl, rfl, rfl, rfl, rfl, rfl, rfl, handoff_refused⟩, by decide, by decide,
    by decide +kernel, List.length_replicate, by decide +kernel⟩
  · unfold dirtyPages
    exact List.filter_eq_nil_iff.2 fun _ _ h => Bool.noConfusion h

/-- TransferSteps: a read that waits and may perform, of a page that is mapped and of a demand page, in a unit with room and in one
without; one that lands now, and one of module memory that finds nothing left; an SC operation, first and behind an earlier
transfer; a read and a write of which no part, and some part, has performed, and a put, with the ports they need free; a failed one. -/
theorem witness_TransferSteps :
    let x : Xfer := { tid := 5, core := 0, wid := 0, sid := 1, cid := 1, kind := .rd, cls := 0, post := false, seq := 0, tick := 0
                      ag := { len0 := 8, cnt1 := 1 }, ereg := 0, opx := 0, opnew := 0, src := [], srcPoison := [], after := []
                      state := .waiting }
    let y : Xfer := { x with state := .sent }
    let z : Xfer := { x with kind := .sc .add, state := .wheel }
    let p : Xfer := { x with kind := .put, post := true, state := .performed }
    let s : State := { withVd with xfers := [x], strands := [(1, strandIn .running)], cores := [(0, { owners := [(0, { sid := 1, winSize := 8 })] })] }
    let d : State := { s with vds := [(1, { withVd.vd 1 with demand := true })], mem := [(0x20000, 0x20)] }
    let c : State := { s with cores := [(0, { scUsed := 7 })], cycle := 7 }
    let w : Xfer := { y with kind := .wrZ }
    let moved : State := { s with free := s.free + (w.ag.lines 0 w.ag.bytes).length }
    s.xfers = [x] ∧ y.state ≠ .waiting ∧ unitFull { s with xfers := List.replicate 512 y } 0 = true
      ∧ (x.state = .waiting ∧ mayPerform s x = true ∧ unitFull s (clusterOf x.core) = false ∧ x.kind = .rd ∧ isRemote (dva x.ereg) = false
          ∧ (translateAll (x.tr s false) (lineParts (dva x.ereg) x.deviceBytes)).isOk = true)
      ∧ (mayPerform d x = true ∧ translateAll (x.tr d false) (lineParts (dva x.ereg) x.deviceBytes) = .error (.demand 0))
      ∧ (z.kind = .sc .add ∧ z.state = .wheel ∧ mayPerform s z = true ∧ (s.core z.core).scUsed ≠ ({ s with cycle := 1 } : State).cycle ∧ (c.core 0).scUsed = c.cycle
           ∧ (atomicBy (z.tr s) s 1 (dva z.ereg) .add 0 0).isOk = true)
      ∧ (y.state = .sent ∧ y.torn = none ∧ y.todo = none ∧ y.post = false ∧ y.status = 0 ∧ (s.strand 1).replay = 0
           ∧ ({ y with torn := some noLines } : Xfer).torn = some noLines)
      ∧ (∃ u t, vreadFirst (y.tr s false) s (dva y.ereg) y.deviceBytes = .ok (u, t)) ∧ (∃ b, getRest noLines s = (b, []))
      ∧ PortsFree s (portsOf y s)
      ∧ (w.kind = .wrZ ∧ ∃ u t, vwriteFirst (w.tr moved true) moved (dva w.ereg) (List.replicate w.deviceBytes 0) [] = .ok (u, t))
      ∧ (p.state = .performed ∧ p.kind = .put ∧ p.post = true ∧ p.status = 0 ∧ (s.owner 0 0).fifo.length < Config.fifoDepth ∧ p.todo = none)
      ∧ targetOf s p = .ok (0, 0, 0) ∧ PortsFree s (portsOf p s) ∧ ({ x with state := .failed } : Xfer).state = .failed := by
  refine ⟨by decide, by decide, by decide +kernel, ⟨by decide, by decide, by decide, by decide, by decide, by decide +kernel⟩,
    ⟨by decide, by decide +kernel⟩, ⟨by decide, by decide, by decide, by decide, by decide, by decide +kernel⟩,
    by decide, read_ok (by decide +kernel), ⟨[], rfl⟩, by unfold PortsFree; decide +kernel,
    ⟨by decide, first_ok (by decide +kernel)⟩, by decide, by decide,
    by unfold PortsFree; decide +kernel, by decide⟩

/-- TransferSteps: whatever the free values, a request that HBM alone serves finds its turn at once. -/
theorem witness_landingOf :
    let x : Xfer := { tid := 5, core := 0, wid := 0, sid := 1, cid := 1, kind := .rd, cls := 0, post := false, seq := 0, tick := 0
                      ag := { len0 := 8, cnt1 := 1 }, ereg := 0, opx := 0, opnew := 0, src := [], srcPoison := [], after := []
                      state := .waiting }
    ∃ y t, landingOf { withVd with xfers := [x] } x [] = some (y, t) := ⟨_, _, rfl⟩

/-- PageRequests: none waiting; one waiting, the queue off and on with its last place free; its enable with a valid base and size and
not; a transfer and a ring read that hold on a page. -/
theorem witness_PageRequests :
    let q : Prq := { en := true, size := 4, widx := 15, waiting := [(3, true, 7)] }
    let s : State := { withVd with vds := [(1, { withVd.vd 1 with prq := q })] }
    let w : W64 := 0x14
    ({} : Prq).waiting = [] ∧ ({} : Prq).en = false ∧ (q.waiting = [(3, true, 7)] ∧ q.en = true ∧ hasRoom q.widx q.ridx q.size.toNat = true)
      ∧ (vwrite s 1 (q.base.toNat + q.widx.toNat % 2 ^ q.size.toNat * 16)
          (natLe 8 (b01 (phaseBit q.widx q.size.toNat) + 2 * b01 true + 3 * 256) ++ natLe 8 7) []).isOk = true
      ∧ (w.getLsbD 4 = true ∧ q.base.extractLsb' 0 8 = 0 ∧ 4 ≤ (w.extractLsb' 0 4).toNat ∧ ((0x13 : W64).extractLsb' 0 4).toNat < 4)
      ∧ (({ en := true } : Prq).en = true ∧ ({} : Prq).en = false ∧ (3 : Nat) ≠ freedPage)
      ∧ ({ held := some 3 } : Queue).held = some 3 ∧ (withVd.cqs = [] ∧ withVd.sigHeld = []) := by
  refine ⟨by decide, by decide, by decide, by decide +kernel, by decide, by decide, by decide, by decide⟩

/-- DebugSteps: the enables with a valid base and size and not; no target; a target that runs, is parked, and is held at a fault; a
dump address that is aligned, and one that is not. -/
theorem witness_DebugSteps :
    let s (st : StrandState) : State := { withVd with strands := [(1, strandIn st)], vds := [(1, { withVd.vd 1 with dbg := { goStrand := 1 } })] }
    let w : W64 := 0x12
    let tr : Trc := { size := 4096 }
    ((withVd.vd 1).flt.en = false ∧ w.getLsbD 4 = true ∧ (withVd.vd 1).flt.base.extractLsb' 0 8 = 0 ∧ 2 ≤ (w.extractLsb' 0 4).toNat
        ∧ (w.extractLsb' 0 4).toNat ≤ 12 ∧ 12 < ((0x1D : W64).extractLsb' 0 4).toNat)
      ∧ (tr.en = false ∧ (1 : W64).getLsbD 0 = true ∧ tr.base.toNat % 4096 = 0 ∧ tr.size ≠ 0 ∧ tr.size.toNat % 4096 = 0 ∧ ({} : Trc).size = 0)
      ∧ tfind withVd.strands 1 = none
      ∧ (∀ st, tfind (s st).strands 1 = some ((s st).strand 1) ∧ ((s st).strand 1).cid = 1 ∧ ((s st).strand 1).state = st)
      ∧ ((strandIn .running).evict = none ∧ (strandIn .running).cut = none ∧ (strandIn .running).primary = none)
      ∧ (((0x8000 : W64).toNat % 65536 ≠ 0) ∧ ((0 : W64).toNat % 65536 = 0) ∧ ∃ t, dumpCores 1 0 [] (s .parked) = .ok t) := by
  refine ⟨by decide, by decide, by decide, fun st => ⟨rfl, rfl, rfl⟩, by decide, by decide, by decide, _, rfl⟩

/-- SystemInstructions and FirmwareContext: the firmware context with its guard, and with one that does not hold; registers,
completions, events, owners that run, are parked alone and with their strand, cuts, a switch queued and none, and operations in flight
as each clause asks; a vector that fails its check; a line of the reserved area that is good and one that is poisoned. -/
theorem witness_SystemInstructions :
    let ev : CobEvent := { kind := .reset, wid := 0, sid := 0, args := [0, 0, 0, 0] }
    let x : Completion := { kind := 1, wid := 0, status := 0, seq := 0, detail := 0 }
    let b : Cobbler := { x := [(2, 0x1F), (3, 0x8)], cur := some ev, compl := [x], drained := [7], img := [0] }
    let o : Owner := { sid := 1 }
    let k : CoreSt := { cob := b, owners := [(7, o)] }
    let s : State := { withVd with cur := ⟨0, 0, .f⟩, cores := [(0, k)], strands := [(1, { strandIn .running with tick := 8 })] }
    let q : State := { s with strands := [(1, { strandIn .parked with wids := [7] })] }
    let y : Xphy := { num := 0, cls := 0, post := true, pa := 0, off := 0, len := 8, write := true, src := [1], srcPoison := [], status := 0 }
    (s.cur.str = .f ∧ hd.tok = 0 ∧ hd.g ≠ 8 ∧ selects b.p b.blocks hd.g = true ∧ (1 : BitVec 4) ≠ 0
        ∧ (1 : BitVec 4) ≠ 8 ∧ selects b.p b.blocks 1 = false) ∧ 0x0E < (0x0F : BitVec 8).toNat
      ∧ (b.cur = some ev ∧ b.queue = []) ∧ (b.xr 4).extractLsb' 0 5 = 0
      ∧ (b.compl = [x] ∧ ((b.xr 2).extractLsb' 0 5).getLsbD x.kind.toNat = true) ∧ ((b.xr 2).extractLsb' 0 5 ≠ 0 ∧ ({} : Cobbler).compl = [])
      ∧ (({ swPend := true } : CoreSt).swPend = true ∧ k.swPend = false ∧ k.swQueue = [] ∧ reservedBad k 16352 32 = false)
      ∧ (tfind k.owners 0 = none ∧ tfind k.owners ((b.xr 2).extractLsb' 0 3).toNat = some o)
      ∧ (k.cuts = [] ∧ o.parked = false ∧ (s.strand 1).state = .running ∧ (s.strand 1).evict = none
          ∧ ownNext (s.strand 1) o ≤ (b.xr 3).toNat ∧ (b.xr 4).toNat < ownNext (s.strand 1) o)
      ∧ (({ o with parked := true } : Owner).parked = true ∧ s.cycle ≤ (b.xr 3).toNat ∧ (b.xr 4).toNat < ({ s with cycle := 1 } : State).cycle)
      ∧ (tfind q.strands 1 ≠ none ∧ (q.strand 1).slots = [(0, 7)] ∧ (q.strand 1).state = .parked ∧ (q.strand 1).overdue = false)
      ∧ (b.zfill = none ∧ activeId k 7 = true ∧ activeId k 0 = false ∧ (b.xr 3).getLsbD 4 = false)
      ∧ (({ cseBusy := true } : Cobbler).cseBusy = true ∧ b.cseBusy = false ∧ 7 ∈ b.drained ∧ (b.xr 4).toNat % 4096 = 0
          ∧ (b.xr 4).toNat + 0xB4000 ≤ 2 ^ 39) ∧ (16 ≤ (List.replicate 16 y).length ∧ b.xphy.length < 16)
      ∧ (let c : Cobbler := { b with cur := none, queue := [ev] }
         c.cur = none ∧ k.locked = false ∧ c.queue = ev :: [] ∧ ev.args.length = 4
           ∧ (cget c.vectors ev.kind.code).toNat < 2 ^ 13 ∧ (cget c.vectors ev.kind.code).toNat < c.img.length
           ∧ vectorFails c ev.kind.code = false ∧ vectorFails { c with imErr := [2 * ev.kind.code + 1] } ev.kind.code = true)
      ∧ (let a : CoreSt := k.seen 0
         ¬ ((∃ w ∈ a.winErr, w / 8 = Config.reservedBase / 64) ∨ Config.reservedBase / 64 ∈ a.winPoison)
           ∧ Config.reservedBase / 64 ∈ (CoreSt.seen 0 { k with winPoison := [Config.reservedBase / 64] }).winPoison)
      ∧ ((2 : BitVec 4) ≠ 0 ∧ (1 : BitVec 3) ≠ 0 ∧ (1 : BitVec 12) ≠ 0)
      ∧ (b.lastReset = none ∧ ({ lastReset := some 0 } : Cobbler).lastReset = some 0 ∧ s.cycle - 0 ≤ max 1 s.fw.limit.toNat)
      ∧ (({ locked := true } : CoreSt).locked = true ∧ k.owners = [(7, { sid := 1 })] ∧ ({ sid := 1 } : Owner).lost = false
          ∧ ({ strandIn .stalled with overdue := true } : Strand).overdue = true ∧ (s.strand 1).overdue = false)
      ∧ (b.cseTodo = none ∧ csePorts 0 false 7 s = [] ∧ b.zfillTodo = none ∧ zfillPorts 0 s = [])
      ∧ (hubReg y.pa = none ∧ y.write = true ∧ y.post = true ∧ y.status = 0 ∧ y.src ≠ [] ∧ y.srcPoison = [] ∧ y.todo = none)
      ∧ PortsFree s (xphyPorts 0 y) := by
  refine ⟨by decide, by decide, by decide, by decide, by decide, by decide, ⟨by decide, by decide, by decide, by decide +kernel⟩, ⟨rfl, rfl⟩, by decide,
    by decide, by decide, by decide, by decide, ⟨by decide, by decide⟩, by decide, by decide, by decide, by decide, by decide,
    ⟨rfl, rfl, rfl, rfl⟩, by decide, by unfold PortsFree; decide +kernel⟩

/-- LegalKept: the settings after reset are legal, and so are the extreme ones. -/
theorem witness_LegalKept :
    State.reset.pwr.legal = true ∧ ({ step := 13, ceil := 13, cap := 500, capNow := 2000 } : Power).legal = true := by decide


/-- FIPS 202: the first bytes of SHAKE256 of the empty message. -/
theorem test_shake256_empty : (shake256 4 []).map BitVec.toNat = [0x46, 0xb9, 0xdd, 0x2b] := by decide +kernel

end Sys2Proof.Tests
end

section
/-! PROOF. BF16 narrowing and the OK16 order keys (R244, R246, R247): every word is read as a natural number, where the
narrowing is one division rounded to nearest, ties to even, and the key is a strictly increasing function of the
order of the BF16 value. -/

namespace Sys2Proof.Laws.NumberFormats

open Machine

/-! ### A binary32 word as a number -/

theorem sign_eq_decide (w : W32) : w.getLsbD 31 = decide (2 ^ 31 ≤ w.toNat) := BitVec.msb_eq_decide w

theorem magnitude_toNat (w : W32) : (w.extractLsb' 0 31).toNat = w.toNat % 2 ^ 31 := by simp

theorem isNan_eq_false_iff (w : W32) : isNan w = false ↔ w.toNat % 2 ^ 31 ≤ 0x7F800000 := by
  rw [isNan, magnitude_toNat, decide_eq_false_iff_not, Nat.not_lt]

theorem orderKey_eq (w : W32) :
    orderKey w = if 2 ^ 31 ≤ w.toNat then 2 ^ 31 - (w.toNat : Int) else (w.toNat : Int) := by
  have := w.isLt
  simp only [orderKey, magnitude_toNat, sign_eq_decide, decide_eq_true_eq]
  split <;> omega

theorem flt_iff {v w : W32} (hv : isNan v = false) (hw : isNan w = false) : flt v w = true ↔ orderKey v < orderKey w := by
  simp [flt, hv, hw]

theorem feq_iff {v w : W32} (hv : isNan v = false) (hw : isNan w = false) : feq v w = true ↔ orderKey v = orderKey w := by
  simp [feq, hv, hw]

/-! ### Widening (R244) -/

theorem bfTo32_toNat (b : BitVec 16) : (bfTo32 b).toNat = b.toNat * 2 ^ 16 :=
  (BitVec.toNat_append b (0 : BitVec 16)).trans (by simp [Nat.shiftLeft_eq])

theorem isNan_bfTo32_eq_false_iff (b : BitVec 16) : isNan (bfTo32 b) = false ↔ b.toNat % 2 ^ 15 ≤ 0x7F80 := by
  rw [isNan_eq_false_iff, bfTo32_toNat]
  omega

theorem orderKey_bfTo32 (b : BitVec 16) :
    orderKey (bfTo32 b) = 2 ^ 16 * if 2 ^ 15 ≤ b.toNat then 2 ^ 15 - (b.toNat : Int) else (b.toNat : Int) := by
  rw [orderKey_eq, bfTo32_toNat]
  split <;> split <;> omega

/-! ### Narrowing (R244) -/

theorem rneDiv_bf (n : Nat) :
    rneDiv n 65536 =
      if 2 ^ 15 < n % 2 ^ 16 ∨ (n % 2 ^ 16 = 2 ^ 15 ∧ n / 2 ^ 16 % 2 = 1) then n / 2 ^ 16 + 1 else n / 2 ^ 16 := by
  unfold rneDiv
  exact if_congr (by omega) rfl rfl

/-- The sign bit is a multiple of 2^17, so that rounding the whole word and rounding its magnitude agree. -/
theorem rneDiv_bf_sign (n : Nat) : rneDiv (2 ^ 31 + n) 65536 = rneDiv n 65536 + 0x8000 := by
  simp only [rneDiv_bf]
  split <;> split <;> omega

theorem toBf_of_isNan {a : W32} (h : isNan a = true) : toBf a = 0x7FC0 := by simp [toBf, h]

theorem toBf_of_not_isNan {a : W32} (h : isNan a = false) : toBf a = BitVec.ofNat 16 (rneDiv a.toNat 65536) := by
  have hlt := a.isLt
  simp only [toBf, h, magnitude_toNat, sign_eq_decide, decide_eq_true_eq, Bool.false_eq_true, if_false]
  split
  next hneg =>
    have hsplit : a.toNat = 2 ^ 31 + a.toNat % 2 ^ 31 := by omega
    rw [← rneDiv_bf_sign, ← hsplit]
  next hpos => rw [Nat.mod_eq_of_lt (by omega)]

theorem toBf_toNat {a : W32} (h : isNan a = false) : (toBf a).toNat = rneDiv a.toNat 65536 := by
  have hlt := a.isLt
  have hmag := (isNan_eq_false_iff a).mp h
  rw [toBf_of_not_isNan h, BitVec.toNat_ofNat, rneDiv_bf]
  split <;> omega

/-- The largest magnitude that is not a NaN, the infinity, is exact in BF16: rounding does not pass it. -/
theorem isNan_bfTo32_toBf {a : W32} (h : isNan a = false) : isNan (bfTo32 (toBf a)) = false := by
  have hlt := a.isLt
  have hmag := (isNan_eq_false_iff a).mp h
  rw [isNan_bfTo32_eq_false_iff, toBf_toNat h, rneDiv_bf]
  split <;> omega

/-! ### Order keys (R246, R247) -/

theorem okey_of_isNan {a : W32} (h : isNan a = true) : okey a = 0 := by simp [okey, h]

theorem setSign_toNat {b : BitVec 16} (h : b.toNat < 2 ^ 15) : (b ||| 0x8000).toNat = 2 ^ 15 + b.toNat := by
  rw [BitVec.or_comm, BitVec.toNat_or]
  exact (Nat.two_pow_add_eq_or_of_lt h 1).symm

theorem complement_toNat (b : BitVec 16) : (b ^^^ 0xFFFF).toNat = 2 ^ 16 - 1 - b.toNat := by
  rw [← BitVec.toNat_not, ← BitVec.xor_allOnes]
  rfl

/-- The key of a value that is present: below 0 the complement, from 0 on (both zeros) the sign bit set. -/
theorem okey_toNat {a : W32} (h : isNan a = false) :
    (okey a).toNat = if 2 ^ 15 < (toBf a).toNat then 2 ^ 16 - 1 - (toBf a).toNat else 2 ^ 15 + (toBf a).toNat % 2 ^ 15 := by
  have hneg (b : BitVec 16) : b.getLsbD 15 = decide (2 ^ 15 ≤ b.toNat) := BitVec.msb_eq_decide b
  by_cases hz : toBf a = 0x8000
  · simp [okey, h, hz]
  · have hz' : (toBf a).toNat ≠ 2 ^ 15 := fun e => hz (BitVec.eq_of_toNat_eq e)
    simp only [okey, h, hz, hneg, decide_eq_true_eq, Bool.false_eq_true, if_false]
    split
    next hge => rw [complement_toNat, if_pos (by omega)]
    next hlt => rw [setSign_toNat (by omega), if_neg (by omega), Nat.mod_eq_of_lt (by omega)]

/-- The key is the order of the BF16 rounding, moved up by 0x8000 from 0 on and by 0x7FFF below 0. -/
theorem okey_eq_orderKey {a : W32} (h : isNan a = false) :
    2 ^ 16 * ((okey a).toNat : Int) = orderKey (bfTo32 (toBf a))
      + 2 ^ 16 * if orderKey (bfTo32 (toBf a)) < 0 then 2 ^ 15 - 1 else 2 ^ 15 := by
  have hlt := (toBf a).isLt
  rw [okey_toNat h, orderKey_bfTo32]
  split_ifs <;> omega

theorem okey_ge {a : W32} (h : isNan a = false) : 0x007F ≤ (okey a).toNat := by
  have hlt := (toBf a).isLt
  have hmag := (isNan_bfTo32_eq_false_iff _).mp (isNan_bfTo32_toBf h)
  rw [okey_toNat h]
  split <;> omega

theorem okey_lt_iff {a c : W32} (ha : isNan a = false) (hc : isNan c = false) :
    (okey a).toNat < (okey c).toNat ↔ flt (bfTo32 (toBf a)) (bfTo32 (toBf c)) = true := by
  rw [flt_iff (isNan_bfTo32_toBf ha) (isNan_bfTo32_toBf hc)]
  have hka := okey_eq_orderKey ha
  have hkc := okey_eq_orderKey hc
  split at hka <;> split at hkc <;> omega

theorem okey_eq_iff {a c : W32} (ha : isNan a = false) (hc : isNan c = false) :
    okey a = okey c ↔ feq (bfTo32 (toBf a)) (bfTo32 (toBf c)) = true := by
  rw [feq_iff (isNan_bfTo32_toBf ha) (isNan_bfTo32_toBf hc), ← BitVec.toNat_inj]
  have hka := okey_eq_orderKey ha
  have hkc := okey_eq_orderKey hc
  split at hka <;> split at hkc <;> omega

/-- Settles O24: narrowing is one rounded division of the whole word, and the key is a strictly increasing function of
the order of the rounding. -/
theorem narrowFormats : Obligations.NarrowFormats := by
  refine ⟨⟨bfTo32_toNat, fun a => ⟨toBf_of_isNan, fun h => ?narrow⟩⟩, fun _ => okey_of_isNan, fun _ => okey_ge,
    fun _ _ ha hc => ⟨okey_lt_iff ha hc, okey_eq_iff ha hc⟩, by decide⟩
  case narrow => rw [toBf_of_not_isNan h, rneDiv_bf]

end Sys2Proof.Laws.NumberFormats
end

section
/-! PROOF. The scalar instructions of the control stream: their opcodes, what they compute in exact arithmetic narrowed
to 64 bits (R321-R323, R326, R327, R336), and the loads and stores of scalars (R328-R330). -/

namespace Sys2Proof.Laws.ControlScalar

open Machine

/-! ### Encodings (R299, R300) -/

theorem opcode_longWord (top : BitVec 8) (h : Hd) (f : BitVec 16) :
    ((two (longWord top h f)).headD 0).extractLsb' 8 7 = top.extractLsb' 0 7 := by
  ext i hi
  simp only [two, longWord, List.headD_cons, BitVec.getElem_extractLsb', BitVec.getLsbD_extractLsb',
    BitVec.getLsbD_append]
  simp only [show 8 + i < 16 by omega, show ¬ 16 + (8 + i) < 16 by omega, show ¬ 16 + (8 + i) - 16 < 4 by omega,
    show ¬ 16 + (8 + i) - 16 - 4 < 4 by omega, decide_true, Bool.true_and, if_false]
  congr 1
  omega

theorem opcodesOf_cons {i : Instr} {l : List Instr} {top : BitVec 8} {h : Hd} {f : BitVec 16} {op : BitVec 7}
    {ops : List (BitVec 7)} (hi : i.encode = two (longWord top h f)) (hop : top.extractLsb' 0 7 = op)
    (hl : opcodesOf l = ops) : opcodesOf (i :: l) = op :: ops := by
  have ho : (i.encode.headD 0).extractLsb' 8 7 = op := by rw [hi, opcode_longWord, hop]
  rw [← ho, ← hl]
  rfl

theorem toNat_append_add {m n : Nat} (x : BitVec m) (y : BitVec n) : (x ++ y).toNat = x.toNat * 2 ^ n + y.toNat := by
  rw [BitVec.toNat_append, ← Nat.shiftLeft_add_eq_or_of_lt y.isLt, Nat.shiftLeft_eq]

theorem shortWord_toNat (op : BitVec 5) {h : Hd} (hh : h.idle.toNat < 4) (a : BitVec 4) :
    (shortWord op h a).toNat = op.toNat * 0x400 + h.idle.toNat * 0x100 + h.tok.toNat * 0x10 + a.toNat := by
  simp only [shortWord, toNat_append_add, BitVec.toNat_setWidth, Nat.mod_eq_of_lt (show h.idle.toNat < 2 ^ 2 from hh),
    BitVec.toNat_ofNat]
  omega

/-! ### Values of three registers (R321) -/

theorem ofNat_toNat_self (x : W64) : BitVec.ofNat 64 x.toNat = x := by rw [BitVec.ofNat_toNat, BitVec.setWidth_eq]

theorem add_exact (x y : W64) : x + y = BitVec.ofNat 64 (x.toNat + y.toNat) := by
  rw [BitVec.ofNat_add, ofNat_toNat_self, ofNat_toNat_self]

theorem sub_exact (x y : W64) : x - y = BitVec.ofInt 64 ((x.toNat : Int) - y.toNat) := by
  rw [Int.sub_eq_add_neg, BitVec.ofInt_add, BitVec.ofInt_neg, BitVec.ofInt_natCast, BitVec.ofInt_natCast,
    ofNat_toNat_self, ofNat_toNat_self, BitVec.sub_eq_add_neg]

theorem mul_exact (x y : W64) : x * y = BitVec.ofNat 64 (x.toNat * y.toNat) := by
  rw [BitVec.ofNat_mul, ofNat_toNat_self, ofNat_toNat_self]

theorem shiftLeft_exact (x : W64) (n : Nat) : x <<< n = BitVec.ofNat 64 (x.toNat * 2 ^ n) :=
  BitVec.eq_of_toNat_eq (by simp [Nat.shiftLeft_eq])

theorem shiftRight_exact (x : W64) (n : Nat) : x >>> n = BitVec.ofNat 64 (x.toNat / 2 ^ n) := by
  rw [← Nat.shiftRight_eq_div_pow, ← BitVec.toNat_ushiftRight, ofNat_toNat_self]

theorem sshiftRight_exact (x : W64) (n : Nat) : x.sshiftRight n = BitVec.ofInt 64 (x.toInt / 2 ^ n) := by
  rw [BitVec.sshiftRight_eq, Int.shiftRight_eq_div_pow, Nat.cast_pow, Nat.cast_ofNat]

theorem smin_exact (x y : W64) : smin64 x y = BitVec.ofInt 64 (min x.toInt y.toInt) := by
  unfold smin64
  split
  next hle => rw [min_eq_left hle, BitVec.ofInt_toInt]
  next hgt => rw [min_eq_right (by omega), BitVec.ofInt_toInt]

theorem smax_exact (x y : W64) : smax64 x y = BitVec.ofInt 64 (max x.toInt y.toInt) := by
  unfold smax64
  split
  next hle => rw [max_eq_right hle, BitVec.ofInt_toInt]
  next hgt => rw [max_eq_left (by omega), BitVec.ofInt_toInt]

theorem umin_exact (x y : W64) : umin64 x y = BitVec.ofNat 64 (min x.toNat y.toNat) := by
  unfold umin64
  split
  next hle => rw [min_eq_left hle, ofNat_toNat_self]
  next hgt => rw [min_eq_right (by omega), ofNat_toNat_self]

theorem umax_exact (x y : W64) : umax64 x y = BitVec.ofNat 64 (max x.toNat y.toNat) := by
  unfold umax64
  split
  next hle => rw [max_eq_right hle, ofNat_toNat_self]
  next hgt => rw [max_eq_left (by omega), ofNat_toNat_self]

/-- Shifted left by n and right by 64 - n, a word has no bit in both places. -/
theorem shiftLeft_or_shiftRight_exact (x : W64) {n : Nat} (hn : n ≤ 64) :
    x <<< n ||| x >>> (64 - n) = BitVec.ofNat 64 (x.toNat * 2 ^ n + x.toNat / 2 ^ (64 - n)) := by
  have hlow : x.toNat / 2 ^ (64 - n) < 2 ^ n := by
    rw [Nat.div_lt_iff_lt_mul (Nat.two_pow_pos _), ← Nat.pow_add, Nat.add_sub_of_le hn]
    exact x.isLt
  apply BitVec.eq_of_toNat_eq
  rw [← Nat.shiftLeft_eq, Nat.shiftLeft_add_eq_or_of_lt hlow, BitVec.toNat_ofNat, Nat.or_mod_two_pow, BitVec.toNat_or,
    BitVec.toNat_shiftLeft, BitVec.toNat_ushiftRight, Nat.shiftRight_eq_div_pow,
    Nat.mod_eq_of_lt ((Nat.div_le_self ..).trans_lt x.isLt)]

theorem rotl_exact (x y : W64) :
    rotl64 x y = BitVec.ofNat 64 (x.toNat * 2 ^ (y.toNat % 64) + x.toNat / 2 ^ (64 - y.toNat % 64)) := by
  rw [rotl64, BitVec.rotateLeft_def, Nat.mod_mod]
  exact shiftLeft_or_shiftRight_exact x (by omega)

/-- A rotation to the right is one to the left by what is left of 64. -/
theorem rotr_exact (x y : W64) :
    rotr64 x y = BitVec.ofNat 64 (x.toNat / 2 ^ (y.toNat % 64) + x.toNat * 2 ^ (64 - y.toNat % 64)) := by
  have hback : 64 - (64 - y.toNat % 64) = y.toNat % 64 := by omega
  have h := shiftLeft_or_shiftRight_exact x (n := 64 - y.toNat % 64) (by omega)
  rw [hback] at h
  rw [rotr64, BitVec.rotateRight_def, Nat.mod_mod, BitVec.or_comm, h, Nat.add_comm]

/-! ### Values of one register (R323, R326, R327, R336) -/

theorem clzNat_eq_findIdx {n v : Nat} (hv : v < 2 ^ n) :
    clzNat n v = (List.range n).findIdx fun i => v.testBit (n - 1 - i) := by
  unfold clzNat
  split
  next h0 => simp [h0, List.findIdx_eq_length_of_false]
  next h0 =>
    have hlog : v.log2 < n := (Nat.log2_lt h0).2 hv
    refine ((List.findIdx_eq (by simp; omega)).2 ⟨?_, fun j hj => ?_⟩).symm
    · simpa [show n - 1 - (n - 1 - v.log2) = v.log2 by omega] using Nat.testBit_log2 h0
    · simpa using Nat.testBit_lt_two_pow ((Nat.log2_lt h0).1 (by omega))

theorem ctzNat_eq_findIdx (n v : Nat) : ctzNat n v = (List.range n).findIdx v.testBit := by
  induction n generalizing v with
  | zero => rfl
  | succ n ih =>
    have hsucc : v.testBit ∘ Nat.succ = (v / 2).testBit := funext fun i => Nat.testBit_succ v i
    rw [List.range_succ_eq_map, List.findIdx_cons, List.findIdx_map, hsucc, ← ih, Nat.testBit_zero, ctzNat]
    by_cases hodd : v % 2 = 1 <;> simp [hodd, Nat.add_comm]

theorem popNat_eq_countP (n v : Nat) : popNat n v = (List.range n).countP v.testBit := by
  induction n generalizing v with
  | zero => rfl
  | succ n ih =>
    have hsucc : v.testBit ∘ Nat.succ = (v / 2).testBit := funext fun i => Nat.testBit_succ v i
    rw [List.range_succ_eq_map, List.countP_cons, List.countP_map, hsucc, ← ih, Nat.testBit_zero, popNat]
    rcases Nat.mod_two_eq_zero_or_one v with h | h <;> simp [h, Nat.add_comm]

theorem abs_exact (x : W64) : abs64 x = BitVec.ofNat 64 x.toInt.natAbs := by
  unfold abs64
  split
  next hneg => rw [← BitVec.ofInt_natCast, Int.ofNat_natAbs_of_nonpos (by omega), BitVec.ofInt_neg, BitVec.ofInt_toInt]
  next hpos => rw [← BitVec.ofInt_natCast, Int.natAbs_of_nonneg (by omega), BitVec.ofInt_toInt]

theorem sx_exact {n : Nat} (hn : n ≤ 64) (x : W64) : sx n x = BitVec.ofInt 64 (x.extractLsb' 0 n).toInt := by
  rw [sx, BitVec.setWidth_eq_extractLsb' hn, BitVec.signExtend]

theorem zx_exact (n : Nat) (x : W64) : zx n x = BitVec.ofNat 64 (x.toNat % 2 ^ n) := by
  rw [zx, ← BitVec.toNat_setWidth, BitVec.ofNat_toNat]

/-- The bytes of a word, the lowest first. -/
theorem natLe_toNat (n : Nat) (x : W64) : natLe n x.toNat = (List.range n).map fun i => x.extractLsb' (8 * i) 8 := by
  suffices h : ∀ n v, natLe n v = (List.range n).map fun i => BitVec.ofNat 8 (v >>> (8 * i)) from h n x.toNat
  intro n
  induction n with
  | zero => exact fun _ => rfl
  | succ n ih =>
    intro v
    rw [List.range_succ_eq_map, List.map_cons, List.map_map, natLe, ih]
    refine congrArg₂ List.cons rfl (List.map_congr_left fun i _ => ?_)
    rw [Function.comp_apply, Nat.mul_succ, Nat.add_comm, Nat.shiftRight_add, Nat.shiftRight_eq_div_pow v 8]

theorem ofNat_leNat_eight (a b c d e f g h : Byte) :
    BitVec.ofNat 64 (leNat [h, g, f, e, d, c, b, a]) = a ++ b ++ c ++ d ++ e ++ f ++ g ++ h := by
  apply BitVec.eq_of_toNat_eq
  simp only [leNat, toNat_append_add, BitVec.toNat_ofNat]
  omega

theorem bswap_exact (x : W64) : bswap64 x = x.extractLsb' 0 8 ++ x.extractLsb' 8 8 ++ x.extractLsb' 16 8
    ++ x.extractLsb' 24 8 ++ x.extractLsb' 32 8 ++ x.extractLsb' 40 8 ++ x.extractLsb' 48 8 ++ x.extractLsb' 56 8 := by
  rw [bswap64, natLe_toNat]
  exact ofNat_leNat_eight ..

theorem dec_exact (x : W64) : x - 1 = BitVec.ofInt 64 ((x.toNat : Int) - 1) := sub_exact x 1

theorem neg_exact (x : W64) : -x = BitVec.ofInt 64 (-(x.toNat : Int)) := by
  rw [BitVec.ofInt_neg, BitVec.ofInt_natCast, ofNat_toNat_self]

theorem not_exact (x : W64) : ~~~x = BitVec.ofNat 64 (2 ^ 64 - 1 - x.toNat) := by
  rw [← BitVec.toNat_not, ofNat_toNat_self]

theorem addi_exact (k : BitVec 8) (x : W64) : x + k.signExtend 64 = BitVec.ofInt 64 (x.toNat + k.toInt) := by
  rw [BitVec.ofInt_add, BitVec.ofInt_natCast, ofNat_toNat_self, BitVec.signExtend]

/-- A shift count of six bits is below 64 already. -/
theorem setWidth_mod_64 (k : BitVec 6) : (k.setWidth 64).toNat % 64 = k.toNat := by
  rw [BitVec.toNat_setWidth]
  omega

theorem shli_exact (k : BitVec 6) (x : W64) : shlBy x (k.setWidth 64) = BitVec.ofNat 64 (x.toNat * 2 ^ k.toNat) := by
  rw [shlBy, setWidth_mod_64, shiftLeft_exact]

theorem shri_exact (k : BitVec 6) (x : W64) : shrBy x (k.setWidth 64) = BitVec.ofNat 64 (x.toNat / 2 ^ k.toNat) := by
  rw [shrBy, setWidth_mod_64, shiftRight_exact]

theorem sari_exact (k : BitVec 6) (x : W64) : sarBy x (k.setWidth 64) = BitVec.ofInt 64 (x.toInt / 2 ^ k.toNat) := by
  rw [sarBy, setWidth_mod_64, sshiftRight_exact]

/-- The constant fills the bits that the shift has cleared. -/
theorem movh_exact (k : BitVec 12) (x : W64) :
    (x <<< 12) ||| k.setWidth 64 = BitVec.ofNat 64 (x.toNat * 4096 + k.toNat) := by
  apply BitVec.eq_of_toNat_eq
  rw [BitVec.toNat_or, BitVec.toNat_shiftLeft, BitVec.toNat_setWidth, ← Nat.or_mod_two_pow,
    ← Nat.shiftLeft_add_eq_or_of_lt k.isLt, Nat.shiftLeft_eq, BitVec.toNat_ofNat]

/-! ### Instructions that write a register from registers (R192) -/

theorem alu3_of_exec {mk : Hd → BitVec 4 → BitVec 4 → BitVec 4 → Instr} {lat : Nat} {g f : W64 → W64 → W64}
    (hx : ∀ h a b c s, exec (mk h a b c) s = issue h true 1 true (alu3 lat g a b c) s) (hg : ∀ x y, g x y = f x y) :
    Alu3 mk lat f := by
  obtain rfl : g = f := funext₂ hg
  exact fun h a b c s => does_of_body (hx h a b c s) rfl

theorem does_alu2 {i : Instr} {h : Hd} {guarded fw : Bool} {a b : BitVec 4} {s : State} {g f : W64 → W64}
    (hx : exec i s = issue h guarded 1 fw (alu2 g a b) s) (hg : ∀ x, g x = f x) :
    Does i h guarded 1 [(1, .x a (ofOne f (rx s.curOwner b)))] [] s := by
  obtain rfl : g = f := funext hg
  exact does_of_body hx rfl

theorem alu2_of_exec {mk : Hd → BitVec 4 → BitVec 4 → Instr} {g f : W64 → W64}
    (hx : ∀ h a b s, exec (mk h a b) s = issue h true 1 true (alu2 g a b) s) (hg : ∀ x, g x = f x) : Alu2 mk f :=
  fun h a b s => does_alu2 (hx h a b s) hg

theorem alu1_of_exec {mk : Hd → BitVec 4 → Instr} {g f : W64 → W64}
    (hx : ∀ h a s, exec (mk h a) s = issue h false 1 true (alu2 g a a) s) (hg : ∀ x, g x = f x) : Alu1 mk f :=
  fun h a s => does_alu2 (hx h a s) hg

theorem aluImm_of_exec {n : Nat} {mk : Hd → BitVec 4 → BitVec n → Instr} {guarded : Bool} {g f : BitVec n → W64 → W64}
    (hx : ∀ h a k s, exec (mk h a k) s = issue h guarded 1 true (alu2 (g k) a a) s) (hg : ∀ k x, g k x = f k x) :
    AluImm mk guarded f :=
  fun h a k s => does_alu2 (hx h a k s) (hg k)

/-- Settles O1: each instruction issues one function of two registers, which is the exact one narrowed. -/
theorem threeRegisterResults : Obligations.ThreeRegisterResults :=
  ⟨fun _ _ _ _ => by (repeat refine opcodesOf_cons rfl (by decide) ?_); rfl,
   alu3_of_exec exec_add add_exact, alu3_of_exec exec_sub sub_exact, alu3_of_exec exec_and fun _ _ => rfl,
   alu3_of_exec exec_or fun _ _ => rfl, alu3_of_exec exec_xor fun _ _ => rfl,
   alu3_of_exec exec_shl fun x y => shiftLeft_exact x _, alu3_of_exec exec_shr fun x y => shiftRight_exact x _,
   alu3_of_exec exec_sar fun x y => sshiftRight_exact x _, alu3_of_exec exec_mul mul_exact,
   alu3_of_exec exec_mulh fun _ _ => rfl, alu3_of_exec exec_mulhu fun _ _ => rfl, alu3_of_exec exec_min smin_exact,
   alu3_of_exec exec_max smax_exact, alu3_of_exec exec_minu umin_exact, alu3_of_exec exec_maxu umax_exact,
   alu3_of_exec exec_rotl rotl_exact, alu3_of_exec exec_rotr rotr_exact, alu3_of_exec exec_div fun _ _ => rfl,
   alu3_of_exec exec_divu fun _ _ => rfl, alu3_of_exec exec_rem fun _ _ => rfl, alu3_of_exec exec_remu fun _ _ => rfl⟩

/-- The short forms of one register hold their idle count in two bits (R299, R336). -/
theorem shortForms_encode {h : Hd} (hh : h.idle.toNat < 4) (a : BitVec 4) :
    [Instr.inc h a, .dec h a, .neg h a, .not h a, .clr h a].map (fun i => i.encode.map BitVec.toNat)
      = [0x0800, 0x0C00, 0x1000, 0x1400, 0x1800].map fun base =>
          [base + h.idle.toNat * 0x100 + h.tok.toNat * 0x10 + a.toNat] := by
  change [[(shortWord 2 h a).toNat], [(shortWord 3 h a).toNat], [(shortWord 4 h a).toNat], [(shortWord 5 h a).toNat],
    [(shortWord 6 h a).toNat]] = _
  simp only [shortWord_toNat _ hh]
  rfl

/-- Settles O2: each instruction issues one function of one register, or writes a constant. -/
theorem oneRegisterResults : Obligations.OneRegisterResults :=
  ⟨fun _ _ _ _ => by (repeat refine opcodesOf_cons rfl (by decide) ?_); rfl,
   fun _ a hh => shortForms_encode hh a,
   alu2_of_exec exec_clz fun x => congrArg (BitVec.ofNat 64) (clzNat_eq_findIdx x.isLt),
   alu2_of_exec exec_ctz fun x => congrArg (BitVec.ofNat 64) (ctzNat_eq_findIdx 64 x.toNat),
   alu2_of_exec exec_popc fun x => congrArg (BitVec.ofNat 64) (popNat_eq_countP 64 x.toNat),
   alu2_of_exec exec_abs abs_exact,
   alu2_of_exec exec_sextB (sx_exact (by decide)), alu2_of_exec exec_sextH (sx_exact (by decide)),
   alu2_of_exec exec_sextW (sx_exact (by decide)), alu2_of_exec exec_zextB (zx_exact 8),
   alu2_of_exec exec_zextH (zx_exact 16), alu2_of_exec exec_zextW (zx_exact 32), alu2_of_exec exec_bswap bswap_exact,
   alu1_of_exec exec_inc fun x => add_exact x 1, alu1_of_exec exec_dec dec_exact, alu1_of_exec exec_neg neg_exact,
   alu1_of_exec exec_not not_exact,
   aluImm_of_exec exec_addi addi_exact, aluImm_of_exec exec_andi fun _ _ => rfl,
   aluImm_of_exec exec_ori fun _ _ => rfl, aluImm_of_exec exec_xori fun _ _ => rfl,
   aluImm_of_exec exec_shli shli_exact, aluImm_of_exec exec_shri shri_exact, aluImm_of_exec exec_sari sari_exact,
   aluImm_of_exec exec_movh movh_exact,
   fun h a k s => does_of_body (exec_movi h a k s) rfl, fun h a s => does_of_body (exec_clr h a s) rfl⟩

/-! ### Effective addresses (R328) -/

/-- The window address of a scalar access: x[B] + D·size, narrowed. -/
def scalarAddr (o : Owner) (b d : BitVec 4) (size : Nat) : Nat := ((rx o b).val.toNat + d.toNat * size) % 2 ^ 64

theorem toNat_ofNat_scalarAddr (o : Owner) (b d : BitVec 4) (size : Nat) :
    (BitVec.ofNat 64 (scalarAddr o b d size)).toNat = scalarAddr o b d size :=
  Nat.mod_eq_of_lt (Nat.mod_lt _ (by decide))

theorem effAddr_eq_scalarAddr (o : Owner) (b d : BitVec 4) (size : Nat) :
    effAddr (rx o b).val d size = BitVec.ofNat 64 (scalarAddr o b d size) := by
  apply BitVec.eq_of_toNat_eq
  rw [toNat_ofNat_scalarAddr, effAddr, BitVec.toNat_add, BitVec.toNat_ofNat, Nat.add_mod_mod, scalarAddr]

/-- An access of `size` bytes at a window address is aligned and ends inside the window (R328, R330). -/
def Placed (o : Owner) (size ea : Nat) : Prop := ea % size = 0 ∧ ea + size ≤ o.winSize

theorem placed_iff {o : Owner} {size ea : Nat} : Placed o size ea ↔ ¬ (ea % size ≠ 0 ∨ o.winSize < ea + size) := by
  rw [Placed]
  omega

/-! ### The line of a scalar access (R213, R214) -/

theorem lineErr_iff {k : CoreSt} {o : Owner} {ea : Nat} : lineErr k o (ea / 64) = true ↔ LineBad k o ea := by
  simp only [lineErr, List.any_eq_true, decide_eq_true_eq]
  rfl

theorem linePoison_iff {k : CoreSt} {o : Owner} {ea : Nat} : linePoison k o (ea / 64) = true ↔ LinePoisoned k o ea := by
  rw [linePoison, List.contains_iff_mem]
  rfl

theorem not_linesGood_of_fails {k : CoreSt} {o : Owner} {ea : Nat} (h : LineBad k o ea ∨ LinePoisoned k o ea) :
    ¬ LinesGood k o [ea / 64] := by
  intro hg
  obtain ⟨hw, hp⟩ := hg _ (List.mem_singleton_self _)
  rcases h with ⟨w, hmem, hline⟩ | hpoison
  · exact hw w hmem hline
  · exact hp hpoison

theorem readable_of_lineBad {k : CoreSt} {o : Owner} {ea : Nat} (h : LineBad k o ea) :
    readable k o [ea / 64] = .error { cause := .operandParity, addr := bv 64 (64 * (ea / 64)) } := by
  simp only [readable, List.find?_cons, lineErr_iff.2 h]

theorem readable_of_linePoisoned {k : CoreSt} {o : Owner} {ea : Nat} (h : ¬ LineBad k o ea) (hp : LinePoisoned k o ea) :
    readable k o [ea / 64] = .error { cause := .transferUncorrectable, addr := bv 64 (64 * (ea / 64)) } := by
  have he : lineErr k o (ea / 64) = false := by rw [← Bool.not_eq_true, lineErr_iff]; exact h
  simp only [readable, List.find?_cons, List.find?_nil, he, linePoison_iff.2 hp]

/-! ### What an owner's load answers (R328, R329) -/

section OwnerLoad

variable {size : Nat} {ext : W64 → W64} {spec : Bool} {a b d : BitVec 4} {k : CoreSt} {o : Owner}

theorem ownerLoad_poisoned_base (hp : (rx o b).poison = true) :
    ownerLoad size ext spec a b d k o = .ok { effs := [(4, .x a (rx o b))] } := by
  simp only [ownerLoad, hp, if_true]

variable (hp : (rx o b).poison = false)
include hp

theorem ownerLoad_misplaced (h : ¬ Placed o size (scalarAddr o b d size)) : ownerLoad size ext spec a b d k o =
    if spec then .ok { effs := [(4, .x a { val := BitVec.ofNat 64 (scalarAddr o b d size), poison := true })] }
    else .error { cause := .windowFault, addr := BitVec.ofNat 64 (scalarAddr o b d size) } := by
  simp only [ownerLoad, hp, effAddr_eq_scalarAddr, toNat_ofNat_scalarAddr, if_pos (placed_iff.not_left.1 h),
    Bool.false_eq_true, if_false]

variable (hin : Placed o size (scalarAddr o b d size))
include hin

theorem ownerLoad_good {ports : List Port} (hr : readable k o [scalarAddr o b d size / 64] = .ok ())
    (hb : takePorts o.ports [scalarAddr o b d size / 64] false = .ok ports) : ownerLoad size ext spec a b d k o =
      .ok { effs := [(4, .x a (clean (ext (bv 64 (leNat (winBytes k o (scalarAddr o b d size) size))))))],
            ports := ports } := by
  simp only [ownerLoad, hp, effAddr_eq_scalarAddr, toNat_ofNat_scalarAddr, if_neg (placed_iff.1 hin),
    Bool.false_eq_true, if_false, hr, hb]

/-- A line that cannot be read stops a load, whose fault shows the address itself. -/
theorem ownerLoad_unreadable {c : Cause} {v : W64}
    (hr : readable k o [scalarAddr o b d size / 64] = .error { cause := c, addr := v }) :
    ownerLoad size ext false a b d k o = .error { cause := c, addr := BitVec.ofNat 64 (scalarAddr o b d size) } := by
  simp only [ownerLoad, hp, effAddr_eq_scalarAddr, toNat_ofNat_scalarAddr, if_neg (placed_iff.1 hin),
    Bool.false_eq_true, if_false, hr]

/-- LDS.D turns the same line into poison that holds the address. -/
theorem ownerLoad_spec_unreadable {e : Bad} {ports : List Port}
    (hr : readable k o [scalarAddr o b d size / 64] = .error e)
    (hb : takePorts o.ports [scalarAddr o b d size / 64] false = .ok ports) : ownerLoad size ext true a b d k o =
      .ok { effs := [(4, .x a { val := BitVec.ofNat 64 (scalarAddr o b d size), poison := true })],
            ports := ports } := by
  simp only [ownerLoad, hp, effAddr_eq_scalarAddr, toNat_ofNat_scalarAddr, if_neg (placed_iff.1 hin),
    Bool.false_eq_true, if_false, hr, hb]

theorem ownerLoad_bank_taken {e : Bad} (hr : readable k o [scalarAddr o b d size / 64] = .ok () ∨ spec = true)
    (hb : takePorts o.ports [scalarAddr o b d size / 64] false = .error e) :
    ownerLoad size ext spec a b d k o = .error e := by
  rcases hr with hr | rfl
  · simp only [ownerLoad, hp, effAddr_eq_scalarAddr, toNat_ofNat_scalarAddr, if_neg (placed_iff.1 hin),
      Bool.false_eq_true, if_false, hr, hb]
  · cases hr : readable k o [scalarAddr o b d size / 64] <;>
      simp only [ownerLoad, hp, effAddr_eq_scalarAddr, toNat_ofNat_scalarAddr, if_neg (placed_iff.1 hin),
        Bool.false_eq_true, if_false, hr, hb]

end OwnerLoad

/-! ### Loads of the control stream -/

section

variable {i : Instr} {h : Hd} {size : Nat} {g : W64 → W64} {spec : Bool} {a b d : BitVec 4} {s : State}
  (hx : exec i s = issue h true 1 true (load size g spec a b d) s)
include hx

theorem does_of_load {effs : List (Nat × Effect)} {ports : List Port}
    (hl : ownerLoad size g spec a b d s.curCore s.curOwner = .ok { effs := effs, ports := ports }) :
    Does i h true 1 effs ports s :=
  fun hr => does_of_body hx ((if_neg hr.slot).trans hl) hr

theorem faults_of_load {e : Bad} (hl : ownerLoad size g spec a b d s.curCore s.curOwner = .error e) :
    Faults i h true e s :=
  fun hr => faults_of_body hx ((if_neg hr.slot).trans hl) hr

end

theorem loads_of_exec {mk : Hd → BitVec 4 → BitVec 4 → BitVec 4 → Instr} {size : Nat} {g : W64 → W64} {spec : Bool}
    {ext : Nat → W64} (hx : ∀ h a b d s, exec (mk h a b d) s = issue h true 1 true (load size g spec a b d) s)
    (hg : ∀ n, g (BitVec.ofNat 64 n) = ext n) : Loads mk size ext := by
  obtain rfl : (fun n => g (BitVec.ofNat 64 n)) = ext := funext hg
  exact fun h a b d s hp hal hin hl hb =>
    does_of_load (hx h a b d s) (ownerLoad_good hp ⟨hal, hin⟩ (readable_ok hl) (takePorts_ok hb))

theorem loadStops_of_exec {mk : Hd → BitVec 4 → BitVec 4 → BitVec 4 → Instr} {size : Nat} {g : W64 → W64}
    (hx : ∀ h a b d s, exec (mk h a b d) s = issue h true 1 true (load size g false a b d) s) : LoadStops mk size := by
  intro h a b d s o k ea va inside
  have hx := hx h a b d s
  refine ⟨fun hp => ?base, fun hp hout => ?address, fun hp hin hbad _ _ => ?parity, fun hp hin hgood hpoi _ => ?poison,
    fun hp hin hl hb => ?bank⟩
  case base => exact does_of_load hx (ownerLoad_poisoned_base hp)
  case address => exact faults_of_load hx (ownerLoad_misplaced hp hout)
  case parity => exact faults_of_load hx (ownerLoad_unreadable hp hin (readable_of_lineBad hbad))
  case poison => exact faults_of_load hx (ownerLoad_unreadable hp hin (readable_of_linePoisoned hgood hpoi))
  case bank =>
    obtain ⟨v, hv⟩ := takePorts_bad hb
    exact ⟨v, faults_of_load hx (ownerLoad_bank_taken hp hin (.inl (readable_ok hl)) hv)⟩

theorem sx_ofNat {n : Nat} (hn : n ≤ 64) (v : Nat) :
    sx n (BitVec.ofNat 64 v) = BitVec.ofInt 64 (BitVec.ofNat n v).toInt := by
  rw [sx, BitVec.setWidth_ofNat_of_le hn, BitVec.signExtend]

/-- Settles O9: a load of a readable line on a free bank writes the bytes at its address, extended. -/
theorem scalarLoads : Obligations.ScalarLoads :=
  ⟨fun _ _ _ _ => by (repeat refine opcodesOf_cons rfl (by decide) ?_); rfl,
   loads_of_exec exec_ldB (sx_ofNat (by decide)), loads_of_exec exec_ldBu fun _ => rfl,
   loads_of_exec exec_ldH (sx_ofNat (by decide)), loads_of_exec exec_ldHu fun _ => rfl,
   loads_of_exec exec_ldW (sx_ofNat (by decide)), loads_of_exec exec_ldWu fun _ => rfl,
   loads_of_exec exec_ldD fun _ => rfl, loads_of_exec exec_ldsD fun _ => rfl⟩

/-- Settles O10: each check of a load in turn, LDS.D giving poison where the others fault on the address or the line. -/
theorem loadFaults : Obligations.LoadFaults := by
  refine ⟨loadStops_of_exec exec_ldB, loadStops_of_exec exec_ldBu, loadStops_of_exec exec_ldH,
    loadStops_of_exec exec_ldHu, loadStops_of_exec exec_ldW, loadStops_of_exec exec_ldWu, loadStops_of_exec exec_ldD,
    fun h a b d s => ?_⟩
  have hx := exec_ldsD h a b d s
  refine ⟨fun hp => ?base, fun hp hout => ?address, fun hp hin hbad hb => ?line, fun hp hin hb => ?bank⟩
  case base => exact does_of_load hx (ownerLoad_poisoned_base hp)
  case address => exact does_of_load hx (ownerLoad_misplaced hp hout)
  case line =>
    obtain ⟨_, _, _, hr⟩ := readable_bad (not_linesGood_of_fails hbad)
    exact does_of_load hx (ownerLoad_spec_unreadable hp hin hr (takePorts_ok hb))
  case bank =>
    obtain ⟨v, hv⟩ := takePorts_bad hb
    exact ⟨v, faults_of_load hx (ownerLoad_bank_taken hp hin (.inr rfl) hv)⟩

/-! ### Stores of the control stream (R330) -/

theorem stored_bytes (size ea : Nat) (x : W64) :
    ((List.range size).zip (natLe size x.toNat)).map (fun (i, v) => (ea + i, v)) =
      (List.range size).map fun i => (ea + i, x.extractLsb' (8 * i) 8) := by
  have hzip := List.zip_map' (l := List.range size) (f := id) (g := fun i => x.extractLsb' (8 * i) 8)
  rw [List.map_id] at hzip
  rw [natLe_toNat, hzip, List.map_map]
  rfl

section Store

variable {size : Nat} {a b d : BitVec 4} {s : State} {o : Owner} (hs : s.cur.str ≠ .f)
include hs

theorem store_poisoned_base (hb : (rx o b).poison = true) :
    store size a b d s o = .error { cause := .poisonConsumed, addr := (rx o b).val } := by
  simp only [store, if_neg hs, needClean_bad hb, error_bind]

variable (hb : (rx o b).poison = false)
include hb

theorem store_poisoned_data (ha : (rx o a).poison = true) :
    store size a b d s o = .error { cause := .poisonConsumed, addr := (rx o a).val } := by
  simp only [store, if_neg hs, needClean_ok hb, needClean_bad ha, ok_bind, error_bind]

variable (ha : (rx o a).poison = false)
include ha

theorem store_misplaced (h : ¬ Placed o size (scalarAddr o b d size)) : store size a b d s o =
    .error { cause := .windowFault, addr := BitVec.ofNat 64 (scalarAddr o b d size) } := by
  simp only [store, if_neg hs, needClean_ok hb, needClean_ok ha, ok_bind, effAddr_eq_scalarAddr, toNat_ofNat_scalarAddr,
    if_pos (placed_iff.not_left.1 h), error_bind]

variable (hin : Placed o size (scalarAddr o b d size))
include hin

/-- Once its registers and its address are in order, a store depends on its bank port alone. -/
theorem store_placed : store size a b d s o =
    takePorts o.ports [scalarAddr o b d size / 64] true >>= fun ports =>
      .ok { effs := [(1, .win ((List.range size).map fun i =>
              (scalarAddr o b d size + i, (rx o a).val.extractLsb' (8 * i) 8)))],
            ports := ports } := by
  simp only [store, if_neg hs, needClean_ok hb, needClean_ok ha, ok_bind, effAddr_eq_scalarAddr, toNat_ofNat_scalarAddr,
    if_neg (placed_iff.1 hin), stored_bytes]

theorem store_good {ports : List Port} (hp : takePorts o.ports [scalarAddr o b d size / 64] true = .ok ports) :
    store size a b d s o =
      .ok { effs := [(1, .win ((List.range size).map fun i =>
              (scalarAddr o b d size + i, (rx o a).val.extractLsb' (8 * i) 8)))],
            ports := ports } := by
  rw [store_placed hs hb ha hin, hp, ok_bind]

theorem store_bank_taken {e : Bad} (hp : takePorts o.ports [scalarAddr o b d size / 64] true = .error e) :
    store size a b d s o = .error e := by
  rw [store_placed hs hb ha hin, hp, error_bind]

end Store

theorem stores_of_exec {mk : Hd → BitVec 4 → BitVec 4 → BitVec 4 → Instr} {size : Nat}
    (hx : ∀ h a b d s, exec (mk h a b d) s = issue h true 1 true (store size a b d) s) : Stores mk size := by
  intro h a b d s o ea hb ha hal hin hbank hr
  exact does_of_body (hx h a b d s) (store_good hr.slot hb ha ⟨hal, hin⟩ (takePorts_ok hbank)) hr

theorem storeStops_of_exec {mk : Hd → BitVec 4 → BitVec 4 → BitVec 4 → Instr} {size : Nat}
    (hx : ∀ h a b d s, exec (mk h a b d) s = issue h true 1 true (store size a b d) s) : StoreStops mk size := by
  intro h a b d s o ea inside
  have hx := hx h a b d s
  refine ⟨fun hb hr => ?base, fun hb ha hr => ?data, fun hb ha hout hr => ?address, fun hb ha hin hbank => ?bank⟩
  case base => exact faults_of_body hx (store_poisoned_base hr.slot hb) hr
  case data => exact faults_of_body hx (store_poisoned_data hr.slot hb ha) hr
  case address => exact faults_of_body hx (store_misplaced hr.slot hb ha hout) hr
  case bank =>
    obtain ⟨v, hv⟩ := takePorts_bad hbank
    exact ⟨v, fun hr => faults_of_body hx (store_bank_taken hr.slot hb ha hin hv) hr⟩

/-- Settles O11: a store writes its bytes on a free bank, and the first check that fails is its fault. -/
theorem scalarStores : Obligations.ScalarStores :=
  ⟨fun _ _ _ _ => by (repeat refine opcodesOf_cons rfl (by decide) ?_); rfl,
   stores_of_exec exec_stB, stores_of_exec exec_stH, stores_of_exec exec_stW, stores_of_exec exec_stD,
   storeStops_of_exec exec_stB, storeStops_of_exec exec_stH, storeStops_of_exec exec_stW, storeStops_of_exec exec_stD⟩

end Sys2Proof.Laws.ControlScalar
end

section
/-! PROOF. The vector stream lane by lane: integer operations in exact arithmetic narrowed to 32 bits (R384-R387), moves
(R389, R390), compares (R388) and masks (R391-R393). -/

namespace Sys2Proof.Laws.VectorLanes

open Machine Laws.ControlScalar

/-! ### Instructions that write lanes (R377-R379) -/

/-- The parity check of the registers that an instruction reads in the active lanes. -/
theorem needParity_active {k : CoreSt} {o : Owner} {reads : List (BitVec 4)} (hg : ∀ r ∈ reads, LanesGood k o r o.lam) :
    needParity k o (reads.map fun r => (r, active o)) = .ok () :=
  needParity_ok (List.forall_mem_map.2 hg)

theorem vecWrites_of_exec {i : Instr} {h : Hd} {guarded : Bool} {occ lat : Nat} {a : BitVec 4} {reads : List (BitVec 4)}
    {g : CoreSt → Owner → Nat → W32} {f : (BitVec 4 → Nat → W32) → Nat → W32} {s : State}
    (hx : exec i s = issue h guarded occ false (vecOp lat a reads g) s)
    (hg : g s.curCore s.curOwner = f fun r l => cget (vlanes s.curCore s.curOwner r) l) :
    VecWrites i h guarded occ lat a reads f s := by
  intro hgood
  refine does_of_body hx ?_
  rw [← hg]
  simp only [vecOp, needParity_active hgood, ok_bind]
  rfl

section Forms

variable {occ lat : Nat}

theorem vec1_of_exec {mk : Hd → BitVec 4 → BitVec 4 → Instr} {g f : W32 → W32}
    (hx : ∀ h a b s, exec (mk h a b) s = issue h true occ false (vec1 lat g a b) s) (hg : ∀ x, g x = f x) :
    Vec1 mk occ lat f := by
  obtain rfl : g = f := funext hg
  exact fun h a b s => vecWrites_of_exec (hx h a b s) rfl

theorem vec2_of_exec {mk : Hd → BitVec 4 → BitVec 4 → BitVec 4 → Instr} {g f : W32 → W32 → W32}
    (hx : ∀ h a b c s, exec (mk h a b c) s = issue h true occ false (vec2 lat g a b c) s) (hg : ∀ x y, g x y = f x y) :
    Vec2 mk occ lat f := by
  obtain rfl : g = f := funext₂ hg
  exact fun h a b c s => vecWrites_of_exec (hx h a b c s) rfl

theorem vec3_of_exec {mk : Hd → BitVec 4 → BitVec 4 → BitVec 4 → Instr} {g f : W32 → W32 → W32 → W32}
    (hx : ∀ h a b c s, exec (mk h a b c) s = issue h true occ false (vec3 lat g a b c) s)
    (hg : ∀ x y z, g x y z = f x y z) : Vec3 mk occ lat f := by
  obtain rfl : g = f := funext₃ hg
  exact fun h a b c s => vecWrites_of_exec (hx h a b c s) rfl

end Forms

/-! ### Values of lanes (R384) -/

section Exact

variable {w : Nat}

theorem ofNat_toNat_eq (x : BitVec w) : BitVec.ofNat w x.toNat = x := by rw [BitVec.ofNat_toNat, BitVec.setWidth_eq]

theorem sub_eq_ofInt (x y : BitVec w) : x - y = BitVec.ofInt w ((x.toNat : Int) - y.toNat) := by
  rw [Int.sub_eq_add_neg, BitVec.ofInt_add, BitVec.ofInt_neg, BitVec.ofInt_natCast, BitVec.ofInt_natCast,
    ofNat_toNat_eq, ofNat_toNat_eq, BitVec.sub_eq_add_neg]

theorem mul_eq_ofNat (x y : BitVec w) : x * y = BitVec.ofNat w (x.toNat * y.toNat) := by
  rw [BitVec.ofNat_mul, ofNat_toNat_eq, ofNat_toNat_eq]

theorem shiftLeft_eq_ofNat (x : BitVec w) (n : Nat) : x <<< n = BitVec.ofNat w (x.toNat * 2 ^ n) :=
  BitVec.eq_of_toNat_eq (by simp [Nat.shiftLeft_eq])

theorem ushiftRight_eq_ofNat (x : BitVec w) (n : Nat) : x >>> n = BitVec.ofNat w (x.toNat / 2 ^ n) := by
  rw [← Nat.shiftRight_eq_div_pow, ← BitVec.toNat_ushiftRight, ofNat_toNat_eq]

theorem sshiftRight_eq_ofInt (x : BitVec w) (n : Nat) : x.sshiftRight n = BitVec.ofInt w (x.toInt / 2 ^ n) := by
  rw [BitVec.sshiftRight_eq, Int.shiftRight_eq_div_pow, Nat.cast_pow, Nat.cast_ofNat]

theorem not_eq_ofNat (x : BitVec w) : ~~~x = BitVec.ofNat w (2 ^ w - 1 - x.toNat) := by
  rw [← BitVec.toNat_not, ofNat_toNat_eq]

theorem ite_neg_eq_natAbs (x : BitVec w) : (if x.toInt < 0 then -x else x) = BitVec.ofNat w x.toInt.natAbs := by
  split
  next hneg => rw [← BitVec.ofInt_natCast, Int.ofNat_natAbs_of_nonpos (by omega), BitVec.ofInt_neg, BitVec.ofInt_toInt]
  next hpos => rw [← BitVec.ofInt_natCast, Int.natAbs_of_nonneg (by omega), BitVec.ofInt_toInt]

/-- Choosing a word by the order of values that determine it is narrowing the smaller value. -/
theorem ite_le_eq_min {α : Type} [LinearOrder α] {val : BitVec w → α} {narrow : α → BitVec w}
    (hv : ∀ x, narrow (val x) = x) (x y : BitVec w) : (if val x ≤ val y then x else y) = narrow (min (val x) (val y)) := by
  rw [min_def, apply_ite narrow, hv, hv]

theorem ite_le_eq_max {α : Type} [LinearOrder α] {val : BitVec w → α} {narrow : α → BitVec w}
    (hv : ∀ x, narrow (val x) = x) (x y : BitVec w) : (if val x ≤ val y then y else x) = narrow (max (val x) (val y)) := by
  rw [max_def, apply_ite narrow, hv, hv]

end Exact

theorem sat32_eq (v : Int) : sat32 v = BitVec.ofInt 32 (max (-2 ^ 31) (min (2 ^ 31 - 1) v)) := by
  rw [min_comm]
  rfl

theorem dot4_eq (x y acc : W32) : dot4 x y acc = BitVec.ofInt 32 (acc.toInt
    + (x.extractLsb' 0 8).toInt * (y.extractLsb' 0 8).toInt + (x.extractLsb' 8 8).toInt * (y.extractLsb' 8 8).toInt
    + (x.extractLsb' 16 8).toInt * (y.extractLsb' 16 8).toInt + (x.extractLsb' 24 8).toInt * (y.extractLsb' 24 8).toInt) := by
  simp only [dot4, List.range_succ, List.range_zero, List.nil_append, List.cons_append, List.foldl_cons, List.foldl_nil]

/-- A shift count of five bits is below 32 already. -/
theorem setWidth_mod_32 (k : BitVec 5) : (k.setWidth 32).toNat % 32 = k.toNat := by
  rw [BitVec.toNat_setWidth]
  omega

theorem shl32_const (x : W32) (k : BitVec 5) : shl32 x (k.setWidth 32) = BitVec.ofNat 32 (x.toNat * 2 ^ k.toNat) := by
  rw [shl32, setWidth_mod_32, shiftLeft_eq_ofNat]

theorem shr32_const (x : W32) (k : BitVec 5) : shr32 x (k.setWidth 32) = BitVec.ofNat 32 (x.toNat / 2 ^ k.toNat) := by
  rw [shr32, setWidth_mod_32, ushiftRight_eq_ofNat]

theorem sar32_const (x : W32) (k : BitVec 5) : sar32 x (k.setWidth 32) = BitVec.ofInt 32 (x.toInt / 2 ^ k.toNat) := by
  rw [sar32, setWidth_mod_32, sshiftRight_eq_ofInt]

/-! ### Bits reversed and carry-less products (R386) -/

/-- Bits pushed in one after the other stand in the opposite order. -/
theorem testBit_foldl_push (bit : Nat → Bool) (n i : Nat) :
    ((List.range n).foldl (fun v b => 2 * v + b01 (bit b)) 0).testBit i = (decide (i < n) && bit (n - 1 - i)) := by
  induction n generalizing i with
  | zero => simp
  | succ n ih =>
    rw [List.range_succ, List.foldl_concat]
    cases i with
    | zero => cases hb : bit n <;> simp [b01, hb, Nat.testBit_zero]
    | succ i =>
      have hlow : b01 (bit n) < 2 := by unfold b01; split <;> decide
      rw [Nat.testBit_succ, show ∀ v, (2 * v + b01 (bit n)) / 2 = v by omega, ih]
      simp [Nat.sub_sub, Nat.add_comm]

theorem brev32_eq (x : W32) : brev32 x = x.reverse := by
  apply BitVec.eq_of_getLsbD_eq
  intro i hi
  rw [brev32, bv, BitVec.getLsbD_ofNat, testBit_foldl_push, BitVec.getLsbD_reverse, BitVec.getMsbD]
  simp

/-- Whether places `t` and `n - t` of two words both hold a one bit. -/
def onePair (x y : W32) (n t : Nat) : Bool := x.getLsbD t && decide (t ≤ n) && y.getLsbD (n - t)

/-- The partial products added without carries: a bit is the parity of its pairs so far. -/
theorem getLsbD_foldl_clmul (x y : W32) {j : Nat} (hj : j < 64) (ts : List Nat) (p : W64) :
    (ts.foldl (fun p t => if x.getLsbD t then p ^^^ (y.setWidth 64 <<< t) else p) p).getLsbD j =
      (p.getLsbD j ^^ decide (ts.countP (onePair x y j) % 2 = 1)) := by
  induction ts generalizing p with
  | nil => simp
  | cons t ts ih =>
    have hstep : (if x.getLsbD t then p ^^^ (y.setWidth 64 <<< t) else p).getLsbD j = (p.getLsbD j ^^ onePair x y j t) := by
      split
      next hx =>
        have hle : decide (t ≤ j) = !decide (j < t) := by rw [← decide_not, decide_eq_decide, Nat.not_lt]
        simp [onePair, hx, hj, hle]
      next hx => simp [onePair, hx]
    rw [List.foldl_cons, ih, hstep, List.countP_cons]
    cases onePair x y j t with
    | false => simp
    | true =>
      have hodd : decide ((ts.countP (onePair x y j) + 1) % 2 = 1) = !decide (ts.countP (onePair x y j) % 2 = 1) := by
        rw [← decide_not, decide_eq_decide]
        omega
      simp [hodd]

theorem getLsbD_clmul (x y : W32) {j : Nat} (hj : j < 64) :
    (clmul x y).getLsbD j = decide ((List.range 32).countP (onePair x y j) % 2 = 1) := by
  rw [clmul, getLsbD_foldl_clmul x y hj]
  simp

theorem getLsbD_clmulL (x y : W32) {j : Nat} (hj : j < 32) :
    (clmulL x y).getLsbD j = decide ((List.range 32).countP (onePair x y j) % 2 = 1) := by
  rw [clmulL, BitVec.getLsbD_setWidth, decide_eq_true hj, Bool.true_and, getLsbD_clmul x y (by omega)]

theorem getLsbD_clmulH (x y : W32) {j : Nat} (hj : j < 32) :
    (clmulH x y).getLsbD j = decide ((List.range 32).countP (onePair x y (j + 32)) % 2 = 1) := by
  rw [clmulH, BitVec.getLsbD_setWidth, decide_eq_true hj, Bool.true_and, BitVec.getLsbD_ushiftRight, Nat.add_comm,
    getLsbD_clmul x y (by omega)]

/-- Settles O20: each instruction issues one function of the lanes, which is the exact one narrowed. -/
theorem vectorIntegerResults : Obligations.VectorIntegerResults :=
  ⟨fun _ _ _ _ => by (repeat refine opcodesOf_cons rfl (by decide) ?_); rfl,
   ⟨vec2_of_exec exec_vadd fun _ _ => rfl, vec2_of_exec exec_vsub sub_eq_ofInt,
    vec2_of_exec exec_vadds fun _ _ => sat32_eq _, vec2_of_exec exec_vsubs fun _ _ => sat32_eq _,
    vec2_of_exec exec_vmul mul_eq_ofNat, vec2_of_exec exec_vmulh fun _ _ => rfl,
    vec2_of_exec exec_vmin (ite_le_eq_min fun _ => BitVec.ofInt_toInt),
    vec2_of_exec exec_vmax (ite_le_eq_max fun _ => BitVec.ofInt_toInt),
    vec2_of_exec exec_vminu (ite_le_eq_min ofNat_toNat_eq), vec2_of_exec exec_vmaxu (ite_le_eq_max ofNat_toNat_eq),
    vec1_of_exec exec_vabs ite_neg_eq_natAbs, vec2_of_exec exec_vand fun _ _ => rfl, vec2_of_exec exec_vor fun _ _ => rfl,
    vec2_of_exec exec_vxor fun _ _ => rfl, vec1_of_exec exec_vnot not_eq_ofNat,
    vec2_of_exec exec_vshl fun x _ => shiftLeft_eq_ofNat x _, vec2_of_exec exec_vshr fun x _ => ushiftRight_eq_ofNat x _,
    vec2_of_exec exec_vsar fun x _ => sshiftRight_eq_ofInt x _,
    vec1_of_exec exec_vpopc fun x => congrArg (BitVec.ofNat 32) (popNat_eq_countP 32 x.toNat),
    vec1_of_exec exec_vclz fun x => congrArg (BitVec.ofNat 32) (clzNat_eq_findIdx x.isLt),
    vec1_of_exec exec_vctz fun x => congrArg (BitVec.ofNat 32) (ctzNat_eq_findIdx 32 x.toNat),
    vec1_of_exec exec_vbrev brev32_eq, vec2_of_exec exec_vclmulL fun _ _ => rfl,
    vec2_of_exec exec_vclmulH fun _ _ => rfl, vec3_of_exec exec_vdot4I8 dot4_eq,
    fun h a b k s => vecWrites_of_exec (exec_vshli h a b k s) (funext fun _ => shl32_const _ k),
    fun h a b k s => vecWrites_of_exec (exec_vshri h a b k s) (funext fun _ => shr32_const _ k),
    fun h a b k s => vecWrites_of_exec (exec_vsari h a b k s) (funext fun _ => sar32_const _ k)⟩,
   fun x y _ hj => ⟨getLsbD_clmulL x y hj, getLsbD_clmulH x y hj⟩⟩

/-! ### Moves (R389, R390) -/

/-- A lane's mask bit matches SENSE 0 where it is 1, and SENSE 1 where it is 0 (R303). -/
theorem senseMatch_iff (o : Owner) (m : BitVec 3) (sn : BitVec 1) (l : Nat) :
    senseMatch o m sn l = true ↔ (rmask o m).getLsbD l = decide (sn = 0) := by
  have hsn : sn = 0 ∨ sn = 1 := by bv_omega
  rcases hsn with rfl | rfl <;> simp [senseMatch]

/-- VSEL needs the parity of its mask as well as that of its lanes. -/
theorem vsel_writes (h : Hd) (a b c : BitVec 4) (sn : BitVec 1) (m : BitVec 3) (s : State) (hm : MaskGood s.curOwner m) :
    VecWrites (.vsel h a b c sn m) h false 1 2 a [b, c]
      (fun v l => if (rmask s.curOwner m).getLsbD l = decide (sn = 0) then v b l else v c l) s := by
  intro hgood
  refine does_of_body (exec_vsel h a b c sn m s) ?_
  have hpar : needParity s.curCore s.curOwner [(b, active s.curOwner), (c, active s.curOwner)] = .ok () :=
    needParity_active hgood
  have hmask : needMask s.curOwner [m] = .ok () := needMask_ok (List.forall_mem_singleton.2 hm)
  simp only [hpar, hmask, ok_bind, ← senseMatch_iff]
  rfl

/-- The short form VZERO holds its idle count in two bits (R299). -/
theorem vzero_encode {h : Hd} (hh : h.idle.toNat < 4) (a : BitVec 4) : (Instr.vzero h a).encode.map BitVec.toNat =
    [0x0800 + h.idle.toNat * 0x100 + h.tok.toNat * 0x10 + a.toNat] :=
  congrArg (fun n => [n]) (shortWord_toNat 2 hh a)

/-- Settles O21: each move issues one value of every lane, and VSEL chooses by the mask bit. -/
theorem vectorMoves : Obligations.VectorMoves :=
  ⟨fun _ a _ _ => ⟨by (repeat refine opcodesOf_cons rfl (by decide) ?_); rfl, fun hh => vzero_encode hh a⟩,
   vec1_of_exec exec_vmov fun _ => rfl, fun h a b s => vecWrites_of_exec (exec_vspl h a b s) rfl,
   fun h a k s => vecWrites_of_exec (exec_vimm h a k s) rfl, fun h a s => vecWrites_of_exec (exec_vzero h a s) rfl,
   fun h a s => vecWrites_of_exec (exec_vidx h a s) rfl, vsel_writes⟩

/-! ### Compares (R388) -/

theorem vecCmp_of_exec {mk : Hd → BitVec 3 → BitVec 4 → BitVec 4 → Instr} {f : W32 → W32 → Bool}
    (hx : ∀ h a b c s, exec (mk h a b c) s = issue h true 1 false (vecCmp f a b c) s) : VecCmp mk f := by
  intro h a b c s o k hb hc
  refine does_of_body (hx h a b c s) ?_
  have hgood : ∀ r ∈ [b, c], LanesGood k o r o.lam := by simp [hb, hc]
  exact congrArg₂ (· >>= ·) (needParity_active hgood) rfl

/-- Settles O25: each compare issues its condition lane by lane. -/
theorem vectorCompares : Obligations.VectorCompares :=
  ⟨fun _ _ _ _ => by (repeat refine opcodesOf_cons rfl (by decide) ?_); rfl,
   vecCmp_of_exec exec_vfcmpEq, vecCmp_of_exec exec_vfcmpNe, vecCmp_of_exec exec_vfcmpLt, vecCmp_of_exec exec_vfcmpLe,
   vecCmp_of_exec exec_vfcmpUn, vecCmp_of_exec exec_vcmpEq, vecCmp_of_exec exec_vcmpNe, vecCmp_of_exec exec_vcmpLt,
   vecCmp_of_exec exec_vcmpLe, vecCmp_of_exec exec_vcmpLtu, vecCmp_of_exec exec_vcmpLeu⟩

end Sys2Proof.Laws.VectorLanes
end

section
/-! PROOF. The masks of the vector stream (R391-R393): logic, VANY and VALL over the active lanes, VLAM, and the moves of
masks to and from registers. -/

namespace Sys2Proof.Laws.VectorMasks

open Machine Laws.ControlScalar

theorem maskWrites_of_exec {i : Instr} {h : Hd} {a : BitVec 3} {reads : List (BitVec 3)} {g : Owner → LaneMask}
    {val : LaneMask} {s : State} (hx : exec i s = issue h true 1 false (maskOp g a reads) s) (hg : g s.curOwner = val) :
    MaskWrites i h a reads val s := by
  subst hg
  exact fun hgood => does_of_body hx (congrArg₂ (· >>= ·) (needMask_ok hgood) rfl)

theorem needMask_one {o : Owner} {b : BitVec 3} (h : MaskGood o b) : needMask o [b] = .ok () :=
  needMask_ok (List.forall_mem_singleton.2 h)

/-- A mask has no bit in an active lane just where it meets the lane-activity mask in none. -/
theorem and_active_eq_zero_iff {o : Owner} {m : LaneMask} :
    m &&& active o = 0 ↔ ¬ ∃ l < 1024, o.lam.getLsbD l = true ∧ m.getLsbD l = true := by
  refine BitVec.zero_iff_eq_false.trans ⟨fun h0 ⟨l, _, hact, hm⟩ => ?meets, fun hne l => ?empty⟩
  case meets =>
    refine Bool.false_ne_true ((h0 l).symm.trans ?_)
    rw [BitVec.getLsbD_and, hm, active, hact, Bool.and_self]
  case empty =>
    rw [← Bool.not_eq_true, BitVec.getLsbD_and, Bool.and_eq_true]
    exact fun ⟨hm, hact⟩ => hne ⟨l, BitVec.lt_of_getLsbD hact, hact, hm⟩

theorem not_and_active_eq_zero_iff {o : Owner} {m : LaneMask} :
    ~~~m &&& active o = 0 ↔ ∀ l < 1024, o.lam.getLsbD l = true → m.getLsbD l = true := by
  rw [and_active_eq_zero_iff, not_exists]
  refine forall_congr' fun l => ?_
  rw [not_and]
  refine imp_congr_right fun hl => ?_
  rw [BitVec.getLsbD_not, decide_eq_true hl, Bool.true_and, not_and, Bool.not_eq_true', Bool.not_eq_false]

/-- Settles O26: VANY and VALL ask whether a mask, or its complement, has a bit in an active lane. -/
theorem maskResults : Obligations.MaskResults := by
  intro h a b c v s o k some1 all1
  refine ⟨by (repeat refine opcodesOf_cons rfl (by decide) ?_); rfl,
    maskWrites_of_exec (exec_mand h a b c s) rfl, maskWrites_of_exec (exec_mor h a b c s) rfl,
    maskWrites_of_exec (exec_mxor h a b c s) rfl, maskWrites_of_exec (exec_mnot h a b s) rfl,
    fun hs => maskWrites_of_exec (exec_vany h a b s) (if_neg fun h0 => and_active_eq_zero_iff.1 h0 hs),
    fun hs => maskWrites_of_exec (exec_vany h a b s) (if_pos (and_active_eq_zero_iff.2 hs)),
    fun ha => maskWrites_of_exec (exec_vall h a b s) (if_pos (not_and_active_eq_zero_iff.2 ha)),
    fun ha => maskWrites_of_exec (exec_vall h a b s) (if_neg fun h0 => ha (not_and_active_eq_zero_iff.1 h0)),
    fun hm => does_of_body (exec_vlam h b s) ?lam, fun hm => does_of_body (exec_vmpack h v b s) ?pack,
    fun hl => does_of_body (exec_vmunpk h a v s) ?unpack⟩
  case lam => exact congrArg₂ (· >>= ·) (needMask_one hm) rfl
  case pack => exact congrArg₂ (· >>= ·) (needMask_one hm) rfl
  case unpack => exact congrArg₂ (· >>= ·) (needParity_ok (List.forall_mem_singleton.2 hl)) rfl

end Sys2Proof.Laws.VectorMasks
end

section
/-! PROOF. The operations across lanes (R380): what one reads for the active lanes, when it faults, and the fixed pairwise
tree (R400) and the inclusive sequential scan (R401) of a row or a column. -/

namespace Sys2Proof.Laws.CrossLane

open Machine Laws.ControlScalar

/-! ### The lanes read (R380) -/

/-- A bit of a mask that each step of a fold sets under a condition of its own. -/
theorem getLsbD_foldl {g : LaneMask → Nat → LaneMask} {sets : Nat → Prop} {j : Nat}
    (hg : ∀ m l, (g m l).getLsbD j = true ↔ m.getLsbD j = true ∨ sets l) (ls : List Nat) (m : LaneMask) :
    (ls.foldl g m).getLsbD j = true ↔ m.getLsbD j = true ∨ ∃ l ∈ ls, sets l := by
  induction ls generalizing m with
  | nil => simp
  | cons l ls ih => rw [List.foldl_cons, ih, hg, or_assoc, List.exists_mem_cons_iff]

theorem getLsbD_or_bit (m : LaneMask) (i j : Nat) :
    (m ||| (1#1024 <<< i)).getLsbD j = true ↔ m.getLsbD j = true ∨ (j < 1024 ∧ i = j) := by
  simp only [← BitVec.twoPow_eq, BitVec.getLsbD_or, BitVec.getLsbD_twoPow, Bool.or_eq_true, Bool.and_eq_true,
    decide_eq_true_eq]
  exact or_congr_right ⟨fun ⟨hi, he⟩ => ⟨he ▸ hi, he⟩, fun ⟨hj, he⟩ => ⟨he ▸ hj, he⟩⟩

/-- The lanes read are those that an active lane reads. -/
theorem getLsbD_readSet {o : Owner} {src : Nat → List Nat} {j : Nat} :
    (readSet o src).getLsbD j = true ↔ j < 1024 ∧ Reaches2 o src j := by
  have hlane : ∀ (m : LaneMask) l, (if (active o).getLsbD l then (src l).foldl (fun m j => m ||| (1#1024 <<< j)) m
      else m).getLsbD j = true ↔ m.getLsbD j = true ∨ (o.lam.getLsbD l = true ∧ j < 1024 ∧ j ∈ src l) := by
    intro m l
    split
    next hl =>
      rw [getLsbD_foldl (fun m i => getLsbD_or_bit m i j), and_iff_right (show o.lam.getLsbD l = true from hl)]
      exact or_congr_right ⟨fun ⟨i, hi, hj, he⟩ => ⟨hj, he ▸ hi⟩, fun ⟨hj, hm⟩ => ⟨j, hm, hj, rfl⟩⟩
    next hl => rw [or_iff_left fun hcon => hl hcon.1]
  rw [readSet, getLsbD_foldl hlane, or_iff_right (by simp)]
  simp only [List.mem_range, Reaches2]
  exact ⟨fun ⟨l, hl, hact, hj, hsrc⟩ => ⟨hj, l, hl, hact, hsrc⟩, fun ⟨hj, l, hl, hact, hsrc⟩ => ⟨l, hl, hact, hj, hsrc⟩⟩

theorem readSet_congr (o : Owner) {src src' : Nat → List Nat} (h : ∀ l < 1024, src l = src' l) :
    readSet o src = readSet o src' :=
  List.foldl_ext _ _ _ fun m l hl => by rw [h l (List.mem_range.1 hl)]

/-- A register from which the inactive lanes have gone: they read 0. -/
theorem cget_filter_fst (m : Cells 32) (keep : Nat → Bool) (j : Nat) :
    cget (m.filter fun x => keep x.1) j = if keep j then cget m j else 0 := by
  induction m with
  | nil => simp [cget]
  | cons x m ih =>
    obtain ⟨l, v⟩ := x
    by_cases hl : keep l = true
    · simp only [List.filter_cons, hl, if_true, cget, ih]
      by_cases hj : j = l <;> simp [hj, hl]
    · simp only [List.filter_cons, hl, Bool.false_eq_true, if_false, cget, ih]
      by_cases hj : j = l <;> simp [hj, hl]

section Read

variable {k : CoreSt} {o : Owner} {b : BitVec 4} {p : BitVec 1} {src : Nat → List Nat}

/-- The lanes that are read and not active. -/
theorem getLsbD_missing {j : Nat} : (readSet o src &&& ~~~active o).getLsbD j = true ↔
    j < 1024 ∧ Reaches2 o src j ∧ o.lam.getLsbD j = false := by
  rw [BitVec.getLsbD_and, BitVec.getLsbD_not, Bool.and_eq_true, getLsbD_readSet]
  simp only [active, Bool.and_eq_true, decide_eq_true_eq, Bool.not_eq_true']
  exact ⟨fun ⟨⟨hj, hr⟩, _, hl⟩ => ⟨hj, hr, hl⟩, fun ⟨hj, hr, hl⟩ => ⟨⟨hj, hr⟩, hj, hl⟩⟩

theorem crossRead_ok (hact : p = 0 → ∀ j, Reaches2 o src j → o.lam.getLsbD j = true)
    (hpar : ∀ e ∈ k.vErr, e / 4096 = o.vbase + b.toNat → Reaches2 o src (e % 4096 / 4) →
      o.lam.getLsbD (e % 4096 / 4) = false) :
    crossRead k o b p (readSet o src) = .ok ((vlanes k o b).filter fun x => o.lam.getLsbD x.1) := by
  have hmiss : ¬ (p = 0 ∧ readSet o src &&& ~~~active o ≠ 0) := fun ⟨hp, hne⟩ =>
    hne (BitVec.zero_iff_eq_false.2 fun j => by
      rw [← Bool.not_eq_true, getLsbD_missing]
      exact fun ⟨_, hr, hl⟩ => Bool.false_ne_true (hl.symm.trans (hact hp j hr)))
  have hbad : vBad k o b.toNat (readSet o src &&& active o) = false := vBad_eq_false fun e he hcon => by
    obtain ⟨hreg, hlane⟩ := hcon
    rw [BitVec.getLsbD_and, Bool.and_eq_true, getLsbD_readSet] at hlane
    exact Bool.false_ne_true ((hpar e he hreg hlane.1.2).symm.trans hlane.2)
  simp only [crossRead, if_neg hmiss, hbad, Bool.false_eq_true, if_false]
  rfl

theorem crossRead_laneFault {lanes : LaneMask} (hp : p = 0)
    (hl : ∀ j, lanes.getLsbD j = true ↔ Reaches2 o src j ∧ o.lam.getLsbD j = false) (hne : lanes ≠ 0) :
    crossRead k o b p (readSet o src) = .error { cause := .laneFault, lanes := lanes } := by
  have hmiss : readSet o src &&& ~~~active o = lanes := by
    apply BitVec.eq_of_getLsbD_eq
    intro j hj
    rw [Bool.eq_iff_iff, getLsbD_missing, hl, and_iff_right hj]
  simp only [crossRead, hmiss, if_pos (And.intro hp hne)]

end Read

theorem ctab_congr {n : Nat} {f g : Nat → W32} (h : ∀ l < n, f l = g l) : ctab n f = ctab n g :=
  List.filterMap_congr fun l hl => by rw [h l (List.mem_range.1 hl)]

/-- A body that reads across lanes and writes a function of what it has read. -/
theorem crossWrites_of_body {i : Instr} {h : Hd} {lat : Nat} {a b : BitVec 4} {p : BitVec 1} {src src' : Nat → List Nat}
    {f : (Nat → W32) → Nat → W32} {g : Cells 32 → Nat → W32} {body : Body} {s : State}
    (hx : exec i s = issue h false 1 false body s)
    (hb : body s s.curOwner = crossRead s.curCore s.curOwner b p (readSet s.curOwner src') >>= fun x =>
      .ok { effs := [(lat, .vreg a.toNat (lanesOf (g x)) (active s.curOwner))] })
    (hsrc : ∀ l < 1024, src' l = src l) (hg : ∀ x, ∀ l < 1024, g x l = f (cget x) l) :
    CrossWrites i h lat a b p src f s := by
  rw [readSet_congr _ hsrc] at hb
  refine ⟨fun hact hpar => does_of_body hx ?writes, fun hp lanes hl hne => faults_of_body hx ?faults⟩
  case writes =>
    have hcells : cget ((vlanes s.curCore s.curOwner b).filter fun x => s.curOwner.lam.getLsbD x.1) =
        fun j => if s.curOwner.lam.getLsbD j then cget (vlanes s.curCore s.curOwner b) j else 0 :=
      funext (cget_filter_fst _ _)
    rw [hb, crossRead_ok hact hpar, ok_bind, lanesOf, ctab_congr (hg _), hcells]
    rfl
  case faults => rw [hb, crossRead_laneFault hp hl hne, error_bind]

/-! ### Rows and columns -/

/-- How many lanes a row or a column has. -/
def groupSize (row : Bool) : Nat := if row then 64 else 16

/-- The lane at a place of a row or a column. -/
def laneIn (row : Bool) (g t : Nat) : Nat := if row then g * 64 + t else t * 64 + g

theorem groupLanes_eq (row : Bool) (g : Nat) : groupLanes row g = (List.range (groupSize row)).map (laneIn row g) := by
  cases row <;> rfl

theorem groupOf_lt (row : Bool) {l : Nat} (hl : l < 1024) :
    (groupOf row l).1 < (if row then 16 else 64) ∧ (groupOf row l).2 < groupSize row := by
  cases row with
  | true => exact ⟨Nat.div_lt_of_lt_mul hl, Nat.mod_lt _ (by decide)⟩
  | false => exact ⟨Nat.mod_lt _ (by decide), Nat.div_lt_of_lt_mul hl⟩

theorem getD_map_range {α : Type} (f : Nat → α) {n i : Nat} (d : α) (h : i < n) : ((List.range n).map f).getD i d = f i := by
  simp [h]

/-! ### The fixed pairwise tree (R400) -/

theorem pairUp_map_range (op : W32 → W32 → W32) (f : Nat → W32) (n : Nat) :
    pairUp op ((List.range (2 * n)).map f) = (List.range n).map fun t => op (f (2 * t)) (f (2 * t + 1)) := by
  induction n generalizing f with
  | zero => rfl
  | succ n ih =>
    have hpair : (List.range (2 * (n + 1))).map f = f 0 :: f 1 :: (List.range (2 * n)).map fun t => f (t + 2) := by
      simp [Nat.mul_succ, List.range_succ_eq_map, Function.comp_def]
    rw [hpair, pairUp, ih, List.range_succ_eq_map]
    simp [Function.comp_def, Nat.mul_succ]

/-- Level by level, the list that is left is the range of half the size. -/
theorem reduceTree_map_range (op : W32 → W32 → W32) (n : Nat) (f : Nat → W32) :
    reduceTree op n ((List.range (2 ^ n)).map f) = treeOf op n f := by
  induction n generalizing f with
  | zero => rfl
  | succ n ih => rw [reduceTree, Nat.pow_succ', pairUp_map_range, ih, treeOf]

theorem crossWrites_of_crossReduce {i : Instr} {h : Hd} {lat : Nat} {row : Bool} {op : W32 → W32 → W32} {a b : BitVec 4}
    {p : BitVec 1} {s : State} (hx : exec i s = issue h false 1 false (crossReduce lat row op p a b) s) :
    CrossWrites i h lat a b p (fun l => (List.range (groupSize row)).map (laneIn row (groupOf row l).1))
      (fun v l => treeOf op (if row then 6 else 4) fun t => v (laneIn row (groupOf row l).1 t)) s := by
  refine crossWrites_of_body hx rfl (fun l _ => groupLanes_eq row _) fun x l hl => ?_
  have hsize : groupSize row = 2 ^ (if row then 6 else 4) := by cases row <;> rfl
  rw [getD_map_range _ _ (groupOf_lt row hl).1, groupLanes_eq, hsize, List.map_map, reduceTree_map_range]
  rfl

/-! ### The inclusive sequential scan (R401) -/

theorem scanList_map_range' (op : W32 → W32 → W32) (f : Nat → W32) (n k : Nat) :
    scanList op (scanOf op f k) ((List.range' (k + 1) n).map f) = (List.range' (k + 1) n).map (scanOf op f) := by
  induction n generalizing k with
  | zero => rfl
  | succ n ih => simpa only [List.range'_succ, List.map_cons, scanList, scanOf, List.cons.injEq, true_and] using ih (k + 1)

/-- A place of a scan: the first value stands, and every later one comes in by one more operation. -/
theorem getD_scanList (op : W32 → W32 → W32) (f : Nat → W32) {n i : Nat} (hi : i < n + 1) :
    (f 0 :: scanList op (f 0) ((List.range' 1 n).map f)).getD i 0 = scanOf op f i := by
  have hscan : f 0 :: scanList op (f 0) ((List.range' 1 n).map f) = (List.range (n + 1)).map (scanOf op f) := by
    rw [List.range_eq_range', List.range'_succ, List.map_cons, ← scanList_map_range']
    rfl
  rw [hscan, getD_map_range _ _ hi]

theorem crossWrites_of_crossScan {i : Instr} {h : Hd} {lat : Nat} {row : Bool} {op : W32 → W32 → W32} {a b : BitVec 4}
    {p : BitVec 1} {s : State} (hx : exec i s = issue h false 1 false (crossScan lat row op p a b) s) :
    CrossWrites i h lat a b p (fun l => (List.range ((groupOf row l).2 + 1)).map (laneIn row (groupOf row l).1))
      (fun v l => scanOf op (fun t => v (laneIn row (groupOf row l).1 t)) (groupOf row l).2) s := by
  refine crossWrites_of_body hx rfl (fun l hl => ?src) fun x l hl => ?value
  case src =>
    rw [groupLanes_eq, ← List.map_take, List.take_range, min_eq_left (groupOf_lt row hl).2]
  case value =>
    obtain ⟨m, hm⟩ : ∃ m, groupSize row = m + 1 := by cases row <;> exact ⟨_, rfl⟩
    have hcells : (groupLanes row (groupOf row l).1).map (cget x) =
        cget x (laneIn row (groupOf row l).1 0) :: (List.range' 1 m).map (cget x ∘ laneIn row (groupOf row l).1) := by
      rw [groupLanes_eq, hm, List.range_eq_range', List.range'_succ, List.map_map]
      rfl
    rw [getD_map_range _ _ (groupOf_lt row hl).1, hcells]
    exact getD_scanList op (cget x ∘ laneIn row (groupOf row l).1) (hm ▸ (groupOf_lt row hl).2)

section Forms

variable {mk : Hd → BitVec 4 → BitVec 4 → BitVec 1 → Instr} {op : W32 → W32 → W32}

theorem rowReduces_of_exec (hx : ∀ h a b p s, exec (mk h a b p) s = issue h false 1 false (crossReduce 6 true op p a b) s) :
    RowReduces mk op := fun h a b p s => crossWrites_of_crossReduce (hx h a b p s)

theorem columnReduces_of_exec
    (hx : ∀ h a b p s, exec (mk h a b p) s = issue h false 1 false (crossReduce 8 false op p a b) s) :
    ColumnReduces mk op := fun h a b p s => crossWrites_of_crossReduce (hx h a b p s)

theorem rowScans_of_exec (hx : ∀ h a b p s, exec (mk h a b p) s = issue h false 1 false (crossScan 8 true op p a b) s) :
    RowScans mk op := fun h a b p s => crossWrites_of_crossScan (hx h a b p s)

theorem columnScans_of_exec
    (hx : ∀ h a b p s, exec (mk h a b p) s = issue h false 1 false (crossScan 10 false op p a b) s) :
    ColumnScans mk op := fun h a b p s => crossWrites_of_crossScan (hx h a b p s)

end Forms

/-- Settles O29: a list of 2^n values halves with each level of the tree, and a scan's place is the last operation's
result; a lane is read just where an active lane's row or column holds it. -/
theorem reductionsAndScans : Obligations.ReductionsAndScans :=
  ⟨fun _ _ _ _ => by (repeat refine opcodesOf_cons rfl (by decide) ?_); rfl,
   rowReduces_of_exec exec_vredRFadd, rowReduces_of_exec exec_vredRIadd, rowReduces_of_exec exec_vredRXor,
   rowReduces_of_exec exec_vredRMax, rowReduces_of_exec exec_vredRMin, columnReduces_of_exec exec_vredCFadd,
   columnReduces_of_exec exec_vredCIadd, columnReduces_of_exec exec_vredCXor, columnReduces_of_exec exec_vredCMax,
   columnReduces_of_exec exec_vredCMin, rowScans_of_exec exec_vscanRFadd, rowScans_of_exec exec_vscanRIadd,
   rowScans_of_exec exec_vscanRXor, columnScans_of_exec exec_vscanCFadd, columnScans_of_exec exec_vscanCIadd,
   columnScans_of_exec exec_vscanCXor⟩

end Sys2Proof.Laws.CrossLane
end

section
/-! PROOF. Every step keeps the settings of the clock governor legal (R16, R18, R19): only the operations of the governor
write them, and each of those writes settings within the bounds. -/

namespace Sys2Proof.Laws.Governor

open Machine

theorem legal_iff {p : Power} : p.legal = true ↔ p.step.toNat ≤ 13 ∧ p.ceil.toNat ≤ 13
    ∧ (500 ≤ p.cap.toNat ∧ p.cap.toNat ≤ 2000) ∧ (500 ≤ p.capNow.toNat ∧ p.capNow.toNat ≤ 2000) := by
  simp only [Power.legal, Bool.and_eq_true, decide_eq_true_eq, and_assoc]
  rfl

/-! ### The operations of the governor (R11, R12, R16-R20) -/

theorem nextStep_le {mean : Nat} {p : Power} (hs : p.step.toNat ≤ 13) (hc : p.ceil.toNat ≤ 13) : nextStep p mean ≤ 13 := by
  unfold nextStep
  dsimp only [Config.maxStep]
  split_ifs <;> omega

section Operations

variable {s t : State}

theorem legal_execColdReset (hx : execColdReset s = .next t) : t.pwr.legal = true := by
  cases hx
  exact legal_packageReset _ s

theorem legal_execRailFault (hx : execRailFault s = .next t) : t.pwr.legal = true := by
  cases hx
  rfl

theorem legal_execPowerUpSequence (hx : execPowerUpSequence s = .next t)
    (hl : s.pwr.legal = true) : t.pwr.legal = true := by
  cases hx
  split
  · exact hl
  · rfl

theorem legal_execJunctionSensorRead {temps : List Nat} (hx : execJunctionSensorRead temps s = .next t)
    (hl : s.pwr.legal = true) : t.pwr.legal = true := by
  cases hx
  split <;> exact hl

/-- A written cap comes into force, and the step moves within its bounds. -/
theorem legal_execGovernorRevolution {mean : Nat} (hx : execGovernorRevolution mean s = .next t)
    (hl : s.pwr.legal = true) : t.pwr.legal = true := by
  obtain ⟨hstep, hceil, hcap, -⟩ := legal_iff.1 hl
  cases hx
  refine legal_iff.2 ⟨?_, hceil, hcap, hcap⟩
  exact (BitVec.toNat_ofNat _ _).trans_le ((Nat.mod_le _ _).trans (nextStep_le hstep hceil))

theorem legal_execCeilingSet {n : Nat} (hx : execCeilingSet n s = .next t)
    (hl : s.pwr.legal = true) : t.pwr.legal = true := by
  obtain ⟨hstep, -, hcap, hnow⟩ := legal_iff.1 hl
  cases hx
  split
  next hn => exact legal_iff.2 ⟨hstep, (BitVec.toNat_ofNat _ _).trans_le ((Nat.mod_le _ _).trans hn), hcap, hnow⟩
  next => exact hl

theorem legal_execHbPwrCapWrite {v : BitVec 64} (hx : execHbPwrCapWrite v s = .next t)
    (hl : s.pwr.legal = true) : t.pwr.legal = true := by
  obtain ⟨hstep, hceil, -, hnow⟩ := legal_iff.1 hl
  cases hx
  refine legal_iff.2 ⟨hstep, hceil, ?_, hnow⟩
  simp only [bv, BitVec.toNat_ofNat]
  omega

theorem legal_execHbmRefresh (hx : execHbmRefresh s = .next t) (hl : s.pwr.legal = true) : t.pwr.legal = true := by
  cases hx
  exact hl

/-! ### Every operation and instruction -/

/-- What leaves the settings alone keeps them legal. -/
theorem legal_of_pwr_eq (hl : s.pwr.legal = true) (h : t.pwr = s.pwr) : t.pwr.legal = true := h ▸ hl

theorem legal_exec {i : Instr} (hx : exec i s = .next t) (hl : s.pwr.legal = true) : t.pwr.legal = true := by
  have keep : t.pwr = s.pwr → t.pwr.legal = true := legal_of_pwr_eq hl
  cases i with
  | coldReset => exact legal_execColdReset hx
  | powerUpSequence => exact legal_execPowerUpSequence hx hl
  | railFault => exact legal_execRailFault hx
  | firmwareBoot => exact keep (pwr_execFirmwareBoot hx)
  | junctionSensorRead => exact legal_execJunctionSensorRead hx hl
  | governorRevolution => exact legal_execGovernorRevolution hx hl
  | ceilingSet => exact legal_execCeilingSet hx hl
  | hbPwrCapWrite => exact legal_execHbPwrCapWrite hx hl
  | hbmRefresh => exact legal_execHbmRefresh hx hl
  | hotReset => exact keep (pwr_execHotReset hx)
  | mfFlr => exact keep (pwr_execMfFlr hx)
  | pfFlr => exact keep (pwr_execPfFlr hx)
  | vfFlr => exact keep (pwr_execVfFlr hx)
  | vfEnableWrite => exact keep (pwr_execVfEnableWrite hx)
  | numvfsWrite => exact keep (pwr_execNumvfsWrite hx)
  | tdispRequest => exact keep (pwr_execTdispRequest hx)
  | ideKeyProgramming => exact keep (pwr_execIdeKeyProgramming hx)
  | hostBar2Read => exact keep (pwr_execHostBar2Read hx)
  | hostBar2Write => exact keep (pwr_execHostBar2Write hx)
  | mfApertureAccess => exact keep (pwr_execMfApertureAccess hx)
  | undecodedRequest => exact keep (pwr_execUndecodedRequest hx)
  | hostReadCompletionTimeout => exact keep (pwr_execHostReadCompletionTimeout hx)
  | msixVectorUnmask => exact keep (pwr_execMsixVectorUnmask hx)
  | registerWrite => exact keep (pwr_execRegisterWrite hx)
  | hbActDenyRead => exact keep (pwr_execHbActDenyRead hx)
  | klkFlitReceive => exact keep (pwr_execKlkFlitReceive hx)
  | klkNakReceive => exact keep (pwr_execKlkNakReceive hx)
  | klkAckReceive => exact keep (pwr_execKlkAckReceive hx)
  | klkPortTrained => exact keep (pwr_execKlkPortTrained hx)
  | klkRetrainTimeout => exact keep (pwr_execKlkRetrainTimeout hx)
  | hbKlkIdWrite => exact keep (pwr_execHbKlkIdWrite hx)
  | hbKlkRouteWrite => exact keep (pwr_execHbKlkRouteWrite hx)
  | routeChangeApply => exact keep (pwr_execRouteChangeApply hx)
  | klkRequestTimeout => exact keep (pwr_execKlkRequestTimeout hx)
  | peerRequestArrival => exact keep (pwr_execPeerRequestArrival hx)
  | barrierArrival => exact keep (pwr_execBarrierArrival hx)
  | barrierRelease => exact keep (pwr_execBarrierRelease hx)
  | notify => exact keep (pwr_execNotify hx)
  | queueDisable => exact keep (pwr_execQueueDisable hx)
  | queueEnable => exact keep (pwr_execQueueEnable hx)
  | packetFetch => exact keep (pwr_execPacketFetch hx)
  | nopPacket => exact keep (pwr_execNopPacket hx)
  | launchPacket => exact keep (pwr_execLaunchPacket hx)
  | waitPacket => exact keep (pwr_execWaitPacket hx)
  | signalPacket => exact keep (pwr_execSignalPacket hx)
  | copyPacket => exact keep (pwr_execCopyPacket hx)
  | invalPacket => exact keep (pwr_execInvalPacket hx)
  | waitReread => exact keep (pwr_execWaitReread hx)
  | launchAgingStep => exact keep (pwr_execLaunchAgingStep hx)
  | copyChunk => exact keep (pwr_execCopyChunk hx)
  | invalCompletion => exact keep (pwr_execInvalCompletion hx)
  | packetCompletion => exact keep (pwr_execPacketCompletion hx)
  | cqEnable => exact keep (pwr_execCqEnable hx)
  | cqCoalesceTimeout => exact keep (pwr_execCqCoalesceTimeout hx)
  | attestationRequest => exact keep (pwr_execAttestationRequest hx)
  | attestationReportWrite => exact keep (pwr_execAttestationReportWrite hx)
  | firmwareWatchdogExpiry => exact keep (pwr_execFirmwareWatchdogExpiry hx)
  | coreLockout => exact keep (pwr_execCoreLockout hx)
  | cobblerEventDispatch => exact keep (pwr_execCobblerEventDispatch hx)
  | meterOpen => exact keep (pwr_execMeterOpen hx)
  | meterSeal => exact keep (pwr_execMeterSeal hx)
  | meterRetire => exact keep (pwr_execMeterRetire hx)
  | meterCheckpoint => exact keep (pwr_execMeterCheckpoint hx)
  | meterRecordWrite => exact keep (pwr_execMeterRecordWrite hx)
  | tenantLogRidxWrite => exact keep (pwr_execTenantLogRidxWrite hx)
  | meterContinuation => exact keep (pwr_execMeterContinuation hx)
  | partitionCreate => exact keep (pwr_execPartitionCreate hx)
  | partitionResize => exact keep (pwr_execPartitionResize hx)
  | partitionRemove => exact keep (pwr_execPartitionRemove hx)
  | vdCreate => exact keep (pwr_execVdCreate hx)
  | vdDestroy => exact keep (pwr_execVdDestroy hx)
  | vdCreateIncoming => exact keep (pwr_execVdCreateIncoming hx)
  | strandPark _ tick => exact keep (pwr_execStrandPark (tick := tick) hx)
  | strandUnpark => exact keep (pwr_execStrandUnpark hx)
  | evictionRequest => exact keep (pwr_execEvictionRequest hx)
  | evictionDrain => exact keep (pwr_execEvictionDrain hx)
  | evictionSave => exact keep (pwr_execEvictionSave hx)
  | strandResume => exact keep (pwr_execStrandResume hx)
  | leaseExpiry => exact keep (pwr_execLeaseExpiry hx)
  | migrationStart => exact keep (pwr_execMigrationStart hx)
  | migrationPrecopyRound => exact keep (pwr_execMigrationPrecopyRound hx)
  | migrationStop => exact keep (pwr_execMigrationStop hx)
  | migrationAbort => exact keep (pwr_execMigrationAbort hx)
  | migrationLinkLost => exact keep (pwr_execMigrationLinkLost hx)
  | migrationFinalArrival => exact keep (pwr_execMigrationFinalArrival hx)
  | postcopyPagePull => exact keep (pwr_execPostcopyPagePull hx)
  | postcopyPagePush => exact keep (pwr_execPostcopyPagePush hx)
  | postcopyPageArrival => exact keep (pwr_execPostcopyPageArrival hx)
  | postcopyPullTimeout => exact keep (pwr_execPostcopyPullTimeout hx)
  | admissionAttempt => exact keep (pwr_execAdmissionAttempt hx)
  | containerStaging => exact keep (pwr_execContainerStaging hx)
  | startDecision => exact keep (pwr_execStartDecision hx)
  | weaveSwitch => exact keep (pwr_execWeaveSwitch hx)
  | rephaseSwitch => exact keep (pwr_execRephaseSwitch hx)
  | ownerDepart => exact keep (pwr_execOwnerDepart hx)
  | nsclkWrite => exact keep (pwr_execNsclkWrite hx)
  | transferDispatch => exact keep (pwr_execTransferDispatch hx)
  | pageRequestPost => exact keep (pwr_execPageRequestPost hx)
  | pageDone => exact keep (pwr_execPageDone hx)
  | prqEnable => exact keep (pwr_execPrqEnable hx)
  | transferLanding => exact keep (pwr_execTransferLanding hx)
  | remotePutArrival => exact keep (pwr_execRemotePutArrival hx)
  | scOperationPerform => exact keep (pwr_execScOperationPerform hx)
  | syncStallEnd => exact keep (pwr_execSyncStallEnd hx)
  | strandWatchdogExpiry => exact keep (pwr_execStrandWatchdogExpiry hx)
  | resultWriteback => exact keep (pwr_execResultWriteback hx)
  | asyncFaultReport => exact keep (pwr_execAsyncFaultReport hx)
  | strandStop => exact keep (pwr_execStrandStop hx)
  | faultRingEnable => exact keep (pwr_execFaultRingEnable hx)
  | debugHalt => exact keep (pwr_execDebugHalt hx)
  | debugResume => exact keep (pwr_execDebugResume hx)
  | breakpointSet => exact keep (pwr_execBreakpointSet hx)
  | breakpointClear => exact keep (pwr_execBreakpointClear hx)
  | debugDump => exact keep (pwr_execDebugDump hx)
  | debugRelease => exact keep (pwr_execDebugRelease hx)
  | traceEnable => exact keep (pwr_execTraceEnable hx)
  | cseDone => exact keep (pwr_execCseDone hx)
  | xphyDone => exact legal_execXphyDone hx hl
  | rcRegisterRead => exact (legal_execRcRegisterRead hx).trans hl
  | pcieLinkTraining => exact keep (pwr_execPcieLinkTraining hx)
  | klkPortDown => exact keep (pwr_execKlkPortDown hx)
  | zfillZeroed => exact keep (pwr_execZfillZeroed hx)
  | postcopySourceFree => exact keep (pwr_execPostcopySourceFree hx)
  | blockHeader => exact keep (pwr_execBlockHeader hx)
  | nop => exact keep (pwr_execNop hx)
  | endS => exact keep (pwr_execEndS hx)
  | idle => exact keep (pwr_execIdle hx)
  | join => exact keep (pwr_execJoin hx)
  | sync => exact keep (pwr_execSync hx)
  | mark => exact keep (pwr_execMark hx)
  | inc => exact keep (pwr_execInc hx)
  | dec => exact keep (pwr_execDec hx)
  | neg => exact keep (pwr_execNeg hx)
  | not => exact keep (pwr_execNot hx)
  | clr => exact keep (pwr_execClr hx)
  | pclr => exact keep (pwr_execPclr hx)
  | pset => exact keep (pwr_execPset hx)
  | pnot => exact keep (pwr_execPnot hx)
  | rdtk => exact keep (pwr_execRdtk hx)
  | add => exact keep (pwr_execAdd hx)
  | sub => exact keep (pwr_execSub hx)
  | and => exact keep (pwr_execAnd hx)
  | or => exact keep (pwr_execOr hx)
  | xor => exact keep (pwr_execXor hx)
  | shl => exact keep (pwr_execShl hx)
  | shr => exact keep (pwr_execShr hx)
  | sar => exact keep (pwr_execSar hx)
  | mul => exact keep (pwr_execMul hx)
  | mulh => exact keep (pwr_execMulh hx)
  | mulhu => exact keep (pwr_execMulhu hx)
  | min => exact keep (pwr_execMin hx)
  | max => exact keep (pwr_execMax hx)
  | minu => exact keep (pwr_execMinu hx)
  | maxu => exact keep (pwr_execMaxu hx)
  | rotl => exact keep (pwr_execRotl hx)
  | rotr => exact keep (pwr_execRotr hx)
  | div => exact keep (pwr_execDiv hx)
  | divu => exact keep (pwr_execDivu hx)
  | rem => exact keep (pwr_execRem hx)
  | remu => exact keep (pwr_execRemu hx)
  | clz => exact keep (pwr_execClz hx)
  | ctz => exact keep (pwr_execCtz hx)
  | popc => exact keep (pwr_execPopc hx)
  | abs => exact keep (pwr_execAbs hx)
  | sextB => exact keep (pwr_execSextB hx)
  | sextH => exact keep (pwr_execSextH hx)
  | sextW => exact keep (pwr_execSextW hx)
  | zextB => exact keep (pwr_execZextB hx)
  | zextH => exact keep (pwr_execZextH hx)
  | zextW => exact keep (pwr_execZextW hx)
  | bswap => exact keep (pwr_execBswap hx)
  | sel => exact keep (pwr_execSel hx)
  | csel => exact keep (pwr_execCsel hx)
  | ceq => exact keep (pwr_execCeq hx)
  | cne => exact keep (pwr_execCne hx)
  | clt => exact keep (pwr_execClt hx)
  | cltu => exact keep (pwr_execCltu hx)
  | cle => exact keep (pwr_execCle hx)
  | cleu => exact keep (pwr_execCleu hx)
  | addi => exact keep (pwr_execAddi hx)
  | andi => exact keep (pwr_execAndi hx)
  | ori => exact keep (pwr_execOri hx)
  | xori => exact keep (pwr_execXori hx)
  | shli => exact keep (pwr_execShli hx)
  | shri => exact keep (pwr_execShri hx)
  | sari => exact keep (pwr_execSari hx)
  | ceqi => exact keep (pwr_execCeqi hx)
  | clti => exact keep (pwr_execClti hx)
  | cltui => exact keep (pwr_execCltui hx)
  | movi => exact keep (pwr_execMovi hx)
  | movh => exact keep (pwr_execMovh hx)
  | ldB => exact keep (pwr_execLdB hx)
  | ldBu => exact keep (pwr_execLdBu hx)
  | ldH => exact keep (pwr_execLdH hx)
  | ldHu => exact keep (pwr_execLdHu hx)
  | ldW => exact keep (pwr_execLdW hx)
  | ldWu => exact keep (pwr_execLdWu hx)
  | ldD => exact keep (pwr_execLdD hx)
  | ldsD => exact keep (pwr_execLdsD hx)
  | stB => exact keep (pwr_execStB hx)
  | stH => exact keep (pwr_execStH hx)
  | stW => exact keep (pwr_execStW hx)
  | stD => exact keep (pwr_execStD hx)
  | rdl => exact keep (pwr_execRdl hx)
  | rds => exact keep (pwr_execRds hx)
  | setlc => exact keep (pwr_execSetlc hx)
  | ags => exact keep (pwr_execAgs hx)
  | pute => exact keep (pwr_execPute hx)
  | fmt => exact keep (pwr_execFmt hx)
  | pand => exact keep (pwr_execPand hx)
  | por => exact keep (pwr_execPor hx)
  | pxor => exact keep (pwr_execPxor hx)
  | pmov => exact keep (pwr_execPmov hx)
  | trap _ _ k => exact keep (pwr_execTrap (_k := k) hx)
  | claim => exact keep (pwr_execClaim hx)
  | release => exact keep (pwr_execRelease hx)
  | ldta => exact keep (pwr_execLdta hx)
  | ldtb => exact keep (pwr_execLdtb hx)
  | lde => exact keep (pwr_execLde hx)
  | ldtf => exact keep (pwr_execLdtf hx)
  | ldvW => exact keep (pwr_execLdvW hx)
  | ldvH => exact keep (pwr_execLdvH hx)
  | ldvHu => exact keep (pwr_execLdvHu hx)
  | ldvB => exact keep (pwr_execLdvB hx)
  | ldvBu => exact keep (pwr_execLdvBu hx)
  | ldvrW => exact keep (pwr_execLdvrW hx)
  | ldvcW => exact keep (pwr_execLdvcW hx)
  | ldg => exact keep (pwr_execLdg hx)
  | mma => exact keep (pwr_execMma hx)
  | mmaw => exact keep (pwr_execMmaw hx)
  | radv => exact keep (pwr_execRadv hx)
  | rskip => exact keep (pwr_execRskip hx)
  | tcfg => exact keep (pwr_execTcfg hx)
  | teval => exact keep (pwr_execTeval hx)
  | tmask => exact keep (pwr_execTmask hx)
  | tclr => exact keep (pwr_execTclr hx)
  | mclr => exact keep (pwr_execMclr hx)
  | wrs => exact keep (pwr_execWrs hx)
  | rdsp => exact keep (pwr_execRdsp hx)
  | eret => exact keep (pwr_execEret hx)
  | waitev => exact keep (pwr_execWaitev hx)
  | wvset => exact keep (pwr_execWvset hx)
  | cse => exact keep (pwr_execCse hx)
  | zfill => exact keep (pwr_execZfill hx)
  | park => exact keep (pwr_execPark hx)
  | unpark => exact keep (pwr_execUnpark hx)
  | xphy => exact keep (pwr_execXphy hx)
  | stvW => exact keep (pwr_execStvW hx)
  | stvH => exact keep (pwr_execStvH hx)
  | stvHs => exact keep (pwr_execStvHs hx)
  | stvB => exact keep (pwr_execStvB hx)
  | stvBs => exact keep (pwr_execStvBs hx)
  | stvc => exact keep (pwr_execStvc hx)
  | xrd => exact keep (pwr_execXrd hx)
  | xrdSp => exact keep (pwr_execXrdSp hx)
  | xrdm => exact keep (pwr_execXrdm hx)
  | xwr => exact keep (pwr_execXwr hx)
  | xwrZ => exact keep (pwr_execXwrZ hx)
  | xput => exact keep (pwr_execXput hx)
  | xget => exact keep (pwr_execXget hx)
  | xsumF => exact keep (pwr_execXsumF hx)
  | xsumI => exact keep (pwr_execXsumI hx)
  | xatAdd => exact keep (pwr_execXatAdd hx)
  | xatSwp => exact keep (pwr_execXatSwp hx)
  | xatCas => exact keep (pwr_execXatCas hx)
  | xatMax => exact keep (pwr_execXatMax hx)
  | xatMin => exact keep (pwr_execXatMin hx)
  | xatAnd => exact keep (pwr_execXatAnd hx)
  | xatOr => exact keep (pwr_execXatOr hx)
  | xatXor => exact keep (pwr_execXatXor hx)
  | xscLd => exact keep (pwr_execXscLd hx)
  | xscSt => exact keep (pwr_execXscSt hx)
  | xscAdd => exact keep (pwr_execXscAdd hx)
  | xscSwp => exact keep (pwr_execXscSwp hx)
  | xscCas => exact keep (pwr_execXscCas hx)
  | xscMax => exact keep (pwr_execXscMax hx)
  | fence => exact keep (pwr_execFence hx)
  | xpop => exact keep (pwr_execXpop hx)
  | xpeek => exact keep (pwr_execXpeek hx)
  | vzero => exact keep (pwr_execVzero hx)
  | vfadd => exact keep (pwr_execVfadd hx)
  | vfsub => exact keep (pwr_execVfsub hx)
  | vfmul => exact keep (pwr_execVfmul hx)
  | vfma => exact keep (pwr_execVfma hx)
  | vfms => exact keep (pwr_execVfms hx)
  | vfnma => exact keep (pwr_execVfnma hx)
  | vfnms => exact keep (pwr_execVfnms hx)
  | vfdiv => exact keep (pwr_execVfdiv hx)
  | vfmin => exact keep (pwr_execVfmin hx)
  | vfmax => exact keep (pwr_execVfmax hx)
  | vfabs => exact keep (pwr_execVfabs hx)
  | vfneg => exact keep (pwr_execVfneg hx)
  | vffloor => exact keep (pwr_execVffloor hx)
  | vfround => exact keep (pwr_execVfround hx)
  | vfclass => exact keep (pwr_execVfclass hx)
  | vfrcp => exact keep (pwr_execVfrcp hx)
  | vfsqrt => exact keep (pwr_execVfsqrt hx)
  | vfrsq => exact keep (pwr_execVfrsq hx)
  | vfexp2 => exact keep (pwr_execVfexp2 hx)
  | vflog2 => exact keep (pwr_execVflog2 hx)
  | vftanh => exact keep (pwr_execVftanh hx)
  | vfsigm => exact keep (pwr_execVfsigm hx)
  | vadd => exact keep (pwr_execVadd hx)
  | vsub => exact keep (pwr_execVsub hx)
  | vadds => exact keep (pwr_execVadds hx)
  | vsubs => exact keep (pwr_execVsubs hx)
  | vmul => exact keep (pwr_execVmul hx)
  | vmulh => exact keep (pwr_execVmulh hx)
  | vmin => exact keep (pwr_execVmin hx)
  | vmax => exact keep (pwr_execVmax hx)
  | vminu => exact keep (pwr_execVminu hx)
  | vmaxu => exact keep (pwr_execVmaxu hx)
  | vabs => exact keep (pwr_execVabs hx)
  | vand => exact keep (pwr_execVand hx)
  | vor => exact keep (pwr_execVor hx)
  | vxor => exact keep (pwr_execVxor hx)
  | vnot => exact keep (pwr_execVnot hx)
  | vshl => exact keep (pwr_execVshl hx)
  | vshr => exact keep (pwr_execVshr hx)
  | vsar => exact keep (pwr_execVsar hx)
  | vshli => exact keep (pwr_execVshli hx)
  | vshri => exact keep (pwr_execVshri hx)
  | vsari => exact keep (pwr_execVsari hx)
  | vpopc => exact keep (pwr_execVpopc hx)
  | vclz => exact keep (pwr_execVclz hx)
  | vctz => exact keep (pwr_execVctz hx)
  | vclmulL => exact keep (pwr_execVclmulL hx)
  | vclmulH => exact keep (pwr_execVclmulH hx)
  | vdot2Bf => exact keep (pwr_execVdot2Bf hx)
  | vdot4I8 => exact keep (pwr_execVdot4I8 hx)
  | vfcmpEq => exact keep (pwr_execVfcmpEq hx)
  | vfcmpNe => exact keep (pwr_execVfcmpNe hx)
  | vfcmpLt => exact keep (pwr_execVfcmpLt hx)
  | vfcmpLe => exact keep (pwr_execVfcmpLe hx)
  | vfcmpUn => exact keep (pwr_execVfcmpUn hx)
  | vcmpEq => exact keep (pwr_execVcmpEq hx)
  | vcmpNe => exact keep (pwr_execVcmpNe hx)
  | vcmpLt => exact keep (pwr_execVcmpLt hx)
  | vcmpLe => exact keep (pwr_execVcmpLe hx)
  | vcmpLtu => exact keep (pwr_execVcmpLtu hx)
  | vcmpLeu => exact keep (pwr_execVcmpLeu hx)
  | vmov => exact keep (pwr_execVmov hx)
  | vspl => exact keep (pwr_execVspl hx)
  | vimm => exact keep (pwr_execVimm hx)
  | vsel => exact keep (pwr_execVsel hx)
  | mand => exact keep (pwr_execMand hx)
  | mor => exact keep (pwr_execMor hx)
  | mxor => exact keep (pwr_execMxor hx)
  | mnot => exact keep (pwr_execMnot hx)
  | vany => exact keep (pwr_execVany hx)
  | vall => exact keep (pwr_execVall hx)
  | vlam => exact keep (pwr_execVlam hx)
  | vmpack => exact keep (pwr_execVmpack hx)
  | vmunpk => exact keep (pwr_execVmunpk hx)
  | vcvtFi => exact keep (pwr_execVcvtFi hx)
  | vcvtIf => exact keep (pwr_execVcvtIf hx)
  | vcvtFb => exact keep (pwr_execVcvtFb hx)
  | vcvtBf => exact keep (pwr_execVcvtBf hx)
  | vcvtFk => exact keep (pwr_execVcvtFk hx)
  | vquant => exact keep (pwr_execVquant hx)
  | vqexp => exact keep (pwr_execVqexp hx)
  | vrotR => exact keep (pwr_execVrotR hx)
  | vrotC => exact keep (pwr_execVrotC hx)
  | vbcR => exact keep (pwr_execVbcR hx)
  | vbcC => exact keep (pwr_execVbcC hx)
  | vpermR => exact keep (pwr_execVpermR hx)
  | vpermC => exact keep (pwr_execVpermC hx)
  | vredRFadd => exact keep (pwr_execVredRFadd hx)
  | vredRIadd => exact keep (pwr_execVredRIadd hx)
  | vredRXor => exact keep (pwr_execVredRXor hx)
  | vredRMax => exact keep (pwr_execVredRMax hx)
  | vredRMin => exact keep (pwr_execVredRMin hx)
  | vredCFadd => exact keep (pwr_execVredCFadd hx)
  | vredCIadd => exact keep (pwr_execVredCIadd hx)
  | vredCXor => exact keep (pwr_execVredCXor hx)
  | vredCMax => exact keep (pwr_execVredCMax hx)
  | vredCMin => exact keep (pwr_execVredCMin hx)
  | vscanRFadd => exact keep (pwr_execVscanRFadd hx)
  | vscanRIadd => exact keep (pwr_execVscanRIadd hx)
  | vscanRXor => exact keep (pwr_execVscanRXor hx)
  | vscanCFadd => exact keep (pwr_execVscanCFadd hx)
  | vscanCIadd => exact keep (pwr_execVscanCIadd hx)
  | vscanCXor => exact keep (pwr_execVscanCXor hx)
  | vcpr => exact keep (pwr_execVcpr hx)
  | vidx => exact keep (pwr_execVidx hx)
  | rpop => exact keep (pwr_execRpop hx)
  | rfree => exact keep (pwr_execRfree hx)
  | vbrev => exact keep (pwr_execVbrev hx)

end Operations

/-! ### Steps -/

theorem legal_withCobPorts {c : Nat} {i : Instr} {go : State → Res} {s t : State}
    (hgo : ∀ u, go u = .next t → u.pwr.legal = true → t.pwr.legal = true) (hx : withCobPorts c i go s = .next t)
    (hl : s.pwr.legal = true) : t.pwr.legal = true := by
  unfold withCobPorts at hx
  dsimp only at hx
  split at hx
  next => exact hgo _ hx (legal_of_pwr_eq hl (pwr_portTurn ..))
  next =>
    cases hx
    refine legal_of_pwr_eq hl (pwr_foldl (fun u p => ?_) _ s)
    split
    · exact pwr_loseCycle ..
    · rfl

theorem legal_issueSlot {x : Slot} {l : List Slot} {s t : State} (hx : issueSlot x l s = .next t)
    (hl : s.pwr.legal = true) : t.pwr.legal = true := by
  unfold issueSlot at hx
  dsimp only at hx
  split at hx
  next => cases hx; exact hl
  next i _ =>
    split at hx
    next => exact legal_withCobPorts (fun _ => legal_exec) hx hl
    next => exact legal_exec hx hl
  next => cases hx; exact hl
  next => cases hx; exact hl
  next => cases hx

/-- A dark package takes its inputs and does nothing else. -/
theorem legal_darkTurn {s t : State} (hx : darkTurn s = .next t) (hl : s.pwr.legal = true) : t.pwr.legal = true := by
  unfold darkTurn at hx
  split at hx
  next => cases hx
  next => cases hx; exact hl
  next => cases hx; exact hl

theorem legal_advance {s t : State} (hx : advance s = .next t) (hl : s.pwr.legal = true) : t.pwr.legal = true := by
  unfold advance at hx
  split at hx
  next => exact legal_darkTurn hx hl
  next => split at hx <;> cases hx <;> refine legal_of_pwr_eq hl ?_ <;> simp

/-- Settles O60: only the operations of the governor write its settings, and the passage of time writes none. -/
theorem legalKept : Obligations.LegalKept := by
  intro s hl t hx
  unfold step at hx
  split at hx
  next => exact legal_exec hx hl
  next => exact legal_issueSlot hx hl
  next => exact legal_advance hx hl

end Sys2Proof.Laws.Governor
end

section
/-! PROOF. Decoding takes back what encoding gives (R298-R311): a word holds its fields at the places where the decoder
reads them, the tables of a stream read the word of an instruction back as that instruction, and the length of the
encoding is told by its first bit. -/

namespace Sys2Proof.Laws.Decoding

/-! ### Fields of a word -/

section Fields

variable {m n s len : Nat}

/-- A field below the last part of a word lies in that part. -/
theorem extractLsb'_append_low {x : BitVec m} {y : BitVec n} (h : s + len ≤ n) :
    (x ++ y).extractLsb' s len = y.extractLsb' s len := BitVec.extractLsb'_append_eq_of_add_le h

/-- A field above the last part of a word lies in what stands before it. -/
theorem extractLsb'_append_high {x : BitVec m} {y : BitVec n} (h : n ≤ s) :
    (x ++ y).extractLsb' s len = x.extractLsb' (s - n) len := BitVec.extractLsb'_append_eq_of_le h

theorem extractLsb'_whole {x : BitVec m} (h : s = 0) : x.extractLsb' s m = x := by
  subst h
  exact BitVec.extractLsb'_eq_self

theorem extractLsb'_longWord {top : BitVec 8} {h : Hd} {f : BitVec 16} (hs : s + len ≤ 16) :
    (longWord top h f).extractLsb' s len = f.extractLsb' s len := extractLsb'_append_low hs

end Fields

theorem opcode_longWord (top : BitVec 8) (h : Hd) (f : BitVec 16) :
    (longWord top h f).extractLsb' 24 7 = top.extractLsb' 0 7 := by
  unfold longWord
  simp (disch := decide) only [extractLsb'_append_high]

theorem hdG_longWord (top : BitVec 8) (h : Hd) (f : BitVec 16) :
    hdG (longWord top h f) = { h with g := f.extractLsb' 12 4 } := by
  unfold hdG longWord
  simp (disch := decide) only [extractLsb'_append_low, extractLsb'_append_high, extractLsb'_whole]

theorem hdU_longWord {h : Hd} (hg : h.unguarded = true) (top : BitVec 8) (f : BitVec 16) : hdU (longWord top h f) = h := by
  obtain ⟨idle, tok, g⟩ := h
  obtain rfl : g = 0 := of_decide_eq_true hg
  unfold hdU longWord
  simp (disch := decide) only [extractLsb'_append_low, extractLsb'_append_high, extractLsb'_whole]

theorem hdS_shortWord {h : Hd} (hh : h.isShort = true) (op : BitVec 5) (a : BitVec 4) : hdS (shortWord op h a) = h := by
  obtain ⟨idle, tok, g⟩ := h
  simp only [Hd.isShort, Bool.and_eq_true, decide_eq_true_eq] at hh
  obtain ⟨hidle, rfl⟩ := hh
  have hback : (idle.setWidth 2).setWidth 4 = idle :=
    BitVec.eq_of_toNat_eq (by rw [BitVec.toNat_setWidth, BitVec.toNat_setWidth]; omega)
  unfold hdS shortWord
  simp (disch := decide) only [extractLsb'_append_low, extractLsb'_append_high, extractLsb'_whole, hback]

/-! ### The tables of the streams (R304-R311) -/

/-- The table of a stream's own long forms; Cobbler reads the C stream's below its own. -/
noncomputable def ownTable : StreamId → W32 → Nat → Option Instr
  | .c => rawLongC
  | .f => fun w op => if 0x60 ≤ op then rawLongF w op else rawLongC w op
  | .l => rawLongL
  | .m => rawLongM
  | .v => rawLongV
  | .s => rawLongS

theorem rawLong_common {st : StreamId} {w : W32} (hop : (w.extractLsb' 24 7).toNat < 4) :
    rawLong st w = rawLongCommon w (w.extractLsb' 24 7).toNat := by
  simp only [rawLong, hop, if_true, show ¬ 0x70 ≤ (w.extractLsb' 24 7).toNat by omega, if_false]

theorem rawLong_own {st : StreamId} {w : W32} (hge : 4 ≤ (w.extractLsb' 24 7).toNat) (hlt : (w.extractLsb' 24 7).toNat < 0x70) :
    rawLong st w = ownTable st w (w.extractLsb' 24 7).toNat := by
  simp only [rawLong, Nat.not_le.2 hlt, Nat.not_lt.2 hge, if_false]
  cases st <;> rfl

/-- The table of a stream's own short forms. -/
noncomputable def ownShort : StreamId → Parcel → Nat → Option Instr
  | .c | .f => rawShortC
  | .v => rawShortV
  | .l | .m | .s => fun _ _ => none

theorem rawShort_own {st : StreamId} {w : Parcel} (hop : 2 ≤ (w.extractLsb' 10 5).toNat) :
    rawShort st w = ownShort st w (w.extractLsb' 10 5).toNat := by
  unfold rawShort
  split
  next h0 => omega
  next h1 => omega
  next => cases st <;> rfl

theorem opcode_shortWord (op : BitVec 5) (h : Hd) (a : BitVec 4) : (shortWord op h a).extractLsb' 10 5 = op := by
  unfold shortWord
  simp (disch := decide) only [extractLsb'_append_low, extractLsb'_append_high, extractLsb'_whole]

theorem operand_shortWord (op : BitVec 5) (h : Hd) (a : BitVec 4) : (shortWord op h a).extractLsb' 0 4 = a := by
  unfold shortWord
  simp (disch := decide) only [extractLsb'_append_low, extractLsb'_whole]

/-- A predicate of a short form takes the low three bits of its operand field (R305). -/
theorem predicate_shortWord (op : BitVec 5) (h : Hd) (a : BitVec 3) :
    (shortWord op h (0#1 ++ a)).extractLsb' 0 3 = a := by
  unfold shortWord
  simp (disch := decide) only [extractLsb'_append_low, extractLsb'_whole]

/-! ### Acceptance (R298, R312) -/

theorem accept_encode {i : Instr} (hw : i.wellFormed = true) : accept (some i) i.encode = .ok i := by
  simp [accept, hw]

theorem append_of_two (w : W32) : w.extractLsb' 16 16 ++ w.extractLsb' 0 16 = w :=
  (BitVec.extractLsb'_append_extractLsb'_eq_extractLsb' rfl).trans BitVec.extractLsb'_eq_self

/-- A system instruction's opcode, which a C section may not hold (R307, R421). -/
def Privileged (st : StreamId) (op : Nat) : Prop := st = .c ∧ 0x60 ≤ op ∧ op ≤ 0x69

section Shapes

variable {i : Instr} {st : StreamId} (rest : List Parcel) (hw : i.wellFormed = true)
include hw

/-- A word with bit 31 set is decoded as the stream reads it, unless it is a privileged one of a C section. -/
theorem decode_of_two {w : W32} (he : i.encode = two w) (htop : w.getLsbD 31 = true) (hr : rawLong st w = some i)
    (hp : ¬ Privileged st (w.extractLsb' 24 7).toNat) : decode st (i.encode ++ rest) = .ok (i, i.encode.length) := by
  have hfirst : (w.extractLsb' 16 16).getLsbD 15 = true := by simpa using htop
  have hacc : accept (some i) [w.extractLsb' 16 16, w.extractLsb' 0 16] = .ok i := by
    rw [← two, ← he]
    exact accept_encode hw
  unfold Privileged at hp
  rw [he]
  simp only [two, List.cons_append, List.nil_append, decode, hfirst, if_true, append_of_two, hp, if_false, hr, hacc]
  rfl

/-- A parcel with bit 15 clear is decoded as the stream reads it. -/
theorem decode_of_short {op : BitVec 5} {h : Hd} {a : BitVec 4} (he : i.encode = [shortWord op h a])
    (hr : rawShort st (shortWord op h a) = some i) : decode st (i.encode ++ rest) = .ok (i, i.encode.length) := by
  have hfirst : (shortWord op h a).getLsbD 15 = false := by
    simp only [shortWord, BitVec.getLsbD_append]
    simp
  have hacc : accept (some i) [shortWord op h a] = .ok i := he ▸ accept_encode hw
  rw [he]
  simp only [List.cons_append, List.nil_append, decode, hfirst, Bool.false_eq_true, if_false, hr, hacc]
  rfl

/-! ### Long forms -/

section Long

variable {top : BitVec 8} {h : Hd} {f : BitVec 16} {read : W32 → Instr} (he : i.encode = two (longWord top h f))
include he

/-- A long form is decoded as the stream's reading of its word says. -/
theorem decode_of_long (htop : top.getLsbD 7 = true) (hp : ¬ Privileged st (top.extractLsb' 0 7).toNat)
    (hr : rawLong st (longWord top h f) = some i) : decode st (i.encode ++ rest) = .ok (i, i.encode.length) := by
  refine decode_of_two rest hw he ?bit31 hr ?unprivileged
  case bit31 =>
    simp only [longWord, BitVec.getLsbD_append]
    simp [htop]
  case unprivileged => rwa [opcode_longWord]

theorem decode_common (hop : top.getLsbD 7 = true ∧ (top.extractLsb' 0 7).toNat < 4)
    (hread : ∀ w, rawLongCommon w (top.extractLsb' 0 7).toNat = some (read w)) (hi : read (longWord top h f) = i) :
    decode st (i.encode ++ rest) = .ok (i, i.encode.length) := by
  obtain ⟨htop, hlt⟩ := hop
  refine decode_of_long rest hw he htop (fun hp => absurd hp.2.1 (by omega)) ?_
  rw [rawLong_common (by rwa [opcode_longWord]), opcode_longWord, hread, hi]

theorem decode_of_table (hop : top.getLsbD 7 = true ∧ 4 ≤ (top.extractLsb' 0 7).toNat ∧ (top.extractLsb' 0 7).toNat < 0x70)
    (hp : ¬ Privileged st (top.extractLsb' 0 7).toNat)
    (hread : ∀ w, ownTable st w (top.extractLsb' 0 7).toNat = some (read w)) (hi : read (longWord top h f) = i) :
    decode st (i.encode ++ rest) = .ok (i, i.encode.length) := by
  obtain ⟨htop, hge, hlt⟩ := hop
  refine decode_of_long rest hw he htop hp ?_
  rw [rawLong_own (by rwa [opcode_longWord]) (by rwa [opcode_longWord]), opcode_longWord, hread, hi]

/-- A form that only one stream has, which is not the C stream. -/
theorem decode_own {own : StreamId} (hs : (st == own) = true)
    (hop : own ≠ .c ∧ top.getLsbD 7 = true ∧ 4 ≤ (top.extractLsb' 0 7).toNat ∧ (top.extractLsb' 0 7).toNat < 0x70)
    (hread : ∀ w, ownTable own w (top.extractLsb' 0 7).toNat = some (read w)) (hi : read (longWord top h f) = i) :
    decode st (i.encode ++ rest) = .ok (i, i.encode.length) := by
  obtain rfl := eq_of_beq hs
  exact decode_of_table rest hw he hop.2 (fun hp => hop.1 hp.1) hread hi

/-- A form of the C stream, in an owner's section or in Cobbler's image. -/
theorem decode_c (hs : (st == .c || st == .f) = true)
    (hop : top.getLsbD 7 = true ∧ 4 ≤ (top.extractLsb' 0 7).toNat ∧ (top.extractLsb' 0 7).toNat < 0x60)
    (hread : ∀ w, rawLongC w (top.extractLsb' 0 7).toNat = some (read w)) (hi : read (longWord top h f) = i) :
    decode st (i.encode ++ rest) = .ok (i, i.encode.length) := by
  obtain ⟨htop, hge, hlt⟩ := hop
  refine decode_of_table rest hw he ⟨htop, hge, by omega⟩ (fun hp => absurd hp.2.1 (by omega)) (fun w => ?_) hi
  rcases Bool.or_eq_true_iff.1 hs with hst | hst <;> obtain rfl := eq_of_beq hst
  · exact hread w
  · simp only [ownTable, Nat.not_le.2 hlt, if_false, hread]

end Long

/-! ### Short forms (R299, R305) -/

section Short

variable {op : BitVec 5} {h : Hd} {a : BitVec 4} {read : Parcel → Instr} (he : i.encode = [shortWord op h a])
include he

/-- The short forms of a stream's own table. -/
theorem decode_short {own : StreamId} (hs : (st == own) = true) (hop : 2 ≤ op.toNat)
    (hread : ∀ w, ownShort own w op.toNat = some (read w)) (hi : read (shortWord op h a) = i) :
    decode st (i.encode ++ rest) = .ok (i, i.encode.length) := by
  obtain rfl := eq_of_beq hs
  refine decode_of_short rest hw he ?_
  rw [rawShort_own (by rwa [opcode_shortWord]), opcode_shortWord, hread, hi]

/-- The short forms of the C stream, in an owner's section or in Cobbler's image. -/
theorem decode_shortC (hs : (st == .c || st == .f) = true) (hop : 2 ≤ op.toNat)
    (hread : ∀ w, rawShortC w op.toNat = some (read w)) (hi : read (shortWord op h a) = i) :
    decode st (i.encode ++ rest) = .ok (i, i.encode.length) := by
  rcases Bool.or_eq_true_iff.1 hs with hst | hst
  · exact decode_short rest hw he hst hop hread hi
  · exact decode_short rest hw he hst hop hread hi

end Short

end Shapes

/-- NOP and END stand on every stream. -/
theorem decode_nop {st : StreamId} {h : Hd} (rest : List Parcel) (hh : h.isShort = true) :
    decode st ((Instr.nop h).encode ++ rest) = .ok (.nop h, 1) := by
  refine decode_of_short rest hh rfl ?_
  simp only [rawShort, opcode_shortWord, hdS_shortWord hh]
  rfl

theorem decode_endS {st : StreamId} {h : Hd} (rest : List Parcel) (hh : h.isShort = true) :
    decode st ((Instr.endS h).encode ++ rest) = .ok (.endS h, 1) := by
  refine decode_of_short rest hh rfl ?_
  simp only [rawShort, opcode_shortWord, hdS_shortWord hh]
  rfl

theorem short_4 {h : Hd} (hh : h.isShort = true) (op : BitVec 5) {mk : Hd → BitVec 4 → Instr} (a : BitVec 4) :
    (fun w => mk (hdS w) (w.extractLsb' 0 4)) (shortWord op h a) = mk h a := by
  simp only [hdS_shortWord hh, operand_shortWord]

theorem short_z1_3 {h : Hd} (hh : h.isShort = true) (op : BitVec 5) {mk : Hd → BitVec 3 → Instr} (a : BitVec 3) :
    (fun w => mk (hdS w) (w.extractLsb' 0 3)) (shortWord op h (0#1 ++ a)) = mk h a := by
  simp only [hdS_shortWord hh, predicate_shortWord]

/-- A block header is the same word on every stream (R301): bits 31-28 are 1, and no opcode of a long form reaches it. -/
theorem decode_blockHeader {st : StreamId} {len cnt : BitVec 12} {cs : BitVec 1} {stg : BitVec 3} (rest : List Parcel)
    (hw : (Instr.blockHeader len cs stg cnt).wellFormed = true) :
    decode st ((Instr.blockHeader len cs stg cnt).encode ++ rest) = .ok (.blockHeader len cs stg cnt, 2) := by
  have hop : 0x70 ≤ ((0xF#4 ++ len ++ cs ++ stg ++ cnt).extractLsb' 24 7).toNat := by
    have hsplit : (0xF#4 ++ len ++ cs ++ stg ++ cnt).extractLsb' 24 7 = (0xF#4 ++ len).extractLsb' 8 7 := by
      simp (disch := decide) only [extractLsb'_append_high]
    rw [hsplit, BitVec.extractLsb'_toNat, BitVec.toNat_append, ← Nat.shiftLeft_add_eq_or_of_lt len.isLt]
    simp only [BitVec.toNat_ofNat]
    omega
  refine decode_of_two rest hw rfl ?bit31 ?reading ?unprivileged
  case bit31 =>
    simp only [BitVec.getLsbD_append]
    simp
  case reading =>
    simp only [rawLong]
    rw [if_pos hop, rawHeader]
    simp (disch := decide) only [extractLsb'_append_low, extractLsb'_append_high, extractLsb'_whole]
  case unprivileged => exact fun hp => absurd (hop.trans hp.2.2) (by decide)

/-! ### Operand formats (R303): the fields among the 16 operand bits, with zeros between them -/

section Formats

variable (top : BitVec 8) (h : Hd)

theorem guarded_2_z1_3_4_z1_1 {mk : Hd → BitVec 2 → BitVec 3 → BitVec 4 → BitVec 1 → Instr}
    (a : BitVec 2) (b : BitVec 3) (c : BitVec 4) (d : BitVec 1) :
    (fun w => mk (hdG w) (w.extractLsb' 10 2) (w.extractLsb' 6 3) (w.extractLsb' 2 4) (w.extractLsb' 0 1))
      (longWord top h (h.g ++ a ++ 0#1 ++ b ++ c ++ 0#1 ++ d)) = mk h a b c d := by
  simp (disch := decide) only [hdG_longWord, extractLsb'_longWord, extractLsb'_append_low, extractLsb'_append_high,
    extractLsb'_whole]

theorem guarded_2_z4_4_z1_1 {mk : Hd → BitVec 2 → BitVec 4 → BitVec 1 → Instr}
    (a : BitVec 2) (b : BitVec 4) (c : BitVec 1) :
    (fun w => mk (hdG w) (w.extractLsb' 10 2) (w.extractLsb' 2 4) (w.extractLsb' 0 1))
      (longWord top h (h.g ++ a ++ 0#4 ++ b ++ 0#1 ++ c)) = mk h a b c := by
  simp (disch := decide) only [hdG_longWord, extractLsb'_longWord, extractLsb'_append_low, extractLsb'_append_high,
    extractLsb'_whole]

theorem guarded_3_3_4_z1_1 {mk : Hd → BitVec 3 → BitVec 3 → BitVec 4 → BitVec 1 → Instr}
    (a b : BitVec 3) (c : BitVec 4) (d : BitVec 1) :
    (fun w => mk (hdG w) (w.extractLsb' 9 3) (w.extractLsb' 6 3) (w.extractLsb' 2 4) (w.extractLsb' 0 1))
      (longWord top h (h.g ++ a ++ b ++ c ++ 0#1 ++ d)) = mk h a b c d := by
  simp (disch := decide) only [hdG_longWord, extractLsb'_longWord, extractLsb'_append_low, extractLsb'_append_high,
    extractLsb'_whole]

theorem guarded_4_3_5 {mk : Hd → BitVec 4 → BitVec 3 → BitVec 5 → Instr}
    (a : BitVec 4) (b : BitVec 3) (c : BitVec 5) :
    (fun w => mk (hdG w) (w.extractLsb' 8 4) (w.extractLsb' 5 3) (w.extractLsb' 0 5))
      (longWord top h (h.g ++ a ++ b ++ c)) = mk h a b c := by
  simp (disch := decide) only [hdG_longWord, extractLsb'_longWord, extractLsb'_append_low, extractLsb'_append_high,
    extractLsb'_whole]

theorem guarded_4_3_z1_1_3 {mk : Hd → BitVec 4 → BitVec 3 → BitVec 1 → BitVec 3 → Instr}
    (a : BitVec 4) (b : BitVec 3) (c : BitVec 1) (d : BitVec 3) :
    (fun w => mk (hdG w) (w.extractLsb' 8 4) (w.extractLsb' 5 3) (w.extractLsb' 3 1) (w.extractLsb' 0 3))
      (longWord top h (h.g ++ a ++ b ++ 0#1 ++ c ++ d)) = mk h a b c d := by
  simp (disch := decide) only [hdG_longWord, extractLsb'_longWord, extractLsb'_append_low, extractLsb'_append_high,
    extractLsb'_whole]

theorem guarded_4_3_z5 {mk : Hd → BitVec 4 → BitVec 3 → Instr} (a : BitVec 4) (b : BitVec 3) :
    (fun w => mk (hdG w) (w.extractLsb' 8 4) (w.extractLsb' 5 3))
      (longWord top h (h.g ++ a ++ b ++ 0#5)) = mk h a b := by
  simp (disch := decide) only [hdG_longWord, extractLsb'_longWord, extractLsb'_append_low, extractLsb'_append_high,
    extractLsb'_whole]

theorem guarded_4_4_4 {mk : Hd → BitVec 4 → BitVec 4 → BitVec 4 → Instr} (a b c : BitVec 4) :
    (fun w => mk (hdG w) (w.extractLsb' 8 4) (w.extractLsb' 4 4) (w.extractLsb' 0 4))
      (longWord top h (h.g ++ a ++ b ++ c)) = mk h a b c := by
  simp (disch := decide) only [hdG_longWord, extractLsb'_longWord, extractLsb'_append_low, extractLsb'_append_high,
    extractLsb'_whole]

theorem guarded_4_4_z4 {mk : Hd → BitVec 4 → BitVec 4 → Instr} (a b : BitVec 4) :
    (fun w => mk (hdG w) (w.extractLsb' 8 4) (w.extractLsb' 4 4))
      (longWord top h (h.g ++ a ++ b ++ 0#4)) = mk h a b := by
  simp (disch := decide) only [hdG_longWord, extractLsb'_longWord, extractLsb'_append_low, extractLsb'_append_high,
    extractLsb'_whole]

theorem guarded_4_8 {mk : Hd → BitVec 4 → BitVec 8 → Instr} (a : BitVec 4) (b : BitVec 8) :
    (fun w => mk (hdG w) (w.extractLsb' 8 4) (w.extractLsb' 0 8)) (longWord top h (h.g ++ a ++ b)) = mk h a b := by
  simp (disch := decide) only [hdG_longWord, extractLsb'_longWord, extractLsb'_append_low, extractLsb'_append_high,
    extractLsb'_whole]

theorem guarded_4_z1_3_z4 {mk : Hd → BitVec 4 → BitVec 3 → Instr} (a : BitVec 4) (b : BitVec 3) :
    (fun w => mk (hdG w) (w.extractLsb' 8 4) (w.extractLsb' 4 3))
      (longWord top h (h.g ++ a ++ 0#1 ++ b ++ 0#4)) = mk h a b := by
  simp (disch := decide) only [hdG_longWord, extractLsb'_longWord, extractLsb'_append_low, extractLsb'_append_high,
    extractLsb'_whole]

theorem guarded_4_z2_6 {mk : Hd → BitVec 4 → BitVec 6 → Instr} (a : BitVec 4) (b : BitVec 6) :
    (fun w => mk (hdG w) (w.extractLsb' 8 4) (w.extractLsb' 0 6))
      (longWord top h (h.g ++ a ++ 0#2 ++ b)) = mk h a b := by
  simp (disch := decide) only [hdG_longWord, extractLsb'_longWord, extractLsb'_append_low, extractLsb'_append_high,
    extractLsb'_whole]

theorem guarded_4_z4_4 {mk : Hd → BitVec 4 → BitVec 4 → Instr} (a b : BitVec 4) :
    (fun w => mk (hdG w) (w.extractLsb' 8 4) (w.extractLsb' 0 4))
      (longWord top h (h.g ++ a ++ 0#4 ++ b)) = mk h a b := by
  simp (disch := decide) only [hdG_longWord, extractLsb'_longWord, extractLsb'_append_low, extractLsb'_append_high,
    extractLsb'_whole]

theorem guarded_4_z6_2 {mk : Hd → BitVec 4 → BitVec 2 → Instr} (a : BitVec 4) (b : BitVec 2) :
    (fun w => mk (hdG w) (w.extractLsb' 8 4) (w.extractLsb' 0 2))
      (longWord top h (h.g ++ a ++ 0#6 ++ b)) = mk h a b := by
  simp (disch := decide) only [hdG_longWord, extractLsb'_longWord, extractLsb'_append_low, extractLsb'_append_high,
    extractLsb'_whole]

theorem guarded_4_z8 {mk : Hd → BitVec 4 → Instr} (a : BitVec 4) :
    (fun w => mk (hdG w) (w.extractLsb' 8 4)) (longWord top h (h.g ++ a ++ 0#8)) = mk h a := by
  simp (disch := decide) only [hdG_longWord, extractLsb'_longWord, extractLsb'_append_low, extractLsb'_append_high,
    extractLsb'_whole]

theorem guarded_5_3_4 {mk : Hd → BitVec 5 → BitVec 3 → BitVec 4 → Instr}
    (a : BitVec 5) (b : BitVec 3) (c : BitVec 4) :
    (fun w => mk (hdG w) (w.extractLsb' 7 5) (w.extractLsb' 4 3) (w.extractLsb' 0 4))
      (longWord top h (h.g ++ a ++ b ++ c)) = mk h a b c := by
  simp (disch := decide) only [hdG_longWord, extractLsb'_longWord, extractLsb'_append_low, extractLsb'_append_high,
    extractLsb'_whole]

theorem guarded_5_3_z4 {mk : Hd → BitVec 5 → BitVec 3 → Instr} (a : BitVec 5) (b : BitVec 3) :
    (fun w => mk (hdG w) (w.extractLsb' 7 5) (w.extractLsb' 4 3))
      (longWord top h (h.g ++ a ++ b ++ 0#4)) = mk h a b := by
  simp (disch := decide) only [hdG_longWord, extractLsb'_longWord, extractLsb'_append_low, extractLsb'_append_high,
    extractLsb'_whole]

theorem guarded_5_5_z2 {mk : Hd → BitVec 5 → BitVec 5 → Instr} (a b : BitVec 5) :
    (fun w => mk (hdG w) (w.extractLsb' 7 5) (w.extractLsb' 2 5))
      (longWord top h (h.g ++ a ++ b ++ 0#2)) = mk h a b := by
  simp (disch := decide) only [hdG_longWord, extractLsb'_longWord, extractLsb'_append_low, extractLsb'_append_high,
    extractLsb'_whole]

theorem guarded_5_z3_2_z2 {mk : Hd → BitVec 5 → BitVec 2 → Instr} (a : BitVec 5) (b : BitVec 2) :
    (fun w => mk (hdG w) (w.extractLsb' 7 5) (w.extractLsb' 2 2))
      (longWord top h (h.g ++ a ++ 0#3 ++ b ++ 0#2)) = mk h a b := by
  simp (disch := decide) only [hdG_longWord, extractLsb'_longWord, extractLsb'_append_low, extractLsb'_append_high,
    extractLsb'_whole]

theorem guarded_5_z7 {mk : Hd → BitVec 5 → Instr} (a : BitVec 5) :
    (fun w => mk (hdG w) (w.extractLsb' 7 5)) (longWord top h (h.g ++ a ++ 0#7)) = mk h a := by
  simp (disch := decide) only [hdG_longWord, extractLsb'_longWord, extractLsb'_append_low, extractLsb'_append_high,
    extractLsb'_whole]

theorem guarded_z12 {mk : Hd → Instr} :
    (fun w => mk (hdG w)) (longWord top h (h.g ++ 0#12)) = mk h := by
  simp (disch := decide) only [hdG_longWord, extractLsb'_append_high, extractLsb'_whole]

theorem guarded_z1_3_4_4 {mk : Hd → BitVec 3 → BitVec 4 → BitVec 4 → Instr} (a : BitVec 3) (b c : BitVec 4) :
    (fun w => mk (hdG w) (w.extractLsb' 8 3) (w.extractLsb' 4 4) (w.extractLsb' 0 4))
      (longWord top h (h.g ++ 0#1 ++ a ++ b ++ c)) = mk h a b c := by
  simp (disch := decide) only [hdG_longWord, extractLsb'_longWord, extractLsb'_append_low, extractLsb'_append_high,
    extractLsb'_whole]

theorem guarded_z1_3_4_z1_3 {mk : Hd → BitVec 3 → BitVec 4 → BitVec 3 → Instr}
    (a : BitVec 3) (b : BitVec 4) (c : BitVec 3) :
    (fun w => mk (hdG w) (w.extractLsb' 8 3) (w.extractLsb' 4 4) (w.extractLsb' 0 3))
      (longWord top h (h.g ++ 0#1 ++ a ++ b ++ 0#1 ++ c)) = mk h a b c := by
  simp (disch := decide) only [hdG_longWord, extractLsb'_longWord, extractLsb'_append_low, extractLsb'_append_high,
    extractLsb'_whole]

theorem guarded_z1_3_4_z4 {mk : Hd → BitVec 3 → BitVec 4 → Instr} (a : BitVec 3) (b : BitVec 4) :
    (fun w => mk (hdG w) (w.extractLsb' 8 3) (w.extractLsb' 4 4))
      (longWord top h (h.g ++ 0#1 ++ a ++ b ++ 0#4)) = mk h a b := by
  simp (disch := decide) only [hdG_longWord, extractLsb'_longWord, extractLsb'_append_low, extractLsb'_append_high,
    extractLsb'_whole]

theorem guarded_z1_3_z1_3_z1_3 {mk : Hd → BitVec 3 → BitVec 3 → BitVec 3 → Instr} (a b c : BitVec 3) :
    (fun w => mk (hdG w) (w.extractLsb' 8 3) (w.extractLsb' 4 3) (w.extractLsb' 0 3))
      (longWord top h (h.g ++ 0#1 ++ a ++ 0#1 ++ b ++ 0#1 ++ c)) = mk h a b c := by
  simp (disch := decide) only [hdG_longWord, extractLsb'_longWord, extractLsb'_append_low, extractLsb'_append_high,
    extractLsb'_whole]

theorem guarded_z1_3_z1_3_z4 {mk : Hd → BitVec 3 → BitVec 3 → Instr} (a b : BitVec 3) :
    (fun w => mk (hdG w) (w.extractLsb' 8 3) (w.extractLsb' 4 3))
      (longWord top h (h.g ++ 0#1 ++ a ++ 0#1 ++ b ++ 0#4)) = mk h a b := by
  simp (disch := decide) only [hdG_longWord, extractLsb'_longWord, extractLsb'_append_low, extractLsb'_append_high,
    extractLsb'_whole]

theorem guarded_z1_3_z4_4 {mk : Hd → BitVec 3 → BitVec 4 → Instr} (a : BitVec 3) (b : BitVec 4) :
    (fun w => mk (hdG w) (w.extractLsb' 8 3) (w.extractLsb' 0 4))
      (longWord top h (h.g ++ 0#1 ++ a ++ 0#4 ++ b)) = mk h a b := by
  simp (disch := decide) only [hdG_longWord, extractLsb'_longWord, extractLsb'_append_low, extractLsb'_append_high,
    extractLsb'_whole]

theorem guarded_z4_4_4 {mk : Hd → BitVec 4 → BitVec 4 → Instr} (a b : BitVec 4) :
    (fun w => mk (hdG w) (w.extractLsb' 4 4) (w.extractLsb' 0 4))
      (longWord top h (h.g ++ 0#4 ++ a ++ b)) = mk h a b := by
  simp (disch := decide) only [hdG_longWord, extractLsb'_longWord, extractLsb'_append_low, extractLsb'_append_high,
    extractLsb'_whole]

theorem guarded_z4_4_z4 {mk : Hd → BitVec 4 → Instr} (a : BitVec 4) :
    (fun w => mk (hdG w) (w.extractLsb' 4 4)) (longWord top h (h.g ++ 0#4 ++ a ++ 0#4)) = mk h a := by
  simp (disch := decide) only [hdG_longWord, extractLsb'_longWord, extractLsb'_append_low, extractLsb'_append_high,
    extractLsb'_whole]

theorem guarded_z5_3_z4 {mk : Hd → BitVec 3 → Instr} (a : BitVec 3) :
    (fun w => mk (hdG w) (w.extractLsb' 4 3)) (longWord top h (h.g ++ 0#5 ++ a ++ 0#4)) = mk h a := by
  simp (disch := decide) only [hdG_longWord, extractLsb'_longWord, extractLsb'_append_low, extractLsb'_append_high,
    extractLsb'_whole]

theorem guarded_z8_4 {mk : Hd → BitVec 4 → Instr} (a : BitVec 4) :
    (fun w => mk (hdG w) (w.extractLsb' 0 4)) (longWord top h (h.g ++ 0#8 ++ a)) = mk h a := by
  simp (disch := decide) only [hdG_longWord, extractLsb'_longWord, extractLsb'_append_low, extractLsb'_append_high,
    extractLsb'_whole]

theorem plain_16 {mk : Hd → BitVec 16 → Instr} (hg : h.unguarded = true) (a : BitVec 16) :
    (fun w => mk (hdU w) (w.extractLsb' 0 16)) (longWord top h (a)) = mk h a := by
  simp (disch := decide) only [hdU_longWord hg, extractLsb'_longWord, extractLsb'_whole]

theorem plain_4_12 {mk : Hd → BitVec 4 → BitVec 12 → Instr} (hg : h.unguarded = true) (a : BitVec 4) (b : BitVec 12) :
    (fun w => mk (hdU w) (w.extractLsb' 12 4) (w.extractLsb' 0 12)) (longWord top h (a ++ b)) = mk h a b := by
  simp (disch := decide) only [hdU_longWord hg, extractLsb'_longWord, extractLsb'_append_low, extractLsb'_append_high,
    extractLsb'_whole]

theorem plain_4_4_1_z1_6 {mk : Hd → BitVec 4 → BitVec 4 → BitVec 1 → BitVec 6 → Instr} (hg : h.unguarded = true)
    (a b : BitVec 4) (c : BitVec 1) (d : BitVec 6) :
    (fun w => mk (hdU w) (w.extractLsb' 12 4) (w.extractLsb' 8 4) (w.extractLsb' 7 1) (w.extractLsb' 0 6))
      (longWord top h (a ++ b ++ c ++ 0#1 ++ d)) = mk h a b c d := by
  simp (disch := decide) only [hdU_longWord hg, extractLsb'_longWord, extractLsb'_append_low, extractLsb'_append_high,
    extractLsb'_whole]

theorem plain_4_4_1_z3_4 {mk : Hd → BitVec 4 → BitVec 4 → BitVec 1 → BitVec 4 → Instr} (hg : h.unguarded = true)
    (a b : BitVec 4) (c : BitVec 1) (d : BitVec 4) :
    (fun w => mk (hdU w) (w.extractLsb' 12 4) (w.extractLsb' 8 4) (w.extractLsb' 7 1) (w.extractLsb' 0 4))
      (longWord top h (a ++ b ++ c ++ 0#3 ++ d)) = mk h a b c d := by
  simp (disch := decide) only [hdU_longWord hg, extractLsb'_longWord, extractLsb'_append_low, extractLsb'_append_high,
    extractLsb'_whole]

theorem plain_4_4_1_z7 {mk : Hd → BitVec 4 → BitVec 4 → BitVec 1 → Instr} (hg : h.unguarded = true)
    (a b : BitVec 4) (c : BitVec 1) :
    (fun w => mk (hdU w) (w.extractLsb' 12 4) (w.extractLsb' 8 4) (w.extractLsb' 7 1))
      (longWord top h (a ++ b ++ c ++ 0#7)) = mk h a b c := by
  simp (disch := decide) only [hdU_longWord hg, extractLsb'_longWord, extractLsb'_append_low, extractLsb'_append_high,
    extractLsb'_whole]

theorem plain_4_4_3_2_z3 {mk : Hd → BitVec 4 → BitVec 4 → BitVec 3 → BitVec 2 → Instr} (hg : h.unguarded = true)
    (a b : BitVec 4) (c : BitVec 3) (d : BitVec 2) :
    (fun w => mk (hdU w) (w.extractLsb' 12 4) (w.extractLsb' 8 4) (w.extractLsb' 5 3) (w.extractLsb' 3 2))
      (longWord top h (a ++ b ++ c ++ d ++ 0#3)) = mk h a b c d := by
  simp (disch := decide) only [hdU_longWord hg, extractLsb'_longWord, extractLsb'_append_low, extractLsb'_append_high,
    extractLsb'_whole]

theorem plain_4_4_4_1_3 {mk : Hd → BitVec 4 → BitVec 4 → BitVec 4 → BitVec 1 → BitVec 3 → Instr} (hg : h.unguarded = true)
    (a b c : BitVec 4) (d : BitVec 1) (e : BitVec 3) :
    (fun w => mk (hdU w) (w.extractLsb' 12 4) (w.extractLsb' 8 4) (w.extractLsb' 4 4) (w.extractLsb' 3 1)
        (w.extractLsb' 0 3))
      (longWord top h (a ++ b ++ c ++ d ++ e)) = mk h a b c d e := by
  simp (disch := decide) only [hdU_longWord hg, extractLsb'_longWord, extractLsb'_append_low, extractLsb'_append_high,
    extractLsb'_whole]

theorem plain_4_4_4_1_z3 {mk : Hd → BitVec 4 → BitVec 4 → BitVec 4 → BitVec 1 → Instr} (hg : h.unguarded = true)
    (a b c : BitVec 4) (d : BitVec 1) :
    (fun w => mk (hdU w) (w.extractLsb' 12 4) (w.extractLsb' 8 4) (w.extractLsb' 4 4) (w.extractLsb' 3 1))
      (longWord top h (a ++ b ++ c ++ d ++ 0#3)) = mk h a b c d := by
  simp (disch := decide) only [hdU_longWord hg, extractLsb'_longWord, extractLsb'_append_low, extractLsb'_append_high,
    extractLsb'_whole]

theorem plain_4_4_4_4 {mk : Hd → BitVec 4 → BitVec 4 → BitVec 4 → BitVec 4 → Instr} (hg : h.unguarded = true)
    (a b c d : BitVec 4) :
    (fun w => mk (hdU w) (w.extractLsb' 12 4) (w.extractLsb' 8 4) (w.extractLsb' 4 4) (w.extractLsb' 0 4))
      (longWord top h (a ++ b ++ c ++ d)) = mk h a b c d := by
  simp (disch := decide) only [hdU_longWord hg, extractLsb'_longWord, extractLsb'_append_low, extractLsb'_append_high,
    extractLsb'_whole]

theorem plain_4_4_z1_3_2_z2 {mk : Hd → BitVec 4 → BitVec 4 → BitVec 3 → BitVec 2 → Instr} (hg : h.unguarded = true)
    (a b : BitVec 4) (c : BitVec 3) (d : BitVec 2) :
    (fun w => mk (hdU w) (w.extractLsb' 12 4) (w.extractLsb' 8 4) (w.extractLsb' 4 3) (w.extractLsb' 2 2))
      (longWord top h (a ++ b ++ 0#1 ++ c ++ d ++ 0#2)) = mk h a b c d := by
  simp (disch := decide) only [hdU_longWord hg, extractLsb'_longWord, extractLsb'_append_low, extractLsb'_append_high,
    extractLsb'_whole]

theorem plain_4_4_z3_5 {mk : Hd → BitVec 4 → BitVec 4 → BitVec 5 → Instr} (hg : h.unguarded = true)
    (a b : BitVec 4) (c : BitVec 5) :
    (fun w => mk (hdU w) (w.extractLsb' 12 4) (w.extractLsb' 8 4) (w.extractLsb' 0 5))
      (longWord top h (a ++ b ++ 0#3 ++ c)) = mk h a b c := by
  simp (disch := decide) only [hdU_longWord hg, extractLsb'_longWord, extractLsb'_append_low, extractLsb'_append_high,
    extractLsb'_whole]

theorem plain_4_4_z4_1_3 {mk : Hd → BitVec 4 → BitVec 4 → BitVec 1 → BitVec 3 → Instr} (hg : h.unguarded = true)
    (a b : BitVec 4) (c : BitVec 1) (d : BitVec 3) :
    (fun w => mk (hdU w) (w.extractLsb' 12 4) (w.extractLsb' 8 4) (w.extractLsb' 3 1) (w.extractLsb' 0 3))
      (longWord top h (a ++ b ++ 0#4 ++ c ++ d)) = mk h a b c d := by
  simp (disch := decide) only [hdU_longWord hg, extractLsb'_longWord, extractLsb'_append_low, extractLsb'_append_high,
    extractLsb'_whole]

theorem plain_z4_12 {mk : Hd → BitVec 12 → Instr} (hg : h.unguarded = true) (a : BitVec 12) :
    (fun w => mk (hdU w) (w.extractLsb' 0 12)) (longWord top h (0#4 ++ a)) = mk h a := by
  simp (disch := decide) only [hdU_longWord hg, extractLsb'_longWord, extractLsb'_append_low, extractLsb'_whole]

end Formats

/-! ### Every instruction -/

/-- Settles O37: each form is read by its stream's table, whose fields lie where the encoder put them. -/
theorem decodeEncode : Obligations.DecodeEncode := by
  intro i st rest hw hs he
  cases i with
  | blockHeader => exact decode_blockHeader rest hw
  | nop => exact decode_nop rest hw
  | endS => exact decode_endS rest hw
  | idle => exact decode_common rest hw rfl (by decide) (fun _ => rfl) (plain_z4_12 _ _ hw _)
  | join => exact decode_common rest hw rfl (by decide) (fun _ => rfl) (plain_z4_12 _ _ hw _)
  | sync => exact decode_common rest hw rfl (by decide) (fun _ => rfl) (plain_4_12 _ _ (Bool.and_eq_true_iff.1 hw).1 _ _)
  | mark => exact decode_common rest hw rfl (by decide) (fun _ => rfl) (plain_z4_12 _ _ hw _)
  | inc => exact decode_shortC rest hw rfl hs (by decide) (fun _ => rfl) (short_4 hw _ _)
  | dec => exact decode_shortC rest hw rfl hs (by decide) (fun _ => rfl) (short_4 hw _ _)
  | neg => exact decode_shortC rest hw rfl hs (by decide) (fun _ => rfl) (short_4 hw _ _)
  | not => exact decode_shortC rest hw rfl hs (by decide) (fun _ => rfl) (short_4 hw _ _)
  | clr => exact decode_shortC rest hw rfl hs (by decide) (fun _ => rfl) (short_4 hw _ _)
  | pclr => exact decode_shortC rest hw rfl hs (by decide) (fun _ => rfl) (short_z1_3 (Bool.and_eq_true_iff.1 hw).1 _ _)
  | pset => exact decode_shortC rest hw rfl hs (by decide) (fun _ => rfl) (short_z1_3 (Bool.and_eq_true_iff.1 hw).1 _ _)
  | pnot => exact decode_shortC rest hw rfl hs (by decide) (fun _ => rfl) (short_z1_3 (Bool.and_eq_true_iff.1 hw).1 _ _)
  | rdtk => exact decode_shortC rest hw rfl hs (by decide) (fun _ => rfl) (short_4 hw _ _)
  | add => exact decode_c rest hw rfl hs (by decide) (fun _ => rfl) (guarded_4_4_4 _ _ _ _ _)
  | sub => exact decode_c rest hw rfl hs (by decide) (fun _ => rfl) (guarded_4_4_4 _ _ _ _ _)
  | and => exact decode_c rest hw rfl hs (by decide) (fun _ => rfl) (guarded_4_4_4 _ _ _ _ _)
  | or => exact decode_c rest hw rfl hs (by decide) (fun _ => rfl) (guarded_4_4_4 _ _ _ _ _)
  | xor => exact decode_c rest hw rfl hs (by decide) (fun _ => rfl) (guarded_4_4_4 _ _ _ _ _)
  | shl => exact decode_c rest hw rfl hs (by decide) (fun _ => rfl) (guarded_4_4_4 _ _ _ _ _)
  | shr => exact decode_c rest hw rfl hs (by decide) (fun _ => rfl) (guarded_4_4_4 _ _ _ _ _)
  | sar => exact decode_c rest hw rfl hs (by decide) (fun _ => rfl) (guarded_4_4_4 _ _ _ _ _)
  | mul => exact decode_c rest hw rfl hs (by decide) (fun _ => rfl) (guarded_4_4_4 _ _ _ _ _)
  | mulh => exact decode_c rest hw rfl hs (by decide) (fun _ => rfl) (guarded_4_4_4 _ _ _ _ _)
  | mulhu => exact decode_c rest hw rfl hs (by decide) (fun _ => rfl) (guarded_4_4_4 _ _ _ _ _)
  | min => exact decode_c rest hw rfl hs (by decide) (fun _ => rfl) (guarded_4_4_4 _ _ _ _ _)
  | max => exact decode_c rest hw rfl hs (by decide) (fun _ => rfl) (guarded_4_4_4 _ _ _ _ _)
  | minu => exact decode_c rest hw rfl hs (by decide) (fun _ => rfl) (guarded_4_4_4 _ _ _ _ _)
  | maxu => exact decode_c rest hw rfl hs (by decide) (fun _ => rfl) (guarded_4_4_4 _ _ _ _ _)
  | rotl => exact decode_c rest hw rfl hs (by decide) (fun _ => rfl) (guarded_4_4_4 _ _ _ _ _)
  | rotr => exact decode_c rest hw rfl hs (by decide) (fun _ => rfl) (guarded_4_4_4 _ _ _ _ _)
  | div => exact decode_c rest hw rfl hs (by decide) (fun _ => rfl) (guarded_4_4_4 _ _ _ _ _)
  | divu => exact decode_c rest hw rfl hs (by decide) (fun _ => rfl) (guarded_4_4_4 _ _ _ _ _)
  | rem => exact decode_c rest hw rfl hs (by decide) (fun _ => rfl) (guarded_4_4_4 _ _ _ _ _)
  | remu => exact decode_c rest hw rfl hs (by decide) (fun _ => rfl) (guarded_4_4_4 _ _ _ _ _)
  | clz => exact decode_c rest hw rfl hs (by decide) (fun _ => rfl) (guarded_4_4_z4 _ _ _ _)
  | ctz => exact decode_c rest hw rfl hs (by decide) (fun _ => rfl) (guarded_4_4_z4 _ _ _ _)
  | popc => exact decode_c rest hw rfl hs (by decide) (fun _ => rfl) (guarded_4_4_z4 _ _ _ _)
  | abs => exact decode_c rest hw rfl hs (by decide) (fun _ => rfl) (guarded_4_4_z4 _ _ _ _)
  | sextB => exact decode_c rest hw rfl hs (by decide) (fun _ => rfl) (guarded_4_4_z4 _ _ _ _)
  | sextH => exact decode_c rest hw rfl hs (by decide) (fun _ => rfl) (guarded_4_4_z4 _ _ _ _)
  | sextW => exact decode_c rest hw rfl hs (by decide) (fun _ => rfl) (guarded_4_4_z4 _ _ _ _)
  | zextB => exact decode_c rest hw rfl hs (by decide) (fun _ => rfl) (guarded_4_4_z4 _ _ _ _)
  | zextH => exact decode_c rest hw rfl hs (by decide) (fun _ => rfl) (guarded_4_4_z4 _ _ _ _)
  | zextW => exact decode_c rest hw rfl hs (by decide) (fun _ => rfl) (guarded_4_4_z4 _ _ _ _)
  | bswap => exact decode_c rest hw rfl hs (by decide) (fun _ => rfl) (guarded_4_4_z4 _ _ _ _)
  | sel => exact decode_c rest hw rfl hs (by decide) (fun _ => rfl) (plain_4_4_4_4 _ _ (Bool.and_eq_true_iff.1 hw).1 _ _ _ _)
  | csel => exact decode_c rest hw rfl hs (by decide) (fun _ => rfl) (plain_4_4_4_4 _ _ (Bool.and_eq_true_iff.1 hw).1 _ _ _ _)
  | ceq => exact decode_c rest hw rfl hs (by decide) (fun _ => rfl) (guarded_z1_3_4_4 _ _ _ _ _)
  | cne => exact decode_c rest hw rfl hs (by decide) (fun _ => rfl) (guarded_z1_3_4_4 _ _ _ _ _)
  | clt => exact decode_c rest hw rfl hs (by decide) (fun _ => rfl) (guarded_z1_3_4_4 _ _ _ _ _)
  | cltu => exact decode_c rest hw rfl hs (by decide) (fun _ => rfl) (guarded_z1_3_4_4 _ _ _ _ _)
  | cle => exact decode_c rest hw rfl hs (by decide) (fun _ => rfl) (guarded_z1_3_4_4 _ _ _ _ _)
  | cleu => exact decode_c rest hw rfl hs (by decide) (fun _ => rfl) (guarded_z1_3_4_4 _ _ _ _ _)
  | addi => exact decode_c rest hw rfl hs (by decide) (fun _ => rfl) (guarded_4_8 _ _ _ _)
  | andi => exact decode_c rest hw rfl hs (by decide) (fun _ => rfl) (guarded_4_8 _ _ _ _)
  | ori => exact decode_c rest hw rfl hs (by decide) (fun _ => rfl) (guarded_4_8 _ _ _ _)
  | xori => exact decode_c rest hw rfl hs (by decide) (fun _ => rfl) (guarded_4_8 _ _ _ _)
  | shli => exact decode_c rest hw rfl hs (by decide) (fun _ => rfl) (guarded_4_z2_6 _ _ _ _)
  | shri => exact decode_c rest hw rfl hs (by decide) (fun _ => rfl) (guarded_4_z2_6 _ _ _ _)
  | sari => exact decode_c rest hw rfl hs (by decide) (fun _ => rfl) (guarded_4_z2_6 _ _ _ _)
  | ceqi => exact decode_c rest hw rfl hs (by decide) (fun _ => rfl) (guarded_4_3_5 _ _ _ _ _)
  | clti => exact decode_c rest hw rfl hs (by decide) (fun _ => rfl) (guarded_4_3_5 _ _ _ _ _)
  | cltui => exact decode_c rest hw rfl hs (by decide) (fun _ => rfl) (guarded_4_3_5 _ _ _ _ _)
  | movi => exact decode_c rest hw rfl hs (by decide) (fun _ => rfl) (plain_4_12 _ _ hw _ _)
  | movh => exact decode_c rest hw rfl hs (by decide) (fun _ => rfl) (plain_4_12 _ _ hw _ _)
  | ldB => exact decode_c rest hw rfl hs (by decide) (fun _ => rfl) (guarded_4_4_4 _ _ _ _ _)
  | ldBu => exact decode_c rest hw rfl hs (by decide) (fun _ => rfl) (guarded_4_4_4 _ _ _ _ _)
  | ldH => exact decode_c rest hw rfl hs (by decide) (fun _ => rfl) (guarded_4_4_4 _ _ _ _ _)
  | ldHu => exact decode_c rest hw rfl hs (by decide) (fun _ => rfl) (guarded_4_4_4 _ _ _ _ _)
  | ldW => exact decode_c rest hw rfl hs (by decide) (fun _ => rfl) (guarded_4_4_4 _ _ _ _ _)
  | ldWu => exact decode_c rest hw rfl hs (by decide) (fun _ => rfl) (guarded_4_4_4 _ _ _ _ _)
  | ldD => exact decode_c rest hw rfl hs (by decide) (fun _ => rfl) (guarded_4_4_4 _ _ _ _ _)
  | ldsD => exact decode_c rest hw rfl hs (by decide) (fun _ => rfl) (guarded_4_4_4 _ _ _ _ _)
  | stB => exact decode_c rest hw rfl hs (by decide) (fun _ => rfl) (guarded_4_4_4 _ _ _ _ _)
  | stH => exact decode_c rest hw rfl hs (by decide) (fun _ => rfl) (guarded_4_4_4 _ _ _ _ _)
  | stW => exact decode_c rest hw rfl hs (by decide) (fun _ => rfl) (guarded_4_4_4 _ _ _ _ _)
  | stD => exact decode_c rest hw rfl hs (by decide) (fun _ => rfl) (guarded_4_4_4 _ _ _ _ _)
  | rdl => exact decode_c rest hw rfl hs (by decide) (fun _ => rfl) (guarded_4_z2_6 _ _ _ _)
  | rds => exact decode_c rest hw rfl hs (by decide) (fun _ => rfl) (guarded_4_z4_4 _ _ _ _)
  | setlc => exact decode_c rest hw rfl hs (by decide) (fun _ => rfl) (guarded_z1_3_4_z4 _ _ _ _)
  | ags => exact decode_c rest hw rfl hs (by decide) (fun _ => rfl) (guarded_z1_3_4_z1_3 _ _ _ _ _)
  | pute => exact decode_c rest hw rfl hs (by decide) (fun _ => rfl) (guarded_z1_3_4_z4 _ _ _ _)
  | fmt => exact decode_c rest hw rfl hs (by decide) (fun _ => rfl) (guarded_z4_4_z4 _ _ _)
  | pand => exact decode_c rest hw rfl hs (by decide) (fun _ => rfl) (guarded_z1_3_z1_3_z1_3 _ _ _ _ _)
  | por => exact decode_c rest hw rfl hs (by decide) (fun _ => rfl) (guarded_z1_3_z1_3_z1_3 _ _ _ _ _)
  | pxor => exact decode_c rest hw rfl hs (by decide) (fun _ => rfl) (guarded_z1_3_z1_3_z1_3 _ _ _ _ _)
  | pmov => exact decode_c rest hw rfl hs (by decide) (fun _ => rfl) (guarded_z1_3_z1_3_z4 _ _ _ _)
  | trap => exact decode_c rest hw rfl hs (by decide) (fun _ => rfl) (plain_4_12 _ _ hw _ _)
  | claim => exact decode_own rest hw rfl hs (by decide) (fun _ => rfl) (guarded_5_5_z2 _ _ _ _)
  | release => exact decode_own rest hw rfl hs (by decide) (fun _ => rfl) (guarded_5_5_z2 _ _ _ _)
  | ldta => exact decode_own rest hw rfl hs (by decide) (fun _ => rfl) (guarded_5_3_z4 _ _ _ _)
  | ldtb => exact decode_own rest hw rfl hs (by decide) (fun _ => rfl) (guarded_5_3_z4 _ _ _ _)
  | lde => exact decode_own rest hw rfl hs (by decide) (fun _ => rfl) (guarded_5_3_z4 _ _ _ _)
  | ldtf => exact decode_own rest hw rfl hs (by decide) (fun _ => rfl) (guarded_5_3_4 _ _ _ _ _)
  | ldvW => exact decode_own rest hw rfl hs (by decide) (fun _ => rfl) (guarded_4_3_z5 _ _ _ _)
  | ldvH => exact decode_own rest hw rfl hs (by decide) (fun _ => rfl) (guarded_4_3_z5 _ _ _ _)
  | ldvHu => exact decode_own rest hw rfl hs (by decide) (fun _ => rfl) (guarded_4_3_z5 _ _ _ _)
  | ldvB => exact decode_own rest hw rfl hs (by decide) (fun _ => rfl) (guarded_4_3_z5 _ _ _ _)
  | ldvBu => exact decode_own rest hw rfl hs (by decide) (fun _ => rfl) (guarded_4_3_z5 _ _ _ _)
  | ldvrW => exact decode_own rest hw rfl hs (by decide) (fun _ => rfl) (guarded_4_3_z5 _ _ _ _)
  | ldvcW => exact decode_own rest hw rfl hs (by decide) (fun _ => rfl) (guarded_4_3_z5 _ _ _ _)
  | ldg => exact decode_own rest hw rfl hs (by decide) (fun _ => rfl) (plain_4_4_3_2_z3 _ _ hw _ _ _ _)
  | mma => exact decode_own rest hw rfl hs (by decide) (fun _ => rfl) (guarded_5_5_z2 _ _ _ _)
  | mmaw => exact decode_own rest hw rfl hs (by decide) (fun _ => rfl) (guarded_5_5_z2 _ _ _ _)
  | radv => exact decode_own rest hw rfl hs (by decide) (fun _ => rfl) (guarded_z12 _ _)
  | rskip => exact decode_own rest hw rfl hs (by decide) (fun _ => rfl) (guarded_z12 _ _)
  | tcfg => exact decode_own rest hw rfl hs (by decide) (fun _ => rfl) (guarded_5_z3_2_z2 _ _ _ _)
  | teval => exact decode_own rest hw rfl hs (by decide) (fun _ => rfl) (guarded_5_z7 _ _ _)
  | tmask => exact decode_own rest hw rfl hs (by decide) (fun _ => rfl) (guarded_z8_4 _ _ _)
  | tclr => exact decode_own rest hw rfl hs (by decide) (fun _ => rfl) (guarded_z12 _ _)
  | mclr => exact decode_own rest hw rfl hs (by decide) (fun _ => rfl) (guarded_z12 _ _)
  | wrs => exact decode_own rest hw rfl hs (by decide) (fun _ => rfl) (guarded_4_8 _ _ _ _)
  | rdsp => exact decode_own rest hw rfl hs (by decide) (fun _ => rfl) (guarded_4_8 _ _ _ _)
  | eret => exact decode_own rest hw rfl hs (by decide) (fun _ => rfl) (guarded_z12 _ _)
  | waitev => exact decode_own rest hw rfl hs (by decide) (fun _ => rfl) (guarded_4_4_z4 _ _ _ _)
  | wvset => exact decode_own rest hw rfl hs (by decide) (fun _ => rfl) (guarded_z4_4_4 _ _ _ _)
  | cse => exact decode_own rest hw rfl hs (by decide) (fun _ => rfl) (guarded_4_4_4 _ _ _ _ _)
  | zfill => exact decode_own rest hw rfl hs (by decide) (fun _ => rfl) (guarded_4_4_z4 _ _ _ _)
  | park => exact decode_own rest hw rfl hs (by decide) (fun _ => rfl) (guarded_4_4_4 _ _ _ _ _)
  | unpark => exact decode_own rest hw rfl hs (by decide) (fun _ => rfl) (guarded_4_4_4 _ _ _ _ _)
  | xphy => exact decode_own rest hw rfl hs (by decide) (fun _ => rfl) (guarded_2_z4_4_z1_1 _ _ _ _ _)
  | stvW => exact decode_own rest hw rfl hs (by decide) (fun _ => rfl) (guarded_4_3_z5 _ _ _ _)
  | stvH => exact decode_own rest hw rfl hs (by decide) (fun _ => rfl) (guarded_4_3_z5 _ _ _ _)
  | stvHs => exact decode_own rest hw rfl hs (by decide) (fun _ => rfl) (guarded_4_3_z5 _ _ _ _)
  | stvB => exact decode_own rest hw rfl hs (by decide) (fun _ => rfl) (guarded_4_3_z5 _ _ _ _)
  | stvBs => exact decode_own rest hw rfl hs (by decide) (fun _ => rfl) (guarded_4_3_z5 _ _ _ _)
  | stvc => exact decode_own rest hw rfl hs (by decide) (fun _ => rfl) (guarded_4_3_z1_1_3 _ _ _ _ _ _)
  | xrd => exact decode_own rest hw rfl hs (by decide) (fun _ => rfl) (guarded_3_3_4_z1_1 _ _ _ _ _ _)
  | xrdSp => exact decode_own rest hw rfl hs (by decide) (fun _ => rfl) (guarded_3_3_4_z1_1 _ _ _ _ _ _)
  | xrdm => exact decode_own rest hw rfl hs (by decide) (fun _ => rfl) (guarded_3_3_4_z1_1 _ _ _ _ _ _)
  | xwr => exact decode_own rest hw rfl hs (by decide) (fun _ => rfl) (guarded_3_3_4_z1_1 _ _ _ _ _ _)
  | xwrZ => exact decode_own rest hw rfl hs (by decide) (fun _ => rfl) (guarded_3_3_4_z1_1 _ _ _ _ _ _)
  | xput => exact decode_own rest hw rfl hs (by decide) (fun _ => rfl) (guarded_3_3_4_z1_1 _ _ _ _ _ _)
  | xget => exact decode_own rest hw rfl hs (by decide) (fun _ => rfl) (guarded_3_3_4_z1_1 _ _ _ _ _ _)
  | xsumF => exact decode_own rest hw rfl hs (by decide) (fun _ => rfl) (guarded_3_3_4_z1_1 _ _ _ _ _ _)
  | xsumI => exact decode_own rest hw rfl hs (by decide) (fun _ => rfl) (guarded_3_3_4_z1_1 _ _ _ _ _ _)
  | xatAdd => exact decode_own rest hw rfl hs (by decide) (fun _ => rfl) (guarded_2_z1_3_4_z1_1 _ _ _ _ _ _)
  | xatSwp => exact decode_own rest hw rfl hs (by decide) (fun _ => rfl) (guarded_2_z1_3_4_z1_1 _ _ _ _ _ _)
  | xatCas => exact decode_own rest hw rfl hs (by decide) (fun _ => rfl) (guarded_2_z1_3_4_z1_1 _ _ _ _ _ _)
  | xatMax => exact decode_own rest hw rfl hs (by decide) (fun _ => rfl) (guarded_2_z1_3_4_z1_1 _ _ _ _ _ _)
  | xatMin => exact decode_own rest hw rfl hs (by decide) (fun _ => rfl) (guarded_2_z1_3_4_z1_1 _ _ _ _ _ _)
  | xatAnd => exact decode_own rest hw rfl hs (by decide) (fun _ => rfl) (guarded_2_z1_3_4_z1_1 _ _ _ _ _ _)
  | xatOr => exact decode_own rest hw rfl hs (by decide) (fun _ => rfl) (guarded_2_z1_3_4_z1_1 _ _ _ _ _ _)
  | xatXor => exact decode_own rest hw rfl hs (by decide) (fun _ => rfl) (guarded_2_z1_3_4_z1_1 _ _ _ _ _ _)
  | xscLd => exact decode_own rest hw rfl hs (by decide) (fun _ => rfl) (guarded_2_z1_3_4_z1_1 _ _ _ _ _ _)
  | xscSt => exact decode_own rest hw rfl hs (by decide) (fun _ => rfl) (guarded_2_z1_3_4_z1_1 _ _ _ _ _ _)
  | xscAdd => exact decode_own rest hw rfl hs (by decide) (fun _ => rfl) (guarded_2_z1_3_4_z1_1 _ _ _ _ _ _)
  | xscSwp => exact decode_own rest hw rfl hs (by decide) (fun _ => rfl) (guarded_2_z1_3_4_z1_1 _ _ _ _ _ _)
  | xscCas => exact decode_own rest hw rfl hs (by decide) (fun _ => rfl) (guarded_2_z1_3_4_z1_1 _ _ _ _ _ _)
  | xscMax => exact decode_own rest hw rfl hs (by decide) (fun _ => rfl) (guarded_2_z1_3_4_z1_1 _ _ _ _ _ _)
  | fence => exact decode_own rest hw rfl hs (by decide) (fun _ => rfl) (plain_16 _ _ hw _)
  | xpop => exact decode_own rest hw rfl hs (by decide) (fun _ => rfl) (guarded_z1_3_z4_4 _ _ _ _)
  | xpeek => exact decode_own rest hw rfl hs (by decide) (fun _ => rfl) (guarded_z1_3_z4_4 _ _ _ _)
  | vzero => exact decode_short rest hw rfl hs (by decide) (fun _ => rfl) (short_4 hw _ _)
  | vfadd => exact decode_own rest hw rfl hs (by decide) (fun _ => rfl) (guarded_4_4_4 _ _ _ _ _)
  | vfsub => exact decode_own rest hw rfl hs (by decide) (fun _ => rfl) (guarded_4_4_4 _ _ _ _ _)
  | vfmul => exact decode_own rest hw rfl hs (by decide) (fun _ => rfl) (guarded_4_4_4 _ _ _ _ _)
  | vfma => exact decode_own rest hw rfl hs (by decide) (fun _ => rfl) (guarded_4_4_4 _ _ _ _ _)
  | vfms => exact decode_own rest hw rfl hs (by decide) (fun _ => rfl) (guarded_4_4_4 _ _ _ _ _)
  | vfnma => exact decode_own rest hw rfl hs (by decide) (fun _ => rfl) (guarded_4_4_4 _ _ _ _ _)
  | vfnms => exact decode_own rest hw rfl hs (by decide) (fun _ => rfl) (guarded_4_4_4 _ _ _ _ _)
  | vfdiv => exact decode_own rest hw rfl hs (by decide) (fun _ => rfl) (guarded_4_4_4 _ _ _ _ _)
  | vfmin => exact decode_own rest hw rfl hs (by decide) (fun _ => rfl) (guarded_4_4_4 _ _ _ _ _)
  | vfmax => exact decode_own rest hw rfl hs (by decide) (fun _ => rfl) (guarded_4_4_4 _ _ _ _ _)
  | vfabs => exact decode_own rest hw rfl hs (by decide) (fun _ => rfl) (guarded_4_4_z4 _ _ _ _)
  | vfneg => exact decode_own rest hw rfl hs (by decide) (fun _ => rfl) (guarded_4_4_z4 _ _ _ _)
  | vffloor => exact decode_own rest hw rfl hs (by decide) (fun _ => rfl) (guarded_4_4_z4 _ _ _ _)
  | vfround => exact decode_own rest hw rfl hs (by decide) (fun _ => rfl) (guarded_4_4_z4 _ _ _ _)
  | vfclass => exact decode_own rest hw rfl hs (by decide) (fun _ => rfl) (guarded_4_4_z4 _ _ _ _)
  | vfrcp => exact decode_own rest hw rfl hs (by decide) (fun _ => rfl) (guarded_4_4_z4 _ _ _ _)
  | vfsqrt => exact decode_own rest hw rfl hs (by decide) (fun _ => rfl) (guarded_4_4_z4 _ _ _ _)
  | vfrsq => exact decode_own rest hw rfl hs (by decide) (fun _ => rfl) (guarded_4_4_z4 _ _ _ _)
  | vfexp2 => exact decode_own rest hw rfl hs (by decide) (fun _ => rfl) (guarded_4_4_z4 _ _ _ _)
  | vflog2 => exact decode_own rest hw rfl hs (by decide) (fun _ => rfl) (guarded_4_4_z4 _ _ _ _)
  | vftanh => exact decode_own rest hw rfl hs (by decide) (fun _ => rfl) (guarded_4_4_z4 _ _ _ _)
  | vfsigm => exact decode_own rest hw rfl hs (by decide) (fun _ => rfl) (guarded_4_4_z4 _ _ _ _)
  | vadd => exact decode_own rest hw rfl hs (by decide) (fun _ => rfl) (guarded_4_4_4 _ _ _ _ _)
  | vsub => exact decode_own rest hw rfl hs (by decide) (fun _ => rfl) (guarded_4_4_4 _ _ _ _ _)
  | vadds => exact decode_own rest hw rfl hs (by decide) (fun _ => rfl) (guarded_4_4_4 _ _ _ _ _)
  | vsubs => exact decode_own rest hw rfl hs (by decide) (fun _ => rfl) (guarded_4_4_4 _ _ _ _ _)
  | vmul => exact decode_own rest hw rfl hs (by decide) (fun _ => rfl) (guarded_4_4_4 _ _ _ _ _)
  | vmulh => exact decode_own rest hw rfl hs (by decide) (fun _ => rfl) (guarded_4_4_4 _ _ _ _ _)
  | vmin => exact decode_own rest hw rfl hs (by decide) (fun _ => rfl) (guarded_4_4_4 _ _ _ _ _)
  | vmax => exact decode_own rest hw rfl hs (by decide) (fun _ => rfl) (guarded_4_4_4 _ _ _ _ _)
  | vminu => exact decode_own rest hw rfl hs (by decide) (fun _ => rfl) (guarded_4_4_4 _ _ _ _ _)
  | vmaxu => exact decode_own rest hw rfl hs (by decide) (fun _ => rfl) (guarded_4_4_4 _ _ _ _ _)
  | vabs => exact decode_own rest hw rfl hs (by decide) (fun _ => rfl) (guarded_4_4_z4 _ _ _ _)
  | vand => exact decode_own rest hw rfl hs (by decide) (fun _ => rfl) (guarded_4_4_4 _ _ _ _ _)
  | vor => exact decode_own rest hw rfl hs (by decide) (fun _ => rfl) (guarded_4_4_4 _ _ _ _ _)
  | vxor => exact decode_own rest hw rfl hs (by decide) (fun _ => rfl) (guarded_4_4_4 _ _ _ _ _)
  | vnot => exact decode_own rest hw rfl hs (by decide) (fun _ => rfl) (guarded_4_4_z4 _ _ _ _)
  | vshl => exact decode_own rest hw rfl hs (by decide) (fun _ => rfl) (guarded_4_4_4 _ _ _ _ _)
  | vshr => exact decode_own rest hw rfl hs (by decide) (fun _ => rfl) (guarded_4_4_4 _ _ _ _ _)
  | vsar => exact decode_own rest hw rfl hs (by decide) (fun _ => rfl) (guarded_4_4_4 _ _ _ _ _)
  | vshli => exact decode_own rest hw rfl hs (by decide) (fun _ => rfl) (plain_4_4_z3_5 _ _ hw _ _ _)
  | vshri => exact decode_own rest hw rfl hs (by decide) (fun _ => rfl) (plain_4_4_z3_5 _ _ hw _ _ _)
  | vsari => exact decode_own rest hw rfl hs (by decide) (fun _ => rfl) (plain_4_4_z3_5 _ _ hw _ _ _)
  | vpopc => exact decode_own rest hw rfl hs (by decide) (fun _ => rfl) (guarded_4_4_z4 _ _ _ _)
  | vclz => exact decode_own rest hw rfl hs (by decide) (fun _ => rfl) (guarded_4_4_z4 _ _ _ _)
  | vctz => exact decode_own rest hw rfl hs (by decide) (fun _ => rfl) (guarded_4_4_z4 _ _ _ _)
  | vclmulL => exact decode_own rest hw rfl hs (by decide) (fun _ => rfl) (guarded_4_4_4 _ _ _ _ _)
  | vclmulH => exact decode_own rest hw rfl hs (by decide) (fun _ => rfl) (guarded_4_4_4 _ _ _ _ _)
  | vdot2Bf => exact decode_own rest hw rfl hs (by decide) (fun _ => rfl) (guarded_4_4_4 _ _ _ _ _)
  | vdot4I8 => exact decode_own rest hw rfl hs (by decide) (fun _ => rfl) (guarded_4_4_4 _ _ _ _ _)
  | vfcmpEq => exact decode_own rest hw rfl hs (by decide) (fun _ => rfl) (guarded_z1_3_4_4 _ _ _ _ _)
  | vfcmpNe => exact decode_own rest hw rfl hs (by decide) (fun _ => rfl) (guarded_z1_3_4_4 _ _ _ _ _)
  | vfcmpLt => exact decode_own rest hw rfl hs (by decide) (fun _ => rfl) (guarded_z1_3_4_4 _ _ _ _ _)
  | vfcmpLe => exact decode_own rest hw rfl hs (by decide) (fun _ => rfl) (guarded_z1_3_4_4 _ _ _ _ _)
  | vfcmpUn => exact decode_own rest hw rfl hs (by decide) (fun _ => rfl) (guarded_z1_3_4_4 _ _ _ _ _)
  | vcmpEq => exact decode_own rest hw rfl hs (by decide) (fun _ => rfl) (guarded_z1_3_4_4 _ _ _ _ _)
  | vcmpNe => exact decode_own rest hw rfl hs (by decide) (fun _ => rfl) (guarded_z1_3_4_4 _ _ _ _ _)
  | vcmpLt => exact decode_own rest hw rfl hs (by decide) (fun _ => rfl) (guarded_z1_3_4_4 _ _ _ _ _)
  | vcmpLe => exact decode_own rest hw rfl hs (by decide) (fun _ => rfl) (guarded_z1_3_4_4 _ _ _ _ _)
  | vcmpLtu => exact decode_own rest hw rfl hs (by decide) (fun _ => rfl) (guarded_z1_3_4_4 _ _ _ _ _)
  | vcmpLeu => exact decode_own rest hw rfl hs (by decide) (fun _ => rfl) (guarded_z1_3_4_4 _ _ _ _ _)
  | vmov => exact decode_own rest hw rfl hs (by decide) (fun _ => rfl) (guarded_4_4_z4 _ _ _ _)
  | vspl => exact decode_own rest hw rfl hs (by decide) (fun _ => rfl) (guarded_4_z1_3_z4 _ _ _ _)
  | vimm => exact decode_own rest hw rfl hs (by decide) (fun _ => rfl) (guarded_4_8 _ _ _ _)
  | vsel => exact decode_own rest hw rfl hs (by decide) (fun _ => rfl) (plain_4_4_4_1_3 _ _ hw _ _ _ _ _)
  | mand => exact decode_own rest hw rfl hs (by decide) (fun _ => rfl) (guarded_z1_3_z1_3_z1_3 _ _ _ _ _)
  | mor => exact decode_own rest hw rfl hs (by decide) (fun _ => rfl) (guarded_z1_3_z1_3_z1_3 _ _ _ _ _)
  | mxor => exact decode_own rest hw rfl hs (by decide) (fun _ => rfl) (guarded_z1_3_z1_3_z1_3 _ _ _ _ _)
  | mnot => exact decode_own rest hw rfl hs (by decide) (fun _ => rfl) (guarded_z1_3_z1_3_z4 _ _ _ _)
  | vany => exact decode_own rest hw rfl hs (by decide) (fun _ => rfl) (guarded_z1_3_z1_3_z4 _ _ _ _)
  | vall => exact decode_own rest hw rfl hs (by decide) (fun _ => rfl) (guarded_z1_3_z1_3_z4 _ _ _ _)
  | vlam => exact decode_own rest hw rfl hs (by decide) (fun _ => rfl) (guarded_z5_3_z4 _ _ _)
  | vmpack => exact decode_own rest hw rfl hs (by decide) (fun _ => rfl) (guarded_4_z1_3_z4 _ _ _ _)
  | vmunpk => exact decode_own rest hw rfl hs (by decide) (fun _ => rfl) (guarded_z1_3_4_z4 _ _ _ _)
  | vcvtFi => exact decode_own rest hw rfl hs (by decide) (fun _ => rfl) (guarded_4_4_z4 _ _ _ _)
  | vcvtIf => exact decode_own rest hw rfl hs (by decide) (fun _ => rfl) (guarded_4_4_z4 _ _ _ _)
  | vcvtFb => exact decode_own rest hw rfl hs (by decide) (fun _ => rfl) (guarded_4_4_z4 _ _ _ _)
  | vcvtBf => exact decode_own rest hw rfl hs (by decide) (fun _ => rfl) (guarded_4_4_z4 _ _ _ _)
  | vcvtFk => exact decode_own rest hw rfl hs (by decide) (fun _ => rfl) (guarded_4_4_z4 _ _ _ _)
  | vquant => exact decode_own rest hw rfl hs (by decide) (fun _ => rfl) (plain_4_4_z1_3_2_z2 _ _ (Bool.and_eq_true_iff.1 hw).1 _ _ _ _)
  | vqexp => exact decode_own rest hw rfl hs (by decide) (fun _ => rfl) (plain_4_4_z1_3_2_z2 _ _ (Bool.and_eq_true_iff.1 hw).1 _ _ _ _)
  | vrotR => exact decode_own rest hw rfl hs (by decide) (fun _ => rfl) (plain_4_4_1_z1_6 _ _ hw _ _ _ _)
  | vrotC => exact decode_own rest hw rfl hs (by decide) (fun _ => rfl) (plain_4_4_1_z3_4 _ _ hw _ _ _ _)
  | vbcR => exact decode_own rest hw rfl hs (by decide) (fun _ => rfl) (plain_4_4_1_z1_6 _ _ hw _ _ _ _)
  | vbcC => exact decode_own rest hw rfl hs (by decide) (fun _ => rfl) (plain_4_4_1_z3_4 _ _ hw _ _ _ _)
  | vpermR => exact decode_own rest hw rfl hs (by decide) (fun _ => rfl) (plain_4_4_4_1_z3 _ _ hw _ _ _ _)
  | vpermC => exact decode_own rest hw rfl hs (by decide) (fun _ => rfl) (plain_4_4_4_1_z3 _ _ hw _ _ _ _)
  | vredRFadd => exact decode_own rest hw rfl hs (by decide) (fun _ => rfl) (plain_4_4_1_z7 _ _ hw _ _ _)
  | vredRIadd => exact decode_own rest hw rfl hs (by decide) (fun _ => rfl) (plain_4_4_1_z7 _ _ hw _ _ _)
  | vredRXor => exact decode_own rest hw rfl hs (by decide) (fun _ => rfl) (plain_4_4_1_z7 _ _ hw _ _ _)
  | vredRMax => exact decode_own rest hw rfl hs (by decide) (fun _ => rfl) (plain_4_4_1_z7 _ _ hw _ _ _)
  | vredRMin => exact decode_own rest hw rfl hs (by decide) (fun _ => rfl) (plain_4_4_1_z7 _ _ hw _ _ _)
  | vredCFadd => exact decode_own rest hw rfl hs (by decide) (fun _ => rfl) (plain_4_4_1_z7 _ _ hw _ _ _)
  | vredCIadd => exact decode_own rest hw rfl hs (by decide) (fun _ => rfl) (plain_4_4_1_z7 _ _ hw _ _ _)
  | vredCXor => exact decode_own rest hw rfl hs (by decide) (fun _ => rfl) (plain_4_4_1_z7 _ _ hw _ _ _)
  | vredCMax => exact decode_own rest hw rfl hs (by decide) (fun _ => rfl) (plain_4_4_1_z7 _ _ hw _ _ _)
  | vredCMin => exact decode_own rest hw rfl hs (by decide) (fun _ => rfl) (plain_4_4_1_z7 _ _ hw _ _ _)
  | vscanRFadd => exact decode_own rest hw rfl hs (by decide) (fun _ => rfl) (plain_4_4_1_z7 _ _ hw _ _ _)
  | vscanRIadd => exact decode_own rest hw rfl hs (by decide) (fun _ => rfl) (plain_4_4_1_z7 _ _ hw _ _ _)
  | vscanRXor => exact decode_own rest hw rfl hs (by decide) (fun _ => rfl) (plain_4_4_1_z7 _ _ hw _ _ _)
  | vscanCFadd => exact decode_own rest hw rfl hs (by decide) (fun _ => rfl) (plain_4_4_1_z7 _ _ hw _ _ _)
  | vscanCIadd => exact decode_own rest hw rfl hs (by decide) (fun _ => rfl) (plain_4_4_1_z7 _ _ hw _ _ _)
  | vscanCXor => exact decode_own rest hw rfl hs (by decide) (fun _ => rfl) (plain_4_4_1_z7 _ _ hw _ _ _)
  | vcpr => exact decode_own rest hw rfl hs (by decide) (fun _ => rfl) (plain_4_4_z4_1_3 _ _ hw _ _ _ _)
  | vidx => exact decode_own rest hw rfl hs (by decide) (fun _ => rfl) (guarded_4_z8 _ _ _)
  | rpop => exact decode_own rest hw rfl hs (by decide) (fun _ => rfl) (guarded_4_z6_2 _ _ _ _)
  | rfree => exact decode_own rest hw rfl hs (by decide) (fun _ => rfl) (guarded_z12 _ _)
  | vbrev => exact decode_own rest hw rfl hs (by decide) (fun _ => rfl) (guarded_4_4_z4 _ _ _ _)
  | _ => exact absurd rfl he

end Sys2Proof.Laws.Decoding
end

section
/-! PROOF. The compares, selects, reads and register writes of the control stream (R324-R326, R331-R335), the common
instructions and TRAP (R318, R319, R337), the block header (R176, R177), claims (R340) and the operations of the ring
(R367, R369). -/

namespace Sys2Proof.Laws.Control

open Machine

/-- A check that passes leaves what follows it. -/
theorem bind_of_ok {α β : Type} {x : Except Bad α} {a : α} {f : α → Except Bad β} (h : x = .ok a) : (x >>= f) = f a := by
  rw [h]; rfl

/-- A check that fails is the outcome. -/
theorem bind_of_error {α β : Type} {x : Except Bad α} {e : Bad} {f : α → Except Bad β} (h : x = .error e) :
    (x >>= f) = .error e := by
  rw [h]; rfl

/-! ### Compares and predicate operations -/

theorem cmp3_of_exec {mk : Hd → BitVec 3 → BitVec 4 → BitVec 4 → Instr} {f : W64 → W64 → Bool}
    (hx : ∀ h a b c s, exec (mk h a b c) s = issue h true 1 true (cmp3 f a b c) s) : Cmp3 mk f :=
  fun h a b c s => does_of_body (hx h a b c s) rfl

/-- A constant is never poisoned, so that only the register can make the condition 0. -/
theorem cond2_clean (f : W64 → W64 → Bool) (x : XReg) (k : W64) : cond2 f x (clean k) = (!x.poison && f x.val k) := by
  simp [cond2, clean]

theorem cmpImm_of_exec {mk : Hd → BitVec 4 → BitVec 3 → BitVec 5 → Instr} {g : W64 → W64 → Bool} {ext : BitVec 5 → W64}
    {f : W64 → BitVec 5 → Bool}
    (hx : ∀ h a p k s, exec (mk h a p k) s = issue h true 1 true (cmpi g p a (ext k)) s) (hg : ∀ x k, g x (ext k) = f x k) :
    CmpImm mk f := by
  intro h a p k s
  refine does_of_body (hx h a p k s) ?_
  simp only [cmpi, cond2_clean, hg]

theorem does_predOp {i : Instr} {h : Hd} {guarded fw : Bool} {a : BitVec 3} {f : BitVec 8 → Bool} {s : State}
    (hx : exec i s = issue h guarded 1 fw (predOp a f) s) : Does i h guarded 1 [(1, .pred a (f s.curOwner.p))] [] s :=
  does_of_body hx rfl

theorem eq64_signExtend (x : W64) (k : BitVec 5) : eq64 x (k.signExtend 64) = decide (x.toInt = k.toInt) := by
  simp only [eq64, ← BitVec.toInt_inj, BitVec.toInt_signExtend_of_le (show 5 ≤ 64 by decide)]

theorem slt64_signExtend (x : W64) (k : BitVec 5) : slt64 x (k.signExtend 64) = decide (x.toInt < k.toInt) := by
  rw [slt64, BitVec.toInt_signExtend_of_le (by decide)]

theorem ult64_setWidth (x : W64) (k : BitVec 5) : ult64 x (k.setWidth 64) = decide (x.toNat < k.toNat) := by
  rw [ult64, BitVec.toNat_setWidth_of_le (by decide)]

/-- Settles O3: each instruction issues one condition of its registers, or one function of the predicates. -/
theorem predicateResults : Obligations.PredicateResults :=
  ⟨cmp3_of_exec exec_ceq, cmp3_of_exec exec_cne, cmp3_of_exec exec_clt, cmp3_of_exec exec_cltu, cmp3_of_exec exec_cle,
   cmp3_of_exec exec_cleu, cmpImm_of_exec exec_ceqi eq64_signExtend, cmpImm_of_exec exec_clti slt64_signExtend,
   cmpImm_of_exec exec_cltui ult64_setWidth,
   fun h a b c s => does_predOp (exec_pand h a b c s), fun h a b c s => does_predOp (exec_por h a b c s),
   fun h a b c s => does_predOp (exec_pxor h a b c s), fun h a b s => does_predOp (exec_pmov h a b s),
   fun h a s => does_predOp (exec_pclr h a s), fun h a s => does_predOp (exec_pset h a s),
   fun h a s => does_predOp (exec_pnot h a s)⟩

/-! ### Selects -/

/-- The selector of an unguarded instruction plays no part in whether it may issue. -/
theorem ready_selector {s : State} {h : Hd} (g : BitVec 4) (hr : Ready s h false) : Ready s { h with g := g } false :=
  { slot := hr.slot, tokens := hr.tokens, guard := nofun }

theorem does_select {i : Instr} {h : Hd} {g : BitVec 4} {occ : Nat} {fw : Bool} {body : Body} {s : State}
    {effs : List (Nat × Effect)} (hx : exec i s = issue { h with g := g } false occ fw body s)
    (hb : body s s.curOwner = .ok { effs := effs }) : Does i h false occ effs [] s :=
  fun hr => hx.trans (issue_performed (ready_selector g hr) hb)

theorem faults_select {i : Instr} {h : Hd} {g : BitVec 4} {occ : Nat} {fw : Bool} {body : Body} {s : State} {b : Bad}
    (hx : exec i s = issue { h with g := g } false occ fw body s) (hb : body s s.curOwner = .error b) :
    Faults i h false b s :=
  fun hr => hx.trans (issue_raises (ready_selector g hr) hb)

/-- Settles O4: SEL examines both registers, B first, and CSEL the one that the selector keeps. -/
theorem selectResults : Obligations.SelectResults := by
  intro h g a b c s o holds
  exact ⟨
    fun hb hc => does_select (exec_sel h g a b c s) ((bind_of_ok (needClean_ok hb)).trans (bind_of_ok (needClean_ok hc))),
    fun hb => faults_select (exec_sel h g a b c s) (bind_of_error (needClean_bad hb)),
    fun hb hc => faults_select (exec_sel h g a b c s)
      ((bind_of_ok (needClean_ok hb)).trans (bind_of_error (needClean_bad hc))),
    fun hk => does_select (exec_csel h g a b c s) (bind_of_ok (needClean_ok hk)),
    fun hk => faults_select (exec_csel h g a b c s) (bind_of_error (needClean_bad hk))⟩

/-! ### Reads of launch registers, state registers and the tick -/

theorem rds_reads {h : Hd} {a k : BitVec 4} {s : State} {v : Nat} (hv : stateReg s s.curOwner k.toNat = v) :
    Does (.rds h a k) h true 1 [(1, .x a (pure64 (BitVec.ofNat 64 v)))] [] s := by
  subst hv
  exact does_of_body (exec_rds h a k s) rfl

/-- Settles O5: each read is of one register, by its number in the table of R196. -/
theorem stateReads : Obligations.StateReads := by
  refine ⟨fun h a k s => does_of_body (exec_rdl h a k s) rfl, fun h a s => does_of_body (exec_rdtk h a s) rfl, ?_⟩
  intro h a k s o t x y reads
  refine ⟨?_, ?_, ?_, ?_, ?_, ?_, ?_, ?_, ?_, ?_⟩ <;> rintro rfl <;> refine rds_reads ?_
  case refine_4 => exact congrArg (x + ·) (Nat.mul_comm ..)
  case refine_5 =>
    change s.cur.wid + t.stride.log2 * 8 + t.phase * 64 = _
    omega
  case refine_8 =>
    change t.x0 + t.y0 * 2 ^ 8 + t.w * 2 ^ 16 + t.h * 2 ^ 24 = _
    omega
  all_goals rfl

/-! ### Writes of the registers of other streams -/

/-- Settles O6: each write passes the check of its source; FMT counts the entries pushed and not yet popped. -/
theorem streamRegisterWrites : Obligations.StreamRegisterWrites := by
  intro h a b f s o v poisoned
  refine ⟨fun hc => ?_, fun hp => ?_⟩
  · have pass {β : Type} (g : Unit → Except Bad β) : (needClean (rx s.curOwner b) >>= g) = g () :=
      bind_of_ok (needClean_ok hc)
    refine ⟨does_of_body (exec_setlc h a b s) (pass _), does_of_body (exec_pute h a b s) (pass _),
      fun hf => does_of_body (exec_ags h a b f s) ((pass _).trans ?_), does_of_body (exec_ags h a b 0 s) (pass _),
      fun hroom => does_of_body (exec_fmt h b s) ((pass _).trans ?_),
      fun hfull => faults_of_body (exec_fmt h b s) ((pass _).trans ?_)⟩
    · simp only [if_neg hf]
      rfl
    · have : ¬ Config.fqDepth ≤ fqFill s.curOwner := Nat.not_le.2 hroom
      rw [if_neg this]
    · have : Config.fqDepth ≤ fqFill s.curOwner := hfull
      rw [if_pos this]
      rfl
  · have stop {β : Type} (g : Unit → Except Bad β) : (needClean (rx s.curOwner b) >>= g) = .error poisoned :=
      bind_of_error (needClean_bad hp)
    exact ⟨faults_of_body (exec_setlc h a b s) (stop _), faults_of_body (exec_pute h a b s) (stop _),
      faults_of_body (exec_ags h a b f s) (stop _), faults_of_body (exec_fmt h b s) (stop _)⟩

/-! ### Common instructions and TRAP -/

/-- Settles O7: the common instructions check nothing; TRAP examines its register, first for poison. -/
theorem commonInstructions : Obligations.CommonInstructions := by
  refine ⟨fun h s => does_of_body (exec_nop h s) rfl, fun h k s => does_of_body (exec_idle h k s) rfl,
    fun h s => does_of_body (exec_endS h s) rfl, fun h k s => does_of_body (exec_mark h k s) rfl,
    fun h k s => does_of_body (exec_join h k s) rfl, fun h a k s => does_of_body (exec_sync h a k s) rfl, ?_⟩
  intro h a k s x
  refine ⟨fun hp => faults_of_body (exec_trap h a k s) (bind_of_error (needClean_bad hp)),
    fun hp ht => faults_of_body (exec_trap h a k s) ((bind_of_ok (needClean_ok hp)).trans ?_),
    fun hp ha hv => does_of_body (exec_trap h a k s) ((bind_of_ok (needClean_ok hp)).trans ?_)⟩
  · rw [if_pos ht]
    rfl
  · rw [if_neg (not_or.2 ⟨ha, not_not.2 hv⟩)]

/-! ### Block headers -/

/-- Settles O8: on an owner's stream the header opens its block, or skips it where the count is 0. -/
theorem blockHeaderOpens : Obligations.BlockHeaderOpens := by
  intro len cs stg cnt s hs o t n opened
  constructor <;> intro hn <;> rw [exec_blockHeader] <;> unfold execBlockHeader <;> simp only [if_neg hs]
  · rw [if_neg hn]
  · rw [if_pos hn]

/-! ### Claims -/

theorem any_claimed_iff {o : Owner} {a c : Nat} :
    ((List.range c).any fun i => o.claims.getLsbD (a + i)) = true ↔ ∃ i < c, o.claims.getLsbD (a + i) = true := by
  simp only [List.any_eq_true, List.mem_range]

/-- Settles O12: a claim meets no slot that is claimed, a release only such slots. -/
theorem claims : Obligations.Claims := by
  intro h oa n s o c
  refine ⟨fun hfree => does_of_body (exec_claim h oa n s) ?_, fun htaken => faults_of_body (exec_claim h oa n s) ?_,
    fun hhas => does_of_body (exec_release h oa n s) (bind_of_ok (needClaim_ok hhas)),
    fun hnot => faults_of_body (exec_release h oa n s) (bind_of_error (needClaim_bad hnot))⟩
  · have : ¬ ∃ i < c, o.claims.getLsbD (oa.toNat + i) = true := by simpa using hfree
    simp only [any_claimed_iff]
    rw [if_neg this]
  · simp only [any_claimed_iff]
    rw [if_pos htaken]

/-! ### Operations of the ring -/

theorem needFullTail_ok {o : Owner} (h : o.full.getLsbD o.tail = true) : needFullTail o = .ok () := by
  simp [needFullTail, tileFull, h]

theorem needFullTail_bad {o : Owner} (h : o.full.getLsbD o.tail = false) :
    needFullTail o = .error { cause := .ringUnderrun } := by
  simp [needFullTail, tileFull, h]

/-- Settles O17: RADV examines the next tile, MCLR the head tile, RFREE the tail tile. -/
theorem ringOperations : Obligations.RingOperations := by
  intro h s o next
  refine ⟨fun he => does_of_body (exec_radv h s) ?_, fun hf => faults_of_body (exec_radv h s) ?_,
    does_of_body (exec_rskip h s) rfl, fun he => does_of_body (exec_mclr h s) (bind_of_ok (needTarget_ok he)),
    fun hf => faults_of_body (exec_mclr h s) (bind_of_error (needTarget_bad hf)),
    fun hf => does_of_body (exec_rfree h s) (bind_of_ok (needFullTail_ok hf)),
    fun he => faults_of_body (exec_rfree h s) (bind_of_error (needFullTail_bad he))⟩
  · exact if_neg (Bool.not_eq_true _ ▸ he)
  · exact if_pos hf

end Sys2Proof.Laws.Control
end

section
/-! PROOF. The products of the matrix stream (R361-R365) and the instructions of the threshold array (R370-R375). -/

namespace Sys2Proof.Laws.Matrices

open Machine Laws.Control

/-! ### MMA and MMAW -/

/-- Checks that all pass leave nothing to raise. -/
theorem forM_ok {α : Type} {f : α → Except Bad Unit} {l : List α} (h : ∀ a ∈ l, f a = .ok ()) : l.forM f = .ok () := by
  induction l with
  | nil => rfl
  | cons a l ih =>
    exact (bind_of_ok (h a List.mem_cons_self)).trans (ih fun b hb => h b (List.mem_cons_of_mem a hb))

/-- Slots that each product of a word reads of one operand (R241). -/
def slotCount (fw : W32) : Nat := if fwSYN fw = 0 then 1 else if fwSYN fw = 1 then 2 else 3

/-- The products that a word asks of the slots from oa and ob on. -/
def wordSteps (k : CoreSt) (o : Owner) (oa ob : BitVec 5) (fw : W32) : List KStep :=
  (products (fwSYN fw)).map fun p =>
    { fw := if fwACC fw = 1 then fw &&& 0xFFFFCFFF else fw, a := omSlot k o (oa.toNat + p.1),
      b := omSlot k o (ob.toNat + p.2) }

/-- The slots of both operands are claimed and of good parity. -/
structure SlotsReady (k : CoreSt) (o : Owner) (oa ob : BitVec 5) (n : Nat) : Prop where
  first : HasSlots o oa.toNat n
  second : HasSlots o ob.toNat n
  good : ∀ i < n, SlotGood k o (oa.toNat + i) 0 2112 ∧ SlotGood k o (ob.toNat + i) 0 2112

theorem product_ok {wide : Bool} {oa ob : BitVec 5} {s : State} {o : Owner} {fw : W32} {rest : List W32}
    (hq : o.fq = fw :: rest) (hv : fwValid wide fw = true) (ht : o.full.getLsbD o.head = false)
    (hs : SlotsReady s.curCore o oa ob (slotCount fw)) :
    product wide oa ob s o = .ok { effs := [(1, .fqPop), (1, .product fw), (productTicks fw + 4, .tile (tilePhys o o.head)
      (.products (decide (fwACC fw = 1)) (wordSteps s.curCore o oa ob fw)))] } := by
  unfold product
  simp only [hq, hv]
  refine (if_neg (by decide)).trans ?_
  refine (bind_of_ok (needClaim_ok hs.first)).trans ((bind_of_ok (needClaim_ok hs.second)).trans ?_)
  refine (bind_of_ok (needTarget_ok ht)).trans ?_
  refine (bind_of_ok (forM_ok fun i hi => omParity_ok (hs.good i (List.mem_range.1 hi)).1)).trans ?_
  refine (bind_of_ok (forM_ok fun i hi => omParity_ok (hs.good i (List.mem_range.1 hi)).2)).trans ?_
  rfl

theorem product_underflow {wide : Bool} {oa ob : BitVec 5} {s : State} {o : Owner} (hq : o.fq = []) :
    product wide oa ob s o = .error { cause := .fqUnderflow } := by
  unfold product
  rw [hq]

theorem product_invalid {wide : Bool} {oa ob : BitVec 5} {s : State} {o : Owner} {fw : W32} {rest : List W32}
    (hq : o.fq = fw :: rest) (hv : fwValid wide fw = false) :
    product wide oa ob s o = .error { cause := .formatInvalid, still := [.fqPop] } := by
  unfold product
  simp only [hq, hv]
  rfl

theorem mmaOcc_valid {wide : Bool} {o : Owner} {fw : W32} {rest : List W32} (hq : o.fq = fw :: rest)
    (hv : fwValid wide fw = true) : mmaOcc wide o = productTicks fw := by
  unfold mmaOcc
  simp only [hq, hv, if_true]

/-- A word that is valid for MMA has no SYN mode, and one that is valid for MMAW has one (R236). -/
theorem fwValid_syn {wide : Bool} {fw : W32} (hv : fwValid wide fw = true) : decide (fwSYN fw ≠ 0) = wide := by
  unfold fwValid at hv
  simp only [Bool.and_eq_true, beq_iff_eq] at hv
  exact hv.1.2

theorem mma_syn {fw : W32} (hv : fwValid false fw = true) : fwSYN fw = 0 := by simpa using fwValid_syn hv

theorem mmaw_syn {fw : W32} (hv : fwValid true fw = true) : fwSYN fw ≠ 0 := by simpa using fwValid_syn hv

/-- Settles O18: the checks of R362 pass, and the products of the front word fall due together. -/
theorem matrixProducts : Obligations.MatrixProducts := by
  intro h oa ob s o k slots step
  refine ⟨fun fw rest hq hv ht hs => ?_, fun fw rest hq hv ht hs => ?_, fun hq => ⟨?_, ?_⟩, fun fw rest hq hv => ?_,
    fun fw rest hq hv => ?_⟩
  · obtain ⟨ha, hb, hg⟩ := hs
    have hsyn := mma_syn hv
    have hticks : productTicks fw = 16 * fwNB fw := by simp [productTicks, products, hsyn]
    have hcount : slotCount fw = 1 := by simp [slotCount, hsyn]
    have hsteps : wordSteps k o oa ob fw = [step (if fwACC fw = 1 then fw &&& 0xFFFFCFFF else fw) (0, 0)] := by
      simp [wordSteps, products, hsyn, step]
    have hb := product_ok (wide := false) hq hv ht (by rw [hcount]; exact ⟨ha, hb, hg⟩)
    have hx := exec_mma h oa ob s
    unfold execMma at hx
    rw [mmaOcc_valid hq hv, hticks] at hx
    rw [hsteps, hticks] at hb
    exact does_of_body hx hb
  · obtain ⟨ha, hb, hg⟩ := hs
    have hcount : slotCount fw = if fwSYN fw = 1 then 2 else 3 := if_neg (mmaw_syn hv)
    have hb := product_ok (wide := true) hq hv ht (by rw [hcount]; exact ⟨ha, hb, hg⟩)
    have hx := exec_mmaw h oa ob s
    unfold execMmaw at hx
    rw [mmaOcc_valid hq hv] at hx
    exact does_of_body hx hb
  · exact faults_of_body (exec_mma h oa ob s) (product_underflow hq)
  · exact faults_of_body (exec_mmaw h oa ob s) (product_underflow hq)
  · exact faults_of_body (exec_mma h oa ob s) (product_invalid hq hv)
  · exact faults_of_body (exec_mmaw h oa ob s) (product_invalid hq hv)

/-! ### The threshold array -/

theorem ofNat_div_two_pow (x : W64) : (x >>> 32).setWidth 32 = BitVec.ofNat 32 (x.toNat / 2 ^ 32) := by
  apply BitVec.eq_of_toNat_eq
  simp only [BitVec.toNat_setWidth, BitVec.toNat_ushiftRight, BitVec.toNat_ofNat, Nat.shiftRight_eq_div_pow]

/-- Row 0 of what TMASK writes holds the low words of the masks, row 1 their high words (R254). -/
theorem maskRow_exact (mask : Nat → W64) (l : Nat) :
    (if l < 64 then (mask l).setWidth 32 else (mask (l - 64) >>> 32).setWidth 32)
      = BitVec.ofNat 32 (if l < 64 then (mask l).toNat else (mask (l - 64)).toNat / 2 ^ 32) := by
  split
  · rw [BitVec.ofNat_toNat]
  · exact ofNat_div_two_pow _

/-- Settles O19: TCFG checks its claims and the parity of its first slot, TEVAL and TMASK that the owner holds a
configured store, TCLR nothing. -/
theorem thresholdInstructions : Obligations.ThresholdInstructions := by
  intro h oa s o k a held
  refine ⟨fun w hc hg => does_of_body (exec_tcfg h oa w s) ?_, fun hh hc ht hg => does_of_body (exec_teval h oa s) ?_,
    fun n hh ht => does_of_body (exec_tmask h n s) ?_, fun hh => does_of_body (exec_tclr h s) ?_,
    fun hh => does_of_body (exec_tclr h s) ?_,
    fun hn => ⟨faults_of_body (exec_teval h oa s) (bind_of_error (needStore_bad hn)),
      fun n => faults_of_body (exec_tmask h n s) (bind_of_error (needStore_bad hn))⟩⟩
  · have hp : cfgParity k o a 0 = .ok () := omParity_ok hg
    refine (bind_of_ok (needClaim_ok hc)).trans (bind_of_ok (a := ()) ?_)
    exact congrArg (Except.mapError _) hp
  · exact (bind_of_ok (needStore_ok hh)).trans ((bind_of_ok (needClaim_ok hc)).trans ((bind_of_ok (needTarget_ok ht)).trans
      (bind_of_ok (omParity_ok hg))))
  · refine (bind_of_ok (needStore_ok hh)).trans ((bind_of_ok (needTarget_ok ht)).trans ?_)
    have hrow := funext (maskRow_exact fun j => ~~~cget k.thr.saved (n.toNat * 64 + j))
    exact congrArg (fun f => (.ok { effs := [(4, .tile (tilePhys o o.head) (.whole (ctab 128 f)))] } : Except Bad Act)) hrow
  · rw [if_pos hh]
  · rw [if_neg (by simp [show s.curOwner.thr = false from hh])]

end Sys2Proof.Laws.Matrices
end

section
/-! PROOF. Tile loads, vector loads and the leaf gather (R341-R345), vector stores (R346, R347), and the instructions of
transfers (R204, R219, R349-R356). -/

namespace Sys2Proof.Laws.Loads

open Machine Laws.Control Laws.Matrices

/-! ### Tile loads -/

theorem bytes_of_shaped {g : Ag} {len0 cnt1 : Nat} (h : Shaped g len0 cnt1) : g.bytes = len0 * cnt1 := by
  rw [Ag.bytes, h.1, h.2]

theorem tileLoads_of_exec {mk : Hd → BitVec 5 → BitVec 3 → Instr} {len0 cnt1 : Nat}
    {eff : BitVec 5 → (Nat → Byte) → Effect}
    (hx : ∀ h oa ag s, exec (mk h oa ag) s
      = issue h true 1 false (tileLoad len0 cnt1 oa ag fun k o g => eff oa (patByte k o g)) s) :
    TileLoads mk len0 cnt1 eff := by
  intro h oa ag s o g lines hc hs hw hg hb
  have hl : lines = g.lines 0 g.bytes := by rw [bytes_of_shaped hs]
  rw [hl] at hg hb ⊢
  refine does_of_body (hx h oa ag s) ?_
  exact (bind_of_ok (needClaim_ok hc)).trans ((bind_of_ok (needPattern_ok (shape_iff.2 hs))).trans
    ((bind_of_ok (needWindow_ok hw)).trans (bind_of_ok (readPart_ok hg hb))))

/-- Settles O13: the checks of a tile load pass in the order of R339, and its slot falls due six ticks after its issue. -/
theorem tileLoadResults : Obligations.TileLoadResults := by
  refine ⟨tileLoads_of_exec exec_ldta, tileLoads_of_exec exec_ldtb, tileLoads_of_exec exec_lde, ?_⟩
  intro h oa ag n s o g lines hc hs hw hg hb
  refine does_of_body (exec_ldtf h oa ag n s) ?_
  refine (bind_of_ok (needClaim_ok hc)).trans ((bind_of_ok (needPattern_ok (shape_iff.2 hs))).trans
    ((bind_of_ok (needWindow_ok hw)).trans ((bind_of_ok (readPart_ok hg hb)).trans ?_)))
  have hrow : ldtfRow s.curCore o g 0 = ctab 2048 (patByte s.curCore o g) := by simp only [ldtfRow, Nat.zero_mul, Nat.zero_add]
  change Except.ok _ = _
  rw [← hrow]
  rfl

/-! ### Vector loads and the leaf gather -/

theorem vectorLoads_of_exec {mk : Hd → BitVec 4 → BitVec 3 → Instr} {q : LdvKind} {shape : Ag → Prop}
    (hx : ∀ h a ag s, exec (mk h a ag) s = issue h true 2 false (vload q a ag) s)
    (hshape : ∀ g, shape g → ldvShape q g = true) : VectorLoads mk q shape := by
  intro h a ag s o g lines hs hw hg hb
  refine does_of_body (hx h a ag s) ?_
  exact (bind_of_ok (needPattern_ok (hshape _ hs))).trans ((bind_of_ok (needWindow_ok hw)).trans
    (bind_of_ok (readPart_ok hg hb)))

theorem ldvShape_h {g : Ag} (h : Shaped g 128 16 ∨ Shaped g 256 16) : ldvShape .h g = true := by
  simpa only [ldvShape, Bool.or_eq_true, shape_iff] using h

/-- Settles O14: the first half of a vector load is read in its issue tick; LDG needs the configured store first. -/
theorem vectorLoadResults : Obligations.VectorLoadResults := by
  refine ⟨vectorLoads_of_exec exec_ldvW fun _ => shape_iff.2, vectorLoads_of_exec exec_ldvH fun _ => ldvShape_h,
    vectorLoads_of_exec exec_ldvHu fun _ => shape_iff.2, vectorLoads_of_exec exec_ldvB fun _ => shape_iff.2,
    vectorLoads_of_exec exec_ldvBu fun _ => shape_iff.2, vectorLoads_of_exec exec_ldvrW fun _ => shape_iff.2,
    vectorLoads_of_exec exec_ldvcW fun _ => shape_iff.2, ?_⟩
  intro h a b ag band s o k g w base lines ex piece
  refine ⟨fun ht hconf hs hbase hw hl hg hb => does_of_body (exec_ldg h a b ag band s) ?_,
    fun hn => faults_of_body (exec_ldg h a b ag band s) (bind_of_error (needStore_bad ?_))⟩
  · have hpat : (g.shape (256 * w) 1 && decide (base % 64 = 0)) = true := by
      rw [Bool.and_eq_true, shape_iff, decide_eq_true_eq]
      exact ⟨hs, hbase⟩
    have hlanes : ∀ x ∈ [(b, active o)], LanesGood k o x.1 x.2 := by
      rintro x hx
      rw [List.mem_singleton.1 hx]
      exact hl
    exact (bind_of_ok (needStore_ok ⟨ht, hconf⟩)).trans ((bind_of_ok (needPattern_ok hpat)).trans
      ((bind_of_ok (needWindow_ok hw)).trans ((bind_of_ok (needParity_ok hlanes)).trans
        ((bind_of_ok (takePorts_ok hb)).trans (bind_of_ok (readable_ok hg))))))
  · rintro ⟨ht, hconf⟩
    rcases hn with hn | hn
    · exact absurd (hn.symm.trans ht) (by decide)
    · exact absurd (hn.symm.trans hconf) (by decide)

/-! ### Vector stores -/

theorem sat_exact (v lo hi : Int) : sat v lo hi = max lo (min hi v) := by rw [sat, min_comm]

theorem vstore_ok {q : StvKind} {a : BitVec 4} {ag : BitVec 3} {masks : List (BitVec 3)}
    {vals : CoreSt → Owner → List (Nat × Nat)} {s : State} (hs : stvShape q (rag s.curOwner ag) = true)
    (hw : InWindow s.curOwner (rag s.curOwner ag)) (hl : LanesGood s.curCore s.curOwner a s.curOwner.lam)
    (hm : ∀ r ∈ masks, MaskGood s.curOwner r)
    (hb : BanksFree s.curOwner ((rag s.curOwner ag).lines 0 ((rag s.curOwner ag).bytes / 2)) true) :
    let g := rag s.curOwner ag
    let vs := vals s.curCore s.curOwner
    vstore q a ag masks vals s s.curOwner = .ok
      { effs := [(1, .agUse ag), (4, .win (stvBytes g (stvSize q) vs 0 (g.bytes / 2))),
          (1, .port (g.lines (g.bytes / 2) g.bytes) (stvBytes g (stvSize q) vs (g.bytes / 2) g.bytes))],
        ports := linesPorts (g.lines 0 (g.bytes / 2)) true } := by
  have hlanes : ∀ x ∈ [(a, active s.curOwner)], LanesGood s.curCore s.curOwner x.1 x.2 := by
    rintro x hx
    rw [List.mem_singleton.1 hx]
    exact hl
  exact (bind_of_ok (needPattern_ok hs)).trans ((bind_of_ok (needWindow_ok hw)).trans
    ((bind_of_ok (needParity_ok hlanes)).trans ((bind_of_ok (needMask_ok hm)).trans (bind_of_ok (takePorts_ok hb)))))

theorem vectorStores_of_exec {mk : Hd → BitVec 4 → BitVec 3 → Instr} {q : StvKind} {len0 : Nat} {value : W32 → Nat}
    (hx : ∀ h a ag s, exec (mk h a ag) s = issue h true 2 false (vstore q a ag [] (stvLanes q a)) s)
    (hshape : ∀ g, Shaped g len0 16 → stvShape q g = true) (hsize : stvSize q = len0 / 64)
    (hvalue : ∀ x, stvValue q x = value x) : VectorStores mk q len0 value := by
  intro h a ag s o k g c lanes vals half hs hw hl hb
  have hvals : stvLanes q a k o = vals := by simp only [stvLanes, active, hsize, hvalue, vals, lanes, c]
  refine does_of_body (hx h a ag s) ((vstore_ok (hshape g hs) hw hl (by simp) hb).trans ?_)
  simp only [show stvLanes q a s.curCore s.curOwner = vals from hvals, hsize]
  rfl

/-- A list beside its places, place by place. -/
theorem range_zip_map {α β : Type} (l : List α) (d : α) (f : Nat × α → β) :
    ((List.range l.length).zip l).map f = (List.range l.length).map fun n => f (n, l.getD n d) := by
  apply List.ext_getElem
  · simp
  · intro n h1 h2
    have hn : n < l.length := by simpa using h2
    simp [List.getElem?_eq_getElem hn]

/-- A mask bit matches SENSE where it is 1 and SENSE 0, or it is 0 and SENSE 1 (R347). -/
theorem senseMatch_xor (o : Owner) (m : BitVec 3) (sn : BitVec 1) (l : Nat) :
    senseMatch o m sn l = ((rmask o m).getLsbD l ^^ decide (sn = 1)) := by
  have hsn : sn = 0 ∨ sn = 1 := by bv_omega
  rcases hsn with rfl | rfl <;> simp [senseMatch]

theorem stvcLanes_eq (k : CoreSt) (o : Owner) (a : BitVec 4) (sn : BitVec 1) (m : BitVec 3) :
    let lanes := (List.range 1024).filter fun l => o.lam.getLsbD l && ((rmask o m).getLsbD l ^^ decide (sn = 1))
    stvcLanes a sn m k o = (List.range lanes.length).map fun n => (4 * n, (cget (vlanes k o a) (lanes.getD n 0)).toNat) := by
  intro lanes
  have hsel : selectedLanes o m sn = lanes := by
    unfold selectedLanes
    exact List.filter_congr fun l _ => congrArg _ (senseMatch_xor o m sn l)
  unfold stvcLanes
  rw [hsel]
  clear_value lanes
  exact range_zip_map lanes 0 fun x => (4 * x.1, (cget (vlanes k o a) x.2).toNat)

/-- Settles O15: the values of the active lanes, or of the selected ones packed, in two halves. -/
theorem vectorStoreResults : Obligations.VectorStoreResults := by
  refine ⟨vectorStores_of_exec exec_stvW (fun _ => shape_iff.2) rfl fun _ => rfl,
    vectorStores_of_exec exec_stvH (fun _ => shape_iff.2) rfl fun _ => rfl,
    vectorStores_of_exec exec_stvHs (fun _ => shape_iff.2) rfl fun x => by rw [← sat_exact]; rfl,
    vectorStores_of_exec exec_stvB (fun _ => shape_iff.2) rfl fun _ => rfl,
    vectorStores_of_exec exec_stvBs (fun _ => shape_iff.2) rfl fun x => by rw [← sat_exact]; rfl, ?_⟩
  intro h a ag sn m s o k g lanes vals half hs hw hl hm hb
  have hvals : stvcLanes a sn m k o = vals := stvcLanes_eq k o a sn m
  refine does_of_body (exec_stvc h a ag sn m s) ((vstore_ok (q := .c) (shape_iff.2 hs) hw hl (by simpa using hm) hb).trans ?_)
  simp only [show stvcLanes a sn m s.curCore s.curOwner = vals from hvals]
  rfl

/-! ### Transfers -/

theorem xferWindows_ok {kind : XKind} {g : Ag} {s : State} {o : Owner} (hw : InWindow o g)
    (hq : kind = .rdm → ∀ p ∈ quadOwners (s.strand o.sid) o.region, InWindow (s.owner p.1 p.2) g) :
    xferWindows kind g s o = .ok () := by
  cases kind with
  | rdm => exact forM_ok fun p hp => needWindow_ok (hq rfl p hp)
  | _ => exact needWindow_ok hw

theorem transfers_of_exec {n : Nat} {mk : Hd → BitVec n → BitVec 3 → BitVec 4 → BitVec 1 → Instr} {kind : XKind}
    {stride : Nat} {shape : Ag → W64 → Prop}
    (hx : ∀ h e ag cls p s, exec (mk h e ag cls p) s = issue h true 1 false (transfer kind (e.toNat * stride) ag cls p) s)
    (hshape : ∀ g e, shape g e → xferShape kind g e = true) : Transfers mk kind stride shape := by
  intro h e ag cls p s o g r hroom hs hw hq
  let src := if kind.reads then sourceOf (released s.curCore o) o g else ([], [])
  have hsrc : src.1 = if kind.reads then g.read (released s.curCore o) o 0 g.bytes else [] := by
    simp only [src]
    split <;> rfl
  let x : Xfer :=
    { tid := 0, core := s.cur.core, wid := s.cur.wid, sid := o.sid, cid := o.cid, kind := kind, cls := cls.toNat,
      post := decide (p = 1), seq := 0, tick := o.tick, ag := g, ereg := re o r, opx := re o (r + 1),
      opnew := re o (r + 2), src := src.1, srcPoison := src.2, after := [], state := .waiting, loc := o.ss.loc .s 0 }
  refine ⟨x, does_of_body (hx h e ag cls p s) ?_, rfl, rfl, rfl, rfl, rfl, rfl, rfl, rfl, rfl, rfl, rfl, rfl, rfl, hsrc⟩
  have hnot : ¬ Config.maxOutstanding ≤ (xfersOf s s.cur.core s.cur.wid).length := Nat.not_le.2 hroom
  refine (if_neg hnot).trans ((bind_of_ok (needPattern_ok (hshape _ _ hs))).trans (bind_of_ok (xferWindows_ok hw hq)))

theorem transfers_of_exec_one {mk : Hd → BitVec 3 → BitVec 3 → BitVec 4 → BitVec 1 → Instr} {kind : XKind}
    {shape : Ag → W64 → Prop}
    (hx : ∀ h e ag cls p s, exec (mk h e ag cls p) s = issue h true 1 false (transfer kind e.toNat ag cls p) s)
    (hshape : ∀ g e, shape g e → xferShape kind g e = true) : Transfers mk kind 1 shape :=
  transfers_of_exec (fun h e ag cls p s => by rw [Nat.mul_one, hx]) hshape

theorem transfers_of_exec_two {mk : Hd → BitVec 2 → BitVec 3 → BitVec 4 → BitVec 1 → Instr} {kind : XKind}
    {shape : Ag → W64 → Prop}
    (hx : ∀ h e ag cls p s, exec (mk h e ag cls p) s = issue h true 1 false (transfer kind (2 * e.toNat) ag cls p) s)
    (hshape : ∀ g e, shape g e → xferShape kind g e = true) : Transfers mk kind 2 shape :=
  transfers_of_exec (fun h e ag cls p s => by rw [Nat.mul_comm, hx]) hshape

theorem deviceShape_ok {g : Ag} {e : W64} (h : DeviceShape g e) :
    (!g.empty && decide (g.len0.toNat % 4 = 0 ∧ dva e % 4 = 0)) = true := by
  obtain ⟨hl, hc, ha⟩ := h
  simp only [Ag.empty, hl, hc, ha, or_self, and_self, decide_false, decide_true, Bool.not_false, Bool.and_self]

theorem targetShape_ok {g : Ag} {e : W64} (h : TargetShape g e) :
    (!g.empty && decide (g.len0.toNat % 4 = 0 ∧ e.toNat % 2 ^ 19 % 4 = 0)) = true := by
  obtain ⟨hl, hc, ha⟩ := h
  simp only [Ag.empty, hl, hc, or_self, decide_false, Bool.not_false, Bool.true_and, decide_eq_true_eq]
  exact ha

theorem atomicShape_ok {g : Ag} {e : W64} (h : AtomicShape g e) :
    (g.shape 8 1 && decide (dva e % 8 = 0 ∧ g.base.toNat % 8 = 0)) = true := by
  obtain ⟨hs, ha⟩ := h
  rw [shape_iff.2 hs, Bool.true_and, decide_eq_true_eq]
  exact ha

/-- The oldest element of a class is the first one of it in the queue. -/
theorem find_oldest {cls : BitVec 4} {old young : List Elem} {e : Elem} (hold : ∀ d ∈ old, d.cls ≠ cls) (he : e.cls = cls) :
    (old ++ e :: young).find? (fun d => decide (d.cls = cls)) = some e := by
  rw [List.find?_append, List.find?_eq_none.2 (by simpa using hold), Option.none_or]
  exact List.find?_cons_of_pos (by simpa using he)

/-- Settles O16: each transfer passes its checks by the shape of its kind; XPOP looks for the oldest element. -/
theorem transferInstructions : Obligations.TransferInstructions := by
  refine ⟨⟨transfers_of_exec_one exec_xrd fun _ _ => deviceShape_ok, transfers_of_exec_one exec_xrdSp fun _ _ => deviceShape_ok,
    transfers_of_exec_one exec_xrdm fun _ _ => deviceShape_ok, transfers_of_exec_one exec_xwr fun _ _ => deviceShape_ok,
    transfers_of_exec_one exec_xwrZ fun _ _ => deviceShape_ok, transfers_of_exec_one exec_xput fun _ _ => targetShape_ok,
    transfers_of_exec_one exec_xget fun _ _ => targetShape_ok, transfers_of_exec_one exec_xsumF fun _ _ => targetShape_ok,
    transfers_of_exec_one exec_xsumI fun _ _ => targetShape_ok,
    transfers_of_exec_two exec_xatAdd fun _ _ => atomicShape_ok, transfers_of_exec_two exec_xatSwp fun _ _ => atomicShape_ok,
    transfers_of_exec_two exec_xatCas fun _ _ => atomicShape_ok, transfers_of_exec_two exec_xatMax fun _ _ => atomicShape_ok,
    transfers_of_exec_two exec_xatMin fun _ _ => atomicShape_ok, transfers_of_exec_two exec_xatAnd fun _ _ => atomicShape_ok,
    transfers_of_exec_two exec_xatOr fun _ _ => atomicShape_ok, transfers_of_exec_two exec_xatXor fun _ _ => atomicShape_ok,
    transfers_of_exec_two exec_xscLd fun _ _ => atomicShape_ok, transfers_of_exec_two exec_xscSt fun _ _ => atomicShape_ok,
    transfers_of_exec_two exec_xscAdd fun _ _ => atomicShape_ok, transfers_of_exec_two exec_xscSwp fun _ _ => atomicShape_ok,
    transfers_of_exec_two exec_xscCas fun _ _ => atomicShape_ok, transfers_of_exec_two exec_xscMax fun _ _ => atomicShape_ok⟩,
    fun h k s => does_of_body (exec_fence h k s) rfl, ?_⟩
  intro h a cls s fifo
  refine ⟨does_of_body (exec_xpeek h a cls s) ?_, fun old e young hq hold he => does_of_body (exec_xpop h a cls s) ?_,
    fun hnone => faults_of_body (exec_xpop h a cls s) ?_⟩
  · have hany : (fifo.any fun e => decide (e.cls = cls)) = decide (∃ e ∈ fifo, e.cls = cls) := by
      rw [Bool.eq_iff_iff]
      simp only [List.any_eq_true, decide_eq_true_eq]
    rw [← hany]
  · have hfind : s.curOwner.fifo.find? (fun d => decide (d.cls = cls)) = some e := by
      rw [show s.curOwner.fifo = _ from hq, find_oldest hold he]
    rw [hfind]
  · have hfind : s.curOwner.fifo.find? (fun d => decide (d.cls = cls)) = none := by
      rw [List.find?_eq_none]
      simpa using hnone
    rw [hfind]

end Sys2Proof.Laws.Loads
end

section
/-! PROOF. The one NaN of the floating-point operations and the special inputs of the functions (R243, R245). -/

namespace Sys2Proof.Laws.Floats

open Machine Laws.NumberFormats

/-! ### Words and what they stand for -/

theorem exponent_toNat (w : W32) : (w.extractLsb' 23 8).toNat = w.toNat / 2 ^ 23 % 2 ^ 8 := by
  rw [BitVec.extractLsb'_toNat, Nat.shiftRight_eq_div_pow]

theorem fraction_toNat (w : W32) : (w.extractLsb' 0 23).toNat = w.toNat % 2 ^ 23 := by simp

theorem isNan_iff (w : W32) : isNan w = true ↔ 0x7F800000 < w.toNat % 2 ^ 31 := by
  rw [← Bool.not_eq_false, isNan_eq_false_iff]
  omega

/-- A word stands for the NaN when its magnitude is above that of infinity. -/
theorem fp_eq_nan_iff (w : W32) : fp w = .nan ↔ isNan w = true := by
  have hw := w.isLt
  rw [isNan_iff]
  unfold fp
  simp only [exponent_toNat, fraction_toNat]
  split_ifs with hx hm h0
  · exact iff_of_false nofun (by omega)
  · exact iff_of_true rfl (by omega)
  · exact iff_of_false nofun (by omega)
  · exact iff_of_false nofun (by omega)

theorem fp_of_isNan {w : W32} (h : isNan w = true) : fp w = .nan := (fp_eq_nan_iff w).2 h

/-- A value that stands for +0 or -0 under the sign bit is that zero. -/
theorem fp_negative {w : W32} (hs : w.getLsbD 31 = true) (hz : w ≠ 0x80000000) :
    fp w = .nan ∨ fp w = .inf true ∨ ∃ m e, m ≠ 0 ∧ fp w = .fin true m e := by
  have hw := w.isLt
  have hne : w.toNat ≠ 0x80000000 := fun h => hz (BitVec.eq_of_toNat_eq h)
  rw [sign_eq_decide, decide_eq_true_eq] at hs
  have hsign : w.getLsbD 31 = true := by rw [sign_eq_decide, decide_eq_true hs]
  unfold fp
  simp only [exponent_toNat, fraction_toNat, hsign]
  split_ifs with hx hm h0
  · exact .inr (.inl rfl)
  · exact .inl rfl
  · exact .inr (.inr ⟨_, _, by omega, rfl⟩)
  · exact .inr (.inr ⟨_, _, by omega, rfl⟩)

/-! ### Results that are not a NaN, or the one NaN -/

/-- A result is no NaN but the one that the device writes. -/
structure OneNan (r : W32) : Prop where
  eq_nan32 : isNan r = true → r = nan32

theorem oneNan_nan32 : OneNan nan32 := ⟨fun _ => rfl⟩

theorem oneNan_of_not_isNan {r : W32} (h : isNan r = false) : OneNan r := ⟨fun hn => absurd (h.symm.trans hn) (by decide)⟩

theorem oneNan_ite {c : Prop} [Decidable c] {x y : W32} (hx : OneNan x) (hy : OneNan y) : OneNan (if c then x else y) := by
  split
  · exact hx
  · exact hy

theorem oneNan_zero32 (s : Bool) : OneNan (zero32 s) :=
  oneNan_ite (oneNan_of_not_isNan (by decide)) (oneNan_of_not_isNan (by decide))

theorem oneNan_inf32 (s : Bool) : OneNan (inf32 s) :=
  oneNan_ite (oneNan_of_not_isNan (by decide)) (oneNan_of_not_isNan (by decide))

theorem oneNan_one (s : Bool) : OneNan (if s then 0xBF800000 else 0x3F800000) :=
  oneNan_ite (oneNan_of_not_isNan (by decide)) (oneNan_of_not_isNan (by decide))

theorem oneNan_zero_or_one (s : Bool) : OneNan (if s then 0 else 0x3F800000) :=
  oneNan_ite (oneNan_of_not_isNan (by decide)) (oneNan_of_not_isNan (by decide))

/-- A magnitude below that of infinity is no NaN, under either sign. -/
theorem oneNan_magnitude {b : Nat} (hb : b < 0x7F800000) (neg : Bool) :
    OneNan (BitVec.ofNat 32 (if neg then b + 0x80000000 else b)) := by
  refine oneNan_of_not_isNan ((isNan_eq_false_iff _).2 ?_)
  rw [BitVec.toNat_ofNat]
  split <;> omega

/-- A rounded value is below the infinities in magnitude, or is one. -/
theorem oneNan_roundRat (neg : Bool) (n d : Nat) : OneNan (roundRat neg n d) := by
  refine oneNan_ite (oneNan_zero32 neg) ?_
  dsimp only
  split
  · exact oneNan_inf32 neg
  next hb => exact oneNan_magnitude (Nat.not_le.1 hb) neg

theorem oneNan_roundDy (z : Bool) (v e : Int) : OneNan (roundDy z v e) :=
  oneNan_ite (oneNan_zero32 z) (oneNan_roundRat ..)

theorem oneNan_roundBoth (neg : Bool) (lo hi d : Nat) : OneNan (roundBoth neg lo hi d) :=
  oneNan_ite (oneNan_roundRat ..) (oneNan_roundRat ..)

theorem oneNan_addFp (x y : Fp) : OneNan (addFp x y) := by
  unfold addFp
  split
  · exact oneNan_nan32
  · exact oneNan_nan32
  · exact oneNan_ite (oneNan_inf32 _) oneNan_nan32
  · exact oneNan_inf32 _
  · exact oneNan_inf32 _
  · exact oneNan_roundDy ..

theorem oneNan_roundFp (x : Fp) : OneNan (roundFp x) := by
  cases x with
  | nan => exact oneNan_nan32
  | inf s => exact oneNan_inf32 s
  | fin s m e => exact oneNan_roundDy ..

theorem oneNan_div32 (a b : W32) : OneNan (div32 a b) := by
  unfold div32
  split
  · exact oneNan_nan32
  · exact oneNan_nan32
  · exact oneNan_nan32
  · exact oneNan_inf32 _
  · exact oneNan_zero32 _
  · exact oneNan_ite (oneNan_ite oneNan_nan32 (oneNan_inf32 _)) (oneNan_roundRat ..)

/-- The smaller and the larger of two words that are no NaN are one of them. -/
theorem oneNan_fmin32 (a b : W32) : OneNan (fmin32 a b) := by
  unfold fmin32
  split
  · exact oneNan_nan32
  next hab =>
    simp only [Bool.or_eq_true, not_or, Bool.not_eq_true] at hab
    have ha := oneNan_of_not_isNan hab.1
    have hb := oneNan_of_not_isNan hab.2
    exact oneNan_ite ha (oneNan_ite hb (oneNan_ite ha hb))

theorem oneNan_fmax32 (a b : W32) : OneNan (fmax32 a b) := by
  unfold fmax32
  split
  · exact oneNan_nan32
  next hab =>
    simp only [Bool.or_eq_true, not_or, Bool.not_eq_true] at hab
    have ha := oneNan_of_not_isNan hab.1
    have hb := oneNan_of_not_isNan hab.2
    exact oneNan_ite hb (oneNan_ite ha (oneNan_ite hb ha))

/-- A word of the same magnitude is no NaN either. -/
theorem oneNan_of_magnitude {a b : W32} (ha : ¬ isNan a = true) (h : b.extractLsb' 0 31 = a.extractLsb' 0 31) : OneNan b := by
  refine oneNan_of_not_isNan ?_
  rw [isNan, h]
  exact Bool.not_eq_true _ ▸ ha

theorem oneNan_fabs32 (a : W32) : OneNan (fabs32 a) := by
  unfold fabs32
  split
  · exact oneNan_nan32
  next ha =>
    refine oneNan_of_magnitude ha ?_
    rw [BitVec.extractLsb'_and, show (0x7FFFFFFF : W32).extractLsb' 0 31 = BitVec.allOnes 31 by decide, BitVec.and_allOnes]

theorem oneNan_fneg32 (a : W32) : OneNan (fneg32 a) := by
  unfold fneg32
  split
  · exact oneNan_nan32
  next ha =>
    refine oneNan_of_magnitude ha ?_
    rw [BitVec.extractLsb'_xor, show (0x80000000 : W32).extractLsb' 0 31 = 0 by decide]
    exact BitVec.xor_zero

theorem oneNan_of_fin {a : W32} {s : Bool} {m : Nat} {e : Int} (h : fp a = .fin s m e) : OneNan a := by
  refine ⟨fun hn => ?_⟩
  rw [fp_of_isNan hn] at h
  cases h

theorem oneNan_floor32 (a : W32) : OneNan (floor32 a) := by
  unfold floor32
  split
  · exact oneNan_nan32
  · exact oneNan_inf32 _
  next hf => exact oneNan_ite (oneNan_of_fin hf) (oneNan_roundRat ..)

theorem oneNan_rint32 (a : W32) : OneNan (rint32 a) := by
  unfold rint32
  split
  · exact oneNan_nan32
  · exact oneNan_inf32 _
  next hf => exact oneNan_ite (oneNan_of_fin hf) (oneNan_roundRat ..)

theorem oneNan_sqrtRat (n d : Nat) : OneNan (sqrtRat n d) := oneNan_ite (oneNan_roundRat ..) (oneNan_roundRat ..)

theorem oneNan_sqrt32 (a : W32) : OneNan (sqrt32 a) := by
  unfold sqrt32
  split
  · exact oneNan_nan32
  · exact oneNan_ite oneNan_nan32 (oneNan_inf32 _)
  · exact oneNan_ite (oneNan_zero32 _) (oneNan_ite oneNan_nan32 (oneNan_sqrtRat ..))

theorem oneNan_rsq32 (a : W32) : OneNan (rsq32 a) := by
  unfold rsq32
  split
  · exact oneNan_nan32
  · exact oneNan_ite oneNan_nan32 (oneNan_zero32 _)
  · exact oneNan_ite (oneNan_inf32 _) (oneNan_ite oneNan_nan32 (oneNan_sqrtRat ..))

theorem oneNan_exp2Fin (s : Bool) (m : Nat) (e : Int) : OneNan (exp2Fin s m e) :=
  oneNan_ite (oneNan_ite (oneNan_zero32 _) (oneNan_inf32 _)) (oneNan_ite (oneNan_roundDy ..) (oneNan_roundBoth ..))

theorem oneNan_exp2f (a : W32) : OneNan (exp2f a) := by
  unfold exp2f
  split
  · exact oneNan_nan32
  · exact oneNan_ite (oneNan_zero32 _) (oneNan_inf32 _)
  · exact oneNan_exp2Fin ..

theorem oneNan_log2Fin (m : Nat) (e : Int) : OneNan (log2Fin m e) :=
  oneNan_ite (oneNan_roundDy ..) (oneNan_ite (oneNan_roundBoth ..) (oneNan_roundBoth ..))

theorem oneNan_log2f (a : W32) : OneNan (log2f a) := by
  unfold log2f
  split
  · exact oneNan_nan32
  · exact oneNan_ite oneNan_nan32 (oneNan_inf32 _)
  · exact oneNan_ite (oneNan_inf32 _) (oneNan_ite oneNan_nan32 (oneNan_log2Fin ..))

theorem oneNan_tanhf (a : W32) : OneNan (tanhf a) := by
  unfold tanhf
  split
  · exact oneNan_nan32
  · exact oneNan_one _
  · exact oneNan_ite (oneNan_zero32 _) (oneNan_ite (oneNan_one _) (oneNan_roundBoth ..))

theorem oneNan_sigmf (a : W32) : OneNan (sigmf a) := by
  unfold sigmf
  split
  · exact oneNan_nan32
  · exact oneNan_zero_or_one _
  · exact oneNan_ite (oneNan_of_not_isNan (by decide)) (oneNan_ite (oneNan_zero_or_one _)
      (oneNan_ite (oneNan_roundBoth ..) (oneNan_roundBoth ..)))

theorem oneNan_results (a b c : W32) :
    ∀ r ∈ [add32 a b, sub32 a b, mul32 a b, fma32 a b c, fms32 a b c, fnma32 a b c, fnms32 a b c, div32 a b, fmin32 a b,
      fmax32 a b, fabs32 a, fneg32 a, floor32 a, rint32 a, rcp32 a, sqrt32 a, rsq32 a, exp2f a, log2f a, tanhf a, sigmf a,
      dot2 a b c], OneNan r := by
  simp only [List.forall_mem_cons]
  exact ⟨oneNan_addFp .., oneNan_addFp .., oneNan_roundFp _, oneNan_addFp .., oneNan_addFp .., oneNan_addFp ..,
    oneNan_addFp .., oneNan_div32 .., oneNan_fmin32 .., oneNan_fmax32 .., oneNan_fabs32 a, oneNan_fneg32 a,
    oneNan_floor32 a, oneNan_rint32 a, oneNan_div32 .., oneNan_sqrt32 a, oneNan_rsq32 a, oneNan_exp2f a, oneNan_log2f a,
    oneNan_tanhf a, oneNan_sigmf a, oneNan_addFp .., nofun⟩

/-! ### Special inputs (R245) -/

theorem roots_negative {x : W32} (hs : x.getLsbD 31 = true) (hz : x ≠ 0x80000000) :
    sqrt32 x = nan32 ∧ rsq32 x = nan32 ∧ log2f x = nan32 := by
  unfold sqrt32 rsq32 log2f
  rcases fp_negative hs hz with h | h | ⟨m, e, hm, h⟩ <;> rw [h]
  · exact ⟨rfl, rfl, rfl⟩
  · exact ⟨rfl, rfl, rfl⟩
  · simp only [if_neg hm]
    exact ⟨rfl, rfl, rfl⟩

theorem div32_nan {x y : W32} (h : isNan x = true ∨ isNan y = true) : div32 x y = nan32 := by
  unfold div32
  rcases h with h | h <;> rw [fp_of_isNan h]
  cases fp x <;> rfl

theorem functions_nan {x : W32} (h : isNan x = true) :
    ∀ f ∈ [rcp32, sqrt32, rsq32, exp2f, log2f, tanhf, sigmf], f x = nan32 := by
  simp only [List.forall_mem_cons]
  refine ⟨div32_nan (.inr h), ?_, ?_, ?_, ?_, ?_, ?_, nofun⟩
  · rw [sqrt32, fp_of_isNan h]
  · rw [rsq32, fp_of_isNan h]
  · rw [exp2f, fp_of_isNan h]
  · rw [log2f, fp_of_isNan h]
  · rw [tanhf, fp_of_isNan h]
  · rw [sigmf, fp_of_isNan h]

/-- Settles O23: every result is rounded, an infinity, a zero or an operand, or it is the one NaN; the special inputs
are evaluated. -/
theorem floatSpecials : Obligations.FloatSpecials :=
  ⟨fun a b c r hr => (oneNan_results a b c r hr).eq_nan32, by decide, by decide, by decide, by decide, by decide, by decide, by decide,
   fun _ => roots_negative, fun _ => functions_nan, fun _ _ => div32_nan⟩

end Sys2Proof.Laws.Floats
end

section
/-! PROOF. Floating point and conversions of the lanes (R381-R383, R394), quantisation (R395-R397), moves across lanes
(R398, R399), compression and the drain of the ring (R402, R403). -/

namespace Sys2Proof.Laws.Lanes

open Machine Laws.Control Laws.VectorLanes Laws.VectorMasks Laws.CrossLane

/-! ### Floating point and conversions -/

theorem bfTo32_low_half (x : W32) : bfTo32 (x.setWidth 16) = BitVec.ofNat 32 (x.toNat % 2 ^ 16 * 2 ^ 16) := by
  apply BitVec.eq_of_toNat_eq
  rw [NumberFormats.bfTo32_toNat, BitVec.toNat_setWidth, BitVec.toNat_ofNat]
  omega

/-- Settles O22: each instruction issues one function of its lanes. -/
theorem vectorFloatResults : Obligations.VectorFloatResults :=
  ⟨vec2_of_exec exec_vfadd fun _ _ => rfl, vec2_of_exec exec_vfsub fun _ _ => rfl, vec2_of_exec exec_vfmul fun _ _ => rfl,
   vec3_of_exec exec_vfma fun _ _ _ => rfl, vec3_of_exec exec_vfms fun _ _ _ => rfl,
   vec3_of_exec exec_vfnma fun _ _ _ => rfl, vec3_of_exec exec_vfnms fun _ _ _ => rfl,
   vec2_of_exec exec_vfdiv fun _ _ => rfl, vec2_of_exec exec_vfmin fun _ _ => rfl, vec2_of_exec exec_vfmax fun _ _ => rfl,
   vec1_of_exec exec_vfabs fun _ => rfl, vec1_of_exec exec_vfneg fun _ => rfl, vec1_of_exec exec_vffloor fun _ => rfl,
   vec1_of_exec exec_vfround fun _ => rfl, vec1_of_exec exec_vfclass fun _ => rfl, vec1_of_exec exec_vfrcp fun _ => rfl,
   vec1_of_exec exec_vfsqrt fun _ => rfl, vec1_of_exec exec_vfrsq fun _ => rfl, vec1_of_exec exec_vfexp2 fun _ => rfl,
   vec1_of_exec exec_vflog2 fun _ => rfl, vec1_of_exec exec_vftanh fun _ => rfl, vec1_of_exec exec_vfsigm fun _ => rfl,
   vec3_of_exec exec_vdot2Bf fun _ _ _ => rfl, vec1_of_exec exec_vcvtFi fun _ => rfl, vec1_of_exec exec_vcvtIf fun _ => rfl,
   vec1_of_exec exec_vcvtFb fun _ => rfl, vec1_of_exec exec_vcvtBf bfTo32_low_half, vec1_of_exec exec_vcvtFk fun _ => rfl⟩

/-! ### Quantisation -/

/-- A parameter word of VQUANT and VQEXP that R395 allows. -/
def GoodParams (w : W64) (sl : BitVec 2) : Prop :=
  (w.extractLsb' 0 3).toNat ≠ 0 ∧ (w.extractLsb' 3 3).toNat ≤ 5 ∧ w.toNat < 2 ^ 7
    ∧ (w.getLsbD 6 = true → (w.extractLsb' 0 3).toNat = 7) ∧ (w.getLsbD 6 = false → sl = 0)

theorem quantParams_cases (w : W64) (sl : BitVec 2) :
    ((w.extractLsb' 0 3).toNat = 0 ∨ 5 < (w.extractLsb' 3 3).toNat ∨ w.toNat / 128 ≠ 0
      ∨ (w.getLsbD 6 = true ∧ (w.extractLsb' 0 3).toNat ≠ 7) ∨ ((!w.getLsbD 6) = true ∧ sl ≠ 0)) ↔ ¬ GoodParams w sl := by
  have hhigh : w.toNat / 128 = 0 ↔ w.toNat < 2 ^ 7 := by omega
  unfold GoodParams
  rw [ne_eq (w.toNat / 128), hhigh, ← Nat.not_le]
  cases w.getLsbD 6 <;> simp only [Bool.not_true, Bool.not_false, Bool.false_eq_true, reduceCtorEq] <;> tauto

theorem quantParams_good {w : W64} {sl : BitVec 2} (h : GoodParams w sl) : quantParams w sl =
    .ok ((w.extractLsb' 0 3).toNat + 1, (w.extractLsb' 3 3).toNat, w.getLsbD 6) :=
  if_neg (mt (quantParams_cases w sl).1 (not_not.2 h))

theorem quantParams_bad {w : W64} {sl : BitVec 2} (h : ¬ GoodParams w sl) :
    quantParams w sl = .error { cause := .formatInvalid } := if_pos ((quantParams_cases w sl).2 h)

/-- Settles O27: the parameters are checked first, then the parity of every lane. -/
theorem quantisation : Obligations.Quantisation := by
  intro h a b e sl s o k w nm g slice good x es ex
  refine ⟨fun hgood hl => ?_, fun hbad => ⟨faults_of_body (exec_vquant h a b e sl s) (bind_of_error (quantParams_bad hbad)),
    faults_of_body (exec_vqexp h a b e sl s) (bind_of_error (quantParams_bad hbad))⟩⟩
  have hlanes : needParity k o [(b, allLanes)] = .ok () :=
    needParity_ok fun y hy => by rw [List.mem_singleton.1 hy]; exact hl
  refine ⟨does_of_body (exec_vquant h a b e sl s) ?_, does_of_body (exec_vqexp h a b e sl s) ?_⟩
  · exact (bind_of_ok (quantParams_good hgood)).trans (bind_of_ok hlanes)
  · exact (bind_of_ok (quantParams_good hgood)).trans (bind_of_ok hlanes)

/-! ### Moves across lanes -/

theorem crossWrites_of_crossMove {i : Instr} {h : Hd} {lat : Nat} {a b : BitVec 4} {p : BitVec 1} {src : Nat → Nat} {s : State}
    (hx : exec i s = issue h false 1 false (crossMove lat p src a b) s) :
    CrossWrites i h lat a b p (fun l => [src l]) (fun v l => v (src l)) s :=
  crossWrites_of_body hx rfl (fun _ _ => rfl) fun _ _ _ => rfl

/-- A permute whose index lanes pass their parity is a move by its indices. -/
theorem permute_eq_crossRead {lat : Nat} {src : Nat → W32 → Nat} {p : BitVec 1} {a b c : BitVec 4} {s : State} {o : Owner}
    (hc : LanesGood s.curCore o c o.lam) :
    permute lat src p a b c s o = crossRead s.curCore o b p (readSet o fun l => [src l (cget (vlanes s.curCore o c) l)]) >>=
      fun x => .ok { effs := [(lat, .vreg a.toNat
        (lanesOf fun l => cget x (src l (cget (vlanes s.curCore o c) l))) (active o))] } := by
  have hpar : needParity s.curCore o [(c, active o)] = .ok () :=
    needParity_ok fun y hy => by rw [List.mem_singleton.1 hy]; exact hc
  unfold permute
  simp only [hpar, ok_bind]

theorem crossWrites_of_permute {i : Instr} {h : Hd} {lat : Nat} {src : Nat → W32 → Nat} {a b c : BitVec 4} {p : BitVec 1}
    {s : State} (hx : exec i s = issue h false 1 false (permute lat src p a b c) s)
    (hc : LanesGood s.curCore s.curOwner c s.curOwner.lam) :
    CrossWrites i h lat a b p (fun l => [src l (cget (vlanes s.curCore s.curOwner c) l)])
      (fun v l => v (src l (cget (vlanes s.curCore s.curOwner c) l))) s :=
  crossWrites_of_body hx (permute_eq_crossRead hc) (fun _ _ => rfl) fun _ _ _ => rfl

/-- Settles O28: a rotate or a broadcast moves by the destination lane, a permute by the index that stands in it. -/
theorem crossLaneMoves : Obligations.CrossLaneMoves :=
  ⟨fun h a b p k s => crossWrites_of_crossMove (exec_vrotR h a b p k s),
   fun h a b p k s => crossWrites_of_crossMove (exec_vrotC h a b p k s),
   fun h a b p k s => crossWrites_of_crossMove (exec_vbcR h a b p k s),
   fun h a b p k s => crossWrites_of_crossMove (exec_vbcC h a b p k s),
   fun h a b c p s hc => crossWrites_of_permute (exec_vpermR h a b c p s) hc,
   fun h a b c p s hc => crossWrites_of_permute (exec_vpermC h a b c p s) hc⟩

/-! ### Compression -/

theorem testBit_foldr_push (f : Nat → Bool) (ls : List Nat) (j : Nat) :
    (ls.foldr (fun l n => 2 * n + b01 (f l)) 0).testBit j = (ls[j]?.map f).getD false := by
  induction ls generalizing j with
  | nil => simp
  | cons l ls ih =>
    rw [List.foldr_cons]
    cases j with
    | zero => cases h : f l <;> simp [Nat.testBit_zero, b01, h]
    | succ j =>
      have hbit : b01 (f l) < 2 := by cases f l <;> decide
      have hdiv : ∀ n, (2 * n + b01 (f l)) / 2 = n := fun n => by omega
      rw [Nat.testBit_succ, hdiv, ih]
      rfl

/-- Bit `j` of the mask of a function is the function's value there. -/
theorem getLsbD_maskOf (f : Nat → Bool) {j : Nat} (hj : j < 1024) : (maskOf f).getLsbD j = f j := by
  rw [maskOf, BitVec.getLsbD_ofNat, testBit_foldr_push]
  simp [hj]

theorem selectedLanes_eq (o : Owner) (m : BitVec 3) (sn : BitVec 1) : selectedLanes o m sn =
    (List.range 1024).filter fun l => o.lam.getLsbD l && decide ((rmask o m).getLsbD l = decide (sn = 0)) :=
  List.filter_congr fun l _ => congrArg (o.lam.getLsbD l && ·)
    (Bool.eq_iff_iff.2 ((senseMatch_iff o m sn l).trans decide_eq_true_iff.symm))

/-- The elements of a list of lanes in their order, and 0 after them. -/
theorem getD_map_cget (ls : List Nat) (x : Cells 32) (l : Nat) :
    (ls.map (cget x)).getD l 0 = if l < ls.length then cget x (ls.getD l 0) else 0 := by
  split
  next h => simp [List.getElem?_eq_getElem h]
  next h => simp [List.getElem?_eq_none (Nat.not_lt.1 h)]

/-- Settles O30: VCPR checks the lanes that it selects and its mask, RPOP the tail tile. -/
theorem compressAndPop : Obligations.CompressAndPop := by
  refine ⟨fun h a b sn m s => ?_, fun h a q s => ?_⟩
  · intro o k lanes hpar hm
    have hsel : selectedLanes o m sn = lanes := selectedLanes_eq o m sn
    have hlanes : needParity k o [(b, maskOf fun l => (selectedLanes o m sn).contains l)] = .ok () := by
      refine needParity_ok fun y hy => ?_
      rw [List.mem_singleton.1 hy, hsel]
      rintro e he ⟨hreg, hlane⟩
      rw [getLsbD_maskOf _ (by omega), List.contains_iff_mem] at hlane
      exact hpar e he hreg hlane
    refine does_of_body (exec_vcpr h a b sn m s) ?_
    refine (bind_of_ok hlanes).trans ((bind_of_ok (needMask_one hm)).trans ?_)
    simp only [lanesOf, getD_map_cget, show selectedLanes s.curOwner m sn = lanes from hsel]
    rfl
  · intro o k base
    refine ⟨fun hf hr => does_of_body (exec_rpop h a q s) ((bind_of_ok (needFullTail_ok hf)).trans ?_),
      fun he => faults_of_body (exec_rpop h a q s) (bind_of_error (needFullTail_bad he))⟩
    have hgood : ¬ (k.ringErr.any fun w => decide (base ≤ 2 * w ∧ 2 * w < base + 1024)) = true := by
      simpa using hr
    exact if_neg hgood

end Sys2Proof.Laws.Lanes
end

section
/-! PROOF. What the issue of an instruction leaves unchanged (R185, R317, R339), what stands before its own part (R181,
R184), and what a write of the scratchpad changes (R213, R214, R217). -/

namespace Sys2Proof.Laws.Issuing

open Machine

/-! ### Tokens and guards -/

theorem missingTake_eq_some {tok : Cells 4} {before after : List Nat} {n : Nat} (hb : ∀ m ∈ before, cget tok m ≠ 0)
    (hn : cget tok n = 0) : missingTake tok (before ++ n :: after) = some n := by
  induction before with
  | nil => exact if_pos hn
  | cons m before ih =>
    exact (if_neg (hb m List.mem_cons_self)).trans (ih fun k hk => hb k (List.mem_cons_of_mem m hk))

/-- Settles O32: the takes come first, whatever the guard; then the guard, whatever the instruction's own checks. -/
theorem tokensAndGuards : Obligations.TokensAndGuards := by
  intro h a b c oa ob ag cls s hs o takes miss
  refine ⟨fun before n after ht hb hn => ?_, fun ht hg => ?_⟩
  · have hm : missingTake s.curOwner.tok (tokenTakes (streamNum s.cur.str) h.tok) = some n := by
      rw [show tokenTakes (streamNum s.cur.str) h.tok = before ++ n :: after from ht]
      exact missingTake_eq_some hb hn
    exact ⟨issue_missing hs hm, issue_missing hs hm, issue_missing hs hm, issue_missing hs hm, issue_missing hs hm,
      issue_missing hs hm⟩
  · exact ⟨issue_guarded_off hs ht hg, issue_guarded_off hs ht hg, issue_guarded_off hs ht hg, issue_guarded_off hs ht hg,
      issue_guarded_off hs ht hg⟩

/-! ### Frame -/

/-- What an issue may change: the issuing owner's streams, pending results and ports, the faults of its strand, and the
slots of the tick. -/
structure IssueChange (s t : State) : Prop where
  rest : t = { s with cores := t.cores, strands := t.strands, issue := t.issue }
  core : t.core s.cur.core = (s.core s.cur.core).setOwner s.cur.wid t.curOwner
  owner : t.curOwner = { s.curOwner with
    sc := t.curOwner.sc, sl := t.curOwner.sl, sm := t.curOwner.sm, sv := t.curOwner.sv, ss := t.curOwner.ss,
    pend := t.curOwner.pend, ports := t.curOwner.ports }
  cores : ∀ c, c ≠ s.cur.core → t.core c = s.core c
  strands : ∀ n, n ≠ s.curOwner.sid → t.strand n = s.strand n
  faults : ∃ fs, t.strand s.curOwner.sid = { s.strand s.curOwner.sid with faults := (s.strand s.curOwner.sid).faults ++ fs }

/-- The owner after a step of one stream, with new pending results and ports. -/
def Owner.moved (o : Owner) (st : StreamId) (t : Stream) (pend : List Pend) (ports : List Port) : Owner :=
  { o.setStream st t with pend := pend, ports := ports }

theorem moved_owner (o : Owner) (st : StreamId) (t : Stream) (pend : List Pend) (ports : List Port) :
    let p := Owner.moved o st t pend ports
    p = { o with sc := p.sc, sl := p.sl, sm := p.sm, sv := p.sv, ss := p.ss, pend := p.pend, ports := p.ports } := by
  cases st <;> rfl

section Moved

variable (s : State) (t : Stream) (pend : List Pend) (ports : List Port)

theorem issueChange_moved : IssueChange s (s.setCurOwner (Owner.moved s.curOwner s.cur.str t pend ports)) where
  rest := rfl
  core := by
    rw [State.curOwner_setCurOwner]
    exact (State.core_setCore ..).trans (if_pos rfl)
  owner := by
    rw [State.curOwner_setCurOwner]
    exact moved_owner ..
  cores := fun c hc => (State.core_setCore ..).trans (if_neg hc)
  strands := fun _ _ => rfl
  faults := ⟨[], by rw [List.append_nil]; rfl⟩

theorem issueChange_fault (e : FaultEv) :
    IssueChange s ((s.setCurOwner (Owner.moved s.curOwner s.cur.str t pend ports)).addFault s.curOwner.sid e) where
  rest := rfl
  core := (issueChange_moved s t pend ports).core
  owner := (issueChange_moved s t pend ports).owner
  cores := (issueChange_moved s t pend ports).cores
  strands := fun _ hn => (State.strand_setStrand ..).trans (if_neg hn)
  faults := ⟨[e], (State.strand_setStrand ..).trans (if_pos rfl)⟩

theorem issueChange_issue (l : List Slot) :
    IssueChange s { s.setCurOwner (Owner.moved s.curOwner s.cur.str t pend ports) with issue := l } where
  rest := rfl
  core := (issueChange_moved s t pend ports).core
  owner := (issueChange_moved s t pend ports).owner
  cores := (issueChange_moved s t pend ports).cores
  strands := (issueChange_moved s t pend ports).strands
  faults := (issueChange_moved s t pend ports).faults

end Moved

theorem issueChange_issueOwner (h : Hd) (guarded : Bool) (occ : Nat) (body : Body) (s : State) :
    IssueChange s (issueOwner h guarded occ body s) := by
  unfold issueOwner
  dsimp only
  split
  · exact issueChange_fault s ..
  · split
    · exact issueChange_moved s ..
    · split
      · exact issueChange_fault s ..
      · exact issueChange_moved s ..

theorem issueChange_blockHeader {len : BitVec 12} {cs : BitVec 1} {stg : BitVec 3} {cnt : BitVec 12} {s t : State}
    (hs : s.cur.str ≠ .f) (hx : exec (.blockHeader len cs stg cnt) s = .next t) : IssueChange s t := by
  rw [exec_blockHeader, execBlockHeader] at hx
  simp only [if_neg hs] at hx
  cases hx
  exact issueChange_issue s ..

/-- Every instruction of an owner's stream but a block header is the issue of a body. -/
theorem exec_eq_issue {i : Instr} {st : StreamId} (hon : i.onStream st = true) (hf : st ≠ .f) (s : State) :
    (∃ h guarded occ fw body, exec i s = issue h guarded occ fw body s)
      ∨ ∃ len cs stg cnt, i = .blockHeader len cs stg cnt := by
  have system : ¬ (st == StreamId.f) = true := by simpa using hf
  cases i
  case blockHeader => exact .inr ⟨_, _, _, _, rfl⟩
  case wrs | rdsp | eret | waitev | wvset | cse | zfill | park | unpark | xphy => exact absurd hon system
  case coldReset | powerUpSequence | railFault | firmwareBoot | junctionSensorRead | governorRevolution
      | ceilingSet | hbPwrCapWrite | hbmRefresh | hotReset | mfFlr | pfFlr | vfFlr | vfEnableWrite | numvfsWrite
      | tdispRequest | ideKeyProgramming | hostBar2Read | hostBar2Write | mfApertureAccess | undecodedRequest
      | hostReadCompletionTimeout | msixVectorUnmask | registerWrite | hbActDenyRead | klkFlitReceive
      | klkNakReceive | klkAckReceive | klkPortTrained | klkRetrainTimeout | hbKlkIdWrite | hbKlkRouteWrite
      | routeChangeApply | klkRequestTimeout | peerRequestArrival | barrierArrival | barrierRelease | notify
      | queueDisable | queueEnable | packetFetch | nopPacket | launchPacket | waitPacket | signalPacket
      | copyPacket | invalPacket | waitReread | launchAgingStep | copyChunk | invalCompletion | packetCompletion
      | cqEnable | cqCoalesceTimeout | attestationRequest | attestationReportWrite | firmwareWatchdogExpiry
      | coreLockout | cobblerEventDispatch | meterOpen | meterSeal | meterRetire | meterCheckpoint
      | meterRecordWrite | tenantLogRidxWrite | meterContinuation | partitionCreate | partitionResize
      | partitionRemove | vdCreate | vdDestroy | vdCreateIncoming | strandPark | strandUnpark | evictionRequest
      | evictionDrain | evictionSave | strandResume | leaseExpiry | migrationStart | migrationPrecopyRound
      | migrationStop | migrationAbort | migrationLinkLost | migrationFinalArrival | postcopyPagePull
      | postcopyPagePush | postcopyPageArrival | postcopyPullTimeout | admissionAttempt | containerStaging
      | startDecision | weaveSwitch | rephaseSwitch | ownerDepart | nsclkWrite | transferDispatch | pageRequestPost
      | pageDone | prqEnable | transferLanding | remotePutArrival | scOperationPerform | syncStallEnd
      | strandWatchdogExpiry | resultWriteback | asyncFaultReport | strandStop | faultRingEnable | debugHalt
      | debugResume | breakpointSet | breakpointClear | debugDump | debugRelease | traceEnable | cseDone | xphyDone
      | rcRegisterRead | pcieLinkTraining | klkPortDown | zfillZeroed | postcopySourceFree => cases hon
  all_goals exact .inl ⟨_, _, _, _, _, rfl⟩

/-- Settles O31: an issue sets the issuing owner and, at a fault, adds to its strand's faults. -/
theorem issueFrame : Obligations.IssueFrame := by
  intro i st s t hon hf _ hs hx o p
  have h : IssueChange s t := by
    rcases exec_eq_issue hon hf s with ⟨h, guarded, occ, fw, body, hi⟩ | ⟨_, _, _, _, rfl⟩
    · rw [hi, issue, if_neg hs] at hx
      cases hx
      exact issueChange_issueOwner ..
    · exact issueChange_blockHeader hs hx
  obtain ⟨hrest, hcore, howner, hcores, hstrands, hfaults⟩ := h
  exact ⟨hrest, hcore, howner, hcores, hstrands, hfaults⟩

/-! ### Writes of the scratchpad -/

theorem mem_sins {a b : Nat} {l : List Nat} : b ∈ sins a l ↔ b = a ∨ b ∈ l := by
  induction l with
  | nil => simp [sins]
  | cons c l ih =>
    unfold sins
    split
    · simp
    · split
      next h => simp [h]
      next => simp [ih, or_left_comm]

theorem mem_sall {b : Nat} {l s : List Nat} : b ∈ sall l s ↔ b ∈ l ∨ b ∈ s := by
  induction l generalizing s with
  | nil => simp [sall]
  | cons a l ih =>
    rw [show sall (a :: l) s = sall l (sins a s) from rfl, ih, mem_sins, List.mem_cons]
    tauto

/-- The units that a list of addresses covers whole. -/
theorem mem_wholeUnits {size u : Nat} (hs : 0 < size) {l : List Nat} :
    u ∈ wholeUnits size l ↔ ∀ i < size, size * u + i ∈ l := by
  unfold wholeUnits
  simp only [List.mem_filter, mem_sall, List.mem_map, List.not_mem_nil, or_false, List.all_eq_true, List.mem_range,
    List.contains_iff_mem, Nat.mul_comm u]
  refine ⟨fun ⟨_, h⟩ => h, fun h => ⟨⟨size * u, h 0 hs, ?_⟩, h⟩⟩
  rw [Nat.mul_comm, Nat.mul_div_cancel _ hs]

/-- A check that is kept per unit is renewed where every byte of its unit is written. -/
theorem mem_renewed {size u : Nat} (hs : 0 < size) (bad : List Nat) (l : List (Nat × Byte)) :
    u ∈ (if bad.isEmpty then [] else bad.filter fun w => !(wholeUnits size (l.map (·.1))).contains w)
      ↔ u ∈ bad ∧ ¬ ∀ i < size, ∃ x ∈ l, x.1 = size * u + i := by
  have hcovered : u ∈ wholeUnits size (l.map (·.1)) ↔ ∀ i < size, ∃ x ∈ l, x.1 = size * u + i := by
    simp only [mem_wholeUnits hs, List.mem_map]
  have hempty : (if bad.isEmpty then [] else bad.filter fun w => !(wholeUnits size (l.map (·.1))).contains w)
      = bad.filter fun w => !(wholeUnits size (l.map (·.1))).contains w := by
    cases bad <;> rfl
  rw [hempty, List.mem_filter, Bool.not_eq_true', ← Bool.not_eq_true, List.contains_iff_mem, hcovered]

/-- Settles O34: the bytes are written one after the other; the checks are renewed by whole words and lines. -/
theorem windowWrites : Obligations.WindowWrites := by
  intro k l t
  refine ⟨fun a ha => cget_cputs_of_forall_ne ha _, ?_, fun w => mem_renewed (by decide) _ _,
    fun n => mem_renewed (by decide) _ _, rfl⟩
  rintro before a b after rfl ha
  exact cget_cputs_last ha _

end Sys2Proof.Laws.Issuing
end

section
/-! PROOF. Results that fall due (R182, R185, R186, R203): what each changes, and which of several is kept. -/

namespace Sys2Proof.Laws.Results

open Machine

/-! ### One result -/

theorem predClash_singleton (p : Pend) : predClash [p] = [] := by
  rw [predClash, List.filter_eq_nil_iff]
  intro q _
  cases q.eff.predReg with
  | none => exact Bool.false_ne_true
  | some r =>
    have hlen : ([p].filter fun q => decide (q.eff.predReg = some r)).length ≤ 1 := List.length_filter_le ..
    simp only [decide_eq_true_eq]
    omega

theorem predConflict_nil (c w : Nat) (s : State) : predConflict c w [] s = s := rfl

/-- An owner with what it has still to do when a result falls due. -/
def Owner.waiting (o : Owner) : Owner := { o with pend := o.pend.filter fun q => !decide (q.due ≤ o.tick), ports := [] }

/-- The only result that is due, where nothing keeps it back, has its effect and no other. -/
theorem resultWriteback_one {c w : Nat} {p : Pend} {s : State}
    (hone : (s.owner c w).pend.filter (fun q => decide (q.due ≤ (s.owner c w).tick)) = [p]) (hlate : p.eff.late = false)
    (hpar : tileParity [p] ((s.core c).ringErr.map (· / 2048)) = []) :
    exec (.resultWriteback c w) s =
      let r := dueEffect (s.core c) (Owner.waiting (s.owner c w)) p.eff
      .next (s.setCore c (r.1.setOwner w r.2)) := by
  rw [exec_resultWriteback, execResultWriteback, dueTick]
  simp only [hone, show sortBy pendKey [p] = [p] from rfl, predClash_singleton, hpar, predConflict_nil]
  have hplain : [p].filter (fun q => !q.eff.late && !([] : List Pend).contains q && !([] : List Pend).contains q) = [p] := by
    simp [hlate]
  have hnone : [p].filter (fun q => q.eff.late) = [] := by simp [hlate]
  rw [hplain, hnone]
  cases h : p.eff.isUse <;> simp only [List.filter_cons, List.filter_nil, h, Bool.not_true, Bool.not_false, if_true,
    Bool.false_eq_true, if_false, List.append_nil, List.nil_append] <;> rfl

theorem tileParity_of_not_tile {p : Pend} {bad : List Nat} (h : ∀ t x, p.eff ≠ .tile t x) : tileParity [p] bad = [] := by
  unfold tileParity
  split
  next t x ht => exact absurd ht (h t x)
  next => rfl

theorem tileParity_of_good {p : Pend} {bad : List Nat} {t : Nat} {x : TileWrite} (hp : p.eff = .tile t x)
    (h : x.reads = false ∨ t ∉ bad) : tileParity [p] bad = [] := by
  unfold tileParity
  have : (bad.contains t && x.reads) = false := by
    rcases h with h | h
    · rw [h, Bool.and_false]
    · simp [h]
  simp only [hp, this]
  rfl

theorem dueWin_eq (k : CoreSt) (o : Owner) (l : List (Nat × Byte)) :
    dueWin k o l = { winWrite k (l.map fun x => (o.winBase + x.1, x.2)) with
      unseen := k.unseen.filter fun u => decide (∀ x ∈ l, (o.winBase + x.1) / 64 ≠ u.line) } := by
  have hline : ∀ u : Unseen, (!l.any fun x => decide (winAt o x.1 / 64 = u.line)) =
      decide (∀ x ∈ l, (o.winBase + x.1) / 64 ≠ u.line) := by
    intro u
    rw [Bool.eq_iff_iff, Bool.not_eq_true', List.any_eq_false, decide_eq_true_eq]
    simp only [decide_eq_true_eq]
    rfl
  simp only [dueWin, hline]
  rfl

/-! ### Claims (R340) -/

/-- The bits of a range of slots. -/
theorem getLsbD_range {a n i : Nat} (hi : i < 32) :
    (BitVec.ofNat 32 ((2 ^ n - 1) * 2 ^ a)).getLsbD i = decide (a ≤ i ∧ i < a + n) := by
  rw [BitVec.getLsbD_ofNat, Nat.testBit_mul_two_pow, Nat.testBit_two_pow_sub_one, Bool.eq_iff_iff]
  simp only [Bool.and_eq_true, decide_eq_true_eq]
  omega

theorem claims_after (k : CoreSt) (o : Owner) (a n i : Nat) (set : Bool) (hi : i < 32) :
    (dueEffect k o (.claim a n set)).2.claims.getLsbD i = if a ≤ i ∧ i < a + n then set else o.claims.getLsbD i := by
  have hbit := getLsbD_range (a := a) (n := n) hi
  cases set with
  | true =>
    change (o.claims ||| BitVec.ofNat 32 ((2 ^ n - 1) * 2 ^ a)).getLsbD i = _
    rw [BitVec.getLsbD_or, hbit]
    split <;> simp [*]
  | false =>
    change (o.claims &&& ~~~BitVec.ofNat 32 ((2 ^ n - 1) * 2 ^ a)).getLsbD i = _
    rw [BitVec.getLsbD_and, BitVec.getLsbD_not, hbit]
    split <;> simp [*]

/-! ### The order of results (R186) -/

theorem mem_insertBy {α : Type} {key : α → Nat} {a b : α} {l : List α} : b ∈ insertBy key a l ↔ b = a ∨ b ∈ l := by
  induction l with
  | nil => simp [insertBy]
  | cons c l ih =>
    unfold insertBy
    split
    · simp
    · rw [List.mem_cons, ih, List.mem_cons]
      tauto

theorem sorted_insertBy {α : Type} {key : α → Nat} {a : α} {l : List α} (h : l.Pairwise fun x y => key x ≤ key y) :
    (insertBy key a l).Pairwise fun x y => key x ≤ key y := by
  induction l with
  | nil => exact List.pairwise_singleton ..
  | cons c l ih =>
    obtain ⟨hc, hl⟩ := List.pairwise_cons.1 h
    unfold insertBy
    split
    next hac =>
      refine List.pairwise_cons.2 ⟨fun b hb => ?_, h⟩
      rcases List.mem_cons.1 hb with rfl | hb
      · exact hac.le
      · exact hac.le.trans (hc b hb)
    next hca =>
      refine List.pairwise_cons.2 ⟨fun b hb => ?_, ih hl⟩
      rcases mem_insertBy.1 hb with rfl | hb
      · exact Nat.not_lt.1 hca
      · exact hc b hb

theorem mem_foldl_insertBy {α : Type} {key : α → Nat} {b : α} (l acc : List α) :
    b ∈ l.foldl (fun acc a => insertBy key a acc) acc ↔ b ∈ l ∨ b ∈ acc := by
  induction l generalizing acc with
  | nil => simp
  | cons a l ih =>
    rw [List.foldl_cons, ih, mem_insertBy, List.mem_cons]
    tauto

theorem mem_sortBy {α : Type} {key : α → Nat} {b : α} {l : List α} : b ∈ sortBy key l ↔ b ∈ l := by
  rw [sortBy, mem_foldl_insertBy]
  simp

theorem sorted_sortBy {α : Type} (key : α → Nat) (l : List α) : (sortBy key l).Pairwise fun x y => key x ≤ key y := by
  suffices h : ∀ acc : List α, acc.Pairwise (fun x y => key x ≤ key y) →
      (l.foldl (fun acc a => insertBy key a acc) acc).Pairwise fun x y => key x ≤ key y from h [] .nil
  induction l with
  | nil => exact fun _ h => h
  | cons a l ih => exact fun acc h => ih _ (sorted_insertBy h)

/-- Of two results of one tick, the one that stands over the other comes after it. -/
theorem pendKey_lt {p q : Pend} (hdue : q.due = p.due) (hq : q.iss < 2 ^ 64) (h : Over p q) : pendKey q < pendKey p := by
  unfold pendKey
  rw [hdue]
  rcases h with h | ⟨hs, hi⟩
  · omega
  · rw [hs]
    omega

/-! ### What the rest of the tick leaves alone -/

/-- The registers of an owner: its scalar registers, the vector registers of its core, and where its own begin. -/
def registers (c w : Nat) (s : State) : Tab XReg × Cells 32 × Nat := ((s.owner c w).x, (s.core c).vreg, (s.owner c w).vbase)

theorem setStream_x (o : Owner) (st : StreamId) (t : Stream) : (o.setStream st t).x = o.x := by cases st <;> rfl

theorem setStream_vbase (o : Owner) (st : StreamId) (t : Stream) : (o.setStream st t).vbase = o.vbase := by cases st <;> rfl

theorem registers_setCore {c w : Nat} {s : State} {k : CoreSt} (hx : (k.owner w).x = (s.owner c w).x)
    (hv : k.vreg = (s.core c).vreg) (hb : (k.owner w).vbase = (s.owner c w).vbase) :
    registers c w (s.setCore c k) = registers c w s := by
  simp only [registers, State.owner, State.core_setCore, if_true]
  rw [hx, hv, hb]
  rfl

theorem registers_setOwner {c w : Nat} {s : State} {o : Owner} (hx : o.x = (s.owner c w).x)
    (hb : o.vbase = (s.owner c w).vbase) : registers c w (s.setOwner c w o) = registers c w s := by
  refine registers_setCore ?_ rfl ?_ <;> rw [CoreSt.owner_setOwner, if_pos rfl]
  · exact hx
  · exact hb

theorem registers_stop {c w : Nat} {s : State} {o : Owner} {st : StreamId} {t : Stream} {sid : Nat} {e : FaultEv}
    (hx : o.x = (s.owner c w).x) (hb : o.vbase = (s.owner c w).vbase) :
    registers c w ((s.setOwner c w (o.setStream st t)).addFault sid e) = registers c w s :=
  registers_setOwner ((setStream_x ..).trans hx) ((setStream_vbase ..).trans hb)

theorem registers_raiseLate (c w : Nat) (st : StreamId) (iss : Nat) (loc : Loc) (b : Bad) (s : State) :
    registers c w (raiseLate c w st iss loc b s) = registers c w s := registers_stop rfl rfl

theorem registers_predConflict (c w : Nat) (l : List Pend) (s : State) :
    registers c w (predConflict c w l s) = registers c w s := by
  refine foldl_eq _ _ (fun s r => ?_) _ _
  dsimp only
  split
  · rfl
  · exact registers_stop rfl rfl

theorem registers_dueThr (c w : Nat) (p : Pend) (op : ThrOp) (s : State) :
    registers c w (dueThr c w p op s) = registers c w s := by
  unfold dueThr
  dsimp only
  split
  · exact registers_raiseLate ..
  · split
    · refine (registers_setOwner ?_ ?_).trans (registers_setCore ?_ ?_ ?_) <;> rfl
    · refine registers_setCore ?_ ?_ ?_ <;> rfl

theorem registers_dueLate (c w : Nat) (s : State) (p : Pend) : registers c w (dueLate c w s p) = registers c w s := by
  unfold dueLate
  split
  · exact registers_dueThr ..
  · unfold dueRead
    dsimp only
    split
    · exact registers_raiseLate ..
    · exact registers_setOwner rfl rfl
  · unfold duePort
    dsimp only
    split
    · exact registers_raiseLate ..
    · exact registers_setOwner rfl rfl
  · rfl

/-- Results of an owner that show in the order of their tick, uses of an ag set first. -/
def shown (o : Owner) (errs : List Nat) : List Pend :=
  let due := sortBy pendKey (o.pend.filter fun p => p.due ≤ o.tick)
  let plain := due.filter fun p => !p.eff.late && !(predClash due).contains p && !(tileParity due errs).contains p
  plain.filter (·.eff.isUse) ++ plain.filter fun p => !p.eff.isUse

/-- After the tick the registers are what its results have left. -/
theorem registers_resultWriteback (c w : Nat) (s : State) :
    let r := dueAll (s.core c) (Owner.waiting (s.owner c w)) (shown (s.owner c w) ((s.core c).ringErr.map (· / 2048)))
    ∃ t, exec (.resultWriteback c w) s = .next t ∧ registers c w t = (r.2.x, r.1.vreg, r.2.vbase) := by
  refine ⟨_, rfl, ?_⟩
  unfold dueTick
  rw [foldl_eq (dueLate c w) (registers c w) (registers_dueLate c w),
    foldl_eq (dueParity c w) (registers c w) fun _ _ => registers_stop rfl rfl, registers_predConflict]
  simp only [registers, State.owner, State.core_setCore, if_true, CoreSt.owner_setOwner]
  rfl

/-! ### The result that is kept -/

theorem not_mem_predClash {p : Pend} {l : List Pend} (h : p.eff.predReg = none) : p ∉ predClash l := by
  rw [predClash, List.mem_filter, h]
  exact fun h => Bool.false_ne_true h.2

theorem not_mem_tileParity {p : Pend} (h : ∀ t x, p.eff ≠ .tile t x) (l : List Pend) (bad : List Nat) : p ∉ tileParity l bad := by
  induction l generalizing bad with
  | nil => exact List.not_mem_nil
  | cons q l ih =>
    unfold tileParity
    split
    next t x hq =>
      split
      · rw [List.mem_cons]
        rintro (rfl | hp)
        · exact h t x hq
        · exact ih bad hp
      · exact ih _
    next => exact ih bad

/-- The last result of a kind comes, among those shown, after every other of its kind. -/
theorem shown_split {o : Owner} {p : Pend} {kind : Effect → Prop} {errs : List Nat} (hlast : LastDue o p kind)
    (hlate : p.eff.late = false) (huse : p.eff.isUse = false) (hpred : p.eff.predReg = none)
    (htile : ∀ t x, p.eff ≠ .tile t x) :
    ∃ before after, shown o errs = before ++ p :: after ∧ ∀ q ∈ after, kind q.eff → q = p := by
  obtain ⟨hmem, hdue, _, hover⟩ := hlast
  let due := sortBy pendKey (o.pend.filter fun p => p.due ≤ o.tick)
  let plain := due.filter fun p => !p.eff.late && !(predClash due).contains p && !(tileParity due errs).contains p
  have hpdue : p ∈ due := mem_sortBy.2 (List.mem_filter.2 ⟨hmem, decide_eq_true hdue.le⟩)
  have hplain : p ∈ plain.filter fun p => !p.eff.isUse := by
    refine List.mem_filter.2 ⟨List.mem_filter.2 ⟨hpdue, ?_⟩, by rw [huse]; rfl⟩
    simp [hlate, not_mem_predClash hpred, not_mem_tileParity htile]
  obtain ⟨b, a, hsplit⟩ := List.append_of_mem hplain
  refine ⟨plain.filter (·.eff.isUse) ++ b, a, ?_, fun q hq hk => ?_⟩
  · rw [List.append_assoc, ← hsplit]
    rfl
  · have hsub : (plain.filter fun p => !p.eff.isUse).Sublist due := List.filter_sublist.trans List.filter_sublist
    have hsorted := (sorted_sortBy pendKey (o.pend.filter fun p => p.due ≤ o.tick)).sublist hsub
    rw [hsplit] at hsorted
    have hle : pendKey p ≤ pendKey q := (List.pairwise_cons.1 (List.pairwise_append.1 hsorted).2.1).1 q hq
    have hqdue : q ∈ due := hsub.subset (hsplit ▸ List.mem_append_right _ (List.mem_cons_of_mem _ hq))
    obtain ⟨hqmem, hqtick⟩ := List.mem_filter.1 (mem_sortBy.1 hqdue)
    rcases hover q hqmem (of_decide_eq_true hqtick) hk with h | ⟨hqd, hqi, hov⟩
    · exact h
    · exact absurd (pendKey_lt (hqd.trans hdue.symm) hqi hov) (Nat.not_lt.2 hle)

theorem dueAll_append (k : CoreSt) (o : Owner) (l l' : List Pend) :
    dueAll k o (l ++ l') = dueAll (dueAll k o l).1 (dueAll k o l).2 l' := by
  rw [dueAll, List.foldl_append]
  rfl

theorem dueAll_cons (k : CoreSt) (o : Owner) (p : Pend) (l : List Pend) :
    dueAll k o (p :: l) = dueAll (dueEffect k o p.eff).1 (dueEffect k o p.eff).2 l := rfl

/-- What every other effect leaves alone has, at the end, the value that the last effect gives it. -/
theorem dueAll_last {α : Type} {g : CoreSt → Owner → α} {v : α} {before after : List Pend} {p : Pend}
    (hp : ∀ k o, g (dueEffect k o p.eff).1 (dueEffect k o p.eff).2 = v)
    (ha : ∀ q ∈ after, q = p ∨ ∀ k o, g (dueEffect k o q.eff).1 (dueEffect k o q.eff).2 = g k o) (k : CoreSt) (o : Owner) :
    g (dueAll k o (before ++ p :: after)).1 (dueAll k o (before ++ p :: after)).2 = v := by
  have hrest : ∀ k o, g k o = v → g (dueAll k o after).1 (dueAll k o after).2 = v := by
    clear before
    induction after with
    | nil => exact fun _ _ h => h
    | cons q after ih =>
      intro k o h
      rw [dueAll_cons]
      refine ih (fun r hr => ha r (List.mem_cons_of_mem q hr)) _ _ ?_
      rcases ha q List.mem_cons_self with rfl | hq
      · exact hp k o
      · exact (hq k o).trans h
  rw [dueAll_append, dueAll_cons]
  exact hrest _ _ (hp _ _)

/-! ### Scalar registers -/

theorem rx_eq {o : Owner} {r : BitVec 4} (hr : r ≠ 0) : rx o r = tget ({} : XReg) o.x r.toNat := if_neg hr

theorem dueEffect_x (k : CoreSt) (o : Owner) (r : BitVec 4) (v : XReg) :
    dueEffect k o (.x r v) = (k, if r = 0 then o else { o with x := tset o.x r.toNat v }) := rfl

theorem x_dueEffect_of_not_x {e : Effect} (he : ∀ r u, e ≠ .x r u) (k : CoreSt) (o : Owner) :
    (dueEffect k o e).2.x = o.x := by
  cases e with
  | x r u => exact absurd rfl (he r u)
  | ring op => cases op <;> rfl
  | _ => rfl

theorem x_dueEffect_other {r : BitVec 4} {e : Effect} (he : ∀ u, e ≠ .x r u) (k : CoreSt) (o : Owner) :
    tget ({} : XReg) (dueEffect k o e).2.x r.toNat = tget ({} : XReg) o.x r.toNat := by
  by_cases hx : ∃ r' u, e = .x r' u
  · obtain ⟨r', u, rfl⟩ := hx
    have hne : r.toNat ≠ r'.toNat := fun h => he u (by rw [BitVec.eq_of_toNat_eq h])
    rw [dueEffect_x]
    split
    · rfl
    · exact tget_tset_ne _ _ _ hne
  · rw [x_dueEffect_of_not_x fun r u h => hx ⟨r, u, h⟩]

theorem x_dueEffect_self {r : BitVec 4} (hr : r ≠ 0) (v : XReg) (k : CoreSt) (o : Owner) :
    tget ({} : XReg) (dueEffect k o (.x r v)).2.x r.toNat = v := by
  rw [dueEffect_x, if_neg hr]
  exact tget_tset_self ..

theorem last_x_kept {c w : Nat} {p : Pend} {s : State} {r : BitVec 4} {v : XReg} (hp : p.eff = .x r v) (hr : r ≠ 0)
    (hlast : LastDue (s.owner c w) p fun e => ∃ u, e = .x r u) :
    ∃ t, exec (.resultWriteback c w) s = .next t ∧ rx (t.owner c w) r = v := by
  obtain ⟨before, after, hsplit, hafter⟩ := shown_split (errs := (s.core c).ringErr.map (· / 2048)) hlast
    (by rw [hp]; rfl) (by rw [hp]; rfl) (by rw [hp]; rfl) (by rw [hp]; exact fun _ _ => nofun)
  obtain ⟨t, ht, hreg⟩ := registers_resultWriteback c w s
  refine ⟨t, ht, ?_⟩
  rw [hsplit] at hreg
  rw [rx_eq hr, show (t.owner c w).x = _ from congrArg Prod.fst hreg]
  refine dueAll_last (g := fun _ o => tget ({} : XReg) o.x r.toNat) (fun k o => ?_) (fun q hq => ?_) _ _
  · rw [hp]
    exact x_dueEffect_self hr v k o
  · by_cases hk : ∃ u, q.eff = .x r u
    · exact .inl (hafter q hq hk)
    · exact .inr (x_dueEffect_other (not_exists.1 hk))

/-! ### Lanes of vector registers -/

theorem cget_cslice (m : Cells 32) (lo n : Nat) {j : Nat} (hj : j < n) : cget (cslice m lo n) j = cget m (lo + j) := by
  induction m with
  | nil => rfl
  | cons x m ih =>
    obtain ⟨a, v⟩ := x
    rw [cslice, List.filterMap_cons]
    by_cases ha : lo ≤ a ∧ a < lo + n
    · simp only [if_pos ha, cget]
      rw [show cget (m.filterMap _) j = cget (cslice m lo n) j from rfl, ih]
      by_cases hja : j = a - lo
      · rw [if_pos hja, if_pos (by omega)]
      · rw [if_neg hja, if_neg (by omega)]
    · simp only [if_neg ha]
      rw [show cget (m.filterMap _) j = cget (cslice m lo n) j from rfl, ih, cget, if_neg (by omega)]

theorem cget_czero {w : Nat} (m : Cells w) (lo n a : Nat) : cget (czero m lo n) a = if lo ≤ a ∧ a < lo + n then 0 else cget m a := by
  induction m with
  | nil => split <;> rfl
  | cons x m ih =>
    obtain ⟨b, v⟩ := x
    unfold czero at ih ⊢
    by_cases hb : lo ≤ b ∧ b < lo + n
    · rw [List.filter_cons_of_neg (by simpa using hb), ih, cget]
      by_cases hab : a = b
      · rw [hab, if_pos hb, if_pos hb]
      · rw [if_neg hab]
    · rw [List.filter_cons_of_pos (by simp only [decide_eq_true_eq]; exact hb), cget, cget, ih]
      by_cases hab : a = b
      · subst hab
        rw [if_pos rfl, if_neg hb, if_pos rfl]
      · simp only [if_neg hab]

/-- The cells of a tabulated function, written one after the other. -/
theorem cget_cputs_range (m : Cells 32) (lo : Nat) (f : Nat → W32) (n a : Nat) :
    cget (cputs m ((List.range n).filterMap fun k => if f k = 0 then none else some (lo + k, f k))) a
      = if lo ≤ a ∧ a < lo + n ∧ f (a - lo) ≠ 0 then f (a - lo) else cget m a := by
  induction n with
  | zero => rw [if_neg (by omega)]; rfl
  | succ n ih =>
    have hsucc : a ≠ lo + n → ((lo ≤ a ∧ a < lo + n ∧ f (a - lo) ≠ 0) ↔ lo ≤ a ∧ a < lo + (n + 1) ∧ f (a - lo) ≠ 0) :=
      fun ha => ⟨fun ⟨h1, h2, h3⟩ => ⟨h1, by omega, h3⟩, fun ⟨h1, h2, h3⟩ => ⟨h1, by omega, h3⟩⟩
    rw [List.range_succ, List.filterMap_append, cputs_append]
    by_cases hn : f n = 0
    · simp only [List.filterMap_cons, List.filterMap_nil, if_pos hn, cputs, ih]
      by_cases ha : a = lo + n
      · rw [ha, Nat.add_sub_cancel_left, if_neg (by omega), if_neg (by simp [hn])]
      · exact if_congr (hsucc ha) rfl rfl
    · simp only [List.filterMap_cons, List.filterMap_nil, if_neg hn, cputs]
      by_cases ha : a = lo + n
      · rw [ha, cget_cset_self, Nat.add_sub_cancel_left, if_pos ⟨by omega, by omega, hn⟩]
      · rw [cget_cset_ne _ _ ha, ih]
        exact if_congr (hsucc ha) rfl rfl

theorem filterMap_ctab (lo n : Nat) (f : Nat → W32) :
    ((ctab n f).filterMap fun (a, v) => if a < n then some (lo + a, v) else none)
      = (List.range n).filterMap fun k => if f k = 0 then none else some (lo + k, f k) := by
  rw [ctab, List.filterMap_filterMap]
  refine List.filterMap_congr fun k hk => ?_
  by_cases h : f k = 0
  · simp only [if_pos h, Option.bind_none]
  · simp only [if_neg h, Option.bind_some, if_pos (List.mem_range.1 hk)]

theorem cget_cblit_ctab (m : Cells 32) (lo n : Nat) (f : Nat → W32) (a : Nat) :
    cget (cblit m lo n (ctab n f)) a = if lo ≤ a ∧ a < lo + n then f (a - lo) else cget m a := by
  rw [cblit, filterMap_ctab, cget_cputs_range, cget_czero]
  by_cases ha : lo ≤ a ∧ a < lo + n
  · rw [if_pos ha, if_pos ha]
    by_cases hf : f (a - lo) = 0
    · rw [if_neg (fun h => h.2.2 hf), hf]
    · rw [if_pos ⟨ha.1, ha.2, hf⟩]
  · rw [if_neg (fun h => ha ⟨h.1, h.2.1⟩), if_neg ha, if_neg ha]

theorem dueVreg_vreg (k : CoreSt) (o : Owner) (r : Nat) (v : Cells 32) (act : LaneMask) :
    (dueVreg k o r v act).vreg = cblit k.vreg (vPhys o r * 1024) 1024
      (ctab 1024 fun l => if act.getLsbD l then cget v l else cget (cslice k.vreg (vPhys o r * 1024) 1024) l) := by
  unfold dueVreg mergeLanes
  with_reducible rfl

/-- A lane of a vector register after a result of a register is in place. -/
theorem vreg_dueVreg (k : CoreSt) (o : Owner) (r r' : Nat) (v : Cells 32) (act : LaneMask) {l : Nat} (hl : l < 1024) :
    cget (dueVreg k o r' v act).vreg ((o.vbase + r) * 1024 + l)
      = if r' = r ∧ act.getLsbD l = true then cget v l else cget k.vreg ((o.vbase + r) * 1024 + l) := by
  rw [dueVreg_vreg, cget_cblit_ctab, vPhys]
  by_cases hr : r' = r
  · subst hr
    rw [if_pos (by omega), Nat.add_sub_cancel_left, cget_cslice _ _ _ hl]
    simp only [true_and]
  · rw [if_neg (by omega), if_neg fun h => hr h.1]

theorem vbase_dueEffect (e : Effect) (k : CoreSt) (o : Owner) : (dueEffect k o e).2.vbase = o.vbase := by
  cases e with
  | x r u =>
    rw [dueEffect_x]
    split <;> rfl
  | ring op => cases op <;> rfl
  | _ => rfl

theorem vreg_dueEffect_of_not_vreg {e : Effect} (he : ∀ r v act, e ≠ .vreg r v act) (k : CoreSt) (o : Owner) :
    (dueEffect k o e).1.vreg = k.vreg := by
  cases e with
  | vreg r v act => exact absurd rfl (he r v act)
  | _ => rfl

/-- A lane of register `r` of the owner. -/
def lane (r l : Nat) (k : CoreSt) (o : Owner) : W32 := cget k.vreg ((o.vbase + r) * 1024 + l)

theorem lane_dueEffect_self {r l : Nat} {v : Cells 32} {act : LaneMask} (hl : l < 1024) (ha : act.getLsbD l = true)
    (k : CoreSt) (o : Owner) :
    lane r l (dueEffect k o (.vreg r v act)).1 (dueEffect k o (.vreg r v act)).2 = cget v l :=
  (vreg_dueVreg k o r r v act hl).trans (if_pos ⟨rfl, ha⟩)

theorem lane_dueEffect_other {r l : Nat} {e : Effect} (hl : l < 1024)
    (he : ¬ ∃ u a, e = .vreg r u a ∧ a.getLsbD l = true) (k : CoreSt) (o : Owner) :
    lane r l (dueEffect k o e).1 (dueEffect k o e).2 = lane r l k o := by
  by_cases hv : ∃ r' u a, e = .vreg r' u a
  · obtain ⟨r', u, a, rfl⟩ := hv
    refine (vreg_dueVreg k o r r' u a hl).trans (if_neg ?_)
    rintro ⟨rfl, ha⟩
    exact he ⟨u, a, rfl, ha⟩
  · rw [lane, vbase_dueEffect, vreg_dueEffect_of_not_vreg fun r' u a h => hv ⟨r', u, a, h⟩, lane]

theorem last_lane_kept {c w : Nat} {p : Pend} {s : State} {r : BitVec 4} {v : Cells 32} {act : LaneMask} {l : Nat}
    (hp : p.eff = .vreg r.toNat v act) (hl : l < 1024) (ha : act.getLsbD l = true)
    (hlast : LastDue (s.owner c w) p fun e => ∃ u a, e = .vreg r.toNat u a ∧ a.getLsbD l = true) :
    ∃ t, exec (.resultWriteback c w) s = .next t ∧ cget (vlanes (t.core c) (t.owner c w) r) l = cget v l := by
  obtain ⟨before, after, hsplit, hafter⟩ := shown_split (errs := (s.core c).ringErr.map (· / 2048)) hlast
    (by rw [hp]; rfl) (by rw [hp]; rfl) (by rw [hp]; rfl) (by rw [hp]; exact fun _ _ => nofun)
  obtain ⟨t, ht, hreg⟩ := registers_resultWriteback c w s
  refine ⟨t, ht, ?_⟩
  rw [hsplit] at hreg
  have hvreg : (t.core c).vreg = _ := congrArg (·.2.1) hreg
  have hvbase : (t.owner c w).vbase = _ := congrArg (·.2.2) hreg
  rw [vlanes, cget_cslice _ _ _ hl, vPhys, hvreg, hvbase]
  refine dueAll_last (g := lane r.toNat l) (fun k o => ?_) (fun q hq => ?_) _ _
  · rw [hp]
    exact lane_dueEffect_self hl ha k o
  · by_cases hk : ∃ u a, q.eff = .vreg r.toNat u a ∧ a.getLsbD l = true
    · exact .inl (hafter q hq hk)
    · exact .inr (lane_dueEffect_other hl hk)

/-! ### The obligation -/

/-- Settles O33: one result alone is `resultWriteback_one`; of several the last of its kind in the order of the tick is kept. -/
theorem resultsAppear : Obligations.ResultsAppear := by
  unfold Obligations.ResultsAppear
  refine ⟨fun c w p s hone => ?_, fun k o a n i set _ hi => claims_after k o a n i set hi,
    fun c w p s => ⟨fun r v hp hr => last_x_kept hp hr, fun r v act l hp hl ha => last_lane_kept hp hl ha⟩⟩
  have plain : ∀ e, p.eff = e → e.late = false → (∀ t x, e ≠ .tile t x) →
      exec (.resultWriteback c w) s = .next (s.setCore c
        ((dueEffect (s.core c) (Owner.waiting (s.owner c w)) e).1.setOwner w
          (dueEffect (s.core c) (Owner.waiting (s.owner c w)) e).2)) := by
    rintro e rfl hlate htile
    exact resultWriteback_one hone hlate (tileParity_of_not_tile htile)
  refine ⟨fun r v hp => plain _ hp rfl nofun, fun r b hp => plain _ hp rfl nofun, fun r v hp => plain _ hp rfl nofun,
    fun r v hp => plain _ hp rfl nofun, fun a v hp => plain _ hp rfl nofun, fun a v hp => plain _ hp rfl nofun,
    fun a v hp => plain _ hp rfl nofun, fun a v hp => plain _ hp rfl nofun, fun a v hp => plain _ hp rfl nofun,
    fun a hp => plain _ hp rfl nofun, fun v hp => plain _ hp rfl nofun, fun hp => ?fqPop, fun n hp => plain _ hp rfl nofun,
    fun n hp => plain _ hp rfl nofun, fun hp => plain _ hp rfl nofun, fun hp => plain _ hp rfl nofun, fun hp => plain _ hp rfl nofun,
    fun v hp => plain _ hp rfl nofun, fun l hp => ?win, fun r v act hp => plain _ hp rfl nofun,
    fun r v act hp => plain _ hp rfl nofun, fun t x hp hgood => ?tile⟩
  case fqPop =>
    rw [plain _ hp rfl nofun, ← List.drop_one]
    rfl
  case win =>
    rw [plain _ hp rfl nofun, ← dueWin_eq]
    rfl
  case tile =>
    have hring : tileParity [p] ((s.core c).ringErr.map (· / 2048)) = [] := by
      refine tileParity_of_good hp (hgood.imp_right fun h hmem => ?_)
      obtain ⟨e, he, het⟩ := List.mem_map.1 hmem
      exact h e he het
    refine (resultWriteback_one hone (by rw [hp]; rfl) hring).trans ?_
    rw [hp]
    rfl

end Sys2Proof.Laws.Results
end

section
/-! PROOF. The package and its power: what is true after cold reset, and what its operations do (R10-R20, R159). -/

namespace Sys2Proof.Laws.Package

open Machine

/-! ### Sensors, cap and governor -/

theorem any_eq_decide {α : Type} {q : α → Prop} [DecidablePred q] (l : List α) :
    l.any (fun x => decide (q x)) = decide (∃ x ∈ l, q x) := by
  rw [Bool.eq_iff_iff, List.any_eq_true, decide_eq_true_eq]
  simp only [decide_eq_true_eq]

theorem exec_junctionSensorRead_cool {temps : List Nat} (s : State) (h : ∀ x ∈ temps, x < 110) :
    exec (.junctionSensorRead temps) s = .next { s with pwr := { s.pwr with therm := decide (∃ x ∈ temps, 100 ≤ x) } } := by
  have hcool : temps.any (fun x => decide (110 ≤ x)) = false := by
    rw [List.any_eq_false]
    intro x hx
    simpa using h x hx
  rw [exec_junctionSensorRead, execJunctionSensorRead, hcool, any_eq_decide]
  rfl

theorem exec_junctionSensorRead_trip {temps : List Nat} (s : State) (h : ∃ x ∈ temps, 110 ≤ x) :
    exec (.junctionSensorRead temps) s = .next { s with
      pwr := { s.pwr with therm := true, trip := true }
      out := s.out ++ [.thermalTrip], agenda := s.agenda ++ [.railFault] } := by
  have hhot : temps.any (fun x => decide (110 ≤ x)) = true := by simpa using h
  have hwarm : temps.any (fun x => decide (100 ≤ x)) = true := by
    obtain ⟨x, hx, hle⟩ := h
    exact List.any_eq_true.2 ⟨x, hx, decide_eq_true (Nat.le_trans (by decide) hle)⟩
  rw [exec_junctionSensorRead, execJunctionSensorRead, hhot, hwarm]
  rfl

theorem exec_ceilingSet_of_le {n : Nat} (s : State) (h : n ≤ 13) :
    exec (.ceilingSet n) s = .next { s with pwr := { s.pwr with ceil := BitVec.ofNat 4 n } } :=
  congrArg Host.Outcome.next (if_pos h)

theorem exec_ceilingSet_of_gt {n : Nat} (s : State) (h : 13 < n) : exec (.ceilingSet n) s = .next s :=
  congrArg Host.Outcome.next (if_neg (Nat.not_le.2 h))

/-- The cap that a write of HB_PWR_CAP leaves. -/
theorem toNat_writtenCap (v : BitVec 64) :
    (bv 11 (max 500 (min 2000 (v.extractLsb' 0 11).toNat))).toNat = max 500 (min 2000 (v.toNat % 2048)) := by
  rw [BitVec.extractLsb'_toNat, Nat.shiftRight_zero]
  exact (BitVec.toNat_ofNat _ _).trans (Nat.mod_eq_of_lt (by omega))

/-! ### The end of a revolution (R16-R20) -/

/-- The settings at the boundary of a revolution, as the decision at it reads them. -/
def atBoundary (p : Power) (mean : Nat) : Power :=
  { p with capNow := p.cap
           lowRev := if mean * 100 < p.cap.toNat * 95000 then p.lowRev + 1 else 0
           coolRev := if p.therm then 0 else p.coolRev + 1 }

theorem exec_governorRevolution_eq (mean : Nat) (s : State) :
    exec (.governorRevolution mean) s = .next { s with pwr := { atBoundary s.pwr mean with
      step := bv 4 (nextStep (atBoundary s.pwr mean) mean)
      lowered := lowered (nextStep (atBoundary s.pwr mean) mean - s.pwr.step.toNat) s.pwr
      floor := decide (nextStep (atBoundary s.pwr mean) mean = 13 ∧ s.pwr.cap.toNat * 1000 < mean)
      revs := s.pwr.revs + 1 } } := rfl

section NextStep

variable {p : Power} {mean : Nat}

theorem nextStep_of_lt_ceil (h : p.step.toNat < p.ceil.toNat) : nextStep p mean = p.ceil.toNat := if_pos h

theorem nextStep_of_lower (h : p.ceil.toNat ≤ p.step.toNat)
    (hl : (decide (p.capNow.toNat * 1000 < mean) || p.therm) = true) : nextStep p mean = min (p.step.toNat + 1) 13 := by
  refine (if_neg (Nat.not_lt.2 h)).trans (if_pos ?_)
  simpa using hl

theorem nextStep_of_not_lower (h : p.ceil.toNat ≤ p.step.toNat)
    (hl : (decide (p.capNow.toNat * 1000 < mean) || p.therm) = false) :
    nextStep p mean = if 1024 ≤ p.lowRev ∧ 1024 ≤ p.coolRev ∧ p.ceil.toNat < p.step.toNat then p.step.toNat - 1 else p.step.toNat := by
  refine (if_neg (Nat.not_lt.2 h)).trans (if_neg ?_)
  simpa using hl

end NextStep

theorem not_therm_of_not_lower {p : Power} {mean : Nat} (h : (decide (p.cap.toNat * 1000 < mean) || p.therm) = false) :
    p.therm = false := (Bool.or_eq_false_iff.1 h).2

/-- The revolutions that the decision counts are those before it and its own. -/
theorem rise_iff {p : Power} {mean : Nat} (htherm : p.therm = false) :
    (1024 ≤ (atBoundary p mean).lowRev ∧ 1024 ≤ (atBoundary p mean).coolRev ∧ p.ceil.toNat < p.step.toNat)
      ↔ (decide (mean * 100 < p.cap.toNat * 95000) && decide (1024 ≤ p.lowRev + 1) && decide (1024 ≤ p.coolRev + 1)
          && decide (p.ceil.toNat < p.step.toNat)) = true := by
  have hcool : (atBoundary p mean).coolRev = p.coolRev + 1 := by simp [atBoundary, htherm]
  have hlow : 1024 ≤ (atBoundary p mean).lowRev ↔ mean * 100 < p.cap.toNat * 95000 ∧ 1024 ≤ p.lowRev + 1 := by
    dsimp only [atBoundary]
    split <;> simp [*]
  rw [hcool, hlow]
  simp [and_assoc]

theorem bv_toNat {w : Nat} (v : BitVec w) : bv w v.toNat = v := BitVec.eq_of_toNat_eq (by simp [bv])

theorem toNat_step {n : Nat} (h : n ≤ 13) : (bv 4 n).toNat = n :=
  (BitVec.toNat_ofNat _ _).trans (Nat.mod_eq_of_lt (by omega))

theorem step_eq_iff {n m : Nat} (hn : n ≤ 13) (hm : m ≤ 13) : bv 4 n = bv 4 m ↔ n = m := by
  refine ⟨fun h => ?_, fun h => h ▸ rfl⟩
  rw [← toNat_step hn, h, toNat_step hm]

theorem nextStep_atBoundary_le {p : Power} (h : p.legal = true) (mean : Nat) : nextStep (atBoundary p mean) mean ≤ 13 := by
  obtain ⟨hstep, hceil, -⟩ := Governor.legal_iff.1 h
  exact Governor.nextStep_le hstep hceil

theorem toNat_lowered (n : Nat) (p : Power) : (lowered n p).toNat = min (p.lowered.toNat + n) 0xFFFFFFFF :=
  (BitVec.toNat_ofNat _ _).trans (Nat.mod_eq_of_lt (by omega))

/-! ### The obligations -/

/-- Settles O39: the reset state is written out, and each of its fields can be read off. -/
theorem resetState : Obligations.ResetState := by
  unfold Obligations.ResetState
  refine ⟨?_, ?_, ?_, ?_, ?_, ?_, ?_, ?_, ?_, ?_, ?_, ?_, ?_, ?_, ?_, ?_, ?_, ?_, ?_, ?_, ?_, ?_, ?_, ?_, ?_, ?_, ?_, ?_, ?_⟩ <;> rfl

/-- Settles O40: the operations that bring power up or down leave the reset state; the others each write their own setting. -/
theorem packageOperations : Obligations.PackageOperations := by
  unfold Obligations.PackageOperations
  refine ⟨fun s => ⟨rfl, fun hoff => ?_, fun hon => ?_, rfl⟩,
    fun s => ⟨fun _ => exec_junctionSensorRead_cool s, fun _ => exec_junctionSensorRead_trip s, fun _ => exec_ceilingSet_of_le s,
      fun _ => exec_ceilingSet_of_gt s, fun v => ⟨_, rfl, rfl, toNat_writtenCap v⟩, rfl, fun v hv => ?_, fun v hv => ?_⟩⟩
  · rw [exec_powerUpSequence, execPowerUpSequence, hoff]
    rfl
  · rw [exec_powerUpSequence, execPowerUpSequence, hon]
    rfl
  · exact congrArg Host.Outcome.next (if_neg (Nat.not_lt.2 hv))
  · exact congrArg Host.Outcome.next (if_pos hv)

/-- Settles O41: the decision is `nextStep` at the boundary, case by case. -/
theorem governorActs : Obligations.GovernorActs := by
  unfold Obligations.GovernorActs
  intro mean s
  refine ⟨fun n => exec_ceilingSet_of_le s, fun hlegal => ⟨_, exec_governorRevolution_eq mean s, rfl, ?_⟩⟩
  have hle := nextStep_atBoundary_le hlegal mean
  obtain ⟨hstep, hceil, -⟩ := Governor.legal_iff.1 hlegal
  refine ⟨fun hlt => ?_, fun hge hlow => ?_, fun hge hlow hrise => ?_, fun hge hlow hrise => ?_, ?_, ?_, rfl, rfl, rfl, rfl, ?_, rfl⟩
  · exact (congrArg (bv 4) (nextStep_of_lt_ceil (p := atBoundary s.pwr mean) hlt)).trans (bv_toNat _)
  · exact (toNat_step hle).trans (nextStep_of_lower (p := atBoundary s.pwr mean) hge hlow)
  · have hcond := (rise_iff (mean := mean) (not_therm_of_not_lower hlow)).2 hrise
    have hnext : nextStep (atBoundary s.pwr mean) mean = s.pwr.step.toNat - 1 :=
      (nextStep_of_not_lower (p := atBoundary s.pwr mean) hge hlow).trans (if_pos hcond)
    have hpos := hcond.2.2
    exact (congrArg (· + 1) ((toNat_step hle).trans hnext)).trans (by omega)
  · have hcond := mt (rise_iff (mean := mean) (not_therm_of_not_lower hlow)).1 (Bool.eq_false_iff.1 hrise)
    exact (congrArg (bv 4) ((nextStep_of_not_lower (p := atBoundary s.pwr mean) hge hlow).trans (if_neg hcond))).trans (bv_toNat _)
  · refine (toNat_lowered _ _).trans ?_
    rw [toNat_step hle]
  · refine (Bool.decide_and ..).trans (congrArg (· && decide (s.pwr.cap.toNat * 1000 < mean)) ?_)
    exact decide_eq_decide.2 (step_eq_iff hle (Nat.le_refl 13)).symm
  · simp only [atBoundary, decide_eq_true_eq]

end Sys2Proof.Laws.Package
end

section
/-! PROOF. Words written out from the encoding tables, and what the decoder refuses (R298-R312, R421). -/

namespace Sys2Proof.Laws.Words

open Machine

/-- Settles O38: the decoder is run on each of the words. -/
theorem decodeWords : Obligations.DecodeWords := by
  unfold Obligations.DecodeWords
  refine ⟨?_, ?_, ?_, ?_, ?_, ?_, ?_, ?_, ?_, ?_, ?_, ?_, ?_, ?_, ?_, ?_, ?_, ?_, ?_, ?_, ?_, ?_, ?_⟩
  all_goals rfl

end Sys2Proof.Laws.Words
end

section
/-! PROOF. One step, and the parts of a cycle of origin time (R2, R3, R157, R175, R199, R216). -/

namespace Sys2Proof.Laws.Cycle

open Machine
open Results (mem_sortBy sorted_sortBy)

/-! ### What a step carries out -/

section Steps

variable {s : State}

theorem step_agenda {i : Instr} {l : List Instr} (h : s.agenda = i :: l) : step s = exec i { s with agenda := l } := by
  rw [step, h]

theorem step_issue {x : Slot} {l : List Slot} (ha : s.agenda = []) (h : s.issue = x :: l) : step s = issueSlot x l s := by
  rw [step, ha, h]

theorem step_advance (ha : s.agenda = []) (h : s.issue = []) : step s = advance s := by
  rw [step, ha, h]

end Steps

/-! ### Fetch (R175, R213, R298) -/

theorem fetch_owner {x : Slot} (hx : x.str ≠ .f) (s : State) :
    fetch x s =
      let o := s.owner x.core x.wid
      let t := o.stream x.str
      if !t.ready o.tick then .idle
      else if parcelsFail (o.failing x.str) t.img t.pc then .parity
      else match decode x.str (t.img.drop t.pc) with
        | .ok (i, _) => .instr i
        | .error _ => .bad := by
  obtain ⟨c, w, st⟩ := x
  cases st with
  | f => exact absurd rfl hx
  | _ => rfl

theorem fetch_cobbler {x : Slot} (hx : x.str = .f) (s : State) :
    fetch x s =
      let b := s.cob x.core
      if (s.core x.core).locked ∨ b.cur.isNone then .idle
      else if parcelsFail b.imErr b.img b.pc then .lock
      else match decode .f (b.img.drop b.pc) with
        | .ok (i, _) => .instr i
        | .error _ => .lock := by
  obtain ⟨c, w, st⟩ := x
  subst hx
  rfl

section Issuing

variable {x : Slot} {l : List Slot} {s : State}

theorem core_of_issuing (c : Nat) : ({ s with issue := l, cur := x } : State).core c = s.core c := rfl

theorem owner_of_issuing (c w : Nat) : ({ s with issue := l, cur := x } : State).owner c w = s.owner c w := rfl

theorem cob_of_issuing (c : Nat) : ({ s with issue := l, cur := x } : State).cob c = s.cob c := rfl

theorem issueSlot_idle (h : fetch x { s with issue := l, cur := x } = .idle) :
    issueSlot x l s = .next { s with issue := l, cur := x } := by
  rw [issueSlot, h]

theorem issueSlot_parity (h : fetch x { s with issue := l, cur := x } = .parity) :
    issueSlot x l s = .next (raise { cause := .operandParity } { s with issue := l, cur := x }) := by
  rw [issueSlot, h]

theorem issueSlot_instr {i : Instr} (h : fetch x { s with issue := l, cur := x } = .instr i) :
    issueSlot x l s = if x.str = .f then withCobPorts x.core i (exec i) { s with issue := l, cur := x }
      else exec i { s with issue := l, cur := x } := by
  rw [issueSlot, h]

end Issuing

/-! ### The bank ports of Cobbler (R83, R199) -/

/-- What taking bank ports changes: the ports taken on each core. -/
def PortsTaken (s u : State) : Prop := u = { s with cores := u.cores } ∧ ∀ c, u.core c = { s.core c with used := (u.core c).used }

theorem PortsTaken.refl (s : State) : PortsTaken s s := ⟨rfl, fun _ => rfl⟩

theorem PortsTaken.takePort {s u : State} (h : PortsTaken s u) (c bank : Nat) (wr : Bool) : PortsTaken s (takePort c bank wr u) := by
  obtain ⟨hstate, hcore⟩ := h
  constructor
  · rw [Machine.takePort, State.setCore, hstate]
  · intro d
    rw [Machine.takePort, State.core_setCore]
    split
    next hd => rw [hd, hcore c]
    next => exact hcore d

theorem PortsTaken.foldl {s u : State} (h : PortsTaken s u) (l : List PortReq) :
    PortsTaken s (l.foldl (fun s p => Machine.takePort p.core (bankOf p.line) p.wr s) u) := by
  induction l generalizing u with
  | nil => exact h
  | cons p l ih => exact ih (h.takePort _ _ _)

theorem portTurn_of_open {who : PortReq → Option (Nat × Nat)} {l : List PortReq} {s : State}
    (h : ∀ p ∈ l, portOpen s p = true) : PortsTaken s (portTurn who l s).2 := by
  have hnone : l.filter (fun p => !portOpen s p) = [] := by
    rw [List.filter_eq_nil_iff]
    intro p hp
    rw [h p hp]
    exact Bool.false_ne_true
  rw [portTurn]
  simp only [hnone, List.foldl_nil]
  exact (PortsTaken.refl s).foldl _

theorem cob_loseCycle (row c w bank : Nat) (s : State) (d : Nat) : (loseCycle row c w bank s).cob d = s.cob d := by
  rw [loseCycle, State.setOwner, State.cob, State.core_setCore]
  split
  next hd => rw [hd]; rfl
  next => rfl

/-- Waiting for a bank port charges owners, and does not touch the firmware contexts. -/
theorem cob_foldl_loseCycle (l : List PortReq) (s : State) (d : Nat) :
    (l.foldl (fun s p => match cycleOwner s p with | some (c, w) => loseCycle 9 c w (bankOf p.line) s | none => s) s).cob d = s.cob d := by
  refine foldl_eq _ (fun s : State => s.cob d) (fun s p => ?_) l s
  split
  · exact cob_loseCycle ..
  · rfl

section CobPorts

variable {c : Nat} {i : Instr} {s : State}

theorem withCobPorts_nil {go : State → Res} (h : cobPorts c i s = []) : withCobPorts c i go s = go s := by
  rw [withCobPorts, h]
  rfl

theorem withCobPorts_of_free {go : State → Res} (h : ∀ p ∈ cobPorts c i s, portOpen s p = true ∧ cseFirst s p = false) :
    withCobPorts c i go s = go (portTurn (cycleOwner s) (cobPorts c i s) s).2 := by
  have hbusy : (cobPorts c i s).filter (fun p => !portOpen s p || cseFirst s p) = [] := by
    rw [List.filter_eq_nil_iff]
    intro p hp
    rw [(h p hp).1, (h p hp).2]
    exact Bool.false_ne_true
  rw [withCobPorts]
  simp only [hbusy]
  rfl

theorem withCobPorts_of_busy {go : State → Res} (h : ∃ p ∈ cobPorts c i s, ¬ (portOpen s p = true ∧ cseFirst s p = false)) :
    ∃ u, withCobPorts c i go s = .next u ∧ ∀ d, u.cob d = s.cob d := by
  obtain ⟨p, hp, hbusy⟩ := h
  have hmem : p ∈ (cobPorts c i s).filter fun p => !portOpen s p || cseFirst s p := by
    refine List.mem_filter.2 ⟨hp, ?_⟩
    cases ho : portOpen s p <;> cases hc : cseFirst s p <;> simp_all
  refine ⟨_, if_neg fun hnil => ?_, cob_foldl_loseCycle _ _⟩
  rw [List.isEmpty_iff.1 hnil] at hmem
  exact List.not_mem_nil hmem

end CobPorts

/-! ### Time passes -/

section Passing

variable {s : State}

theorem advance_dark (h : s.pwr.on = false) : advance s = darkTurn s := by
  rw [advance, h]
  rfl

theorem advance_issued (hon : s.pwr.on = true) (h : s.phase = 0) : advance s = .next (issued s) := by
  rw [advance, hon, h]
  rfl

theorem advance_perform (hon : s.pwr.on = true) (h : s.phase = 1 ∨ s.phase = 2 ∨ s.phase = 3) :
    advance s = .next (performDue s) := by
  rw [advance, hon]
  rcases h with h | h | h <;> rw [h] <;> rfl

theorem advance_accesses (hon : s.pwr.on = true) (h : s.phase = 4) : advance s = .next (accesses s) := by
  rw [advance, hon, h]
  rfl

theorem advance_stalls (hon : s.pwr.on = true) (h : s.phase = 5) :
    advance s = .next { s.pushAll (stallEnds s) with phase := 6 } := by
  rw [advance, hon, h]
  rfl

theorem advance_begin (hon : s.pwr.on = true) (h : s.phase = 6) : advance s = .next { beginCycle s with phase := 0 } := by
  rw [advance, hon, h]
  rfl

theorem darkTurn_input {c : Nat} {i : Instr} {l : List (Nat × Instr)} (hi : i ≠ .powerUpSequence) (h : s.inputs = (c, i) :: l) :
    darkTurn s = .next { s with inputs := l } := by
  unfold darkTurn
  rw [h]
  split
  next hnil => cases hnil
  next c' l' hcons =>
    cases hcons
    exact absurd rfl hi
  next hcons =>
    cases hcons
    rfl

end Passing

/-- Settles O35: the agenda, then the slots, then time. -/
theorem stepRuns : Obligations.StepRuns := by
  unfold Obligations.StepRuns
  refine ⟨fun s => ⟨fun i l => step_agenda, fun x l i n ha hl hx hr hp hd => ?decoded, fun x l ha hl hx hr hp => ?parity,
    fun x l ha hl hx hr => ?idle, fun x l i n ha hl hx hlock hcur hp hd => ?firmware, step_advance⟩,
    fun s hoff ha hl => ⟨fun hin => ?dark, fun c l hin => ?powerUp, fun c i l hi hin => ?dropped⟩⟩
  case decoded =>
    have hfetch : fetch x { s with issue := l, cur := x } = .instr i := by
      rw [fetch_owner hx]
      simp only [owner_of_issuing, hr, hp, hd]
      rfl
    exact (step_issue ha hl).trans ((issueSlot_instr hfetch).trans (if_neg hx))
  case parity =>
    have hfetch : fetch x { s with issue := l, cur := x } = .parity := by
      rw [fetch_owner hx]
      simp only [owner_of_issuing, hr, hp]
      rfl
    exact (step_issue ha hl).trans (issueSlot_parity hfetch)
  case idle =>
    have hfetch : fetch x { s with issue := l, cur := x } = .idle := by
      rw [fetch_owner hx]
      simp only [owner_of_issuing, hr]
      rfl
    exact (step_issue ha hl).trans (issueSlot_idle hfetch)
  case firmware =>
    have hfetch : fetch x { s with issue := l, cur := x } = .instr i := by
      have hnone : ((s.cob x.core).cur.isNone) = false := by rwa [← Bool.not_eq_true, Option.isNone_iff_eq_none]
      rw [fetch_cobbler hx]
      simp only [core_of_issuing, cob_of_issuing, hlock, hnone, hp, hd]
      rfl
    have hstep : step s = withCobPorts x.core i (exec i) { s with issue := l, cur := x } :=
      (step_issue ha hl).trans ((issueSlot_instr hfetch).trans (if_pos hx))
    refine ⟨fun hwant => hstep.trans (withCobPorts_nil hwant), fun hfree => ?_, fun hbusy => ?_⟩
    · obtain ⟨hstate, hcore⟩ := portTurn_of_open (who := cycleOwner { s with issue := l, cur := x }) fun p hp => (hfree p hp).1
      exact ⟨_, hstep.trans (withCobPorts_of_free hfree), hstate, hcore⟩
    · rw [hstep]
      exact withCobPorts_of_busy hbusy
  case dark =>
    rw [step_advance ha hl, advance_dark hoff, darkTurn, hin]
  case powerUp =>
    rw [step_advance ha hl, advance_dark hoff, darkTurn, hin]
  case dropped => rw [step_advance ha hl, advance_dark hoff, darkTurn_input hi hin]

/-! ### The parts of a cycle (R3, R216) -/

section Parts

variable {s : State}

theorem perform_eq {i : Instr} {l : List Instr} (ha : s.agenda = []) : perform i l s = { s with due := l, agenda := [i] } := by
  rw [perform, State.push, ha]
  rfl

theorem flushPosts_nil (h : s.posts = []) : flushPosts s = s := by
  rw [flushPosts, h, List.foldl_nil, ← h]

/-- Where nothing is to be posted the CFE's turn only passes. -/
theorem cfeTurn_of_no_post (h : s.posts = []) : flushPosts { s with phase := 3 } = { s with phase := 3 } :=
  flushPosts_nil (s := { s with phase := 3 }) h

theorem perm_insertBy {α : Type} (key : α → Nat) (a : α) (l : List α) : (insertBy key a l).Perm (a :: l) := by
  induction l with
  | nil => exact .refl _
  | cons b l ih =>
    unfold insertBy
    split
    · exact .refl _
    · exact (ih.cons b).trans (.swap a b l)

theorem perm_sortBy {α : Type} (key : α → Nat) (l : List α) : (sortBy key l).Perm l := by
  suffices h : ∀ acc, (l.foldl (fun acc a => insertBy key a acc) acc).Perm (l ++ acc) by simpa [sortBy] using h []
  induction l with
  | nil => exact fun _ => .refl _
  | cons a l ih =>
    intro acc
    refine (ih (insertBy key a acc)).trans (((perm_insertBy key a acc).append_left l).trans ?_)
    exact List.perm_middle

theorem sidsWhere_nil {f : Strand → Bool} (h : ∀ x ∈ s.strands, f x.2 = false) : sidsWhere s f = [] := by
  rw [sidsWhere, List.map_eq_nil_iff, List.filter_eq_nil_iff]
  exact fun x hx => Bool.eq_false_iff.1 (h x hx)

theorem issued_cons {i : Instr} {l : List Instr} (h : s.due = i :: l) : issued s = perform i l s := by
  rw [issued, h]

/-- Where no strand is in a tick, what falls due is taken up at once. -/
theorem issued_nil (h : s.due = []) (hi : s.issue = []) (ht : ∀ x ∈ s.strands, x.2.inTick = false) :
    issued s = { takeDue s with phase := 1 } := by
  have hsettle : settleTokens s = s := by rw [settleTokens, sidsWhere_nil ht, List.foldl_nil]
  rw [issued, h]
  dsimp only
  rw [hsettle, hi]
  rfl

/-! What `takeDue` takes up. -/

/-- The operations that fall due, before they are put in order. -/
def fallsDue (s : State) : List Instr :=
  let left := match nextHost s true with | some x => s.inputs.erase x | none => s.inputs
  ((nextHost s true).toList ++ left.filter (fun x => decide (x.1 ≤ s.cycle) && deviceEvent x.2)
    ++ s.timers.filter (fun x => decide (x.1 ≤ s.cycle)) ++ s.nsTimers.filter fun x => decide (x.1 ≤ s.ref)).map (·.2)

theorem due_takeDue (s : State) :
    (takeDue s).due = sortBy (agentRank s) (fallsDue s ++ laneTurns s ++ (cfePick s).toList) := rfl

theorem mem_due_of_fallsDue {i : Instr} (h : i ∈ fallsDue s) : i ∈ (takeDue s).due := by
  rw [due_takeDue, mem_sortBy]
  exact List.mem_append_left _ (List.mem_append_left _ h)

theorem timer_fallsDue {x : Nat × Instr} (hx : x ∈ s.timers) (hd : x.1 ≤ s.cycle) : x.2 ∈ fallsDue s := by
  refine List.mem_map_of_mem (List.mem_append_left _ (List.mem_append_right _ ?_))
  exact List.mem_filter.2 ⟨hx, decide_eq_true hd⟩

theorem nsTimer_fallsDue {x : Nat × Instr} (hx : x ∈ s.nsTimers) (hd : x.1 ≤ s.ref) : x.2 ∈ fallsDue s := by
  refine List.mem_map_of_mem (List.mem_append_right _ ?_)
  exact List.mem_filter.2 ⟨hx, decide_eq_true hd⟩

theorem host_fallsDue {x : Nat × Instr} (hx : nextHost s true = some x) : x.2 ∈ fallsDue s := by
  refine List.mem_map_of_mem (List.mem_append_left _ (List.mem_append_left _ (List.mem_append_left _ ?_)))
  rw [hx]
  exact List.mem_singleton_self x

theorem not_deviceEvent_of_nextHost {mem : Bool} {x : Nat × Instr} (hx : nextHost s mem = some x) : deviceEvent x.2 = false := by
  unfold nextHost at hx
  split at hx
  next y hy =>
    split at hx
    · cases hx
      simpa using List.find?_some hy
    · cases hx
  next => cases hx

/-- An event of a device is no access of the host, so the access taken up leaves it. -/
theorem event_fallsDue {x : Nat × Instr} (hx : x ∈ s.inputs) (hd : x.1 ≤ s.cycle) (he : deviceEvent x.2 = true) :
    x.2 ∈ fallsDue s := by
  refine List.mem_map_of_mem (List.mem_append_left _ (List.mem_append_left _ (List.mem_append_right _ ?_)))
  refine List.mem_filter.2 ⟨?_, by simp [hd, he]⟩
  split
  next y hy =>
    refine (List.mem_erase_of_ne ?_).2 hx
    rintro rfl
    rw [not_deviceEvent_of_nextHost hy] at he
    cases he
  next => exact hx

/-- What performs of operations that are due, in each part of the cycle. -/
theorem performDue_cons {i : Instr} {l : List Instr} (hd : s.due = i :: l) :
    performDue s =
      if s.phase = 1 then
        if agentRank s i = 0 then perform i l s else { s with due := sortBy (agentRank s) s.due, phase := 2 }
      else if s.phase = 2 then if agentRank s i < cfeRank then perform i l s else flushPosts { s with phase := 3 }
      else if s.phase = 3 then perform i l s else s := by
  unfold performDue
  split
  next hp hcons =>
    cases hd.symm.trans hcons
    rw [if_pos hp]
  next hp hcons =>
    cases hd.symm.trans hcons
    rw [if_neg (show ¬ s.phase = 1 by omega), if_pos hp]
  next hp hcons =>
    cases hd.symm.trans hcons
    rw [if_neg (show ¬ s.phase = 1 by omega), if_neg (show ¬ s.phase = 2 by omega), if_pos hp]
  next hnil => cases hd.symm.trans hnil
  next hnil _ => cases hd.symm.trans hnil
  next h1 h2 h3 => rw [if_neg h1, if_neg h2, if_neg h3]

theorem performDue_nil (hd : s.due = []) :
    performDue s = if s.phase = 3 then { endCycle (s.cores.foldl traceTurn s) with phase := 4 } else flushPosts { s with phase := 3 } := by
  unfold performDue
  split
  next hcons => cases hd.symm.trans hcons
  next hcons => cases hd.symm.trans hcons
  next hcons => cases hd.symm.trans hcons
  next hp _ => rw [if_pos hp]
  next h3 => rw [if_neg h3]
  next hcons _ _ _ => cases hd.symm.trans hcons

theorem cycle_nsEdge (s : State) : (nsEdge s).cycle = s.cycle := by
  unfold nsEdge
  generalize checkpointNs s = interval
  exact (apply_ite State.cycle ..).trans (ite_self _)

theorem cycle_nextCycle (s : State) : (nextCycle s).cycle = s.cycle + 1 := by
  unfold nextCycle
  generalize edgeUnits = units
  refine (apply_ite State.cycle ..).trans ?_
  rw [cycle_nsEdge]
  exact ite_self _

/-- A cycle in which no strand is set up ends by itself. -/
theorem endCycle_of_no_strand (h : s.strands = []) : endCycle s = nextCycle s := by
  have hnone : ∀ f, sidsWhere s f = [] := fun f => sidsWhere_nil (by rw [h]; exact fun x hx => absurd hx List.not_mem_nil)
  have hstall : stallFaults s = s := by rw [stallFaults, hnone, List.foldl_nil]
  have hsend : sendBarriers s = s := by rw [sendBarriers, hnone, List.foldl_nil]
  rw [endCycle, hnone, List.foldl_nil, hstall, hsend]

theorem accesses_cons {i : Instr} {l : List Instr} (hd : s.due = i :: l) : accesses s = perform i l s := by
  rw [accesses, hd]

theorem accesses_nil (hd : s.due = []) : accesses s = (takeEarly s).getD { switches s with phase := 5 } := by
  unfold accesses
  split
  next hcons => cases hd.symm.trans hcons
  next => rfl

theorem accesses_host {x : Nat × Instr} (hd : s.due = []) (hx : nextHost s false = some x) :
    accesses s = { s with inputs := s.inputs.erase x }.push x.2 := by
  have hearly : takeEarly s = some ({ s with inputs := s.inputs.erase x }.push x.2) := by rw [takeEarly, hx]
  rw [accesses_nil hd, hearly, Option.getD_some]

theorem accesses_none (hd : s.due = []) (hx : nextHost s false = none)
    (ht : ∀ x ∈ s.timers, x.1 ≤ s.cycle → hubAccess s x.2 = false) : accesses s = { switches s with phase := 5 } := by
  have hfind : s.timers.find? (fun x => decide (x.1 ≤ s.cycle) && hubAccess s x.2) = none := by
    rw [List.find?_eq_none]
    intro x hmem htrue
    obtain ⟨hle, hhub⟩ := Bool.and_eq_true_iff.1 htrue
    rw [ht x hmem (of_decide_eq_true hle)] at hhub
    cases hhub
  have hearly : takeEarly s = none := by
    rw [takeEarly, hx, hfind]
    rfl
  rw [accesses_nil hd, hearly, Option.getD_none]

theorem cycle_switches (s : State) : (switches s).cycle = s.cycle := by
  unfold switches packageTurn
  dsimp only
  split <;> split <;> rfl

theorem cycle_beginCycle (hc : s.cores = []) (ht : s.strands = []) : (beginCycle s).cycle = s.cycle := by
  have hnone : sidsWhere s (fun t => onClass s t) = [] :=
    sidsWhere_nil (by rw [ht]; exact fun x hx => absurd hx List.not_mem_nil)
  have hcharge : (chargeCycle s).cores = [] := by
    rw [chargeCycle, hc]
    exact hc
  rw [beginCycle, hnone, List.foldl_nil, hcharge, List.foldl_nil, chargeCycle, hc]
  rfl

end Parts

/-- Settles O36: each clause is the part of the cycle that its phase stands for. -/
theorem cyclePasses : Obligations.CyclePasses := by
  unfold Obligations.CyclePasses
  intro s hon ha hl
  have hstep : step s = advance s := step_advance ha hl
  rw [hstep]
  refine ⟨fun i l hle h1 h2 hd => ?performs, fun hp hd ht => ?taken, fun i l hp hd hr => ?sc, fun i l hp hd hr => ?sorted,
    fun i l hp hd hr => ?core, fun i l hp hd hr hposts => ?cfe, fun hp hd hposts => ?none, fun hc ht hp hd => ?ends,
    fun x hp hd hx => ?host, fun hp hd hx ht => ?switched, fun hp => ?stalls, fun hc ht hp => ?begins⟩
  case performs =>
    rcases (by omega : s.phase = 0 ∨ s.phase = 3 ∨ s.phase = 4) with hp | hp | hp
    · rw [advance_issued hon hp, issued_cons hd, perform_eq ha]
    · rw [advance_perform hon (.inr (.inr hp)), performDue_cons hd, if_neg (by omega), if_neg (by omega), if_pos hp, perform_eq ha]
    · rw [advance_accesses hon hp, accesses_cons hd, perform_eq ha]
  case taken =>
    refine ⟨_, (advance_issued hon hp).trans (congrArg Host.Outcome.next (issued_nil hd hl ht)), rfl, rfl, ha,
      fun x hx hle => mem_due_of_fallsDue (timer_fallsDue hx hle), fun x hx hle => mem_due_of_fallsDue (nsTimer_fallsDue hx hle),
      fun x hx hle he => mem_due_of_fallsDue (event_fallsDue hx hle he), fun x hx => mem_due_of_fallsDue (host_fallsDue hx),
      sorted_sortBy ..⟩
  case sc => rw [advance_perform hon (.inl hp), performDue_cons hd, if_pos hp, if_pos hr, perform_eq ha]
  case sorted =>
    refine ⟨{ s with due := sortBy (agentRank s) s.due, phase := 2 }, ?_, rfl, perm_sortBy .., sorted_sortBy ..⟩
    rw [advance_perform hon (.inl hp), performDue_cons hd, if_pos hp, if_neg hr]
  case core => rw [advance_perform hon (.inr (.inl hp)), performDue_cons hd, if_neg (by omega), if_pos hp, if_pos hr, perform_eq ha]
  case cfe => rw [advance_perform hon (.inr (.inl hp)), performDue_cons hd, if_neg (by omega), if_pos hp, if_neg (Nat.not_lt.2 hr),
      cfeTurn_of_no_post hposts]
  case none => rw [advance_perform hon (hp.imp_right .inl), performDue_nil hd, if_neg (by omega), cfeTurn_of_no_post hposts]
  case ends =>
    refine ⟨_, (advance_perform hon (.inr (.inr hp))).trans
      (congrArg Host.Outcome.next ((performDue_nil hd).trans (if_pos hp))), rfl, ?_⟩
    rw [hc, List.foldl_nil, endCycle_of_no_strand ht]
    exact cycle_nextCycle s
  case host =>
    rw [advance_accesses hon hp, accesses_host hd hx, State.push, ha]
    rfl
  case switched =>
    exact ⟨_, (advance_accesses hon hp).trans (congrArg Host.Outcome.next (accesses_none hd hx ht)), rfl, cycle_switches s⟩
  case stalls =>
    rw [advance_stalls hon hp, State.pushAll, ha]
    rfl
  case begins => exact ⟨_, advance_begin hon hp, rfl, cycle_beginCycle hc ht⟩

end Sys2Proof.Laws.Cycle
end

section
/-! PROOF. The functions of the host port: booting, resets of functions and of the port, virtual functions, TDISP, IDE keys and
link training (R21, R24, R32, R33, R37, R38, R87, R88). -/

namespace Sys2Proof.Laws.Functions

open Machine

/-! ### The records of functions -/

@[simp] theorem fn_setFn (s : State) (f g : Nat) (v : Fn) : (s.setFn f v).fn g = if g = f then v else s.fn g := tget_tset ..

theorem fn_setFn_self (s : State) (f : Nat) (v : Fn) : (s.setFn f v).fn f = v := tget_tset_self ..

theorem fn_setFn_ne (s : State) {f g : Nat} (v : Fn) (h : g ≠ f) : (s.setFn f v).fn g = s.fn g := tget_tset_ne _ _ _ h

/-! ### Where virtual functions stand (R24) -/

/-- A state that differs from another in where the disabled VFs of some functions would appear. -/
def OnlyPlaces (s t : State) : Prop :=
  t = { s with fns := t.fns } ∧ ∀ f, t.fn f = { s.fn f with firstVf := (t.fn f).firstVf } ∧ ((s.fn f).vfEnable = true → t.fn f = s.fn f)

theorem OnlyPlaces.refl (s : State) : OnlyPlaces s s := ⟨rfl, fun _ => ⟨rfl, fun _ => rfl⟩⟩

theorem OnlyPlaces.setFn {s t : State} (h : OnlyPlaces s t) {p : Nat} (v : Nat) (hp : (t.fn p).vfEnable = false) :
    OnlyPlaces s (t.setFn p { t.fn p with firstVf := v }) := by
  obtain ⟨hstate, hfn⟩ := h
  refine ⟨by rw [State.setFn, hstate], fun f => ?_⟩
  by_cases hf : f = p
  · subst hf
    rw [fn_setFn_self]
    refine ⟨by rw [(hfn f).1], fun hon => ?_⟩
    rw [(hfn f).2 hon, hon] at hp
    cases hp
  · rw [fn_setFn_ne _ _ hf]
    exact hfn f

theorem onlyPlaces_packVfs (s : State) : OnlyPlaces s (packVfs s) := by
  unfold packVfs
  generalize (List.range 32).map (· + 1) = l
  suffices h : ∀ (a : State × List (Nat × Nat) × Nat), OnlyPlaces s a.1 → OnlyPlaces s (l.foldl _ a).1 from h _ (.refl s)
  induction l with
  | nil => exact fun _ h => h
  | cons p l ih =>
    intro a h
    rw [List.foldl_cons]
    apply ih
    dsimp only
    split
    · exact h
    · split
      · exact h
      next hoff => exact h.setFn _ (Bool.eq_false_iff.2 hoff)

theorem fn_packVfs_of_enabled {s : State} {f : Nat} (h : (s.fn f).vfEnable = true) : (packVfs s).fn f = s.fn f :=
  ((onlyPlaces_packVfs s).2 f).2 h

theorem vfEnable_packVfs (s : State) (f : Nat) : ((packVfs s).fn f).vfEnable = (s.fn f).vfEnable := by
  rw [((onlyPlaces_packVfs s).2 f).1]

theorem numVfs_packVfs (s : State) (f : Nat) : ((packVfs s).fn f).numVfs = (s.fn f).numVfs := by
  rw [((onlyPlaces_packVfs s).2 f).1]

theorem tdi_packVfs (s : State) (f : Nat) : ((packVfs s).fn f).tdi = (s.fn f).tdi := by
  rw [((onlyPlaces_packVfs s).2 f).1]

theorem tdiChange_of_unlocked {s : State} {fn : Nat} (h : (s.fn fn).tdi = .configUnlocked) : tdiChange fn s = s := by
  rw [tdiChange, h]
  rfl

/-! ### Booting (R87, R88) -/

/-- A package without a firmware store, whose function 1 is in D3hot. -/
def asleep : State := { fns := [(1, { cfg := { power := 3 } })] }

theorem imageFault_nil : imageFault 1 [] = 1 := by
  unfold imageFault
  exact if_pos (Or.inr (by decide))

/-- Refutes O42: with no image in the store the boot stops at the first one, but a function that is in D3hot answers no access at all,
as one that does not exist: it does not answer all ones. -/
theorem not_firmwareBoot : ¬ Obligations.FirmwareBoot := by
  unfold Obligations.FirmwareBoot
  intro h
  have hbad : imageFault 1 (asleep.fw.store.getD (1 - 1) []) ≠ 0 := by
    rw [show asleep.fw.store.getD (1 - 1) [] = [] from rfl, imageFault_nil]
    decide
  obtain ⟨t, -, ht, -, -, -, hgate⟩ := (h asleep rfl).2 1 (Nat.le_refl 1) (by decide) (fun j h1 h2 => by omega) hbad
  have hfn : t.fn 1 = asleep.fn 1 := by rw [ht]; rfl
  have habsent : gate t 1 = .absent := by
    rw [gate, hfn]
    rfl
  rw [hgate 1 (Nat.le_refl 1) (by decide)] at habsent
  cases habsent

/-! ### VF Enable and NumVFs (R24) -/

theorem vfFit_spec {used : List (Nat × Nat)} {lo n a : Nat} (h : vfFit used lo n = some a) :
    lo ≤ a ∧ a + n ≤ 289 ∧ ∀ r ∈ used, a + n ≤ r.1 ∨ r.1 + r.2 ≤ a := by
  have hmem := List.mem_of_find?_eq_some h
  have hall := List.find?_some h
  simp only [List.mem_map, List.mem_range] at hmem
  obtain ⟨k, hk, rfl⟩ := hmem
  refine ⟨by omega, by omega, fun r hr => ?_⟩
  exact of_decide_eq_true (List.all_eq_true.1 hall r hr)

theorem vfHome_spec {s : State} {pf a : Nat} (h : vfHome s pf = some a) :
    33 ≤ a ∧ a + (s.fn pf).numVfs ≤ 289 ∧ ∀ r ∈ vfRanges s, a + (s.fn pf).numVfs ≤ r.1 ∨ r.1 + r.2 ≤ a := by
  unfold vfHome at h
  dsimp only at h
  split at h
  next hown =>
    cases h
    obtain ⟨hlo, hhi, hall⟩ := hown
    exact ⟨hlo, hhi, fun r hr => of_decide_eq_true (List.all_eq_true.1 hall r hr)⟩
  next => exact vfFit_spec h

section VfEnable

variable {s : State} {pf : Nat}

/-- The pool has room, and the partition exists. -/
theorem exec_vfEnableWrite_on {r : State} (h1 : 1 ≤ pf) (h32 : pf ≤ 32) (hoff : (s.fn pf).vfEnable = false)
    (hpool : vfsElse s pf + (s.fn pf).numVfs ≤ 256) (hpart : (tget {} s.parts pf).v = true)
    (hsome : ∀ a, vfHome s pf = some a → tdiChange pf (packVfs (s.setFn pf { s.fn pf with vfEnable := true, firstVf := a })) = r)
    (hnone : vfHome s pf = none → s = r) : exec (.vfEnableWrite pf true) s = .next r := by
  rw [exec_vfEnableWrite, execVfEnableWrite]
  dsimp only
  rw [hoff, hpart, if_neg (by simp; omega), if_pos rfl, if_neg (by simp; omega)]
  congr 1
  split
  next a ha => exact hsome a ha
  next ha => exact hnone ha

theorem exec_vfEnableWrite_refused
    (h : 256 < vfsElse s pf + (s.fn pf).numVfs ∨ (tget {} s.parts pf).v = false) : exec (.vfEnableWrite pf true) s = .next s := by
  rw [exec_vfEnableWrite, execVfEnableWrite]
  dsimp only
  rw [if_pos (show true = true from rfl), if_pos (h.imp_right fun hv => by rw [hv]; rfl), ite_self]

theorem fn_enabled {a : Nat} (htdi : (s.fn pf).tdi = .configUnlocked) :
    (tdiChange pf (packVfs (s.setFn pf { s.fn pf with vfEnable := true, firstVf := a }))).fn pf
      = { s.fn pf with vfEnable := true, firstVf := a } := by
  have hself := fn_setFn_self s pf { s.fn pf with vfEnable := true, firstVf := a }
  have hkeep := fn_packVfs_of_enabled (s := s.setFn pf { s.fn pf with vfEnable := true, firstVf := a }) (f := pf) (by rw [hself])
  rw [tdiChange_of_unlocked (by rw [hkeep, hself]; exact htdi), hkeep, hself]

theorem exec_numvfsWrite_off {n : Nat} (h1 : 1 ≤ pf) (h32 : pf ≤ 32) (hn : n ≤ 64) (hoff : (s.fn pf).vfEnable = false)
    (htdi : (s.fn pf).tdi = .configUnlocked) :
    ∃ t, exec (.numvfsWrite pf n) s = .next t ∧ (t.fn pf).numVfs = n ∧ (t.fn pf).vfEnable = false := by
  rw [exec_numvfsWrite, execNumvfsWrite]
  by_cases hsame : n = (s.fn pf).numVfs
  · exact ⟨s, congrArg Host.Outcome.next (if_pos (.inr (.inr (.inr (.inr hsame))))), hsame.symm, hoff⟩
  · refine ⟨_, congrArg Host.Outcome.next (if_neg (by rw [hoff]; simp only [Bool.false_eq_true, false_or]; omega)), ?_⟩
    have hself := fn_setFn_self s pf { s.fn pf with numVfs := n }
    rw [tdiChange_of_unlocked (by rw [tdi_packVfs, hself]; exact htdi), numVfs_packVfs, vfEnable_packVfs, hself]
    exact ⟨rfl, hoff⟩

end VfEnable

/-! ### TDISP (R38) -/

section Tdisp

variable {s : State} {fn : Nat}

theorem exec_tdisp_lock (h0 : fn ≠ 0) (hex : fnExists s fn = true) : exec (.tdispRequest fn .lock) s =
    .next (if (s.fn fn).tdi = .configUnlocked then s.setFn fn { s.fn fn with tdi := .configLocked } else s) := by
  rw [exec_tdispRequest]
  unfold execTdispRequest
  dsimp only
  rw [if_neg (by simp [h0, hex])]
  cases (s.fn fn).tdi <;> rfl

theorem exec_tdisp_start (h0 : fn ≠ 0) (hex : fnExists s fn = true) : exec (.tdispRequest fn .start) s =
    .next (if (s.fn fn).tdi = .configLocked then s.setFn fn { s.fn fn with tdi := .run } else s) := by
  rw [exec_tdispRequest]
  unfold execTdispRequest
  dsimp only
  rw [if_neg (by simp [h0, hex])]
  cases (s.fn fn).tdi <;> rfl

theorem exec_tdisp_stop (h0 : fn ≠ 0) (hex : fnExists s fn = true) (hrun : (s.fn fn).tdi ≠ .error) :
    exec (.tdispRequest fn .stop) s = .next (s.setFn fn { s.fn fn with tdi := .configUnlocked }) := by
  rw [exec_tdispRequest]
  unfold execTdispRequest
  dsimp only
  rw [if_neg (by simp [h0, hex])]
  cases h : (s.fn fn).tdi with
  | error => exact absurd h hrun
  | _ => rfl

theorem exec_tdisp_report (h0 : fn ≠ 0) (hex : fnExists s fn = true) : exec (.tdispRequest fn .report) s =
    .next (if (s.fn fn).tdi = .configLocked ∨ (s.fn fn).tdi = .run then s.emit (.tdispReport fn (tdiReport s fn)) else s) := by
  rw [exec_tdispRequest]
  unfold execTdispRequest
  dsimp only
  rw [if_neg (by simp [h0, hex])]
  cases (s.fn fn).tdi <;> rfl

end Tdisp

/-! ### Link training (R21, R35) -/

theorem aer_logAer (s : State) (fn : Nat) (e : AerError) : ((logAer fn e s).fn fn).aer = (s.fn fn).aer ++ [e] := by
  rw [logAer, fn_setFn_self]

theorem fn_logAer_ne (s : State) {fn f : Nat} (e : AerError) (h : f ≠ fn) : (logAer fn e s).fn f = s.fn f := fn_setFn_ne _ _ h

/-- Rates and widths at which the link trains. -/
def Trains (gen width : Nat) : Prop := 1 ≤ gen ∧ gen ≤ 6 ∧ (width = 16 ∨ width = 8 ∨ width = 4)

/-- The link as it has trained. -/
def trained (s : State) (gen width : Nat) (flit : Bool) : Link :=
  { s.link with up := true, gen := gen, width := width, active := width, flit := decide (gen = 6) || flit }

section Training

variable {s : State} {gen width : Nat} {flit : Bool}

/-- What is logged where a link that was up trains anew. -/
def retrained (s : State) : State := if Config.linkFailed s.free then logAer 0 .dataLink s.tick1 else s.tick1

theorem retrained_spec (s : State) :
    retrained s = { s with free := s.free + 1, fns := (retrained s).fns } ∧ (∀ f, f ≠ 0 → (retrained s).fn f = s.fn f)
      ∧ (((retrained s).fn 0).aer = (s.fn 0).aer ∨ ((retrained s).fn 0).aer = (s.fn 0).aer ++ [.dataLink]) := by
  unfold retrained
  split
  · exact ⟨rfl, fun f hf => fn_logAer_ne s.tick1 _ hf, .inr (aer_logAer s.tick1 0 _)⟩
  · exact ⟨rfl, fun _ _ => rfl, .inl rfl⟩

theorem exec_pcieLinkTraining_down (hup : s.link.up = false) (h : Trains gen width) :
    exec (.pcieLinkTraining gen width flit) s = .next { s with link := trained s gen width flit } := by
  rw [exec_pcieLinkTraining, execPcieLinkTraining]
  dsimp only
  rw [hup, if_pos (show (!false) = true from rfl)]
  exact congrArg Host.Outcome.next (if_pos h)

theorem exec_pcieLinkTraining_down_fails (hup : s.link.up = false) (h : ¬ Trains gen width) :
    exec (.pcieLinkTraining gen width flit) s = .next (logAer 0 .link s) := by
  rw [exec_pcieLinkTraining, execPcieLinkTraining]
  dsimp only
  rw [hup, if_pos (show (!false) = true from rfl)]
  exact congrArg Host.Outcome.next (if_neg h)

theorem exec_pcieLinkTraining_up (hup : s.link.up = true) (h : Trains gen width) :
    exec (.pcieLinkTraining gen width flit) s = .next { retrained s with link := trained (retrained s) gen width flit } := by
  rw [exec_pcieLinkTraining, execPcieLinkTraining]
  dsimp only
  rw [hup, if_neg (show ¬ (!true) = true from nofun)]
  exact congrArg Host.Outcome.next (if_pos h)

theorem exec_pcieLinkTraining_up_fails (hup : s.link.up = true) (h : ¬ Trains gen width) :
    exec (.pcieLinkTraining gen width flit) s = .next (logAer 0 .link (retrained s)) := by
  rw [exec_pcieLinkTraining, execPcieLinkTraining]
  dsimp only
  rw [hup, if_neg (show ¬ (!true) = true from nofun)]
  exact congrArg Host.Outcome.next (if_neg h)

end Training

theorem not_mem_sdel (a : Nat) (l : List Nat) : a ∉ sdel a l := by
  rw [sdel, List.mem_filter]
  exact fun h => of_decide_eq_true h.2 rfl

/-- Settles O44: VF Enable and NumVFs change no other place of an enabled function (`onlyPlaces_packVfs`), and TDISP, IDE keys and
training are read off, request by request. -/
theorem functionControl : Obligations.FunctionControl := by
  unfold Obligations.FunctionControl
  intro s
  refine ⟨fun pf h1 h32 hoff htdi hpool hpart => ⟨fun a ha => ⟨_, exec_vfEnableWrite_on h1 h32 hoff hpool hpart
      (fun b hb => by rw [ha] at hb; cases hb; rfl) (fun hn => by rw [ha] at hn; cases hn), fn_enabled htdi⟩,
      fun hn => exec_vfEnableWrite_on h1 h32 hoff hpool hpart (fun b hb => by rw [hn] at hb; cases hb) fun _ => rfl⟩,
    fun pf a => vfHome_spec, fun pf _ => exec_vfEnableWrite_refused, fun pf n h1 h32 hn => exec_numvfsWrite_off h1 h32 hn,
    fun pf n hon => congrArg Host.Outcome.next (if_pos (.inl hon)), fun fn h0 hex => ?tdisp, fun st key hst hses => ?key, fun st key h => ?noKey,
    fun gen width flit => ⟨fun hup hg => exec_pcieLinkTraining_down hup hg, fun hup hg => exec_pcieLinkTraining_down_fails hup hg,
      fun hup hg => ?up, fun hup hg => ?upFails⟩⟩
  case tdisp =>
    refine ⟨fun h => ?_, fun h => ?_, fun h => ⟨?_, ?_⟩, fun h => ?_, fun h => ?_, fun h => ?_⟩
    · rw [exec_tdisp_lock h0 hex, if_pos h]
    · rw [exec_tdisp_start h0 hex, if_pos h]
    · exact exec_tdisp_stop h0 hex (by rw [h]; nofun)
    · rw [exec_tdisp_report h0 hex, if_pos (.inr h)]
      rfl
    · rw [exec_tdisp_lock h0 hex, if_neg h]
    · rw [exec_tdisp_start h0 hex, if_neg h]
    · rw [exec_tdisp_report h0 hex, if_neg (by rcases h with h | h <;> rw [h] <;> decide)]
  case key => exact ⟨_, congrArg Host.Outcome.next (if_pos ⟨hst, hses⟩), tget_tset_self .., not_mem_sdel st s.link.insecure, rfl⟩
  case noKey =>
    refine congrArg Host.Outcome.next (if_neg fun ⟨hst, hses⟩ => ?_)
    rcases h with h | h
    · rw [h] at hses
      cases hses
    · omega
  case up =>
    obtain ⟨hstate, hfn, haer⟩ := retrained_spec s
    have hlink : (retrained s).link = s.link := by rw [hstate]
    refine ⟨_, exec_pcieLinkTraining_up hup hg, ?_, hfn, ?_⟩
    · rw [trained, hlink, hstate]
    · rw [List.append_nil]
      exact haer
  case upFails =>
    obtain ⟨hstate, hfn, haer⟩ := retrained_spec s
    refine ⟨_, exec_pcieLinkTraining_up_fails hup hg, ?_, fun f hf => (fn_logAer_ne _ _ hf).trans (hfn f hf), ?_⟩
    · rw [logAer, State.setFn, hstate]
    · rw [aer_logAer]
      rcases haer with haer | haer <;> rw [haer]
      · exact .inl rfl
      · exact .inr (List.append_assoc ..)

/-! ### Records of a function (R32, R33) -/

theorem tget_filter {α : Type} (d : α) (t : Tab α) (keep : Nat → Bool) (i : Nat) :
    tget d (t.filter fun x => keep x.1) i = if keep i then tget d t i else d := by
  induction t with
  | nil => exact (ite_self d).symm
  | cons x t ih =>
    obtain ⟨j, v⟩ := x
    rw [List.filter_cons]
    by_cases hj : i = j
    · subst hj
      cases hk : keep i with
      | true => simp [tget]
      | false => simp only [Bool.false_eq_true, if_false, ih, hk]
    · cases hk : keep j with
      | true => simp only [if_true, tget, if_neg hj, ih]
      | false => simp only [Bool.false_eq_true, if_false, ih, tget, if_neg hj]

theorem tget_tmap {α : Type} (d : α) (t : Tab α) (f : Nat → α → α) (i : Nat) :
    tget d (tmap t f) i = d ∨ tget d (tmap t f) i = f i (tget d t i) := by
  induction t with
  | nil => exact .inl rfl
  | cons x t ih =>
    obtain ⟨j, v⟩ := x
    by_cases hj : i = j
    · subst hj
      exact .inr (by simp [tmap, tget])
    · rw [show tget d (tmap ((j, v) :: t) f) i = tget d (tmap t f) i from if_neg hj, show tget d ((j, v) :: t) i = tget d t i from if_neg hj]
      exact ih

theorem queueNum_div {f q : Nat} (hq : q < 64) : (64 * f + q) / 64 = f := by omega

/-! ### The reset of one function -/

section Reset

variable (fn : Nat) (s : State)

theorem queue_resetFunction {f q : Nat} (hq : q < 64) :
    (resetFunction fn s).queue f q = if f = fn then {} else s.queue f q := by
  refine (tget_filter ({} : Queue) s.queues (fun i => decide (i / 64 ≠ fn)) (64 * f + q)).trans ?_
  rw [queueNum_div hq]
  by_cases hf : f = fn
  · rw [if_pos hf, if_neg (by simp [hf])]
  · rw [if_neg hf, if_pos (decide_eq_true hf)]
    rfl

theorem cq_resetFunction {f q : Nat} (hq : q < 64) : (resetFunction fn s).cq f q = if f = fn then {} else s.cq f q := by
  refine (tget_filter ({} : Cq) s.cqs (fun i => decide (i / 64 ≠ fn)) (64 * f + q)).trans ?_
  rw [queueNum_div hq]
  by_cases hf : f = fn
  · rw [if_pos hf, if_neg (by simp [hf])]
  · rw [if_neg hf, if_pos (decide_eq_true hf)]
    rfl

theorem fn_resetFunction_self : (resetFunction fn s).fn fn
    = { vfEnable := (s.fn fn).vfEnable, numVfs := (s.fn fn).numVfs, firstVf := (s.fn fn).firstVf, aer := (s.fn fn).aer } :=
  tget_tset_self ..

theorem fn_resetFunction_ne {f : Nat} (h : f ≠ fn) : (resetFunction fn s).fn f = s.fn f := tget_tset_ne _ _ _ h

theorem queues_cleared {q : Nat} (hq : q < 64) : (resetFunction fn s).queue fn q = {} ∧ (resetFunction fn s).cq fn q = {} :=
  ⟨(queue_resetFunction fn s hq).trans (if_pos rfl), (cq_resetFunction fn s hq).trans (if_pos rfl)⟩

end Reset

/-! ### The FLR of a function (R33) -/

section Flr

variable {fn : Nat} {s : State}

theorem flrStep_of_no_vd (event : Nat) (h : hasVd s fn = false) : flrStep fn event s = resetFunction fn s := by
  rw [flrStep, h]
  rfl

theorem doomStrands_of_no_strand (cid : Nat) (h : s.strands = []) : doomStrands cid s = s := by
  rw [doomStrands, h]
  rfl

theorem hasStrands_of_no_strand (cid : Nat) (h : s.strands = []) : hasStrands s cid = false := by
  rw [hasStrands, h]
  rfl

theorem meterEvent_of_no_meter (cid event : Nat) (h : s.wm.meters = []) : meterEvent cid event s = s := by
  rw [meterEvent, metersOf, h]
  rfl

/-- The VD of a function as it begins to go. -/
def closing (fn event : Nat) (s : State) : State :=
  dropPackets fn (s.setVd fn { s.vd fn with closing := true, flr := event * 2 })

theorem vd_closing (event : Nat) : (closing fn event s).vd fn = { s.vd fn with closing := true, flr := event * 2 } := tget_tset_self ..

/-- A VD of which no strand and no meter stands begins to go. -/
theorem flrStep_of_open {event : Nat} (hvd : hasVd s fn = true) (hopen : (s.vd fn).closing = false) (hst : s.strands = [])
    (hm : s.wm.meters = []) :
    flrStep fn event s =
      ((closing fn event s).setVd fn { s.vd fn with closing := true, flr := event * 2 + 1 }).push (.vfFlr fn) := by
  have hdoom : dropPackets fn (doomStrands fn (s.setVd fn { s.vd fn with closing := true, flr := event * 2 })) = closing fn event s :=
    congrArg (dropPackets fn) (doomStrands_of_no_strand (s := s.setVd fn { s.vd fn with closing := true, flr := event * 2 }) fn hst)
  unfold flrStep
  dsimp only
  rw [hvd, hopen, if_neg (show ¬ (!true) = true from nofun), if_neg Bool.false_ne_true, hdoom,
    hasStrands_of_no_strand fn (s := closing fn event s) hst, vd_closing, if_neg Bool.false_ne_true, if_pos (Nat.mul_mod_left ..),
    meterEvent_of_no_meter]
  exact hm

theorem queue_head_closing (event : Nat) {q : Nat} (hq : q < 64) : ((closing fn event s).queue fn q).head = none := by
  rcases tget_tmap ({} : Queue) s.queues (fun i x => if i / 64 = fn then x.noHead else x) (64 * fn + q) with h | h
  · exact congrArg Queue.head h
  · refine (congrArg Queue.head h).trans ?_
    rw [if_pos (queueNum_div hq)]
    rfl

theorem mem_runs_closing {event : Nat} {r : Run} (h : r ∈ (closing fn event s).runs) : r ∈ s.runs ∧ (r.fn = fn → r.pkt.type = 1) := by
  obtain ⟨hmem, hkeep⟩ := List.mem_filter.1 h
  refine ⟨hmem, fun hfn => ?_⟩
  rw [hfn] at hkeep
  simpa using hkeep

/-! The end of a VD. -/

theorem endRequest_eq (r : RemoteReq) (s : State) :
    endRequest r s = { s with klk := (endRequest r s).klk, timers := (endRequest r s).timers, nsTimers := (endRequest r s).nsTimers,
                              due := (endRequest r s).due, agenda := (endRequest r s).agenda } := by
  unfold endRequest
  dsimp only
  split <;> rfl

/-- What the end of the requests of a VD to peers leaves alone. -/
def Kept (s t : State) : Prop :=
  t.mem = s.mem ∧ t.wm = s.wm ∧ t.parts = s.parts ∧ t.vds = s.vds

theorem kept_endRequests (cid : Nat) (s : State) : Kept s (endRequests cid s) := by
  unfold endRequests
  generalize s.klk.reqs.filter _ = l
  suffices h : ∀ t, Kept s t → Kept s (l.foldl (fun s r => endRequest r s) t) from h s ⟨rfl, rfl, rfl, rfl⟩
  induction l with
  | nil => exact fun _ h => h
  | cons r l ih =>
    intro t h
    refine ih _ ?_
    change Kept s (endRequest r t)
    rw [endRequest_eq]
    exact h

theorem settleFrames_of_no_vd (h : s.vds = []) : settleFrames s = s := by
  rw [settleFrames, mappedFrames, h]
  exact ite_self s

/-- The last VD goes. -/
theorem removeVd_last {v : Vd} (h : s.vds = [(fn, v)]) :
    (removeVd fn s).mem = s.mem ∧ (removeVd fn s).wm.meters = s.wm.meters ∧ (removeVd fn s).parts = s.parts ∧ (removeVd fn s).vds = [] := by
  obtain ⟨hmem, hwm, hparts, hvds⟩ := kept_endRequests fn s
  have hmeters : (endRequests fn s).wm.meters = s.wm.meters := by rw [hwm]
  have hnone : tdel (tlbDrop fn (endRequests fn s)).vds fn = [] := by
    rw [show (tlbDrop fn (endRequests fn s)).vds = [(fn, v)] from hvds.trans h]
    simp [tdel]
  unfold removeVd noteTables
  dsimp only
  rw [settleFrames_of_no_vd]
  · exact ⟨hmem, hmeters, hparts, hnone⟩
  · exact hnone

theorem flrStep_of_last {v : Vd} (event : Nat) (h : s.vds = [(fn, v)]) (hclosing : v.closing = true) (hodd : v.flr % 2 = 1)
    (hst : hasStrands s fn = false) :
    flrStep fn event s =
      let t := resetFunction fn (removeVd fn s)
      if t.vdcmd.busy ∧ t.vdcmd.fn = fn then { t with vdcmd := { t.vdcmd with busy := false, st := 1 } } else t := by
  have hvd : hasVd s fn = true := by rw [hasVd, h]; simp [tfind]
  have hv : s.vd fn = v := by rw [State.vd, h]; simp [tget]
  unfold flrStep
  dsimp only
  rw [hvd, if_neg (show ¬ (!true) = true from nofun), hv, hclosing, if_pos rfl, hst, if_neg Bool.false_ne_true, hv, hodd,
    if_neg (show ¬ 1 = 0 from nofun)]

end Flr

/-- An FLR of a PF takes its VFs away. -/
theorem fn_clearVfs (pf : Nat) (s : State) : ((clearVfs pf s).fn pf).vfEnable = false ∧ ((clearVfs pf s).fn pf).numVfs = 0 := by
  rw [clearVfs, vfEnable_packVfs, numVfs_packVfs, fn_setFn_self]
  exact ⟨rfl, rfl⟩

/-- What a hot reset clears, whatever the resets of the functions have left. -/
theorem hotReset_eq (s : State) : ∃ u, exec .hotReset s = .next (hotClear u) ∨ exec .hotReset s = .next ((hotClear u).push .firmwareBoot) := by
  refine ⟨(List.range 32).foldl (fun s i => pfEnd (i + 1) 4 s) (mfReset s), ?_⟩
  rw [exec_hotReset, execHotReset, hotReset]
  split
  · exact .inr rfl
  · exact .inl rfl

/-- Settles O43: each reset is that of one function, `resetFunction`, behind the end of its VD (`flrStep`). -/
theorem functionResets : Obligations.FunctionResets := by
  unfold Obligations.FunctionResets
  intro s
  refine ⟨⟨_, rfl, rfl, fun q hq => queues_cleared 0 s hq, ?mask, ?pba, fun f hf => fn_resetFunction_ne 0 s hf, fun f q hf hq => ?others⟩,
    fun fn hvd => ?alone, fun fn hvd hopen hst hm => ?opened, fun fn v hv hclosing hodd hst => ?last, fun pf h1 h32 => ?pf, ?hot⟩
  case mask => exact (congrArg Fn.msixMask (fn_resetFunction_self 0 s)).trans rfl
  case pba => exact congrArg Fn.pba (fn_resetFunction_self 0 s)
  case others => exact ⟨(queue_resetFunction 0 s hq).trans (if_neg hf), (cq_resetFunction 0 s hq).trans (if_neg hf)⟩
  case alone =>
    refine ⟨_, congrArg Host.Outcome.next (flrStep_of_no_vd 4 hvd), fun q hq => queues_cleared fn s hq, ?_, ?_,
      fun f hf => fn_resetFunction_ne fn s hf⟩ <;> rw [fn_resetFunction_self]
  case opened =>
    refine ⟨_, congrArg Host.Outcome.next (flrStep_of_open hvd hopen hst hm), ?_, rfl, rfl, rfl, rfl, fun r => mem_runs_closing,
      fun q hq => queue_head_closing 4 hq⟩
    exact tget_tset_self ..
  case last =>
    obtain ⟨hmem, hmeters, hparts, hvds⟩ := removeVd_last hv
    have hnone : hasVd (resetFunction fn (removeVd fn s)) fn = false := by
      rw [hasVd, show (resetFunction fn (removeVd fn s)).vds = [] from hvds]
      rfl
    refine ⟨_, congrArg Host.Outcome.next (flrStep_of_last 4 hv hclosing hodd hst), ?_⟩
    dsimp only
    split <;> exact ⟨hnone, fun q hq => queues_cleared fn (removeVd fn s) hq, hmem, hmeters, hparts⟩
  case pf => exact ⟨_, congrArg Host.Outcome.next (if_neg (by omega)), fn_clearVfs pf _⟩
  case hot =>
    obtain ⟨u, h | h⟩ := hotReset_eq s <;> exact ⟨_, h, rfl, rfl, rfl, rfl, rfl, rfl, rfl, rfl⟩

end Sys2Proof.Laws.Functions
end

section
/-! PROOF. What the posting of an entry to a completion queue can change (R73-R76, R211): completion queues and what tells of
them, the memory that holds them, and page requests. -/

namespace Sys2Proof.Laws.Posting

open Machine

/-- What a post can change. -/
structure PostFields where
  agenda : List Instr
  due : List Instr
  timers : List (Nat × Instr)
  nsTimers : List (Nat × Instr)
  est : Estimator
  link : Link
  fns : Tab Fn
  vds : Tab Vd
  cqs : Tab Cq
  posts : List CqPost
  mem : Cells 8
  memPoison : List Nat
  dirty : List Nat
  host : Cells 8
  hostPoison : List Nat
  enOper : Nat
  out : List Out

/-- A state with what a post can change replaced. -/
def withPost (s : State) (f : PostFields) : State :=
  { s with
    agenda := f.agenda, due := f.due, timers := f.timers, nsTimers := f.nsTimers, est := f.est, link := f.link, fns := f.fns
    vds := f.vds, cqs := f.cqs, posts := f.posts, mem := f.mem, memPoison := f.memPoison, dirty := f.dirty, host := f.host
    hostPoison := f.hostPoison, enOper := f.enOper, out := f.out }

/-- What a state has of it. -/
def postFields (s : State) : PostFields :=
  { agenda := s.agenda, due := s.due, timers := s.timers, nsTimers := s.nsTimers, est := s.est, link := s.link, fns := s.fns
    vds := s.vds, cqs := s.cqs, posts := s.posts, mem := s.mem, memPoison := s.memPoison, dirty := s.dirty, host := s.host
    hostPoison := s.hostPoison, enOper := s.enOper, out := s.out }

/-- Two states that differ at most in what a post can change. -/
def Posted (s t : State) : Prop := t = withPost s (postFields t)

variable {s t u : State}

theorem Posted.refl (s : State) : Posted s s := rfl

theorem Posted.of_eq {f : PostFields} (h : t = withPost s f) : Posted s t := by
  subst h
  rfl

theorem Posted.trans (h : Posted s t) (h' : Posted t u) : Posted s u := by
  rw [Posted, h] at h'
  exact .of_eq h'

theorem Posted.foldl {α : Type} {f : State → α → State} (hf : ∀ s a, Posted s (f s a)) (l : List α) (s : State) :
    Posted s (l.foldl f s) := by
  induction l generalizing s with
  | nil => exact .refl s
  | cons a l ih => exact (hf s a).trans (ih _)

/-! ### The steps of a post -/

theorem posted_setCq (s : State) (fn n : Nat) (c : Cq) : Posted s (s.setCq fn n c) := rfl
theorem posted_chargeOper (s : State) (pj : Nat) : Posted s (chargeOper s pj) := rfl
theorem posted_cancel (s : State) (i : Instr) : Posted s (s.cancel i) := rfl
theorem posted_afterNs (s : State) (d : Nat) (i : Instr) : Posted s (s.afterNs d i) := rfl
theorem posted_hostTlp (s : State) (fn : Nat) (wr : Bool) (a n : Nat) (ido : Bool) : Posted s (hostTlp fn wr a n ido s) := rfl

theorem posted_msix (s : State) (fn vec : Nat) : Posted s (msix fn vec s) := by
  unfold msix
  generalize (if 33 ≤ fn then vec % 16 else vec) = v
  dsimp only
  split <;> rfl

theorem posted_pwrite (s : State) (pa : Nat) (b : List Byte) (poison : List Nat) (dt : Bool) : Posted s (pwrite s pa b poison dt) := by
  unfold pwrite
  dsimp only
  split <;> rfl

theorem posted_writeParts (poison : List Nat) (l : List (Nat × Nat × Bool)) (s : State) (i : Nat) (bs : List Byte) :
    Posted s (writeParts s poison i l bs) := by
  induction l generalizing s i bs with
  | nil => exact .refl s
  | cons p l ih => exact (posted_pwrite ..).trans (ih ..)

theorem posted_vwrite {cid va : Nat} {b : List Byte} {poison : List Nat} (h : vwrite s cid va b poison = .ok t) : Posted s t := by
  unfold vwrite vwriteBy at h
  split at h
  · cases h
  · cases h
    exact posted_writeParts ..

theorem posted_hwrite (s : State) (fn a : Nat) (b : List Byte) (poison : List Nat) : Posted s (hwrite s fn a b poison) := by
  unfold hwrite
  exact (Posted.foldl (fun s _ => posted_hostTlp s ..) _ s).trans rfl

theorem posted_hubPut {cid a : Nat} {b : List Byte} (h : hubPut s cid a b = .ok t) : Posted s t := by
  unfold hubPut at h
  split at h
  · cases h
  next ht =>
    cases h
    exact (posted_vwrite ht).trans (posted_chargeOper ..)

theorem posted_fnWrite {fn a : Nat} {host : Bool} {b : List Byte} (h : fnWrite s fn host a b = .ok t) : Posted s t := by
  unfold fnWrite at h
  split at h
  · cases h
    exact (posted_hwrite ..).trans (posted_chargeOper ..)
  · split at h
    · split at h
      · cases h
        exact (posted_pwrite ..).trans (posted_chargeOper ..)
      · cases h
    · exact posted_hubPut h

theorem posted_pageRequest (s : State) (cid page : Nat) (write : Bool) : Posted s (pageRequest cid page write s) := by
  unfold pageRequest
  dsimp only
  split
  · split <;> rfl
  · split <;> rfl

theorem posted_cqDropped (s : State) (fn n : Nat) (ovf : Bool) : Posted s (cqDropped fn n ovf s) := rfl

theorem posted_cqCoalesce (s : State) (fn n : Nat) : Posted s (cqCoalesce fn n s) := by
  unfold cqCoalesce
  dsimp only
  split
  · exact ((posted_setCq ..).trans (posted_msix ..)).trans (posted_cancel ..)
  · split <;> rfl

theorem posted_cqWrite (s : State) (fn n : Nat) (w0 w1 : W64) : Posted s (cqWrite fn n w0 w1 s) := by
  unfold cqWrite
  dsimp only
  split
  · exact posted_setCq ..
  · split
    · exact posted_cqDropped ..
    · split
      next h => exact ((posted_fnWrite h).trans (posted_setCq ..)).trans (posted_cqCoalesce ..)
      · exact posted_cqDropped ..
      · exact (posted_setCq ..).trans (posted_pageRequest ..)

theorem posted_cqPostNow (e : CqPost) (s : State) : Posted s (cqPostNow e s) := by
  unfold cqPostNow
  dsimp only
  split
  · exact (posted_cqWrite ..).trans (posted_cqWrite ..)
  · exact posted_cqWrite ..

theorem posted_cqSend (e : CqPost) (s : State) : Posted s (cqSend e s) := by
  unfold cqSend
  split
  · exact posted_cqPostNow ..
  · rfl

theorem posted_cqPost (fn n : Nat) (w0 w1 : W64) (s : State) : Posted s (cqPost fn n w0 w1 s) := posted_cqSend ..

theorem posted_ecqPost (fn q kind status : Nat) (tag : W32) (data : W64) (s : State) :
    Posted s (ecqPost fn q kind status tag data s) := posted_cqPost ..

/-! ### What a post leaves alone -/

theorem Posted.queues (h : Posted s t) : t.queues = s.queues := by rw [h]; rfl
theorem Posted.queue (h : Posted s t) (fn q : Nat) : t.queue fn q = s.queue fn q := by rw [State.queue, h.queues]; rfl
theorem Posted.runs (h : Posted s t) : t.runs = s.runs := by rw [h]; rfl
theorem Posted.cycle (h : Posted s t) : t.cycle = s.cycle := by rw [h]; rfl
theorem Posted.strands (h : Posted s t) : t.strands = s.strands := by rw [h]; rfl
theorem Posted.cores (h : Posted s t) : t.cores = s.cores := by rw [h]; rfl
theorem Posted.phase (h : Posted s t) : t.phase = s.phase := by rw [h]; rfl
theorem Posted.klk (h : Posted s t) : t.klk = s.klk := by rw [h]; rfl
theorem Posted.plc (h : Posted s t) : t.plc = s.plc := by rw [h]; rfl
theorem Posted.wm (h : Posted s t) : t.wm = s.wm := by rw [h]; rfl
theorem Posted.xfers (h : Posted s t) : t.xfers = s.xfers := by rw [h]; rfl

end Sys2Proof.Laws.Posting
end

section
/-! PROOF. Accesses that perform in two parts (R226): the words of a range lie side by side, each is in one of the parts, and together
they are the whole access. -/

namespace Sys2Proof.Laws.Parts

open Machine

/-! ### Memories in canonical form -/

theorem cget_of_cwfFrom {w lo a : Nat} {m : Cells w} (h : cwfFrom lo m = true) (ha : a < lo) : cget m a = 0 := by
  induction m generalizing lo with
  | nil => rfl
  | cons x m ih =>
    simp only [cwfFrom, Bool.and_eq_true, decide_eq_true_eq] at h
    rw [cget, if_neg (by omega)]
    exact ih h.2 (by omega)

theorem cwf_ext {w : Nat} {m m' : Cells w} (h : cwf m = true) (h' : cwf m' = true) (heq : ∀ a, cget m a = cget m' a) : m = m' := by
  suffices H : ∀ (lo : Nat) (m m' : Cells w), cwfFrom lo m = true → cwfFrom lo m' = true → (∀ a, cget m a = cget m' a) → m = m' from
    H 0 m m' h h' heq
  clear h h' heq m m'
  intro lo m
  induction m generalizing lo with
  | nil =>
    intro m' _ h' heq
    cases m' with
    | nil => rfl
    | cons y m' =>
      obtain ⟨-, hy, hne⟩ := cget_ne_zero_of_mem h' (List.mem_cons_self ..)
      exact absurd ((heq y.1).trans hy) (Ne.symm hne)
  | cons x m ih =>
    intro m' h h' heq
    cases m' with
    | nil =>
      obtain ⟨-, hx, hne⟩ := cget_ne_zero_of_mem h (List.mem_cons_self ..)
      exact absurd (hx.symm.trans (heq x.1)) hne
    | cons y m' =>
      obtain ⟨a, v⟩ := x
      obtain ⟨b, u⟩ := y
      simp only [cwfFrom, Bool.and_eq_true, decide_eq_true_eq] at h h'
      obtain ⟨⟨-, hv⟩, hm⟩ := h
      obtain ⟨⟨-, hu⟩, hm'⟩ := h'
      have hab : a = b := by
        rcases Nat.lt_trichotomy a b with hlt | hab | hlt
        · refine absurd ((heq a).symm.trans (if_pos rfl)) ?_
          rw [cget, if_neg (by omega), cget_of_cwfFrom hm' (by omega)]
          exact Ne.symm hv
        · exact hab
        · refine absurd ((heq b).trans (if_pos rfl)) ?_
          rw [cget, if_neg (by omega), cget_of_cwfFrom hm (by omega)]
          exact Ne.symm hu
      subst hab
      have huv : v = u := by simpa [cget] using heq a
      rw [huv, ih (a + 1) m' hm hm' fun k => ?_]
      by_cases hk : k = a
      · rw [hk, cget_of_cwfFrom hm (by omega), cget_of_cwfFrom hm' (by omega)]
      · simpa [cget, hk] using heq k

/-! ### Ranges side by side -/

/-- Pieces that lie side by side from `a` to `b`. -/
def Tiles : Nat → Nat → List (Nat × Nat) → Prop
  | a, b, [] => a = b
  | a, b, (x, n) :: l => x = a ∧ Tiles (a + n) b l

theorem Tiles.append {a b c : Nat} {l l' : List (Nat × Nat)} (h : Tiles a b l) (h' : Tiles b c l') : Tiles a c (l ++ l') := by
  induction l generalizing a with
  | nil =>
    cases h
    exact h'
  | cons x l ih => exact ⟨h.1, ih h.2⟩

/-- Their lengths add up. -/
theorem Tiles.sum {a b : Nat} {l : List (Nat × Nat)} (h : Tiles a b l) : a + (l.map (·.2)).sum = b := by
  induction l generalizing a with
  | nil => exact h
  | cons x l ih =>
    rw [List.map_cons, List.sum_cons, ← Nat.add_assoc]
    exact ih h.2

/-- Each piece cut into pieces that lie side by side. -/
theorem Tiles.flatMap {a b : Nat} {l : List (Nat × Nat)} {cut : Nat → Nat → List (Nat × Nat)} (h : Tiles a b l)
    (hcut : ∀ x n, Tiles x (x + n) (cut x n)) : Tiles a b (l.flatMap fun p => cut p.1 p.2) := by
  induction l generalizing a with
  | nil => exact h
  | cons x l ih =>
    obtain ⟨hx, hl⟩ := h
    rw [List.flatMap_cons]
    refine Tiles.append ?_ (ih hl)
    rw [← hx]
    exact hcut ..

/-- Pieces of which each begins where the one before it ends. -/
theorem tiles_map {lo hi : Nat → Nat} (m j : Nat) (hle : ∀ i, j ≤ i → i < j + m → lo i ≤ hi i)
    (hnext : ∀ i, j ≤ i → i < j + m → hi i = lo (i + 1)) :
    Tiles (lo j) (lo (j + m)) ((List.range' j m).map fun i => (lo i, hi i - lo i)) := by
  induction m generalizing j with
  | zero => rfl
  | succ m ih =>
    rw [List.range'_succ, List.map_cons]
    refine ⟨rfl, ?_⟩
    rw [show lo j + (hi j - lo j) = lo (j + 1) by rw [← hnext j (by omega) (by omega), Nat.add_sub_cancel' (hle j (by omega) (by omega))],
      show j + (m + 1) = j + 1 + m by omega]
    exact ih (j + 1) (fun i h1 h2 => hle i (by omega) (by omega)) fun i h1 h2 => hnext i (by omega) (by omega)

/-- The aligned blocks of `n` bytes from `va` on. -/
def blocks (size va n : Nat) : List (Nat × Nat) :=
  if n = 0 then []
  else (List.range ((va + n - 1) / size + 1 - va / size)).map fun i =>
    (max va ((va / size + i) * size), min (va + n) ((va / size + i + 1) * size) - max va ((va / size + i) * size))

theorem lineParts_eq (va n : Nat) : lineParts va n = blocks 64 va n := rfl

theorem wordParts_eq (va n : Nat) : wordParts va n = blocks 8 va n := rfl

theorem tiles_blocks {size : Nat} (hs : 0 < size) (va n : Nat) : Tiles va (va + n) (blocks size va n) := by
  unfold blocks
  split
  next h0 =>
    subst h0
    rfl
  next h0 =>
    have hq : va / size ≤ (va + n - 1) / size := Nat.div_le_div_right (by omega)
    have hlast := Nat.div_add_mod (va + n - 1) size
    have hmod := Nat.mod_lt (va + n - 1) hs
    have hfirst := Nat.div_mul_le_self va size
    have hnext : va < (va / size + 1) * size := by
      rw [Nat.mul_comm]
      exact Nat.lt_mul_div_succ va hs
    let lo (i : Nat) : Nat := min (va + n) (max va ((va / size + i) * size))
    let m := (va + n - 1) / size + 1 - va / size
    have hmul : ∀ i, i < m → (va / size + i) * size ≤ va + n - 1 := fun i hi =>
      (Nat.mul_le_mul_right size (show va / size + i ≤ (va + n - 1) / size by omega)).trans (Nat.div_mul_le_self _ _)
    have hup : ∀ i, va < (va / size + i + 1) * size := fun i =>
      hnext.trans_le (Nat.mul_le_mul_right size (by omega))
    have hlo0 : lo 0 = va := by
      simp only [lo, Nat.add_zero]
      omega
    have hlom : lo m = va + n := by
      have : va / size + m = (va + n - 1) / size + 1 := by omega
      change min (va + n) (max va ((va / size + m) * size)) = va + n
      rw [this, Nat.add_mul, Nat.one_mul, Nat.mul_comm]
      omega
    have htiles := tiles_map (lo := lo) (hi := fun i => min (va + n) ((va / size + i + 1) * size)) m 0
      (fun i _ hi => by have := hmul i (by omega); have := hup i; simp only [lo, Nat.add_mul] at *; omega)
      (fun i _ hi => by have := hup i; simp only [lo, ← Nat.add_assoc]; omega)
    rw [hlo0, Nat.zero_add, hlom, ← List.range_eq_range'] at htiles
    have hmap : (List.range m).map (fun i => (max va ((va / size + i) * size),
          min (va + n) ((va / size + i + 1) * size) - max va ((va / size + i) * size)))
        = (List.range m).map fun i => (lo i, min (va + n) ((va / size + i + 1) * size) - lo i) := by
      refine List.map_congr_left fun i hi => ?_
      have := hmul i (List.mem_range.1 hi)
      rw [show lo i = max va ((va / size + i) * size) by simp only [lo]; omega]
    exact hmap ▸ htiles

/-! ### Reading -/

theorem length_cgets {w : Nat} (m : Cells w) (a n : Nat) : (cgets m a n).length = n := by
  induction n generalizing a with
  | zero => rfl
  | succ n ih => rw [cgets, List.length_cons, ih]

/-- The place and length of a translated piece. -/
def piece (x : Nat × Nat × Bool) : Nat × Nat := (x.1, x.2.1)

theorem words_map_piece (lines : List (Nat × Nat × Bool)) :
    (wordsOf lines).map piece = (lines.map piece).flatMap fun p => wordParts p.1 p.2 := by
  rw [wordsOf, List.map_flatMap, List.flatMap_map]
  congr 1
  funext x
  rw [List.map_map]
  exact List.map_id _

theorem sum_words (lines : List (Nat × Nat × Bool)) :
    ((wordsOf lines).map fun x => x.2.1).sum = (lines.map fun x => x.2.1).sum := by
  have hword : ∀ p : Nat × Nat, ((wordParts p.1 p.2).map (·.2)).sum = p.2 := fun p => by
    have := (tiles_blocks (by decide : 0 < 8) p.1 p.2).sum
    rw [wordParts_eq]
    omega
  induction lines with
  | nil => rfl
  | cons x lines ih =>
    obtain ⟨a, n, d⟩ := x
    have hcons : wordsOf ((a, n, d) :: lines) = (wordParts a n).map (fun p => (p.1, p.2, d)) ++ wordsOf lines := rfl
    have hhead := hword (a, n)
    rw [hcons, List.map_append, List.sum_append, ih, List.map_map, List.map_cons, List.sum_cons]
    exact congrArg (· + _) hhead

theorem length_readParts (s : State) (lines : List (Nat × Nat × Bool)) :
    (readParts s lines).1.length = (lines.map fun x => x.2.1).sum := by
  induction lines with
  | nil => rfl
  | cons x lines ih =>
    have hcons : (readParts s (x :: lines)).1 = pread s x.1 x.2.1 ++ (readParts s lines).1 := rfl
    rw [hcons, List.length_append, ih, pread, length_cgets, List.map_cons, List.sum_cons]

/-- Words that are the same in both readings are so in any mixture. -/
theorem mixWords_self (sel : Nat → Bool) (i : Nat) (l : List (Nat × Nat × Bool)) (b : List Byte) :
    mixWords sel i l b b = b.take (l.map fun x => x.2.1).sum := by
  induction l generalizing i b with
  | nil => rfl
  | cons x l ih =>
    obtain ⟨a, n, d⟩ := x
    rw [mixWords, ih, ite_self, List.map_cons, List.sum_cons, List.take_add]

/-- A read whose memory nothing writes between its parts. -/
theorem getRest_getFirst (lines : List (Nat × Nat × Bool)) (s : State) :
    (getRest (getFirst lines s).2 (getFirst lines s).1).1 = (readParts s lines).1 := by
  have hsame : (getRest (getFirst lines s).2 (getFirst lines s).1).1
      = mixWords (firstPart s.free) 0 (wordsOf lines) (readParts s lines).1 (readParts s lines).1 := rfl
  rw [hsame, mixWords_self, sum_words, ← length_readParts s lines, List.take_length]

/-! ### Writing -/

theorem cget_csets {w : Nat} (m : Cells w) (a : Nat) (b : List (BitVec w)) (k : Nat) :
    cget (csets m a b) k = if a ≤ k ∧ k < a + b.length then b.getD (k - a) 0 else cget m k := by
  induction b generalizing m a with
  | nil => rw [csets, if_neg (by simp)]
  | cons v b ih =>
    rw [csets, ih, cget_cset]
    by_cases hk : k = a
    · subst hk
      rw [if_neg (by omega), if_pos rfl, if_pos (by simp), Nat.sub_self]
      rfl
    · rw [if_neg hk, List.length_cons]
      by_cases hin : a + 1 ≤ k ∧ k < a + 1 + b.length
      · rw [if_pos hin, if_pos (by omega), show k - a = (k - (a + 1)) + 1 by omega, List.getD_cons_succ]
      · rw [if_neg hin, if_neg (by omega)]

theorem mem_pwrite (s : State) (pa : Nat) (b : List Byte) (poison : List Nat) (dt : Bool) :
    (pwrite s pa b poison dt).mem = csets s.mem pa b := by
  unfold pwrite
  dsimp only
  split
  next h0 => rw [List.length_eq_zero_iff.1 h0, csets]
  next => rfl

theorem mem_writeWords_cons (sel : Nat → Bool) (i a n : Nat) (d : Bool) (l : List (Nat × Nat × Bool)) (b : List Byte) (s : State) :
    ∃ u : State, u.mem = (if sel i then csets s.mem a (b.take n) else s.mem)
      ∧ writeWords sel i ((a, n, d) :: l) b s = writeWords sel (i + 1) l (b.drop n) u := by
  refine ⟨_, ?_, rfl⟩
  split
  · exact mem_pwrite ..
  · rfl

theorem cwf_writeWords (sel : Nat → Bool) (i : Nat) (l : List (Nat × Nat × Bool)) (b : List Byte) {s : State}
    (h : cwf s.mem = true) : cwf (writeWords sel i l b s).mem = true := by
  induction l generalizing i b s with
  | nil => exact h
  | cons x l ih =>
    obtain ⟨u, hu, hw⟩ := mem_writeWords_cons sel i x.1 x.2.1 x.2.2 l b s
    rw [hw]
    refine ih _ _ ?_
    rw [hu]
    split
    · exact cwf_csets _ _ h
    · exact h

/-- A part of a write keeps what is outside its range. -/
theorem cget_writeWords_outside {sel : Nat → Bool} {i a e : Nat} {l : List (Nat × Nat × Bool)} {b : List Byte} {s : State}
    (h : Tiles a e (l.map piece)) {k : Nat} (hk : k < a ∨ e ≤ k) : cget (writeWords sel i l b s).mem k = cget s.mem k := by
  induction l generalizing i a b s with
  | nil => rfl
  | cons x l ih =>
    obtain ⟨x, n, d⟩ := x
    obtain ⟨rfl, hl⟩ := h
    obtain ⟨u, hu, hw⟩ := mem_writeWords_cons sel i x n d l b s
    have hsum := hl.sum
    change x + n + _ = e at hsum
    rw [hw, ih hl (by change k < x + n ∨ e ≤ k; omega), hu]
    split
    · rw [cget_csets, if_neg]
      rintro ⟨h1, h2⟩
      have := List.length_take_le n b
      omega
    · rfl

/-- Of two parts that share out the words of a range, one writes a byte of it and the other leaves it alone. -/
theorem cget_writeWords_inside {sel : Nat → Bool} {i a e : Nat} {l : List (Nat × Nat × Bool)} {b : List Byte}
    (h : Tiles a e (l.map piece)) (hb : a + b.length = e) {k : Nat} (hk : a ≤ k ∧ k < e) :
    ((∀ s : State, cget (writeWords sel i l b s).mem k = b.getD (k - a) 0)
        ∧ ∀ s : State, cget (writeWords (fun i => !sel i) i l b s).mem k = cget s.mem k)
      ∨ (∀ s : State, cget (writeWords sel i l b s).mem k = cget s.mem k)
        ∧ ∀ s : State, cget (writeWords (fun i => !sel i) i l b s).mem k = b.getD (k - a) 0 := by
  induction l generalizing i a b with
  | nil =>
    have : a = e := h
    omega
  | cons x l ih =>
    obtain ⟨x, n, d⟩ := x
    obtain ⟨hx, hl⟩ := h
    change x = a at hx
    subst hx
    change Tiles (x + n) e _ at hl
    have hsum := hl.sum
    by_cases hin : k < x + n
    · have hwrites : ∀ (f : Nat → Bool), f i = true → ∀ s : State, cget (writeWords f i ((x, n, d) :: l) b s).mem k = b.getD (k - x) 0 := by
        intro f hf s
        obtain ⟨u, hu, hw⟩ := mem_writeWords_cons f i x n d l b s
        rw [hw, cget_writeWords_outside hl (.inl hin), hu, if_pos hf, cget_csets, List.length_take, if_pos (by omega)]
        rw [List.getD_eq_getElem?_getD, List.getD_eq_getElem?_getD, List.getElem?_take_of_lt (by omega)]
      have hkeeps : ∀ (f : Nat → Bool), f i = false → ∀ s : State, cget (writeWords f i ((x, n, d) :: l) b s).mem k = cget s.mem k := by
        intro f hf s
        obtain ⟨u, hu, hw⟩ := mem_writeWords_cons f i x n d l b s
        rw [hw, cget_writeWords_outside hl (.inl hin), hu, if_neg (by simp [hf])]
      cases hsel : sel i with
      | true => exact .inl ⟨hwrites sel hsel, hkeeps _ (by simp [hsel])⟩
      | false => exact .inr ⟨hkeeps sel hsel, hwrites _ (by simp [hsel])⟩
    · have hstep : ∀ (f : Nat → Bool) (s : State), ∃ u : State, cget u.mem k = cget s.mem k
          ∧ writeWords f i ((x, n, d) :: l) b s = writeWords f (i + 1) l (b.drop n) u := by
        intro f s
        obtain ⟨u, hu, hw⟩ := mem_writeWords_cons f i x n d l b s
        refine ⟨u, ?_, hw⟩
        rw [hu]
        split
        · rw [cget_csets, List.length_take, if_neg (by omega)]
        · rfl
      have hget : (b.drop n).getD (k - (x + n)) 0 = b.getD (k - x) 0 := by
        rw [List.getD_eq_getElem?_getD, List.getD_eq_getElem?_getD, List.getElem?_drop, show n + (k - (x + n)) = k - x by omega]
      rcases ih (i := i + 1) hl (b := b.drop n) (by rw [List.length_drop]; omega) ⟨by omega, hk.2⟩ with ⟨h1, h2⟩ | ⟨h1, h2⟩
      · refine .inl ⟨fun s => ?_, fun s => ?_⟩
        · obtain ⟨u, hu, hw⟩ := hstep sel s
          rw [hw, h1, hget]
        · obtain ⟨u, hu, hw⟩ := hstep (fun i => !sel i) s
          rw [hw, h2, hu]
      · refine .inr ⟨fun s => ?_, fun s => ?_⟩
        · obtain ⟨u, hu, hw⟩ := hstep sel s
          rw [hw, h1, hu]
        · obtain ⟨u, hu, hw⟩ := hstep (fun i => !sel i) s
          rw [hw, h2, hget]

theorem mem_poisonParts (s : State) (poison : List Nat) (i : Nat) (l : List (Nat × Nat × Bool)) :
    (poisonParts s poison i l).mem = s.mem := by
  induction l generalizing s i with
  | nil => rfl
  | cons x l ih => exact ih ..

theorem tiles_paLines (pa n : Nat) : Tiles pa (pa + n) ((wordsOf (paLines pa n)).map piece) := by
  have hpieces : (paLines pa n).map piece = lineParts pa n := by
    rw [paLines, List.map_map]
    exact List.map_id _
  rw [words_map_piece, hpieces]
  exact (tiles_blocks (by decide : 0 < 64) pa n).flatMap fun x n => tiles_blocks (by decide : 0 < 8) x n

/-- A write of which nothing comes between the parts leaves the memory as one that is made whole. -/
theorem mem_putRest_putFirst (pa : Nat) (b : List Byte) (poison : List Nat) {s : State} (hwf : s.memWf = true) :
    (putRest (newTorn (paLines pa b.length) s) b poison (putFirst (paLines pa b.length) b poison s)).mem = csets s.mem pa b := by
  have hmem : cwf s.mem = true := by
    simp only [State.memWf, Bool.and_eq_true] at hwf
    exact hwf.1.1
  have htiles := tiles_paLines pa b.length
  rw [putRest, mem_poisonParts]
  refine cwf_ext (cwf_writeWords _ _ _ _ (cwf_writeWords _ _ _ _ hmem)) (cwf_csets _ _ hmem) fun k => ?_
  rw [cget_csets]
  by_cases hk : pa ≤ k ∧ k < pa + b.length
  · rw [if_pos hk]
    rcases cget_writeWords_inside (sel := firstPart s.free) (i := 0) htiles rfl hk with ⟨h1, h2⟩ | ⟨h1, h2⟩
    · exact (h2 _).trans (h1 _)
    · exact h2 _
  · rw [if_neg hk]
    exact (cget_writeWords_outside htiles (by omega)).trans (cget_writeWords_outside htiles (by omega))

/-! ### What the parts leave alone -/

theorem posted_writeWords (sel : Nat → Bool) (i : Nat) (l : List (Nat × Nat × Bool)) (b : List Byte) (s : State) :
    Posting.Posted s (writeWords sel i l b s) := by
  induction l generalizing i b s with
  | nil => exact .refl s
  | cons x l ih =>
    refine Posting.Posted.trans ?_ (ih ..)
    split
    · exact (Posting.posted_pwrite ..).trans rfl
    · exact .refl s

theorem cycle_putFirst (lines : List (Nat × Nat × Bool)) (b : List Byte) (poison : List Nat) (s : State) :
    (putFirst lines b poison s).cycle = s.cycle := (posted_writeWords _ 0 (wordsOf lines) b s).cycle

end Sys2Proof.Laws.Parts
end

section
/-! PROOF. Accesses of the host through the BARs: memory, registers, and what fails (R3, R8, R19-R22, R25-R37, R50, R226). -/

namespace Sys2Proof.Laws.HostAccess

open Machine
open Functions (fn_setFn fn_setFn_self fn_setFn_ne aer_logAer fn_logAer_ne tdiChange_of_unlocked)
open Posting (Posted)

variable {s : State}

/-! ### Requests that are not examined (R21, R37) -/

theorem hostRequest_long {fn : Nat} (f : State → State) : hostRequest fn none true f s = logAer fn .malformedTlp s := rfl

theorem insecure_ideFail (st : Nat) (s : State) : st ∈ (ideFail st s).link.insecure :=
  Issuing.mem_sins.2 (.inl rfl)

theorem aer_ideFail (st : Nat) (s : State) : ((ideFail st s).fn 0).aer = (s.fn 0).aer ++ [.ideCheckFailed] :=
  aer_logAer { s with link := { s.link with insecure := sins st s.link.insecure } } 0 _

/-- The state in which no access of the host stands half done. -/
theorem tornHost_none (h : s.tornHost = none) : { s with tornHost := none } = s := by rw [← h]

theorem read_short {len : Nat} (h : len ≤ 4096) : decide (maxReadRequest < len) = false := decide_eq_false (Nat.not_lt.2 h)

theorem payload_short {n : Nat} (h : n ≤ 512) : decide (maxPayload < n) = false := decide_eq_false (Nat.not_lt.2 h)

/-! ### BAR2 of a function (R30, R31, R226) -/

theorem hostAgain_of_cycle {u : State} {c : Nat} (h : u.cycle = c) (i : Instr) (x : Torn) :
    hostAgain i x u = { u with tornHost := some x, inputs := (c + 1, i) :: u.inputs } := by
  subst h
  rfl

section Read

variable {fn off len : Nat} {ep : Bool}

theorem exec_hostBar2Read_eq (hlen : len ≤ 4096) :
    exec (.hostBar2Read fn ⟨off, none, ep⟩ len) s = .next (barTwoRead fn ⟨off, none, ep⟩ len s) := by
  rw [exec_hostBar2Read, execHostBar2Read, read_short hlen]
  rfl

theorem barTwoRead_abort (hg : gate s fn = .ok) (ht : s.tornHost = none)
    (h : hasVd s fn = false ∨ sealedRange s fn (aperVa s fn off) len = true
      ∨ ∃ e, vreadFirst (barXlate s fn false) s (aperVa s fn off) len = .error e) :
    barTwoRead fn ⟨off, none, ep⟩ len s = abortAt fn s := by
  unfold barTwoRead
  simp only [tornHost_none ht, hg, ht]
  by_cases hopen : (!hasVd s fn) = true ∨ sealedRange s fn (aperVa s fn off) len = true
  · rw [if_pos hopen]
  · rw [if_neg hopen]
    rcases h with h | h | ⟨e, h⟩
    · exact absurd (.inl (by rw [h]; rfl)) hopen
    · exact absurd (.inr h) hopen
    · rw [h]

theorem barTwoRead_first {u : State} {x : Torn} (hg : gate s fn = .ok) (hvd : hasVd s fn = true)
    (hsealed : sealedRange s fn (aperVa s fn off) len = false) (ht : s.tornHost = none)
    (h : vreadFirst (barXlate s fn false) s (aperVa s fn off) len = .ok (u, x)) :
    barTwoRead fn ⟨off, none, ep⟩ len s = hostAgain (.hostBar2Read fn ⟨off, none, ep⟩ len) x u := by
  unfold barTwoRead
  simp only [tornHost_none ht, hg, ht, hvd, hsealed, h, Bool.not_true, Bool.false_eq_true, or_self, if_false]

theorem barTwoRead_rest {x : Torn} (hg : gate s fn = .ok) (hvd : hasVd s fn = true)
    (hsealed : sealedRange s fn (aperVa s fn off) len = false) (ht : s.tornHost = some x) :
    ∃ pj, barTwoRead fn ⟨off, none, ep⟩ len s
      = (chargeOper (countRead { s with tornHost := none } fn (aperVa s fn off) len) pj).emit (.readData fn off (getRest x s).1) := by
  refine ⟨rangeEnergy { s with tornHost := none } fn (aperVa s fn off) len + portEnergy len, ?_⟩
  have hclosed : ¬ ((!hasVd s fn) = true ∨ sealedRange s fn (aperVa s fn off) len = true) := by simp [hvd, hsealed]
  unfold barTwoRead
  dsimp only
  rw [show gate { s with tornHost := none } fn = .ok from hg, ht]
  exact if_neg hclosed

theorem vreadFirst_state {tr : Xlate} {va n : Nat} {u : State} {x : Torn} (h : vreadFirst tr s va n = .ok (u, x)) :
    u = { s with free := u.free } := by
  unfold vreadFirst at h
  split at h
  · cases h
  · cases h
    rfl

end Read

section Write

variable {fn off : Nat} {data : List Byte}

theorem exec_hostBar2Write_eq (hlen : data.length ≤ 512) :
    exec (.hostBar2Write fn off data false none) s = .next (barTwoWrite fn off data false none s) := by
  rw [exec_hostBar2Write, execHostBar2Write, payload_short hlen]
  rfl

theorem barTwoWrite_first {u : State} {x : Torn} (hg : gate s fn = .ok) (hvd : hasVd s fn = true) (ht : s.tornHost = none)
    (h : vwriteFirst (barXlate s fn true) s (aperVa s fn off) data [] = .ok (u, x)) :
    barTwoWrite fn off data false none s = hostAgain (.hostBar2Write fn off data false none) x u := by
  unfold barTwoWrite
  simp only [tornHost_none ht, hg, ht, hvd, epLines, h, Bool.not_true, Bool.false_eq_true, if_false]

theorem barTwoWrite_fails {e : VaErr} (hg : gate s fn = .ok) (hvd : hasVd s fn = true) (ht : s.tornHost = none)
    (h : vwriteFirst (barXlate s fn true) s (aperVa s fn off) data [] = .error e) :
    barTwoWrite fn off data false none s = logAer fn .completerAbort s := by
  unfold barTwoWrite
  simp only [tornHost_none ht, hg, ht, hvd, epLines, h, Bool.not_true, Bool.false_eq_true, if_false]

theorem barTwoWrite_rest {x : Torn} (hg : gate s fn = .ok) (ht : s.tornHost = some x) :
    ∃ pj, barTwoWrite fn off data false none s = chargeOper (putRest x data [] { s with tornHost := none }) pj := by
  refine ⟨rangeEnergy { s with tornHost := none } fn (aperVa s fn off) data.length + portEnergy data.length, ?_⟩
  unfold barTwoWrite
  dsimp only
  rw [show gate { s with tornHost := none } fn = .ok from hg, ht]
  rfl

theorem vwriteFirst_cycle {tr : Xlate} {va : Nat} {b : List Byte} {poison : List Nat} {u : State} {x : Torn}
    (h : vwriteFirst tr s va b poison = .ok (u, x)) : u.cycle = s.cycle := by
  unfold vwriteFirst at h
  split at h
  · cases h
  · cases h
    exact Parts.cycle_putFirst ..

end Write

/-- What BAR2 reaches is HBM, as the tables translate. -/
theorem barXlate_ok {fn va pa : Nat} {wr dt : Bool} (h : barXlate s fn wr va = .ok (pa, dt)) :
    pa < 2 ^ 39 ∧ translate s fn va wr = .ok (pa, dt) := by
  unfold barXlate at h
  split at h
  · cases h
  next ht =>
    split at h
    next hhbm =>
      cases h
      exact ⟨of_decide_eq_true hhbm, ht⟩
    · cases h

/-! ### The MF's BAR2 (R22, R31) -/

section Mf

variable {off len : Nat} {ep : Bool}

theorem wholeHbm_iff (a n : Nat) : wholeHbm a n = true ↔ a + n ≤ 2 ^ 39 := decide_eq_true_iff

theorem exec_mfAperture_read (hlen : len ≤ 4096) :
    exec (.mfApertureAccess ⟨off, none, ep⟩ len none) s = .next (mfWindow ⟨off, none, ep⟩ len none s) := by
  rw [exec_mfApertureAccess, execMfApertureAccess]
  dsimp only
  rw [read_short hlen]
  rfl

theorem exec_mfAperture_write {b : List Byte} {e : Bool} (hlen : b.length ≤ 512) :
    exec (.mfApertureAccess ⟨off, none, ep⟩ len (some ⟨b, e⟩)) s = .next (mfWindow ⟨off, none, ep⟩ len (some ⟨b, e⟩) s) := by
  rw [exec_mfApertureAccess, execMfApertureAccess]
  dsimp only
  rw [payload_short hlen]
  rfl

theorem mfWindow_outside (ht : s.tornHost = none) (h : 2 ^ 39 < s.mfApr.toNat * 2 ^ 36 + off + len) :
    mfWindow ⟨off, none, ep⟩ len none s = unsupportedAt s := by
  have hout : wholeHbm (s.mfApr.toNat * 2 ^ 36 + off) len = false := by
    rw [← Bool.not_eq_true, wholeHbm_iff]
    exact Nat.not_le.2 h
  unfold mfWindow
  simp only [tornHost_none ht, Option.map_none, Option.getD_none, hout, Bool.not_false, or_true, if_true]

/-- An access within HBM. -/
theorem inside {n : Nat} (hg : gate s 0 = .ok) (h : s.mfApr.toNat * 2 ^ 36 + off + n ≤ 2 ^ 39) :
    ¬ (gate s 0 ≠ .ok ∨ (!wholeHbm (s.mfApr.toNat * 2 ^ 36 + off) n) = true) := by
  rw [hg, (wholeHbm_iff _ n).2 h]
  decide

theorem mfWindow_read_first (hg : gate s 0 = .ok) (ht : s.tornHost = none) (h : s.mfApr.toNat * 2 ^ 36 + off + len ≤ 2 ^ 39) :
    mfWindow ⟨off, none, ep⟩ len none s =
      let r := getFirst (paLines (s.mfApr.toNat * 2 ^ 36 + off) len) s
      hostAgain (.mfApertureAccess ⟨off, none, ep⟩ len none) r.2 r.1 := by
  unfold mfWindow
  simp only [tornHost_none ht, Option.map_none, Option.getD_none, ht]
  rw [if_neg (inside hg h)]

theorem mfWindow_read_rest {x : Torn} (hg : gate s 0 = .ok) (ht : s.tornHost = some x)
    (h : s.mfApr.toNat * 2 ^ 36 + off + len ≤ 2 ^ 39) :
    ∃ pj, mfWindow ⟨off, none, ep⟩ len none s
      = (chargeOper { s with tornHost := none } pj).emit (.readData 0 off (getRest x s).1) := by
  refine ⟨len * pjPerByte (s.mfApr.toNat * 2 ^ 36 + off) + portEnergy len, ?_⟩
  have hin := inside (s := { s with tornHost := none }) (off := off) (n := len) hg h
  unfold mfWindow
  simp only [Option.map_none, Option.getD_none, ht]
  rw [if_neg hin]
  rfl

theorem mfWindow_write_first {b : List Byte} {e : Bool} (hg : gate s 0 = .ok) (ht : s.tornHost = none)
    (h : s.mfApr.toNat * 2 ^ 36 + off + b.length ≤ 2 ^ 39) :
    mfWindow ⟨off, none, ep⟩ len (some ⟨b, e⟩) s =
      let a := s.mfApr.toNat * 2 ^ 36 + off
      let u := if e then logAer 0 .poisonedTlp s else s
      hostAgain (.mfApertureAccess ⟨off, none, ep⟩ len (some ⟨b, e⟩)) (newTorn (paLines a b.length) u)
        (mfWrites a b.length (putFirst (paLines a b.length) b (epLines e a b.length)) u) := by
  unfold mfWindow
  simp only [tornHost_none ht, Option.map_some, Option.getD_some, ht]
  rw [if_neg (inside hg h)]

theorem mfWindow_write_rest {b : List Byte} {e : Bool} {x : Torn} (hg : gate s 0 = .ok) (ht : s.tornHost = some x)
    (h : s.mfApr.toNat * 2 ^ 36 + off + b.length ≤ 2 ^ 39) :
    ∃ pj, mfWindow ⟨off, none, ep⟩ len (some ⟨b, e⟩) s =
      let a := s.mfApr.toNat * 2 ^ 36 + off
      chargeOper (mfWrites a b.length (putRest x b (epLines e a b.length)) { s with tornHost := none }) pj := by
  refine ⟨b.length * pjPerByte (s.mfApr.toNat * 2 ^ 36 + off) + portEnergy b.length, ?_⟩
  have hin := inside (s := { s with tornHost := none }) (off := off) (n := b.length) hg h
  unfold mfWindow
  simp only [Option.map_some, Option.getD_some, ht]
  rw [if_neg hin]

/-! What a write of the MF does to frames. -/

theorem cycle_takeFrames (s : State) (x : Nat × Nat × Nat × Nat) : (takeFrames s x).cycle = s.cycle := by
  refine foldl_eq _ State.cycle (fun u r => ?_) s.stale s
  dsimp only
  split <;> rfl

theorem cycle_settleFrames (s : State) : (settleFrames s).cycle = s.cycle := by
  unfold settleFrames
  split
  · rfl
  · exact foldl_eq _ State.cycle cycle_takeFrames _ _

theorem cycle_mfWrites {pa n : Nat} {f : State → State} (hf : ∀ u, (f u).cycle = u.cycle) (s : State) :
    (mfWrites pa n f s).cycle = s.cycle :=
  (cycle_settleFrames _).trans ((hf _).trans (cycle_takeFrames _ _))

theorem cycle_poisoned (e : Bool) : (if e then logAer 0 .poisonedTlp s else s).cycle = s.cycle := by
  cases e <;> rfl

theorem claimFrames_of_none (pa n : Nat) (h : s.stale = []) : claimFrames pa n s = s := by
  unfold claimFrames takeFrames
  dsimp only
  rw [h]
  simp only [List.filter_nil, List.foldl_nil, List.flatMap_nil, List.append_nil]
  rw [← h]

theorem settleFrames_of_none (h : s.stale = []) : settleFrames s = s := by
  rw [settleFrames, h]
  rfl

/-- Where no frame is stale and no VD maps one, the MF's write is the write alone. -/
theorem mfWrites_of_none {pa n : Nat} {f : State → State} (hs : s.stale = []) (hv : s.vds = []) (hfs : (f s).stale = []) :
    mfWrites pa n f s = f s := by
  have hnone : mappedFrames s = [] := by
    rw [mappedFrames, hv]
    rfl
  unfold mfWrites noteTables
  dsimp only
  rw [claimFrames_of_none pa n hs, hnone]
  simp only [List.filter_nil, List.foldl_nil, List.append_nil]
  exact settleFrames_of_none hfs

end Mf

/-! ### Reads of host memory that get no data in time (R35, R66) -/

section Timeout

variable {fn q : Nat}

theorem hostReadsOf_logAer (e : AerError) : hostReadsOf (logAer fn e s) fn q = hostReadsOf s fn q := rfl

theorem working_logAer (e : AerError) : working (logAer fn e s) fn = working s fn := by
  have htdi : ((logAer fn e s).fn fn).tdi = (s.fn fn).tdi := by rw [logAer, fn_setFn_self]
  unfold working
  rw [htdi]
  rfl

theorem exec_timeout_idle (h : working s fn = false ∨ hostReadsOf s fn q = []) :
    exec (.hostReadCompletionTimeout fn ⟨q, none⟩) s = .next (logAer fn .completionTimeout s) := by
  rw [exec_hostReadCompletionTimeout, execHostReadCompletionTimeout]
  dsimp only
  rw [working_logAer, hostReadsOf_logAer]
  rcases h with h | h
  · rw [h]
    rfl
  · rw [h]
    exact congrArg Host.Outcome.next (ite_self _)

theorem exec_timeout_one {which : Option Nat} (hw : working s fn = true) (h : hostReadsOf s fn q = [which]) :
    exec (.hostReadCompletionTimeout fn ⟨q, none⟩) s
      = .next (hostReadFails fn q which (logAer fn .completionTimeout s).tick1) := by
  rw [exec_hostReadCompletionTimeout, execHostReadCompletionTimeout]
  dsimp only
  rw [working_logAer, hostReadsOf_logAer, hw, h, List.length_singleton, Nat.mod_one]
  rfl

theorem queue_setQueue_self (s : State) (fn q : Nat) (x : Queue) : (s.setQueue fn q x).queue fn q = x := tget_tset_self ..

theorem state_dropHead (s : State) (fn q : Nat) : ((dropHead fn q s).queue fn q).state = (s.queue fn q).state :=
  (congrArg Queue.state (queue_setQueue_self s fn q (s.queue fn q).noHead)).trans rfl

theorem state_queueError (s : State) (fn q status : Nat) (data : W64) :
    ((queueError fn q status data s).queue fn q).state = 2 := by
  rw [queueError, (Posting.posted_ecqPost ..).queue, state_dropHead, State.modQueue, queue_setQueue_self]

theorem runs_setRun {r u : Run} (h : s.runs = [r]) (hid : r.id = u.id) : (setRun u s).runs = [u] := by
  rw [setRun, h, List.map_singleton, if_pos hid]

/-- What a COPY whose source does not answer leaves: one run that has ended. -/
theorem copyTimeout_spec {r : Run} (h : s.runs = [r]) :
    ∃ u, (copyTimeout r s).runs = [u] ∧ u.id = r.id ∧ u.status = 0x0501 ∧ u.ended = true ∧ (copyTimeout r s).queues = s.queues := by
  unfold copyTimeout
  dsimp only
  rw [copyFault, endRun]
  generalize hp : cqSend _ s = t
  have hposted : Posted s t := hp ▸ Posting.posted_cqSend _ s
  refine ⟨_, runs_setRun (hposted.runs.trans h) rfl, rfl, rfl, rfl, ?_⟩
  exact hposted.queues

end Timeout

/-! ### MSI-X (R36) -/

theorem fn_emit (x : Out) (fn : Nat) : (s.emit x).fn fn = s.fn fn := rfl

theorem getLsbD_clear (m : W64) (vec : Nat) : (m &&& ~~~(1#64 <<< vec)).getLsbD vec = false := by
  rw [BitVec.getLsbD_and, BitVec.getLsbD_not, BitVec.getLsbD_shiftLeft]
  by_cases h : vec < 64
  · simp [h]
  · simp [h]

/-- Whether the message of a pending vector goes out once its own mask bit is clear. -/
def sends (f : Fn) (vec : Nat) : Bool := f.pba.getLsbD vec && f.cfg.msixOn && !f.cfg.msixAll

theorem exec_msixVectorUnmask_spec (fn vec : Nat) (s : State) :
    ∃ t, exec (.msixVectorUnmask fn vec) s = .next t ∧ t = { s with fns := t.fns, out := t.out }
      ∧ (t.fn fn).msixMask.getLsbD vec = false
      ∧ (t.fn fn).pba.getLsbD vec = ((s.fn fn).pba.getLsbD vec && !sends (s.fn fn) vec)
      ∧ t.out = s.out ++ (if sends (s.fn fn) vec then [.msix fn vec] else []) := by
  let g : Fn := { s.fn fn with msixMask := (s.fn fn).msixMask &&& ~~~(1#64 <<< vec) }
  have hmask : g.msixMask.getLsbD vec = false := getLsbD_clear ..
  have hsend : (g.pba.getLsbD vec && !g.masks vec) = sends (s.fn fn) vec := by
    have : g.masks vec = (g.cfg.msixAll || !g.cfg.msixOn) := by rw [Fn.masks, hmask]; rfl
    rw [this, sends, Bool.not_or, Bool.not_not, Bool.and_comm (!g.cfg.msixAll), ← Bool.and_assoc]
  refine ⟨_, rfl, ?_⟩
  unfold msixRelease
  dsimp only
  rw [fn_setFn_self, hsend]
  cases hs : sends (s.fn fn) vec with
  | true =>
    refine ⟨rfl, ?_, ?_, rfl⟩ <;> rw [if_pos rfl, fn_emit, fn_setFn_self]
    · exact hmask
    · exact (getLsbD_clear ..).trans (Bool.and_false _).symm
  | false =>
    refine ⟨rfl, ?_, ?_, ?_⟩ <;> rw [if_neg Bool.false_ne_true]
    · rw [fn_setFn_self]
      exact hmask
    · rw [fn_setFn_self]
      simp
    · exact (List.append_nil _).symm

/-! ### Registers (R3, R5, R25) -/

section Registers

variable {fn off size : Nat} {v : W64} {ep : Bool}

theorem isCfg_bar (h : off < 2 ^ 40) : isCfg off = false := decide_eq_false (Nat.not_le.2 h)

theorem exec_registerWrite_bar (h : off < 2 ^ 40) :
    exec (.registerWrite fn ⟨off, none, ep⟩ size v) s = .next (barWrite fn ⟨off, none, ep⟩ size v s) := by
  rw [exec_registerWrite, execRegisterWrite]
  dsimp only
  rw [isCfg_bar h]
  rfl

theorem exec_rcRegisterRead_bar (h : off < 2 ^ 40) :
    exec (.rcRegisterRead fn ⟨off, none, ep⟩) s = .next (barRead fn off s) := by
  rw [exec_rcRegisterRead, execRcRegisterRead]
  dsimp only
  rw [isCfg_bar h]
  rfl

theorem barWrite_of_allOnes (hg : gate s fn = .allOnes) : barWrite fn ⟨off, none, ep⟩ size v s = s := by
  rw [barWrite, hg]

/-- A write of a whole word outside the QCB table. -/
theorem barWrite_word (hg : gate s fn = .ok) (halign : off % 8 = 0) (hqcb : ¬ (0x1000 ≤ off ∧ off < 0x2000))
    (hmf : fn = 0 → off / 0x100000 = 1) :
    barWrite fn ⟨off, none, ep⟩ 8 v s =
      regPut fn off v (BitVec.allOnes 64) (if ep then logAer fn .poisonedTlp s else s) := by
  have hheld : ∀ u, heldQueue u fn off = none := fun u => if_neg fun h => hqcb ⟨h.1, h.2.1⟩
  have hlanes : writeLanes off 8 v = (v, BitVec.allOnes 64) := by
    rw [writeLanes, halign]
    simp only [Nat.mul_zero, BitVec.shiftLeft_zero]
    rfl
  have hwaits : ∀ u w m, ¬ (fn = 0 ∧ mfWaits u (off - off % 8) w m = true) := by
    rintro u w m ⟨h0, hw⟩
    have h1 := hmf h0
    rw [halign, Nat.sub_zero, mfWaits] at hw
    dsimp only at hw
    rw [h1] at hw
    exact Bool.false_ne_true hw
  rw [barWrite, hg]
  dsimp only
  rw [hheld, hlanes]
  dsimp only
  rw [if_neg (hwaits _ _ _), if_neg (by omega), halign, Nat.sub_zero]

theorem merge_all (old v : W64) : merge old v (BitVec.allOnes 64) = v := by
  rw [merge, BitVec.not_allOnes, BitVec.and_zero, BitVec.zero_or, BitVec.and_allOnes]

theorem mfPut_hb (h : off / 0x100000 = 1) (m : W64) (s : State) : mfPut off v m s = hbPut (off % 0x100000) v m s := by
  unfold mfPut
  rw [h]
  rfl

theorem regPut_cap (v : W64) (s : State) : regPut 0 0x100100 v (BitVec.allOnes 64) s = s.push (.hbPwrCapWrite v) := by
  rw [regPut, if_pos rfl, mfPut_hb (by decide), hbPut, if_pos (by decide), merge_all]

theorem apr_regPut (hfn : fn ≠ 0) (htdi : (s.fn fn).tdi = .configUnlocked) (v : W64) :
    ((regPut fn 0 v (BitVec.allOnes 64) s).fn fn).apr = v.extractLsb' 0 36 := by
  rw [regPut, if_neg hfn, fnPut, if_pos rfl]
  dsimp only
  rw [merge_all]
  split
  next h => exact h.symm
  next => rw [tdiChange_of_unlocked (by rw [fn_setFn_self]; exact htdi), fn_setFn_self]

theorem regPut_notify {q : Nat} (hfn : fn ≠ 0) (hq : q < 64) (hvd : hasVd s fn = true) (v : W64) :
    regPut fn (0x10000 + q * 0x1000) v (BitVec.allOnes 64) s = s.push (.notify fn q (v.extractLsb' 0 32)) := by
  have hvec : vectorsOf fn ≤ 64 := by
    unfold vectorsOf
    split <;> decide
  rw [regPut, if_neg hfn, fnPut, if_neg (by omega), if_neg (by omega), hvd, if_neg (by decide), if_neg (by omega), cfePut,
    if_neg (by omega), if_neg (by omega), if_pos ⟨by omega, by omega, by omega, by decide⟩]
  rw [show (0x10000 + q * 0x1000 - 0x10000) / 0x1000 = q by omega]

/-! What a read of STEP tells (R20). -/

theorem toNat_hbStep (s : State) : (hbWord s 0x108).toNat = s.pwr.step.toNat + s.pwr.ceil.toNat * 2 ^ 4 + b01 s.pwr.therm * 2 ^ 8
    + b01 s.pwr.floor * 2 ^ 9 + s.pwr.lowered.toNat * 2 ^ 32 := by
  have hbits : ∀ b, b01 b ≤ 1 := by decide
  have h1 := s.pwr.step.isLt
  have h2 := s.pwr.ceil.isLt
  have h3 := s.pwr.lowered.isLt
  have h4 := hbits s.pwr.therm
  have h5 := hbits s.pwr.floor
  unfold hbWord
  dsimp only
  rw [if_neg (by decide), if_pos rfl]
  exact (BitVec.toNat_ofNat _ _).trans (Nat.mod_eq_of_lt (by omega))

theorem hbStep_fields (s : State) :
    (hbWord s 0x108).extractLsb' 32 32 = s.pwr.lowered ∧ (hbWord s 0x108).extractLsb' 0 4 = s.pwr.step
      ∧ (hbWord s 0x108).extractLsb' 4 4 = s.pwr.ceil ∧ (hbWord s 0x108).getLsbD 8 = s.pwr.therm := by
  have hbits : ∀ b, b01 b ≤ 1 := by decide
  have h1 := s.pwr.step.isLt
  have h2 := s.pwr.ceil.isLt
  have h3 := s.pwr.lowered.isLt
  have h4 := hbits s.pwr.therm
  have h5 := hbits s.pwr.floor
  refine ⟨BitVec.eq_of_toNat_eq ?_, BitVec.eq_of_toNat_eq ?_, BitVec.eq_of_toNat_eq ?_, ?_⟩
  · rw [BitVec.extractLsb'_toNat, toNat_hbStep, Nat.shiftRight_eq_div_pow]
    omega
  · rw [BitVec.extractLsb'_toNat, toNat_hbStep, Nat.shiftRight_eq_div_pow]
    omega
  · rw [BitVec.extractLsb'_toNat, toNat_hbStep, Nat.shiftRight_eq_div_pow]
    omega
  · rw [BitVec.getLsbD, toNat_hbStep, Nat.testBit_eq_decide_div_mod_eq]
    cases s.pwr.therm with
    | true =>
      have hone : b01 true = 1 := rfl
      exact decide_eq_true (by omega)
    | false =>
      have hzero : b01 false = 0 := rfl
      exact decide_eq_false (by omega)

theorem regWord_hb (h : off / 0x100000 = 1) (s : State) : regWord s 0 off = hbWord s (off % 0x100000) := by
  rw [regWord, if_pos rfl]
  unfold mfWord
  dsimp only
  rw [if_neg (by omega), h]
  rfl

theorem regClear_hb (h : off / 0x100000 = 1) (s : State) : regClear 0 off s = hbClear (off % 0x100000) s := by
  unfold regClear
  rw [if_neg (by decide)]
  dsimp only
  rw [h]
  rfl

/-- A read of a whole word of the MF's hub block but the record of a denied request. -/
theorem barRead_hb (hg : gate s 0 = .ok) (halign : off % 8 = 0) (hhb : off / 0x100000 = 1) (hdeny : off ≠ 0x121000) :
    barRead 0 off s = hbClear (off % 0x100000) (s.emit (.readData 0 off (natLe 8 (hbWord s (off % 0x100000)).toNat))) := by
  unfold barRead
  dsimp only
  rw [hg]
  dsimp only
  rw [halign, Nat.sub_zero, if_neg (fun h => hdeny h.2), regWord_hb hhb, regClear_hb hhb]

theorem hbClear_step (s : State) : hbClear 0x108 s = { s with pwr := { s.pwr with lowered := 0 } } := by
  rw [hbClear, if_neg (by decide), if_pos rfl]

theorem hbClear_timebase (s : State) : hbClear 0x118 s = s := by
  rw [hbClear, if_neg (by decide), if_neg (by decide), if_neg (by decide), if_neg (by decide)]

theorem toNat_timebase (s : State) : (hbWord s 0x118).toNat = s.cycle % 2 ^ 64 := by
  unfold hbWord
  dsimp only
  rw [if_neg (by decide), if_neg (by decide), if_neg (by decide), if_pos rfl]
  exact BitVec.toNat_ofNat _ _

end Registers

/-- The oldest record of a denied request leaves with a read of it (R50). -/
theorem exec_hbActDenyRead_cons {d : DenyRec} {l : List DenyRec} (h : s.klk.deny = d :: l) :
    exec .hbActDenyRead s = .next { s with
      klk := { s.klk with deny := l, denyVa := BitVec.ofNat 64 d.va }
      out := s.out ++ [.readData 0 0x121000 (natLe 8 (denyWord d).toNat)] } := by
  rw [exec_hbActDenyRead, execHbActDenyRead, denyPop, h]
  rfl

theorem exec_hbActDenyRead_nil (h : s.klk.deny = []) :
    exec .hbActDenyRead s = .next { s with out := s.out ++ [.readData 0 0x121000 (natLe 8 0)] } := by
  rw [exec_hbActDenyRead, execHbActDenyRead, h]
  rfl

/-- Settles O45: an access goes through the gate of its function to its window or register, and one to memory is made in the two
parts of `Parts`. -/
theorem hostAccesses : Obligations.HostAccesses := by
  unfold Obligations.HostAccesses
  intro s
  refine ⟨?read, ?readFails, ?write, ⟨fun lines => Parts.getRest_getFirst lines s, fun pa b poison hwf => Parts.mem_putRest_putFirst pa b poison hwf⟩,
    fun fn wr va pa dt => barXlate_ok, fun fn off data ep hlen => ?longWrite, fun fn off len ep hlen => ?longRead, fun st => ?ide,
    ?mfRead, ?mfWrite, fun a n f hs hv hfs _ => mfWrites_of_none hs hv hfs, fun off len ep hlen hout ht => ?mfOutside,
    fun a ep => rfl, fun fn q => exec_timeout_idle, fun fn q hw hr => ?ringTimeout, fun fn q r hw hr hruns => ?copyTimeout,
    fun fn vec => exec_msixVectorUnmask_spec fn vec s, fun fn off size v hg hoff => ?allOnes, fun v hg => ?cap, fun fn v hfn hg htdi => ?apr,
    fun fn q v hfn hq hg hvd => ?notify, fun v hg => ?capPoisoned, fun hg => ?step, fun hg => ?timebase, exec_hbActDenyRead_nil,
    fun d l => exec_hbActDenyRead_cons⟩
  case read =>
    intro fn off len ep hg hvd hsealed hlen
    refine ⟨fun u x ht hread => ⟨?_, vreadFirst_state hread⟩, fun x ht => ?_⟩
    · rw [exec_hostBar2Read_eq hlen, barTwoRead_first hg hvd hsealed ht hread, hostAgain, vreadFirst_state hread]
    · obtain ⟨pj, h⟩ := barTwoRead_rest (ep := ep) hg hvd hsealed ht
      exact ⟨_, (exec_hostBar2Read_eq hlen).trans (congrArg Host.Outcome.next h), rfl⟩
  case readFails =>
    intro fn off len ep hg hlen ht h
    rw [exec_hostBar2Read_eq hlen, barTwoRead_abort hg ht h]
    rfl
  case write =>
    intro fn off data hg hvd hlen
    refine ⟨fun u x ht h => ?_, fun e ht h => ?_, fun x ht => ?_⟩
    · rw [exec_hostBar2Write_eq hlen, barTwoWrite_first hg hvd ht h, hostAgain_of_cycle (vwriteFirst_cycle h)]
    · rw [exec_hostBar2Write_eq hlen, barTwoWrite_fails hg hvd ht h]
    · obtain ⟨pj, h⟩ := barTwoWrite_rest (off := off) (data := data) hg ht
      exact ⟨_, (exec_hostBar2Write_eq hlen).trans (congrArg Host.Outcome.next h), rfl⟩
  case longWrite =>
    rw [exec_hostBar2Write, execHostBar2Write, show decide (maxPayload < data.length) = true from decide_eq_true hlen, hostRequest_long]
  case longRead =>
    rw [exec_hostBar2Read, execHostBar2Read, show decide (maxReadRequest < len) = true from decide_eq_true hlen, hostRequest_long]
  case ide =>
    exact ⟨ideFail st s, rfl, insecure_ideFail st s, aer_ideFail st s, fun _ _ _ _ => rfl, fun _ _ _ _ => rfl, fun _ _ _ _ => rfl,
      fun _ _ _ _ _ => rfl, fun _ _ _ => rfl, fun _ _ => rfl⟩
  case mfRead =>
    intro off len ep hg hlen hin
    refine ⟨fun ht => ?_, fun x ht => ?_⟩
    · rw [exec_mfAperture_read hlen, mfWindow_read_first hg ht hin]
      rfl
    · obtain ⟨pj, h⟩ := mfWindow_read_rest (ep := ep) hg ht hin
      exact ⟨_, (exec_mfAperture_read hlen).trans (congrArg Host.Outcome.next h), rfl⟩
  case mfWrite =>
    intro off len b ep e hg hlen hin
    refine ⟨fun ht => ?_, fun x ht => ?_⟩
    · rw [exec_mfAperture_write hlen, mfWindow_write_first hg ht hin]
      dsimp only
      rw [hostAgain_of_cycle ((cycle_mfWrites (fun u => Parts.cycle_putFirst ..) _).trans (cycle_poisoned e))]
      cases e <;> rfl
    · obtain ⟨pj, h⟩ := mfWindow_write_rest (ep := ep) (len := len) (e := e) hg ht hin
      exact ⟨_, (exec_mfAperture_write hlen).trans (congrArg Host.Outcome.next h), rfl⟩
  case mfOutside =>
    rw [exec_mfAperture_read hlen, mfWindow_outside ht hout]
    rfl
  case ringTimeout => exact ⟨_, exec_timeout_one hw hr, state_queueError ..⟩
  case copyTimeout =>
    have hrun : runOf (logAer fn .completionTimeout s).tick1 r.id = some r := by
      rw [runOf, show (logAer fn .completionTimeout s).tick1.runs = [r] from hruns]
      simp
    obtain ⟨u, hspec⟩ := copyTimeout_spec (s := (logAer fn .completionTimeout s).tick1) hruns
    refine ⟨_, u, exec_timeout_one hw hr, ?_⟩
    rw [hostReadFails, hrun]
    exact hspec
  case allOnes => rw [exec_registerWrite_bar hoff, barWrite_of_allOnes hg]
  case cap =>
    rw [exec_registerWrite_bar (by decide), barWrite_word hg rfl (by decide) fun _ => rfl, if_neg Bool.false_ne_true, regPut_cap]
    rfl
  case apr =>
    refine ⟨_, (exec_registerWrite_bar (by decide)).trans (congrArg Host.Outcome.next
      (barWrite_word hg rfl (by decide) fun h => absurd h hfn)), ?_⟩
    rw [if_neg Bool.false_ne_true]
    exact apr_regPut hfn htdi v
  case notify =>
    rw [exec_registerWrite_bar (by omega), barWrite_word hg (by omega) (by omega) fun h => absurd h hfn, if_neg Bool.false_ne_true,
      regPut_notify hfn hq hvd]
    rfl
  case capPoisoned =>
    rw [exec_registerWrite_bar (by decide), barWrite_word hg rfl (by decide) fun _ => rfl, if_pos rfl, regPut_cap]
    rfl
  case step =>
    have hread := barRead_hb (off := 0x100108) hg (by decide) (by decide) (by decide)
    rw [show 0x100108 % 0x100000 = 0x108 from rfl, hbClear_step] at hread
    have hfields := hbStep_fields s
    generalize hbWord s 0x108 = w at hread hfields ⊢
    exact ⟨_, (exec_rcRegisterRead_bar (by decide)).trans (congrArg Host.Outcome.next hread), rfl, rfl, hfields⟩
  case timebase =>
    have hread := barRead_hb (off := 0x100118) hg (by decide) (by decide) (by decide)
    rw [show 0x100118 % 0x100000 = 0x118 from rfl, hbClear_timebase, toNat_timebase] at hread
    rw [exec_rcRegisterRead_bar (by decide), hread]
    rfl

end Sys2Proof.Laws.HostAccess
end

section
/-! PROOF. Page requests and PAGE_DONE (R211). -/

namespace Sys2Proof.Laws.Pages

open Machine
open Posting (Posted)

variable {s t u : State} {cid page : Nat}

/-! ### Frames that settle (R115) -/

/-- Two states that differ at most in what the zeroing of frames changes. -/
def Zeroed (s t : State) : Prop := t = { s with mem := t.mem, memPoison := t.memPoison, stale := t.stale }

theorem Zeroed.of_eq {m : Cells 8} {p : List Nat} {f : List (Nat × Nat × Nat × Nat)}
    (h : t = { s with mem := m, memPoison := p, stale := f }) : Zeroed s t := by
  subst h
  rfl

theorem Zeroed.refl (s : State) : Zeroed s s := rfl

theorem Zeroed.trans (h : Zeroed s t) (h' : Zeroed t u) : Zeroed s u := by
  rw [Zeroed, h] at h'
  exact .of_eq h'

theorem Zeroed.foldl {α : Type} {f : State → α → State} (hf : ∀ s a, Zeroed s (f s a)) (l : List α) (s : State) :
    Zeroed s (l.foldl f s) := by
  induction l generalizing s with
  | nil => exact .refl s
  | cons a l ih => exact (hf s a).trans (ih _)

theorem zeroed_takeFrames (s : State) (x : Nat × Nat × Nat × Nat) : Zeroed s (takeFrames s x) := by
  unfold takeFrames
  refine Zeroed.trans (Zeroed.foldl (fun s r => ?_) s.stale s) rfl
  dsimp only
  split <;> rfl

theorem zeroed_settleFrames (s : State) : Zeroed s (settleFrames s) := by
  unfold settleFrames
  split
  · rfl
  · exact .foldl zeroed_takeFrames _ s

/-! ### Posting requests -/

theorem prqDrain_nil (s : State) : prqDrain cid [] s = s.setVd cid { s.vd cid with prq := { (s.vd cid).prq with waiting := [] } } := rfl

theorem prqDrain_of_none {r : Nat × Bool × Nat} {l : List (Nat × Bool × Nat)} (h : prqPost cid r s = none) :
    prqDrain cid (r :: l) s = s.setVd cid { s.vd cid with prq := { (s.vd cid).prq with waiting := r :: l } } := by
  rw [prqDrain, h]

theorem prqDrain_of_some {r : Nat × Bool × Nat} {l : List (Nat × Bool × Nat)} (h : prqPost cid r s = some t) :
    prqDrain cid (r :: l) s = prqDrain cid l t := by
  rw [prqDrain, h]

theorem prqPost_of_off (r : Nat × Bool × Nat) (h : (s.vd cid).prq.en = false) : prqPost cid r s = none := by
  rw [prqPost, h]
  rfl

theorem vds_msix (s : State) (fn vec : Nat) : (msix fn vec s).vds = s.vds := by
  unfold msix
  generalize (if 33 ≤ fn then vec % 16 else vec) = v
  dsimp only
  split <;> rfl

theorem mem_msix (s : State) (fn vec : Nat) : (msix fn vec s).mem = s.mem := by
  unfold msix
  generalize (if 33 ≤ fn then vec % 16 else vec) = v
  dsimp only
  split <;> rfl

theorem vd_setVd_self (s : State) (v : Vd) : (s.setVd cid v).vd cid = v := tget_tset_self ..

theorem vd_of_vds (h : t.vds = s.vds) (c : Nat) : t.vd c = s.vd c := by
  rw [State.vd, h]
  rfl

/-- A request that is posted: its entry is at WIDX, which advances. -/
theorem prqPost_spec {r : Nat × Bool × Nat} (hen : (s.vd cid).prq.en = true)
    (hroom : hasRoom (s.vd cid).prq.widx (s.vd cid).prq.ridx (s.vd cid).prq.size.toNat = true)
    (hput : vwrite s cid ((s.vd cid).prq.base.toNat + (s.vd cid).prq.widx.toNat % 2 ^ (s.vd cid).prq.size.toNat * 16)
      (natLe 8 (b01 (phaseBit (s.vd cid).prq.widx (s.vd cid).prq.size.toNat) + 2 * b01 r.2.1 + r.1 * 256) ++ natLe 8 r.2.2) [] = .ok u) :
    ∃ t, prqPost cid r s = some t ∧ t.mem = u.mem ∧ (t.vd cid).prq.widx = (s.vd cid).prq.widx + 1 := by
  unfold prqPost
  dsimp only
  rw [hen, hroom, if_neg (by decide), hubPut, hput]
  refine ⟨_, rfl, (mem_msix ..).trans (State.setVd_mem ..), ?_⟩
  rw [vd_of_vds (vds_msix ..), vd_setVd_self]

/-- A write of PRQ's word 0x08 that sets EN. -/
theorem execPrqEnable_on {w : BitVec 64} (hoff : (s.vd cid).prq.en = false) (hw : w.getLsbD 4 = true) :
    execPrqEnable cid w s = .next
      (if (decide ((s.vd cid).prq.base.extractLsb' 0 8 = 0) && decide (4 ≤ (w.extractLsb' 0 4).toNat)) = true then
        prqDrain cid (s.vd cid).prq.waiting (s.setVd cid { s.vd cid with
          prq := { (s.vd cid).prq with size := w.extractLsb' 0 4, vec := w.extractLsb' 8 6, en := true, widx := 0 } })
      else s) := by
  unfold execPrqEnable
  dsimp only
  rw [hoff, hw, if_neg Bool.false_ne_true]
  cases (decide ((s.vd cid).prq.base.extractLsb' 0 8 = 0) && decide (4 ≤ (w.extractLsb' 0 4).toNat)) <;> rfl

/-! ### PAGE_DONE -/

theorem soonAll_eq (l : List Instr) (s : State) : soonAll l s = { s with timers := s.timers ++ l.map fun i => (s.cycle, i) } := by
  unfold soonAll
  induction l generalizing s with
  | nil =>
    rw [List.map_nil, List.append_nil]
    rfl
  | cons i l ih =>
    rw [List.foldl_cons, ih, State.soon, List.map_cons]
    dsimp only
    rw [List.append_assoc]
    rfl

/-- The requests of transfers, queues and WAITs that hold on a page of a VD wait again. -/
def wakeHeld (cid page : Nat) (s : State) : State :=
  let v := s.vd cid
  let mine (x : Xfer) : Bool := decide (x.cid = cid) && decide (x.state = .held page)
  { s with
    vds := tset s.vds cid { v with prq := { v.prq with openPages := v.prq.openPages.filter (· ≠ page)
                                                       waiting := v.prq.waiting.filter fun w => w.1 ≠ page } }
    xfers := s.xfers.map fun x => if mine x then { x with state := .waiting } else x
    queues := tmap s.queues fun i x =>
      if i / 64 ≠ cid then x
      else { x with tried := false, held := if x.held = some page then none else x.held
                    waitHeld := if x.waitHeld = some page then none else x.waitHeld } }

/-- What is then tried again, in its turn. -/
def retried (cid page : Nat) (s : State) : List Instr :=
  ((s.xfers.filter fun x => decide (x.cid = cid) && decide (x.state = .held page)).map (·.tid)).map Instr.transferDispatch
    ++ ((s.queues.filter fun (i, x) => decide (i / 64 = cid) && decide (x.held = some page)).map (·.1)).map
        (fun i => Instr.packetFetch cid (i % 64))
    ++ ((s.queues.filter fun (i, x) => decide (i / 64 = cid) && decide (x.waitHeld = some page)).map (·.1)).map
        fun i => Instr.waitReread cid (i % 64)

/-- PAGE_DONE where no completion queue and no signal operation holds. -/
theorem retryPage_eq (hcq : s.cqs = []) (hsig : s.sigHeld = []) :
    ∃ k l, retryPage cid page s = soonAll l (settleFrames { soonAll (retried cid page s) (wakeHeld cid page s) with klk := k }) := by
  unfold retryPage
  simp only [wakeHeld, retried, State.setVd, soonAll_eq, hcq, hsig, List.filter_nil, List.map_nil, List.foldl_nil, List.any_nil, Bool.false_eq_true, if_false]
  exact ⟨_, _, rfl⟩

/-- What PAGE_DONE leaves of transfers and queues, and the turns it gives. -/
theorem retryPage_spec (hcq : s.cqs = []) (hsig : s.sigHeld = []) :
    (retryPage cid page s).xfers = (wakeHeld cid page s).xfers ∧ (retryPage cid page s).queues = (wakeHeld cid page s).queues
      ∧ ∀ i ∈ retried cid page s, (s.cycle, i) ∈ (retryPage cid page s).timers := by
  obtain ⟨k, l, h⟩ := retryPage_eq (cid := cid) (page := page) hcq hsig
  have hz := zeroed_settleFrames { soonAll (retried cid page s) (wakeHeld cid page s) with klk := k }
  rw [h, hz, soonAll_eq l, soonAll_eq (retried cid page s)]
  exact ⟨rfl, rfl, fun i hi => List.mem_append_left _ (List.mem_append_right _ (List.mem_map.2 ⟨i, hi, rfl⟩))⟩

theorem execPageDone_retries (h : page ≠ freedPage) : execPageDone cid page s = .next (retryPage cid page s) := by
  rw [execPageDone, if_neg h]

theorem tget_single {α : Type} (d : α) (i : Nat) (x : α) : tget d [(i, x)] i = x := by
  simp [tget]

theorem queue_of_queues {q : Nat} {x : Queue} (h : t.queues = [(64 * cid + q, x)]) : t.queue cid q = x := by
  rw [State.queue, h]
  exact tget_single ..

/-- Settles O56: what waits is posted in order by `prqDrain`, and PAGE_DONE gives each request that held on the page its turn. -/
theorem pageRequests : Obligations.PageRequests := by
  unfold Obligations.PageRequests
  intro cid page s
  refine ⟨fun hw => ?_, fun hoff => ?_, fun r u hw hen hroom hput => ?_, fun w hoff hw hon hbase hsize => ?_, fun w hoff hon hbad => ?_,
    fun x hp hx hcid hheld hcq hsig => ?_, fun q x hp hq hlt hheld hcq hsig => ?_⟩
  · refine ⟨_, rfl, ?_, ?_⟩ <;> rw [hw, prqDrain_nil]
    · rw [vd_setVd_self, ← hw]
    · rfl
  · refine ⟨_, rfl, ?_⟩
    cases hw : (s.vd cid).prq.waiting with
    | nil => rw [prqDrain_nil, vd_setVd_self, ← hw]
    | cons r l => rw [prqDrain_of_none (prqPost_of_off r hoff), vd_setVd_self, ← hw]
  · obtain ⟨t, hpost, hmem, hidx⟩ := prqPost_spec hen hroom hput
    refine ⟨_, rfl, ?_⟩
    rw [hw, prqDrain_of_some hpost, prqDrain_nil, vd_setVd_self]
    exact ⟨hmem, hidx, rfl⟩
  · refine ⟨_, execPrqEnable_on hoff hon, ?_⟩
    rw [if_pos (Bool.and_eq_true_iff.2 ⟨decide_eq_true hbase, decide_eq_true hsize⟩), hw, prqDrain_nil, vd_setVd_self, vd_setVd_self]
    exact ⟨rfl, rfl, rfl, rfl⟩
  · refine (execPrqEnable_on hoff hon).trans (congrArg Host.Outcome.next (if_neg fun h => ?_))
    obtain ⟨hbase, hsize⟩ := (Bool.and_eq_true_iff).1 h
    exact hbad.elim (fun h => h (of_decide_eq_true hbase)) fun h => Nat.not_le.2 h (of_decide_eq_true hsize)
  · obtain ⟨hxs, _, htimers⟩ := retryPage_spec (cid := cid) (page := page) hcq hsig
    refine ⟨_, execPageDone_retries hp, hxs.trans ?_, htimers _ ?_⟩
    · simp [wakeHeld, hx, hcid, hheld]
    · simp [retried, hx, hcid, hheld]
  · obtain ⟨_, hqs, htimers⟩ := retryPage_spec (cid := cid) (page := page) hcq hsig
    have hdiv : (64 * cid + q) / 64 = cid := by omega
    have hmod : (64 * cid + q) % 64 = q := by omega
    refine ⟨_, execPageDone_retries hp, ?_, htimers _ ?_⟩
    · rw [queue_of_queues (hqs.trans (by simp only [wakeHeld, hq, tmap, List.map_cons, List.map_nil]; rfl)), hdiv]
      simp [hheld]
    · simp [retried, hq, hdiv, hmod, hheld]

end Sys2Proof.Laws.Pages
end

section
/-! PROOF. The debugger (R269): the release of a strand held at a fault. -/

namespace Sys2Proof.Laws.Debugging

open Machine

/-- A strand of VD 0 that is held at a fault, and a debugger whose target it is. -/
def heldStrand : State := { strands := [(0, { state := .faultHeld })] }

theorem exec_debugRelease_heldStrand :
    exec (.debugRelease 0) heldStrand = .next (departStopped 0 (dbgDone 0 1 heldStrand)) := rfl

/-- What completes the LAUNCH waits among the operations of the cycle, not in the agenda. -/
theorem agenda_departStopped_heldStrand : (departStopped 0 (dbgDone 0 1 heldStrand)).agenda = [] := rfl

/-- Refutes O57: RELEASE puts the completion of the LAUNCH among the operations of its cycle (`State.soon`), and not into the
agenda, as the last clause says; in `heldStrand` the agenda stays empty. -/
theorem not_debugSteps : ¬ Obligations.DebugSteps := by
  unfold Obligations.DebugSteps
  intro h
  obtain ⟨_, _, _, _, _, _, _, _, _, _, _, _, _, hrelease⟩ := h 0 heldStrand
  obtain ⟨u, hexec, _, hagenda⟩ := hrelease ⟨rfl, rfl⟩ rfl
  rw [exec_debugRelease_heldStrand] at hexec
  cases hexec
  rw [agenda_departStopped_heldStrand] at hagenda
  exact List.not_mem_nil hagenda

end Sys2Proof.Laws.Debugging
end

section
/-! PROOF. The Kallitu Link: flits, acknowledgement and replay, ports, the device id, and routes (R40-R45). -/

namespace Sys2Proof.Laws.Links

open Machine

variable {s : State} {port : Nat} {f : Flit}

theorem port_setPort (s : State) (p : Nat) (k : KlkPort) : (s.setPort p k).port p = k := tget_tset_self ..

/-! ### What leaves through a port -/

theorem emitFlit_eq (p : Nat) (f : Flit) (s : State) : emitFlit p f s = { s with out := (emitFlit p f s).out } := by
  unfold emitFlit
  split <;> rfl

theorem emitFlits_eq (p : Nat) (l : List Flit) (s : State) :
    l.foldl (fun s f => emitFlit p f s) s = { s with out := (l.foldl (fun s f => emitFlit p f s) s).out } := by
  induction l generalizing s with
  | nil => rfl
  | cons f l ih =>
    rw [List.foldl_cons, ih, emitFlit_eq]

theorem sendAck_eq (p : Nat) (nak : Bool) (seq : Nat) (s : State) : sendAck p nak seq s = { s with out := (sendAck p nak seq s).out } :=
  emitFlit_eq ..

theorem klk_sendAck (p : Nat) (nak : Bool) (seq : Nat) (s : State) : (sendAck p nak seq s).klk = s.klk := by
  rw [sendAck_eq]

theorem port_sendAck (p : Nat) (nak : Bool) (seq : Nat) (s : State) (q : Nat) : (sendAck p nak seq s).port q = s.port q := by
  rw [State.port, klk_sendAck, State.port]

theorem agenda_sendAck (p : Nat) (nak : Bool) (seq : Nat) (s : State) : (sendAck p nak seq s).agenda = s.agenda := by
  rw [sendAck_eq]

theorem replayPort_eq (p : Nat) (s : State) : replayPort p s = { s with out := (replayPort p s).out } := by
  unfold replayPort
  dsimp only
  split
  · rfl
  · exact emitFlits_eq ..

theorem replayPort_of_nil (h : (s.port port).replay = []) : replayPort port s = s := by
  unfold replayPort
  dsimp only
  rw [h, List.take_nil]
  exact ite_self _

theorem replayPorts_of_nil (l : List Nat) (h : ∀ p, (s.port p).replay = []) : l.foldl (fun s p => replayPort p s) s = s := by
  induction l with
  | nil => rfl
  | cons p l ih => rw [List.foldl_cons, replayPort_of_nil (h p), ih]

/-- Where nothing waits for a route, a change of ports or routes sends nothing. -/
theorem sendWaiting_of_none (hr : s.klk.reqs = []) (hu : s.klk.unsent = []) : sendWaiting s = s := by
  have hunsent : sendUnsent s = s := by
    unfold sendUnsent
    dsimp only
    rw [hu, List.foldl_nil, ← hu]
  unfold sendWaiting
  dsimp only
  rw [hunsent, hr, List.filter_nil, List.foldl_nil, List.map_nil, ← hr]

/-! ### Flits that arrive (R40-R43) -/

theorem exec_klkFlitReceive_outside (h : s.klk.jn = false) : exec (.klkFlitReceive port f) s = .next s := by
  rw [exec_klkFlitReceive, execKlkFlitReceive, h]
  rfl

theorem exec_klkFlitReceive_bad (hj : s.klk.jn = true) (hbad : flitBad f = true) :
    exec (.klkFlitReceive port f) s = .next (crcFailure port f s) := by
  rw [exec_klkFlitReceive, execKlkFlitReceive, hj, hbad]
  rfl

theorem crcFailure_discards (ha : (s.port port).awaiting ≠ none) (hseq : f.seq.toNat ≠ (s.port port).seqIn) : crcFailure port f s = s :=
  if_pos ⟨Option.isSome_iff_ne_none.2 ha, hseq⟩

/-- The state of a port after a flit that fails its check. -/
def failedOnce (k : KlkPort) : KlkPort := { k with awaiting := some k.seqIn, rxFails := k.rxFails + 1 }

theorem crcFailure_names (h : (s.port port).awaiting = none ∨ f.seq.toNat = (s.port port).seqIn) :
    crcFailure port f s =
      if 8 ≤ (s.port port).rxFails + 1 then (s.setPort port (failedOnce (s.port port))).push (.klkPortDown port)
      else sendAck port true (s.port port).seqIn (s.setPort port (failedOnce (s.port port))) := by
  refine if_neg fun ⟨ha, hseq⟩ => ?_
  rcases h with h | h
  · rw [h] at ha
    exact Bool.false_ne_true ha
  · exact hseq h

theorem port_crcFailure (h : (s.port port).awaiting = none ∨ f.seq.toNat = (s.port port).seqIn) :
    (crcFailure port f s).port port = failedOnce (s.port port)
      ∧ (8 ≤ (s.port port).rxFails + 1 → (crcFailure port f s).agenda = s.agenda ++ [.klkPortDown port]) := by
  rw [crcFailure_names h]
  split
  next => exact ⟨port_setPort .., fun _ => rfl⟩
  next hlt =>
    refine ⟨?_, fun h => absurd h hlt⟩
    rw [port_sendAck, port_setPort]

/-- The state of a port after a good flit in its order. -/
def tookOne (k : KlkPort) : KlkPort := { k with seqIn := (k.seqIn + 1) % 4096, awaiting := none, rxFails := 0 }

theorem exec_klkFlitReceive_good (hj : s.klk.jn = true) (hgood : flitBad f = false) (hkind : f.kind = 0)
    (hseq : f.seq.toNat = (s.port port).seqIn) (hdst : f.dst.toNat ≠ s.klk.dev.toNat) :
    exec (.klkFlitReceive port f) s
      = .next (forwardFlit f (sendAck port false f.seq.toNat (s.setPort port (tookOne (s.port port))))) := by
  rw [exec_klkFlitReceive, execKlkFlitReceive, hj, hgood, hkind]
  dsimp only
  rw [if_neg (by decide), if_neg (by decide), if_neg (by decide), if_neg (by decide), if_neg (fun h => h hseq)]
  refine congrArg Host.Outcome.next (if_neg ?_)
  rw [klk_sendAck]
  exact hdst

/-- Taking a flit changes no route and no port's training. -/
theorem routeUp_took (s : State) (seq d : Nat) :
    routeUp (sendAck port false seq (s.setPort port (tookOne (s.port port)))) d = routeUp s d := by
  unfold routeUp
  rw [klk_sendAck, State.setPort]
  dsimp only
  rw [tget_tset]
  split
  next h => rw [h]; rfl
  next => rfl

/-! ### Acks, naks, and ports (R41) -/

theorem releaseFlits_of_down {n : Nat} (hup : (s.port port).up = false) :
    releaseFlits port n s = s.setPort port { s.port port with replay := (s.port port).replay.drop n } := by
  unfold releaseFlits
  dsimp only
  rw [hup]
  rfl

theorem exec_klkAckReceive_of_down {seq i : Nat} (hup : (s.port port).up = false)
    (hfind : ((s.port port).replay.findIdx? fun f => f.seq.toNat = seq) = some i) :
    ∃ t, exec (.klkAckReceive port seq) s = .next t ∧ (t.port port).replay = (s.port port).replay.drop (i + 1) := by
  have hport : (s.setPort port { s.port port with fails := 0 }).port port = { s.port port with fails := 0 } := port_setPort ..
  have hexec : exec (.klkAckReceive port seq) s = .next (releaseFlits port (i + 1) (s.setPort port { s.port port with fails := 0 })) := by
    rw [exec_klkAckReceive, execKlkAckReceive, hfind]
  refine ⟨_, hexec, ?_⟩
  rw [releaseFlits_of_down (by rw [hport]; exact hup), port_setPort, hport]

theorem exec_klkNakReceive_eighth {seq i : Nat} (hseq : (s.port port).failSeq = seq) (hfails : 7 ≤ (s.port port).fails)
    (hfind : ((s.port port).replay.findIdx? fun f => f.seq.toNat = seq) = some i) :
    ∃ t, exec (.klkNakReceive port seq) s = .next t ∧ (t.port port).replay = (s.port port).replay.drop i
      ∧ t.agenda = s.agenda ++ [.klkPortDown port] := by
  have hexec : exec (.klkNakReceive port seq) s = .next ((s.setPort port { s.port port with
      replay := (s.port port).replay.drop i, failSeq := seq, fails := (s.port port).fails + 1 }).push (.klkPortDown port)) := by
    rw [exec_klkNakReceive, execKlkNakReceive, hfind]
    dsimp only
    rw [if_pos hseq, if_pos (Nat.succ_le_succ hfails)]
  exact ⟨_, hexec, congrArg KlkPort.replay (port_setPort ..), rfl⟩

/-- The state of a port that has gone down. -/
def wentDown (k : KlkPort) : KlkPort := { k with up := false, fails := 0, rxFails := 0 }

theorem exec_klkPortDown_eq (s : State) (port : Nat) :
    exec (.klkPortDown port) s = .next ((s.setPort port (wentDown (s.port port))).afterNs 10000000 (.klkRetrainTimeout port)) := rfl

theorem port_wentDown (s : State) (port : Nat) :
    ((s.setPort port (wentDown (s.port port))).afterNs 10000000 (.klkRetrainTimeout port)).port port = wentDown (s.port port) :=
  port_setPort ..

theorem exec_klkRetrainTimeout_down (h : (s.port port).up = false) :
    exec (.klkRetrainTimeout port) s = .next (s.setPort port { s.port port with dead := true }) := by
  rw [exec_klkRetrainTimeout, execKlkRetrainTimeout]
  dsimp only
  rw [h]
  rfl

theorem exec_klkPortTrained_live (hport : port < 16) (hdead : (s.port port).dead = false) :
    exec (.klkPortTrained port) s = .next
      (sendWaiting (replayPort port ((s.setPort port { s.port port with up := true }).cancel (.klkRetrainTimeout port)))) := by
  rw [exec_klkPortTrained, execKlkPortTrained]
  dsimp only
  rw [hdead, if_neg (by simp; omega)]

theorem portTrained_spec (hr : s.klk.reqs = []) (hu : s.klk.unsent = []) (k : KlkPort) :
    let t := sendWaiting (replayPort port ((s.setPort port k).cancel (.klkRetrainTimeout port)))
    t.port port = k ∧ ∀ x ∈ t.nsTimers, x.2 ≠ .klkRetrainTimeout port := by
  dsimp only
  rw [replayPort_eq, sendWaiting_of_none (by exact hr) (by exact hu)]
  exact ⟨port_setPort .., fun x hx => of_decide_eq_true (List.mem_filter.1 hx).2⟩

/-! ### Device id and routes (R43, R44) -/

theorem exec_hbKlkIdWrite_free {v : BitVec 64} (hwin : anyWindow s = false) (hr : s.klk.reqs = []) (hu : s.klk.unsent = [])
    (h : s.klk.jn = true ∨ ∀ p, (s.port p).replay = []) :
    exec (.hbKlkIdWrite v) s = .next { s with klk := { s.klk with dev := v.extractLsb' 0 10, jn := v.getLsbD 10 } } := by
  rw [exec_hbKlkIdWrite, execHbKlkIdWrite, hwin, if_neg Bool.false_ne_true]
  dsimp only
  generalize hu' : ({ s with klk := { s.klk with dev := v.extractLsb' 0 10, jn := v.getLsbD 10 } } : State) = u
  have hsend : sendWaiting u = u := sendWaiting_of_none (by rw [← hu']; exact hr) (by rw [← hu']; exact hu)
  split
  next => rw [hsend]
  next hj =>
    have hnil : ∀ p, (u.port p).replay = [] := by
      rw [← hu']
      exact h.resolve_left hj
    rw [replayPorts_of_nil _ hnil, hsend]

theorem route_setRoute (dst : Nat) (r : Route) (s : State) : tget {} (setRoute dst r s).klk.routes dst = r := tget_tset_self ..

theorem sentTo_of_none (h : s.klk.reqs = []) (dst : Nat) : sentTo s dst = false := by
  rw [sentTo, h]
  rfl

/-- A route that is set where nothing waits. -/
theorem sendWaiting_setRoute (hr : s.klk.reqs = []) (hu : s.klk.unsent = []) (dst : Nat) (r : Route) :
    sendWaiting (setRoute dst r s) = setRoute dst r s := sendWaiting_of_none hr hu

theorem exec_routeChangeApply_held {dst : Nat} (h : sentTo s dst = true) : exec (.routeChangeApply dst) s = .next s := by
  rw [exec_routeChangeApply, execRouteChangeApply, h]
  exact congrArg Host.Outcome.next (by split <;> rfl)

/-! ### Requests that are not answered in time (R45) -/

theorem timedOut_read {q : RemoteReq} {n : Nat} (h : q.req.op = .read n) (free : Nat) :
    (timedOut q free).status = 0 ∧ (timedOut q free).data.length = n ∧ ∀ i < (n + 126) / 64, i ∈ (timedOut q free).poison := by
  unfold timedOut
  rw [h]
  exact ⟨rfl, (List.length_map _).trans List.length_range, fun i hi => List.mem_range.2 hi⟩

theorem timedOut_other {q : RemoteReq} (h : ∀ n, q.req.op ≠ .read n) (free : Nat) : (timedOut q free).status = 0x13 := by
  unfold timedOut
  split
  next n hop => exact absurd hop (h n)
  next => rfl

theorem exec_klkRequestTimeout_xfer {rid tid : Nat} {q : RemoteReq} (hfind : (s.klk.reqs.find? fun r => r.rid = rid) = some q)
    (hwhy : q.why = .xfer tid) :
    exec (.klkRequestTimeout rid) s
      = .next (State.push { s with free := s.free + (timedOut q s.free).data.length } (.transferLanding tid (some (timedOut q s.free)))) := by
  have hans : ∀ r u, answered q r u = u.push (.transferLanding tid (some r)) := fun r u => by rw [answered, hwhy]
  rw [exec_klkRequestTimeout, execKlkRequestTimeout, hfind]
  dsimp only
  rw [hwhy, hans]

/-- Settles O46: each event of the link through its own equation. -/
theorem fabricLink : Obligations.FabricLink := by
  unfold Obligations.FabricLink
  intro s
  refine ⟨fun port f => exec_klkFlitReceive_outside, fun port f hj hbad ha hseq => ?discards, fun port f hj hbad h => ?fails,
    fun port f hj hgood hkind hseq hdst hroute => ?forwards, fun port seq i => exec_klkAckReceive_of_down,
    fun port seq i => exec_klkNakReceive_eighth, fun port => ?down, fun port hport hdead hr hu => ?trained, fun port hdead => ?dead,
    fun port hup => ?timeout, fun port hup => ?timeoutUp, fun v hwin => ?window, fun v => exec_hbKlkIdWrite_free, fun dst v hsent => ?routeHeld,
    fun dst v hr hu => ?route, fun dst p v hr hu hnext => ?change, fun dst => exec_routeChangeApply_held, fun rid q tid hfind hwhy => ?late⟩
  case discards => rw [exec_klkFlitReceive_bad hj hbad, crcFailure_discards ha hseq]
  case fails =>
    obtain ⟨hport, hagenda⟩ := port_crcFailure h
    refine ⟨_, exec_klkFlitReceive_bad hj hbad, ?_⟩
    rw [hport]
    exact ⟨rfl, rfl, rfl, hagenda⟩
  case forwards =>
    refine ⟨_, exec_klkFlitReceive_good hj hgood hkind hseq hdst, ?_⟩
    rw [forwardFlit, if_neg (by rw [routeUp_took, hroute]; exact Bool.false_ne_true), port_sendAck, port_setPort, agenda_sendAck]
    exact ⟨rfl, rfl, rfl, rfl⟩
  case down =>
    refine ⟨_, exec_klkPortDown_eq s port, ?_⟩
    rw [port_wentDown]
    exact ⟨rfl, rfl, rfl⟩
  case trained =>
    obtain ⟨hk, hcancel⟩ := portTrained_spec hr hu { s.port port with up := true }
    exact ⟨_, exec_klkPortTrained_live hport hdead, congrArg KlkPort.up hk, hcancel⟩
  case dead =>
    rw [exec_klkPortTrained, execKlkPortTrained]
    exact congrArg Host.Outcome.next (if_pos (.inl hdead))
  case timeout =>
    refine ⟨_, exec_klkRetrainTimeout_down hup, ?_⟩
    rw [port_setPort]
  case timeoutUp =>
    rw [exec_klkRetrainTimeout, execKlkRetrainTimeout]
    exact congrArg Host.Outcome.next (if_pos hup)
  case window =>
    rw [exec_hbKlkIdWrite, execHbKlkIdWrite, hwin]
    rfl
  case routeHeld =>
    refine ⟨_, by rw [exec_hbKlkRouteWrite, execHbKlkRouteWrite, if_pos hsent], route_setRoute ..⟩
  case route =>
    refine ⟨_, by rw [exec_hbKlkRouteWrite, execHbKlkRouteWrite, sentTo_of_none hr, sendWaiting_setRoute hr hu]; rfl, route_setRoute ..⟩
  case change =>
    refine ⟨_, by rw [exec_routeChangeApply, execRouteChangeApply, hnext, sentTo_of_none hr]; dsimp only; rw [sendWaiting_setRoute hr hu]; rfl, route_setRoute ..⟩
  case late =>
    exact ⟨_, timedOut q s.free, exec_klkRequestTimeout_xfer hfind hwhy, rfl, fun n h => timedOut_read h _, fun h => timedOut_other h _⟩

end Sys2Proof.Laws.Links
end

section
/-! PROOF. Requests of peers at this hub, and fabric barriers (R34, R48-R53, R226, R230). -/

namespace Sys2Proof.Laws.Peers

open Machine
open Posting (Posted)

variable {s u : State} {r : PeerReq} {x : Torn}

/-! ### Requests that are not performed at once (R34, R49, R51) -/

/-- A request that this hub has not met. -/
def Fresh (s : State) (r : PeerReq) : Prop := isPull s r = false ∧ r ∉ s.klk.busyPeer ∧ ∀ x ∈ s.klk.readyPeer, x.1 ≠ r

/-- A VD that takes requests of peers. -/
def Takes (s : State) (r : PeerReq) : Prop :=
  hasVd s r.tcid = true ∧ (s.vd r.tcid).closing = false ∧ (s.vd r.tcid).state ≠ .stopped

/-- No request of the source owner and class of `r` stands before it. -/
def First (s : State) (r : PeerReq) : Prop :=
  ∀ x ∈ s.klk.busyPeer ++ s.klk.waitPeer, ¬ (x.src = r.src ∧ x.scid = r.scid ∧ x.cls = r.cls)

theorem peerShut_iff : peerShut s r.tcid = true ↔ ¬ Takes s r := by
  unfold peerShut Takes
  cases hasVd s r.tcid <;> cases (s.vd r.tcid).closing <;> simp

theorem peerShut_of_takes (h : Takes s r) : peerShut s r.tcid = false := by
  rw [← Bool.not_eq_true, peerShut_iff]
  exact not_not_intro h

theorem ready_none (h : ∀ x ∈ s.klk.readyPeer, x.1 ≠ r) : s.klk.readyPeer.find? (·.1 = r) = none :=
  List.find?_eq_none.2 fun x hx => by simp [h x hx]

theorem exec_fresh (h : Fresh s r) : exec (.peerRequestArrival r) s = .next (newPeer r s) := by
  obtain ⟨_, hbusy, hready⟩ := h
  have hcontains : s.klk.busyPeer.contains r = false := by simpa using hbusy
  rw [exec_peerRequestArrival, execPeerRequestArrival, ready_none hready, hcontains]
  rfl

theorem newPeer_denied (hpull : isPull s r = false) (h : ¬ Takes s r ∨ ∀ a ∈ actsOf s r.src r.tcid, grants s r a = false) :
    newPeer r s = refusePeer r .transferAccess (recordDenial r s) := by
  rw [newPeer, hpull, if_neg Bool.false_ne_true, if_pos]
  rcases h with h | h
  · rw [peerShut_iff.2 h]
    rfl
  · have : (actsOf s r.src r.tcid).any (fun a => grants s r a) = false := List.any_eq_false.2 fun a ha => by simp [h a ha]
    rw [this]
    simp

theorem recordDenial_room (h : s.klk.deny.length < 64) : recordDenial r s = { s with klk := { s.klk with
    deny := s.klk.deny ++ [{ src := r.src, scid := r.scid, tcid := r.tcid, kind := denyKind s r, va := r.va }] } } := by
  rw [recordDenial]
  exact if_neg (Nat.not_le.2 h)

/-- A request that an entry of HB_ACT grants waits for what stands before it, or performs. -/
theorem newPeer_granted {a : ActEntry} (hpull : isPull s r = false) (hopen : Takes s r) (ha : a ∈ actsOf s r.src r.tcid)
    (hg : grants s r a = true) :
    newPeer r s = if (s.klk.busyPeer ++ s.klk.waitPeer).any (samePeer r) then
        { s with klk := { s.klk with waitPeer := s.klk.waitPeer ++ [r] } }
      else performGranted r (busyWith r s) := by
  have hany : (actsOf s r.src r.tcid).any (fun a => grants s r a) = true := List.any_eq_true.2 ⟨a, ha, hg⟩
  rw [newPeer, hpull, if_neg Bool.false_ne_true, peerShut_of_takes hopen, hany, if_neg (by decide)]

theorem any_samePeer : (s.klk.busyPeer ++ s.klk.waitPeer).any (samePeer r) = true ↔ ¬ First s r := by
  rw [List.any_eq_true, First]
  push Not
  refine exists_congr fun x => and_congr_right fun _ => ?_
  rw [samePeer, decide_eq_true_iff]
  exact and_congr eq_comm (and_congr eq_comm eq_comm)

theorem exec_waits {a : ActEntry} (hf : Fresh s r) (hopen : Takes s r) (ha : a ∈ actsOf s r.src r.tcid) (hg : grants s r a = true)
    (hfirst : ¬ First s r) :
    exec (.peerRequestArrival r) s = .next { s with klk := { s.klk with waitPeer := s.klk.waitPeer ++ [r] } } := by
  rw [exec_fresh hf, newPeer_granted hf.1 hopen ha hg, if_pos (any_samePeer.2 hfirst)]

theorem exec_performs {a : ActEntry} (hf : Fresh s r) (hopen : Takes s r) (ha : a ∈ actsOf s r.src r.tcid) (hg : grants s r a = true)
    (hfirst : First s r) : exec (.peerRequestArrival r) s = .next (performGranted r (busyWith r s)) := by
  rw [exec_fresh hf, newPeer_granted hf.1 hopen ha hg, if_neg fun h => any_samePeer.1 h hfirst]

/-- A granted request that goes on. -/
theorem exec_going (hbusy : r ∈ s.klk.busyPeer) (hready : ∀ x ∈ s.klk.readyPeer, x.1 ≠ r) (hopen : Takes s r) :
    exec (.peerRequestArrival r) s = .next (performGranted r s) := by
  have hcontains : s.klk.busyPeer.contains r = true := by simpa using hbusy
  rw [exec_peerRequestArrival, execPeerRequestArrival, ready_none hready, hcontains, peerShut_of_takes hopen]
  rfl

theorem exec_ready {st : Nat} (h : s.klk.readyPeer.find? (fun x => decide (x.1 = r)) = some (r, st)) :
    exec (.peerRequestArrival r) s = .next (peerDone r { status := st, data := [], poison := [] } s) := by
  rw [exec_peerRequestArrival, execPeerRequestArrival, h]

/-! ### Requests that perform (R49, R51, R226) -/

theorem performGranted_plain (h : scRequest r.op = false) (s : State) : performGranted r s = performPeer r s := by
  rw [performGranted, h]
  rfl

theorem performGranted_waits {c : Nat} (h : scRequest r.op = true) (hslot : fabricSlot s = some c) :
    performGranted r s = s.at c (.peerRequestArrival r) := by
  rw [performGranted, h, hslot]
  rfl

theorem performPeer_notify {q : Nat} {v : W32} (h : r.op = .notify q v) (hs : suspended s r.tcid q = false) :
    performPeer r s = ({ s with klk := { s.klk with readyPeer := s.klk.readyPeer ++ [(r, 0)] } }).pushAll
      [.notify r.tcid q v, .peerRequestArrival r] := by
  unfold performPeer
  rw [h]
  dsimp only
  rw [peerNotify, hs]
  rfl

theorem performPeer_read {n : Nat} (h : r.op = .read n) (s : State) : performPeer r s = peerRead r n s := by
  unfold performPeer
  rw [h]

theorem performPeer_write {d : List Byte} {p : List Nat} (h : r.op = .write d p) (hpush : isPush s r d = false) :
    performPeer r s = peerWrite r d p s := by
  unfold performPeer
  rw [h]
  dsimp only
  rw [hpush]
  rfl

theorem torn_none (h : ∀ y ∈ s.klk.tornPeer, y.1 ≠ r) : s.klk.tornPeer.find? (·.1 = r) = none :=
  List.find?_eq_none.2 fun x hx => by simp [h x hx]

theorem peerRead_first {n : Nat} (ht : ∀ y ∈ s.klk.tornPeer, y.1 ≠ r) (h : vreadFirst (translate s r.tcid · false) s r.va n = .ok (u, x)) :
    peerRead r n s = tearPeer r x u := by
  rw [peerRead, torn_none ht]
  dsimp only
  rw [h]

theorem peerRead_rest {n : Nat} (h : s.klk.tornPeer.find? (fun y => decide (y.1 = r)) = some (r, x)) :
    peerRead r n s = peerDone r { status := 0, data := (getRest x s).1, poison := (getRest x s).2 }
      (peerEnergy r n (countRead s r.tcid r.va n)) := by
  rw [peerRead, h]

theorem peerWrite_first {d : List Byte} {p : List Nat} (ht : ∀ y ∈ s.klk.tornPeer, y.1 ≠ r)
    (h : vwriteFirst (translate s r.tcid · true) s r.va d p = .ok (u, x)) : peerWrite r d p s = tearPeer r x u := by
  rw [peerWrite, torn_none ht]
  dsimp only
  rw [h]

theorem peerWrite_rest {d : List Byte} {p : List Nat} (h : s.klk.tornPeer.find? (fun y => decide (y.1 = r)) = some (r, x)) :
    peerWrite r d p s = peerDone r { status := 0, data := [], poison := [] } (peerEnergy r d.length (putRest x d p s)) := by
  rw [peerWrite, h]

/-! A granted request is noted before it performs: that changes nothing of what it does to memory. -/

theorem pwrite_busyWith (r : PeerReq) (s : State) (pa : Nat) (b : List Byte) (p : List Nat) (d : Bool) :
    pwrite (busyWith r s) pa b p d = busyWith r (pwrite s pa b p d) := by
  unfold pwrite
  dsimp only
  split <;> rfl

theorem vreadFirst_busyWith {tr : Xlate} {va n : Nat} (h : vreadFirst tr s va n = .ok (u, x)) :
    vreadFirst tr (busyWith r s) va n = .ok (busyWith r u, x) := by
  unfold vreadFirst at h ⊢
  split at h
  · cases h
  next l ht =>
    cases h
    rfl

theorem writeWords_busyWith (r : PeerReq) (sel : Nat → Bool) (l : List (Nat × Nat × Bool)) (i : Nat) (b : List Byte) (s : State) :
    writeWords sel i l b (busyWith r s) = busyWith r (writeWords sel i l b s) := by
  induction l generalizing i b s with
  | nil => rfl
  | cons y l ih =>
    obtain ⟨pa, n, dt⟩ := y
    rw [writeWords, writeWords, ← ih, pwrite_busyWith]
    refine congrArg (writeWords sel (i + 1) l (b.drop n)) ?_
    split <;> rfl

theorem vwriteFirst_busyWith {tr : Xlate} {va : Nat} {b : List Byte} {p : List Nat} (h : vwriteFirst tr s va b p = .ok (u, x)) :
    vwriteFirst tr (busyWith r s) va b p = .ok (busyWith r u, x) := by
  unfold vwriteFirst at h ⊢
  split at h
  · cases h
  next l ht =>
    cases h
    unfold putFirst
    dsimp only
    rw [show (busyWith r s).free = s.free from rfl, writeWords_busyWith]
    rfl

/-- A granted access of which a first part has performed, in the state `t`, with the rest to follow after cycle `c`. -/
def TornTo (r : PeerReq) (x : Torn) (c : Nat) (t : State) : Prop :=
  (r, x) ∈ t.klk.tornPeer ∧ r ∈ t.klk.busyPeer ∧ ∃ n, c < n ∧ (n, .peerRequestArrival r) ∈ t.timers

theorem tearPeer_spec (r : PeerReq) (x : Torn) (u : State) :
    let t := tearPeer r x (busyWith r u)
    t = { u with free := t.free, timers := t.timers, klk := t.klk } ∧ TornTo r x u.cycle t := by
  refine ⟨rfl, List.mem_append_right _ (List.mem_singleton_self _), List.mem_append_right _ (List.mem_singleton_self _),
    u.cycle + 1 + Config.hubCycles u.free, by omega, List.mem_append_right _ (List.mem_singleton_self _)⟩

/-! ### Barriers (R52, R53) -/

/-- Two states that differ at most in what the sending of flits changes. -/
def Sends (s t : State) : Prop :=
  t = { s with klk := { s.klk with ports := t.klk.ports, unsent := t.klk.unsent }, out := t.out } ∧ ∀ y ∈ s.out, y ∈ t.out

theorem Sends.refl (s : State) : Sends s s := ⟨rfl, fun _ h => h⟩

theorem Sends.of_eq {t : State} {ports : Tab KlkPort} {unsent : List Flit} {out : List Out}
    (h : t = { s with klk := { s.klk with ports := ports, unsent := unsent }, out := out }) (hout : ∀ y ∈ s.out, y ∈ out) : Sends s t := by
  subst h
  exact ⟨rfl, hout⟩

theorem Sends.trans {t v : State} (h : Sends s t) (h' : Sends t v) : Sends s v := by
  obtain ⟨heq, hout⟩ := h
  obtain ⟨heq', hout'⟩ := h'
  refine .of_eq (ports := v.klk.ports) (unsent := v.klk.unsent) (out := v.out) ?_ fun y hy => hout' y (hout y hy)
  rw [heq] at heq'
  exact heq'

theorem Sends.klk {t : State} (h : Sends s t) :
    t.klk.arrivals = s.klk.arrivals ∧ t.klk.dev = s.klk.dev ∧ t.agenda = s.agenda := by
  rw [h.1]
  exact ⟨rfl, rfl, rfl⟩

theorem sends_emit (y : Out) (s : State) : Sends s (s.emit y) := .of_eq rfl fun _ h => List.mem_append_left _ h

theorem sends_sendFlit (p : Nat) (f : Flit) (s : State) : Sends s (sendFlit p f s) := by
  unfold sendFlit emitFlit
  dsimp only
  split
  · split
    · exact .of_eq rfl fun _ h => List.mem_append_left _ h
    · exact .of_eq rfl fun _ h => h
  · exact .of_eq rfl fun _ h => h

theorem sends_sendPayloads (kind dst cid cls : Nat) (ps : List (List Byte)) (s : State) :
    Sends s (sendPayloads kind dst cid cls ps s) := by
  have hall : ∀ (p : State → Nat) (l : List Flit) (u : State), Sends u (l.foldl (fun s f => sendFlit (p s) f s) u) := by
    intro p l
    induction l with
    | nil => exact .refl
    | cons f l ih => exact fun u => (sends_sendFlit (p u) f u).trans (ih _)
  unfold sendPayloads
  dsimp only
  split
  · exact hall (fun s => (tget {} s.klk.routes dst).port.toNat) _ s
  · exact .of_eq rfl fun _ h => h

/-- What the releases of a generation to the devices of a list leave. -/
def Released (gid gen : Nat) (l : List Nat) (s t : State) : Prop :=
  t.klk.arrivals = s.klk.arrivals ∧ t.klk.dev = s.klk.dev ∧ (∀ y ∈ s.out, y ∈ t.out)
    ∧ t.agenda = s.agenda ++ (if s.klk.dev.toNat ∈ l then [.barrierRelease gid gen] else [])
    ∧ ∀ d ∈ l, d ≠ s.klk.dev.toNat → .release gid gen d ∈ t.out

theorem released_sendRelease (gid gen d : Nat) (s : State) : Released gid gen [d] s (sendRelease gid gen d s) := by
  unfold sendRelease
  split
  next h =>
    refine ⟨rfl, rfl, fun _ hy => hy, ?_, fun e he hne => absurd (List.mem_singleton.1 he ▸ h) hne⟩
    rw [if_pos (by rw [h]; exact List.mem_singleton_self _)]
    rfl
  next h =>
    have hs := (sends_emit (.release gid gen d) s).trans (sends_sendPayloads 2 d 0 0 [Config.barrierPayload true gid gen] _)
    obtain ⟨harr, hdev, hag⟩ := hs.klk
    refine ⟨harr, hdev, hs.2, ?_, fun e he _ => ?_⟩
    · rw [if_neg fun hm => h (List.mem_singleton.1 hm).symm, List.append_nil]
      exact hag
    · rw [List.mem_singleton.1 he]
      exact (sends_sendPayloads ..).2 _ (List.mem_append_right _ (List.mem_singleton_self _))

theorem released_all (gid gen : Nat) (l : List Nat) (hnd : l.Nodup) (s : State) :
    Released gid gen l s (l.foldl (fun s d => sendRelease gid gen d s) s) := by
  induction l generalizing s with
  | nil => exact ⟨rfl, rfl, fun _ h => h, (List.append_nil _).symm, fun _ h => absurd h List.not_mem_nil⟩
  | cons d l ih =>
    obtain ⟨hd, hl⟩ := List.nodup_cons.1 hnd
    obtain ⟨harr, hdev, hout, hag, hrel⟩ := released_sendRelease gid gen d s
    obtain ⟨harr', hdev', hout', hag', hrel'⟩ := ih hl (sendRelease gid gen d s)
    rw [hdev] at hag' hrel'
    refine ⟨harr'.trans harr, hdev'.trans hdev, fun y hy => hout' y (hout y hy), ?_, fun e he hne => ?_⟩
    · rw [List.foldl_cons, hag', hag, List.append_assoc]
      refine congrArg (s.agenda ++ ·) ?_
      by_cases h : s.klk.dev.toNat = d
      · rw [h]
        simp [hd]
      · simp [h]
    · rcases List.mem_cons.1 he with rfl | he
      · exact hout' _ (hrel _ (List.mem_singleton_self _) hne)
      · exact hrel' e he hne

theorem pairwise_sins (a : Nat) (l : List Nat) (h : l.Pairwise (· < ·)) : (sins a l).Pairwise (· < ·) := by
  induction l with
  | nil => exact List.pairwise_singleton ..
  | cons b l ih =>
    obtain ⟨hb, hl⟩ := List.pairwise_cons.1 h
    rw [sins]
    split
    next hab => exact List.pairwise_cons.2 ⟨fun c hc => (List.mem_cons.1 hc).elim (fun e => e ▸ hab) fun hc => hab.trans (hb c hc), h⟩
    next hab =>
      split
      next => exact h
      next hne =>
        refine List.pairwise_cons.2 ⟨fun c hc => ?_, ih hl⟩
        rcases Issuing.mem_sins.1 hc with rfl | hc
        · omega
        · exact hb c hc

theorem nodup_sall (l : List Nat) : (sall l []).Nodup := by
  have hsorted : ∀ s : List Nat, s.Pairwise (· < ·) → (sall l s).Pairwise (· < ·) := by
    induction l with
    | nil => exact fun s h => h
    | cons a l ih => exact fun s h => ih _ (pairwise_sins a s h)
  exact (hsorted [] .nil).imp fun h => Nat.ne_of_lt h

section Arrivals

variable {gid gen dev : Nat}

/-- The arrivals of one generation of a group. -/
def ofGen (gid gen : Nat) (l : List (Nat × Nat × Nat)) : List (Nat × Nat × Nat) :=
  l.filter fun x => decide (x.1 = gid ∧ x.2.1 = gen)

theorem exec_barrierArrival_early (h : (ofGen gid gen s.klk.arrivals).length + 1 < groupSize s gid) :
    exec (.barrierArrival gid gen dev) s = .next { s with klk := { s.klk with arrivals := s.klk.arrivals ++ [(gid, gen, dev)] } } := by
  have hlen : (ofGen gid gen (s.klk.arrivals ++ [(gid, gen, dev)])).length < groupSize s gid := by
    rw [ofGen, List.filter_append, List.length_append]
    simpa [ofGen] using h
  rw [exec_barrierArrival, execBarrierArrival]
  dsimp only
  rw [if_neg (by omega)]
  exact congrArg Host.Outcome.next (if_pos hlen)

theorem exec_barrierArrival_last (h0 : groupSize s gid ≠ 0)
    (h : groupSize s gid ≤ (ofGen gid gen (s.klk.arrivals ++ [(gid, gen, dev)])).length) :
    exec (.barrierArrival gid gen dev) s = .next
      ((sall ((ofGen gid gen (s.klk.arrivals ++ [(gid, gen, dev)])).map (·.2.2)) []).foldl (fun s d => sendRelease gid gen d s)
        { s with klk := { s.klk with
            arrivals := (s.klk.arrivals ++ [(gid, gen, dev)]).filter fun x => !decide (x.1 = gid ∧ x.2.1 = gen) } }) := by
  rw [exec_barrierArrival, execBarrierArrival]
  dsimp only
  rw [if_neg h0]
  exact congrArg Host.Outcome.next (if_neg (Nat.not_lt.2 h))

theorem mem_devices {l : List (Nat × Nat × Nat)} {d : Nat} : d ∈ sall ((ofGen gid gen l).map (·.2.2)) [] ↔ (gid, gen, d) ∈ l := by
  rw [Issuing.mem_sall]
  simp [ofGen]

/-- The strand that a release reaches. -/
theorem endRequest_strands (q : RemoteReq) (s : State) : (endRequest q s).strands = s.strands := by
  unfold endRequest
  dsimp only
  split <;> rfl

theorem exec_barrierRelease_one {sid : Nat} {t : Strand} (hs : s.strands = [(sid, t)]) (hg5 : t.g5 = true) (hgid : t.gid = gid)
    (hgen : t.gen = gen) (hrel : t.released = false) :
    ∃ u, exec (.barrierRelease gid gen) s = .next u ∧ (u.strand sid).released = true ∧ (u.strand sid).relAt = s.cycle := by
  have hfilter : (s.strands.filter fun (_, t) => t.g5 && decide (t.gid = gid ∧ t.gen = gen) && !t.released) = [(sid, t)] := by
    rw [hs]
    simp [hg5, hgid, hgen, hrel]
  have hstrand : s.strand sid = t := by
    rw [State.strand, hs]
    exact Pages.tget_single ..
  rw [exec_barrierRelease, execBarrierRelease, hfilter, List.foldl_cons, List.foldl_nil]
  dsimp only
  rw [hstrand]
  refine ⟨_, rfl, ?_⟩
  generalize hu : s.setStrand sid { t with released := true, relAt := s.cycle } = u
  have hdone : (u.strand sid).released = true ∧ (u.strand sid).relAt = s.cycle := by
    rw [← hu, State.strand_setStrand, if_pos rfl]
    exact ⟨rfl, rfl⟩
  split
  · rw [State.strand, endRequest_strands]
    exact hdone
  · exact hdone

theorem exec_barrierRelease_none (h : ∀ x ∈ s.strands, x.2.gid ≠ gid ∨ x.2.gen ≠ gen) : exec (.barrierRelease gid gen) s = .next s := by
  have hfilter : (s.strands.filter fun (_, t) => t.g5 && decide (t.gid = gid ∧ t.gen = gen) && !t.released) = [] := by
    refine List.filter_eq_nil_iff.2 fun x hx => ?_
    rcases h x hx with h | h <;> simp [h]
  rw [exec_barrierRelease, execBarrierRelease, hfilter]
  rfl

end Arrivals

/-- Settles O47: a request is denied, waits, or performs (`exec_fresh`, `newPeer_granted`); a barrier's releases go out one by one
(`released_all`). -/
theorem peerRequests : Obligations.PeerRequests := by
  unfold Obligations.PeerRequests
  intro s
  refine ⟨fun r hf hshut hroom => ?denied, fun r a hf hopen ha hg hfirst => exec_waits hf hopen ha hg hfirst,
    fun r q v hf hopen hfirst hop hsus ⟨a, ha, hntf, hmask⟩ => ?notify, fun r st => exec_ready,
    fun r n u x hf hopen hfirst hop hsealed ⟨a, ha, hrd⟩ htorn hread => ?read, fun r n x ⟨hbusy, hready, hopen⟩ hop htorn => ?readRest,
    fun r d p u x hf hopen hfirst hop hpush htorn ⟨a, ha, hwr⟩ hwrite => ?write,
    fun r d p x ⟨hbusy, hready, hopen⟩ hop hpush htorn => ?writeRest, fun r a c hf hopen hfirst ha hg hsc hslot => ?wheel,
    fun gid gen dev h0 => ?noRoot, fun gid gen dev => exec_barrierArrival_early, fun gid gen dev h0 hlast => ?last,
    fun gid gen sid t => exec_barrierRelease_one, fun gid gen => exec_barrierRelease_none⟩
  case denied => rw [exec_fresh hf, newPeer_denied hf.1 hshut, recordDenial_room hroom]
  case notify =>
    have hg : grants s r a = true := by
      unfold grants
      rw [hop]
      simp [hntf, hmask]
    rw [exec_performs hf hopen ha hg hfirst, performGranted_plain (by rw [hop]; rfl), performPeer_notify hop (by exact hsus)]
    rfl
  case read =>
    have hg : grants s r a = true := by
      unfold grants
      rw [hop]
      simp [hrd, hsealed]
    have hpart : performGranted r (busyWith r s) = tearPeer r x (busyWith r u) := by
      rw [performGranted_plain (by rw [hop]; rfl), performPeer_read hop]
      exact peerRead_first htorn (vreadFirst_busyWith hread)
    have hstate := HostAccess.vreadFirst_state hread
    obtain ⟨_, ht⟩ := tearPeer_spec r x u
    refine ⟨_, (exec_performs hf hopen ha hg hfirst).trans (congrArg Host.Outcome.next hpart), ?_, ?_⟩
    · rw [hstate]
      rfl
    · rw [hstate] at ht ⊢
      exact ht
  case readRest =>
    rw [exec_going hbusy hready hopen, performGranted_plain (by rw [hop]; rfl), performPeer_read hop, peerRead_rest htorn]
    exact ⟨_, rfl, rfl⟩
  case write =>
    have hg : grants s r a = true := by
      unfold grants
      rw [hop]
      simp [hwr]
    have hpart : performGranted r (busyWith r s) = tearPeer r x (busyWith r u) := by
      rw [performGranted_plain (by rw [hop]; rfl), performPeer_write hop (by exact hpush)]
      exact peerWrite_first htorn (vwriteFirst_busyWith hwrite)
    obtain ⟨hspec, ht⟩ := tearPeer_spec r x u
    refine ⟨_, (exec_performs hf hopen ha hg hfirst).trans (congrArg Host.Outcome.next hpart), hspec, ?_⟩
    rw [HostAccess.vwriteFirst_cycle hwrite] at ht
    exact ht
  case writeRest =>
    rw [exec_going hbusy hready hopen, performGranted_plain (by rw [hop]; rfl), performPeer_write hop hpush, peerWrite_rest htorn]
    exact ⟨_, rfl, rfl⟩
  case wheel =>
    rw [exec_performs hf hopen ha hg hfirst, performGranted_waits hsc (by exact hslot)]
    rfl
  case noRoot =>
    rw [exec_barrierArrival, execBarrierArrival]
    exact congrArg Host.Outcome.next (if_pos h0)
  case last =>
    obtain ⟨harr, hdev, hout, hag, hrel⟩ := released_all gid gen
      (sall ((ofGen gid gen (s.klk.arrivals ++ [(gid, gen, dev)])).map (·.2.2)) []) (nodup_sall _)
      { s with klk := { s.klk with
          arrivals := (s.klk.arrivals ++ [(gid, gen, dev)]).filter fun x => !decide (x.1 = gid ∧ x.2.1 = gen) } }
    refine ⟨_, exec_barrierArrival_last h0 hlast, harr, ?_, fun d hd hne => hrel d (mem_devices.2 hd) hne⟩
    rw [hag]
    exact congrArg (s.agenda ++ ·) (if_congr mem_devices rfl rfl)

end Sys2Proof.Laws.Peers
end

section
/-! PROOF. Notifies, the enable and disable of queues, fetching, aging, and completion queues (R29, R57, R58, R65-R76). -/

namespace Sys2Proof.Laws.Queueing

open Machine
open Posting (Posted)
open HostAccess (queue_setQueue_self)

variable {s t u : State} {fn q : Nat}

/-! ### Notifies, enable and disable (R57, R58, R65) -/

theorem queue_afterNs (s : State) (d : Nat) (i : Instr) (fn q : Nat) : (s.afterNs d i).queue fn q = s.queue fn q := rfl

theorem queue_modQueue (s : State) (fn q : Nat) (f : Queue → Queue) : (s.modQueue fn q f).queue fn q = f (s.queue fn q) :=
  queue_setQueue_self ..

theorem exec_notify_dropped (v : BitVec 32) (h : takesWork s fn = false) : exec (.notify fn q v) s = .next s := by
  rw [exec_notify, execNotify, h]
  rfl

theorem exec_notify_held (v : BitVec 32) (h : takesWork s fn = true) (hs : suspended s fn q = true) :
    exec (.notify fn q v) s
      = .next (s.setQueue fn q { s.queue fn q with heldOps := (s.queue fn q).heldOps ++ [.notify fn q v] }) := by
  rw [exec_notify, execNotify, h, hs]
  rfl

theorem exec_notify_error (v : BitVec 32) (h : takesWork s fn = true) (hs : suspended s fn q = false) (hstate : (s.queue fn q).state = 2) :
    exec (.notify fn q v) s = .next (s.setQueue fn q { s.queue fn q with widx := v }) := by
  rw [exec_notify, execNotify, h, hs]
  dsimp only
  rw [if_neg (by decide), if_neg (by decide), if_neg (by rw [hstate]; decide), if_pos hstate]

theorem exec_notify_active (v : BitVec 32) (h : takesWork s fn = true) (hs : suspended s fn q = false) (hstate : (s.queue fn q).state = 1) :
    exec (.notify fn q v) s
      = .next (validateRing fn q (s.setQueue fn q { s.queue fn q with widx := v, idle := false, torn := none })) := by
  rw [exec_notify, execNotify, h, hs]
  dsimp only
  rw [if_neg (by decide), if_neg (by decide), if_neg (by rw [hstate]; decide), if_neg (by rw [hstate]; decide)]

theorem validateRing_violation {x : Queue} {e : Nat} (h : ringViolation fn x = some e) :
    validateRing fn q (s.setQueue fn q x) = queueError fn q e (x.widx.setWidth 64) (s.setQueue fn q x) := by
  rw [validateRing, queue_setQueue_self, h]

theorem validateRing_good {x : Queue} (h : ringViolation fn x = none) :
    validateRing fn q (s.setQueue fn q x) = if x.ridx ≠ x.widx then (s.setQueue fn q x).soon (.packetFetch fn q) else s.setQueue fn q x := by
  rw [validateRing, queue_setQueue_self, h]

theorem queue_validateRing {x : Queue} (h : ringViolation fn x = none) : (validateRing fn q (s.setQueue fn q x)).queue fn q = x := by
  rw [validateRing_good h]
  split <;> exact queue_setQueue_self ..

/-- A queue in error: its head is gone, its indices stay. -/
theorem queue_queueError (s : State) (status : Nat) (data : W64) :
    (queueError fn q status data s).queue fn q = { s.queue fn q with state := 2 }.noHead := by
  rw [queueError, (Posting.posted_ecqPost ..).queue]
  refine (queue_modQueue ..).trans ?_
  rw [queue_modQueue]

theorem exec_queueDisable_spec (s : State) (fn q : Nat) :
    ∃ t, exec (.queueDisable fn q) s = .next t ∧ (t.queue fn q).state = 0 ∧ (t.queue fn q).ridx = (s.queue fn q).ridx
      ∧ (t.queue fn q).widx = (s.queue fn q).widx := by
  let x : Queue := { s.queue fn q with state := 0, held := none, torn := none }
  have hx : (s.modQueue fn q fun x => { x with state := 0, held := none, torn := none }).queue fn q = x := queue_modQueue ..
  have hdrop : (dropHead fn q (s.modQueue fn q fun x => { x with state := 0, held := none, torn := none })).queue fn q = x.noHead := by
    refine (queue_modQueue ..).trans ?_
    rw [hx]
  refine ⟨_, rfl, ?_⟩
  split
  · rw [hx]
    exact ⟨rfl, rfl, rfl⟩
  · rw [hdrop]
    exact ⟨rfl, rfl, rfl⟩

/-! ### Fetching (R64, R66) -/

theorem exec_packetFetch_waits (ht : (s.queue fn q).torn = none) (h : mayFetch s fn q = false) : exec (.packetFetch fn q) s = .next s := by
  rw [exec_packetFetch, execPacketFetch, ht, h]
  rfl

theorem mayFetch_of_held {p : Nat} (h : (s.queue fn q).held = some p) : mayFetch s fn q = false := by
  unfold mayFetch
  dsimp only
  rw [h]
  simp

theorem exec_packetFetch_begins (ht : (s.queue fn q).torn = none) (h : mayFetch s fn q = true) :
    exec (.packetFetch fn q) s = .next (ringBegin fn q s) := by
  rw [exec_packetFetch, execPacketFetch, ht, h]
  rfl

theorem exec_packetFetch_ends {y : Torn} (ht : (s.queue fn q).torn = some y) (h : takesWork s fn = true) :
    exec (.packetFetch fn q) s = .next (ringEnd fn q y s) := by
  rw [exec_packetFetch, execPacketFetch, ht, h]
  rfl

theorem sideFirst_state {host : Bool} {a n : Nat} {y : Torn} (h : sideFirst s fn host a n = .ok (u, y)) : u = { s with free := u.free } := by
  unfold sideFirst at h
  split at h
  · cases h
    rfl
  · exact HostAccess.vreadFirst_state h

theorem posted_hostReads (fn a n : Nat) (ido : Bool) (s : State) : Posted s (hostReads fn a n ido s) :=
  Posted.foldl (fun s _ => Posting.posted_hostTlp s ..) _ s

theorem mem_hostReads (fn a n : Nat) (ido : Bool) (s : State) : (hostReads fn a n ido s).mem = s.mem :=
  foldl_eq (fun (s : State) (x : Nat × Nat) => hostTlp fn false x.1 x.2 ido s) State.mem (fun _ _ => rfl) _ s

/-- The first part of the read of a packet. -/
theorem ringBegin_spec {y : Torn}
    (h : sideFirst s fn (s.queue fn q).host ((s.queue fn q).rbase.toNat * 4096 + (s.queue fn q).ridx.toNat % 2 ^ (s.queue fn q).size.toNat * 64) 64
      = .ok (u, y)) :
    ∃ n, (ringBegin fn q s).mem = s.mem
      ∧ (ringBegin fn q s).queue fn q = { s.queue fn q with
          torn := some y
          headAt := ((s.queue fn q).host, (s.queue fn q).rbase.toNat * 4096 + (s.queue fn q).ridx.toNat % 2 ^ (s.queue fn q).size.toNat * 64)
          headCq := (s.queue fn q).cq, headEcq := (s.queue fn q).ecq, headPrio := (s.queue fn q).prio }
      ∧ s.cycle < n ∧ (n, .packetFetch fn q) ∈ (ringBegin fn q s).timers := by
  have hstate := sideFirst_state h
  unfold ringBegin Queue.slotAt
  dsimp only
  rw [h]
  dsimp only
  generalize hw : (if (s.queue fn q).host = true then
    hostReads fn ((s.queue fn q).rbase.toNat * 4096 + (s.queue fn q).ridx.toNat % 2 ^ (s.queue fn q).size.toNat * 64) 64 true u else u) = w
  have hcycle : w.cycle = s.cycle := by
    rw [← hw, hstate]
    split
    · exact (posted_hostReads ..).cycle
    · rfl
  have hmem : w.mem = s.mem := by
    rw [← hw, hstate]
    split
    · exact mem_hostReads ..
    · rfl
  refine ⟨w.cycle + 1 + Config.hubCycles w.free, hmem, queue_setQueue_self .., ?_, ?_⟩
  · rw [hcycle]
    omega
  · exact List.mem_append_right _ (List.mem_singleton_self _)

/-- The state in which a packet whose bytes are there is looked at. -/
def readDone (fn q : Nat) (s : State) : State :=
  let (host, a) := (s.queue fn q).headAt
  let s := chargeOper s (sideEnergy s fn host a 64)
  let s := if host ∨ fn = 0 then s else countRead s fn a 64
  s.modQueue fn q fun x => { x with torn := none }

theorem queue_readDone (s : State) (fn q : Nat) : (readDone fn q s).queue fn q = { s.queue fn q with torn := none } := by
  unfold readDone
  dsimp only
  rw [queue_modQueue]
  split <;> rfl

theorem valid_readDone (s : State) (fn q : Nat) (p : Packet) : p.valid (readDone fn q s) fn = p.valid s fn := by
  unfold readDone
  dsimp only
  split <;> rfl

theorem ringEnd_of_clean {y : Torn} {b : List Byte} (h : sideRest y (s.queue fn q).headAt.1 (s.queue fn q).headAt.2 64 s = (b, [])) :
    ringEnd fn q y s =
      if !(packetOf b).w0.getLsbD 0 then (readDone fn q s).modQueue fn q fun x => { x with idle := true }
      else if !(packetOf b).valid (readDone fn q s) fn then startAndEnd fn q (packetOf b) 0x0103 (readDone fn q s)
      else (readDone fn q s).modQueue fn q fun x => { x with head := some (packetOf b), tried := false } := by
  have hclean : ¬ ((s.queue fn q).headAt.1 = true ∧ ([] : List Nat) ≠ []) := fun h => h.2 rfl
  unfold ringEnd
  dsimp only
  rw [h]
  dsimp only
  rw [if_neg hclean, if_neg (show ¬ (!([] : List Nat).isEmpty) = true by decide)]
  rfl

/-! A read whose bytes nothing writes between its parts finds them as one read does. -/

theorem tiles_lineParts (a n : Nat) : Parts.Tiles a (a + n) (lineParts a n) := by
  rw [Parts.lineParts_eq]
  exact Parts.tiles_blocks (by decide) a n

/-- The sum of the words of the lines of a range. -/
theorem sum_words_lines (a n : Nat) {f : Nat × Nat → Nat × Nat × Bool} (hf : ∀ p, (f p).2.1 = p.2) :
    ((wordsOf ((lineParts a n).map f)).map fun x => x.2.1).sum = n := by
  have hlen := (tiles_lineParts a n).sum
  rw [Parts.sum_words, List.map_map]
  have hmap : ((lineParts a n).map ((fun x : Nat × Nat × Bool => x.2.1) ∘ f)) = (lineParts a n).map (·.2) :=
    List.map_congr_left fun p _ => hf p
  rw [hmap]
  omega

theorem cgets_append {w : Nat} (m : Cells w) (a n k : Nat) : cgets m a (n + k) = cgets m a n ++ cgets m (a + n) k := by
  induction n generalizing a with
  | zero => rw [Nat.zero_add]; rfl
  | succ n ih => rw [Nat.succ_add, cgets, cgets, ih, List.cons_append, Nat.add_right_comm]; rfl

theorem readParts_tiles {a b : Nat} {l : List (Nat × Nat × Bool)} (h : Parts.Tiles a b (l.map Parts.piece)) (s : State) :
    (readParts s l).1 = pread s a (b - a) := by
  induction l generalizing a with
  | nil =>
    have hab : a = b := h
    rw [hab, Nat.sub_self]
    rfl
  | cons x l ih =>
    obtain ⟨hx, hl⟩ := h
    have hb := hl.sum
    have hcons : (readParts s (x :: l)).1 = pread s x.1 x.2.1 ++ (readParts s l).1 := rfl
    have hxa : x.1 = a := hx
    rw [hcons, ih hl, hxa, pread, pread, pread]
    rw [show b - a = x.2.1 + (b - (a + x.2.1)) by omega, cgets_append]

theorem translateAll_mf {l : List (Nat × Nat)} {r : List (Nat × Nat × Bool)} (h : translateAll (fnXlate s 0 false) l = .ok r) :
    r.map Parts.piece = l := by
  induction l generalizing r with
  | nil =>
    cases h
    rfl
  | cons p l ih =>
    obtain ⟨va, n⟩ := p
    unfold translateAll at h
    split at h
    · cases h
    next pa dt ha =>
      split at h
      · cases h
      next r' hr =>
        cases h
        have hpa : pa = va := by
          unfold fnXlate at ha
          rw [if_neg (by decide)] at ha
          split at ha
          · cases ha
            rfl
          · cases ha
        rw [List.map_cons, ih hr, hpa]
        rfl

theorem sideRest_sideFirst {host : Bool} {a n : Nat} {y : Torn} {b : List Byte × List Nat} (h : sideFirst s fn host a n = .ok (u, y))
    (hb : fnRead s fn host a n = .ok b) : (sideRest y host a n u).1 = b.1 := by
  unfold sideFirst at h
  cases host with
  | true =>
    rw [if_pos rfl] at h
    cases h
    cases hb
    refine (Parts.mixWords_self ..).trans ?_
    rw [show (newTorn ((lineParts a n).map fun x => (x.1, x.2, false)) s).lines = (lineParts a n).map fun x => (x.1, x.2, false) from rfl,
      sum_words_lines a n fun _ => rfl]
    exact List.take_of_length_le (Nat.le_of_eq (Parts.length_cgets ..))
  | false =>
    rw [if_neg Bool.false_ne_true] at h
    unfold vreadFirst at h
    split at h
    · cases h
    next lines hl =>
      have hread : (sideRest y false a n u).1 = (readParts s lines).1 := by
        cases h
        exact Parts.getRest_getFirst lines s
      rw [hread]
      unfold fnRead at hb
      rw [if_neg Bool.false_ne_true] at hb
      by_cases h0 : fn = 0
      · subst h0
        rw [if_pos rfl] at hb
        split at hb
        · cases hb
          rw [readParts_tiles (a := a) (b := a + n) (by rw [translateAll_mf hl]; exact tiles_lineParts a n), Nat.add_sub_cancel_left]
        · cases hb
      · rw [if_neg h0] at hb
        have hx : fnXlate s fn false = (translate s fn · false) := funext fun va => if_pos h0
        rw [hx] at hl
        unfold vread vreadBy at hb
        rw [hl] at hb
        cases hb
        rfl

/-! ### Aging (R69) -/

theorem headOf_of_head {p : Packet} {k : Nat} (hw : takesWork s fn = true) (hp : (s.queue fn q).head = some p) (hk : p.type = k) :
    headOf s fn q k = some p := by
  rw [headOf, hw, hp, if_pos rfl]
  simp [hk]

theorem exec_launchAgingStep_awaits {p : Packet} (hw : takesWork s fn = true) (hp : (s.queue fn q).head = some p) (hk : p.type = 1)
    (ha : (s.queue fn q).awaits = true) :
    exec (.launchAgingStep fn q) s = .next ((s.modQueue fn q fun x =>
      { x with aging := min (x.aging + 1) (7 - x.headPrio.toNat), tried := false }).afterNs 10000000 (.launchAgingStep fn q)) := by
  rw [exec_launchAgingStep, execLaunchAgingStep, headOf_of_head hw hp hk]
  dsimp only
  rw [ha]
  rfl

/-! ### Completion queues (R73, R76) -/

theorem cq_setCq_self (s : State) (fn n : Nat) (c : Cq) : (s.setCq fn n c).cq fn n = c := tget_tset_self ..

/-- A write that sets EN of a completion queue. -/
theorem exec_cqEnable_on {v : BitVec 64} (hoff : (s.cq fn q).en = false) (hon : v.getLsbD 5 = true) :
    exec (.cqEnable fn q v) s = .next
      (if (decide ((s.cq fn q).base.extractLsb' 0 8 = 0) && decide (4 ≤ (v.extractLsb' 0 4).toNat)) = true then
        s.setCq fn q { s.cq fn q with
          size := v.extractLsb' 0 4, host := v.getLsbD 4, en := true, widx := 0, ovf := (s.cq fn q).ovf && !v.getLsbD 6
          vec := v.extractLsb' 8 6, cnt := v.extractLsb' 16 8, tmr := v.extractLsb' 24 10 }
      else s) := by
  rw [exec_cqEnable]
  unfold execCqEnable
  dsimp only
  rw [hoff, hon, if_neg Bool.false_ne_true, if_neg Bool.false_ne_true]
  cases (decide ((s.cq fn q).base.extractLsb' 0 8 = 0) && decide (4 ≤ (v.extractLsb' 0 4).toNat)) <;> rfl

theorem msix_unmasked (vec : Nat) (h : ∀ i, (s.fn fn).masks i = false) :
    msix fn vec s = s.emit (.msix fn (if 33 ≤ fn then vec % 16 else vec)) := by
  unfold msix
  dsimp only
  rw [h, if_neg Bool.false_ne_true]

/-- Settles O48: each step by its own equation; what a packet's read finds is what one read finds (`sideRest_sideFirst`). -/
theorem queueSteps : Obligations.QueueSteps := by
  unfold Obligations.QueueSteps
  intro fn q s
  refine ⟨fun v => exec_notify_dropped v, fun v => exec_notify_held v, fun v h hstate hs => exec_notify_error v h hs hstate,
    fun v h hstate hs hgood hne => ?notify, fun v e h hstate hs hbad => ?violation, fun hstate hgood => ?enable, fun hstate => ?enabled,
    exec_queueDisable_spec s fn q, fun p hheld ht => exec_packetFetch_waits ht (mayFetch_of_held hheld),
    fun u y hstate hs hhead hidle hheld hne ht hw hvd hfirst => ?begins, fun y b ht hw hhead hrest => ?ends,
    fun host a n u y b h hb => sideRest_sideFirst h hb, fun p hw hp hk ha => ?ages, fun v hoff hon hbase hsize => ?cqOn,
    fun v hoff hon hbad => ?cqBad, fun h0 => ?idle, fun h0 hmask => ?tells⟩
  case notify =>
    have hx : ringViolation fn { s.queue fn q with widx := v, idle := false, torn := none } = none := hgood
    refine ⟨_, exec_notify_active v h hs hstate, queue_validateRing hx, ?_⟩
    rw [validateRing_good hx, if_pos hne]
    rfl
  case violation =>
    have hx : ringViolation fn { s.queue fn q with widx := v, idle := false, torn := none } = some e := hbad
    refine ⟨_, exec_notify_active v h hs hstate, ?_⟩
    rw [validateRing_violation hx, queue_queueError, queue_setQueue_self]
    exact ⟨rfl, rfl, rfl⟩
  case enable =>
    refine ⟨validateRing fn q (s.setQueue fn q { s.queue fn q with state := 1, idle := false }), ?_, queue_validateRing hgood⟩
    rw [exec_queueEnable, execQueueEnable]
    exact congrArg Host.Outcome.next (if_neg fun h => h hstate)
  case enabled =>
    rw [exec_queueEnable, execQueueEnable]
    exact congrArg Host.Outcome.next (if_pos hstate)
  case begins =>
    have hmay : mayFetch s fn q = true := by
      unfold mayFetch
      simp [hstate, hs, hhead, hidle, hheld, hne, hw, hvd]
    obtain ⟨n, hspec⟩ := ringBegin_spec hfirst
    exact ⟨_, n, exec_packetFetch_begins ht hmay, hspec⟩
  case ends =>
    refine ⟨fun hv => ⟨_, exec_packetFetch_ends ht hw, ?_⟩, fun hv hvalid => ⟨_, exec_packetFetch_ends ht hw, ?_⟩⟩
    · rw [ringEnd_of_clean hrest, hv, Bool.not_false, if_pos rfl, queue_modQueue, queue_readDone]
      exact ⟨rfl, hhead, rfl⟩
    · rw [ringEnd_of_clean hrest, hv, valid_readDone, hvalid, Bool.not_true, if_neg Bool.false_ne_true, if_neg Bool.false_ne_true,
        queue_modQueue, queue_readDone]
      exact ⟨rfl, rfl⟩
  case ages =>
    refine ⟨_, exec_launchAgingStep_awaits hw hp hk ha, ?_, rfl⟩
    rw [queue_afterNs, queue_modQueue]
  case cqOn =>
    refine ⟨_, exec_cqEnable_on hoff hon, ?_⟩
    rw [if_pos (Bool.and_eq_true_iff.2 ⟨decide_eq_true hbase, decide_eq_true hsize⟩), cq_setCq_self]
    exact ⟨rfl, rfl, rfl, rfl, rfl, rfl⟩
  case cqBad =>
    refine (exec_cqEnable_on hoff hon).trans (congrArg Host.Outcome.next (if_neg fun h => ?_))
    obtain ⟨hbase, hsize⟩ := Bool.and_eq_true_iff.1 h
    exact hbad.elim (fun h => h (of_decide_eq_true hbase)) fun h => Nat.not_le.2 h (of_decide_eq_true hsize)
  case idle =>
    rw [exec_cqCoalesceTimeout, execCqCoalesceTimeout]
    exact congrArg Host.Outcome.next (if_pos h0)
  case tells =>
    rw [exec_cqCoalesceTimeout, execCqCoalesceTimeout]
    refine congrArg Host.Outcome.next ((if_neg h0).trans ?_)
    exact msix_unmasked _ hmask

end Sys2Proof.Laws.Queueing
end

section
/-! PROOF. Packets that start, wait, invalidate, copy and complete (R66-R72, R78, R212). -/

namespace Sys2Proof.Laws.Packets

open Machine
open Posting (Posted)
open HostAccess (queue_setQueue_self)
open Queueing (queue_modQueue headOf_of_head)

variable {s t u : State} {fn q : Nat} {p : Packet}

/-! ### Packets that start (R66, R67) -/

/-- What the packet's slot in the ring becomes, of the frame of a post. -/
theorem retire_eq (fn q : Nat) (s : State) : ∃ u, Posted s u
    ∧ retire fn q s = State.soon { dropHead fn q (u.modQueue fn q fun x => { x with ridx := x.ridx + 1 }) with rot := 64 * fn + q }
        (.packetFetch fn q) := by
  unfold retire
  dsimp only
  split
  · split
    next hw => exact ⟨_, Posting.posted_fnWrite hw, rfl⟩
    next => exact ⟨_, .refl s, rfl⟩
  · exact ⟨_, .refl s, rfl⟩

/-- A packet has started: its queue has gone past it. -/
def Started (fn q : Nat) (s t : State) : Prop :=
  (t.queue fn q).ridx = (s.queue fn q).ridx + 1 ∧ (t.queue fn q).head = none

theorem queue_dropHead (fn q : Nat) (s : State) : (dropHead fn q s).queue fn q = (s.queue fn q).noHead := queue_modQueue ..

/-- Two states that differ at most in their queues, the rotation among them, and timers. -/
def Turns (s t : State) : Prop :=
  t = { s with queues := t.queues, rot := t.rot, timers := t.timers, nsTimers := t.nsTimers, due := t.due }

theorem Turns.of_eq {qs : Tab Queue} {r : Nat} {ts ns : List (Nat × Instr)} {d : List Instr}
    (h : t = { s with queues := qs, rot := r, timers := ts, nsTimers := ns, due := d }) : Turns s t := by
  subst h
  rfl

theorem Turns.trans (h : Turns s t) (h' : Turns t u) : Turns s u := by
  rw [Turns, h] at h'
  exact .of_eq h'

theorem turns_modQueue (fn q : Nat) (f : Queue → Queue) (s : State) : Turns s (s.modQueue fn q f) := rfl
theorem turns_cancel (i : Instr) (s : State) : Turns s (s.cancel i) := rfl
theorem turns_soon (r : Nat) (i : Instr) (s : State) : Turns s (State.soon { s with rot := r } i) := rfl

theorem turns_dropHead (fn q : Nat) (s : State) : Turns s (dropHead fn q s) :=
  (turns_modQueue ..).trans ((turns_cancel ..).trans (turns_cancel ..))

theorem turns_retired (fn q : Nat) (f : Queue → Queue) (r : Nat) (i : Instr) (u : State) :
    Turns u (State.soon { dropHead fn q (u.modQueue fn q f) with rot := r } i) :=
  (turns_modQueue ..).trans ((turns_dropHead ..).trans (turns_soon ..))

theorem queue_retired (fn q : Nat) (f : Queue → Queue) (r : Nat) (i : Instr) (u : State) :
    (State.soon { dropHead fn q (u.modQueue fn q f) with rot := r } i).queue fn q = (f (u.queue fn q)).noHead := by
  rw [← queue_modQueue u fn q f, ← queue_dropHead]
  rfl

theorem Turns.runs (h : Turns s t) : t.runs = s.runs := by rw [h]
theorem Turns.cycle (h : Turns s t) : t.cycle = s.cycle := by rw [h]
theorem Turns.xfers (h : Turns s t) : t.xfers = s.xfers := by rw [h]

theorem startPacket_spec (fn q : Nat) (p : Packet) (s : State) :
    Started fn q s (startPacket fn q p s).1 ∧ (startPacket fn q p s).1.runs = s.runs ++ [newRun fn q p s]
      ∧ (startPacket fn q p s).1.cycle = s.cycle ∧ (startPacket fn q p s).1.xfers = s.xfers := by
  obtain ⟨u, hu, hret⟩ := retire_eq fn q { s with runs := s.runs ++ [newRun fn q p s], nextRun := s.nextRun + 1 }
  have hq := queue_retired fn q (fun x => { x with ridx := x.ridx + 1 }) (64 * fn + q) (.packetFetch fn q) u
  have ht := turns_retired fn q (fun x => { x with ridx := x.ridx + 1 }) (64 * fn + q) (.packetFetch fn q) u
  rw [← hret] at hq ht
  have hst : (startPacket fn q p s).1 = retire fn q { s with runs := s.runs ++ [newRun fn q p s], nextRun := s.nextRun + 1 } := rfl
  rw [hst, Started, hq, ht.runs, ht.cycle, ht.xfers, hu.runs, hu.cycle, hu.xfers, hu.queue]
  exact ⟨⟨rfl, rfl⟩, rfl, rfl, rfl⟩

/-- A packet has started and completes with a status. -/
def Completes (fn q : Nat) (p : Packet) (s t : State) (status : Nat) : Prop :=
  Started fn q s t ∧ ∃ r ∈ t.runs, r.fn = fn ∧ r.q = q ∧ r.pkt = p ∧ r.status = status ∧ r.ended = true
    ∧ (s.cycle, .packetCompletion r.id) ∈ t.timers

theorem mem_setRun {r x : Run} (hr : r ∈ s.runs) (hid : r.id = x.id) : x ∈ (setRun x s).runs :=
  List.mem_map.2 ⟨r, hr, if_pos hid⟩

theorem completes_startAndEnd (fn q : Nat) (p : Packet) (status : Nat) (s : State) :
    Completes fn q p s (startAndEnd fn q p status s) status := by
  obtain ⟨hstarted, hruns, hcycle, _⟩ := startPacket_spec fn q p s
  have hmem : newRun fn q p s ∈ (startPacket fn q p s).1.runs := by
    rw [hruns]
    exact List.mem_append_right _ (List.mem_singleton_self _)
  rw [startAndEnd]
  generalize (startPacket fn q p s).1 = t at hstarted hcycle hmem ⊢
  refine ⟨hstarted, { newRun fn q p s with status := status, data := 0, ended := true }, mem_setRun hmem rfl, rfl, rfl, rfl, rfl, rfl, ?_⟩
  rw [← hcycle]
  exact List.mem_append_right _ (List.mem_singleton_self _)

section Head

variable (hp : (s.queue fn q).head = some p) (hw : takesWork s fn = true)
include hp hw

theorem exec_nopPacket_starts (hk : p.type = 0) (hb : blockedByB s fn q p = false) :
    exec (.nopPacket fn q) s = .next (startAndEnd fn q p 0 s) := by
  rw [exec_nopPacket, execNopPacket, headOf_of_head hw hp hk]
  dsimp only
  rw [hb, if_neg Bool.false_ne_true]

theorem exec_nopPacket_blocked (hk : p.type = 0) (hb : blockedByB s fn q p = true) :
    exec (.nopPacket fn q) s = .next (passOver fn q s) := by
  rw [exec_nopPacket, execNopPacket, headOf_of_head hw hp hk]
  dsimp only
  rw [hb, if_pos rfl]

theorem exec_signalPacket_starts (hk : p.type = 3) (hb : blockedByB s fn q p = false) :
    exec (.signalPacket fn q) s = .next (startAndEnd fn q p 0 s) := by
  rw [exec_signalPacket, execSignalPacket, headOf_of_head hw hp hk]
  dsimp only
  rw [hb, if_neg Bool.false_ne_true]

theorem exec_launchPacket_examined (hk : p.type = 1) (hb : blockedByB s fn q p = false) (hv : (s.vd fn).state ≠ .failed) :
    exec (.launchPacket fn q) s = .next (s.push (.admissionAttempt fn q)) := by
  rw [exec_launchPacket, execLaunchPacket, headOf_of_head hw hp hk]
  dsimp only
  rw [hb, if_neg Bool.false_ne_true, if_neg hv]

theorem exec_launchPacket_failed (hk : p.type = 1) (hb : blockedByB s fn q p = false) (hv : (s.vd fn).state = .failed) :
    exec (.launchPacket fn q) s = .next (startAndEnd fn q p (s.vd fn).failStatus s) := by
  rw [exec_launchPacket, execLaunchPacket, headOf_of_head hw hp hk]
  dsimp only
  rw [hb, if_neg Bool.false_ne_true, if_pos hv]

theorem exec_copyPacket_empty (hk : p.type = 4) (hb : blockedByB s fn q p = false) (hn : p.w5 = 0) :
    exec (.copyPacket fn q) s = .next (startAndEnd fn q p 0 s) := by
  rw [exec_copyPacket, execCopyPacket, headOf_of_head hw hp hk]
  dsimp only
  rw [hb, if_neg Bool.false_ne_true, if_pos hn]

theorem exec_copyPacket_starts (hk : p.type = 4) (hb : blockedByB s fn q p = false) (hn : p.w5 ≠ 0) :
    exec (.copyPacket fn q) s = .next ((startPacket fn q p s).1.push (.copyChunk s.nextRun)) := by
  rw [exec_copyPacket, execCopyPacket, headOf_of_head hw hp hk]
  dsimp only
  rw [hb, if_neg Bool.false_ne_true, if_neg hn]
  rfl

theorem exec_waitPacket_met (hk : p.type = 2) (hmet : (s.queue fn q).waitMet = true) :
    exec (.waitPacket fn q) s = .next (startAndEnd fn q p 0 s) := by
  rw [exec_waitPacket, execWaitPacket, headOf_of_head hw hp hk]
  dsimp only
  rw [hmet, if_pos rfl]

/-- The transfers that an INVAL waits for: those that have used a translation which it names. -/
def usedOf (p : Packet) (s : State) : List Xfer :=
  s.xfers.filter fun x =>
    decide (x.cid = p.w1.toNat) && x.translated && meetsPages (p.w2.toNat, p.w5.toNat) (dva x.ereg) x.deviceBytes

theorem exec_invalPacket_starts (hk : p.type = 6) (hb : blockedByB s fn q p = false) :
    ∃ t, exec (.invalPacket fn q) s = .next t ∧ Started fn q s t
      ∧ ∃ r ∈ t.runs, r.pkt = p ∧ .invalCompletion r.id ∈ t.agenda ∧ r.waits = (usedOf p s).map (·.tid) := by
  obtain ⟨hstarted, hruns, _, hxfers⟩ := startPacket_spec fn q p s
  generalize hst : (startPacket fn q p s).1 = t at hstarted hruns hxfers
  let r : Run := { newRun fn q p s with waits := (usedOf p s).map (·.tid), tears := tearsOf t p.w1.toNat }
  let v := setRun r (tlbInval p.w1.toNat (p.w2.toNat, p.w5.toNat) t)
  have hexec : exec (.invalPacket fn q) s = .next ((settleFrames v).push (.invalCompletion s.nextRun)) := by
    rw [exec_invalPacket, execInvalPacket, headOf_of_head hw hp hk]
    dsimp only
    rw [hb, if_neg Bool.false_ne_true, hst, hxfers]
    rfl
  have hz : Pages.Zeroed v (settleFrames v) := Pages.zeroed_settleFrames v
  have hmem : newRun fn q p s ∈ t.runs := by
    rw [hruns]
    exact List.mem_append_right _ (List.mem_singleton_self _)
  refine ⟨_, hexec, ?_, r, ?_, rfl, List.mem_append_right _ (List.mem_singleton_self _), rfl⟩
  · rw [hz]
    exact hstarted
  · rw [hz]
    exact mem_setRun (s := tlbInval p.w1.toNat (p.w2.toNat, p.w5.toNat) t) hmem rfl

end Head

/-! ### WAIT (R70) -/

theorem phase_of_cfeSlot (h : cfeSlot s = none) : s.phase = 1 := by
  unfold cfeSlot at h
  split at h
  next hc => exact hc.1
  next => cases h

theorem atCfeSlot_free (i : Instr) (f : State → State) (h : cfeSlot s = none) : atCfeSlot i f s = f { s with wheel := (s.cycle, s.wheel.2) } := by
  rw [atCfeSlot, h]

theorem atCfeSlot_later {c : Nat} (i : Instr) (f : State → State) (h : cfeSlot s = some c) : atCfeSlot i f s = s.at c i := by
  rw [atCfeSlot, h]

theorem cfeTurn_now (i : Instr) (h : s.phase = 1) : cfeTurn i s = { s with due := s.due ++ [i] } := if_pos h

/-- The state in which a WAIT has read its signal. -/
def readSignal (fn q : Nat) (p : Packet) (s : State) : State :=
  cfeRead fn (signalVa p.w3) 8 (rereadLater fn q { s.cancel (.waitReread fn q) with wheel := (s.cycle, s.wheel.2) })

theorem waitLocal_reads {b : List Byte} (hsig : s.sigHeld = []) (hread : signalRead s fn (signalVa p.w3) 8 = .ok (b, [])) :
    waitLocal fn q p s = waitResult fn q p (some (BitVec.ofNat 64 (leNat b))) (cfeRead fn (signalVa p.w3) 8 (rereadLater fn q s)) := by
  unfold waitLocal
  dsimp only
  rw [hsig, hread]
  rfl

theorem waitNow_reads {b : List Byte} (hheld : (s.queue fn q).waitHeld = none) (hlocal : localSignal fn p.w3 = true) (hslot : cfeSlot s = none)
    (hsig : s.sigHeld = []) (hread : fnRead s fn false (signalVa p.w3) 8 = .ok (b, [])) :
    waitNow fn q p s = waitResult fn q p (some (BitVec.ofNat 64 (leNat b))) (readSignal fn q p s) := by
  have hslot' : cfeSlot (s.cancel (.waitReread fn q)) = none := hslot
  unfold waitNow
  rw [hheld, hlocal, if_neg (by decide), if_pos rfl, atCfeSlot_free _ _ hslot']
  exact waitLocal_reads hsig hread

/-- A read by the CFE counts in meters and accounts, and changes nothing else. -/
theorem cfeRead_spec (cid va n : Nat) (s : State) :
    (cfeRead cid va n s).queues = s.queues ∧ (cfeRead cid va n s).phase = s.phase ∧ (cfeRead cid va n s).mem = s.mem
      ∧ (cfeRead cid va n s).nsTimers = s.nsTimers ∧ (cfeRead cid va n s).due = s.due := ⟨rfl, rfl, rfl, rfl, rfl⟩

theorem rereadLater_spec (fn q : Nat) (s : State) :
    (rereadLater fn q s).queues = s.queues ∧ (rereadLater fn q s).phase = s.phase ∧ (rereadLater fn q s).mem = s.mem
      ∧ (s.ref + 1000, .waitReread fn q) ∈ (rereadLater fn q s).nsTimers ∧ ∀ j ∈ (rereadLater fn q s).due, j ∈ s.due :=
  ⟨rfl, rfl, rfl, List.mem_append_right _ (List.mem_singleton_self _), fun _ hj => (List.mem_filter.1 hj).1⟩

theorem readSignal_spec (fn q : Nat) (p : Packet) (s : State) :
    (readSignal fn q p s).queues = s.queues ∧ (readSignal fn q p s).phase = s.phase ∧ (readSignal fn q p s).mem = s.mem
      ∧ (s.ref + 1000, .waitReread fn q) ∈ (readSignal fn q p s).nsTimers ∧ ∀ j ∈ (readSignal fn q p s).due, j ∈ s.due := by
  obtain ⟨hq, hph, hmem, hns, hdue⟩ := rereadLater_spec fn q { s.cancel (.waitReread fn q) with wheel := (s.cycle, s.wheel.2) }
  obtain ⟨hq', hph', hmem', hns', hdue'⟩ := cfeRead_spec fn (signalVa p.w3) 8
    (rereadLater fn q { s.cancel (.waitReread fn q) with wheel := (s.cycle, s.wheel.2) })
  unfold readSignal
  rw [hq', hph', hmem', hns', hdue']
  exact ⟨hq, hph, hmem, hns, fun j hj => (List.mem_filter.1 (hdue j hj)).1⟩

/-- What a WAIT's read of its signal leaves. -/
def WaitRead (fn q : Nat) (p : Packet) (v : W64) (s t : State) : Prop :=
  (t.queue fn q).head = (s.queue fn q).head ∧ t.mem = s.mem ∧ (s.ref + 1000, .waitReread fn q) ∈ t.nsTimers
    ∧ (v.toInt ≤ p.w5.toInt → (t.queue fn q).waitMet = true ∧ .waitPacket fn q ∈ t.due)
    ∧ (p.w5.toInt < v.toInt → (t.queue fn q).waitMet = (s.queue fn q).waitMet ∧ ∀ j ∈ t.due, j ∈ s.due)

theorem queue_setDue (s : State) (d : List Instr) (fn q : Nat) : ({ s with due := d } : State).queue fn q = s.queue fn q := rfl

theorem waitResult_spec (fn q : Nat) (p : Packet) (v : W64) (s : State) (hphase : s.phase = 1) :
    WaitRead fn q p v s (waitResult fn q p (some v) (readSignal fn q p s)) := by
  obtain ⟨hqs, hph, hmem, hns, hdue⟩ := readSignal_spec fn q p s
  generalize readSignal fn q p s = u at hqs hph hmem hns hdue
  have hq : u.queue fn q = s.queue fn q := by
    rw [State.queue, hqs]
    rfl
  unfold waitResult WaitRead
  dsimp only
  split
  next hle =>
    rw [cfeTurn_now _ (by exact hph.trans hphase), queue_setDue, queue_modQueue, hq]
    exact ⟨rfl, hmem, hns, fun _ => ⟨rfl, List.mem_append_right _ (List.mem_singleton_self _)⟩, fun hlt => absurd hle (Int.not_le.2 hlt)⟩
  next hgt =>
    rw [queue_modQueue, hq]
    exact ⟨rfl, hmem, hns, fun hle => absurd hle hgt, fun _ => ⟨rfl, hdue⟩⟩

theorem exec_wait_reads {b : List Byte} (hp : (s.queue fn q).head = some p) (hw : takesWork s fn = true) (hk : p.type = 2)
    (hb : blockedByB s fn q p = false) (hmet : (s.queue fn q).waitMet = false) (hheld : (s.queue fn q).waitHeld = none)
    (hlocal : localSignal fn p.w3 = true) (hslot : cfeSlot s = none) (hsig : s.sigHeld = [])
    (hread : fnRead s fn false (signalVa p.w3) 8 = .ok (b, [])) {i : Instr} (hi : i ∈ [Instr.waitPacket fn q, .waitReread fn q]) :
    ∃ t, exec i s = .next t ∧ WaitRead fn q p (BitVec.ofNat 64 (leNat b)) s t := by
  have hphase := phase_of_cfeSlot hslot
  have hreread : exec (.waitReread fn q) s = .next (waitNow fn q p s) := by
    rw [exec_waitReread, execWaitReread, headOf_of_head hw hp hk]
    dsimp only
    rw [hb, hmet]
    rfl
  have hpass : (passOver fn q s).queue fn q = { s.queue fn q with tried := true } := queue_modQueue ..
  have hwait : exec (.waitPacket fn q) s = .next (waitNow fn q p (passOver fn q s)) := by
    rw [exec_waitPacket, execWaitPacket, headOf_of_head hw hp hk]
    dsimp only
    rw [hmet, hb]
    rfl
  rcases List.mem_pair.1 hi with rfl | rfl
  · have hspec := waitResult_spec fn q p (BitVec.ofNat 64 (leNat b)) (passOver fn q s) hphase
    refine ⟨_, hwait.trans (congrArg Host.Outcome.next (waitNow_reads (by rw [hpass]; exact hheld) hlocal hslot hsig hread)), ?_⟩
    unfold WaitRead at hspec
    rw [hpass] at hspec
    exact hspec
  · exact ⟨_, hreread.trans (congrArg Host.Outcome.next (waitNow_reads hheld hlocal hslot hsig hread)), waitResult_spec fn q p _ s hphase⟩

/-- A read that counts in meters seals no page. -/
theorem sealedPage_countRead (s : State) (cid va n : Nat) : sealedPage (countRead s cid va n) = sealedPage s := by
  funext c page
  unfold sealedPage countRead tmap
  dsimp only
  rw [List.any_map]
  refine congrArg (s.wm.meters.any ·) (funext fun x => ?_)
  dsimp only [Function.comp]
  split <;> rfl

/-- A state in which the runs, the wheel, meters and accounts of `s` are others. -/
def aside (s : State) (runs : List Run) (wheel : Nat × Nat) (wm : Weights) (est : Estimator) (en : Nat) : State :=
  { s with runs := runs, wheel := wheel, wm := wm, est := est, enOper := en }

section

variable {runs : List Run} {wheel : Nat × Nat} {wm : Weights} {est : Estimator} {en : Nat}

/-- Translations depend on the sealed pages, and on nothing else of the meters. -/
theorem translate_aside (hseal : sealedPage (aside s runs wheel wm est en) = sealedPage s) :
    translate (aside s runs wheel wm est en) = translate s := by
  funext cid va write
  unfold Machine.translate translateBy
  rw [hseal]
  rfl

end

/-! ### INVAL (R70, R212) -/

variable {r v : Run}

theorem runOf_single (hr : s.runs = [r]) : runOf s r.id = some r := by
  rw [runOf, hr]
  simp

/-- Whether a translation that an INVAL has dropped is still in use. -/
def inUse (r : Run) (s : State) : Bool :=
  (s.xfers.any fun x => r.waits.contains x.tid && x.translated) || (tearsOf s r.pkt.w1.toNat).any r.tears.contains

theorem inUse_iff : inUse r s = true ↔ (∃ x ∈ s.xfers, x.tid ∈ r.waits ∧ x.translated = true) ∨ ∃ f ∈ r.tears, f ∈ tearsOf s r.pkt.w1.toNat := by
  simp [inUse, and_comm]

theorem exec_invalCompletion_eq (hr : s.runs = [r]) :
    exec (.invalCompletion r.id) s = .next (if inUse r s then s.at (s.cycle + 1) (.invalCompletion r.id) else endRun r 0 0 s) := by
  rw [exec_invalCompletion, execInvalCompletion, runOf_single hr]
  rfl

theorem endRun_spec (hr : s.runs = [r]) (hid : r.id = v.id) (status : Nat) (data : W64) :
    (endRun v status data s).runs = [{ v with status := status, data := data, ended := true }]
      ∧ (endRun v status data s).timers = s.timers ++ [(s.cycle, .packetCompletion v.id)]
      ∧ (endRun v status data s).mem = s.mem ∧ (endRun v status data s).host = s.host := by
  have hruns := HostAccess.runs_setRun (u := { v with status := status, data := data, ended := true }) hr hid
  exact ⟨hruns, rfl, rfl, rfl⟩

/-! ### COPY (R78) -/

theorem copyLater_spec (hr : s.runs = [r]) (hid : r.id = v.id) :
    (copyLater v s).runs = [v] ∧ (copyLater v s).mem = s.mem ∧ (copyLater v s).host = s.host
      ∧ ∃ c, s.cycle < c ∧ (c, .copyChunk v.id) ∈ (copyLater v s).timers := by
  have hruns := HostAccess.runs_setRun (u := v) hr hid
  refine ⟨hruns, rfl, rfl, s.cycle + 1 + Config.hubCycles s.free, by omega, ?_⟩
  exact List.mem_append_right _ (List.mem_singleton_self _)

/-- What a COPY leaves once a chunk of `n` bytes has been written. -/
def ChunkDone (v : Run) (n : Nat) (mem host : Cells 8) (now : Nat) (t : State) : Prop :=
  ∃ u, t.runs = [u] ∧ t.mem = mem ∧ t.host = host ∧ u.done = v.done + n
    ∧ (v.pkt.w5.toNat ≤ v.done + n → u.status = 0 ∧ u.ended = true ∧ (now, .packetCompletion v.id) ∈ t.timers)
    ∧ (v.done + n < v.pkt.w5.toNat → u.ended = v.ended ∧ u.buf = none ∧ ∃ c, now < c ∧ (c, .copyChunk v.id) ∈ t.timers)

theorem chunkDone_copyNext (hr : s.runs = [r]) (hid : r.id = v.id) (n : Nat) : ChunkDone v n s.mem s.host s.cycle (copyNext v n s) := by
  let w : Run := { v with done := v.done + n, buf := none, put := 0, asked := false, held := none }
  have hnext : copyNext v n s = if w.pkt.w5.toNat ≤ w.done then endRun w 0 (bv 64 (microJoule w.energy)) s else copyLater w s := rfl
  rw [hnext]
  split
  next hle =>
    obtain ⟨hruns, htimers, hmem, hhost⟩ := endRun_spec (v := w) hr hid 0 (bv 64 (microJoule w.energy))
    refine ⟨_, hruns, hmem, hhost, rfl, fun _ => ⟨rfl, rfl, ?_⟩, fun hlt => absurd hle (Nat.not_le.2 hlt)⟩
    rw [htimers]
    exact List.mem_append_right _ (List.mem_singleton_self _)
  next hlt =>
    obtain ⟨hruns, hmem, hhost, hlater⟩ := copyLater_spec (v := w) hr hid
    exact ⟨_, hruns, hmem, hhost, rfl, fun hle => absurd hle hlt, fun _ => ⟨rfl, rfl, hlater⟩⟩

theorem copyWrote_whole {n : Nat} {data : List (Byte × Bool)} (hbuf : v.buf = some data) (hput : v.put = 0) (hn : data.length = n) (s : State) :
    copyWrote v n s = copyNext v n s := by
  unfold copyWrote
  dsimp only
  rw [hbuf, Option.getD_some, hn, hput, if_pos (by omega)]

/-- A side of a COPY that lies at this hub and does not meet the end of a window with `n` bytes from byte `done` on. -/
def Near (side : Bool × Nat) (done n : Nat) : Prop :=
  side.1 = true ∨ (side.2 + done < 15 * 2 ^ 68 ∧ (side.2 + done) % 2 ^ 65 + n ≤ 2 ^ 65)

theorem Near.local {side : Bool × Nat} {done n : Nat} (h : Near side done n) (b : Bool) :
    (!side.1 && b && isRemote (side.2 + done)) = false := by
  rcases h with h | ⟨h, _⟩
  · rw [h]
    rfl
  · rw [isRemote, decide_eq_false (by omega), Bool.and_false]

theorem Near.pieceLen {side : Bool × Nat} {done n : Nat} (h : Near side done n) : pieceLen side.1 (side.2 + done) n = n := by
  unfold Machine.pieceLen
  rcases h with h | ⟨_, h⟩
  · rw [if_pos h]
  · split
    · rfl
    · omega

theorem taintBytes_clean (a : Nat) (b : List Byte) : taintBytes a b [] = b.map fun v => (v, false) := by
  have hzip : ((List.range b.length).zip b).map (·.2) = b := List.map_snd_zip (by simp)
  conv_rhs => rw [← hzip]
  rw [taintBytes, List.map_map]
  exact List.map_congr_left fun x _ => by simp

theorem taintLines_clean (d : Nat) {data : List (Byte × Bool)} (h : ∀ x ∈ data, x.2 = false) : taintLines d data = [] := by
  have hnone : (((List.range data.length).zip data).filterMap fun (i, _, p) => if p then some ((d % 64 + i) / 64) else none) = [] := by
    refine List.filterMap_eq_nil_iff.2 fun x hx => ?_
    obtain ⟨i, y⟩ := x
    have hy : y.2 = false := h y (List.of_mem_zip hx).2
    simp [hy]
  rw [taintLines, hnone]
  rfl

/-- Two states that differ at most in what a write of memory in parts changes. -/
def Written (s t : State) : Prop := t = { s with mem := t.mem, memPoison := t.memPoison, dirty := t.dirty, free := t.free }

theorem Written.of_eq {m : Cells 8} {p d : List Nat} {f : Nat}
    (h : t = { s with mem := m, memPoison := p, dirty := d, free := f }) : Written s t := by
  subst h
  rfl

theorem Written.trans (h : Written s t) (h' : Written t u) : Written s u := by
  rw [Written, h] at h'
  exact .of_eq h'

theorem written_pwrite (s : State) (pa : Nat) (b : List Byte) (poison : List Nat) (dt : Bool) : Written s (pwrite s pa b poison dt) := by
  unfold pwrite
  dsimp only
  split <;> rfl

theorem written_writeWords (sel : Nat → Bool) (i : Nat) (l : List (Nat × Nat × Bool)) (b : List Byte) (s : State) :
    Written s (writeWords sel i l b s) := by
  induction l generalizing i b s with
  | nil => rfl
  | cons x l ih =>
    obtain ⟨pa, n, dt⟩ := x
    rw [writeWords]
    refine Written.trans ?_ (ih ..)
    split
    · exact (written_pwrite ..).trans rfl
    · rfl

theorem written_putFirst (l : List (Nat × Nat × Bool)) (b : List Byte) (p : List Nat) (s : State) : Written s (putFirst l b p s) :=
  (written_writeWords ..).trans rfl

theorem written_poisonParts (p : List Nat) (i : Nat) (l : List (Nat × Nat × Bool)) (s : State) : Written s (poisonParts s p i l) := by
  induction l generalizing i s with
  | nil => rfl
  | cons x l ih =>
    obtain ⟨pa, n, dt⟩ := x
    rw [poisonParts]
    exact (Written.of_eq rfl : Written s { s with memPoison := _ }).trans (ih ..)

theorem written_putRest (x : Torn) (b : List Byte) (p : List Nat) (s : State) : Written s (putRest x b p s) :=
  (written_writeWords ..).trans (written_poisonParts ..)

/-- What a write of memory writes depends on the memory alone. -/
theorem mem_writeWords_congr (sel : Nat → Bool) (i : Nat) (l : List (Nat × Nat × Bool)) (b : List Byte) (h : t.mem = s.mem) :
    (writeWords sel i l b t).mem = (writeWords sel i l b s).mem := by
  induction l generalizing i b s t with
  | nil => exact h
  | cons x l ih =>
    obtain ⟨pa, n, dt⟩ := x
    rw [writeWords, writeWords]
    refine ih _ _ ?_
    split
    · rw [Parts.mem_pwrite, Parts.mem_pwrite, h]
    · exact h

/-! A chunk is read whole, and then written. -/

section Chunk

variable {n : Nat} {data : List (Byte × Bool)}

/-- A COPY that may go on. -/
def Goes (r : Run) (s : State) : Prop :=
  r.asked = false ∧ r.ended = false ∧ working s r.fn = true ∧ (r.fn = 0 ∨ (s.vd r.fn).suspended = false)

theorem exec_copyChunk_goes (hr : s.runs = [r]) (hg : Goes r s) :
    exec (.copyChunk r.id) s = .next (if r.full then copyWrite { r with held := none } s else copyAsk { r with held := none } s) := by
  obtain ⟨hasked, hended, hwork, hsus⟩ := hg
  have hblock : (decide (r.fn ≠ 0) && r.buf.isNone && r.torn.isNone && (s.vd r.fn).suspended) = false := by
    rcases hsus with h | h <;> simp [h]
  rw [exec_copyChunk, execCopyChunk, runOf_single hr]
  dsimp only
  rw [hasked, hended, hwork, hblock, if_neg (by decide)]

/-- The chunk of a COPY that has read none of it. -/
theorem copyPiece_none (hbuf : v.buf = none) (hn : min 4096 (v.pkt.w5.toNat - v.done) = n) (hnear : Near (copySrc v.pkt) v.done n) :
    copyPiece v = ((copySrc v.pkt).1, (copySrc v.pkt).2 + v.done, n) := by
  unfold copyPiece
  dsimp only
  rw [hbuf, show chunkLen v.pkt v.done = n from hn]
  exact congrArg (fun k => ((copySrc v.pkt).1, (copySrc v.pkt).2 + v.done, k)) hnear.pieceLen

theorem copyAsk_first {x : Torn} (hbuf : v.buf = none) (htorn : v.torn = none) (hn : min 4096 (v.pkt.w5.toNat - v.done) = n)
    (hnear : Near (copySrc v.pkt) v.done n) (h : sideFirst s v.fn (copySrc v.pkt).1 ((copySrc v.pkt).2 + v.done) n = .ok (u, x)) :
    copyAsk v s = copyLater { v with torn := some x }
      (if (copySrc v.pkt).1 then hostReads v.fn ((copySrc v.pkt).2 + v.done) n false u else u) := by
  unfold copyAsk
  rw [copyPiece_none hbuf hn hnear]
  dsimp only
  rw [hnear.local, if_neg Bool.false_ne_true, htorn]
  dsimp only
  rw [h]

/-- The state in which a chunk that has been read is written: the read counts in meters and in the estimate. -/
def chunkRead (v : Run) (n : Nat) (s : State) : State :=
  estimate (sideEnergy s v.fn (copySrc v.pkt).1 ((copySrc v.pkt).2 + v.done) n)
    (if (copySrc v.pkt).1 ∨ v.fn = 0 then s else countRead s v.fn ((copySrc v.pkt).2 + v.done) n)

theorem chunkRead_eq (v : Run) (n : Nat) (s : State) :
    ∃ wm est, chunkRead v n s = aside s s.runs s.wheel wm est s.enOper ∧ sealedPage (aside s s.runs s.wheel wm est s.enOper) = sealedPage s := by
  unfold chunkRead
  split
  · exact ⟨_, _, rfl, rfl⟩
  · exact ⟨_, _, rfl, sealedPage_countRead ..⟩

/-- A COPY whose chunk has been read. -/
def withChunk (v : Run) (n : Nat) (b : List Byte) (s : State) : Run :=
  { v with torn := none, energy := v.energy + sideEnergy s v.fn (copySrc v.pkt).1 ((copySrc v.pkt).2 + v.done) n
           buf := some (b.map fun y => (y, false)), asked := false, held := none }

theorem copyAsk_rest {x : Torn} {b : List Byte} (hbuf : v.buf = none) (htorn : v.torn = some x)
    (hn : min 4096 (v.pkt.w5.toNat - v.done) = n) (hnear : Near (copySrc v.pkt) v.done n)
    (h : sideRest x (copySrc v.pkt).1 ((copySrc v.pkt).2 + v.done) n s = (b, [])) (hlen : b.length = n) :
    copyAsk v s = copyWrite (withChunk v n b s) (chunkRead v n s) := by
  have hclean : ¬ ((copySrc v.pkt).1 = true ∧ ([] : List Nat) ≠ []) := fun h => h.2 rfl
  unfold copyAsk
  rw [copyPiece_none hbuf hn hnear]
  dsimp only
  rw [hnear.local, if_neg Bool.false_ne_true, htorn]
  dsimp only
  rw [h]
  dsimp only
  rw [if_neg hclean, taintBytes_clean]
  unfold copyRead
  dsimp only
  rw [hbuf, Option.getD_none, List.nil_append, Option.getD_some, List.length_map, hlen,
    if_pos (show chunkLen v.pkt v.done ≤ n from Nat.le_of_eq hn)]
  rfl

theorem copyWrite_local (hput : v.put = 0) (hbuf : v.buf = some data) (hlen : data.length = n) (hnear : Near (copyDst v.pkt) v.done n)
    (s : State) :
    copyWrite v s =
      if (copyDst v.pkt).1 then
        copyWrote { v with energy := v.energy + sideEnergy s v.fn true ((copyDst v.pkt).2 + v.done) n } n
          (estimate (sideEnergy s v.fn true ((copyDst v.pkt).2 + v.done) n)
            (hwrite s v.fn ((copyDst v.pkt).2 + v.done) (data.map (·.1)) (taintLines ((copyDst v.pkt).2 + v.done) data)))
      else copyPut v ((copyDst v.pkt).2 + v.done) data s := by
  unfold copyWrite
  dsimp only
  rw [hput, Nat.add_zero, hbuf, Option.getD_some, List.drop_zero, hlen, hnear.pieceLen, hnear.local, if_neg Bool.false_ne_true,
    List.take_of_length_le (Nat.le_of_eq hlen)]

theorem copyPut_first {d : Nat} {lines : List (Nat × Nat × Bool)} (htorn : v.torn = none) (hfn : v.fn ≠ 0) (hclean : ∀ x ∈ data, x.2 = false)
    (h : translateAll (fnXlate s v.fn true) (lineParts d data.length) = .ok lines) :
    copyPut v d data s = copyLater { v with torn := some (newTorn lines s) } (putFirst lines (data.map (·.1)) [] s) := by
  unfold copyPut
  dsimp only
  rw [htorn, List.length_map, taintLines_clean d hclean]
  dsimp only
  rw [h]
  dsimp only
  rw [if_neg hfn]

theorem copyPut_rest {d : Nat} {y : Torn} (htorn : v.torn = some y) (hclean : ∀ x ∈ data, x.2 = false)
    (hmf : v.fn = 0 → s.stale = [] ∧ s.vds = []) :
    copyPut v d data s = copyWrote { v with torn := none, energy := v.energy + sideEnergy s v.fn false d data.length } data.length
      (estimate (sideEnergy s v.fn false d data.length) (putRest y (data.map (·.1)) [] s)) := by
  have hstale : (putRest y (data.map (·.1)) [] s).stale = s.stale := by
    rw [written_putRest]
  unfold copyPut
  dsimp only
  rw [htorn, List.length_map, taintLines_clean d hclean]
  dsimp only
  split
  next h0 =>
    obtain ⟨hs, hv⟩ := hmf h0
    rw [HostAccess.mfWrites_of_none hs hv (hstale.trans hs)]
  next => rfl

end Chunk

/-! ### Completion (R72) -/

theorem exec_packetCompletion_stopped (hr : s.runs = [r]) (hw : working s r.fn = false) :
    exec (.packetCompletion r.id) s = .next { s with runs := [] } := by
  rw [exec_packetCompletion, execPacketCompletion, runOf_single hr]
  dsimp only
  rw [hw, hr]
  simp

theorem exec_packetCompletion_done (hr : s.runs = [r]) (hw : working s r.fn = true) (hsig : r.signal = none) :
    exec (.packetCompletion r.id) s = .next (runDone r s) := by
  rw [exec_packetCompletion, execPacketCompletion, runOf_single hr]
  dsimp only
  rw [hw, hsig]
  rfl

theorem signal_none (h : r.pkt.w3 = 0 ∨ r.signalled = true ∨ r.pkt.type = 2 ∨ r.status = 0x0103) : r.signal = none := by
  refine if_pos ?_
  rcases h with h | h | h | h <;> simp [h]

theorem signal_some (h3 : r.pkt.w3 ≠ 0) (hs : r.signalled = false) (ht : r.pkt.type ≠ 2) (hst : r.status ≠ 0x0103) :
    r.signal = some (if r.pkt.type = 3 then some r.pkt.w5 else none) := by
  refine if_neg ?_
  simpa [hs, ht, hst] using h3

theorem runDone_quiet (hr : s.runs = [r]) (he : r.pkt.wantsEntry = false) :
    ∃ qs, runDone r s = { s with runs := [], queues := qs } := by
  unfold runDone
  dsimp only
  rw [he, hr, if_neg Bool.false_ne_true]
  simp only [ne_eq, not_true_eq_false, decide_false, List.filter_cons_of_neg, List.filter_nil, Bool.false_eq_true, not_false_eq_true]
  exact ⟨_, rfl⟩

/-- The entry of a packet that completes. -/
def entryOf (r : Run) : CqPost := { fn := r.fn, n := r.cq.toNat, ecq := r.ecq, w0 := cqEntry 0 r.q r.status r.pkt.tag, w1 := r.data }

theorem runDone_posts (hr : s.runs = [r]) (he : r.pkt.wantsEntry = true) (hph : s.phase ≠ 3) :
    ∃ qs, runDone r s = { s with runs := [], queues := qs, posts := s.posts ++ [entryOf r] } := by
  unfold runDone cqSend
  dsimp only
  rw [he, hr, if_pos rfl, if_neg fun h => hph h.1]
  simp only [ne_eq, not_true_eq_false, decide_false, List.filter_cons_of_neg, List.filter_nil, Bool.false_eq_true, not_false_eq_true]
  exact ⟨_, rfl⟩

/-! The signal of a packet that completes. -/

theorem written_writeParts (p : List Nat) (i : Nat) (l : List (Nat × Nat × Bool)) (b : List Byte) (s : State) :
    Written s (writeParts s p i l b) := by
  induction l generalizing i b s with
  | nil => rfl
  | cons x l ih =>
    obtain ⟨pa, n, dt⟩ := x
    exact (written_pwrite ..).trans (ih ..)

theorem mem_writeParts_congr (p : List Nat) (i : Nat) (l : List (Nat × Nat × Bool)) (b : List Byte) (h : t.mem = s.mem) :
    (writeParts t p i l b).mem = (writeParts s p i l b).mem := by
  induction l generalizing i b s t with
  | nil => exact h
  | cons x l ih =>
    obtain ⟨pa, n, dt⟩ := x
    refine ih _ _ ?_
    rw [Parts.mem_pwrite, Parts.mem_pwrite, h]

/-- Two states that differ at most in what a write of the hub to device memory changes. -/
def Wrote (s t : State) : Prop :=
  t = { s with mem := t.mem, memPoison := t.memPoison, dirty := t.dirty, free := t.free, est := t.est, enOper := t.enOper }

theorem Written.wrote (h : Written s t) (pj : Nat) : Wrote s (chargeOper t pj) := by
  unfold Wrote
  rw [h]
  rfl

section Aside

variable {runs : List Run} {wheel : Nat × Nat} {wm : Weights} {est : Estimator} {en : Nat}

theorem vwrite_aside (hseal : sealedPage (aside s runs wheel wm est en) = sealedPage s) {cid a : Nat} {b : List Byte} {w : State} (h : vwrite s cid a b [] = .ok w) :
    ∃ w', vwrite (aside s runs wheel wm est en) cid a b [] = .ok w' ∧ w'.mem = w.mem ∧ Written (aside s runs wheel wm est en) w' := by
  unfold vwrite vwriteBy at h ⊢
  split at h
  · cases h
  next l hl =>
    cases h
    have hl' : translateAll (translate (aside s runs wheel wm est en) cid · true) (lineParts a b.length) = .ok l := by
      rw [translate_aside hseal]
      exact hl
    rw [hl']
    exact ⟨_, rfl, mem_writeParts_congr [] 0 l b rfl, written_writeParts ..⟩

/-- What a write of the hub puts into memory does not depend on runs, the wheel, meters and accounts. -/
theorem fnWrite_aside (hseal : sealedPage (aside s runs wheel wm est en) = sealedPage s) {fn a : Nat} {b : List Byte} {w : State} (h : fnWrite s fn false a b = .ok w) :
    ∃ w', fnWrite (aside s runs wheel wm est en) fn false a b = .ok w' ∧ w'.mem = w.mem ∧ Wrote (aside s runs wheel wm est en) w' := by
  unfold fnWrite at h ⊢
  rw [if_neg Bool.false_ne_true] at h ⊢
  by_cases h0 : fn = 0
  · rw [if_pos h0] at h ⊢
    split at h
    next hm =>
      cases h
      rw [if_pos hm]
      refine ⟨_, rfl, ?_, (written_pwrite ..).wrote _⟩
      exact (Parts.mem_pwrite ..).trans (Parts.mem_pwrite s a b [] true).symm
    next => cases h
  · rw [if_neg h0] at h ⊢
    unfold hubPut at h ⊢
    split at h
    · cases h
    next u hu =>
      cases h
      obtain ⟨w', hw', hmem, hwr⟩ := vwrite_aside (runs := runs) (wheel := wheel) (wm := wm) (est := est) (en := en) hseal hu
      rw [hw']
      exact ⟨_, rfl, hmem, hwr.wrote _⟩

end Aside

theorem mem_fnWrite_mf {a : Nat} {b : List Byte} {w : State} (h : fnWrite s 0 false a b = .ok w) : w.mem = csets s.mem a b := by
  unfold fnWrite at h
  rw [if_neg Bool.false_ne_true, if_pos rfl] at h
  split at h
  · cases h
    exact Parts.mem_pwrite ..
  · cases h

theorem foldl_agenda {α : Type} {f : State → α → State} (hf : ∀ s a, ∃ l, f s a = { s with agenda := l }) (l : List α) (s : State) :
    ∃ k, l.foldl f s = { s with agenda := k } := by
  induction l generalizing s with
  | nil => exact ⟨s.agenda, rfl⟩
  | cons a l ih =>
    obtain ⟨k, hk⟩ := hf s a
    obtain ⟨k', hk'⟩ := ih (f s a)
    rw [List.foldl_cons, hk', hk]
    exact ⟨k', rfl⟩

theorem rereadWaits_eq (place : Nat × Nat × Nat) (s : State) : ∃ a, rereadWaits place s = { s with agenda := a } := by
  refine foldl_agenda (fun s x => ?_) s.queues s
  dsimp only
  split
  · split
    · exact ⟨_, rfl⟩
    · exact ⟨s.agenda, rfl⟩
  · exact ⟨s.agenda, rfl⟩

/-- The value that a signal operation writes. -/
def signalValue (write : Option W64) (b : List Byte) : W64 := write.getD (BitVec.ofNat 64 (leNat (b.take 8)) - 1)

/-- A signal operation of a packet of this hub that meets no fault and leaves a value other than 0. -/
theorem signalTry_ok {o : SigOp} {b : List Byte} {w : State} (hpeer : o.peer = none) (hread : signalRead s o.cid o.va 16 = .ok (b, []))
    (hne : signalValue o.write b ≠ 0)
    (hwrite : fnWrite (if o.write.isSome then s else cfeRead o.cid o.va 8 s) o.cid false o.va (natLe 8 (signalValue o.write b).toNat) = .ok w) :
    signalTry o s = .ok (rereadWaits (w.klk.dev.toNat, o.cid, o.va) w) := by
  unfold signalTry
  dsimp only
  rw [hread]
  dsimp only
  rw [if_neg (by decide)]
  unfold signalValue at hwrite hne
  rw [show o.write.getD (bv 64 (leNat (b.take 8)) - 1) = o.write.getD (BitVec.ofNat 64 (leNat (b.take 8)) - 1) from rfl, hwrite]
  dsimp only
  rw [if_neg hne, signalEnd, hpeer]
  rfl

theorem signalFor_local {ecq : BitVec 6} {tag : W32} {w3 : W64} (write : Option W64) (h : localSignal fn w3 = true) (s : State) :
    signalFor fn q ecq tag w3 write s
      = signalOp { page := 0, cid := fn, va := signalVa w3, fn := fn, q := q, ecq := ecq, tag := tag, w3 := w3, write := write } s := by
  unfold signalFor
  dsimp only
  refine if_neg fun ⟨h0, hrem⟩ => ?_
  unfold localSignal at h
  simp [h0, hrem] at h

theorem signalOp_free {o : SigOp} (h : s.sigHeld = []) (ht : signalTry o s = .ok t) : signalOp o s = t := by
  unfold signalOp
  dsimp only
  rw [h, List.find?_nil]
  dsimp only
  rw [ht]

/-- A packet whose signal lies at this hub completes at a wheel position. -/
theorem exec_packetCompletion_signals {x : Option W64} (hr : s.runs = [r]) (hw : working s r.fn = true) (hsig : r.signal = some x)
    (hlocal : localSignal r.fn r.pkt.w3 = true) :
    exec (.packetCompletion r.id) s = .next (atCfeSlot (.packetCompletion r.id) (fun s => cfeTurn (.packetCompletion r.id)
      (signalOp { page := 0, cid := r.fn, va := signalVa r.pkt.w3, fn := r.fn, q := r.q, ecq := r.ecq, tag := r.pkt.tag, w3 := r.pkt.w3, write := x }
        (setRun { r with signalled := true } s))) s) := by
  rw [exec_packetCompletion, execPacketCompletion, runOf_single hr]
  dsimp only
  rw [hw, hsig, hlocal]
  simp only [signalFor_local x hlocal]
  rfl

/-- What is left where the signal of a packet that completes has been written. -/
theorem signalled_spec {x : Option W64} {b : List Byte} {w : State} (hr : s.runs = [r]) (hslot : cfeSlot s = none) (hheld : s.sigHeld = [])
    (hread : fnRead s r.fn false (signalVa r.pkt.w3) 16 = .ok (b, [])) (hne : signalValue x b ≠ 0)
    (hwrite : fnWrite s r.fn false (signalVa r.pkt.w3) (natLe 8 (signalValue x b).toNat) = .ok w) :
    let o : SigOp := { page := 0, cid := r.fn, va := signalVa r.pkt.w3, fn := r.fn, q := r.q, ecq := r.ecq, tag := r.pkt.tag, w3 := r.pkt.w3, write := x }
    let t := atCfeSlot (.packetCompletion r.id) (fun s => cfeTurn (.packetCompletion r.id)
      (signalOp o (setRun { r with signalled := true } s))) s
    t.runs = [{ r with signalled := true }] ∧ t.mem = w.mem ∧ t.cqs = s.cqs ∧ t.due = s.due ++ [.packetCompletion r.id] := by
  intro o
  let s1 : State := setRun { r with signalled := true } { s with wheel := (s.cycle, s.wheel.2) }
  have hruns : s1.runs = [{ r with signalled := true }] :=
    HostAccess.runs_setRun (s := { s with wheel := (s.cycle, s.wheel.2) }) (u := { r with signalled := true }) hr rfl
  have haside : ∃ wm est en, (if o.write.isSome then s1 else cfeRead o.cid o.va 8 s1) = aside s s1.runs (s.cycle, s.wheel.2) wm est en
      ∧ sealedPage (aside s s1.runs (s.cycle, s.wheel.2) wm est en) = sealedPage s := by
    split
    · exact ⟨_, _, _, rfl, rfl⟩
    · exact ⟨_, _, _, rfl, sealedPage_countRead s1 o.cid o.va 8⟩
  obtain ⟨wm, est, en, haside, hseal⟩ := haside
  obtain ⟨w', hw', hmem, hfr⟩ := fnWrite_aside hseal hwrite
  have htry : signalTry o s1 = .ok (rereadWaits (w'.klk.dev.toNat, o.cid, o.va) w') :=
    signalTry_ok rfl hread hne (by rw [haside]; exact hw')
  obtain ⟨a, ha⟩ := rereadWaits_eq (w'.klk.dev.toNat, o.cid, o.va) w'
  rw [atCfeSlot_free _ _ hslot]
  dsimp only
  rw [show signalOp o s1 = _ from signalOp_free hheld htry, ha, cfeTurn_now]
  · rw [hfr]
    exact ⟨hruns, hmem, rfl, rfl⟩
  · have hph : w'.phase = s.phase := by
      rw [hfr]
      rfl
    exact hph.trans (phase_of_cfeSlot hslot)

theorem packetsThatStart (fn q : Nat) (p : Packet) (s : State) (hp : (s.queue fn q).head = some p) (hw : takesWork s fn = true) :
    (p.type = 4 → blockedByB s fn q p = false → p.w5 ≠ 0 → ∃ t, exec (.copyPacket fn q) s = .next t ∧ Started fn q s t
        ∧ ∃ r ∈ t.runs, r.fn = fn ∧ r.q = q ∧ r.pkt = p ∧ r.done = 0 ∧ r.ended = false ∧ .copyChunk r.id ∈ t.agenda)
      ∧ (p.type = 6 → blockedByB s fn q p = false → ∃ t, exec (.invalPacket fn q) s = .next t ∧ Started fn q s t
        ∧ ∃ r ∈ t.runs, r.pkt = p ∧ .invalCompletion r.id ∈ t.agenda
          ∧ ∀ x ∈ s.xfers, x.cid = p.w1.toNat → x.translated = true →
              meetsPages (p.w2.toNat, p.w5.toNat) (dva x.ereg) x.deviceBytes = true → x.tid ∈ r.waits) := by
  refine ⟨fun hk hb hn => ?copy, fun hk hb => ?inval⟩
  case copy =>
    obtain ⟨hstarted, hruns, _⟩ := startPacket_spec fn q p s
    refine ⟨_, exec_copyPacket_starts hp hw hk hb hn, hstarted, newRun fn q p s, ?_, rfl, rfl, rfl, rfl, rfl,
      List.mem_append_right _ (List.mem_singleton_self _)⟩
    exact (congrArg (newRun fn q p s ∈ ·) hruns).mpr (List.mem_append_right _ (List.mem_singleton_self _))
  case inval =>
    obtain ⟨t, hexec, hstarted, r, hr, hpkt, hag, hwaits⟩ := exec_invalPacket_starts hp hw hk hb
    refine ⟨t, hexec, hstarted, r, hr, hpkt, hag, fun x hx hcid htr hmeets => ?_⟩
    rw [hwaits]
    exact List.mem_map_of_mem (List.mem_filter.2 ⟨hx, by simp [hcid, htr, hmeets]⟩)

theorem mem_putFirst_congr (l : List (Nat × Nat × Bool)) (b : List Byte) (p : List Nat) (hmem : t.mem = s.mem) (hfree : t.free = s.free) :
    (putFirst l b p t).mem = (putFirst l b p s).mem := by
  unfold putFirst
  dsimp only
  rw [hfree]
  exact mem_writeWords_congr _ _ _ _ hmem

theorem fnXlate_aside {runs : List Run} {wheel : Nat × Nat} {wm : Weights} {est : Estimator} {en : Nat}
    (hseal : sealedPage (aside s runs wheel wm est en) = sealedPage s) (fn : Nat) :
    fnXlate (aside s runs wheel wm est en) fn true = fnXlate s fn true := by
  unfold fnXlate
  rw [translate_aside hseal]

theorem hostReadsIf_spec {x : Torn} {side : Bool} {a k : Nat} (host : Bool) (fn a' n : Nat) (h : sideFirst s fn side a k = .ok (u, x)) :
    let w := if host then hostReads fn a' n false u else u
    w.runs = s.runs ∧ w.mem = s.mem ∧ w.host = s.host ∧ w.cycle = s.cycle := by
  rw [Queueing.sideFirst_state h]
  cases host with
  | true =>
    have hposted := Queueing.posted_hostReads fn a' n false { s with free := u.free }
    refine ⟨hposted.runs, Queueing.mem_hostReads .., ?_, hposted.cycle⟩
    exact foldl_eq (fun (s : State) (x : Nat × Nat) => hostTlp fn false x.1 x.2 false s) State.host (fun _ _ => rfl) _ _
  | false => exact ⟨rfl, rfl, rfl, rfl⟩

/-! The bytes of a chunk, none of them poisoned. -/

/-- The bytes that a clean read has found. -/
def clean (b : List Byte) : List (Byte × Bool) := b.map fun y => (y, false)

theorem bytes_clean (b : List Byte) : (clean b).map (·.1) = b := by
  rw [clean, List.map_map]
  exact List.map_id b

theorem mem_clean {b : List Byte} {x : Byte × Bool} (h : x ∈ clean b) : x.2 = false := by
  obtain ⟨y, _, rfl⟩ := List.mem_map.1 h
  rfl

theorem length_clean (b : List Byte) : (clean b).length = b.length := List.length_map _

/-- A write of host memory changes it, and otherwise only the link and what goes out. -/
theorem hwrite_spec (fn a : Nat) (b : List Byte) (p : List Nat) (s : State) :
    (hwrite s fn a b p).host = csets s.host a b ∧ (hwrite s fn a b p).mem = s.mem ∧ (hwrite s fn a b p).runs = s.runs
      ∧ (hwrite s fn a b p).cycle = s.cycle := by
  have hposted := Posting.posted_hwrite s fn a b p
  refine ⟨?_, ?_, hposted.runs, hposted.cycle⟩
  · unfold hwrite
    exact congrArg (csets · a b) (foldl_eq (fun (s : State) (x : Nat × Nat) => hostTlp fn true x.1 x.2 false s) State.host (fun _ _ => rfl) _ _)
  · unfold hwrite
    exact foldl_eq (fun (s : State) (x : Nat × Nat) => hostTlp fn true x.1 x.2 false s) State.mem (fun _ _ => rfl) _ _

section Steps

variable {n : Nat} (hr : s.runs = [r]) (hn : min 4096 (r.pkt.w5.toNat - r.done) = n) (h0 : 0 < n) (hg : Goes r s)
include hr hn h0 hg

/-- A COPY that has read no byte of its chunk asks for it. -/
theorem exec_copyChunk_asks (hbuf : r.buf = none) :
    exec (.copyChunk r.id) s = .next (copyAsk { r with held := none } s) := by
  have hempty : r.full = false := by
    rw [Run.full, hbuf, decide_eq_false_iff_not, show chunkLen r.pkt r.done = n from hn]
    exact Nat.not_le.2 h0
  rw [exec_copyChunk_goes hr hg, hempty]
  rfl

theorem copyChunk_reads {x : Torn} (hbuf : r.buf = none) (htorn : r.torn = none) (hsrc : Near (copySrc r.pkt) r.done n)
    (hfirst : sideFirst s r.fn (copySrc r.pkt).1 ((copySrc r.pkt).2 + r.done) n = .ok (u, x)) :
    ∃ t c, exec (.copyChunk r.id) s = .next t ∧ t.mem = s.mem ∧ t.host = s.host
      ∧ t.runs = [{ r with torn := some x, held := none }] ∧ s.cycle < c ∧ (c, .copyChunk r.id) ∈ t.timers := by
  have hexec := exec_copyChunk_asks hr hn h0 hg hbuf
  rw [copyAsk_first (v := { r with held := none }) hbuf htorn hn hsrc hfirst] at hexec
  obtain ⟨hruns, hmem, hhost, hcycle⟩ := hostReadsIf_spec (copySrc r.pkt).1 r.fn ((copySrc r.pkt).2 + r.done) n hfirst
  obtain ⟨hruns', hmem', hhost', c, hc, htimer⟩ := copyLater_spec (v := { r with torn := some x, held := none }) (hruns.trans hr) rfl
  exact ⟨_, c, hexec, hmem'.trans hmem, hhost'.trans hhost, hruns', hcycle ▸ hc, htimer⟩

/-- A COPY that reads the rest of its chunk goes on to write it. -/
theorem copyChunk_rest {x : Torn} {b : List Byte} (hbuf : r.buf = none) (htorn : r.torn = some x) (hput : r.put = 0)
    (hsrc : Near (copySrc r.pkt) r.done n) (hdst : Near (copyDst r.pkt) r.done n)
    (hrest : sideRest x (copySrc r.pkt).1 ((copySrc r.pkt).2 + r.done) n s = (b, [])) (hlen : b.length = n) :
    ∃ (v : Run) (wm : Weights) (est : Estimator) (en : Nat),
      let z := aside s s.runs s.wheel wm est s.enOper
      v = { r with torn := none, energy := en, buf := some (clean b), asked := false, held := none }
        ∧ sealedPage z = sealedPage s
        ∧ exec (.copyChunk r.id) s = .next (if (copyDst r.pkt).1 then
            copyWrote { v with energy := v.energy + sideEnergy z r.fn true ((copyDst r.pkt).2 + r.done) n } n
              (estimate (sideEnergy z r.fn true ((copyDst r.pkt).2 + r.done) n)
                (hwrite z r.fn ((copyDst r.pkt).2 + r.done) b (taintLines ((copyDst r.pkt).2 + r.done) (clean b))))
          else copyPut v ((copyDst r.pkt).2 + r.done) (clean b) z) := by
  obtain ⟨wm, est, hread, hseal⟩ := chunkRead_eq { r with held := none } n s
  have hexec := exec_copyChunk_asks hr hn h0 hg hbuf
  rw [copyAsk_rest (v := { r with held := none }) hbuf htorn hn hsrc hrest hlen, hread,
    copyWrite_local (v := withChunk { r with held := none } n b s) (data := clean b) hput rfl ((length_clean b).trans hlen) hdst,
    bytes_clean] at hexec
  exact ⟨_, wm, est, _, rfl, hseal, hexec⟩

theorem copyChunk_writes {x : Torn} {b : List Byte} {lines : List (Nat × Nat × Bool)} (hbuf : r.buf = none) (htorn : r.torn = some x)
    (hput : r.put = 0) (hsrc : Near (copySrc r.pkt) r.done n) (hdst : Near (copyDst r.pkt) r.done n)
    (hrest : sideRest x (copySrc r.pkt).1 ((copySrc r.pkt).2 + r.done) n s = (b, [])) (hlen : b.length = n)
    (hdev : (copyDst r.pkt).1 = false) (hfn : r.fn ≠ 0)
    (hlines : translateAll (fnXlate s r.fn true) (lineParts ((copyDst r.pkt).2 + r.done) n) = .ok lines) :
    ∃ t u y c, exec (.copyChunk r.id) s = .next t ∧ t.runs = [u] ∧ u.buf = some (b.map fun v => (v, false))
      ∧ u.torn = some y ∧ u.done = r.done ∧ u.ended = false ∧ t.mem = (putFirst lines b [] s).mem ∧ y.lines = lines
      ∧ s.cycle < c ∧ (c, .copyChunk r.id) ∈ t.timers := by
  obtain ⟨v, wm, est, en, hv, hseal, hexec⟩ := copyChunk_rest hr hn h0 hg hbuf htorn hput hsrc hdst hrest hlen
  generalize hz : aside s s.runs s.wheel wm est s.enOper = z at hseal hexec
  have hid : r.id = v.id := by rw [hv]
  have hfn' : v.fn = r.fn := by rw [hv]
  have hlines' : translateAll (fnXlate z v.fn true) (lineParts ((copyDst r.pkt).2 + r.done) (clean b).length) = .ok lines := by
    rw [length_clean, hlen, hfn', ← hz, fnXlate_aside (by rw [hz]; exact hseal)]
    exact hlines
  rw [hdev, if_neg Bool.false_ne_true, copyPut_first (by rw [hv]) (by rw [hfn']; exact hfn) (fun _ => mem_clean) hlines', bytes_clean] at hexec
  have hwritten := written_putFirst lines b [] z
  have hruns : (putFirst lines b [] z).runs = [r] := by
    rw [hwritten, ← hz]
    exact hr
  have hcycle : (putFirst lines b [] z).cycle = s.cycle := by
    rw [hwritten, ← hz]
    rfl
  obtain ⟨hruns', hmem, _, c, hc, htimer⟩ := copyLater_spec (v := { v with torn := some (newTorn lines z) }) hruns hid
  refine ⟨_, _, newTorn lines z, c, hexec, hruns', by rw [hv]; rfl, rfl, by rw [hv], by rw [hv]; exact hg.2.1,
    hmem.trans (mem_putFirst_congr lines b [] (by rw [← hz]; rfl) (by rw [← hz]; rfl)), rfl, hcycle ▸ hc, ?_⟩
  rw [hid]
  exact htimer

theorem copyChunk_host {x : Torn} {b : List Byte} (hbuf : r.buf = none) (htorn : r.torn = some x)
    (hput : r.put = 0) (hsrc : Near (copySrc r.pkt) r.done n) (hdst : Near (copyDst r.pkt) r.done n)
    (hrest : sideRest x (copySrc r.pkt).1 ((copySrc r.pkt).2 + r.done) n s = (b, [])) (hlen : b.length = n)
    (hhost : (copyDst r.pkt).1 = true) :
    ∃ t, exec (.copyChunk r.id) s = .next t ∧ ChunkDone r n s.mem (csets s.host ((copyDst r.pkt).2 + r.done) b) s.cycle t := by
  obtain ⟨v, wm, est, en, hv, _, hexec⟩ := copyChunk_rest hr hn h0 hg hbuf htorn hput hsrc hdst hrest hlen
  generalize hz : aside s s.runs s.wheel wm est s.enOper = z at hexec
  obtain ⟨hh, hm, hruns, hc⟩ := hwrite_spec r.fn ((copyDst r.pkt).2 + r.done) b (taintLines ((copyDst r.pkt).2 + r.done) (clean b)) z
  generalize hwrite z r.fn ((copyDst r.pkt).2 + r.done) b (taintLines ((copyDst r.pkt).2 + r.done) (clean b)) = y at hh hm hruns hc hexec
  generalize sideEnergy z r.fn true ((copyDst r.pkt).2 + r.done) n = pj at hexec
  rw [hhost, if_pos rfl, copyWrote_whole (data := clean b) (by rw [hv]) (by rw [hv]; exact hput) ((length_clean b).trans hlen)] at hexec
  have hyruns : (estimate pj y).runs = [r] := by
    rw [show (estimate pj y).runs = y.runs from rfl, hruns, ← hz]
    exact hr
  have hdone := chunkDone_copyNext (v := { v with energy := v.energy + pj }) hyruns (by rw [hv]) n
  refine ⟨_, hexec, ?_⟩
  rw [show (estimate pj y).mem = y.mem from rfl, show (estimate pj y).host = y.host from rfl, show (estimate pj y).cycle = y.cycle from rfl,
    hh, hm, hc, ← hz] at hdone
  rw [hv] at hdone ⊢
  exact hdone

omit h0 in
theorem copyChunk_ends {data : List (Byte × Bool)} {y : Torn} (hbuf : r.buf = some data) (hlen : data.length = n)
    (hclean : ∀ x ∈ data, x.2 = false) (htorn : r.torn = some y) (hput : r.put = 0) (hdst : Near (copyDst r.pkt) r.done n)
    (hdev : (copyDst r.pkt).1 = false) (hmf : r.fn = 0 → s.stale = [] ∧ s.vds = []) :
    ∃ t, exec (.copyChunk r.id) s = .next t ∧ ChunkDone r n (putRest y (data.map (·.1)) [] s).mem s.host s.cycle t := by
  have hfull : r.full = true := by
    rw [Run.full, hbuf, Option.getD_some, hlen, decide_eq_true_iff]
    exact Nat.le_of_eq hn
  have hexec := exec_copyChunk_goes hr hg
  rw [hfull, if_pos rfl, copyWrite_local (v := { r with held := none }) hput hbuf hlen hdst] at hexec
  have hdev' : (copyDst ({ r with held := none } : Run).pkt).1 = false := hdev
  rw [hdev', if_neg Bool.false_ne_true, copyPut_rest (by exact htorn) hclean (by exact hmf)] at hexec
  have hwritten := written_putRest y (data.map (·.1)) [] s
  generalize putRest y (data.map (·.1)) [] s = z at hexec hwritten ⊢
  rw [copyWrote_whole (data := data) (by exact hbuf) (by exact hput) rfl, hlen] at hexec
  generalize sideEnergy s ({ r with held := none } : Run).fn false
    ((copyDst ({ r with held := none } : Run).pkt).2 + ({ r with held := none } : Run).done) n = pj at hexec
  have hzruns : (estimate pj z).runs = [r] := by
    rw [hwritten]
    exact hr
  have hdone := chunkDone_copyNext (v := { r with held := none, torn := none, energy := r.energy + pj }) hzruns rfl n
  have hhost : (estimate pj z).host = s.host := by
    rw [hwritten]
    rfl
  have hcycle : (estimate pj z).cycle = s.cycle := by
    rw [hwritten]
    rfl
  rw [hhost, hcycle] at hdone
  exact ⟨_, hexec, hdone⟩

end Steps

/-- Settles O49: a packet starts by `startPacket_spec`, a COPY goes by the steps of its chunk, and a completion by `signalled_spec` and
`runDone`. -/
theorem packetSteps : Obligations.PacketSteps := by
  unfold Obligations.PacketSteps
  refine ⟨fun fn q p s => ?starts, fun r s => ?runs⟩
  case starts =>
    intro x started completes hp hw
    obtain ⟨hcopy, hinval⟩ := packetsThatStart fn q p s hp hw
    refine ⟨fun hk hb => ⟨_, exec_nopPacket_starts hp hw hk hb, completes_startAndEnd ..⟩, fun hk hb => ⟨_, exec_nopPacket_blocked hp hw hk hb, ?_⟩,
      fun hk hb hv => exec_launchPacket_examined hp hw hk hb hv,
      fun hk hb hv => ⟨_, exec_launchPacket_failed hp hw hk hb hv, completes_startAndEnd ..⟩,
      fun hk hb => ⟨_, exec_signalPacket_starts hp hw hk hb, completes_startAndEnd ..⟩,
      fun hk hb hn => ⟨_, exec_copyPacket_empty hp hw hk hb hn, completes_startAndEnd ..⟩, hcopy, hinval,
      fun hk hmet => ⟨_, exec_waitPacket_met hp hw hk hmet, completes_startAndEnd ..⟩,
      fun b hk hb hmet hheld hlocal hslot hsig hread i hi => ?_⟩
    · exact ⟨(congrArg Queue.head (queue_modQueue ..)).trans hp, rfl⟩
    · obtain ⟨t, hexec, hhead, hmem, hns, hle, hlt⟩ := exec_wait_reads hp hw hk hb hmet hheld hlocal hslot hsig hread hi
      exact ⟨t, hexec, hhead.trans hp, hmem, hns, hle, fun h => ⟨(hlt h).1.trans hmet, (hlt h).2⟩⟩
  case runs =>
    intro src dst n near hr
    refine ⟨fun hland hpieces => ?done, fun huse => ?waits, fun hk hput hasked hended hwork h0 hsrc hdst hsus => ?copy,
      exec_packetCompletion_stopped hr, fun hw hq => ⟨fun he => ?quiet, fun he hph => ?posts⟩,
      fun hw h3 hs ht hst hlocal => ⟨fun c hslot => ?later, fun b w hslot hheld hread hne hwrite => ?signals⟩⟩
    case done =>
      have hno : inUse r s = false := by
        rw [← Bool.not_eq_true, inUse_iff]
        rintro (⟨x, hx, hw, ht⟩ | ⟨f, hf, hm⟩)
        · rw [hland x hx hw] at ht
          exact Bool.false_ne_true ht
        · exact hpieces f hf hm
      obtain ⟨hruns, htimers, _⟩ := endRun_spec hr rfl 0 0
      refine ⟨_, exec_invalCompletion_eq hr, ?_⟩
      rw [hno, if_neg Bool.false_ne_true]
      exact ⟨hruns, htimers⟩
    case waits =>
      rw [exec_invalCompletion_eq hr, inUse_iff.2 huse, if_pos rfl]
      rfl
    case copy =>
      have hg : Goes r s := ⟨hasked, hended, hwork, hsus⟩
      refine ⟨fun u x hbuf htorn => copyChunk_reads hr rfl h0 hg hbuf htorn hsrc,
        fun x b lines hbuf htorn hrest hlen hdev => copyChunk_writes hr rfl h0 hg hbuf htorn hput hsrc hdst hrest hlen hdev,
        fun x b hbuf htorn hrest hlen hhost => ?_, fun data y hbuf hlen hclean htorn hdev hmf => ?_⟩
      · obtain ⟨t, hexec, u, hruns, hmem, hh, hdone, hend, hgo⟩ := copyChunk_host hr rfl h0 hg hbuf htorn hput hsrc hdst hrest hlen hhost
        exact ⟨t, u, hexec, hruns, hmem, hh, hdone, hend, fun h => ⟨(hgo h).1.trans hended, (hgo h).2⟩⟩
      · obtain ⟨t, hexec, u, hruns, hmem, hh, hdone, hend, hgo⟩ := copyChunk_ends hr rfl hg hbuf hlen hclean htorn hput hdst hdev hmf
        exact ⟨t, u, hexec, hruns, hh, hmem, hdone, hend, fun h => ⟨(hgo h).1.trans hended, (hgo h).2⟩⟩
    case quiet =>
      obtain ⟨qs, hqs⟩ := runDone_quiet hr he
      refine ⟨_, exec_packetCompletion_done hr hw (signal_none hq), ?_⟩
      rw [hqs]
    case posts =>
      obtain ⟨qs, hqs⟩ := runDone_posts hr he hph
      refine ⟨_, exec_packetCompletion_done hr hw (signal_none hq), ?_⟩
      rw [hqs]
      rfl
    case later =>
      rw [exec_packetCompletion_signals hr hw (signal_some h3 hs ht hst) hlocal, atCfeSlot_later _ _ hslot]
      rfl
    case signals =>
      have hv : signalValue (if r.pkt.type = 3 then some r.pkt.w5 else none) b
          = if r.pkt.type = 3 then r.pkt.w5 else BitVec.ofNat 64 (leNat (b.take 8)) - 1 := by
        unfold signalValue
        split <;> rfl
      obtain ⟨hruns, hmem, hcqs, hdue⟩ := signalled_spec (x := if r.pkt.type = 3 then some r.pkt.w5 else none) hr hslot hheld hread
        (by rw [hv]; exact hne) (by rw [hv]; exact hwrite)
      refine ⟨_, exec_packetCompletion_signals hr hw (signal_some h3 hs ht hst) hlocal, hruns, hmem, hcqs, hdue, fun hfn => ?_⟩
      rw [hfn] at hwrite
      exact hmem.trans (mem_fnWrite_mf hwrite)

end Sys2Proof.Laws.Packets
end

section
/-! PROOF. Attestation reports and weight meters (R92, R93, R96-R103). -/

namespace Sys2Proof.Laws.Metering

open Machine
open Pages (vd_setVd_self)

variable {s t u : State} {i cid : Nat} {m : Meter}

/-! ### Attestation (R92, R93) -/

theorem exec_attestationRequest_spdm (n : List Byte) (h : hasVd s cid = true) :
    exec (.attestationRequest cid (some n)) s = .next { s with out := s.out ++ [.attest (attestReport s cid n)] } := by
  rw [exec_attestationRequest, execAttestationRequest, h]
  rfl

/-- The attestation unit of a VD whose report is captured. -/
def captured (s : State) (cid : Nat) : Att :=
  { (s.vd cid).att with
    busy := true, report := attestReport s cid ((s.vd cid).att.nonce.flatMap fun w => natLe 8 w.toNat), held := false }

theorem exec_attestationRequest_go (h : hasVd s cid = true) (hb : (s.vd cid).att.busy = false) :
    exec (.attestationRequest cid none) s = .next (State.at (s.setVd cid { s.vd cid with att := captured s cid }).tick1
      (s.cycle + 1 + Config.hubCycles s.free) (.attestationReportWrite cid)) := by
  rw [exec_attestationRequest, execAttestationRequest, h]
  dsimp only
  rw [hb]
  rfl

/-- The report of a VD has been written, with its status. -/
def reported (cid : Nat) (st : BitVec 2) (s : State) : State :=
  s.setVd cid { s.vd cid with att := { (s.vd cid).att with busy := false, st := st, report := [], held := false } }

theorem att_reported (st : BitVec 2) (s : State) :
    ((reported cid st s).vd cid).att.st = st ∧ ((reported cid st s).vd cid).att.busy = false := by
  rw [reported, vd_setVd_self]
  exact ⟨rfl, rfl⟩

theorem exec_attestationReportWrite_unaligned (hb : (s.vd cid).att.busy = true) (h : (s.vd cid).att.dest.toNat % 256 ≠ 0) :
    exec (.attestationReportWrite cid) s = .next (reported cid 3 s) := by
  rw [exec_attestationReportWrite, execAttestationReportWrite]
  dsimp only
  rw [hb]
  exact congrArg Host.Outcome.next (if_pos h)

theorem exec_attestationReportWrite_ok (hb : (s.vd cid).att.busy = true) (h : (s.vd cid).att.dest.toNat % 256 = 0)
    (hput : vwrite s cid (s.vd cid).att.dest.toNat (s.vd cid).att.report [] = .ok u) :
    ∃ pj, exec (.attestationReportWrite cid) s = .next (reported cid 1 (chargeOper u pj)) := by
  refine ⟨rangeEnergy s cid (s.vd cid).att.dest.toNat (s.vd cid).att.report.length, ?_⟩
  rw [exec_attestationReportWrite, execAttestationReportWrite]
  dsimp only
  rw [hb, if_neg (by decide), if_neg (fun hne => hne h), hubPut, hput]
  rfl

/-! ### Meters (R96-R99) -/

theorem meter_setMeter (s : State) (i : Nat) (m : Meter) : (s.setMeter i m).meter i = m := tget_tset_self ..

/-- The metered bits of a region are all that marking it changes. -/
theorem markRegion_eq (m : Meter) (on : Bool) (s : State) : ∃ c, markRegion m on s = { s with mem := c } := by
  unfold markRegion
  generalize List.range m.pages.toNat = l
  induction l generalizing s with
  | nil => exact ⟨s.mem, rfl⟩
  | cons k l ih =>
    have hpage : ∃ c, markPage m.cid.toNat on s (m.base.toNat + k) = { s with mem := c } := by
      unfold markPage
      split
      · exact ⟨s.mem, rfl⟩
      · exact ⟨_, rfl⟩
    obtain ⟨c, hc⟩ := hpage
    obtain ⟨c', hc'⟩ := ih (markPage m.cid.toNat on s (m.base.toNat + k))
    rw [List.foldl_cons, hc', hc]
    exact ⟨c', rfl⟩

theorem meter_markRegion (on : Bool) (s : State) (j : Nat) : (markRegion m on s).meter j = s.meter j := by
  obtain ⟨c, hc⟩ := markRegion_eq m on s
  rw [hc]
  rfl

theorem agenda_markRegion (on : Bool) (s : State) : (markRegion m on s).agenda = s.agenda := by
  obtain ⟨c, hc⟩ := markRegion_eq m on s
  rw [hc]

theorem wm_markRegion (on : Bool) (s : State) : (markRegion m on s).wm = s.wm := by
  obtain ⟨c, hc⟩ := markRegion_eq m on s
  rw [hc]

/-- A trigger that finds a place. -/
theorem meterTrigger_room (type event : Nat) (extra : List Byte) (h : (s.meter i).waiting.length < 8) :
    meterTrigger i type event extra s = (s.setMeter i { s.meter i with
      waiting := (s.meter i).waiting ++ [meterCapture s (s.meter i) type event false extra] }).push (.meterRecordWrite i) :=
  if_pos h

theorem meter_push (s : State) (x : Instr) (j : Nat) : (s.push x).meter j = s.meter j := rfl

/-- The meter after a trigger that finds a place. -/
theorem meter_meterTrigger (type event : Nat) (extra : List Byte) (h : (s.meter i).waiting.length < 8) :
    (meterTrigger i type event extra s).meter i = { s.meter i with
      waiting := (s.meter i).waiting ++ [meterCapture s (s.meter i) type event false extra] } := by
  rw [meterTrigger_room type event extra h, meter_push, meter_setMeter]

/-- A checkpoint that finds none is skipped. -/
theorem meterTrigger_skipped (event : Nat) (extra : List Byte) (h : (s.meter i).waiting.length = 8) :
    meterTrigger i 2 event extra s = { s with wm := { s.wm with skip := satInc s.wm.skip } } := by
  refine (if_neg ?_).trans (if_pos rfl)
  exact Nat.not_lt.2 (Nat.le_of_eq h.symm)

theorem types_append (l : List MeterTrig) (x : MeterTrig) : (l ++ [x]).map (·.type) = l.map (·.type) ++ [x.type] := List.map_append

/-- A meter that opens. -/
def opened (i : Nat) (s : State) : Meter :=
  { base := (s.meter i).base, pages := (s.meter i).pages, cid := (s.meter i).cid, v := true, mid := Config.randomMid s.wm.draws }

theorem exec_meterOpen_opens (hv : (s.meter i).v = false) (href : openRefused s i = false) (hw : (s.meter i).waiting = []) :
    ∃ d, exec (.meterOpen i) s = .next (markRegion (opened i s) true
      (meterTrigger i 1 0 [] { s.setMeter i (opened i s) with wm := { (s.setMeter i (opened i s)).wm with draws := d } })) := by
  refine ⟨s.wm.draws + 1, ?_⟩
  rw [exec_meterOpen, execMeterOpen]
  dsimp only
  rw [hv, href, hw]
  rfl

theorem exec_meterOpen_refused (h : (s.meter i).v = true ∨ openRefused s i = true) : exec (.meterOpen i) s = .next s := by
  rw [exec_meterOpen, execMeterOpen]
  exact congrArg Host.Outcome.next (if_pos h)

theorem meterRoom_of_lt (h : (s.meter i).waiting.length < 8) : meterRoom s i = true :=
  Bool.or_eq_true_iff.2 (.inl (decide_eq_true h))

/-- A change of every entry keeps what the change of each keeps. -/
theorem tget_tmap_proj {α β : Type} (g : α → β) {f : Nat → α → α} (hf : ∀ i v, g (f i v) = g v) (d : α) (t : Tab α) (i : Nat) :
    g (tget d (tmap t f) i) = g (tget d t i) := by
  induction t with
  | nil => rfl
  | cons x t ih =>
    obtain ⟨j, v⟩ := x
    by_cases hj : i = j
    · subst hj
      simpa [tmap, tget] using hf i v
    · rw [show tget d (tmap ((j, v) :: t) f) i = tget d (tmap t f) i from if_neg hj, show tget d ((j, v) :: t) i = tget d t i from if_neg hj]
      exact ih

theorem waiting_countRead (s : State) (cid va n : Nat) (i : Nat) : ((countRead s cid va n).meter i).waiting = (s.meter i).waiting := by
  unfold countRead State.meter
  dsimp only
  refine tget_tmap_proj Meter.waiting (fun _ m => ?_) {} s.wm.meters i
  split <;> rfl

theorem meter_chargeOper (s : State) (pj i : Nat) : (chargeOper s pj).meter i = s.meter i := rfl

/-- What a read of a meter's region leaves of the meter. -/
theorem waiting_readRegion (m' : Meter) (s : State) (i : Nat) : ((readRegion m' s).meter i).waiting = (s.meter i).waiting := by
  unfold readRegion
  dsimp only
  rw [meter_chargeOper]
  exact waiting_countRead ..

theorem exec_meterSeal_seals {b : List Byte} {p : List Nat} (hv : (s.meter i).v = true) (hs : (s.meter i).sealed = false)
    (hw : (s.meter i).waiting.length < 8)
    (hread : vread s (s.meter i).cid.toNat ((s.meter i).base.toNat * 65536) ((s.meter i).pages.toNat * 65536) = .ok (b, p)) :
    exec (.meterSeal i) s = .next (meterTrigger i 4 0 [] ((readRegion (s.meter i) s).setMeter i
      { (readRegion (s.meter i) s).meter i with sealed := true, digest := shake256 64 b })) := by
  rw [exec_meterSeal, execMeterSeal]
  dsimp only
  rw [hv, hs, if_neg (by decide), meterRoom_of_lt hw, if_neg (by decide), hread]

theorem exec_meterRetire_retires (hv : (s.meter i).v = true) (hw : (s.meter i).waiting.length < 8) :
    exec (.meterRetire i) s = .next (markRegion (s.meter i) false ((meterTrigger i 5 0 [] s).setMeter i
      { (meterTrigger i 5 0 [] s).meter i with v := false, sealed := false })) := by
  rw [exec_meterRetire, execMeterRetire]
  dsimp only
  rw [hv, meterRoom_of_lt hw]
  rfl

theorem exec_meterCheckpoint_one (h : s.wm.meters = [(i, m)]) (hv : m.v = true) :
    exec .meterCheckpoint s = .next (meterTrigger i 2 0 [] s) := by
  rw [exec_meterCheckpoint, execMeterCheckpoint, h]
  simp [hv]

/-! ### Records (R98, R100, R101) -/

theorem exec_meterRecordWrite_full (hw : (s.meter i).waiting ≠ []) (hcid : (s.meter i).cid.toNat = cid) (hvd : hasVd s cid = true)
    (hfull : tenantFull (s.vd cid) = true) : exec (.meterRecordWrite i) s = .next s := by
  rw [exec_meterRecordWrite, execMeterRecordWrite]
  dsimp only
  obtain ⟨t, l, hl⟩ := List.exists_cons_of_ne_nil hw
  rw [hl]
  dsimp only
  rw [hcid, hvd, hfull]
  rfl

/-- The VD whose log has taken a record. -/
def logged (cid : Nat) (s : State) : State :=
  s.setVd cid { s.vd cid with mlogW := (s.vd cid).mlogW + 1, mlogF := (s.vd cid).mlogF }

theorem exec_meterRecordWrite_ok {t0 : MeterTrig} {l : List MeterTrig} (hw : (s.meter i).waiting = t0 :: l)
    (hcid : (s.meter i).cid.toNat = cid) (hvd : hasVd s cid = true) (htype : t0.type ≠ 6) (hgran : t0.gran = 0)
    (hroom : tenantFull (s.vd cid) = false)
    (hput : vwrite s cid ((s.vd cid).logVa + (s.vd cid).mlogW.toNat % (s.vd cid).logCap * 3584)
      (signedRecord (recordBody (s.meter i) t0 false t0.count)) [] = .ok u) :
    ∃ pj, exec (.meterRecordWrite i) s
      = .next (recordDone i (shake256 64 (recordBody (s.meter i) t0 false t0.count)) (logged cid (chargeOper u pj))) := by
  refine ⟨rangeEnergy s cid ((s.vd cid).logVa + (s.vd cid).mlogW.toNat % (s.vd cid).logCap * 3584)
    (signedRecord (recordBody (s.meter i) t0 false t0.count)).length, ?_⟩
  rw [exec_meterRecordWrite, execMeterRecordWrite]
  dsimp only
  rw [hw]
  dsimp only
  rw [hcid, hvd, hroom, hgran, if_neg (show ¬ (true && false || (operatorRecord 0 (s.meter i) t0).isSome && operatorFull s.wm) = true from
    Bool.false_ne_true), if_neg (by decide), hubPut, hput]
  dsimp only
  rw [if_pos htype]
  rfl

/-- A meter whose oldest record has been written, and that holds no late trigger. -/
theorem recordDone_spec (digest : List Byte) (hlate : (s.meter i).late = []) :
    (recordDone i digest s).meter i = { s.meter i with
        seqNo := (s.meter i).seqNo + 1, prev := digest, waiting := (s.meter i).waiting.drop 1 }
      ∧ (recordDone i digest s).mem = s.mem ∧ (recordDone i digest s).vds = s.vds := by
  unfold recordDone
  dsimp only
  rw [hlate]
  dsimp only
  split
  · exact ⟨meter_setMeter .., rfl, rfl⟩
  · exact ⟨meter_setMeter .., rfl, rfl⟩

/-! ### Continuation (R102, R103) -/

theorem exec_meterContinuation_refused (h : contStatus s ≠ 1) :
    exec .meterContinuation s = .next { s with wm := { s.wm with contSt := BitVec.ofNat 3 (contStatus s) } } := by
  rw [exec_meterContinuation, execMeterContinuation]
  exact congrArg Host.Outcome.next (if_pos h)

/-- A meter that a record continues, whose two first records wait. -/
theorem exec_meterContinuation_opens (h : contStatus s = 1) (hi : s.wm.contSlot.toNat = i) (hw : (s.meter i).waiting = []) :
    ∃ gap, exec .meterContinuation s = .next (markRegion (continueMeter (s.meter i) (pread s s.wm.contPa.toNat 3584)) true
      (meterTrigger i 8 0 gap (meterTrigger i 7 0 []
        (({ s with wm := { s.wm with contSt := 1 } } : State).setMeter i (continueMeter (s.meter i) (pread s s.wm.contPa.toNat 3584)))))) := by
  rw [exec_meterContinuation, execMeterContinuation]
  dsimp only
  rw [hi, hw, h, if_neg (by decide), if_neg (by decide)]
  exact ⟨_, rfl⟩

theorem contSt_meterTrigger (type event : Nat) (extra : List Byte) (h : (s.meter i).waiting.length < 8) :
    (meterTrigger i type event extra s).wm.contSt = s.wm.contSt := by
  rw [meterTrigger_room type event extra h]
  rfl

/-- Settles O50: a report is captured and written, and a meter's record goes through `meterTrigger` and `recordDone`. -/
theorem meterSteps : Obligations.MeterSteps := by
  unfold Obligations.MeterSteps
  intro i cid s
  refine ⟨fun n h => exec_attestationRequest_spdm n h, fun h hb => ?go, fun hb hdest => ?unaligned, fun u hb hdest hput => ?written,
    fun hv href hw => ?opens, exec_meterOpen_refused, fun b p hv hs hw hread => ?seals, fun hv hw => ?retires, fun hm hv hw => ?checkpoint,
    fun hm hv hw => ?skipped, fun t0 l u hw hlate hcid hvd htype hgran hroom hput => ?record, exec_meterRecordWrite_full,
    fun n hn => ?ridx, fun n hn => ?ridxBad, exec_meterContinuation_refused, fun h hi hw => ?continues⟩
  case go =>
    refine ⟨_, _, exec_attestationRequest_go h hb, ?_, rfl, by omega⟩
    exact congrArg Vd.att (vd_setVd_self ..)
  case unaligned =>
    obtain ⟨hst, hbusy⟩ := att_reported (cid := cid) 3 s
    exact ⟨_, exec_attestationReportWrite_unaligned hb hdest, hst, hbusy, rfl⟩
  case written =>
    obtain ⟨pj, hexec⟩ := exec_attestationReportWrite_ok hb hdest hput
    obtain ⟨hst, hbusy⟩ := att_reported (cid := cid) 1 (chargeOper u pj)
    exact ⟨_, hexec, hst, hbusy, rfl⟩
  case opens =>
    obtain ⟨d, hexec⟩ := exec_meterOpen_opens hv href hw
    refine ⟨_, hexec, ?_⟩
    generalize hu : ({ s.setMeter i (opened i s) with wm := { (s.setMeter i (opened i s)).wm with draws := d } } : State) = u
    have hmeter : u.meter i = opened i s := by
      rw [← hu]
      exact meter_setMeter ..
    have hroom : (u.meter i).waiting.length < 8 := by
      rw [hmeter]
      exact Nat.zero_lt_succ _
    rw [meter_markRegion, agenda_markRegion, meter_meterTrigger 1 0 [] hroom, hmeter, meterTrigger_room 1 0 [] hroom]
    exact ⟨rfl, rfl, rfl, rfl, rfl, rfl, List.mem_append_right _ (List.mem_singleton_self _)⟩
  case seals =>
    refine ⟨_, exec_meterSeal_seals hv hs hw hread, ?_⟩
    have hwait := waiting_readRegion (s.meter i) s i
    generalize readRegion (s.meter i) s = u at hwait
    have hmeter := meter_setMeter u i { u.meter i with sealed := true, digest := shake256 64 b }
    have hroom : ((u.setMeter i { u.meter i with sealed := true, digest := shake256 64 b }).meter i).waiting.length < 8 := by
      rw [hmeter, hwait]
      exact hw
    rw [meter_meterTrigger 4 0 [] hroom, hmeter, types_append, hwait]
    exact ⟨rfl, rfl, rfl⟩
  case retires =>
    refine ⟨_, exec_meterRetire_retires hv hw, ?_⟩
    rw [meter_markRegion, meter_setMeter, meter_meterTrigger 5 0 [] hw, types_append]
    exact ⟨rfl, rfl⟩
  case checkpoint =>
    refine ⟨_, exec_meterCheckpoint_one hm hv, ?_, ?_⟩
    · rw [meter_meterTrigger 2 0 [] hw, types_append]
      rfl
    · rw [meterTrigger_room 2 0 [] hw]
      rfl
  case skipped =>
    refine ⟨_, exec_meterCheckpoint_one hm hv, ?_⟩
    rw [meterTrigger_skipped 0 [] hw]
    exact ⟨rfl, rfl⟩
  case record =>
    obtain ⟨pj, hexec⟩ := exec_meterRecordWrite_ok hw hcid hvd htype hgran hroom hput
    have hwritten : Packets.Written s u := by
      unfold vwrite vwriteBy at hput
      split at hput
      · cases hput
      · cases hput
        exact Packets.written_writeParts ..
    have hmeter : (logged cid (chargeOper u pj)).meter i = s.meter i := by
      rw [hwritten]
      rfl
    obtain ⟨hdone, hmem, hvds⟩ := recordDone_spec (s := logged cid (chargeOper u pj))
      (shake256 64 (recordBody (s.meter i) t0 false t0.count)) (by rw [hmeter]; exact hlate)
    refine ⟨_, hexec, hmem, ?_, ?_⟩
    · rw [State.vd, hvds]
      refine (congrArg Vd.mlogW (vd_setVd_self ..)).trans ?_
      rw [hwritten]
      rfl
    · rw [hdone, hmeter, hw]
      exact ⟨rfl, rfl, rfl⟩
  case ridx =>
    refine ⟨retryRecords (s.setVd cid { s.vd cid with mlogR := n }), ?_, congrArg Vd.mlogR (vd_setVd_self ..)⟩
    rw [exec_tenantLogRidxWrite, execTenantLogRidxWrite]
    exact congrArg Host.Outcome.next (if_neg (Nat.not_lt.2 hn))
  case ridxBad =>
    rw [exec_tenantLogRidxWrite, execTenantLogRidxWrite]
    exact congrArg Host.Outcome.next (if_pos hn)
  case continues =>
    obtain ⟨gap, hexec⟩ := exec_meterContinuation_opens h hi hw
    refine ⟨_, hexec, ?_⟩
    generalize hu : ({ s with wm := { s.wm with contSt := 1 } } : State).setMeter i
      (continueMeter (s.meter i) (pread s s.wm.contPa.toNat 3584)) = u
    have hst : u.wm.contSt = 1 := by
      rw [← hu]
      rfl
    have hmeter : u.meter i = continueMeter (s.meter i) (pread s s.wm.contPa.toNat 3584) := by
      rw [← hu, meter_setMeter]
    have hroom : (u.meter i).waiting.length < 8 := by
      rw [hmeter]
      exact Nat.zero_lt_succ _
    have hnext := meter_meterTrigger 7 0 [] hroom
    have hroom' : ((meterTrigger i 7 0 [] u).meter i).waiting.length < 8 := by
      rw [hnext, hmeter]
      exact Nat.succ_lt_succ (Nat.zero_lt_succ _)
    rw [wm_markRegion, contSt_meterTrigger 8 0 gap hroom', contSt_meterTrigger 7 0 [] hroom, meter_markRegion,
      meter_meterTrigger 8 0 gap hroom', hnext, hmeter]
    exact ⟨hst, rfl, rfl, rfl, rfl⟩

end Sys2Proof.Laws.Metering
end

section
/-! PROOF. What telling of an event can change (R272, R264): traces and fault records change what a post can, the operator's trace
buffers and the fault ring of the management function. -/

namespace Sys2Proof.Laws.Tracing

open Machine Laws.Posting

/-- Two states that differ at most in what a post, a trace or a fault record can change. -/
def Told (s t : State) : Prop := t = { withPost s (postFields t) with optrc := t.optrc, mfFlt := t.mfFlt }

variable {s t u : State}

theorem Told.refl (s : State) : Told s s := rfl

theorem Told.of_eq {f : PostFields} {o : Tab Trc} {m : FaultRing} (h : t = { withPost s f with optrc := o, mfFlt := m }) :
    Told s t := by
  subst h
  rfl

theorem Told.trans (h : Told s t) (h' : Told t u) : Told s u := by
  rw [Told, h] at h'
  exact .of_eq h'

theorem Told.of_posted (h : Posted s t) : Told s t := by
  rw [Told, h]
  rfl

theorem Told.foldl {α : Type} {f : State → α → State} (hf : ∀ s a, Told s (f s a)) (l : List α) (s : State) :
    Told s (l.foldl f s) := by
  induction l generalizing s with
  | nil => exact .refl s
  | cons a l ih => exact (hf s a).trans (ih _)

theorem Told.cores (h : Told s t) : t.cores = s.cores := by rw [h]; rfl
theorem Told.strands (h : Told s t) : t.strands = s.strands := by rw [h]; rfl
theorem Told.runs (h : Told s t) : t.runs = s.runs := by rw [h]; rfl
theorem Told.cycle (h : Told s t) : t.cycle = s.cycle := by rw [h]; rfl
theorem Told.ref (h : Told s t) : t.ref = s.ref := by rw [h]; rfl
theorem Told.wm (h : Told s t) : t.wm = s.wm := by rw [h]; rfl
theorem Told.plc (h : Told s t) : t.plc = s.plc := by rw [h]; rfl
theorem Told.core (h : Told s t) (c : Nat) : t.core c = s.core c := by rw [State.core, h.cores]; rfl
theorem Told.cob (h : Told s t) (c : Nat) : t.cob c = s.cob c := by rw [State.cob, h.core]; rfl
theorem Told.owner (h : Told s t) (c w : Nat) : t.owner c w = s.owner c w := by rw [State.owner, h.core]; rfl
theorem Told.strand (h : Told s t) (i : Nat) : t.strand i = s.strand i := by rw [State.strand, h.strands]; rfl

/-! ### Traces -/

/-- A function that writes a record, where it does, changes no more than a post can. -/
def PutsPosted (put : State → Nat → List Byte → Except VaErr State) : Prop :=
  ∀ s a b t, put s a b = .ok t → Posted s t

theorem putsPosted_hubPut (cid base : Nat) : PutsPosted fun s a b => hubPut s cid (base + a) b := fun _ _ _ _ h => posted_hubPut h

theorem posted_hubPutHbm {a : Nat} {b : List Byte} (h : hubPutHbm s a b = .ok t) : Posted s t := by
  unfold hubPutHbm at h
  split at h
  · cases h
    exact (posted_pwrite ..).trans (posted_chargeOper ..)
  · cases h

theorem putsPosted_hubPutHbm (base : Nat) : PutsPosted fun s a b => hubPutHbm s (base + a) b := fun _ _ _ _ h => posted_hubPutHbm h

theorem posted_trcWrite {put : State → Nat → List Byte → Except VaErr State} (hput : PutsPosted put) (tick : Nat)
    (words : List W64) (r : Trc) (s : State) : Posted s (trcWrite put tick words r s).1 := by
  unfold trcWrite
  dsimp only
  split
  · exact .refl s
  split
  · split
    · exact .refl s
    next h => exact hput _ _ _ _ h
  split
  · exact .refl s
  split
  · exact .refl s
  next s1 hpad =>
    have hs : Posted s s1 := by
      split at hpad
      · exact hput _ _ _ _ hpad
      · cases hpad
        exact .refl s
    split
    · exact hs
    next h => exact hs.trans (hput _ _ _ _ h)

theorem posted_setVd (s : State) (c : Nat) (v : Vd) : Posted s (s.setVd c v) := rfl

theorem told_trace (cid type tick : Nat) (words mfWords : List W64) (s : State) : Told s (trace cid type tick words mfWords s) := by
  unfold trace
  split
  · exact .refl s
  dsimp only
  split
  · exact .of_posted ((posted_trcWrite (putsPosted_hubPut _ _) ..).trans (posted_setVd ..))
  · exact (Told.of_posted ((posted_trcWrite (putsPosted_hubPut _ _) ..).trans (posted_setVd ..))).trans
      ((Told.of_posted (posted_trcWrite (putsPosted_hubPutHbm _) ..)).trans (.of_eq (f := postFields _) rfl))

theorem told_traceRec (cid type tick : Nat) (fields : List Nat) (s : State) : Told s (traceRec cid type tick fields s) := told_trace ..

theorem told_traceEvent (sid code a b : Nat) (s : State) : Told s (traceEvent sid code a b s) := told_traceRec ..

/-! ### Fault records -/

theorem posted_ringWrite {put : State → Nat → List Byte → Except VaErr State} (hput : ∀ s a b t, put s a b = .ok t → Posted s t)
    (r : FaultRing) (b : List Byte) (s : State) : Posted s (ringWrite put r b s).1 := by
  unfold ringWrite
  dsimp only
  split
  · exact .refl s
  split
  · exact .refl s
  next h => exact hput _ _ _ _ h

theorem told_recordWrite (r : FaultRec) (s : State) : Told s (recordWrite r s).1 := by
  unfold recordWrite
  dsimp only
  exact (Told.of_posted ((posted_ringWrite (fun _ _ _ _ h => posted_hubPut h) ..).trans (posted_setVd ..))).trans
    ((Told.of_posted (posted_ringWrite (fun _ _ _ _ h => posted_hubPutHbm h) ..)).trans (.of_eq (f := postFields _) rfl))

theorem told_cqPost (fn n : Nat) (w0 w1 : W64) (s : State) : Told s (cqPost fn n w0 w1 s) := .of_posted (posted_cqPost ..)

end Sys2Proof.Laws.Tracing
end

section
/-! PROOF. The system instructions of the firmware context (R405, R409-R420). -/

namespace Sys2Proof.Laws.Systems

open Machine Laws.Posting Laws.Tracing

/-! ### The issue of a system instruction -/

/-- A slot of the firmware context in which an instruction with this head issues and is not guarded off (R405, R421). -/
structure Issues (h : Hd) (s : State) : Prop where
  str : s.cur.str = .f
  tok : h.tok = 0
  guard : h.g ≠ 8
  holds : selects (s.cob s.cur.core).p (s.cob s.cur.core).blocks h.g = true

/-- Cobbler of a core steps past its instruction. -/
def stepped (c : Nat) (h : Hd) (s : State) : State := s.setCob c ((s.cob c).advance h.idle.toNat)

/-- What follows an instruction's own part. -/
def SysOut.after (c : Nat) (h : Hd) (s : State) : SysOut → State
  | .done s' => stepped c h s'
  | .wait s' => s'
  | .lock => lockCore c s

variable {h : Hd} {s : State}

theorem issueSys_issues (hi : Issues h s) (act : Nat → Cobbler → State → SysOut) :
    issueSys h act s = .next (SysOut.after s.cur.core h s (act s.cur.core (s.cob s.cur.core) s)) := by
  obtain ⟨hstr, htok, hguard, hholds⟩ := hi
  unfold issueSys
  rw [if_neg (not_not_intro hstr)]
  dsimp only
  rw [if_neg (not_or.mpr ⟨not_not_intro htok, hguard⟩), if_neg (by simp [hholds])]
  cases act s.cur.core (s.cob s.cur.core) s <;> rfl

@[simp] theorem cob_stepped (c : Nat) (h : Hd) (s : State) : (stepped c h s).cob c = (s.cob c).advance h.idle.toNat := by
  simp [stepped]

@[simp] theorem strands_stepped (c : Nat) (h : Hd) (s : State) : (stepped c h s).strands = s.strands := rfl
@[simp] theorem strand_stepped (c : Nat) (h : Hd) (s : State) (i : Nat) : (stepped c h s).strand i = s.strand i := rfl
@[simp] theorem agenda_stepped (c : Nat) (h : Hd) (s : State) : (stepped c h s).agenda = s.agenda := rfl
@[simp] theorem timers_stepped (c : Nat) (h : Hd) (s : State) : (stepped c h s).timers = s.timers := rfl
@[simp] theorem out_stepped (c : Nat) (h : Hd) (s : State) : (stepped c h s).out = s.out := rfl
@[simp] theorem core_stepped (c : Nat) (h : Hd) (s : State) :
    (stepped c h s).core c = { s.core c with cob := (s.cob c).advance h.idle.toNat } := by
  simp [stepped, State.setCob]
@[simp] theorem owner_stepped (c : Nat) (h : Hd) (s : State) (w : Nat) : (stepped c h s).owner c w = s.owner c w := by
  simp [State.owner, CoreSt.owner]

theorem cob_emit (s : State) (x : Out) (c : Nat) : (s.emit x).cob c = s.cob c := rfl

theorem cob_tick1_at (s : State) (n : Nat) (i : Instr) (c : Nat) : (s.at n i).tick1.cob c = s.cob c := rfl

theorem cob_setOwner (s : State) (c w : Nat) (o : Owner) (d : Nat) : (s.setOwner c w o).cob d = s.cob d := by
  by_cases hd : d = c
  · subst hd
    simp [State.setOwner, State.cob, CoreSt.setOwner]
  · simp [State.setOwner, State.cob, hd]

theorem strand_setOwner (s : State) (c w : Nat) (o : Owner) (i : Nat) : (s.setOwner c w o).strand i = s.strand i := rfl

/-! ### A strand that goes on -/

theorem told_unparkStrand (sid cyc : Nat) (s : State) : ∃ t u, t.state = (if (s.strand sid).overdue then .stalled else .running)
    ∧ unparkStrand sid cyc s = u ∧ Told (s.setStrand sid t) u :=
  ⟨_, _, rfl, rfl, Told.trans (.of_posted (posted_afterNs _ _ _)) (told_traceEvent ..)⟩

theorem cob_unparkStrand (sid cyc : Nat) (s : State) (c : Nat) : (unparkStrand sid cyc s).cob c = s.cob c := by
  obtain ⟨_, _, _, hu, htold⟩ := told_unparkStrand sid cyc s
  rw [hu, htold.cob]
  rfl

theorem owner_unparkStrand (sid cyc : Nat) (s : State) (c w : Nat) : (unparkStrand sid cyc s).owner c w = s.owner c w := by
  obtain ⟨_, _, _, hu, htold⟩ := told_unparkStrand sid cyc s
  rw [hu, htold.owner]
  rfl

theorem state_unparkStrand (sid cyc : Nat) (s : State) :
    ((unparkStrand sid cyc s).strand sid).state = if (s.strand sid).overdue then .stalled else .running := by
  obtain ⟨t, _, ht, hu, htold⟩ := told_unparkStrand sid cyc s
  rw [hu, htold.strand, State.strand_setStrand, if_pos rfl, ht]

/-! ### The result register -/

theorem cobWrite_of_ne {a : BitVec 4} (ha : a ≠ 0) (c : Nat) (v : W64) (s : State) :
    cobWrite c a v s = s.setCob c { s.cob c with x := cset (s.cob c).x a.toNat v } := if_neg ha

@[simp] theorem cob_cobWrite {a : BitVec 4} (ha : a ≠ 0) (c : Nat) (v : W64) (s : State) :
    (cobWrite c a v s).cob c = { s.cob c with x := cset (s.cob c).x a.toNat v } := by
  simp [cobWrite_of_ne ha]

theorem core_cobWrite {a : BitVec 4} (ha : a ≠ 0) (c : Nat) (v : W64) (s : State) :
    (cobWrite c a v s).core c = { s.core c with cob := { s.cob c with x := cset (s.cob c).x a.toNat v } } := by
  simp [cobWrite_of_ne ha, State.setCob]

theorem cobWrite_eq (c : Nat) (a : BitVec 4) (v : W64) (s : State) :
    cobWrite c a v s = { s with cores := (cobWrite c a v s).cores } := by
  unfold cobWrite
  split <;> rfl

theorem owner_cobWrite (c d : Nat) (a : BitVec 4) (v : W64) (s : State) (w : Nat) :
    (cobWrite c a v s).owner d w = s.owner d w := by
  unfold cobWrite
  split
  · rfl
  by_cases hd : d = c
  · subst hd
    simp [State.owner, State.setCob, CoreSt.owner]
  · simp [State.owner, State.setCob, hd]

/-! ### Tables -/

/-- The weave table that 32 bytes give (R413). -/
def tableOf (l : List Byte) : Tab Nat :=
  ((List.range 32).zip l).map fun (j, v) => (j, if v.getLsbD 7 then (v.extractLsb' 0 3).toNat + 1 else 0)

theorem tget_zip_range' {α β : Type} (d : β) (f : α → β) (e : α) (l : List α) (k j : Nat) (hj : j < l.length) :
    tget d (((List.range' k l.length).zip l).map fun x => (x.1, f x.2)) (k + j) = f (l.getD j e) := by
  induction l generalizing k j with
  | nil => simp at hj
  | cons a l ih =>
    cases j with
    | zero => simp [List.range'_succ, tget]
    | succ j =>
      have := ih (k + 1) j (by simpa using hj)
      simpa [List.range'_succ, tget, Nat.add_assoc, Nat.add_comm 1 j] using this

theorem tget_tableOf {l : List Byte} (hl : l.length = 32) {j : Nat} (hj : j < 32) :
    tget 0 (tableOf l) j = if (l.getD j 0).getLsbD 7 then ((l.getD j 0).extractLsb' 0 3).toNat + 1 else 0 := by
  have := tget_zip_range' 0 (fun v : Byte => if v.getLsbD 7 then (v.extractLsb' 0 3).toNat + 1 else 0) 0 l 0 j (by omega)
  rw [Nat.zero_add, hl, ← List.range_eq_range'] at this
  exact this

theorem length_reservedBytes (k : CoreSt) (a n : Nat) : (reservedBytes k a n).length = n := by
  simp [reservedBytes]

theorem tget_of_tfind {α : Type} {d v : α} {t : Tab α} {i : Nat} (h : tfind t i = some v) : tget d t i = v := by
  induction t with
  | nil => cases h
  | cons x t ih =>
    obtain ⟨j, u⟩ := x
    unfold tfind at h
    unfold tget
    split
    next hij =>
      rw [if_pos hij] at h
      exact Option.some.inj h
    next hij => exact ih (by simpa [hij] using h)

/-! ### What PARK and UNPARK answer -/

theorem parkAnswer_none {c w tick : Nat} (ho : tfind (s.core c).owners w = none) : parkAnswer s c w tick = 2 := by
  unfold parkAnswer
  dsimp only
  rw [ho]

theorem parkAnswer_parked {c w tick : Nat} {o : Owner} (ho : tfind (s.core c).owners w = some o) (hp : o.parked = true) :
    parkAnswer s c w tick = 3 := by
  unfold parkAnswer
  dsimp only
  rw [ho]
  exact if_pos (.inr (.inl hp))

theorem parkAnswer_running {c w tick : Nat} {o : Owner} (ho : tfind (s.core c).owners w = some o) (hcuts : (s.core c).cuts = [])
    (hp : o.parked = false) (hst : (s.strand o.sid).state = .running) :
    parkAnswer s c w tick = if tick < ownNext (s.strand o.sid) o then 1 else 0 := by
  unfold parkAnswer
  dsimp only
  rw [ho]
  exact if_neg (by simp [hcuts, hp, hst])

theorem unparkAnswer_none {c w cyc : Nat} (ho : tfind (s.core c).owners w = none) : unparkAnswer s c w cyc = 2 := by
  unfold unparkAnswer
  rw [ho]

theorem unparkAnswer_running {c w cyc : Nat} {o : Owner} (ho : tfind (s.core c).owners w = some o) (hp : o.parked = false)
    (hst : (s.strand o.sid).state = .running) : unparkAnswer s c w cyc = 3 := by
  unfold unparkAnswer
  rw [ho]
  exact if_pos (by simp [hp, hst])

theorem unparkAnswer_stopped {c w cyc : Nat} {o : Owner} (ho : tfind (s.core c).owners w = some o)
    (hp : o.parked = true ∨ (s.strand o.sid).state = .parked) : unparkAnswer s c w cyc = if cyc < s.cycle then 1 else 0 := by
  unfold unparkAnswer
  rw [ho]
  refine if_neg fun h => ?_
  obtain ⟨hno, hst⟩ := h
  rcases hp with hp | hp
  · simp [hp] at hno
  · exact hst hp

/-! ### An instruction that only answers -/

/-- Cobbler has a status in a register and goes on. -/
def answered (c : Nat) (h : Hd) (a : BitVec 4) (n : Nat) (s : State) : State := stepped c h (cobWrite c a (bv 64 n) s)

theorem cob_answered {a : BitVec 4} (ha : a ≠ 0) (c : Nat) (h : Hd) (n : Nat) (s : State) : (answered c h a n s).cob c
    = ({ s.cob c with x := cset (s.cob c).x a.toNat (bv 64 n) } : Cobbler).advance h.idle.toNat := by
  simp [answered, cob_cobWrite ha]

theorem strands_answered (c : Nat) (h : Hd) (a : BitVec 4) (n : Nat) (s : State) : (answered c h a n s).strands = s.strands := by
  rw [answered, strands_stepped, cobWrite_eq]

theorem strand_answered (c : Nat) (h : Hd) (a : BitVec 4) (n : Nat) (s : State) (i : Nat) :
    (answered c h a n s).strand i = s.strand i := by
  rw [State.strand, strands_answered]
  rfl

theorem agenda_answered (c : Nat) (h : Hd) (a : BitVec 4) (n : Nat) (s : State) : (answered c h a n s).agenda = s.agenda := by
  rw [answered, agenda_stepped, cobWrite_eq]

theorem cuts_answered (c : Nat) (h : Hd) {a : BitVec 4} (ha : a ≠ 0) (n : Nat) (s : State) :
    ((answered c h a n s).core c).cuts = (s.core c).cuts := by
  rw [answered, core_stepped, core_cobWrite ha]

theorem owner_answered (c : Nat) (h : Hd) (a : BitVec 4) (n : Nat) (s : State) (w : Nat) :
    (answered c h a n s).owner c w = s.owner c w := by
  rw [answered, owner_stepped, owner_cobWrite]

/-! ### System registers -/

section
variable {a ra rc : BitVec 4} {k : BitVec 8} (hi : Issues h s)
include hi

theorem exec_wrs_unassigned (hk : 0x0E < k.toNat) : exec (.wrs h a k) s = .next (lockCore s.cur.core s) := by
  rw [exec_wrs, execWrs, issueSys_issues hi, if_pos hk]
  rfl

theorem exec_rdsp_unassigned (hk : 0x0E < k.toNat) : exec (.rdsp h a k) s = .next (lockCore s.cur.core s) := by
  rw [exec_rdsp, execRdsp, issueSys_issues hi, if_pos hk]
  rfl

theorem exec_wrs_assigned (hk : ¬ 0x0E < k.toNat) : exec (.wrs h a k) s = .next (stepped s.cur.core h
    (s.setCob s.cur.core (sysWrite (s.core s.cur.core) k.toNat ((s.cob s.cur.core).xr a)))) := by
  rw [exec_wrs, execWrs, issueSys_issues hi, if_neg hk]
  rfl

theorem exec_rdsp_assigned (hk : ¬ 0x0E < k.toNat) : exec (.rdsp h a k) s = .next (stepped s.cur.core h
    (cobWrite s.cur.core a (sysRead s s.cur.core k.toNat) s)) := by
  rw [exec_rdsp, execRdsp, issueSys_issues hi, if_neg hk]
  rfl

/-- A write of a system register leaves Cobbler with what `sysWrite` answers. -/
theorem wrs_spec (hk : ¬ 0x0E < k.toNat) {b' : Cobbler}
    (hb : sysWrite (s.core s.cur.core) k.toNat ((s.cob s.cur.core).xr a) = b') :
    ∃ t, exec (.wrs h a k) s = .next t ∧ t.cob s.cur.core = b'.advance h.idle.toNat :=
  ⟨_, exec_wrs_assigned hi hk, by simp [hb]⟩

theorem rdsp_spec (ha : a ≠ 0) (hk : ¬ 0x0E < k.toNat) {v : W64} (hv : sysRead s s.cur.core k.toNat = v) :
    ∃ t, exec (.rdsp h a k) s = .next t ∧ t.cob s.cur.core
      = ({ s.cob s.cur.core with x := cset (s.cob s.cur.core).x a.toNat v } : Cobbler).advance h.idle.toNat :=
  ⟨_, exec_rdsp_assigned hi hk, by simp [cob_cobWrite ha, hv]⟩

/-! ### Events and completions -/

theorem eret_spec {ev : CobEvent} (hcur : (s.cob s.cur.core).cur = some ev) (hq : (s.cob s.cur.core).queue = []) :
    ∃ t, exec (.eret h) s = .next t
      ∧ t.cob s.cur.core = ({ s.cob s.cur.core with evres := 0, cur := none, wd := 0 } : Cobbler).advance h.idle.toNat
      ∧ t.out = s.out ++ [.evres s.cur.core ev.word (s.cob s.cur.core).evres] := by
  refine ⟨_, (by rw [exec_eret, execEret, issueSys_issues hi]), ?_⟩
  simp only [hcur, hq, List.isEmpty_nil, if_true, SysOut.after, cob_stepped, out_stepped]
  exact ⟨by simp [cob_emit, hq], rfl⟩

theorem waitev_nothing (ha : a ≠ 0) (hm : ((s.cob s.cur.core).xr rc).extractLsb' 0 5 = 0) :
    ∃ t, exec (.waitev h a rc) s = .next t ∧ t.cob s.cur.core
      = ({ s.cob s.cur.core with x := cset (s.cob s.cur.core).x a.toNat 0 } : Cobbler).advance h.idle.toNat := by
  refine ⟨_, (by rw [exec_waitev, execWaitev, issueSys_issues hi]), ?_⟩
  dsimp only
  rw [if_pos hm]
  simp [SysOut.after, cob_cobWrite ha]

theorem waitev_first (ha : a ≠ 0) {x : Completion} {l : List Completion} (hc : (s.cob s.cur.core).compl = x :: l)
    (hx : (((s.cob s.cur.core).xr rc).extractLsb' 0 5).getLsbD x.kind.toNat = true) :
    ∃ t, exec (.waitev h a rc) s = .next t ∧ t.cob s.cur.core
      = ({ s.cob s.cur.core with
            compl := l
            x := cset (s.cob s.cur.core).x a.toNat (BitVec.ofNat 64 (x.kind.toNat + x.wid.toNat * 2 ^ 4
              + x.status.toNat * 2 ^ 8 + x.seq.toNat * 2 ^ 16 + x.detail.toNat * 2 ^ 32)) } : Cobbler).advance h.idle.toNat := by
  have hm : ((s.cob s.cur.core).xr rc).extractLsb' 0 5 ≠ 0 := by
    intro h0
    rw [h0] at hx
    simp at hx
  refine ⟨_, (by rw [exec_waitev, execWaitev, issueSys_issues hi]), ?_⟩
  dsimp only
  rw [if_neg hm, hc, List.findIdx?_cons, if_pos hx]
  simp [SysOut.after, cob_cobWrite ha, bv]

theorem waitev_waits (hm : ((s.cob s.cur.core).xr rc).extractLsb' 0 5 ≠ 0) (hc : (s.cob s.cur.core).compl = []) :
    exec (.waitev h a rc) s = .next s := by
  rw [exec_waitev, execWaitev, issueSys_issues hi]
  dsimp only
  rw [if_neg hm, hc, List.findIdx?_nil]
  rfl

/-! ### The weaver -/

theorem wvset_waits (hp : (s.core s.cur.core).swPend = true) : exec (.wvset h ra rc) s = .next s := by
  rw [exec_wvset, execWvset, issueSys_issues hi]
  dsimp only
  rw [if_pos hp]
  rfl

theorem wvset_asks (hp : (s.core s.cur.core).swPend = false) (hq : (s.core s.cur.core).swQueue = [])
    (hbad : reservedBad (s.core s.cur.core) (((s.cob s.cur.core).xr ra).toNat % 16384) 32 = false) :
    ∃ t, exec (.wvset h ra rc) s = .next t ∧ (t.core s.cur.core).swPend = true
      ∧ (t.core s.cur.core).swc = ((s.cob s.cur.core).xr rc).toNat
      ∧ t.cob s.cur.core = (s.cob s.cur.core).advance h.idle.toNat
      ∧ (t.core s.cur.core).ptable = tableOf (reservedBytes (s.core s.cur.core) (((s.cob s.cur.core).xr ra).toNat % 16384) 32) := by
  refine ⟨_, (by rw [exec_wvset, execWvset, issueSys_issues hi]), ?_⟩
  dsimp only
  rw [if_neg (by simp [hp]), if_neg (by simp [hbad])]
  simp only [SysOut.after, core_stepped, State.core_setCore, State.cob, if_true, askSwitch, hq, insertBy, loadSwitch]
  exact ⟨trivial, trivial, trivial, rfl⟩

/-! ### Parking -/

omit hi in
theorem parkFlag_not_evicting {t : Strand} (hst : t.state = .running) (hev : t.evict = none) (drain : Bool) :
    { t with parkFlag := t.parkFlag || (decide (t.state = .draining) || t.evict.isSome) && !drain } = t := by
  have hno : (decide (t.state = .draining) || t.evict.isSome) = false := by simp [hst, hev]
  rw [hno, Bool.false_and, Bool.or_false]

theorem exec_park_answered {a ra rc : BitVec 4} {n : Nat}
    (hn : parkAnswer s s.cur.core (((s.cob s.cur.core).xr ra).extractLsb' 0 3).toNat ((s.cob s.cur.core).xr rc).toNat = n)
    (h0 : n ≠ 0) : exec (.park h a ra rc) s = .next (answered s.cur.core h a n s) := by
  rw [exec_park, execPark, issueSys_issues hi]
  dsimp only
  rw [hn, if_pos h0]
  rfl

theorem exec_unpark_answered {a ra rc : BitVec 4} {n : Nat}
    (hn : unparkAnswer s s.cur.core (((s.cob s.cur.core).xr ra).extractLsb' 0 3).toNat ((s.cob s.cur.core).xr rc).toNat = n)
    (h0 : n ≠ 0) : exec (.unpark h a ra rc) s = .next (answered s.cur.core h a n s) := by
  rw [exec_unpark, execUnpark, issueSys_issues hi]
  dsimp only
  rw [hn, if_neg h0]
  rfl

theorem exec_unpark_done {a ra rc : BitVec 4}
    (hn : unparkAnswer s s.cur.core (((s.cob s.cur.core).xr ra).extractLsb' 0 3).toNat ((s.cob s.cur.core).xr rc).toNat = 0) :
    exec (.unpark h a ra rc) s = .next (stepped s.cur.core h (unparkOwner s.cur.core
      (((s.cob s.cur.core).xr ra).extractLsb' 0 3).toNat ((s.cob s.cur.core).xr rc).toNat (cobWrite s.cur.core a 0 s))) := by
  rw [exec_unpark, execUnpark, issueSys_issues hi]
  dsimp only
  rw [hn, if_pos rfl]
  rfl

/-- PARK arms a cut of an owner whose tick is to come. -/
theorem park_arms {a ra rc : BitVec 4} (ha : a ≠ 0) {o : Owner}
    (ho : tfind (s.core s.cur.core).owners (((s.cob s.cur.core).xr ra).extractLsb' 0 3).toNat = some o)
    (hcuts : (s.core s.cur.core).cuts = []) (hst : (s.strand o.sid).state = .running) (hev : (s.strand o.sid).evict = none)
    (hn : parkAnswer s s.cur.core (((s.cob s.cur.core).xr ra).extractLsb' 0 3).toNat ((s.cob s.cur.core).xr rc).toNat = 0) :
    ∃ t, exec (.park h a ra rc) s = .next t
      ∧ t.cob s.cur.core = ({ s.cob s.cur.core with x := cset (s.cob s.cur.core).x a.toNat 0 } : Cobbler).advance h.idle.toNat
      ∧ t.strand o.sid = s.strand o.sid
      ∧ (t.core s.cur.core).cuts = [{ wid := (((s.cob s.cur.core).xr ra).extractLsb' 0 3).toNat
                                      tick := ((s.cob s.cur.core).xr rc).toNat
                                      drain := ((s.cob s.cur.core).xr ra).getLsbD 3 }] := by
  refine ⟨_, (by rw [exec_park, execPark, issueSys_issues hi]), ?_⟩
  dsimp only
  rw [hn, if_neg (not_not_intro rfl)]
  have hsid : ((cobWrite s.cur.core a (bv 64 0) s).core s.cur.core).owner (((s.cob s.cur.core).xr ra).extractLsb' 0 3).toNat = o := by
    rw [core_cobWrite ha]
    exact tget_of_tfind ho
  have hstrand : (cobWrite s.cur.core a (bv 64 0) s).strand o.sid = s.strand o.sid := by
    rw [cobWrite_eq]
    rfl
  rw [hsid, hstrand, parkFlag_not_evicting hst hev]
  simp [SysOut.after, core_cobWrite ha, hcuts, bv, State.cob]

/-- UNPARK of an owner that PARK has stopped, while its strand goes on elsewhere. -/
theorem unpark_owner {a ra rc : BitVec 4} (ha : a ≠ 0) {o : Owner}
    (ho : tfind (s.core s.cur.core).owners (((s.cob s.cur.core).xr ra).extractLsb' 0 3).toNat = some o)
    (hst : (s.strand o.sid).state = .running)
    (hn : unparkAnswer s s.cur.core (((s.cob s.cur.core).xr ra).extractLsb' 0 3).toNat ((s.cob s.cur.core).xr rc).toNat = 0) :
    ∃ t, exec (.unpark h a ra rc) s = .next t
      ∧ t.cob s.cur.core = ({ s.cob s.cur.core with x := cset (s.cob s.cur.core).x a.toNat 0 } : Cobbler).advance h.idle.toNat
      ∧ t.strand o.sid = s.strand o.sid
      ∧ t.owner s.cur.core (((s.cob s.cur.core).xr ra).extractLsb' 0 3).toNat
        = { o with parked := false, resumeAt := max ((s.cob s.cur.core).xr rc).toNat (s.cycle + 1) } := by
  refine ⟨_, exec_unpark_done hi hn, ?_⟩
  have howner : (cobWrite s.cur.core a 0 s).owner s.cur.core (((s.cob s.cur.core).xr ra).extractLsb' 0 3).toNat = o := by
    rw [owner_cobWrite]
    exact tget_of_tfind ho
  have hstrand : (cobWrite s.cur.core a 0 s).strand o.sid = s.strand o.sid := by rw [cobWrite_eq]; rfl
  have hcycle : (cobWrite s.cur.core a 0 s).cycle = s.cycle := by rw [cobWrite_eq]
  unfold unparkOwner
  simp only [howner, hstrand, hst, hcycle, reduceCtorEq, decide_false, Bool.false_eq_true, if_false, cob_stepped, cob_setOwner,
    strand_stepped, owner_stepped, State.owner_setOwner_self, cob_cobWrite ha]
  refine ⟨trivial, ?_, trivial⟩
  rw [← hstrand]
  rfl

/-- UNPARK of an owner whose strand is parked: the strand goes on. -/
theorem unpark_strand {a ra rc : BitVec 4} (ha : a ≠ 0) {o : Owner}
    (ho : tfind (s.core s.cur.core).owners (((s.cob s.cur.core).xr ra).extractLsb' 0 3).toNat = some o)
    (hslots : (s.strand o.sid).slots = [(s.cur.core, (((s.cob s.cur.core).xr ra).extractLsb' 0 3).toNat)])
    (hst : (s.strand o.sid).state = .parked) (hov : (s.strand o.sid).overdue = false)
    (hn : unparkAnswer s s.cur.core (((s.cob s.cur.core).xr ra).extractLsb' 0 3).toNat ((s.cob s.cur.core).xr rc).toNat = 0) :
    ∃ t, exec (.unpark h a ra rc) s = .next t
      ∧ t.cob s.cur.core = ({ s.cob s.cur.core with x := cset (s.cob s.cur.core).x a.toNat 0 } : Cobbler).advance h.idle.toNat
      ∧ (t.strand o.sid).state = .running
      ∧ (t.owner s.cur.core (((s.cob s.cur.core).xr ra).extractLsb' 0 3).toNat).parked = false := by
  refine ⟨_, exec_unpark_done hi hn, ?_⟩
  have howner : (cobWrite s.cur.core a 0 s).owner s.cur.core (((s.cob s.cur.core).xr ra).extractLsb' 0 3).toNat = o := by
    rw [owner_cobWrite]
    exact tget_of_tfind ho
  have hstrand : (cobWrite s.cur.core a 0 s).strand o.sid = s.strand o.sid := by rw [cobWrite_eq]; rfl
  unfold unparkOwner parkOwners
  simp only [howner, hstrand, hst, hslots, decide_true, if_true, List.foldl_cons, List.foldl_nil, cob_stepped, strand_stepped,
    owner_stepped, cob_unparkStrand, owner_unparkStrand, state_unparkStrand, cob_setOwner, cob_cobWrite ha,
    State.owner_setOwner_self, strand_setOwner, hov, Bool.false_eq_true, if_false]
  exact ⟨trivial, trivial, trivial⟩

/-! ### ZFILL, CSE and XPHY -/

theorem zfill_active {a ra : BitVec 4} (ha : a ≠ 0) (hz : (s.cob s.cur.core).zfill = none)
    (hact : activeId (s.core s.cur.core) (((s.cob s.cur.core).xr ra).extractLsb' 0 3).toNat = true) :
    ∃ t, exec (.zfill h a ra) s = .next t ∧ t.cob s.cur.core
      = ({ s.cob s.cur.core with x := cset (s.cob s.cur.core).x a.toNat 2 } : Cobbler).advance h.idle.toNat := by
  refine ⟨_, (by rw [exec_zfill, execZfill, issueSys_issues hi]), ?_⟩
  dsimp only
  rw [if_neg (by simp [hz]), if_pos hact]
  simp [SysOut.after, cob_cobWrite ha]

theorem zfill_starts {a ra : BitVec 4} (hz : (s.cob s.cur.core).zfill = none)
    (hact : activeId (s.core s.cur.core) (((s.cob s.cur.core).xr ra).extractLsb' 0 3).toNat = false)
    (hom : ((s.cob s.cur.core).xr ra).getLsbD 4 = false) :
    ∃ t, exec (.zfill h a ra) s = .next t
      ∧ t.cob s.cur.core = { s.cob s.cur.core with
          zfill := some ((((s.cob s.cur.core).xr ra).extractLsb' 0 3).toNat, (s.cob s.cur.core).xr ra, a) }
      ∧ ∃ n, s.cycle < n ∧ (n, .zfillZeroed s.cur.core) ∈ t.timers := by
  refine ⟨_, (by rw [exec_zfill, execZfill, issueSys_issues hi]), ?_⟩
  dsimp only
  rw [if_neg (by simp [hz]), if_neg (by rw [hact]; decide), if_neg (by rw [hom]; simp)]
  refine ⟨by simp [SysOut.after, cob_tick1_at], s.cycle + 1 + Config.hubCycles s.free, by omega, ?_⟩
  simp [SysOut.after, State.at, State.tick1, State.setCob, State.setCore]

theorem cse_answered {a ra rc : BitVec 4} (ha : a ≠ 0) (hbusy : (s.cob s.cur.core).cseBusy = true) :
    ∃ t, exec (.cse h a ra rc) s = .next t ∧ t.cob s.cur.core
      = ({ s.cob s.cur.core with x := cset (s.cob s.cur.core).x a.toNat 1 } : Cobbler).advance h.idle.toNat := by
  have hans : ∀ w r pa, cseAnswer s s.cur.core w r pa = 1 := fun w r pa => if_pos hbusy
  refine ⟨_, (by rw [exec_cse, execCse, issueSys_issues hi]), ?_⟩
  dsimp only
  rw [hans, if_pos (by decide)]
  simp [SysOut.after, cob_cobWrite ha, bv]

omit hi in
theorem cseAnswer_save {c w pa : Nat} (hbusy : (s.cob c).cseBusy = false) (hw : w ∈ (s.cob c).drained) (hal : pa % 4096 = 0)
    (hend : pa + 0xB4000 ≤ 2 ^ 39) : cseAnswer s c w false pa = 0 := by
  unfold cseAnswer
  dsimp only
  rw [if_neg (by rw [show (s.core c).cob.cseBusy = false from hbusy]; simp),
    if_neg (by simp [show w ∈ (s.core c).cob.drained from hw]),
    if_neg (by rw [Config.hbmBytes, Config.coreRecord]; omega)]

theorem cse_saves {a ra rc : BitVec 4} (ha : a ≠ 0) (hbusy : (s.cob s.cur.core).cseBusy = false)
    (hsave : ((s.cob s.cur.core).xr ra).getLsbD 3 = false)
    (hw : (((s.cob s.cur.core).xr ra).extractLsb' 0 3).toNat ∈ (s.cob s.cur.core).drained)
    (hal : ((s.cob s.cur.core).xr rc).toNat % 4096 = 0) (hend : ((s.cob s.cur.core).xr rc).toNat + 0xB4000 ≤ 2 ^ 39) :
    ∃ t, exec (.cse h a ra rc) s = .next t
      ∧ t.cob s.cur.core = ({ s.cob s.cur.core with
          x := cset (s.cob s.cur.core).x a.toNat 0
          cseBusy := true
          cse := some (false, (((s.cob s.cur.core).xr ra).extractLsb' 0 3).toNat, ((s.cob s.cur.core).xr rc).toNat)
          drained := sdel (((s.cob s.cur.core).xr ra).extractLsb' 0 3).toNat (s.cob s.cur.core).drained } : Cobbler).advance
            h.idle.toNat
      ∧ ∃ n, s.cycle < n ∧ (n, .cseDone s.cur.core) ∈ t.timers := by
  refine ⟨_, (by rw [exec_cse, execCse, issueSys_issues hi]), ?_⟩
  dsimp only
  rw [hsave, cseAnswer_save hbusy hw hal hend, if_neg (not_not_intro rfl)]
  refine ⟨by simp [SysOut.after, cob_tick1_at, cob_cobWrite ha, bv], s.cycle + 1 + Config.hubCycles s.free, by omega, ?_⟩
  rw [SysOut.after, timers_stepped, cobWrite_of_ne ha]
  simp [State.at, State.tick1, State.setCob, State.setCore]

theorem xphy_waits {e : BitVec 2} {cls : BitVec 4} {p : BitVec 1} (hfull : 16 ≤ (s.cob s.cur.core).xphy.length) :
    exec (.xphy h e cls p) s = .next s := by
  rw [exec_xphy, execXphy, issueSys_issues hi, if_pos hfull]
  rfl

theorem xphy_issues {e : BitVec 2} {cls : BitVec 4} (hroom : (s.cob s.cur.core).xphy.length < 16) :
    ∃ t, exec (.xphy h e cls 1) s = .next t ∧ ∃ x n, t.cob s.cur.core
        = ({ s.cob s.cur.core with xphy := (s.cob s.cur.core).xphy ++ [x], xcount := (s.cob s.cur.core).xcount + 1 }
            : Cobbler).advance h.idle.toNat
      ∧ x.num = (s.cob s.cur.core).xcount ∧ x.pa = (cget (s.cob s.cur.core).e (2 * e.toNat)).toNat ∧ x.post = true
      ∧ x.cls = cls.toNat ∧ s.cycle < n ∧ (n, .xphyDone s.cur.core x.num) ∈ t.timers := by
  refine ⟨_, (by rw [exec_xphy, execXphy, issueSys_issues hi, if_neg (Nat.not_le.2 hroom)]), ?_⟩
  simp only [SysOut.after, cob_stepped, cob_tick1_at, State.cob_setCob, if_true]
  refine ⟨_, s.cycle + 1 + Config.landCycles s.free, rfl, rfl, rfl, rfl, rfl, by omega, ?_⟩
  simp [State.at, State.tick1, State.setCob, State.setCore]

end

/-- Settles O58: each instruction by what its own part answers; a status of PARK and UNPARK by the case that `parkAnswer` and
`unparkAnswer` take. -/
theorem systemInstructions : Obligations.SystemInstructions := by
  unfold Obligations.SystemInstructions
  intro h a ra rc k e cls s c b core next putX goes w hstr htok hguard hholds ha
  have hi : Issues h s := ⟨hstr, htok, hguard, hholds⟩
  refine ⟨fun hk => ⟨exec_wrs_unassigned hi hk, exec_rdsp_unassigned hi hk⟩, wrs_spec hi (by decide) rfl,
    wrs_spec hi (by decide) rfl, fun hk => ?readOnly, rdsp_spec hi ha (by decide) rfl, rdsp_spec hi ha (by decide) rfl,
    rdsp_spec hi ha (by decide) rfl, rdsp_spec hi ha (by decide) rfl, fun _ hcur hq => eret_spec hi hcur hq,
    waitev_nothing hi ha, fun _ _ hc hx => waitev_first hi ha hc hx, waitev_waits hi, wvset_waits hi, ?wvset, fun ho => ?absent,
    fun o ho hcuts hpark hst hev => ⟨fun hn => ?arms, fun hn => ?past, ?notParked⟩,
    fun o ho hpark hst => ⟨?already, fun hn => ?unparks, fun hn => ?late⟩, fun o ho _ hslots hst hov hn => ?strand,
    zfill_active hi ha, zfill_starts hi, cse_answered hi ha, cse_saves hi ha, xphy_waits hi, xphy_issues hi⟩
  case readOnly =>
    simp only [List.mem_cons, List.not_mem_nil, or_false] at hk
    rcases hk with rfl | rfl | rfl | rfl | rfl | rfl | rfl | rfl <;> exact wrs_spec hi (by decide) rfl
  case wvset =>
    intro hp hq hbad
    obtain ⟨t, hexec, hpend, hswc, hcob, htable⟩ := wvset_asks (rc := rc) hi hp hq hbad
    refine ⟨t, hexec, hpend, hswc, hcob, fun j hj => ?_⟩
    rw [htable]
    exact tget_tableOf (length_reservedBytes ..) hj
  case absent =>
    exact ⟨⟨_, exec_park_answered hi (parkAnswer_none ho) (by decide), cob_answered ha .., strands_answered ..⟩,
      ⟨_, exec_unpark_answered hi (unparkAnswer_none ho) (by decide), cob_answered ha .., agenda_answered ..⟩⟩
  case arms =>
    exact park_arms hi ha ho hcuts hst hev (by rw [parkAnswer_running ho hcuts hpark hst, if_neg (Nat.not_lt.2 hn)])
  case past =>
    exact ⟨_, exec_park_answered hi (by rw [parkAnswer_running ho hcuts hpark hst, if_pos hn]) (by decide), cob_answered ha ..,
      strand_answered .., by rw [cuts_answered _ _ ha]; exact hcuts⟩
  case notParked =>
    exact ⟨_, exec_unpark_answered hi (unparkAnswer_running ho hpark hst) (by decide), cob_answered ha .., strand_answered ..⟩
  case already =>
    exact ⟨_, exec_park_answered hi (parkAnswer_parked ho hpark) (by decide), cob_answered ha .., cuts_answered _ _ ha ..⟩
  case unparks =>
    exact unpark_owner hi ha ho hst (by rw [unparkAnswer_stopped ho (.inl hpark), if_neg (Nat.not_lt.2 hn)])
  case late =>
    exact ⟨_, exec_unpark_answered hi (by rw [unparkAnswer_stopped ho (.inl hpark), if_pos hn]) (by decide), cob_answered ha ..,
      (owner_answered ..).trans (tget_of_tfind ho)⟩
  case strand =>
    exact unpark_strand hi ha ho hslots hst hov (by rw [unparkAnswer_stopped ho (.inr hst), if_neg (Nat.not_lt.2 hn)])

end Sys2Proof.Laws.Systems
end

section
/-! PROOF. The end of a LAUNCH (R70, R122): what it can change, and what it leaves of the runs and the strands. -/

namespace Sys2Proof.Laws.Launches

open Machine Laws.Posting Laws.Tracing

/-- Two states that differ at most in what the end of a LAUNCH can change: what tells of it, the memory whose pages the placer
moves, the meters, the queues, the runs and the strands. -/
def Closed (s t : State) : Prop :=
  t = { withPost s (postFields t) with
        optrc := t.optrc, mfFlt := t.mfFlt, stale := t.stale, tlb := t.tlb, wm := t.wm, runs := t.runs, strands := t.strands
        queues := t.queues }

variable {s t u : State}

theorem Closed.refl (s : State) : Closed s s := rfl

theorem Closed.of_eq {f : PostFields} {o : Tab Trc} {m : FaultRing} {st : List (Nat × Nat × Nat × Nat)} {b : List TlbEntry} {w : Weights}
    {r : List Run} {a : Tab Strand} {q : Tab Queue}
    (h : t = { withPost s f with optrc := o, mfFlt := m, stale := st, tlb := b, wm := w, runs := r, strands := a, queues := q }) :
    Closed s t := by
  subst h
  rfl

theorem Closed.trans (h : Closed s t) (h' : Closed t u) : Closed s u := by
  rw [Closed, h] at h'
  exact .of_eq h'

theorem Closed.of_told (h : Told s t) : Closed s t := by
  rw [Closed, h]
  rfl

theorem Closed.cores (h : Closed s t) : t.cores = s.cores := by rw [h]; rfl
theorem Closed.cycle (h : Closed s t) : t.cycle = s.cycle := by rw [h]; rfl
theorem Closed.ref (h : Closed s t) : t.ref = s.ref := by rw [h]; rfl
theorem Closed.plc (h : Closed s t) : t.plc = s.plc := by rw [h]; rfl
theorem Closed.xfers (h : Closed s t) : t.xfers = s.xfers := by rw [h]; rfl

theorem posted_soon (s : State) (i : Instr) : Posted s (s.soon i) := rfl

theorem closed_grantsChanged (s : State) : Closed s (grantsChanged s) := rfl

/-! ### The pages that the placer moves -/

/-- Two states that differ at most in device memory, its marks, and the translations held. -/
def Moved (s t : State) : Prop :=
  t = { s with mem := t.mem, memPoison := t.memPoison, dirty := t.dirty, stale := t.stale, tlb := t.tlb }

theorem Moved.refl (s : State) : Moved s s := rfl

theorem Moved.of_eq {m : Cells 8} {p d : List Nat} {st : List (Nat × Nat × Nat × Nat)} {b : List TlbEntry}
    (h : t = { s with mem := m, memPoison := p, dirty := d, stale := st, tlb := b }) : Moved s t := by
  subst h
  rfl

theorem Moved.trans (h : Moved s t) (h' : Moved t u) : Moved s u := by
  rw [Moved, h] at h'
  exact .of_eq h'

theorem Moved.foldl {α : Type} {f : State → α → State} (hf : ∀ s a, Moved s (f s a)) (l : List α) (s : State) :
    Moved s (l.foldl f s) := by
  induction l generalizing s with
  | nil => exact .refl s
  | cons a l ih => exact (hf s a).trans (ih _)

theorem moved_setLeaf (l : Leaf) (p : Nat) (s : State) : Moved s (setLeaf l p s) := by
  unfold setLeaf
  exact .of_eq rfl

theorem moved_zeroFrames (p n : Nat) (s : State) : Moved s (zeroFrames p n s) := by
  unfold zeroFrames
  exact .of_eq rfl

theorem moved_putFrames (p n : Nat) (b : List (Nat × Byte) × List Nat) (s : State) : Moved s (putFrames p n b s) := by
  unfold putFrames
  exact (moved_zeroFrames p n s).trans (.of_eq rfl)

theorem moved_swapLeaves (s : State) (x : Leaf × Leaf) : Moved s (swapLeaves s x) :=
  (((moved_putFrames ..).trans (moved_putFrames ..)).trans (moved_setLeaf ..)).trans (moved_setLeaf ..)

theorem moved_moveLeaf (l : Leaf) (p : Nat) (s : State) : Moved s (moveLeaf l p s) :=
  (((Moved.of_eq rfl).trans (moved_putFrames ..)).trans (moved_zeroFrames ..)).trans (moved_setLeaf ..)

theorem moved_moveTo (tier : Nat) (s : State) (l : Leaf) : Moved s (moveTo tier s l) := by
  unfold moveTo
  split
  · exact moved_moveLeaf ..
  · exact .refl s

theorem moved_placeTiers (cid : Nat) (s : State) : Moved s (placeTiers cid s) := by
  unfold placeTiers
  dsimp only
  refine Moved.trans ?_ (show Moved _ (tlbDrop cid _) from .of_eq rfl)
  refine Moved.trans ?_ (.foldl (fun s l => moved_setLeaf l l.frame s) _ _)
  refine Moved.trans ?_ (.foldl (moved_moveTo 0) _ _)
  refine Moved.trans ?_ (.foldl (moved_moveTo 1) _ _)
  exact (Moved.foldl moved_swapLeaves _ _).trans (.foldl moved_swapLeaves _ _)

theorem Closed.of_moved (h : Moved s t) : Closed s t := by
  rw [Closed, h]
  rfl

theorem moved_noteLaunch (x : Strand) (s : State) : ∃ v, Moved (s.setVd x.cid v) (noteLaunch x s) := by
  unfold noteLaunch
  dsimp only
  split
  · exact ⟨_, .refl _⟩
  · exact ⟨_, moved_placeTiers ..⟩

/-! ### The end of a LAUNCH -/

/-- What a run is when its LAUNCH ends with a status. -/
def endedRun (t : Strand) (status : Nat) (r : Run) : Run :=
  if r.id = t.run then { r with status := status, data := bv 64 (microJoule t.energy), ended := true } else r

theorem told_dbgEnd (sid st : Nat) (s : State) : Told s (dbgEnd sid st s) := by
  unfold dbgEnd
  dsimp only
  split <;> rfl

/-- At the end of a LAUNCH the meters of its VD note their counts. -/
def metersNoted (cid : Nat) (s : State) : State :=
  { s with wm := { s.wm with meters := tmap s.wm.meters fun _ m => if m.cid.toNat = cid then { m with atLaunch := m.count } else m } }

/-- What the end of a LAUNCH does before its run ends: it is traced, and the meters, the debugger and its queue are told. -/
def launchTold (sid status : Nat) (s : State) : State :=
  let t := s.strand sid
  let uj := microJoule t.energy
  let win := (rollWindow (windowOf (granK (s.vd t.cid) 3) s.ns) (s.vd t.cid).enWin (s.vd t.cid).energy).2.2
  let seen := disclosed (gran (s.vd t.cid) 3) (microJoule (s.vd t.cid).prevLaunch) (microJoule win) (microJoule t.energySync) uj
  let a := trace t.cid 3 t.tick (traceBody 3 [status, uj]) (traceBody 3 [status, seen]) s
  let b := dbgEnd sid 2 (metersNoted t.cid (a.setVd t.cid { a.vd t.cid with prevLaunch := t.energy }))
  match t.divRec with
  | some i => tellRecord t.fn t.q status t.tag i b
  | none => b

theorem finishLaunch_eq (sid status : Nat) (s : State) : finishLaunch sid status s = grantsChanged ((noteLaunch (s.strand sid)
    { launchTold sid status s with runs := (launchTold sid status s).runs.map (endedRun (s.strand sid) status)
                                   strands := tdel (launchTold sid status s).strands sid }).soon
      (.packetCompletion (s.strand sid).run)) := rfl

theorem launchTold_spec (sid status : Nat) (s : State) : Closed s (launchTold sid status s)
    ∧ (launchTold sid status s).runs = s.runs ∧ (launchTold sid status s).strands = s.strands := by
  unfold launchTold
  dsimp only
  generalize htrace : trace (s.strand sid).cid 3 (s.strand sid).tick _ _ s = a
  have ha : Told s a := htrace ▸ told_trace ..
  generalize hvd : a.setVd (s.strand sid).cid _ = b
  have hb : Told s b := ha.trans (hvd ▸ .of_posted (posted_setVd ..))
  have hnoted : Closed b (metersNoted (s.strand sid).cid b) := rfl
  have htold := told_dbgEnd sid 2 (metersNoted (s.strand sid).cid b)
  have hall : ∀ u, Told (metersNoted (s.strand sid).cid b) u → Closed s u ∧ u.runs = s.runs ∧ u.strands = s.strands := fun u hu =>
    ⟨((Closed.of_told hb).trans hnoted).trans (.of_told hu), hu.runs.trans hb.runs, hu.strands.trans hb.strands⟩
  split
  · exact hall _ (htold.trans (told_cqPost ..))
  · exact hall _ htold

/-- The end of a LAUNCH: its run has ended with the status, its strand is gone, and its packet completes in this cycle. -/
theorem finishLaunch_spec (sid status : Nat) (s : State) : Closed s (finishLaunch sid status s)
    ∧ (finishLaunch sid status s).runs = s.runs.map (endedRun (s.strand sid) status)
    ∧ (finishLaunch sid status s).strands = tmap (tdel s.strands sid) (fun _ t => { t with tried := false })
    ∧ (s.cycle, .packetCompletion (s.strand sid).run) ∈ (finishLaunch sid status s).timers := by
  obtain ⟨hclosed, hruns, hstrands⟩ := launchTold_spec sid status s
  rw [finishLaunch_eq]
  generalize launchTold sid status s = a at hclosed hruns hstrands
  generalize hb : ({ a with runs := a.runs.map (endedRun (s.strand sid) status), strands := tdel a.strands sid } : State) = b
  have hsb : Closed s b ∧ b.runs = s.runs.map (endedRun (s.strand sid) status) ∧ b.strands = tdel s.strands sid := by
    subst hb
    exact ⟨hclosed.trans rfl, congrArg _ hruns, congrArg (tdel · sid) hstrands⟩
  obtain ⟨hclosedb, hrunsb, hstrandsb⟩ := hsb
  obtain ⟨v, hmoved⟩ := moved_noteLaunch (s.strand sid) b
  generalize noteLaunch (s.strand sid) b = d at hmoved
  have hbd : Closed b d := (Closed.of_told (.of_posted (posted_setVd ..))).trans (.of_moved hmoved)
  have hdruns : d.runs = b.runs := by rw [hmoved]; rfl
  have hdstrands : d.strands = b.strands := by rw [hmoved]; rfl
  refine ⟨((hclosedb.trans hbd).trans (.of_told (.of_posted (posted_soon ..)))).trans (closed_grantsChanged _), hdruns.trans hrunsb, ?_, ?_⟩
  · rw [grantsChanged, State.soon]
    dsimp only
    rw [hdstrands, hstrandsb]
  · rw [← (hclosedb.trans hbd).cycle]
    simp [grantsChanged, State.soon]

/-! ### The cores that a strand leaves, and those that the placer speeds -/

/-- Two states of which the second has cores freed or sped: the save or restore of a core's CSE goes on, and the strands keep
their runs. -/
structure Rearranged (s t : State) : Prop where
  frame : t = { s with cores := t.cores, strands := t.strands, xfers := t.xfers, timers := t.timers, plc := t.plc, free := t.free }
  cse : ∀ c, (t.cob c).cse = (s.cob c).cse
  busy : ∀ c, (t.cob c).cseBusy = (s.cob c).cseBusy
  run : ∀ i, (t.strand i).run = (s.strand i).run

theorem Rearranged.refl (s : State) : Rearranged s s := ⟨rfl, fun _ => rfl, fun _ => rfl, fun _ => rfl⟩

theorem Rearranged.trans (h : Rearranged s t) (h' : Rearranged t u) : Rearranged s u := by
  refine ⟨?_, fun c => (h'.cse c).trans (h.cse c), fun c => (h'.busy c).trans (h.busy c), fun i => (h'.run i).trans (h.run i)⟩
  rw [h'.frame, h.frame]

theorem Rearranged.foldl {α : Type} {f : State → α → State} (hf : ∀ s a, Rearranged s (f s a)) (l : List α) (s : State) :
    Rearranged s (l.foldl f s) := by
  induction l generalizing s with
  | nil => exact .refl s
  | cons a l ih => exact (hf s a).trans (ih _)

theorem Rearranged.runs (h : Rearranged s t) : t.runs = s.runs := by rw [h.frame]
theorem Rearranged.cycle (h : Rearranged s t) : t.cycle = s.cycle := by rw [h.frame]

/-- A core replaced, whose Cobbler keeps what its CSE does. -/
theorem rearranged_setCore (s : State) (c : Nat) (k : CoreSt) (hcse : k.cob.cse = (s.cob c).cse)
    (hbusy : k.cob.cseBusy = (s.cob c).cseBusy) : Rearranged s (s.setCore c k) := by
  refine ⟨rfl, fun d => ?_, fun d => ?_, fun _ => rfl⟩
  · rw [State.cob, State.core_setCore]
    split
    next hd => rw [hd, hcse]
    · rfl
  · rw [State.cob, State.core_setCore]
    split
    next hd => rw [hd, hbusy]
    · rfl

theorem rearranged_setStrand (s : State) (i : Nat) (x : Strand) (hrun : x.run = (s.strand i).run) :
    Rearranged s (s.setStrand i x) := by
  refine ⟨rfl, fun _ => rfl, fun _ => rfl, fun j => ?_⟩
  rw [State.strand_setStrand]
  split
  next hj => rw [hj, hrun]
  · rfl

theorem rearranged_cobEvent (c : Nat) (kind : CobKind) (wid sid : Nat) (args : List W64) (s : State) :
    Rearranged s (cobEvent c kind wid sid args s) := rearranged_setCore _ _ _ rfl rfl

theorem rearranged_postCompletion (c : Nat) (x : Completion) (s : State) : Rearranged s (postCompletion c x s) :=
  rearranged_setCore _ _ _ rfl rfl

theorem rearranged_endCutsWhere (f : ArmedCut → Bool) (c w status tick : Nat) (s : State) :
    Rearranged s (endCutsWhere f c w status tick s) := by
  unfold endCutsWhere
  dsimp only
  refine Rearranged.trans ?_ (.foldl (fun s a => rearranged_postCompletion c _ s) _ _)
  exact rearranged_setCore _ _ _ rfl rfl

theorem rearranged_endCuts (c w status tick : Nat) (s : State) : Rearranged s (endCuts c w status tick s) :=
  rearranged_endCutsWhere ..

theorem cob_dropSwitches (f : SwReq → Bool) (k : CoreSt) : (dropSwitches f k).cob = k.cob := by
  unfold dropSwitches
  split
  · unfold loadSwitch
    split <;> rfl
  · rfl

theorem cob_askSwitch (r : SwReq) (k : CoreSt) : (askSwitch r k).cob = k.cob := by
  unfold askSwitch loadSwitch
  split <;> rfl

theorem rearranged_freeOwner (ends : Bool) (c w : Nat) (s : State) : Rearranged s (freeOwner ends c w s) := by
  unfold freeOwner
  dsimp only
  have h1 := rearranged_endCuts c w 0xFD (s.owner c w).tick s
  generalize endCuts c w 0xFD (s.owner c w).tick s = a at h1
  refine h1.trans (((rearranged_setCore _ _ _ ?_ ?_).trans (rearranged_setStrand _ _ _ ?_)).trans (rearranged_cobEvent ..))
  · exact congrArg Cobbler.cse (cob_dropSwitches ..)
  · exact congrArg Cobbler.cseBusy (cob_dropSwitches ..)
  · rfl

/-- Only transfers, operations that wait, the placer's registers and the count of free choices change. -/
theorem rearranged_rest (s : State) (x : List Xfer) (ts : List (Nat × Instr)) (p : Placer) (n : Nat) :
    Rearranged s { s with xfers := x, timers := ts, plc := p, free := n } := ⟨rfl, fun _ => rfl, fun _ => rfl, fun _ => rfl⟩

theorem rearranged_freeEach (ends : Bool) (sid : Nat) (s : State) : Rearranged s (freeEach ends sid s) := by
  have h1 := Rearranged.foldl (fun s (x : Nat × Nat) => rearranged_freeOwner ends x.1 x.2 s) (s.strand sid).slots s
  unfold freeEach
  dsimp only
  generalize List.foldl _ s (s.strand sid).slots = a at h1
  exact h1.trans (rearranged_rest a _ a.timers a.plc a.free)

theorem rearranged_pendClass (sid stride phase cyc : Nat) (s : State) : Rearranged s (pendClass sid stride phase cyc s) := by
  unfold pendClass
  refine .foldl (fun s x => ?_) _ s
  exact rearranged_setCore s x.1 _ (congrArg Cobbler.cse (cob_askSwitch _ (s.core x.1)))
    (congrArg Cobbler.cseBusy (cob_askSwitch _ (s.core x.1)))

theorem rearranged_startRephase (sid : Nat) (r : Rephase) (s : State) : Rearranged s (startRephase sid r s) := by
  unfold startRephase
  dsimp only
  have h1 : Rearranged s ((s.tick1.setStrand sid { s.strand sid with rephase := some r }).at r.cyc (.rephaseSwitch sid)) :=
    ((rearranged_rest s s.xfers s.timers s.plc (s.free + 1)).trans
      (rearranged_setStrand s.tick1 sid { s.strand sid with rephase := some r } rfl)).trans
      (rearranged_rest _ s.xfers _ s.plc (s.free + 1))
  have h2 := h1.trans (rearranged_pendClass sid r.stride r.phase r.cyc _)
  generalize pendClass sid r.stride r.phase r.cyc _ = a at h2
  refine (h2.trans (rearranged_rest a a.xfers a.timers _ a.free)).trans (.foldl (fun s x => ?_) _ _)
  exact rearranged_cobEvent ..

theorem rearranged_speedOne (c : Nat) (s : State) : Rearranged s (speedOne c s) := by
  unfold speedOne
  dsimp only
  split
  · exact .refl s
  split
  · split
    · exact rearranged_rest s s.xfers s.timers s.plc (s.free + 1)
    · exact rearranged_startRephase ..
  · exact .refl s

theorem rearranged_speedAll (cs : List Nat) (s : State) : Rearranged s (speedAll cs s) :=
  .foldl (fun s c => rearranged_speedOne c s) cs s

end Sys2Proof.Laws.Launches
end

section
/-! PROOF. The firmware context (R85, R86, R268, R405-R408, R417-R421). -/

namespace Sys2Proof.Laws.Contexts

open Machine Laws.Posting Laws.Tracing Laws.Systems Laws.ControlScalar Laws.Launches Laws.Cycle

/-! ### The issue of an instruction of a C stream (R405) -/

section Issue

variable {i : Instr} {h : Hd} {guarded : Bool} {body : Body} {s : State}

theorem exec_issueCob (hx : exec i s = issue h guarded 1 true body s) (hstr : s.cur.str = .f) :
    exec i s = .next (issueCob h guarded 1 true body s) := by
  rw [hx, issue, if_pos hstr]

theorem issueCob_tok (htok : h.tok ≠ 0) : issueCob h guarded 1 true body s = lockCore s.cur.core s :=
  if_pos (by rw [decide_eq_true htok]; rfl)

theorem not_locks (htok : h.tok = 0) (hguard : h.g ≠ 8) :
    ¬ (!true || decide (h.tok ≠ 0) || decide (h.g = 8)) = true := by
  rw [htok, decide_eq_false hguard]
  decide

theorem issueCob_off (htok : h.tok = 0) (hguard : h.g ≠ 8)
    (hoff : selects (s.cob s.cur.core).p (s.cob s.cur.core).blocks h.g = false) :
    issueCob h true 1 true body s = stepped s.cur.core h s := by
  unfold issueCob
  dsimp only
  rw [if_neg (not_locks htok hguard), if_pos (by rw [hoff]; decide), Nat.max_zero]
  rfl

theorem issueCob_error {e : Bad} (htok : h.tok = 0) (hguard : h.g ≠ 8)
    (hon : guarded = true → selects (s.cob s.cur.core).p (s.cob s.cur.core).blocks h.g = true)
    (hbody : body s (s.cob s.cur.core).view = .error e) : issueCob h guarded 1 true body s = lockCore s.cur.core s := by
  unfold issueCob
  dsimp only
  rw [if_neg (not_locks htok hguard), if_neg (by cases guarded <;> simp [hon]), hbody]

/-- The core after an instruction with one effect, which it has at once; Cobbler has stepped past it. -/
def afterEffect (h : Hd) (e : Effect) (k : CoreSt) : CoreSt :=
  { cobEffect k e with cob := (cobEffect k e).cob.advance h.idle.toNat }

theorem issueCob_ok {n : Nat} {e : Effect} (htok : h.tok = 0) (hguard : h.g ≠ 8)
    (hon : guarded = true → selects (s.cob s.cur.core).p (s.cob s.cur.core).blocks h.g = true)
    (hbody : body s (s.cob s.cur.core).view = .ok { effs := [(n, e)] }) :
    issueCob h guarded 1 true body s = s.setCore s.cur.core (afterEffect h e (s.core s.cur.core)) := by
  unfold issueCob
  dsimp only
  rw [if_neg (not_locks htok hguard), if_neg (by cases guarded <;> simp [hon]), hbody, Nat.max_zero]
  rfl

end Issue

/-! ### Registers -/

theorem tget_view (l : Cells 64) (r : Nat) : tget ({} : XReg) (l.map fun x => (x.1, ({ val := x.2 } : XReg))) r = { val := cget l r } := by
  induction l with
  | nil => rfl
  | cons x l ih =>
    rw [List.map_cons, tget, ih, cget]
    split <;> rfl

@[simp] theorem rx_view (b : Cobbler) (r : BitVec 4) : rx b.view r = { val := b.xr r } := by
  rw [rx, Cobbler.xr]
  split
  · rfl
  · exact tget_view ..

/-! ### Instructions that write a register -/

section Writes

variable {i : Instr} {h : Hd} {guarded : Bool} {body : Body} {s : State} {c : Nat} {b : Cobbler} {ra : BitVec 4} {v : XReg}

theorem writes_register {n : Nat} (hx : exec i s = issue h guarded 1 true body s) (hstr : s.cur.str = .f) (hc : s.cur.core = c)
    (htok : h.tok = 0) (hguard : h.g ≠ 8) (ha : ra ≠ 0)
    (hon : guarded = true → selects (s.cob c).p (s.cob c).blocks h.g = true)
    (hbody : body s (s.cob c).view = .ok { effs := [(n, .x ra v)] }) :
    ∃ t, exec i s = .next t ∧ t.cob c = ({ s.cob c with x := cset (s.cob c).x ra.toNat v.val } : Cobbler).advance h.idle.toNat := by
  subst hc
  refine ⟨_, by rw [exec_issueCob hx hstr, issueCob_ok htok hguard hon hbody], ?_⟩
  rw [State.cob, State.core_setCore, if_pos rfl, afterEffect, cobEffect, if_neg ha]
  rfl

theorem exec_add_spec {rb rc : BitVec 4} (hstr : s.cur.str = .f) (hc : s.cur.core = c) (htok : h.tok = 0) (hguard : h.g ≠ 8)
    (hon : selects (s.cob c).p (s.cob c).blocks h.g = true) (ha : ra ≠ 0) :
    ∃ t, exec (.add h ra rb rc) s = .next t ∧ t.cob c
      = ({ s.cob c with x := cset (s.cob c).x ra.toNat ((s.cob c).xr rb + (s.cob c).xr rc) } : Cobbler).advance h.idle.toNat :=
  writes_register (v := { val := (s.cob c).xr rb + (s.cob c).xr rc }) (n := 1) (exec_add ..) hstr hc htok hguard ha (fun _ => hon)
    (by rw [alu3, rx_view, rx_view]; rfl)

theorem selects_of_not_fs {g : BitVec 4} (hg : g ≠ 8) (p : BitVec 8) (l l' : List Block) : selects p l g = selects p l' g := by
  unfold selects
  rw [if_neg hg, if_neg hg]

/-- SEL and CSEL write the register that they choose: none of Cobbler's is poisoned. -/
theorem exec_sel_spec {g rb rc : BitVec 4} (hstr : s.cur.str = .f) (hc : s.cur.core = c) (htok : h.tok = 0) (hg : g ≠ 8)
    (ha : ra ≠ 0) : ∀ i ∈ [Instr.sel h g ra rb rc, .csel h g ra rb rc], ∃ t, exec i s = .next t ∧ t.cob c
      = ({ s.cob c with
            x := cset (s.cob c).x ra.toNat (if selects (s.cob c).p (s.cob c).blocks g then (s.cob c).xr rb else (s.cob c).xr rc) }
          : Cobbler).advance h.idle.toNat := by
  have hsel : selected s (s.cob c).view g = selects (s.cob c).p (s.cob c).blocks g := selects_of_not_fs hg ..
  intro i hi
  rcases List.mem_pair.1 hi with rfl | rfl
  · refine writes_register (n := 1) (guarded := false) (h := { h with g := g })
      (v := { val := if selects (s.cob c).p (s.cob c).blocks g then (s.cob c).xr rb else (s.cob c).xr rc }) (exec_sel ..) hstr hc htok hg
      ha (fun h => absurd h Bool.false_ne_true) ?_
    rw [rx_view, rx_view, hsel]
    split <;> rfl
  · refine writes_register (n := 1) (guarded := false) (h := { h with g := g })
      (v := { val := if selects (s.cob c).p (s.cob c).blocks g then (s.cob c).xr rb else (s.cob c).xr rc }) (exec_csel ..) hstr hc htok hg
      ha (fun h => absurd h Bool.false_ne_true) ?_
    dsimp only
    rw [rx_view, rx_view, hsel]
    split <;> rfl

/-- What a guarded instruction of a C stream does where its guard does not hold. -/
theorem exec_off {i : Instr} (hx : exec i s = issue h true 1 true body s) (hstr : s.cur.str = .f) (hc : s.cur.core = c)
    (htok : h.tok = 0) (hguard : h.g ≠ 8) (hoff : selects (s.cob c).p (s.cob c).blocks h.g = false) :
    ∃ t, exec i s = .next t ∧ t.cob c = (s.cob c).advance h.idle.toNat ∧ (t.core c).win = (s.core c).win := by
  subst hc
  refine ⟨_, by rw [exec_issueCob hx hstr, issueCob_off htok hguard hoff], cob_stepped .., ?_⟩
  rw [core_stepped]

end Writes

/-! ### Loads and stores of the reserved area (R406) -/

section Memory

/-- The offset of a scalar access in the reserved area. -/
def reservedAddr (b : Cobbler) (rb d : BitVec 4) (n : Nat) : Nat := (((b.xr rb).toNat + d.toNat * n) % 2 ^ 64) % 16384 / n * n

theorem cobAddr_eq (b : Cobbler) (rb d : BitVec 4) (n : Nat) :
    cobAddr (effAddr (rx b.view rb).val d n) n = reservedAddr b rb d n := by
  rw [cobAddr, effAddr_eq_scalarAddr, toNat_ofNat_scalarAddr, scalarAddr, rx_view, reservedAddr]

theorem line_reserved (a : Nat) : (reservedArea.winBase + 64 * (a / 64)) / 64 = (Config.reservedBase + a) / 64 := by
  rw [reservedArea, Config.reservedBase]
  dsimp only
  omega

/-- A line of the reserved area that a load of Cobbler cannot read. -/
def LineFails (k : CoreSt) (a : Nat) : Prop :=
  (∃ w ∈ k.winErr, w / 8 = (Config.reservedBase + a) / 64) ∨ (Config.reservedBase + a) / 64 ∈ k.winPoison

theorem readable_reserved {k : CoreSt} {a : Nat} (hgood : ¬ LineFails k a) : readable k reservedArea [a / 64] = .ok () := by
  refine readable_ok fun l hl => ?_
  rw [List.mem_singleton.1 hl, line_reserved]
  exact ⟨fun w hw he => hgood (.inl ⟨w, hw, he⟩), fun hp => hgood (.inr hp)⟩

theorem readable_reserved_fails {k : CoreSt} {a : Nat} (hbad : LineFails k a) : ∃ e, readable k reservedArea [a / 64] = .error e := by
  have hfails : ¬ LinesGood k reservedArea [a / 64] := by
    refine not_linesGood_of_fails ?_
    rw [LineBad, LinePoisoned, line_reserved]
    exact hbad
  obtain ⟨_, _, _, he⟩ := readable_bad hfails
  exact ⟨_, he⟩

theorem cobLoad_eq (g : W64 → W64) (b : Cobbler) (ra rb d : BitVec 4) (k : CoreSt) (n : Nat) : cobLoad n g ra rb d k b.view
    = (readable k reservedArea [reservedAddr b rb d n / 64]).map fun _ =>
        { effs := [(4, .x ra { val := g (BitVec.ofNat 64 (leNat (cgets k.win (Config.reservedBase + reservedAddr b rb d n) n))) })] } := by
  rw [cobLoad, cobAddr_eq, reservedArea]
  cases readable k { winBase := Config.reservedBase, winSize := 16384 } [reservedAddr b rb d n / 64] <;> rfl

variable {s : State} {c : Nat} {h : Hd} {ra rb d : BitVec 4} {mk : Hd → BitVec 4 → BitVec 4 → BitVec 4 → Instr} {n : Nat}

theorem cobLoads_of_exec {g : W64 → W64} {spec : Bool} {ext : Nat → W64}
    (hx : ∀ h a b d s, exec (mk h a b d) s = issue h true 1 true (load n g spec a b d) s)
    (hg : ∀ m, g (BitVec.ofNat 64 m) = ext m) (hstr : s.cur.str = .f) (hc : s.cur.core = c)
    (htok : h.tok = 0) (hguard : h.g ≠ 8) (hon : selects (s.cob c).p (s.cob c).blocks h.g = true) (ha : ra ≠ 0) :
    CobLoads c s h ra rb d mk n ext := by
  subst hc
  have hload : load n g spec ra rb d s (s.cob s.cur.core).view = cobLoad n g ra rb d s.curCore (s.cob s.cur.core).view :=
    if_pos hstr
  refine ⟨fun (hgood : ¬ LineFails s.curCore (reservedAddr (s.cob s.cur.core) rb d n)) => ?_,
    fun (hbad : LineFails s.curCore (reservedAddr (s.cob s.cur.core) rb d n)) => ?_⟩
  · refine writes_register (n := 4) (v := { val := ext (leNat (cgets s.curCore.win
      (Config.reservedBase + reservedAddr (s.cob s.cur.core) rb d n) n)) }) (hx ..) hstr rfl htok hguard ha (fun _ => hon) ?_
    rw [hload, cobLoad_eq, readable_reserved hgood, ← hg]
    rfl
  · obtain ⟨e, he⟩ := readable_reserved_fails hbad
    rw [exec_issueCob (hx ..) hstr, issueCob_error (e := e) htok hguard fun _ => hon]
    · rfl
    · rw [hload, cobLoad_eq, he]
      rfl

theorem cget_cputs_map_range (m : Cells 8) (a : Nat) (f : Nat → Byte) (n j : Nat) :
    cget (cputs m ((List.range n).map fun i => (a + i, f i))) j = if a ≤ j ∧ j < a + n then f (j - a) else cget m j := by
  induction n with
  | zero =>
    rw [if_neg (by omega)]
    rfl
  | succ n ih =>
    rw [List.range_succ, List.map_append, cputs_append]
    simp only [List.map_cons, List.map_nil, cputs]
    by_cases hj : j = a + n
    · rw [hj, cget_cset_self, if_pos (by omega), Nat.add_sub_cancel_left]
    · rw [cget_cset_ne _ _ hj, ih]
      exact if_congr (by omega) rfl rfl

/-- The pairs that a store names, the lowest byte first. -/
theorem storePairs_eq (n a : Nat) (v : W64) : (((List.range n).zip (natLe n v.toNat)).map fun x => (a + x.1, x.2)).map
    (fun x => (Config.reservedBase + x.1, x.2))
      = (List.range n).map fun i => (Config.reservedBase + a + i, BitVec.ofNat 8 (v.toNat / 2 ^ (8 * i))) := by
  have hzip : (List.range n).zip ((List.range n).map fun i => v.extractLsb' (8 * i) 8)
      = (List.range n).map fun i => (i, v.extractLsb' (8 * i) 8) := by
    simpa using List.zip_map' (f := id) (g := fun i => v.extractLsb' (8 * i) 8) (l := List.range n)
  rw [natLe_toNat, hzip, List.map_map, List.map_map]
  refine List.map_congr_left fun i _ => ?_
  simp only [Function.comp_apply, Nat.add_assoc, BitVec.extractLsb', Nat.shiftRight_eq_div_pow]

theorem cobStores_of_exec (hx : ∀ h a b d s, exec (mk h a b d) s = issue h true 1 true (store n a b d) s) (hstr : s.cur.str = .f)
    (hc : s.cur.core = c) (htok : h.tok = 0) (hguard : h.g ≠ 8) (hon : selects (s.cob c).p (s.cob c).blocks h.g = true) :
    CobStores c s h ra rb d mk n := by
  subst hc
  have hbody : store n ra rb d s (s.cob s.cur.core).view = .ok { effs := [(1, .win (((List.range n).zip
      (natLe n ((s.cob s.cur.core).xr ra).toNat)).map fun x => (reservedAddr (s.cob s.cur.core) rb d n + x.1, x.2)))] } := by
    rw [store]
    dsimp only
    rw [if_pos hstr, cobAddr_eq, rx_view]
  refine ⟨_, by rw [exec_issueCob (hx ..) hstr, issueCob_ok htok hguard (fun _ => hon) hbody], ?_⟩
  rw [State.cob, State.core_setCore, if_pos rfl, afterEffect, cobEffect, storePairs_eq, winWrite]
  dsimp only
  refine ⟨rfl, fun i hi => ?_, fun j hj => ?_⟩
  · change cget _ (Config.reservedBase + reservedAddr (s.cob s.cur.core) rb d n + i) = _
    rw [cget_cputs_map_range, if_pos ⟨Nat.le_add_right .., Nat.add_lt_add_left hi _⟩, Nat.add_sub_cancel_left]
  · rw [cget_cputs_map_range, if_neg (by unfold reservedAddr; omega)]

end Memory

/-! ### Block headers, and system instructions in an owner's slot -/

section

variable {s : State} {c : Nat} {len cnt : BitVec 12} {cs : BitVec 1} {stg : BitVec 3} (hstr : s.cur.str = .f)
include hstr

theorem exec_blockHeader_locks (hbad : cs = 1 ∨ stg ≠ 0) : exec (.blockHeader len cs stg cnt) s = .next (lockCore s.cur.core s) := by
  rw [exec_blockHeader, execBlockHeader]
  dsimp only
  rw [if_pos hstr, if_pos hbad]

theorem blockHeader_opens (hc : s.cur.core = c) (hcs : cs = 0) (hstg : stg = 0) (hcnt : cnt ≠ 0) :
    ∃ t, exec (.blockHeader len cs stg cnt) s = .next t ∧ t.issue = s.cur :: s.issue
      ∧ t.cob c = { s.cob c with
          pc := (s.cob c).pc + 2
          blocks := { start := (s.cob c).pc + 2, len := len.toNat, count := cnt.toNat, stages := 0, total := cnt.toNat }
            :: (s.cob c).blocks } := by
  subst hc hcs hstg
  have hn : cnt.toNat ≠ 0 := fun h => hcnt (BitVec.eq_of_toNat_eq h)
  refine ⟨_, by rw [exec_blockHeader, execBlockHeader]; dsimp only; rw [if_pos hstr, if_neg (by decide), if_neg hn, if_pos rfl], rfl, ?_⟩
  exact (State.cob_setCob ..).trans (if_pos rfl)

theorem blockHeader_skips (hc : s.cur.core = c) (hcs : cs = 0) (hstg : stg = 0) (hcnt : cnt = 0) :
    ∃ t, exec (.blockHeader len cs stg cnt) s = .next t ∧ t.issue = s.cur :: s.issue
      ∧ t.cob c = { s.cob c with
          pc := (wrap ((s.cob c).pc + 2 + len.toNat) (s.cob c).blocks).1
          blocks := (wrap ((s.cob c).pc + 2 + len.toNat) (s.cob c).blocks).2 } := by
  subst hc hcs hstg hcnt
  refine ⟨_, by rw [exec_blockHeader, execBlockHeader]; dsimp only; rw [if_pos hstr, if_neg (by decide), if_pos (by rfl)], rfl, ?_⟩
  exact (State.cob_setCob ..).trans (if_pos rfl)

end

theorem issueSys_owner {h : Hd} {act : Nat → Cobbler → State → SysOut} {s : State} (hstr : s.cur.str ≠ .f) :
    issueSys h act s = .fault .undecodable := if_pos hstr

theorem exec_system_owner {h : Hd} {ra rb rc : BitVec 4} {k : BitVec 8} {e : BitVec 2} {p : BitVec 1} {s : State}
    (hstr : s.cur.str ≠ .f) : ∀ i ∈ [Instr.wrs h ra k, .rdsp h ra k, .eret h, .waitev h ra rb, .wvset h rb rc, .cse h ra rb rc,
      .zfill h ra rb, .park h ra rb rc, .unpark h ra rb rc, .xphy h e ra p], exec i s = .fault .undecodable := by
  intro i hi
  simp only [List.mem_cons, List.not_mem_nil, or_false] at hi
  rcases hi with rfl | rfl | rfl | rfl | rfl | rfl | rfl | rfl | rfl | rfl <;>
    simp only [exec_wrs, execWrs, exec_rdsp, execRdsp, exec_eret, execEret, exec_waitev, execWaitev, exec_wvset, execWvset,
      exec_cse, execCse, exec_zfill, execZfill, exec_park, execPark, exec_unpark, execUnpark, exec_xphy, execXphy,
      issueSys_owner hstr]

/-! ### Events (R407) -/

section Events

variable {c : Nat} {s : State} {e : CobEvent} {l : List CobEvent}

theorem dispatch_idle (h : (s.cob c).cur ≠ none ∨ (s.core c).locked = true ∨ (s.cob c).queue = []) :
    exec (.cobblerEventDispatch c) s = .next s := by
  rw [exec_cobblerEventDispatch, execCobblerEventDispatch]
  dsimp only
  rcases h with hcur | hlock | hq
  · rw [if_pos (.inl (Option.isSome_iff_ne_none.2 hcur))]
  · rw [if_pos (.inr hlock)]
  · rw [hq, ite_self]

variable (hcur : (s.cob c).cur = none) (hlock : (s.core c).locked = false) (hq : (s.cob c).queue = e :: l)
include hcur hlock hq

omit hq in
theorem not_busy : ¬ ((s.cob c).cur.isSome = true ∨ (s.core c).locked = true) := by
  rw [hcur, hlock]
  decide

theorem dispatch_locks (hbad : vectorFails (s.cob c) e.kind.code = true ∨ 2 ^ 13 ≤ (cget (s.cob c).vectors e.kind.code).toNat
      ∨ (s.cob c).img.length ≤ (cget (s.cob c).vectors e.kind.code).toNat) :
    exec (.cobblerEventDispatch c) s = .next (lockCore c s) := by
  rw [exec_cobblerEventDispatch, execCobblerEventDispatch]
  dsimp only
  rw [if_neg (not_busy hcur hlock), hq]
  dsimp only
  rw [if_pos (by tauto)]

theorem dispatch_takes (hargs : e.args.length = 4) (hv : (cget (s.cob c).vectors e.kind.code).toNat < 2 ^ 13)
    (himg : (cget (s.cob c).vectors e.kind.code).toNat < (s.cob c).img.length)
    (hok : vectorFails (s.cob c) e.kind.code = false) :
    ∃ t, exec (.cobblerEventDispatch c) s = .next t ∧ (t.cob c).cur = some e
      ∧ (t.cob c).pc = (cget (s.cob c).vectors e.kind.code).toNat ∧ (t.cob c).queue = l ∧ cget (t.cob c).x 1 = e.word
      ∧ ∀ i < 4, cget (t.cob c).x (i + 2) = e.args.getD i 0 := by
  have hgood : ¬ (2 ^ 13 ≤ (cget (s.cob c).vectors e.kind.code).toNat ∨ (s.cob c).img.length ≤ (cget (s.cob c).vectors e.kind.code).toNat
      ∨ vectorFails (s.cob c) e.kind.code = true) := by
    rw [hok]
    simp only [Bool.false_eq_true, or_false]
    omega
  have hexec : exec (.cobblerEventDispatch c) s = .next (s.setCob c { s.cob c with
      x := ((List.range 4).zip e.args).foldl (fun x y => cset x (y.1 + 2) y.2) (cset (s.cob c).x 1 e.word)
      pc := (cget (s.cob c).vectors e.kind.code).toNat, blocks := [], wait := 0, cur := some e, queue := l, wd := 0 }) := by
    rw [exec_cobblerEventDispatch, execCobblerEventDispatch]
    dsimp only
    rw [if_neg (not_busy hcur hlock), hq]
    exact congrArg Host.Outcome.next (if_neg hgood)
  refine ⟨_, hexec, ?_⟩
  rw [State.cob_setCob, if_pos rfl]
  obtain ⟨a0, a1, a2, a3, ha⟩ : ∃ a0 a1 a2 a3, e.args = [a0, a1, a2, a3] := by
    match hl : e.args, hargs with
    | [a0, a1, a2, a3], _ => exact ⟨a0, a1, a2, a3, rfl⟩
  have hx : ((List.range 4).zip e.args).foldl (fun x y => cset x (y.1 + 2) y.2) (cset (s.cob c).x 1 e.word)
      = cset (cset (cset (cset (cset (s.cob c).x 1 e.word) 2 a0) 3 a1) 4 a2) 5 a3 := by
    rw [ha]
    rfl
  refine ⟨rfl, rfl, rfl, ?_, fun i hi => ?_⟩
  · dsimp only
    rw [hx]
    simp [cget_cset_ne]
  · dsimp only
    rw [hx, ha]
    match i, hi with
    | 0, _ => simp [cget_cset_ne]
    | 1, _ => simp [cget_cset_ne]
    | 2, _ => simp [cget_cset_ne]
    | 3, _ => simp

end Events

/-! ### The firmware watchdog (R86, R95) -/

theorem cores_qcbFirmware (fn q i : Nat) (v : W64) (s : State) : (qcbFirmware fn q i v s).cores = s.cores := by
  unfold qcbFirmware setGen
  dsimp only
  split
  · rfl
  · rfl
  · split <;> rfl
  · rfl

theorem cores_completeUpdate (area : List Byte) (s : State) (e : Nat × Nat × Nat × List W64) :
    (completeUpdate area s e).cores = s.cores := by
  unfold completeUpdate
  dsimp only
  split
  · rfl
  have hfold := foldl_eq (fun s i => qcbFirmware e.2.1 e.2.2.1 i (e.2.2.2.getD i (qcbWord e.2.1 (s.queue e.2.1 e.2.2.1) i)) s)
    (fun s : State => s.cores) (fun s i => cores_qcbFirmware ..) [0, 1, 2, 3, 5] s
  split
  · exact (cores_qcbFirmware ..).trans hfold
  · exact hfold

theorem cob_clearEntry (core off valid : Nat) (s : State) (c : Nat) : (clearEntry core off valid s).cob c = s.cob c := by
  rw [clearEntry, State.cob, State.core_setCore]
  split
  next hc =>
    rw [hc]
    rfl
  · rfl

theorem cob_examineJournal (core : Nat) (s : State) (c : Nat) : (examineJournal core s).cob c = s.cob c := by
  unfold examineJournal
  dsimp only
  split
  · rfl
  · refine (foldl_eq _ (fun s : State => s.cob c) (fun s e => cob_clearEntry ..) _ _).trans ?_
    exact congrArg (fun l => (tget ({} : CoreSt) l c).cob) (foldl_eq _ (fun s : State => s.cores) (fun s e => cores_completeUpdate ..) _ s)

theorem watchdog_restarts {c : Nat} {s : State} {e : CobEvent} (hcur : (s.cob c).cur = some e) (hlast : (s.cob c).lastReset = none) :
    ∃ t, exec (.firmwareWatchdogExpiry c) s = .next t ∧ (t.cob c).cur = none ∧ (t.cob c).lastReset = some s.cycle
      ∧ (t.cob c).x = [] ∧ (t.cob c).evres = 0
      ∧ ∃ r, (t.cob c).queue = r :: { e with redo := true } :: (s.cob c).queue ∧ r.kind = .reset := by
  rw [exec_firmwareWatchdogExpiry, execFirmwareWatchdogExpiry, hlast, hcur]
  dsimp only
  rw [if_neg Bool.false_ne_true]
  refine ⟨_, rfl, ?_⟩
  rw [cob_examineJournal, State.cob_setCob, if_pos rfl]
  exact ⟨rfl, rfl, rfl, rfl, _, rfl, rfl⟩

theorem watchdog_locks {c : Nat} {s : State} {n : Nat} (hlast : (s.cob c).lastReset = some n)
    (hn : s.cycle - n ≤ max 1 s.fw.limit.toNat) :
    ∃ t, exec (.firmwareWatchdogExpiry c) s = .next t ∧ t.agenda = s.agenda ++ [.coreLockout c] := by
  rw [exec_firmwareWatchdogExpiry, execFirmwareWatchdogExpiry, hlast]
  dsimp only
  rw [if_pos (decide_eq_true hn)]
  exact ⟨_, rfl, rfl⟩

/-! ### Lockout (R85, R268) -/

section Lockout

variable {c : Nat} {s : State}

theorem told_lockoutNotice (c : Nat) (s : State) : Told s (lockoutNotice c s) := by
  unfold lockoutNotice
  split
  · exact .refl s
  dsimp only
  split
  · exact (told_recordWrite ..).trans (told_cqPost ..)
  · exact told_cqPost ..

theorem exec_coreLockout_locked (hlock : (s.core c).locked = true) : exec (.coreLockout c) s = .next s := by
  rw [exec_coreLockout, execCoreLockout, if_pos hlock]

/-- The core is locked, and its owners have been told. -/
def lockedOwners (c : Nat) (s : State) : State :=
  (s.core c).owners.foldl (lockOwner c) (s.setCore c { s.core c with locked := true })

theorem exec_coreLockout_takes (hlock : (s.core c).locked = false) :
    ∃ t, exec (.coreLockout c) s = .next t ∧ Told (lockedOwners c s) t := by
  refine ⟨_, ?_, told_lockoutNotice c _⟩
  rw [exec_coreLockout, execCoreLockout, if_neg (by rw [hlock]; exact Bool.false_ne_true)]
  dsimp only
  rw [State.core_setCore, if_pos rfl]
  rfl

theorem locked_setOwner (s : State) (c w : Nat) (o : Owner) (d : Nat) : ((s.setOwner c w o).core d).locked = (s.core d).locked := by
  rw [State.setOwner, State.core_setCore]
  split
  next hd =>
    rw [hd]
    rfl
  · rfl

theorem locked_lockOwner (c : Nat) (s : State) (x : Nat × Owner) : ((lockOwner c s x).core c).locked = (s.core c).locked := by
  unfold lockOwner loseOwner
  dsimp only
  split
  · split
    · rfl
    · exact locked_setOwner ..
  · split
    · exact locked_setOwner ..
    · rfl

theorem locked_lockedOwners (c : Nat) (s : State) : ((lockedOwners c s).core c).locked = true := by
  rw [lockedOwners]
  refine (foldl_eq _ (fun s : State => (s.core c).locked) (fun s x => locked_lockOwner ..) _ _).trans ?_
  simp

theorem loseOwner_faults {w : Nat} {o : Owner} (ho : tget {} (s.core c).owners w = o) (hlock : (s.core c).locked = true)
    (hlost : o.lost = false) : ∃ e, e.cause = .coreLost
      ∧ ((loseOwner c w s).strand o.sid).faults = (s.strand o.sid).faults ++ [e] := by
  unfold loseOwner
  have howner : s.owner c w = o := ho
  dsimp only
  rw [howner, hlost, hlock, if_neg (by decide)]
  rw [raiseAt, State.addFault, State.strand_setStrand, if_pos rfl]
  exact ⟨_, by rfl, rfl⟩

theorem lockout_overdue {w : Nat} {o : Owner} (hlock : (s.core c).locked = false) (ho : (s.core c).owners = [(w, o)])
    (hover : (s.strand o.sid).overdue = true) (hlost : o.lost = false) :
    ∃ t e, exec (.coreLockout c) s = .next t ∧ e.cause = .coreLost ∧ (t.strand o.sid).faults = (s.strand o.sid).faults ++ [e] := by
  obtain ⟨t, hexec, htold⟩ := exec_coreLockout_takes hlock
  have howner : tget {} ((s.setCore c { s.core c with locked := true }).core c).owners w = o := by
    rw [State.core_setCore, if_pos rfl, ho]
    exact if_pos rfl
  obtain ⟨e, he, hfaults⟩ := loseOwner_faults howner (by simp) hlost
  refine ⟨t, e, hexec, he, ?_⟩
  rw [htold.strand, lockedOwners, ho, List.foldl_cons, List.foldl_nil, lockOwner]
  dsimp only
  rw [if_pos (show (State.strand (s.setCore c _) o.sid).overdue = true from hover), hfaults]
  rfl

theorem lockout_running {w : Nat} {o : Owner} (hlock : (s.core c).locked = false) (ho : (s.core c).owners = [(w, o)])
    (hover : (s.strand o.sid).overdue = false) (hst : (s.strand o.sid).state = .running) :
    ∃ t, exec (.coreLockout c) s = .next t ∧ t.strand o.sid = s.strand o.sid := by
  obtain ⟨t, hexec, htold⟩ := exec_coreLockout_takes hlock
  refine ⟨t, hexec, ?_⟩
  rw [htold.strand, lockedOwners, ho, List.foldl_cons, List.foldl_nil, lockOwner]
  dsimp only
  have hstrand : ∀ k, (s.setCore c k).strand o.sid = s.strand o.sid := fun _ => rfl
  rw [hstrand, if_neg (by rw [hover]; exact Bool.false_ne_true), if_neg (by rw [hst]; decide), hstrand]

end Lockout

/-! ### Bank ports that are free (R199) -/

theorem grantedPorts_all {s : State} {l : List PortReq} {mine : List (Nat × Nat × Bool)}
    (hp : l.Pairwise fun a b => (a.core, bankOf a.line, a.wr) ≠ (b.core, bankOf b.line, b.wr))
    (hopen : ∀ p ∈ l, portOpen s p = true) (hmine : ∀ p ∈ l, (p.core, bankOf p.line, p.wr) ∉ mine) : grantedPorts s l mine = l := by
  induction l generalizing mine with
  | nil => rfl
  | cons p l ih =>
    obtain ⟨hne, hp⟩ := List.pairwise_cons.1 hp
    have hfree : (!mine.contains (p.core, bankOf p.line, p.wr) && portOpen s p) = true := by
      simp [hmine p (.head _), hopen p (.head _)]
    unfold grantedPorts
    dsimp only
    rw [if_pos hfree, ih hp (fun q hq => hopen q (.tail _ hq)) fun q hq => ?_]
    rw [List.mem_cons, not_or]
    exact ⟨fun he => hne q hq he.symm, hmine q (.tail _ hq)⟩

/-- Ports that are free are all taken at once. -/
theorem portTurn_free {s : State} {l : List PortReq} (who : PortReq → Option (Nat × Nat)) (h : PortsFree s l) :
    ∃ u, portTurn who l s = ([], u) ∧ PortsTaken s u := by
  obtain ⟨hp, hopen⟩ := h
  refine ⟨_, Prod.ext ?_ rfl, portTurn_of_open hopen⟩
  rw [portTurn]
  dsimp only
  rw [grantedPorts_all hp hopen (by simp)]
  simp

section Taken

variable {s u : State} (h : PortsTaken s u)
include h

theorem cob_taken (c : Nat) : u.cob c = s.cob c := by
  rw [State.cob, h.2 c]
  rfl

theorem owners_taken (c : Nat) : (u.core c).owners = (s.core c).owners := by
  rw [h.2 c]

theorem mem_taken : u.mem = s.mem := by rw [h.1]

end Taken

/-! ### The end of ZFILL (R417) -/

section Zfill

theorem cget_czero_zero {m : Cells 8} {a : Nat} (lo n : Nat) (h : cget m a = 0 ∨ lo ≤ a ∧ a < lo + n) :
    cget (czero m lo n) a = 0 := by
  rw [Results.cget_czero]
  split
  · rfl
  next hout => exact h.resolve_right hout

/-- The zeroing of one unit of a window. -/
def zeroUnit (k : CoreSt) (u : Nat) : CoreSt :=
  { k with win := czero k.win (u * 4096) 4096, winErr := k.winErr.filter fun w => w / 512 ≠ u
           winPoison := k.winPoison.filter fun l => l / 64 ≠ u }

theorem cget_win_zeroUnits {l : List Nat} {k : CoreSt} {a : Nat} (h : cget k.win a = 0 ∨ a / 4096 ∈ l) :
    cget (l.foldl zeroUnit k).win a = 0 := by
  induction l generalizing k with
  | nil => exact h.resolve_right List.not_mem_nil
  | cons u l ih =>
    refine ih ?_
    rcases h with h | h
    · exact .inl (cget_czero_zero _ _ (.inl h))
    · rcases List.mem_cons.1 h with rfl | h
      · exact .inl (cget_czero_zero _ _ (.inr (by omega)))
      · exact .inr h

theorem win_zeroParts (k : CoreSt) (win oms tiles vs : List Nat) : (zeroParts k win oms tiles vs).win = (win.foldl zeroUnit k).win := by
  unfold zeroParts
  refine (foldl_eq _ CoreSt.win (fun k u => ?_) vs _).trans
    ((foldl_eq _ CoreSt.win (fun k u => ?_) tiles _).trans (foldl_eq _ CoreSt.win (fun k u => ?_) oms _)) <;> rfl

variable {c w : Nat} {s : State} {parts : W64} {a : BitVec 4}

theorem zfillZeroed_ends (hz : (s.cob c).zfill = some (w, parts, a)) (htodo : (s.cob c).zfillTodo = none)
    (hfree : PortsFree s (zfillPorts c s)) :
    ∃ u, PortsTaken s u ∧ exec (.zfillZeroed c) s = .next (zfillDone c w parts a u) := by
  obtain ⟨u, hturn, htaken⟩ := portTurn_free (cycleOwner s) hfree
  refine ⟨u, htaken, ?_⟩
  rw [exec_zfillZeroed, execZfillZeroed, hz, htodo]
  dsimp only
  rw [Option.getD_none, hturn]
  rfl

/-- What the end of ZFILL makes of a core whose parts are zero. -/
theorem zfill_answers (ha : a ≠ 0) (k : CoreSt) (hk : k.cob.zfill = none) (pj idle : Nat) (u : State) :
    let v := cobWrite c a 0 (chargeOper (u.setCore c k).tick1 pj)
    let t := v.setCob c ((v.cob c).advance idle)
    (t.cob c).zfill = none ∧ cget (t.cob c).x a.toNat = 0 ∧ (t.core c).win = k.win := by
  have hcore : (chargeOper (u.setCore c k).tick1 pj).core c = k := (State.core_setCore ..).trans (if_pos rfl)
  dsimp only
  rw [State.cob_setCob, if_pos rfl, cob_cobWrite ha, State.setCob, State.core_setCore, if_pos rfl, core_cobWrite ha, State.cob, hcore]
  exact ⟨hk, cget_cset_self k.cob.x a.toNat 0, rfl⟩

theorem zfillDone_spec (ha : a ≠ 0) (u : State) : ((zfillDone c w parts a u).cob c).zfill = none
    ∧ cget ((zfillDone c w parts a u).cob c).x a.toNat = 0
    ∧ (parts.getLsbD 3 = true → ∀ v < (tget {} (u.cob c).recs w).wsize.toNat, ∀ i < 4096,
        cget ((zfillDone c w parts a u).core c).win (((tget {} (u.cob c).recs w).wbase.toNat + v) * 4096 + i) = 0) := by
  unfold zfillDone
  dsimp only
  refine ⟨(zfill_answers ha _ rfl ..).1, (zfill_answers ha _ rfl ..).2.1, fun hwin v hv i hi => ?_⟩
  rw [(zfill_answers ha _ rfl ..).2.2]
  dsimp only
  rw [apply_ite CoreSt.win, ite_self, win_zeroParts, if_pos hwin]
  refine cget_win_zeroUnits (.inr ?_)
  rw [List.mem_map]
  exact ⟨v, List.mem_range.2 hv, by omega⟩

end Zfill

/-! ### The end of a save of the CSE (R418) -/

section Cse

variable {c w pa : Nat} {s u : State}

theorem cores_pwrite (s : State) (a : Nat) (b : List Byte) (poison : List Nat) (dt : Bool) :
    (pwrite s a b poison dt).cores = s.cores := by
  unfold pwrite
  dsimp only
  split <;> rfl

theorem cores_saveRecord (c w pa : Nat) (s : State) : (saveRecord c w pa s).cores = s.cores := by
  unfold saveRecord
  dsimp only
  exact (foldl_eq _ (fun s : State => s.cores) (fun s x => cores_pwrite ..) _ _).trans rfl

/-- A save succeeds where its id is active and nothing that it writes is poisoned or fails its check. -/
def SaveGoes (s : State) (c w : Nat) : Bool := activeId (s.core c) w && !saveFails (s.core c) (s.owner c w)

theorem saveGoes_taken (h : PortsTaken s u) : SaveGoes u c w = SaveGoes s c w := by
  have howner : u.owner c w = s.owner c w := by rw [State.owner, h.2 c]; rfl
  rw [SaveGoes, howner, h.2 c]
  rfl

theorem csePerform_save (c w pa : Nat) (s : State) : (csePerform c false w pa s).1.cores = s.cores
    ∧ (csePerform c false w pa s).2 = if SaveGoes s c w then 0 else 0x13 := by
  unfold csePerform
  dsimp only
  rw [if_neg Bool.false_ne_true]
  by_cases h : SaveGoes s c w = true
  · rw [if_pos h, if_neg]
    · exact ⟨cores_saveRecord .., rfl⟩
    · rw [SaveGoes, Bool.and_eq_true, Bool.not_eq_true'] at h
      obtain ⟨hact, hfails⟩ := h
      rw [hact, show saveFails (s.core c) ((s.core c).owner w) = false from hfails]
      decide
  · rw [if_neg h, if_pos]
    · exact ⟨rfl, rfl⟩
    · rw [SaveGoes, Bool.and_eq_true, Bool.not_eq_true', not_and_or] at h
      refine h.imp (fun hact => ?_) fun hfails => Bool.not_eq_false _ ▸ hfails
      rw [Bool.not_eq_true', ← Bool.not_eq_true]
      exact hact

/-- What a failed save does with the LAUNCH of its strand leaves the CSE idle. -/
theorem cseFailed_idle (sid : Nat) (s : State) (c : Nat) : ((cseFailed sid s).cob c).cse = (s.cob c).cse
    ∧ ((cseFailed sid s).cob c).cseBusy = (s.cob c).cseBusy := by
  unfold cseFailed
  split
  · exact ⟨rfl, rfl⟩
  next t _ =>
    have h := (rearranged_freeEach true sid s).trans (rearranged_speedAll (t.slots.map (·.1)) (freeAll sid s))
    obtain ⟨hclosed, -, -, -⟩ := finishLaunch_spec sid 0x0403 (speedAll (t.slots.map (·.1)) (freeAll sid s))
    have hcob : (finishLaunch sid 0x0403 (speedAll (t.slots.map (·.1)) (freeAll sid s))).cob c
        = (speedAll (t.slots.map (·.1)) (freeAll sid s)).cob c := by
      rw [State.cob, State.core, hclosed.cores]
      rfl
    rw [hcob]
    exact ⟨h.cse c, h.busy c⟩

theorem postCompletion_spec (c : Nat) (x : Completion) (s : State) : ((postCompletion c x s).cob c).cse = (s.cob c).cse
    ∧ ((postCompletion c x s).cob c).cseBusy = (s.cob c).cseBusy
    ∧ ((postCompletion c x s).cob c).compl = (s.cob c).compl ++ [x]
    ∧ ((postCompletion c x s).cob c).xphy = (s.cob c).xphy := by
  rw [postCompletion, State.cob_setCob, if_pos rfl]
  exact ⟨rfl, rfl, rfl, rfl⟩

/-- The state before the completion of a save: the CSE is idle, and its work is charged. -/
def cseIdle (c pj : Nat) (s : State) : State :=
  chargeOper (s.setCob c { s.cob c with cseBusy := false, cse := none, cseTodo := none }) pj

theorem cob_cseIdle (c pj : Nat) (s : State) :
    (cseIdle c pj s).cob c = { s.cob c with cseBusy := false, cse := none, cseTodo := none } :=
  (State.cob_setCob ..).trans (if_pos rfl)

theorem exec_cseDone_save (hcse : (s.cob c).cse = some (false, w, pa)) (htodo : (s.cob c).cseTodo = none)
    (hfree : PortsFree s (csePorts c false w s)) :
    ∃ v pj st sid, v.cob c = s.cob c ∧ st = (if SaveGoes s c w then 0 else 0x13)
      ∧ exec (.cseDone c) s = .next (postCompletion c { kind := 0, wid := bv 3 w, status := bv 8 st, seq := 0, detail := 0 }
          (if st = 0 then cseIdle c pj v else cseFailed sid (cseIdle c pj v))) := by
  obtain ⟨u, hturn, htaken⟩ := portTurn_free (cycleOwner s) hfree
  obtain ⟨hcores, hst⟩ := csePerform_save c w pa u
  rw [saveGoes_taken htaken] at hst
  have hcob : (csePerform c false w pa u).1.cob c = s.cob c := by
    rw [State.cob, State.core, hcores]
    exact cob_taken htaken c
  refine ⟨_, saveBytes (cseOwner (u.core c) w) * pjPerByte pa, _, (cseOwner (u.core c) w).sid, hcob, hst, ?_⟩
  rw [exec_cseDone, execCseDone, hcse, htodo]
  dsimp only
  rw [Option.getD_none, hturn]
  rfl

theorem cseDone_save (hcse : (s.cob c).cse = some (false, w, pa)) (htodo : (s.cob c).cseTodo = none)
    (hfree : PortsFree s (csePorts c false w s)) :
    ∃ t x l, exec (.cseDone c) s = .next t ∧ (t.cob c).cseBusy = false ∧ (t.cob c).cse = none ∧ (t.cob c).compl = l ++ [x]
      ∧ (x.status = 0 → l = (s.cob c).compl) ∧ x.kind = 0 ∧ x.wid = BitVec.ofNat 3 w
      ∧ x.status = (if SaveGoes s c w then 0 else 0x13) := by
  obtain ⟨v, pj, st, sid, hcob, hst, hexec⟩ := exec_cseDone_save hcse htodo hfree
  obtain ⟨hidleCse, hidleBusy⟩ : ((if st = 0 then cseIdle c pj v else cseFailed sid (cseIdle c pj v)).cob c).cse = none
      ∧ ((if st = 0 then cseIdle c pj v else cseFailed sid (cseIdle c pj v)).cob c).cseBusy = false := by
    split
    · rw [cob_cseIdle]
      exact ⟨rfl, rfl⟩
    · rw [(cseFailed_idle ..).1, (cseFailed_idle ..).2, cob_cseIdle]
      exact ⟨rfl, rfl⟩
  obtain ⟨h1, h2, h3, -⟩ := postCompletion_spec c { kind := 0, wid := bv 3 w, status := bv 8 st, seq := 0, detail := 0 }
    (if st = 0 then cseIdle c pj v else cseFailed sid (cseIdle c pj v))
  refine ⟨_, _, _, hexec, h2.trans hidleBusy, h1.trans hidleCse, h3, fun h0 => ?_, rfl, rfl, ?_⟩
  · have hst0 : st = 0 := by
      rw [hst] at h0 ⊢
      split at h0
      next hgo => rw [if_pos hgo]
      · cases h0
    rw [if_pos hst0, cob_cseIdle, hcob]
  · rw [hst]
    split <;> rfl

end Cse

/-! ### The end of a posted write of XPHY (R419, R420) -/

section Xphy

variable {c n : Nat} {s : State} {x : Xphy}

theorem xphyDone_ends (hx : (s.cob c).xphy = [x]) (hnum : x.num = n) (hreg : hubReg x.pa = none)
    (htodo : x.todo = none) (hfree : PortsFree s (xphyPorts c x)) :
    ∃ u, PortsTaken s u ∧ exec (.xphyDone c n) s = .next (xphyEnd c x u) := by
  obtain ⟨u, hturn, htaken⟩ := portTurn_free (cycleOwner s) hfree
  refine ⟨u, htaken, ?_⟩
  have hreg' : ∀ td, Xphy.atRegister { x with todo := td } = false := fun td => by simp [Xphy.atRegister, hreg]
  have hreg0 : x.atRegister = false := hreg' x.todo
  rw [exec_xphyDone, execXphyDone, hx]
  dsimp only
  rw [List.find?_cons, decide_eq_true hnum]
  dsimp only
  rw [if_neg (by simp [hnum]), if_neg (by simp [hreg0]), htodo, Option.getD_none, hturn]
  dsimp only
  rw [if_neg (by simp), if_neg (by simp [hreg'])]

theorem xphyDone_write (hx : (s.cob c).xphy = [x]) (hnum : x.num = n) (hst : x.status = 0) (hreg : hubReg x.pa = none)
    (hwrite : x.write = true) (hpost : x.post = true) (hsrc : x.srcPoison = []) (htodo : x.todo = none)
    (hfree : PortsFree s (xphyPorts c x)) :
    ∃ t y, exec (.xphyDone c n) s = .next t ∧ (t.cob c).xphy = [] ∧ (t.cob c).compl = (s.cob c).compl ++ [y] ∧ y.kind = 2
      ∧ y.status = 0 ∧ y.seq = BitVec.ofNat 16 n ∧ (x.src ≠ [] → t.mem = csets s.mem x.pa x.src) := by
  obtain ⟨u, htaken, hexec⟩ := xphyDone_ends hx hnum hreg htodo hfree
  have hperform : xphyPerform c x u = (pwrite (chargeOper u (x.len * pjPerByte x.pa)) x.pa x.src [] true, 0) := by
    unfold xphyPerform
    rw [if_neg (not_not_intro hst), hreg, hsrc]
    dsimp only
    rw [if_pos hwrite]
    rfl
  refine ⟨_, { kind := 2, wid := 0, status := bv 8 0, seq := bv 16 x.num, detail := 0 }, hexec, ?_⟩
  rw [xphyEnd, hperform]
  dsimp only
  rw [if_pos hpost]
  generalize hv : pwrite (chargeOper u (x.len * pjPerByte x.pa)) x.pa x.src [] true = v
  have hcob : v.cob c = s.cob c := by
    rw [State.cob, State.core, ← hv, cores_pwrite]
    exact cob_taken htaken c
  obtain ⟨-, -, hcompl, hxphy⟩ := postCompletion_spec c { kind := 2, wid := 0, status := bv 8 0, seq := bv 16 x.num, detail := 0 }
    (v.setCob c { v.cob c with xphy := (v.cob c).xphy.filter fun y => y.num ≠ x.num })
  refine ⟨hxphy.trans ?_, hcompl.trans ?_, rfl, rfl, by rw [hnum], fun hne => ?_⟩
  · rw [State.cob_setCob, if_pos rfl, hcob, hx]
    simp
  · rw [State.cob_setCob, if_pos rfl, hcob]
  · change v.mem = _
    rw [← hv, pwrite, if_neg (by simpa using hne), ← mem_taken htaken]
    rfl

end Xphy

/-- Settles O59: each part of the firmware context by the lemma about its instruction or operation. -/
theorem firmwareContext : Obligations.FirmwareContext := by
  unfold Obligations.FirmwareContext
  intro c s b
  refine ⟨fun e l hcur hlock hq hargs hv himg hok => dispatch_takes hcur hlock hq hargs hv himg hok,
    fun e l hcur hlock hq hbad => dispatch_locks hcur hlock hq hbad, dispatch_idle,
    fun h ra rb rc hstr hc htok hguard hon ha => exec_add_spec hstr hc htok hguard hon ha,
    fun h ra rb rc hstr hc htok => ?token, fun h ra rb rc hstr hc htok hguard hoff i hi => ?off,
    fun h g ra rb rc hstr hc htok hg ha => exec_sel_spec hstr hc htok hg ha,
    fun h ra rb d hstr hc htok hguard hon ha => ?loads, fun h ra rb d hstr hc htok hguard hon => ?stores,
    fun len cnt cs stg hstr hc => ⟨fun hbad => hc ▸ exec_blockHeader_locks hstr hbad, blockHeader_opens hstr hc, blockHeader_skips hstr hc⟩,
    fun h ra rb rc k e p hstr => exec_system_owner hstr, fun e hcur hlast => watchdog_restarts hcur hlast,
    fun n hlast hn => watchdog_locks hlast hn, exec_coreLockout_locked, fun hlock => ?locks,
    fun w o hlock ho => ⟨lockout_overdue hlock ho, lockout_running hlock ho⟩, fun w o hlock ho hlost => ?lost,
    fun hz => ?noZfill, fun w parts a hz ha htodo hfree => ?zfill, fun w pa hcse htodo hfree => cseDone_save hcse htodo hfree,
    fun x n hx hnum hst hreg hwrite hpost hsrc htodo hfree => xphyDone_write hx hnum hst hreg hwrite hpost hsrc htodo hfree⟩
  case token =>
    rw [exec_issueCob (exec_add ..) hstr, issueCob_tok htok, hc]
    rfl
  case off =>
    simp only [List.mem_cons, List.not_mem_nil, or_false] at hi
    rcases hi with rfl | rfl | rfl
    · exact exec_off (exec_add ..) hstr hc htok hguard hoff
    · exact exec_off (exec_ldD ..) hstr hc htok hguard hoff
    · exact exec_off (exec_stD ..) hstr hc htok hguard hoff
  case loads =>
    exact ⟨cobLoads_of_exec exec_ldB (sx_ofNat (by decide)) hstr hc htok hguard hon ha,
      cobLoads_of_exec exec_ldBu (fun _ => rfl) hstr hc htok hguard hon ha,
      cobLoads_of_exec exec_ldH (sx_ofNat (by decide)) hstr hc htok hguard hon ha,
      cobLoads_of_exec exec_ldHu (fun _ => rfl) hstr hc htok hguard hon ha,
      cobLoads_of_exec exec_ldW (sx_ofNat (by decide)) hstr hc htok hguard hon ha,
      cobLoads_of_exec exec_ldWu (fun _ => rfl) hstr hc htok hguard hon ha,
      cobLoads_of_exec exec_ldD (fun _ => rfl) hstr hc htok hguard hon ha,
      cobLoads_of_exec exec_ldsD (fun _ => rfl) hstr hc htok hguard hon ha⟩
  case stores =>
    exact ⟨cobStores_of_exec exec_stB hstr hc htok hguard hon, cobStores_of_exec exec_stH hstr hc htok hguard hon,
      cobStores_of_exec exec_stW hstr hc htok hguard hon, cobStores_of_exec exec_stD hstr hc htok hguard hon⟩
  case locks =>
    obtain ⟨t, hexec, htold⟩ := exec_coreLockout_takes hlock
    exact ⟨t, hexec, by rw [htold.core, locked_lockedOwners]⟩
  case lost =>
    exact loseOwner_faults (tget_of_tfind ho) hlock hlost
  case noZfill =>
    rw [exec_zfillZeroed, execZfillZeroed, show (s.cob c).zfill = none from hz]
  case zfill =>
    obtain ⟨u, htaken, hexec⟩ := zfillZeroed_ends hz htodo hfree
    obtain ⟨hnone, hx, hwin⟩ := zfillDone_spec (c := c) (w := w) (parts := parts) ha u
    rw [cob_taken htaken] at hwin
    exact ⟨_, hexec, hnone, hx, hwin⟩

end Sys2Proof.Laws.Contexts
end

section
/-! PROOF. The life of a strand: the resumption of an evicted strand and the poison of its records (R112, R121). -/

namespace Sys2Proof.Laws.Lives

open Machine

/-- An evicted strand of one core with 32 vector registers; its record 0 is the first of the context region of its VD, at
`0x10000`, and the line behind that record is poisoned. -/
def evictedStrand : State :=
  { strands := [(0, { state := .evicted, vregs := 32, ctxRecs := [0] })]
    parts := [(0, { v := true })]
    vds := [(0, { maxCores := 1 })]
    memPoison := [12544] }

/-- The place that the placer's search finds for `evictedStrand`. -/
def foundPlace : Option Placement := search evictedStrand 0 { evictedStrand.strand 0 with wids := [] } 0 0xFF

theorem foundPlace_isSome : foundPlace.isSome = true := rfl

/-- What the resumption of `evictedStrand` comes to. -/
def afterResumption : State := placeOrWait 0 0 (fun s => search s 0 { s.strand 0 with wids := [] } 0 0xFF)
  (resumeAt 0) (fun s => s.setStrand 0 { s.strand 0 with tried := true }) evictedStrand

theorem exec_strandResume_evictedStrand : exec (.strandResume 0) evictedStrand = .next afterResumption := rfl

/-- 32 vector registers from offset `0x9C000` of the record reach behind its end, so that its poison check finds the line there and
the VD fails with the strand (R121). -/
theorem strands_afterResumption : afterResumption.strands = [] := rfl

/-- Refutes O53: the check of a record reads `0x9C000 + 4096·vcnt` bytes of it and one more, in `evictedStrand` more than its
`Config.coreRecord`, so that poison that lies outside of every record fails the resumption. -/
theorem not_strandLife : ¬ Obligations.StrandLife := by
  unfold Obligations.StrandLife
  intro h
  obtain ⟨_, _, _, _, _, _, _, _, _, _, _, hresume, _⟩ := h 0 evictedStrand
  obtain ⟨p, hp⟩ := Option.isSome_iff_exists.mp foundPlace_isSome
  have hrecords : ∀ r ∈ (evictedStrand.strand 0).ctxRecs, ∀ l ∈ evictedStrand.memPoison,
      64 * l + 64 ≤ recordPa evictedStrand 0 r ∨ recordPa evictedStrand 0 r + Config.coreRecord ≤ 64 * l := by decide
  obtain ⟨u, hexec, hstate, _⟩ := hresume p rfl (by decide) hp (fun _ _ => rfl) hrecords
  rw [exec_strandResume_evictedStrand] at hexec
  cases hexec
  have hgone : (afterResumption.strand 0).state = ({} : Strand).state := by
    unfold State.strand
    rw [strands_afterResumption]
    rfl
  rw [hgone] at hstate
  exact absurd hstate (by decide)

end Sys2Proof.Laws.Lives
end

section
/-! PROOF. Partitions, and the creation and the end of virtual devices (R87, R107-R111, R114, R115). -/

namespace Sys2Proof.Laws.Devices

open Machine
open Pages (zeroed_settleFrames vd_of_vds)
open Contexts (cget_czero_zero)
open Functions (fn_clearVfs flrStep_of_open onlyPlaces_packVfs closing)

variable {s : State}

/-! ### Partitions -/

theorem part_setPartition_self (s : State) (n : Nat) (p : Part) : tget {} (grantsChanged (s.setPartition n p)).parts n = p :=
  tget_tset_self ..

theorem part_setPartition_ne (s : State) {n k : Nat} (p : Part) (h : k ≠ n) :
    tget {} (grantsChanged (s.setPartition n p)).parts k = tget {} s.parts k := tget_tset_ne _ _ _ h

theorem clearVfs_spec (n : Nat) (s : State) : (clearVfs n s).parts = s.parts ∧ (clearVfs n s).vds = s.vds
    ∧ (clearVfs n s).vdcmd = s.vdcmd ∧ (clearVfs n s).agenda = s.agenda := by
  rw [clearVfs, (onlyPlaces_packVfs _).1]
  exact ⟨rfl, rfl, rfl, rfl⟩

/-! ### The creation of a VD -/

theorem tfind_tset_isSome {α : Type} (l : Tab α) (i : Nat) (v : α) : (tfind (tset l i v) i).isSome = true := by
  induction l with
  | nil => simp [tset, tfind]
  | cons x l ih =>
    obtain ⟨j, u⟩ := x
    unfold tset
    split
    · simp [tfind]
    · split <;> simp_all [tfind]

/-- The CID that a command of HB_VDCMD names. -/
def namedCid (s : State) : Nat := leAt (pread s s.vdcmd.pa.toNat 256) 0 2

/-- The state with the VD of the descriptor, before the frames that it maps settle. -/
def withNewVd (state : VdState) (s : State) : State :=
  let v := newVd s (pread s s.vdcmd.pa.toNat 256) (pread s (leAt (pread s s.vdcmd.pa.toNat 256) 0x20 8) 5325) state
  { s.setVd (namedCid s) v with counts := tset s.counts (namedCid s) v.count }

theorem createVd_ok (state : VdState) (h : createFault s = 0) : createVd state s = vdcmdDone 1 (settleFrames (withNewVd state s)) := by
  unfold createVd
  rw [h]
  rfl

theorem withNewVd_eq (state : VdState) (s : State) :
    withNewVd state s = { s with vds := (withNewVd state s).vds, counts := (withNewVd state s).counts } := rfl

theorem vd_withNewVd (state : VdState) (s : State) : (withNewVd state s).vd (namedCid s)
    = newVd s (pread s s.vdcmd.pa.toNat 256) (pread s (leAt (pread s s.vdcmd.pa.toNat 256) 0x20 8) 5325) state := tget_tset_self ..

theorem count_withNewVd (state : VdState) (s : State) :
    tget 0 (withNewVd state s).counts (namedCid s) = tget 0 s.counts (namedCid s) + 1 := tget_tset_self ..

/-- A VD is there once it is made, and its frames settle. -/
theorem createVd_spec (state : VdState) (h : createFault s = 0) :
    (createVd state s).vds = (withNewVd state s).vds ∧ (createVd state s).counts = (withNewVd state s).counts
      ∧ hasVd (createVd state s) (namedCid s) = true ∧ (createVd state s).vd (namedCid s) = (withNewVd state s).vd (namedCid s) := by
  have hvds : (createVd state s).vds = (withNewVd state s).vds := by rw [createVd_ok state h, vdcmdDone, zeroed_settleFrames]
  refine ⟨hvds, by rw [createVd_ok state h, vdcmdDone, zeroed_settleFrames], ?_, by rw [State.vd, hvds]; rfl⟩
  rw [hasVd, hvds]
  exact tfind_tset_isSome _ _ _

theorem createVd_bad (state : VdState) (h : createFault s ≠ 0) : createVd state s = vdcmdDone (createFault s) s := by
  unfold createVd
  split
  next h0 => exact absurd h0 h
  next => rfl

/-- What a frame held before is gone once another mapping of it settles (R115). -/
theorem settleFrames_zero {r x : Nat × Nat × Nat × Nat} {f i : Nat} (hstale : s.stale = [r]) (hmapped : mappedFrames s = [x])
    (hother : r.2.2 ≠ x.2.2) (hr : r.1 ≤ f) (hr' : f < r.1 + r.2.1) (hx : x.1 ≤ f) (hx' : f < x.1 + x.2.1) (hi : i < 65536) :
    cget (settleFrames s).mem (f * 65536 + i) = 0 ∧ (f * 65536 + i) / 64 ∉ (settleFrames s).memPoison := by
  have hlo : max r.1 x.1 ≤ f := by omega
  have hhi : f < min (r.1 + r.2.1) (x.1 + x.2.1) := by omega
  rw [settleFrames, hstale, hmapped, if_neg (show ¬ [r].isEmpty = true from nofun), List.foldl_cons, List.foldl_nil, takeFrames, hstale,
    List.foldl_cons, List.foldl_nil]
  dsimp only
  rw [if_pos ⟨hother, by omega⟩]
  generalize max r.1 x.1 = lo at *
  generalize min (r.1 + r.2.1) (x.1 + x.2.1) = hi at *
  refine ⟨cget_czero_zero _ _ (.inr (by omega)), fun h => ?_⟩
  have hkeep := (List.mem_filter.1 h).2
  rw [Bool.not_eq_true', decide_eq_false_iff_not] at hkeep
  omega

/-! ### The end of a VD -/

theorem hasVd_of_destroyFault (h : destroyFault s = 0) : hasVd s (leAt (pread s s.vdcmd.pa.toNat 256) 0 2) = true := by
  unfold destroyFault at h
  dsimp only at h
  split at h
  · cases h
  · split at h
    · cases h
    · split at h
      · cases h
      next hex => simpa using (not_or.1 hex).2

theorem destroyVd_of_no_meter (h : s.wm.meters = []) :
    destroyVd s = if s.vdcmd.fn ≤ 32 then pfEnd s.vdcmd.fn 6 s else flrStep s.vdcmd.fn 6 s := by
  unfold destroyVd metersOf
  rw [h]
  rfl

theorem pfEnd_of_no_vf {pf event : Nat} (h : vfsOf s pf = []) : pfEnd pf event s = clearVfs pf (flrStep pf event s) := by
  rw [pfEnd, h]
  rfl

/-- VD_DESTROY of a VD of which no strand and no meter stands: the VD begins to go, and the FLR of its function is raised. -/
theorem destroyVd_open (hvd : hasVd s s.vdcmd.fn = true) (hopen : (s.vd s.vdcmd.fn).closing = false) (hst : s.strands = [])
    (hm : s.wm.meters = []) (hvf : 32 < s.vdcmd.fn ∨ vfsOf s s.vdcmd.fn = []) :
    (destroyVd s).vdcmd = s.vdcmd ∧ ((destroyVd s).vd s.vdcmd.fn).closing = true
      ∧ (destroyVd s).agenda = s.agenda ++ [.vfFlr s.vdcmd.fn] := by
  have hflr := flrStep_of_open (event := 6) hvd hopen hst hm
  have hself : (flrStep s.vdcmd.fn 6 s).vdcmd = s.vdcmd ∧ ((flrStep s.vdcmd.fn 6 s).vd s.vdcmd.fn).closing = true
      ∧ (flrStep s.vdcmd.fn 6 s).agenda = s.agenda ++ [.vfFlr s.vdcmd.fn] := by
    rw [hflr]
    exact ⟨rfl, congrArg Vd.closing (tget_tset_self ..), rfl⟩
  rw [destroyVd_of_no_meter hm]
  by_cases hpf : s.vdcmd.fn ≤ 32
  · obtain ⟨_, hvds, hcmd, hagenda⟩ := clearVfs_spec s.vdcmd.fn (flrStep s.vdcmd.fn 6 s)
    rw [if_pos hpf, pfEnd_of_no_vf (hvf.resolve_left (by omega)), hcmd, hagenda, vd_of_vds hvds]
    exact hself
  · rw [if_neg hpf]
    exact hself

/-- Settles O51: partitions are set in their table, a VD is made once its descriptor passes, and the frames that it maps settle. -/
theorem partitionsAndDevices : Obligations.PartitionsAndDevices := by
  unfold Obligations.PartitionsAndDevices
  intro n w s
  refine ⟨fun hboot hold hv hfits hover => ?_, fun hbad => ?_, fun hold hv hfits hover hno => ?_, fun hvds hcont => ?_, fun hno => ?_,
    fun hvds => ?_, fun hok => ⟨?_, ?_⟩, fun r x hstale hmapped hother f i hr hr' hx hx' hi => ?_, fun hbad => ⟨?_, ?_⟩,
    fun hbusy hbad => ?_, fun hbusy hok hopen hst hm hvf => ?_⟩
  · refine ⟨grantsChanged (s.setPartition n (partOfWord w)), ?_, part_setPartition_self .., fun k hk => part_setPartition_ne _ _ hk⟩
    show execPartitionCreate n w s = _
    rw [execPartitionCreate, hboot, hold, hv, hfits, hover]
    rfl
  · show execPartitionCreate n w s = _
    rw [execPartitionCreate]
    refine congrArg Host.Outcome.next (if_neg fun h => ?_)
    simp only [Bool.and_eq_true, Bool.not_eq_true'] at h
    obtain ⟨⟨⟨⟨hboot, _⟩, _⟩, hfits⟩, hover⟩ := h
    rcases hbad with hbad | hbad | hbad
    · exact absurd (hboot.symm.trans hbad) nofun
    · exact absurd (hfits.symm.trans hbad) nofun
    · exact absurd (hover.symm.trans hbad) nofun
  · refine ⟨grantsChanged (s.setPartition n (partOfWord w)), ?_, part_setPartition_self ..⟩
    show execPartitionResize n w s = _
    unfold execPartitionResize
    dsimp only
    rw [hold, hv, hfits, hover, hno, List.any_nil, Bool.and_false, List.foldl_nil, ite_self]
    rfl
  · show execPartitionResize n w s = _
    unfold execPartitionResize
    dsimp only
    rw [hcont]
    refine congrArg Host.Outcome.next (if_pos ?_)
    rw [List.isEmpty_eq_false_iff.2 hvds]
    exact Bool.or_true _
  · refine ⟨clearVfs n (grantsChanged (s.setPartition n {})), ?_, ?_, fun _ _ => fn_clearVfs ..⟩
    · show execPartitionRemove n s = _
      rw [execPartitionRemove, hno]
      rfl
    · rw [(clearVfs_spec ..).1, part_setPartition_self]
  · show execPartitionRemove n s = _
    rw [execPartitionRemove, List.isEmpty_eq_false_iff.2 hvds]
    rfl
  · obtain ⟨hvds, hcounts, hhas, hvd⟩ := createVd_spec .active hok
    refine ⟨createVd .active s, withNewVd .active s, rfl, by rw [createVd_ok .active hok]; rfl, by rw [createVd_ok .active hok]; rfl,
      withNewVd_eq .active s, hvds, hhas, ?_⟩
    change ((createVd .active s).vd (namedCid s)).state = .active ∧ ((createVd .active s).vd (namedCid s)).count = _
      ∧ tget 0 (createVd .active s).counts (namedCid s) = tget 0 s.counts (namedCid s) + 1 ∧ ((createVd .active s).vd (namedCid s)).maxCores = _
      ∧ ((createVd .active s).vd (namedCid s)).root = _ ∧ ((createVd .active s).vd (namedCid s)).ctx = _ ∧ _
    rw [hcounts, count_withNewVd, hvd, vd_withNewVd, createVd_ok .active hok]
    exact ⟨rfl, rfl, rfl, rfl, rfl, rfl, rfl, rfl⟩
  · obtain ⟨_, _, hhas, hvd⟩ := createVd_spec .incoming hok
    refine ⟨createVd .incoming s, rfl, hhas, (congrArg Vd.state hvd).trans ?_, by rw [createVd_ok .incoming hok]; rfl⟩
    rw [vd_withNewVd]
    rfl
  · exact settleFrames_zero hstale hmapped hother hr hr' hx hx' hi
  · exact congrArg Host.Outcome.next (createVd_bad .active hbad)
  · exact congrArg Host.Outcome.next (createVd_bad .incoming hbad)
  · show execVdDestroy s = _
    unfold execVdDestroy
    rw [hbusy, if_neg Bool.false_ne_true]
    split
    next h0 => exact absurd h0 hbad
    next => rfl
  · have hexec : exec .vdDestroy s = .next (destroyVd
        { s with vdcmd := { s.vdcmd with busy := true, fn := leAt (pread s s.vdcmd.pa.toNat 256) 0 2 } }) := by
      show execVdDestroy s = _
      rw [execVdDestroy, hbusy, hok]
      rfl
    refine ⟨_, hexec, ?_⟩
    obtain ⟨hcmd, hclosing, hagenda⟩ := destroyVd_open
      (s := { s with vdcmd := { s.vdcmd with busy := true, fn := leAt (pread s s.vdcmd.pa.toNat 256) 0 2 } })
      (hasVd_of_destroyFault hok) hopen hst hm hvf
    exact ⟨congrArg VdCmd.busy hcmd, hclosing, hagenda⟩

end Sys2Proof.Laws.Devices
end

section
/-! PROOF. Transfers on their way (R199, R205, R210, R218, R223-R227, R260). -/

namespace Sys2Proof.Laws.Moving

open Machine
open Laws.Cycle (PortsTaken)
open Contexts (portTurn_free)
open HostAccess (vreadFirst_state)
open Packets (written_putRest written_putFirst taintBytes_clean taintLines_clean)
open Posting (Posted posted_pageRequest)

variable {s t u : State} {x y : Xfer}

/-! ### The one transfer of a state -/

theorem taken_todo (htodo : x.todo = none) : ({ x with todo := none } : Xfer) = x := by
  rw [← htodo]

section Alone

variable (hx : s.xfers = [x])
include hx

theorem xferOf_alone : xferOf s x.tid = some x := by
  rw [xferOf, hx, List.find?_cons_of_pos (by simp)]

theorem xfers_setXfer_alone (htid : y.tid = x.tid) : (setXfer y s).xfers = [y] := by
  rw [setXfer, hx]
  simp [htid]

theorem setXfer_self : setXfer x s = s := by
  have hmap : (s.xfers.map fun y => if y.tid = x.tid then x else y) = s.xfers := by
    rw [hx]
    simp
  rw [setXfer, hmap]

theorem withPorts_free {l : List PortReq} (again : Instr) (htodo : x.todo = none) (h : PortsFree s l) :
    ∃ u, PortsTaken s u ∧ u.xfers = [x] ∧ ∀ go, withPorts x l again s go = go x u := by
  obtain ⟨u, hturn, htaken⟩ := portTurn_free servedOwner h
  have hu : u.xfers = [x] := by rw [htaken.1, hx]
  refine ⟨u, htaken, hu, fun go => ?_⟩
  rw [withPorts, htodo, Option.getD_none, hturn]
  dsimp only
  rw [List.isEmpty_nil, if_pos rfl, taken_todo htodo, setXfer_self hu]

theorem withPorts_nil (again : Instr) (htodo : x.todo = none) (go : Xfer → State → State) : withPorts x [] again s go = go x s := by
  have hturn : portTurn servedOwner [] s = ([], s) := rfl
  rw [withPorts, htodo, Option.getD_none, hturn]
  dsimp only
  rw [List.isEmpty_nil, if_pos rfl, taken_todo htodo, setXfer_self hx]

end Alone

/-! ### Dispatch (R137, R210, R225) -/

section Dispatch

variable (hx : s.xfers = [x])
include hx

theorem execTransferDispatch_stays (h : x.state ≠ .waiting ∨ unitFull s (clusterOf x.core) = true) :
    exec (.transferDispatch x.tid) s = .next s := by
  show execTransferDispatch x.tid s = _
  rw [execTransferDispatch, xferOf_alone hx]
  exact congrArg Host.Outcome.next (if_pos (h.elim .inl fun h => .inr (.inr h)))

theorem execTransferDispatch_near (hwait : x.state = .waiting) (hmay : mayPerform s x = true) (hroom : unitFull s (clusterOf x.core) = false)
    (hkind : x.kind ∈ [XKind.rd, .rdSp, .rdm, .wr, .wrZ]) (hnear : isRemote (dva x.ereg) = false) :
    exec (.transferDispatch x.tid) s = .next (dispatchLocal x s) := by
  show execTransferDispatch x.tid s = _
  rw [execTransferDispatch, xferOf_alone hx]
  refine congrArg Host.Outcome.next ((if_neg ?_).trans ?_)
  · simp [hwait, hmay, hroom]
  · simp only [List.mem_cons, List.not_mem_nil, or_false] at hkind
    rcases hkind with hk | hk | hk | hk | hk <;> rw [hk, hnear] <;> rfl

theorem execTransferDispatch_sc {op : AtOp} (hwait : x.state = .waiting) (hroom : unitFull s (clusterOf x.core) = false) (hkind : x.kind = .sc op)
    (hnear : isRemote (dva x.ereg) = false) : exec (.transferDispatch x.tid) s
      = .next ((setXfer { x with state := .wheel } s).at (wheelCycle x.core (s.cycle + 1)) (.scOperationPerform x.tid)) := by
  show execTransferDispatch x.tid s = _
  rw [execTransferDispatch, xferOf_alone hx]
  refine congrArg Host.Outcome.next ((if_neg ?_).trans ?_)
  · simp [hwait, hroom, Xfer.isSc, hkind]
  · rw [hkind, hnear]
    rfl

end Dispatch

theorem wheelCycle_spec (core c : Nat) : c ≤ wheelCycle core c ∧ wheelCycle core c % 2048 = core % 2048 := by
  unfold wheelCycle
  rw [show Config.revolution = 2048 from rfl]
  omega

theorem landingOf_spec {l : List (Nat × Nat)} {r : Strand} (h : landingOf s x l = some (y, r)) :
    y.tid = x.tid ∧ y.kind = x.kind ∧ s.cycle < y.landAt := by
  unfold landingOf at h
  dsimp only at h
  split at h
  · cases h
    exact ⟨rfl, rfl, Nat.lt_of_succ_le (Nat.le_max_left ..)⟩
  · split at h
    · cases h
      exact ⟨rfl, rfl, Nat.lt_of_succ_le (Nat.le_max_left ..)⟩
    · split at h
      · cases h
      · cases h
        exact ⟨rfl, rfl, Nat.lt_of_succ_le (Nat.le_max_left ..)⟩

/-- A read or a write begins at its memory before it lands. -/
theorem beginAt_spec (hx : s.xfers = [x]) (htid : y.tid = x.tid) (hkind : y.kind ∈ [XKind.rd, .rdSp, .rdm, .wr, .wrZ])
    (hlater : s.cycle < y.landAt) :
    ∃ c, (beginAt y s).xfers = [{ y with state := .sent }] ∧ (beginAt y s).timers = s.timers ++ [(c, .transferLanding x.tid none)]
      ∧ s.cycle < c ∧ c ≤ y.landAt := by
  have hmove : (y.kind.loads || decide (y.kind = .wr ∨ y.kind = .wrZ)) = true := by
    simp only [List.mem_cons, List.not_mem_nil, or_false] at hkind
    rcases hkind with hk | hk | hk | hk | hk <;> rw [hk] <;> rfl
  have hmod := Nat.mod_lt (Config.landCycles s.free) (Nat.sub_pos_of_lt hlater)
  refine ⟨s.cycle + 1 + Config.landCycles s.free % (y.landAt - s.cycle), xfers_setXfer_alone hx htid, ?_, by omega, by omega⟩
  rw [beginAt, hmove, ← htid]
  rfl

theorem dispatchLocal_of_ok {l : List (Nat × Nat × Bool)} (h : translateAll (x.tr s x.kind.writes) (lineParts (dva x.ereg) x.deviceBytes) = .ok l) :
    dispatchLocal x s = match landingOf s x (l.map fun y => (y.1, y.2.1)) with
      | none => s
      | some (y, t) => beginAt y (s.setStrand x.sid t).tick1 := by
  rw [dispatchLocal, h] <;> rfl

theorem dispatchLocal_demand {p : Nat} (h : translateAll (x.tr s x.kind.writes) (lineParts (dva x.ereg) x.deviceBytes) = .error (.demand p)) :
    dispatchLocal x s = holdXfer x p x.kind.writes s.tick1 := by
  rw [dispatchLocal, h]

theorem xfers_posted (h : Posted s t) : t.xfers = s.xfers := by
  rw [h]
  rfl

theorem xfers_holdXfer (hx : s.xfers = [x]) (p : Nat) (wr : Bool) : (holdXfer x p wr s).xfers = [{ x with state := .held p, torn := none }] := by
  rw [holdXfer, xfers_posted (posted_pageRequest ..)]
  exact xfers_setXfer_alone hx rfl

/-! ### What a transfer's end leaves (R205) -/

section Ends

theorem landed_good (hst : x.status = 0) : landed x s
    = { s.setOwner x.core x.wid { s.owner x.core x.wid with lands := (s.owner x.core x.wid).lands ++ [(x.tick, s.cycle, x.bank)] } with
        xfers := s.xfers.filter fun y => y.tid ≠ x.tid } := by
  rw [landed]
  exact if_pos (.inl hst)

theorem finishXfer_quiet (hpost : x.post = false) : finishXfer x s = landed x s := by
  rw [finishXfer, hpost]
  rfl

theorem finishXfer_posts (hpost : x.post = true) (hroom : (s.owner x.core x.wid).fifo.length < Config.fifoDepth) :
    finishXfer x s = landed x (s.setOwner x.core x.wid
      { s.owner x.core x.wid with fifo := (s.owner x.core x.wid).fifo ++ [x.elem] }) := by
  unfold finishXfer
  dsimp only
  rw [hpost, if_neg (by decide), if_neg (Nat.not_le.2 hroom)]

end Ends

/-! ### What a transfer's way leaves alone -/

/-- Two states that differ at most in what a unit keeps of its translations. -/
def Filled (s t : State) : Prop := t = { s with tlb := t.tlb, free := t.free }

theorem Filled.of_eq {a : List TlbEntry} {b : Nat} (h : t = { s with tlb := a, free := b }) : Filled s t := by
  subst h
  rfl

theorem Filled.trans (h : Filled s t) (h' : Filled t u) : Filled s u := by
  rw [Filled, h] at h'
  exact .of_eq h'

theorem Filled.foldl {α : Type} {f : State → α → State} (hf : ∀ s a, Filled s (f s a)) (l : List α) (s : State) :
    Filled s (l.foldl f s) := by
  induction l generalizing s with
  | nil => exact .of_eq rfl
  | cons a l ih => exact (hf s a).trans (ih _)

theorem filled_tlbFill (clu cid va : Nat) (s : State) : Filled s (tlbFill clu cid va s) := by
  unfold tlbFill
  exact .of_eq rfl

theorem filled_fill (x : Xfer) (s : State) : Filled s (x.fill s) := by
  unfold Xfer.fill tlbFillAll
  exact (Filled.foldl (fun s p => filled_tlbFill _ _ (p * 65536) s) _ s).trans (.of_eq rfl)

/-- Two states that differ at most in what is counted of a strand, of its VD and of its weights. -/
def Counted (s t : State) : Prop :=
  t = { s with wm := t.wm, est := t.est, strands := t.strands, vds := t.vds } ∧ ∀ i, (t.strand i).replay = (s.strand i).replay

theorem Counted.trans (h : Counted s t) (h' : Counted t u) : Counted s u := by
  obtain ⟨heq, hrep⟩ := h
  obtain ⟨heq', hrep'⟩ := h'
  refine ⟨?_, fun i => (hrep' i).trans (hrep i)⟩
  rw [heq] at heq'
  generalize u.wm = a, u.est = b, u.strands = c, u.vds = d at heq'
  subst heq'
  rfl

theorem replay_setStrand {a : Strand} {sid : Nat} (h : a.replay = (s.strand sid).replay) (i : Nat) :
    ((s.setStrand sid a).strand i).replay = (s.strand i).replay := by
  rw [State.setStrand, State.strand, tget_tset]
  split
  next hi => rw [hi, h]
  next => rfl

theorem counted_chargeStrand (s : State) (sid pj : Nat) : Counted s (chargeStrand s sid pj) :=
  ⟨rfl, replay_setStrand (s := s) (a := { s.strand sid with energy := (s.strand sid).energy + pj }) rfl⟩

theorem counted_noteReads (sid va n : Nat) (s : State) : Counted s (noteReads sid va n s) :=
  ⟨rfl, replay_setStrand (s := s) (a := { s.strand sid with reads := _ }) rfl⟩

theorem counted_countRead (s : State) (cid va n : Nat) : Counted s (countRead s cid va n) := ⟨rfl, fun _ => rfl⟩

theorem deliver_of_no_replay (data : List Byte) (h : (s.strand x.sid).replay = 0) : deliver x data s = s := by
  rw [deliver]
  exact if_pos h

/-! ### Windows -/

theorem core_hideLines (x : Xfer) (c : Nat) (l : List Nat) (s : State) :
    (hideLines x c l s).core c = { s.core c with unseen := ((hideLines x c l s).core c).unseen } := by
  unfold hideLines
  rw [State.core, State.setCore, tget_tset_self]

/-- The bytes that data of a transfer goes to, by the owner whose window it lands in. -/
def placed (o : Owner) (g : Ag) (data : List (Byte × Bool)) : List (Nat × Byte × Bool) :=
  ((List.range data.length).zip data).map fun (i, b, p) => (winAt o (g.byteAt i).toNat, b, p)

theorem landWindow_eq (x : Xfer) (c w : Nat) (g : Ag) (data : List (Byte × Bool)) (s : State) :
    landWindow x c w g data s = { s with free := (landWindow x c w g data s).free, cores := (landWindow x c w g data s).cores } := rfl

theorem core_landWindow (x : Xfer) (c w : Nat) (g : Ag) (data : List (Byte × Bool)) (s : State) :
    ((landWindow x c w g data s).core c).win = cputs (s.core c).win ((placed (s.owner c w) g data).map fun (a, b, _) => (a, b))
      ∧ ((landWindow x c w g data s).core c).owners = (s.core c).owners := by
  unfold landWindow
  dsimp only
  rw [State.core, State.setCore, tget_tset_self, core_hideLines]
  exact ⟨rfl, rfl⟩

theorem owner_of_owners {c w : Nat} (h : (t.core c).owners = (s.core c).owners) : t.owner c w = s.owner c w := by
  rw [State.owner, CoreSt.owner, h]
  rfl

/-! ### Reads and writes of device memory, in two parts (R226) -/

section Parts

variable (hx : s.xfers = [x])
include hx

/-- A landing that needs no port. -/
theorem execTransferLanding_sent (hst : x.state = .sent) {k : Torn} (htorn : x.torn = some k)
    (hkind : x.kind ≠ .get) {again : List PortReq} (hw : x.wants none s = again) :
    exec (.transferLanding x.tid none) s = .next (withPorts x again (.transferLanding x.tid none) s fun x s => performRest x k s) := by
  show execTransferLanding x.tid none s = _
  unfold execTransferLanding
  dsimp only
  rw [xferOf_alone hx, ← hw]
  dsimp only
  rw [hst, htorn]
  split <;> simp_all

theorem execTransferLanding_begins (hst : x.state = .sent) (htodo : x.todo = none) (htorn : x.torn = none)
    (hkind : x.kind ≠ .get) (hnear : isRemote (dva x.ereg) = false) (hw : x.wants none s = []) :
    exec (.transferLanding x.tid none) s = .next (performLocal x s) := by
  have hgo : execTransferLanding x.tid none s = .next (withPorts x [] (.transferLanding x.tid none) s
      fun x s => if isRemote (dva x.ereg) then dispatchRemote x s else performLocal x s) := by
    unfold execTransferLanding
    dsimp only
    rw [xferOf_alone hx, ← hw]
    dsimp only
    rw [hst, htorn]
    split <;> simp_all
  show execTransferLanding x.tid none s = _
  rw [hgo, withPorts_nil hx _ htodo, hnear, if_neg Bool.false_ne_true]

theorem execTransferLanding_performed (hst : x.state = .performed) (hkind : x.isSc = false) :
    exec (.transferLanding x.tid none) s = .next (finishXfer x s) := by
  show execTransferLanding x.tid none s = _
  unfold execTransferLanding
  dsimp only
  rw [xferOf_alone hx]
  dsimp only
  rw [hst]
  unfold Xfer.isSc at hkind
  split <;> simp_all

end Parts

/-- The second part of a read or a write follows by its landing. -/
theorem secondPart_spec {k : Torn} (hu : u.xfers = [x]) (htid : y.tid = x.tid) : (secondPart y k u).mem = u.mem
    ∧ (secondPart y k u).xfers = [{ y with torn := some k }]
    ∧ (max y.landAt (u.cycle + 1), .transferLanding x.tid none) ∈ (secondPart y k u).timers := by
  have hf : (y.fill u).xfers = [x] ∧ (y.fill u).mem = u.mem := by
    rw [filled_fill y u, hu]
    exact ⟨rfl, rfl⟩
  obtain ⟨hxs, hmem⟩ := hf
  rw [← htid]
  exact ⟨hmem, xfers_setXfer_alone hxs htid, List.mem_append_right _ (.head _)⟩

theorem performLocal_load (hkind : x.kind.loads = true) : performLocal x s = readFirst x s := by
  unfold performLocal
  cases hk : x.kind <;> simp_all [XKind.loads]

theorem wants_load_first (hst : x.state = .sent) (htorn : x.torn = none) (hkind : x.kind.loads = true) : x.wants none s = [] := by
  unfold Xfer.wants
  rw [hst, htorn, hkind]
  rfl

theorem readFirst_of_ok {k : Torn} (h : vreadFirst (x.tr s false) s (dva x.ereg) x.deviceBytes = .ok (u, k)) :
    readFirst x s = secondPart x k u := by
  rw [readFirst, h]

theorem readRest_counted (x : Xfer) (k : Torn) (s : State) : ∃ t, Counted s t
    ∧ readRest x k s = landRead x (dva x.ereg) (getRest k s).1 (getRest k s).2 t :=
  ⟨_, ((counted_countRead ..).trans (counted_chargeStrand ..)).trans (counted_noteReads ..), rfl⟩

/-- What a read lands, of a strand that records no replay and with nobody to tell. -/
theorem landRead_quiet {b : List Byte} (hkind : x.kind = .rd) (hpost : x.post = false) (hst : x.status = 0)
    (hrep : (s.strand x.sid).replay = 0) :
    ∃ y : Xfer, y.tid = x.tid ∧ y.core = x.core ∧ y.wid = x.wid ∧ y.tick = x.tick ∧ y.bank = x.bank ∧ y.status = 0
      ∧ landRead x (dva x.ereg) b [] s = landed y (landWindow x x.core x.wid x.ag (b.map fun v => (v, false)) s) := by
  refine ⟨{ x with bytes := (b.map fun v => (v, false)).length }, rfl, rfl, rfl, rfl, rfl, hst, ?_⟩
  unfold landRead
  dsimp only
  rw [hkind, taintBytes_clean, if_neg (by decide), deliver_of_no_replay _ (by rw [landWindow_eq]; exact hrep),
    finishXfer_quiet (by exact hpost)]

theorem getRest_taken (k : Torn) (h : PortsTaken s u) : getRest k u = getRest k s := by
  rw [h.1]
  rfl

theorem performLocal_zeros (hkind : x.kind = .wrZ) : performLocal x s = writeFirst x s := by
  rw [performLocal, hkind]

theorem writeFirst_zeros {k : Torn} (hkind : x.kind = .wrZ)
    (h : vwriteFirst (x.tr { s with free := s.free + (x.ag.lines 0 x.ag.bytes).length } true)
      { s with free := s.free + (x.ag.lines 0 x.ag.bytes).length } (dva x.ereg) (List.replicate x.deviceBytes 0) [] = .ok (u, k)) :
    writeFirst x s = secondPart { x with src := List.replicate x.deviceBytes 0, srcPoison := [] } k u := by
  unfold writeFirst
  dsimp only
  rw [if_neg (by rw [hkind]; decide), taintLines_clean _ (fun y hy => by rw [List.eq_of_mem_replicate hy]), List.map_replicate, h]

theorem xfers_vwriteFirst {tr : Xlate} {va : Nat} {b : List Byte} {poison : List Nat} {k : Torn}
    (h : vwriteFirst tr s va b poison = .ok (u, k)) : u.xfers = s.xfers := by
  unfold vwriteFirst at h
  split at h
  · cases h
  · cases h
    rw [written_putFirst]

/-! ### Puts (R207, R223) -/

theorem targetOf_taken (h : PortsTaken s u) : targetOf u x = targetOf s x := by
  have ho : ∀ c w, u.owner c w = s.owner c w := fun c w => owner_of_owners (Contexts.owners_taken h c)
  have hst : ∀ i, u.strand i = s.strand i := fun i => by rw [h.1]; rfl
  unfold targetOf
  simp only [ho, hst]

/-- A put has written `put` into the window of a core, and its acknowledgement is on its way. -/
def afterPut (x : Xfer) (c n : Nat) (put : List (Nat × Byte × Bool)) (s : State) : State :=
  let h := hideLines x c (sall (put.map (·.1 / 64)) []) s
  let s' := { h.setCore c (winLand (h.core c) put) with free := h.free + x.lines.length }
  ((setXfer { x with state := .performed, bytes := n } s').at (s'.cycle + 1 + Config.landCycles s'.free)
    (.transferLanding x.tid none)).tick1

theorem performPut_eq {c w a : Nat} (hkind : x.kind = .put) (hrep : (s.strand x.sid).replay = 0) (ht : targetOf s x = .ok (c, w, a)) :
    ∃ n put, (∀ y ∈ put, (s.owner c w).winBase ≤ y.1) ∧ performPut x s = afterPut x c n put s := by
  refine ⟨(x.source s).length, ((List.range (x.source s).length).zip (x.source s)).map fun (i, b, p) => (winAt (s.owner c w) a + i, b, p),
    fun y hy => ?_, ?_⟩
  · obtain ⟨z, _, rfl⟩ := List.mem_map.1 hy
    exact Nat.le_trans (Nat.le_add_right ..) (Nat.le_add_right ..)
  · unfold performPut
    rw [ht]
    dsimp only
    have hmix : ∀ old src, mixTarget x.kind old src = src := fun old src => by rw [hkind, mixTarget] <;> nofun
    have hland : ∀ k l, putLand x.kind k l = winLand k l := fun k l => by rw [hkind, putLand] <;> nofun
    rw [deliver_of_no_replay _ (by exact hrep), hmix, hland]
    rfl

section AfterPut

variable (x : Xfer) (c n : Nat) (put : List (Nat × Byte × Bool)) (s : State)

/-- What a put has filled, before its acknowledgement. -/
def filledPut : State :=
  let h := hideLines x c (sall (put.map (·.1 / 64)) []) s
  { h.setCore c (winLand (h.core c) put) with free := h.free + x.lines.length }

theorem afterPut_eq : ∃ k f, afterPut x c n put s = { setXfer { x with state := .performed, bytes := n } (filledPut x c put s) with
    timers := s.timers ++ [(k, .transferLanding x.tid none)], free := f } := ⟨_, _, rfl⟩

theorem win_filledPut : ((filledPut x c put s).core c).win = cputs (s.core c).win (put.map fun (a, b, _) => (a, b)) := by
  have hcore : (filledPut x c put s).core c = winLand ((hideLines x c (sall (put.map (·.1 / 64)) []) s).core c) put := by
    unfold filledPut
    rw [State.core]
    exact tget_tset_self ..
  rw [hcore, core_hideLines]
  rfl

theorem kept_filledPut : (filledPut x c put s).mem = s.mem ∧ (filledPut x c put s).xfers = s.xfers := ⟨rfl, rfl⟩

end AfterPut

/-- A put performs at its target, and changes nothing below the window that it lands in. -/
theorem performPut_spec {c w a : Nat} (hx : s.xfers = [x]) (hkind : x.kind = .put) (hrep : (s.strand x.sid).replay = 0)
    (ht : targetOf s x = .ok (c, w, a)) :
    ∃ k, (k, .transferLanding x.tid none) ∈ (performPut x s).timers ∧ (performPut x s).xfers.map (·.state) = [.performed]
      ∧ (performPut x s).mem = s.mem
      ∧ ∀ i, i < (s.owner c w).winBase → cget ((performPut x s).core c).win i = cget (s.core c).win i := by
  obtain ⟨n, put, hput, heq⟩ := performPut_eq hkind hrep ht
  obtain ⟨k, f, hafter⟩ := afterPut_eq x c n put s
  obtain ⟨hmem, hxs⟩ := kept_filledPut x c put s
  have hwin := win_filledPut x c put s
  rw [heq, hafter]
  generalize filledPut x c put s = v at hmem hxs hwin
  refine ⟨k, List.mem_append_right _ (.head _), ?_, hmem, fun i hi => ?_⟩
  · dsimp only
    rw [xfers_setXfer_alone (y := { x with state := .performed, bytes := n }) (hxs.trans hx) rfl]
    rfl
  · refine (congrArg (cget · i) hwin).trans (cget_cputs_of_forall_ne (fun y hy => ?_) _)
    obtain ⟨z, hz, rfl⟩ := List.mem_map.1 hy
    exact Nat.ne_of_gt (Nat.lt_of_lt_of_le hi (hput z hz))

/-! ### SC operations (R140, R225) -/

theorem xfers_writeParts (poison : List Nat) (l : List (Nat × Nat × Bool)) (s : State) (i : Nat) (bs : List Byte) :
    (writeParts s poison i l bs).xfers = s.xfers := xfers_posted (Posting.posted_writeParts ..)

theorem xfers_atomicBy {tr : Bool → Xlate} {cid va : Nat} {op : AtOp} {a b old : W64} {p : Bool}
    (h : atomicBy tr s cid va op a b = .ok (old, p, u)) : u.xfers = s.xfers := by
  unfold atomicBy at h
  split at h
  · cases h
  · dsimp only at h
    split at h
    · cases h
      rfl
    · split at h
      · cases h
      next hw =>
        unfold vwriteBy at hw
        split at hw
        · cases hw
        · cases hw
          cases h
          exact xfers_writeParts ..

theorem kept_chargeStrand (s : State) (sid pj : Nat) : (chargeStrand s sid pj).xfers = s.xfers ∧ (chargeStrand s sid pj).mem = s.mem :=
  ⟨rfl, rfl⟩

theorem kept_setCore (s : State) (c : Nat) (k : CoreSt) : (s.setCore c k).xfers = s.xfers ∧ (s.setCore c k).mem = s.mem := ⟨rfl, rfl⟩

theorem performSc_spec {op : AtOp} {old : W64} {p : Bool} (hx : s.xfers = [x])
    (h : atomicBy (x.tr s) s x.cid (dva x.ereg) op x.opx x.opnew = .ok (old, p, u)) :
    ∃ k, (performSc x op s).mem = u.mem ∧ (k, .transferLanding x.tid none) ∈ (performSc x op s).timers
      ∧ (performSc x op s).xfers.map (fun y => (y.state, y.old)) = [(.performed, old)] := by
  have hu : u.xfers = [x] := (xfers_atomicBy h).trans hx
  have hf : (x.fill u).xfers = [x] ∧ (x.fill u).mem = u.mem := by
    rw [filled_fill x u]
    exact ⟨hu, rfl⟩
  obtain ⟨hxs, hmem⟩ := hf
  unfold performSc
  dsimp only
  rw [h]
  dsimp only
  obtain ⟨hcx, hcm⟩ := kept_chargeStrand (x.fill u) x.sid (rangeEnergyBy (x.tr s false) (dva x.ereg) 8)
  generalize chargeStrand (x.fill u) x.sid (rangeEnergyBy (x.tr s false) (dva x.ereg) 8) = v at hcx hcm
  generalize hw : v.setCore x.core _ = w
  have hwx : w.xfers = [x] := by rw [← hw, (kept_setCore ..).1, hcx, hxs]
  have hwm : w.mem = u.mem := by rw [← hw, (kept_setCore ..).2, hcm, hmem]
  refine ⟨_, hwm, List.mem_append_right _ (.head _), ?_⟩
  refine (congrArg (List.map fun y : Xfer => (y.state, y.old)) (xfers_setXfer_alone (y := { x with
    state := .performed, old := old, srcPoison := if p then [0] else [] }) hwx rfl)).trans rfl

theorem execScOperationPerform_turn {op : AtOp} (hx : s.xfers = [x]) (hst : x.state = .wheel) (hmay : mayPerform s x = true)
    (hfree : (s.core x.core).scUsed ≠ s.cycle) (hkind : x.kind = .sc op) :
    exec (.scOperationPerform x.tid) s = .next (performSc x op s) := by
  show execScOperationPerform x.tid s = _
  rw [execScOperationPerform, xferOf_alone hx]
  dsimp only
  rw [hkind]
  dsimp only
  rw [if_neg (not_not.2 hst), if_neg (by simp [hmay, hfree])]

theorem execScOperationPerform_waits {op : AtOp} (hx : s.xfers = [x]) (hst : x.state = .wheel) (hkind : x.kind = .sc op)
    (hwait : mayPerform s x = false ∨ (s.core x.core).scUsed = s.cycle) :
    exec (.scOperationPerform x.tid) s = .next (s.at (s.cycle + Config.revolution) (.scOperationPerform x.tid)) := by
  show execScOperationPerform x.tid s = _
  rw [execScOperationPerform, xferOf_alone hx]
  dsimp only
  rw [hkind]
  dsimp only
  rw [if_neg (not_not.2 hst), if_pos (hwait.imp (fun h => by simp [h]) id)]

/-! ### The report of a fault (R260) -/

theorem execAsyncFaultReport_failed (hx : s.xfers = [x]) (hst : x.state = .failed) :
    ∃ t e, exec (.asyncFaultReport x.tid) s = .next t ∧ t.xfers = [] ∧ (t.strand x.sid).faults = (s.strand x.sid).faults ++ [e]
      ∧ e.async = true ∧ e.cause = causeOf x.status ∧ e.addr = x.fva ∧ e.str = .s := by
  have hnone : s.xfers.filter (fun y => decide (y.tid ≠ x.tid)) = [] := by
    rw [hx]
    simp
  have hfaults : ∀ (e : FaultEv), ((s.addFault x.sid e).strand x.sid).faults = (s.strand x.sid).faults ++ [e] := fun e =>
    congrArg Strand.faults (tget_tset_self ..)
  suffices h : ∃ t e, exec (.asyncFaultReport x.tid) s = .next t ∧ t.xfers = s.xfers.filter (fun y => decide (y.tid ≠ x.tid))
      ∧ (t.strand x.sid).faults = ((s.addFault x.sid e).strand x.sid).faults ∧ e.async = true ∧ e.cause = causeOf x.status ∧ e.addr = x.fva
      ∧ e.str = .s by
    obtain ⟨t, e, hexec, hxs, hf, hrest⟩ := h
    exact ⟨t, e, hexec, hxs.trans hnone, hf.trans (hfaults e), hrest⟩
  have hexec := exec_asyncFaultReport x.tid s
  rw [hexec, execAsyncFaultReport, xferOf_alone hx]
  dsimp only
  rw [if_pos hst]
  split
  · exact ⟨_, _, rfl, rfl, rfl, rfl, rfl, rfl, rfl⟩
  · exact ⟨_, _, rfl, rfl, rfl, rfl, rfl, rfl, rfl⟩

/-! ### The obligation -/

theorem landed_alone (hx : s.xfers = [x]) (htid : y.tid = x.tid) (hst : y.status = 0) :
    (landed y s).xfers = [] ∧ (landed y s).mem = s.mem ∧ ((landed y s).core y.core).win = (s.core y.core).win
      ∧ ((landed y s).owner y.core y.wid).lands = (s.owner y.core y.wid).lands ++ [(y.tick, s.cycle, y.bank)]
      ∧ ((landed y s).owner y.core y.wid).fifo = (s.owner y.core y.wid).fifo := by
  have hnone : s.xfers.filter (fun y' => decide (y'.tid ≠ y.tid)) = [] := by
    rw [hx]
    simp [htid]
  rw [landed_good hst, hnone]
  generalize ho : ({ s.owner y.core y.wid with lands := _ } : Owner) = o
  have howner : (s.setOwner y.core y.wid o).owner y.core y.wid = o := State.owner_setOwner_self ..
  have hwin : ((s.setOwner y.core y.wid o).core y.core).win = (s.core y.core).win := by
    rw [State.setOwner, State.core, State.setCore, tget_tset_self]
    rfl
  refine ⟨rfl, rfl, hwin, (congrArg Owner.lands howner).trans ?_, (congrArg Owner.fifo howner).trans ?_⟩ <;> rw [← ho]

/-- Settles O55: each part of a transfer's way by its own lemma, of the one transfer of the state. -/
theorem transferSteps : Obligations.TransferSteps := by
  unfold Obligations.TransferSteps
  intro x s
  dsimp only
  intro hx
  refine ⟨fun hst => execTransferDispatch_stays hx (.inl hst), fun hfull => execTransferDispatch_stays hx (.inr hfull),
    fun l y u hturn hnear hl hland => ?_, fun l hturn hnear hl hland => ?_, fun op hwait hroom hkind hnear => ?_,
    fun p hturn hnear hl => ?_, fun u k hst htorn htodo hkind hnear hread => ?_,
    fun b k hst htorn htodo hports hkind hpost hgood hrep hrest => ?_, fun u k hst htorn htodo hkind hnear hwrite => ?_,
    fun k hst htorn htodo hkind hpost hgood => ?_, fun hst htodo hkind hpost hgood hroom => ?_,
    fun c w a hkind htodo hports hrep htarget => ?_, fun op old p u hst hmay hfree hkind hat => ?_,
    fun op hst hkind hwait => ?_, fun hst => execAsyncFaultReport_failed hx hst⟩
  · obtain ⟨hwait, hmay, hroom⟩ := hturn
    obtain ⟨hkind, hlocal⟩ := hnear
    obtain ⟨htid, hsame, hlater⟩ := landingOf_spec hland
    have hxs : ((s.setStrand x.sid u).tick1).xfers = [x] := hx
    obtain ⟨c, hsent, htimers, hafter, hbefore⟩ := beginAt_spec hxs htid (by rw [hsame]; exact hkind) hlater
    refine ⟨_, c, (execTransferDispatch_near hx hwait hmay hroom hkind hlocal).trans ?_, hsent, htid, htimers, hafter, hbefore⟩
    rw [dispatchLocal_of_ok hl, hland]
  · obtain ⟨hwait, hmay, hroom⟩ := hturn
    obtain ⟨hkind, hlocal⟩ := hnear
    rw [execTransferDispatch_near hx hwait hmay hroom hkind hlocal, dispatchLocal_of_ok hl, hland]
  · obtain ⟨hlater, hpos⟩ := wheelCycle_spec x.core (s.cycle + 1)
    exact ⟨_, _, execTransferDispatch_sc hx hwait hroom hkind hnear, xfers_setXfer_alone hx rfl, rfl, hlater, hpos⟩
  · obtain ⟨hwait, hmay, hroom⟩ := hturn
    obtain ⟨hkind, hlocal⟩ := hnear
    refine ⟨_, (execTransferDispatch_near hx hwait hmay hroom hkind hlocal).trans (congrArg Host.Outcome.next (dispatchLocal_demand hl)), ?_⟩
    exact xfers_holdXfer (s := s.tick1) hx p _
  · have hload : x.kind.loads = true ∧ x.kind ≠ .get := by
      simp only [List.mem_cons, List.not_mem_nil, or_false] at hkind
      rcases hkind with hk | hk | hk <;> rw [hk] <;> exact ⟨rfl, nofun⟩
    obtain ⟨hloads, hget⟩ := hload
    have hu := vreadFirst_state hread
    obtain ⟨hmem, hxs, htimers⟩ := secondPart_spec (k := k) (show u.xfers = [x] by rw [hu]; exact hx) (rfl : x.tid = x.tid)
    refine ⟨_, (execTransferLanding_begins hx hst htodo htorn hget hnear (wants_load_first hst htorn hloads)).trans
      (congrArg Host.Outcome.next ((performLocal_load hloads).trans (readFirst_of_ok hread))), hmem.trans (by rw [hu]), hxs, ?_⟩
    rw [show s.cycle = u.cycle by rw [hu]]
    exact htimers
  · have hw : x.wants none s = portsOf x s := by
      unfold Xfer.wants
      rw [hst, htorn, hkind]
      rfl
    obtain ⟨u, htaken, hxs, hgo⟩ := withPorts_free hx (.transferLanding x.tid none) htodo hports
    obtain ⟨v, ⟨hv, hvrep⟩, hread⟩ := readRest_counted x k u
    have huv : v.owner x.core x.wid = s.owner x.core x.wid := by
      rw [hv]
      exact owner_of_owners (Contexts.owners_taken htaken _)
    have hvwin : (v.core x.core).win = (s.core x.core).win := by
      rw [hv]
      exact (congrArg CoreSt.win (htaken.2 x.core) : (u.core x.core).win = _)
    obtain ⟨y, htid, hcore, hwid, htick, hbank, hyst, hland⟩ := landRead_quiet (s := v) (b := b) hkind hpost hgood
      (by rw [hvrep, htaken.1]; exact hrep)
    have hwin := core_landWindow x x.core x.wid x.ag (b.map fun v => (v, false))
    have hmoved : (landWindow x x.core x.wid x.ag (b.map fun v => (v, false)) v).xfers = [x]
        ∧ (landWindow x x.core x.wid x.ag (b.map fun v => (v, false)) v).mem = s.mem
        ∧ (landWindow x x.core x.wid x.ag (b.map fun v => (v, false)) v).cycle = s.cycle := by
      rw [landWindow_eq, hv]
      exact ⟨hxs, (Contexts.mem_taken htaken : u.mem = s.mem), (by rw [htaken.1] : u.cycle = s.cycle)⟩
    obtain ⟨hlxs, hlmem, hlcyc⟩ := hmoved
    obtain ⟨hnone, hmem, hkwin, hlands, _⟩ := landed_alone hlxs htid hyst
    rw [hcore, hwid] at hlands
    rw [hcore] at hkwin
    refine ⟨_, (execTransferLanding_sent hx hst htorn (by rw [hkind]; nofun) hw).trans (congrArg Host.Outcome.next ((hgo _).trans ?_)),
      hnone, hmem.trans hlmem, hkwin.trans ?_, hlands.trans ?_⟩
    · rw [performRest, hkind, hread, getRest_taken k htaken, hrest, hland]
      rfl
    · rw [(hwin v).1, (hwin s).1, hvwin, huv]
    · rw [owner_of_owners (hwin v).2, huv, htick, hbank, hlcyc]
  · have hw : x.wants none s = [] := by
      unfold Xfer.wants
      rw [hst, htorn, hkind]
      simp [XKind.loads, Xfer.isSc, portsOf, hkind]
    obtain ⟨hmem, hxs, htimers⟩ := secondPart_spec (k := k) (y := { x with src := List.replicate x.deviceBytes 0, srcPoison := [] })
      (show u.xfers = [x] from (xfers_vwriteFirst hwrite).trans hx) rfl
    refine ⟨_, (execTransferLanding_begins hx hst htodo htorn (by rw [hkind]; nofun) hnear hw).trans
      (congrArg Host.Outcome.next ((performLocal_zeros hkind).trans (writeFirst_zeros hkind hwrite))), hmem, ?_, ?_⟩
    · exact hxs
    · rw [← show u.cycle = s.cycle from
        HostAccess.vwriteFirst_cycle (s := { s with free := s.free + (x.ag.lines 0 x.ag.bytes).length }) hwrite]
      exact htimers
  · have hload : x.kind.loads = false ∧ x.kind ≠ .get := by
      rcases hkind with hk | hk <;> rw [hk] <;> exact ⟨rfl, nofun⟩
    obtain ⟨hloads, hget⟩ := hload
    have hw : x.wants none s = [] := by
      unfold Xfer.wants
      rw [hst, htorn, hloads]
      rfl
    have hrest : ∀ pj, (chargeStrand (putRest k x.src x.srcPoison s) x.sid pj).xfers = [x] := fun pj => by
      show (putRest k x.src x.srcPoison s).xfers = _
      rw [written_putRest]
      exact hx
    obtain ⟨hnone, hmem, _⟩ := landed_alone (y := { x with bytes := x.deviceBytes }) (hrest _) rfl hgood
    refine ⟨_, (execTransferLanding_sent hx hst htorn hget hw).trans (congrArg Host.Outcome.next ((withPorts_nil hx _ htodo _).trans ?_)),
      hnone, hmem⟩
    rw [performRest, hloads, if_neg Bool.false_ne_true, writeRest, finishXfer_quiet (by exact hpost)]
    rfl
  · have hsc : x.isSc = false := by rw [Xfer.isSc, hkind]
    obtain ⟨hnone, _, _, _, hfifo⟩ := landed_alone (y := x)
      (s := s.setOwner x.core x.wid { s.owner x.core x.wid with fifo := (s.owner x.core x.wid).fifo ++ [x.elem] }) hx rfl hgood
    refine ⟨_, (execTransferLanding_performed hx hst hsc).trans (congrArg Host.Outcome.next (finishXfer_posts hpost hroom)), hnone, hfifo.trans ?_⟩
    exact congrArg Owner.fifo (State.owner_setOwner_self ..)
  · obtain ⟨u, htaken, hxs, hgo⟩ := withPorts_free hx (.remotePutArrival x.tid) htodo hports
    obtain ⟨k, htimers, hstate, hmem, hwin⟩ := performPut_spec hxs hkind (by rw [htaken.1]; exact hrep) ((targetOf_taken htaken).trans htarget)
    have hexec : exec (.remotePutArrival x.tid) s = .next (performPut x u) := by
      show execRemotePutArrival x.tid s = _
      rw [execRemotePutArrival, xferOf_alone hx]
      exact congrArg Host.Outcome.next (hgo _)
    refine ⟨_, k, hexec, htimers, hstate, hmem.trans (Contexts.mem_taken htaken), fun i hi => ?_⟩
    rw [hwin i (by rw [owner_of_owners (Contexts.owners_taken htaken c)]; exact hi), htaken.2 c]
  · obtain ⟨k, hmem, htimers, hxs⟩ := performSc_spec hx hat
    exact ⟨_, k, execScOperationPerform_turn hx hst hmay hfree hkind, hmem, htimers, hxs⟩
  · exact ⟨_, execScOperationPerform_waits hx hst hkind hwait, rfl, rfl⟩

end Sys2Proof.Laws.Moving
end

section
/-! PROOF. Admission, staging, the start, and switches of the weave (R70, R134, R145, R155, R267). -/

namespace Sys2Proof.Laws.Starts

open Machine Laws.Posting Laws.Tracing Laws.Launches
open Metering (tget_tmap_proj)
open Packets (startPacket_spec mem_setRun sealedPage_countRead translate_aside)
open Queueing (headOf_of_head)
open Pages (tget_single)

variable {s t u : State} {fn q sid : Nat} {p : Packet}

/-! ### What a read of a container counts (R91, R97) -/

/-- Two states that differ at most in meters and accounts, with the same sealed pages. -/
def Reckoned (s t : State) : Prop := t = { s with wm := t.wm, est := t.est, enOper := t.enOper } ∧ sealedPage t = sealedPage s

theorem Reckoned.refl (s : State) : Reckoned s s := ⟨rfl, rfl⟩

theorem Reckoned.trans (h : Reckoned s t) (h' : Reckoned t u) : Reckoned s u := by
  obtain ⟨heq, hseal⟩ := h
  obtain ⟨heq', hseal'⟩ := h'
  refine ⟨?_, hseal'.trans hseal⟩
  rw [heq] at heq'
  generalize u.wm = a, u.est = b, u.enOper = c at heq'
  subst heq'
  rfl

theorem Reckoned.foldl {α : Type} {f : State → α → State} (hf : ∀ s a, Reckoned s (f s a)) (l : List α) (s : State) :
    Reckoned s (l.foldl f s) := by
  induction l generalizing s with
  | nil => exact .refl s
  | cons a l ih => exact (hf s a).trans (ih _)

theorem reckoned_countRead (s : State) (cid va n : Nat) : Reckoned s (countRead s cid va n) := ⟨rfl, sealedPage_countRead ..⟩

theorem reckoned_chargeOper (s : State) (pj : Nat) : Reckoned s (chargeOper s pj) := ⟨rfl, rfl⟩

theorem reckoned_countStage (cid va n had : Nat) (s : State) : Reckoned s (countStage cid va n had s) :=
  (reckoned_countRead ..).trans (reckoned_chargeOper ..)

theorem Reckoned.strands (h : Reckoned s t) : t.strands = s.strands := by rw [h.1]
theorem Reckoned.nextRun (h : Reckoned s t) : t.nextRun = s.nextRun := by rw [h.1]
theorem Reckoned.nextSid (h : Reckoned s t) : t.nextSid = s.nextSid := by rw [h.1]
theorem Reckoned.cycle (h : Reckoned s t) : t.cycle = s.cycle := by rw [h.1]

theorem Reckoned.translate (h : Reckoned s t) : Machine.translate t = Machine.translate s := by
  obtain ⟨heq, hseal⟩ := h
  generalize t.wm = a, t.est = b, t.enOper = c at heq
  subst heq
  exact translate_aside (runs := s.runs) (wheel := s.wheel) hseal

theorem readUpTo_congr (htr : Machine.translate t = Machine.translate s) (hmem : t.mem = s.mem) (hbad : t.memPoison = s.memPoison)
    (cid : Nat) (l : List (Nat × Nat)) : readUpTo t cid l = readUpTo s cid l := by
  have hread : pread t = pread s := by
    unfold pread
    rw [hmem]
  have hpoison : ppoison t = ppoison s := by
    unfold ppoison
    rw [hbad]
  induction l with
  | nil => rfl
  | cons x l ih =>
    obtain ⟨va, n⟩ := x
    rw [readUpTo, readUpTo, htr, hread, hpoison, ih]

/-! ### Admission (R145) -/

/-- A run has ended with a status and completes in the present cycle. -/
def EndsRun (s u : State) (id status : Nat) : Prop :=
  ∃ r ∈ u.runs, r.id = id ∧ r.status = status ∧ r.ended = true ∧ (s.cycle, .packetCompletion id) ∈ u.timers

theorem endsRun_startAndEnd (fn q : Nat) (p : Packet) (status : Nat) (s : State) :
    EndsRun s (startAndEnd fn q p status s) s.nextRun status := by
  obtain ⟨_, hruns, hcycle, _⟩ := startPacket_spec fn q p s
  have hmem : newRun fn q p s ∈ (startPacket fn q p s).1.runs := by
    rw [hruns]
    exact List.mem_append_right _ (List.mem_singleton_self _)
  rw [startAndEnd]
  generalize (startPacket fn q p s).1 = t at hcycle hmem ⊢
  refine ⟨{ newRun fn q p s with status := status, data := 0, ended := true }, mem_setRun hmem rfl, rfl, rfl, rfl, ?_⟩
  rw [← hcycle]
  exact List.mem_append_right _ (List.mem_singleton_self _)

theorem told_postRecord (r : FaultRec) (tick fn q : Nat) (s : State) : Told s (postRecord r tick fn q s) := by
  have hw : Told s (writeRecord r tick s).1 := (told_recordWrite r s).trans (told_trace ..)
  exact hw.trans (told_cqPost ..)

theorem endsRun_launchBug (fn q : Nat) (p : Packet) (b : Bug) (s : State) : EndsRun s (launchBug fn q p b s) s.nextRun b.status := by
  unfold launchBug
  dsimp only
  generalize hpost : postRecord _ 0 fn q s = a
  have ha : Told s a := hpost ▸ told_postRecord ..
  have hrun : a.nextRun = s.nextRun := by
    rw [ha]
    rfl
  have hends := endsRun_startAndEnd fn q p b.status a
  rw [hrun] at hends
  obtain ⟨r, hr, hid, hst, hend, htimer⟩ := hends
  exact ⟨r, hr, hid, hst, hend, by rw [← ha.cycle]; exact htimer⟩

/-- What the placer does with a LAUNCH whose container it has read (R145). -/
def examined (fn q : Nat) (p : Packet) (m : List Byte) (t : Strand) (s : State) : State :=
  if badShape s p t then startAndEnd fn q p 0x0203 s
  else if badResources s p m t then startAndEnd fn q p 0x0202 s
  else if p.pin ≠ 0xFF ∧ !pinnedFree s s.nextSid t p.stride p.pin then startAndEnd fn q p 0x0201 s
  else if 64 ≤ strandCount s fn then awaitAdmission fn q s
  else placeOrWait fn (effPrio (s.queue fn q)) (fun s => search s s.nextSid t p.stride p.pin) (admitLaunch fn q p) (awaitAdmission fn q) s

/-- The state with what the placer has read of a container counted. -/
def looked (fn : Nat) (l : List (Nat × Nat)) (s : State) : State := l.foldl (fun s x => countStage fn x.1 x.2 0 s) s

theorem reckoned_looked (fn : Nat) (l : List (Nat × Nat)) (s : State) : Reckoned s (looked fn l s) :=
  .foldl (fun _ _ => reckoned_countStage ..) l s

/-- A head that the placer may examine. -/
structure Examines (fn q : Nat) (p : Packet) (s : State) : Prop where
  head : (s.queue fn q).head = some p
  launch : p.type = 1
  works : takesWork s fn = true
  here : (s.vd fn).state ≠ .incoming
  going : (s.vd fn).state ≠ .stopped
  isOpen : (s.vd fn).closing = false

section Examines

variable (h : Examines fn q p s)
include h

theorem execAdmissionAttempt_of_examines : exec (.admissionAttempt fn q) s = .next (
    let f := fetchNeeds s fn (p.w1.toNat * 256) (argBase (s.vd fn) p)
    match f.1 with
    | .wait page => pageRequest fn page false (awaitAdmission fn q (looked fn f.2 s))
    | .bug b => launchBug fn q p b (looked fn f.2 s)
    | .needs m t => examined fn q p m (launchStrand (looked fn f.2 s) fn q p t) (looked fn f.2 s)) := by
  show execAdmissionAttempt fn q s = _
  unfold execAdmissionAttempt
  rw [headOf_of_head h.works h.head h.launch]
  dsimp only
  rw [if_neg (by simp [h.here, h.going, h.isOpen])]
  rfl

theorem execAdmissionAttempt_bug {b : Bug} (hb : (fetchNeeds s fn (p.w1.toNat * 256) (argBase (s.vd fn) p)).1 = .bug b) :
    ∃ u, exec (.admissionAttempt fn q) s = .next u ∧ EndsRun s u s.nextRun b.status := by
  have hl := reckoned_looked fn (fetchNeeds s fn (p.w1.toNat * 256) (argBase (s.vd fn) p)).2 s
  rw [execAdmissionAttempt_of_examines h]
  dsimp only
  rw [hb]
  have hends := endsRun_launchBug fn q p b (looked fn (fetchNeeds s fn (p.w1.toNat * 256) (argBase (s.vd fn) p)).2 s)
  rw [EndsRun, hl.nextRun, hl.cycle] at hends
  exact ⟨_, rfl, hends⟩

theorem execAdmissionAttempt_needs {m : List Byte} {x : Strand}
    (hn : (fetchNeeds s fn (p.w1.toNat * 256) (argBase (s.vd fn) p)).1 = .needs m x) :
    exec (.admissionAttempt fn q) s = .next (examined fn q p m
      (launchStrand (looked fn (fetchNeeds s fn (p.w1.toNat * 256) (argBase (s.vd fn) p)).2 s) fn q p x)
      (looked fn (fetchNeeds s fn (p.w1.toNat * 256) (argBase (s.vd fn) p)).2 s)) := by
  rw [execAdmissionAttempt_of_examines h]
  dsimp only
  rw [hn]

end Examines

section Examined

variable {m : List Byte} {x : Strand}

theorem endsRun_examined_shape (h : badShape s p x = true) : EndsRun s (examined fn q p m x s) s.nextRun 0x0203 := by
  rw [examined, if_pos h]
  exact endsRun_startAndEnd ..

theorem endsRun_examined_resources (hs : badShape s p x = false) (h : badResources s p m x = true) :
    EndsRun s (examined fn q p m x s) s.nextRun 0x0202 := by
  rw [examined, hs, if_neg Bool.false_ne_true, if_pos h]
  exact endsRun_startAndEnd ..

theorem endsRun_examined_pin (hs : badShape s p x = false) (hr : badResources s p m x = false) (hpin : p.pin ≠ 0xFF)
    (h : pinnedFree s s.nextSid x p.stride p.pin = false) : EndsRun s (examined fn q p m x s) s.nextRun 0x0201 := by
  rw [examined, hs, if_neg Bool.false_ne_true, hr, if_neg Bool.false_ne_true, h, if_pos ⟨hpin, rfl⟩]
  exact endsRun_startAndEnd ..

theorem examined_placed {pl : Placement} (hs : badShape s p x = false) (hr : badResources s p m x = false)
    (hpin : p.pin = 0xFF ∨ pinnedFree s s.nextSid x p.stride p.pin = true) (hroom : strandCount s fn < 64)
    (h : search s s.nextSid x p.stride p.pin = some pl) : examined fn q p m x s = admitLaunch fn q p pl s := by
  rw [examined, hs, if_neg Bool.false_ne_true, hr, if_neg Bool.false_ne_true, if_neg, if_neg (Nat.not_le.2 hroom), placeOrWait, h]
  rintro ⟨hne, hbad⟩
  rcases hpin with hpin | hpin
  · exact hne hpin
  · rw [hpin] at hbad
    exact Bool.false_ne_true hbad

end Examined

theorem kept_grantCore (s : State) (c : Nat) (x : Strand) (g : CoreGrant) (evicted : Bool) :
    (grantCore s c x g evicted).strands = s.strands ∧ (grantCore s c x g evicted).nextSid = s.nextSid := by
  unfold grantCore
  exact ⟨rfl, rfl⟩

theorem kept_granted (a : State) (c e w : Nat) (o : Owner) :
    ((chargeOper a.tick1 e).setOwner c w o).strands = a.strands ∧ ((chargeOper a.tick1 e).setOwner c w o).nextSid = a.nextSid := ⟨rfl, rfl⟩

theorem placeOwners_spec (sid : Nat) (pl : Placement) (evicted : Bool) (mk : Nat → CoreGrant → Owner) (s : State) :
    (placeOwners sid pl evicted mk s).strands = tset s.strands sid pl.strand
      ∧ (placeOwners sid pl evicted mk s).nextSid = s.nextSid := by
  unfold placeOwners
  refine ⟨(foldl_eq _ State.strands (fun s x => ?_) _ _).trans rfl, (foldl_eq _ State.nextSid (fun s x => ?_) _ _).trans rfl⟩
  · exact (kept_granted _ _ _ _ _).1.trans (kept_grantCore ..).1
  · exact (kept_granted _ _ _ _ _).2.trans (kept_grantCore ..).2

/-- What `grantsChanged` leaves of a strand. -/
theorem strand_grantsChanged {β : Type} (g : Strand → β) (hg : ∀ t : Strand, g { t with tried := false } = g t) (s : State) (i : Nat) :
    g ((grantsChanged s).strand i) = g (s.strand i) := tget_tmap_proj g (fun _ t => hg t) {} s.strands i

/-- What `startPacket` leaves to the placer. -/
def admitted (id sid : Nat) (s : State) : State :=
  { s with nextSid := sid + 1, plc := { s.plc with orders := s.plc.orders + 1 },
           runs := s.runs.map fun r => if r.id = id then { r with sid := sid } else r }

theorem admitLaunch_eq (fn q : Nat) (p : Packet) (pl : Placement) (s : State) : ∃ mk k i, admitLaunch fn q p pl s
    = grantsChanged ((placeOwners s.nextSid { pl with strand := { pl.strand with run := (startPacket fn q p s).2, state := .staging } } false mk
        (admitted (startPacket fn q p s).2 s.nextSid (startPacket fn q p s).1)).tick1.at k i) := ⟨_, _, _, rfl⟩

/-- A LAUNCH that is admitted: its strand stands where the placer's search has found a place, and is to be staged. -/
theorem admitLaunch_spec {β : Type} (g : Strand → β) (hg : ∀ t : Strand, g { t with tried := false } = g t) (fn q : Nat) (p : Packet)
    (pl : Placement) (s : State) : g ((admitLaunch fn q p pl s).strand s.nextSid)
        = g { pl.strand with run := (startPacket fn q p s).2, state := .staging }
      ∧ (admitLaunch fn q p pl s).nextSid = s.nextSid + 1 := by
  obtain ⟨mk, k, i, heq⟩ := admitLaunch_eq fn q p pl s
  rw [heq]
  have hnext : (admitted (startPacket fn q p s).2 s.nextSid (startPacket fn q p s).1).nextSid = s.nextSid + 1 := rfl
  generalize ({ pl.strand with run := (startPacket fn q p s).2, state := .staging } : Strand) = x
  generalize admitted (startPacket fn q p s).2 s.nextSid (startPacket fn q p s).1 = b at hnext
  obtain ⟨hstrands, hsid⟩ := placeOwners_spec s.nextSid { pl with strand := x } false mk b
  generalize placeOwners s.nextSid { pl with strand := x } false mk b = d at hstrands hsid
  refine ⟨(strand_grantsChanged g hg _ _).trans (congrArg g ?_), hsid.trans hnext⟩
  show tget {} d.strands s.nextSid = x
  rw [hstrands]
  exact tget_tset_self ..

section Reckoned

variable {v : State} {m : List Byte} {x : Strand} (h : Reckoned s v)
include h

theorem Reckoned.endsRun {status : Nat} (he : EndsRun v u v.nextRun status) : EndsRun s u s.nextRun status := by
  rw [EndsRun, h.nextRun, h.cycle] at he
  exact he

theorem Reckoned.admits {pl : Placement} (hs : badShape v p x = false) (hr : badResources v p m x = false)
    (hpin : p.pin = 0xFF ∨ pinnedFree v s.nextSid x p.stride p.pin = true) (hroom : strandCount s fn < 64)
    (hfound : search v s.nextSid x p.stride p.pin = some pl) :
    ((examined fn q p m x v).strand s.nextSid).state = .staging ∧ ((examined fn q p m x v).strand s.nextSid).x0 = pl.strand.x0
      ∧ ((examined fn q p m x v).strand s.nextSid).y0 = pl.strand.y0 ∧ ((examined fn q p m x v).strand s.nextSid).stride = pl.strand.stride
      ∧ ((examined fn q p m x v).strand s.nextSid).phase = pl.strand.phase ∧ (examined fn q p m x v).nextSid = s.nextSid + 1 := by
  rw [← h.nextSid] at hpin hfound ⊢
  have hcount : strandCount v fn < 64 := by
    rw [strandCount, h.strands]
    exact hroom
  rw [examined_placed hs hr hpin hcount hfound]
  exact ⟨(admitLaunch_spec Strand.state (fun _ => rfl) fn q p pl v).1, (admitLaunch_spec Strand.x0 (fun _ => rfl) fn q p pl v).1,
    (admitLaunch_spec Strand.y0 (fun _ => rfl) fn q p pl v).1, (admitLaunch_spec Strand.stride (fun _ => rfl) fn q p pl v).1,
    (admitLaunch_spec Strand.phase (fun _ => rfl) fn q p pl v).1, (admitLaunch_spec Strand.state (fun _ => rfl) fn q p pl v).2⟩

end Reckoned

/-! ### Staging (R195, R267, R297) -/

/-- A strand as staging has read of its container. -/
def withStaged (t : Strand) (got : Nat × Nat) : Strand := { t with staged := got }

theorem overDecl_withStaged (t : Strand) (got : Nat × Nat) : overDecl (withStaged t got) = overDecl t := rfl

/-- A scan of an image depends on what the container declares alone. -/
theorem scanFrom_congr {d e : Strand} (h : overDecl d = overDecl e) (st : StreamId) (n : Nat) (img : List Parcel) (fuel : Nat) :
    scanFrom st d n img fuel = scanFrom st e n img fuel := by
  induction fuel with
  | zero => rfl
  | succ fuel ih =>
    funext off bs ended acc
    rw [scanFrom, scanFrom, h, ih]

theorem containerBug_withStaged (t : Strand) (got : Nat × Nat) (va : Nat) (raw : List Byte) (whole : Bool) :
    containerBug (withStaged t got) va raw whole = containerBug t va raw whole := by
  have himage : imageBug (withStaged t got) va raw = imageBug t va raw := by
    funext i
    unfold imageBug imageCase
    dsimp only
    rw [scanFrom_congr (overDecl_withStaged t got)]
  have hdata : dataBug (withStaged t got) va raw = dataBug t va raw := rfl
  unfold containerBug
  rw [himage, hdata]

theorem stagedNeeds_of_plain {raw args : List Byte} {x : Strand} (h : x.g5 = false) : stagedNeeds raw args x = x := by
  have hnone : ∀ m, (if x.g5 then gidReg m else none) = none := fun m => if_neg (by rw [h]; exact Bool.false_ne_true)
  unfold stagedNeeds
  dsimp only
  rw [hnone]

theorem beginRecording_of_no_replay (args : List Byte) (h : (s.strand sid).replay = 0) : beginRecording sid args s = s := by
  unfold beginRecording
  dsimp only
  split
  next h1 => exact absurd (h.symm.trans h1) (by decide)
  next h2 => exact absurd (h.symm.trans h2) (by decide)
  next => rfl

/-- What staging does with a container that it has read whole, of a strand without replay and without a fabric group. -/
noncomputable def stagedWhole (sid : Nat) (raw args : List Byte) (x : Strand) (s : State) : State :=
  match containerBug x x.cont raw true with
  | some b => stageFail sid b s
  | none => grantsChanged (armStart sid (x.slots.foldl (loadOwner raw args) (s.setStrand sid x)))

/-- The length that the head of a container tells. -/
def wholeLength (s : State) (x : Strand) : Nat :=
  if (readUpTo s x.cid (lineParts x.cont headBytes)).1.length < 16 then 16
  else max 16 (field (readUpTo s x.cid (lineParts x.cont headBytes)).1 8 8)

theorem strand_setStrand_self (s : State) (i : Nat) (x : Strand) : (s.setStrand i x).strand i = x := tget_tset_self ..

theorem strand_loadOwners (raw args : List Byte) (l : List (Nat × Nat)) (s : State) (i : Nat) :
    (l.foldl (loadOwner raw args) s).strand i = s.strand i :=
  foldl_eq (loadOwner raw args) (State.strand · i) (fun _ _ => rfl) l s

theorem execContainerStaging_whole {raw args : List Byte} (hst : (s.strand sid).state = .staging) (hrep : (s.strand sid).replay = 0)
    (hg5 : (s.strand sid).g5 = false)
    (hraw : readUpTo s (s.strand sid).cid (lineParts (s.strand sid).cont (wholeLength s (s.strand sid))) = (raw, none))
    (hargs : readUpTo s (s.strand sid).cid (lineParts (s.strand sid).args 512) = (args, none)) :
    ∃ v got, Reckoned s v ∧ exec (.containerStaging sid) s = .next (stagedWhole sid raw args (withStaged (s.strand sid) got)
      (chainOn (withStaged (s.strand sid) got) raw (v.setStrand sid (withStaged (s.strand sid) got)))) := by
  rw [exec_containerStaging]
  unfold execContainerStaging
  dsimp only
  rw [if_neg (not_not.2 hst), if_neg (show ¬ (s.strand sid).replay = 2 by rw [hrep]; decide)]
  generalize hgot : (max (s.strand sid).staged.1 _, max (s.strand sid).staged.2 _) = got
  generalize hv : countStage (s.strand sid).cid (s.strand sid).args 512 (s.strand sid).staged.2 _ = v
  have hsv : Reckoned s v := hv ▸ (reckoned_countStage ..).trans (reckoned_countStage ..)
  refine ⟨v, got, hsv, congrArg Host.Outcome.next ?_⟩
  have hread := readUpTo_congr (s := s) (t := v.setStrand sid (withStaged (s.strand sid) got)) hsv.translate
    (by rw [hsv.1]; rfl) (by rw [hsv.1]; rfl)
  have h1 := (hread (s.strand sid).cid (lineParts (s.strand sid).cont (wholeLength s (s.strand sid)))).trans hraw
  have h2 := (hread (s.strand sid).cid (lineParts (s.strand sid).args 512)).trans hargs
  unfold wholeLength at h1
  generalize hx : withStaged (s.strand sid) got = x at h1 h2 ⊢
  have hcont : x.cont = (s.strand sid).cont := by rw [← hx, withStaged]
  have hg5x : x.g5 = false := by rw [← hx, withStaged, hg5]
  have hrepx : x.replay = 0 := by rw [← hx, withStaged, hrep]
  unfold withStaged at hx
  rw [hx, h1, h2, stagedWhole, hcont]
  dsimp only
  rw [if_pos Option.isNone_none, Option.isNone_none, if_neg (show ¬ (none : Option VaErr).isSome = true from nofun)]
  cases containerBug x (s.strand sid).cont raw true with
  | some b => rfl
  | none =>
    rw [stagedNeeds_of_plain hg5x, hg5x, beginRecording_of_no_replay]
    · rfl
    · rw [strand_loadOwners, strand_setStrand_self, hrepx]

/-! ### Arming the start (R155) -/

/-- Two states of which the second differs in what the cores have been told: their owners stand. -/
def Notified (s t : State) : Prop := t = { s with cores := t.cores } ∧ ∀ c, (t.core c).owners = (s.core c).owners

theorem Notified.refl (s : State) : Notified s s := ⟨rfl, fun _ => rfl⟩

theorem Notified.trans (h : Notified s t) (h' : Notified t u) : Notified s u := by
  refine ⟨?_, fun c => (h'.2 c).trans (h.2 c)⟩
  rw [h'.1, h.1]

theorem Notified.foldl {α : Type} {f : State → α → State} (hf : ∀ s a, Notified s (f s a)) (l : List α) (s : State) :
    Notified s (l.foldl f s) := by
  induction l generalizing s with
  | nil => exact .refl s
  | cons a l ih => exact (hf s a).trans (ih _)

theorem Notified.owner (h : Notified s t) (c w : Nat) : t.owner c w = s.owner c w := by
  rw [State.owner, CoreSt.owner, h.2 c]
  rfl

theorem Notified.strands (h : Notified s t) : t.strands = s.strands := by rw [h.1]
theorem Notified.timers (h : Notified s t) : t.timers = s.timers := by rw [h.1]
theorem Notified.cycle (h : Notified s t) : t.cycle = s.cycle := by rw [h.1]

theorem notified_setCore (s : State) (c : Nat) (k : CoreSt) (h : k.owners = (s.core c).owners) : Notified s (s.setCore c k) := by
  refine ⟨rfl, fun d => ?_⟩
  rw [State.core_setCore]
  split
  next hd => rw [hd, h]
  next => rfl

theorem notified_cobEvent (c : Nat) (kind : CobKind) (wid sid : Nat) (args : List W64) (s : State) :
    Notified s (cobEvent c kind wid sid args s) := notified_setCore _ _ _ rfl

theorem notified_armEvents (sid start : Nat) (x : Strand) (c w i : Nat) (s : State) : Notified s (armEvents sid start x c w i s) := by
  unfold armEvents
  dsimp only
  refine Notified.trans ?_ (notified_cobEvent ..)
  split
  · exact (notified_cobEvent ..).trans (notified_cobEvent ..)
  · exact notified_cobEvent ..

theorem owners_askSwitch (r : SwReq) (k : CoreSt) : (askSwitch r k).owners = k.owners := by
  unfold askSwitch loadSwitch
  split <;> rfl

theorem notified_pendClass (sid stride phase cyc : Nat) (s : State) : Notified s (pendClass sid stride phase cyc s) := by
  unfold pendClass
  exact .foldl (fun s (x : Nat × Nat) => notified_setCore s x.1 _ (owners_askSwitch ..)) _ s

/-- A strand whose start is armed. -/
def armed (s : State) (x : Strand) : Strand :=
  { x with
    start := nextIn x.stride x.phase (s.cycle + s.plc.lead.toNat)
    ready := Config.coresReady s.free && x.cores.all fun c => !(s.core c).locked
    state := if x.state = .resuming then .resuming else .armed }

/-- Arming the start: the cores are told of it, and the decision waits for its cycle. -/
theorem armStart_spec (sid : Nat) (s : State) : ∃ a, Notified (s.tick1.setStrand sid (armed s (s.strand sid))) a
    ∧ armStart sid s = a.at ((armed s (s.strand sid)).start - 320) (.startDecision sid) := by
  unfold armStart
  dsimp only
  exact ⟨_, (Notified.foldl (fun s x => notified_armEvents ..) _ _).trans (notified_pendClass ..), rfl⟩

/-- A container that passes every check arms the start. -/
theorem armStart_grantsChanged (sid : Nat) (s : State) :
    ((grantsChanged (armStart sid s)).strand sid).state = (armed s (s.strand sid)).state
      ∧ ((grantsChanged (armStart sid s)).strand sid).start = (armed s (s.strand sid)).start
      ∧ ((armed s (s.strand sid)).start - 320, .startDecision sid) ∈ (grantsChanged (armStart sid s)).timers
      ∧ ∀ c w, (grantsChanged (armStart sid s)).owner c w = s.owner c w := by
  obtain ⟨a, ha, heq⟩ := armStart_spec sid s
  have hstrand : (a.at ((armed s (s.strand sid)).start - 320) (.startDecision sid)).strand sid = armed s (s.strand sid) := by
    show tget {} a.strands sid = _
    rw [ha.strands]
    exact tget_tset_self ..
  rw [heq]
  refine ⟨(strand_grantsChanged Strand.state (fun _ => rfl) _ _).trans (congrArg Strand.state hstrand),
    (strand_grantsChanged Strand.start (fun _ => rfl) _ _).trans (congrArg Strand.start hstrand), ?_, fun c w => ha.owner c w⟩
  exact List.mem_append_right _ (List.mem_singleton_self _)

theorem loadOwner_spec (raw args : List Byte) (c w : Nat) (s : State) :
    (loadOwner raw args s (c, w)).cycle = s.cycle ∧ (loadOwner raw args s (c, w)).plc = s.plc
      ∧ ((loadOwner raw args s (c, w)).owner c w).sc.img = imagesOf raw .c ∧ ((loadOwner raw args s (c, w)).owner c w).ss.img = imagesOf raw .s := by
  unfold loadOwner
  dsimp only
  refine ⟨rfl, rfl, ?_, ?_⟩ <;> rw [State.owner, State.core_setCore, if_pos rfl, CoreSt.owner_setOwner, if_pos rfl]

/-! ### A LAUNCH that ends before its start (R267) -/

theorem tfind_tmap_tdel {α : Type} (l : Tab α) (i : Nat) (f : Nat → α → α) : tfind (tmap (tdel l i) f) i = none := by
  induction l with
  | nil => rfl
  | cons x l ih =>
    obtain ⟨j, v⟩ := x
    unfold tdel at ih ⊢
    by_cases h : j = i
    · rw [List.filter_cons_of_neg (by simpa using h), ih]
    · rw [List.filter_cons_of_pos (by simpa using h), tmap, List.map_cons, tfind, if_neg (Ne.symm h)]
      exact ih

/-- A strand whose run stands is gone, and its run has ended with a status. -/
def Gone (s u : State) (sid id status : Nat) : Prop := tfind u.strands sid = none ∧ EndsRun s u id status

theorem gone_finishLaunch {status : Nat} (h : ∃ r ∈ s.runs, r.id = (s.strand sid).run) :
    Gone s (finishLaunch sid status s) sid (s.strand sid).run status := by
  obtain ⟨_, hruns, hstrands, htimer⟩ := finishLaunch_spec sid status s
  obtain ⟨r, hr, hid⟩ := h
  refine ⟨by rw [hstrands, tfind_tmap_tdel], endedRun (s.strand sid) status r, ?_, ?_⟩
  · rw [hruns]
    exact List.mem_map_of_mem hr
  · rw [endedRun, if_pos hid]
    exact ⟨hid, rfl, rfl, htimer⟩

theorem gone_stageFail (b : Bug) (h : ∃ r ∈ s.runs, r.id = (s.strand sid).run) :
    Gone s (stageFail sid b s) sid (s.strand sid).run b.status := by
  unfold stageFail
  dsimp only
  generalize hpost : postRecord _ _ _ _ s = a
  have ha : Told s a := hpost ▸ told_postRecord ..
  have hb : Rearranged a (freeAll sid a) := rearranged_freeEach ..
  have hrun : ((freeAll sid a).strand sid).run = (s.strand sid).run := by rw [hb.run, ha.strand]
  have hgone := gone_finishLaunch (s := freeAll sid a) (sid := sid) (status := b.status) (by rw [hrun, hb.runs, ha.runs]; exact h)
  rw [hrun] at hgone
  obtain ⟨hnone, r, hr, hid, hst, hend, htimer⟩ := hgone
  exact ⟨hnone, r, hr, hid, hst, hend, by rw [← ha.cycle, ← hb.cycle]; exact htimer⟩

/-! ### The start (R122, R155) -/

section Start

variable (hst : (s.strand sid).state = .armed)
include hst

theorem execStartDecision_starts (h : (s.strand sid).start ≤ s.cycle + 1) : exec (.startDecision sid) s = .next (startStrand sid s) := by
  show execStartDecision sid s = _
  unfold execStartDecision
  dsimp only
  rw [if_neg (by simp [hst]), if_pos h]

theorem execStartDecision_waits (h : s.cycle + 1 < (s.strand sid).start) (hready : (s.strand sid).ready = true)
    (hcores : ∀ c ∈ (s.strand sid).cores, (s.core c).locked = false) :
    exec (.startDecision sid) s = .next (s.at ((s.strand sid).start - 1) (.startDecision sid)) := by
  show execStartDecision sid s = _
  unfold execStartDecision
  dsimp only
  rw [if_neg (by simp [hst]), if_neg (Nat.not_le.2 h), if_pos]
  rw [hready, Bool.true_and, List.all_eq_true]
  exact fun c hc => by rw [hcores c hc]; rfl

theorem execStartDecision_slips (h : s.cycle + 1 < (s.strand sid).start)
    (hbad : (s.strand sid).ready = false ∨ ∃ c ∈ (s.strand sid).cores, (s.core c).locked = true) :
    exec (.startDecision sid) s = .next (startSlip sid s) := by
  show execStartDecision sid s = _
  unfold execStartDecision
  dsimp only
  rw [if_neg (by simp [hst]), if_neg (Nat.not_le.2 h), if_neg]
  rw [Bool.and_eq_true, List.all_eq_true]
  rintro ⟨hready, hall⟩
  rcases hbad with hbad | ⟨c, hc, hlocked⟩
  · rw [hbad] at hready
    exact Bool.false_ne_true hready
  · have hc' := hall c hc
    rw [hlocked] at hc'
    exact Bool.false_ne_true hc'

/-- A start: the strand runs, and its lease begins. -/
theorem startStrand_spec (hpark : (s.strand sid).parkFlag = false) : ((startStrand sid s).strand sid).state = .running
    ∧ ((startStrand sid s).strand sid).leaseEnd = s.ref + leaseNs s := by
  unfold startStrand
  dsimp only
  rw [hpark, hst, if_neg Bool.false_ne_true, if_pos (decide_eq_true rfl)]
  cases (s.vd (s.strand sid).cid).polNext with
  | none =>
    rw [(told_traceRec ..).strand]
    exact ⟨congrArg Strand.state (tget_tset_self ..), congrArg Strand.leaseEnd (tget_tset_self ..)⟩
  | some policy =>
    rw [(told_traceRec ..).strand]
    exact ⟨congrArg Strand.state (tget_tset_self ..), congrArg Strand.leaseEnd (tget_tset_self ..)⟩

end Start

theorem gone_startSlip (h : ∃ r ∈ s.runs, r.id = (s.strand sid).run) : Gone s (startSlip sid s) sid (s.strand sid).run 0x0303 := by
  unfold startSlip
  dsimp only
  generalize hc : ({ cancelPending sid s with plc := _ } : State) = a
  have ha : a.strands = s.strands ∧ a.runs = s.runs ∧ a.cycle = s.cycle := by
    subst hc
    unfold cancelPending
    refine ⟨foldl_eq _ State.strands (fun _ _ => ?_) _ _, foldl_eq _ State.runs (fun _ _ => ?_) _ _, foldl_eq _ State.cycle (fun _ _ => ?_) _ _⟩ <;> rfl
  obtain ⟨hstrands, hruns, hcycle⟩ := ha
  have hstrand : a.strand sid = s.strand sid := by
    rw [State.strand, hstrands]
    rfl
  have hgone := gone_stageFail (s := a) (sid := sid) { status := 0x0303 } (by rw [hstrand, hruns]; exact h)
  rw [hstrand] at hgone
  obtain ⟨hnone, r, hr, hid, hst, hend, htimer⟩ := hgone
  exact ⟨hnone, r, hr, hid, hst, hend, hcycle ▸ htimer⟩

/-! ### Switches of the weave (R134) -/

theorem loadSwitch_nil {k : CoreSt} (h : k.swQueue = []) : loadSwitch k = { k with swPend := false } := by
  unfold loadSwitch
  split
  · rfl
  next hc => rw [h] at hc; cases hc

theorem loadSwitch_cons {k : CoreSt} {r : SwReq} {l : List SwReq} (h : k.swQueue = r :: l) :
    loadSwitch k = { k with ptable := r.table k.table, swc := r.cyc, swPend := true } := by
  unfold loadSwitch
  split
  next hc => rw [h] at hc; cases hc
  next hc =>
    rw [h] at hc
    cases hc
    rfl

/-- The table that a switch makes active: an entry of a weave id without an owner is empty. -/
def activeTable (owners : Tab Owner) (k : CoreSt) : Tab Nat :=
  (((k.swQueue.drop 1).takeWhile fun r => decide (r.cyc ≤ k.swc)).foldl (fun t r => r.table t) k.ptable).map fun (j, v) =>
    (j, if v = 0 || (tfind owners (v - 1)).isSome then v else 0)

/-- A core after a switch, before the next one asked for is pending. -/
def switched (owners : Tab Owner) (k : CoreSt) : CoreSt :=
  { k with table := activeTable owners k, owners := owners
           cob := { k.cob with recs := k.cob.recs.map fun (w, r) => (w, { r with dirty := false, restored := none }) }
           swQueue := (k.swQueue.drop 1).dropWhile fun r => decide (r.cyc ≤ k.swc) }

/-- What a switch tells Cobbler. -/
def switchDone : Completion := { kind := 4, wid := 0, status := 0, seq := 0, detail := 0 }

theorem cores_syncWids (c : Nat) (sids : List Nat) (s : State) : (syncWids c sids s).cores = s.cores := by
  unfold syncWids
  refine foldl_eq _ State.cores (fun s sid => ?_) sids s
  dsimp only
  split <;> rfl

/-- The owners of a core once Cobbler's pending records have changed them. -/
def switchOwners (s : State) (c : Nat) : Tab Owner :=
  let k := s.core c
  let gone := (k.cob.recs.filter fun (_, r) => r.dirty && !r.attr.getLsbD 0).map (·.1)
  (k.cob.recs.filter fun (_, r) => r.dirty && r.attr.getLsbD 0).foldl (fun os (w, r) => tset os w (ownerOf s c w r))
    (k.owners.filter fun (w, _) => !gone.contains w)

theorem switchOwners_of_no_record {c : Nat} (h : (s.core c).cob.recs = []) : switchOwners s c = (s.core c).owners := by
  unfold switchOwners
  dsimp only
  rw [h]
  exact List.filter_eq_self.2 fun _ _ => rfl

/-- A switch that is pending: the core's table, owners and records are those named, and Cobbler is told. -/
theorem execWeaveSwitch_pending {c : Nat} (h : (s.core c).swPend = true) : ∃ sids, exec (.weaveSwitch c) s
    = .next (syncWids c sids (postCompletion c switchDone (s.setCore c (loadSwitch (switched (switchOwners s c) (s.core c)))))) := by
  rw [exec_weaveSwitch]
  unfold execWeaveSwitch
  dsimp only
  rw [h, if_neg (show ¬ (!true) = true from nofun)]
  exact ⟨_, rfl⟩

theorem core_postCompletion (c : Nat) (x : Completion) (s : State) : ∃ b, (postCompletion c x s).core c = { s.core c with cob := b }
    ∧ b.compl = (s.cob c).compl ++ [x] := by
  unfold postCompletion
  dsimp only
  rw [State.setCob, State.core_setCore, if_pos rfl]
  exact ⟨_, rfl, rfl⟩

theorem core_switched (s : State) (c : Nat) (sids : List Nat) (k : CoreSt) :
    ∃ b, (syncWids c sids (postCompletion c switchDone (s.setCore c k))).core c = { k with cob := b } ∧ b.compl = k.cob.compl ++ [switchDone] := by
  obtain ⟨b, hcore, hcompl⟩ := core_postCompletion c switchDone (s.setCore c k)
  rw [State.cob, State.core_setCore, if_pos rfl] at hcompl
  rw [State.core_setCore, if_pos rfl] at hcore
  refine ⟨b, ?_, hcompl⟩
  rw [State.core, cores_syncWids]
  exact hcore

theorem execWeaveSwitch_queue {c : Nat} {a b : SwReq} (h : (s.core c).swPend = true) (hq : (s.core c).swQueue = [a, b])
    (hlater : (s.core c).swc < b.cyc) : ∃ u, exec (.weaveSwitch c) s = .next u ∧ (u.core c).swPend = true ∧ (u.core c).swc = b.cyc
      ∧ (u.core c).swQueue = [b] ∧ (u.core c).ptable = b.table (u.core c).table := by
  obtain ⟨sids, hexec⟩ := execWeaveSwitch_pending h
  have hnext : (switched (switchOwners s c) (s.core c)).swQueue = [b] := by
    rw [switched, hq]
    simp [hlater]
  obtain ⟨cob, hcore, _⟩ := core_switched s c sids (loadSwitch (switched (switchOwners s c) (s.core c)))
  rw [loadSwitch_cons hnext] at hcore hexec
  refine ⟨_, hexec, ?_⟩
  rw [hcore]
  exact ⟨rfl, rfl, hnext, rfl⟩

theorem activeTable_last {k : CoreSt} (hq : k.swQueue.length ≤ 1) (hv : ∀ x ∈ k.ptable, x.2 = 0 ∨ tfind k.owners (x.2 - 1) ≠ none) :
    activeTable k.owners k = k.ptable := by
  have hdrop : k.swQueue.drop 1 = [] := List.drop_eq_nil_of_le hq
  rw [activeTable, hdrop, List.takeWhile_nil, List.foldl_nil]
  refine (List.map_congr_left fun x hx => ?_).trans (List.map_id _)
  obtain ⟨j, v⟩ := x
  rcases hv _ hx with h0 | hsome
  · simp_all
  · simp [Option.isSome_iff_ne_none.2 hsome]

theorem execWeaveSwitch_last {c : Nat} (h : (s.core c).swPend = true) (hq : (s.core c).swQueue.length ≤ 1) (hrecs : (s.core c).cob.recs = [])
    (hv : ∀ x ∈ (s.core c).ptable, x.2 = 0 ∨ tfind (s.core c).owners (x.2 - 1) ≠ none) :
    ∃ u, exec (.weaveSwitch c) s = .next u ∧ (u.core c).table = (s.core c).ptable ∧ (u.core c).swPend = false
      ∧ (u.core c).owners = (s.core c).owners ∧ (u.cob c).compl = (s.cob c).compl ++ [switchDone] := by
  obtain ⟨sids, hexec⟩ := execWeaveSwitch_pending h
  have hnone : (switched (switchOwners s c) (s.core c)).swQueue = [] := by
    rw [switched, List.drop_eq_nil_of_le hq]
    rfl
  obtain ⟨cob, hcore, hcompl⟩ := core_switched s c sids (loadSwitch (switched (switchOwners s c) (s.core c)))
  rw [loadSwitch_nil hnone] at hcore hcompl hexec
  have howners := switchOwners_of_no_record hrecs
  refine ⟨_, hexec, ?_⟩
  rw [State.cob, hcore]
  refine ⟨?_, rfl, howners, hcompl⟩
  show activeTable (switchOwners s c) (s.core c) = _
  rw [howners]
  exact activeTable_last hq hv

/-! ### Re-phasing (R151) -/

/-- The second state leaves a strand its class. -/
def SameClass (sid : Nat) (s t : State) : Prop :=
  (t.strand sid).stride = (s.strand sid).stride ∧ (t.strand sid).phase = (s.strand sid).phase ∧ (t.strand sid).lanes = (s.strand sid).lanes
    ∧ (t.strand sid).rephase = (s.strand sid).rephase

theorem SameClass.trans (h : SameClass sid s t) (h' : SameClass sid t u) : SameClass sid s u := by
  obtain ⟨h1, h2, h3, h4⟩ := h
  obtain ⟨h1', h2', h3', h4'⟩ := h'
  exact ⟨h1'.trans h1, h2'.trans h2, h3'.trans h3, h4'.trans h4⟩

theorem SameClass.foldl {α : Type} {f : State → α → State} (hf : ∀ s a, SameClass sid s (f s a)) (l : List α) (s : State) :
    SameClass sid s (l.foldl f s) := by
  induction l generalizing s with
  | nil => exact ⟨rfl, rfl, rfl, rfl⟩
  | cons a l ih => exact (hf s a).trans (ih _)

theorem sameClass_of_strands (h : t.strands = s.strands) : SameClass sid s t := by
  unfold SameClass State.strand
  rw [h]
  exact ⟨rfl, rfl, rfl, rfl⟩

/-- Only what is left of a strand's HBM channels changes. -/
theorem sameClass_setFree (s : State) (sid : Nat) (l : Tab Nat) : SameClass sid s (s.setStrand sid { s.strand sid with hbmFree := l }) := by
  unfold SameClass
  rw [strand_setStrand_self]
  exact ⟨rfl, rfl, rfl, rfl⟩

theorem sameClass_repassStrand (sid : Nat) (was new : Nat × Nat) (c : Nat) (s : State) : SameClass sid s (repassStrand sid was new c s) := by
  unfold repassStrand
  dsimp only
  refine (sameClass_setFree s sid _).trans (.foldl (fun s x => ?_) _ _)
  refine (sameClass_setFree s sid (hbmRepass was new c (s.strand sid).hbmFree x.pass).1).trans ?_
  split
  · exact sameClass_of_strands rfl
  · exact sameClass_of_strands rfl

theorem execRephaseSwitch_spec {r : Rephase} (h : (s.strand sid).rephase = some r) : ∃ u, exec (.rephaseSwitch sid) s = .next u
    ∧ (u.strand sid).stride = r.stride ∧ (u.strand sid).phase = r.phase ∧ (u.strand sid).lanes = r.lanes ∧ (u.strand sid).rephase = none := by
  rw [exec_rephaseSwitch]
  unfold execRephaseSwitch
  dsimp only
  rw [h]
  dsimp only
  generalize hx : ({ s.strand sid with stride := r.stride, phase := r.phase, lanes := r.lanes, hbmP := r.hbmP, rephase := none } : Strand) = x
  have hclass := sameClass_repassStrand sid ((s.strand sid).stride * (s.strand sid).hbmrate, (s.strand sid).hbmP)
    (r.stride * (s.strand sid).hbmrate, r.hbmP) (s.setStrand sid x).cycle (s.setStrand sid x)
  generalize repassStrand sid _ _ _ (s.setStrand sid x) = v at hclass
  have htold := (told_traceEvent sid 4 (s.strand sid).stride (s.strand sid).phase v).strand sid
  unfold SameClass at hclass
  rw [strand_setStrand_self] at hclass
  obtain ⟨h1, h2, h3, h4⟩ := hclass
  subst hx
  refine ⟨_, rfl, ?_, ?_, ?_, ?_⟩
  · rw [strand_grantsChanged Strand.stride (fun _ => rfl), htold, h1]
  · rw [strand_grantsChanged Strand.phase (fun _ => rfl), htold, h2]
  · rw [strand_grantsChanged Strand.lanes (fun _ => rfl), htold, h3]
  · rw [strand_grantsChanged Strand.rephase (fun _ => rfl), htold, h4]

/-! ### The obligation -/

theorem chainOn_staging (sid : Nat) (raw : List Byte) (x : Strand) {v : State} (h : Reckoned s v) :
    (chainOn x raw (v.setStrand sid x)).strand sid = x ∧ (chainOn x raw (v.setStrand sid x)).cycle = s.cycle
      ∧ (chainOn x raw (v.setStrand sid x)).plc = s.plc ∧ (chainOn x raw (v.setStrand sid x)).runs = s.runs := by
  refine ⟨strand_setStrand_self v sid x, h.cycle, ?_, ?_⟩
  · show v.plc = s.plc
    rw [h.1]
  · show v.runs = s.runs
    rw [h.1]

/-- A container that passes: the strand is armed, and its owner has the images. -/
theorem stagedWhole_armed {raw args : List Byte} {x : Strand} {c w : Nat} (hst : x.state = .staging) (hslots : x.slots = [(c, w)])
    (hok : containerBug x x.cont raw true = none) :
    ((stagedWhole sid raw args x s).strand sid).state = .armed
      ∧ ((stagedWhole sid raw args x s).strand sid).start = nextIn x.stride x.phase (s.cycle + s.plc.lead.toNat)
      ∧ (nextIn x.stride x.phase (s.cycle + s.plc.lead.toNat) - 320, .startDecision sid) ∈ (stagedWhole sid raw args x s).timers
      ∧ ((stagedWhole sid raw args x s).owner c w).sc.img = imagesOf raw .c
      ∧ ((stagedWhole sid raw args x s).owner c w).ss.img = imagesOf raw .s := by
  unfold stagedWhole
  rw [hok, hslots]
  dsimp only
  rw [List.foldl_cons, List.foldl_nil]
  obtain ⟨hcycle, hplc, hc, hs⟩ := loadOwner_spec raw args c w (s.setStrand sid x)
  have hx : (loadOwner raw args (s.setStrand sid x) (c, w)).strand sid = x := strand_setStrand_self s sid x
  generalize loadOwner raw args (s.setStrand sid x) (c, w) = v at hcycle hplc hc hs hx
  obtain ⟨hstate, hstart, htimer, howner⟩ := armStart_grantsChanged sid v
  have hstarts : (armed v (v.strand sid)).start = nextIn x.stride x.phase (s.cycle + s.plc.lead.toNat) := by
    rw [hx, armed, hcycle, hplc]
    rfl
  rw [howner, ← hstarts]
  refine ⟨hstate.trans ?_, hstart, htimer, hc, hs⟩
  rw [hx, armed, hst]
  rfl

theorem stagedWhole_bad {raw args : List Byte} {x : Strand} {b : Bug} (hb : containerBug x x.cont raw true = some b) :
    stagedWhole sid raw args x s = stageFail sid b s := by
  rw [stagedWhole, hb]

/-- Settles O52: each of the placer's answers, the staging, the start and the switches by its own lemma. -/
theorem strandStarts : Obligations.StrandStarts := by
  unfold Obligations.StrandStarts
  intro fn q sid p s
  dsimp only
  refine ⟨fun b hopen hb => ?_, fun m t0 hopen hn => ?_, fun c w raw args hst hrep hg5 hslots hraw hargs => ?_,
    fun hst hdue hpark => ⟨_, execStartDecision_starts hst hdue, startStrand_spec hst hpark⟩,
    fun hst hlater hready hcores => execStartDecision_waits hst hlater hready hcores,
    fun hst hlater hbad hrun => ⟨_, execStartDecision_slips hst hlater hbad, gone_startSlip hrun⟩,
    fun c a b hpend hq hlater => execWeaveSwitch_queue hpend hq hlater,
    fun c hpend hq hrecs hv => execWeaveSwitch_last hpend hq hrecs hv, fun c hpend => ?_, fun r hr => execRephaseSwitch_spec hr⟩
  · obtain ⟨hhead, htype, hworks, hhere, hgoing, hclosing⟩ := hopen
    exact execAdmissionAttempt_bug ⟨hhead, htype, hworks, hhere, hgoing, hclosing⟩ hb
  · obtain ⟨hhead, htype, hworks, hhere, hgoing, hclosing⟩ := hopen
    have hexec := execAdmissionAttempt_needs ⟨hhead, htype, hworks, hhere, hgoing, hclosing⟩ hn
    have hl := reckoned_looked fn (fetchNeeds s fn (p.w1.toNat * 256) (argBase (s.vd fn) p)).2 s
    exact ⟨fun hb => ⟨_, hexec, hl.endsRun (endsRun_examined_shape hb)⟩, fun hs hb => ⟨_, hexec, hl.endsRun (endsRun_examined_resources hs hb)⟩,
      fun hs hr hpin hb => ⟨_, hexec, hl.endsRun (endsRun_examined_pin hs hr hpin (by rw [hl.nextSid]; exact hb))⟩,
      fun pl hs hr hpin hroom hfound => ⟨_, hexec, hl.admits hs hr hpin hroom hfound⟩⟩
  · obtain ⟨v, got, hsv, hexec⟩ := execContainerStaging_whole hst hrep hg5 hraw hargs
    have hbug := containerBug_withStaged (s.strand sid) got (s.strand sid).cont raw true
    have hfrom := chainOn_staging sid raw (withStaged (s.strand sid) got) hsv
    generalize chainOn (withStaged (s.strand sid) got) raw (v.setStrand sid (withStaged (s.strand sid) got)) = d at hexec hfrom
    obtain ⟨hstrand, hcycle, hplc, hruns⟩ := hfrom
    refine ⟨fun hok => ?_, fun b hb hrun => ?_⟩
    · obtain ⟨hstate, hstart, htimer, hc, hs⟩ := stagedWhole_armed (sid := sid) (args := args) (s := d) (x := withStaged (s.strand sid) got)
        hst hslots (hbug.trans hok)
      rw [hcycle, hplc] at hstart htimer
      refine ⟨_, _, hexec, hstate, hstart, htimer, ?_, hc, hs⟩
      rw [hstart]
      exact Nat.sub_add_eq_max .. |>.trans (Nat.max_comm ..)
    · rw [stagedWhole_bad (hbug.trans hb)] at hexec
      obtain ⟨hnone, r, hr, hid, hend⟩ := gone_stageFail (s := d) (sid := sid) b (by rw [hruns, hstrand]; exact hrun)
      rw [hstrand, hcycle] at hend
      rw [hstrand] at hid
      exact ⟨_, hexec, hnone, r, hr, hid, hend⟩
  · rw [exec_weaveSwitch]
    unfold execWeaveSwitch
    dsimp only
    rw [hpend]
    rfl

end Sys2Proof.Laws.Starts
end

section
/-! PROOF. Live migration and post-copy (R102, R123-R127). -/

namespace Sys2Proof.Laws.Migrating

open Machine Laws.Posting Laws.Launches
open Peers (Sends sends_emit sends_sendPayloads)
open Pages (vd_of_vds vd_setVd_self vds_msix)
open Functions (not_mem_sdel meterEvent_of_no_meter)
open Issuing (mem_sins mem_sall)
open Parts (cget_csets)
open Results (cget_czero)

variable {s t u v : State} {cid page : Nat}

/-! ### Requests (R45, R123) -/

/-- The second state has asked peers for something: their requests wait, with the time-outs of those that they wait for. -/
structure Asks (s t : State) : Prop where
  frame : t = { s with klk := t.klk, nsTimers := t.nsTimers, agenda := t.agenda, out := t.out, est := t.est, enOper := t.enOper }
  reqs : ∀ r ∈ s.klk.reqs, r ∈ t.klk.reqs
  timers : ∀ x ∈ s.nsTimers, x ∈ t.nsTimers

theorem Asks.refl (s : State) : Asks s s := ⟨rfl, fun _ h => h, fun _ h => h⟩

theorem Asks.trans (h : Asks s t) (h' : Asks t u) : Asks s u := by
  refine ⟨?_, fun r hr => h'.reqs r (h.reqs r hr), fun x hx => h'.timers x (h.timers x hx)⟩
  rw [h'.frame, h.frame]

theorem Asks.vds (h : Asks s t) : t.vds = s.vds := by rw [h.frame]
theorem Asks.plc (h : Asks s t) : t.plc = s.plc := by rw [h.frame]
theorem Asks.dirty (h : Asks s t) : t.dirty = s.dirty := by rw [h.frame]

theorem asks_of_sends (h : Sends s t) : Asks s t := by
  obtain ⟨heq, _⟩ := h
  refine ⟨?_, fun r hr => ?_, fun x hx => ?_⟩ <;> rw [heq]
  · exact hr
  · exact hx

theorem sends_emitRequest (r : RemoteReq) (s : State) : Sends s (emitRequest r s) := by
  unfold emitRequest
  split
  · exact (sends_emit ..).trans (sends_sendPayloads ..)
  · exact (sends_emit ..).trans (sends_sendPayloads ..)

/-- A request waits for its answer as soon as it is made, and nothing else of the device changes. -/
theorem asks_sendRequest (dst scid tcid cls va : Nat) (op : PeerOp) (why : RemoteFor) (s : State) :
    Asks s (sendRequest dst scid tcid cls va op why s) ∧ ∃ r ∈ (sendRequest dst scid tcid cls va op why s).klk.reqs, r.why = why := by
  unfold sendRequest
  dsimp only
  generalize hreq : ({ rid := s.klk.nextRid, dst := dst, sent := _, req := _, why := why } : RemoteReq) = r
  have hwhy : r.why = why := by rw [← hreq]
  generalize hwait : ({ s with klk := { s.klk with reqs := s.klk.reqs ++ [r], nextRid := s.klk.nextRid + 1 } } : State).afterNs _ _ = a
  have ha : Asks s a ∧ r ∈ a.klk.reqs := by
    rw [← hwait]
    exact ⟨⟨rfl, fun _ h => List.mem_append_left _ h, fun _ h => List.mem_append_left _ h⟩, List.mem_append_right _ (.head _)⟩
  obtain ⟨hasks, hmem⟩ := ha
  split
  · exact ⟨hasks.trans ⟨rfl, fun _ h => h, fun _ h => h⟩, r, hmem, hwhy⟩
  · split
    · have hs := asks_of_sends (sends_emitRequest r a)
      exact ⟨hasks.trans hs, r, hs.reqs r hmem, hwhy⟩
    · exact ⟨hasks, r, hmem, hwhy⟩

theorem asks_sendPage (cid : Nat) (s : State) (page : Nat) (data : List Byte × List Nat) :
    Asks s (sendPage cid s page data) ∧ ∃ r ∈ (sendPage cid s page data).klk.reqs, r.why = .migPage cid page := by
  unfold sendPage
  dsimp only
  have hcharge : ∀ pj, Asks s (chargeOper s pj) := fun pj => ⟨rfl, fun _ h => h, fun _ h => h⟩
  exact (asks_sendRequest ..).imp_left fun h => (hcharge _).trans h

/-- Every page of a round has a request that waits. -/
theorem asks_sendPages (cid : Nat) (f : Nat × Nat → State → List Byte × List Nat) (l : List (Nat × Nat)) (s : State) :
    Asks s (l.foldl (fun s p => sendPage cid s p.1 (f p s)) s)
      ∧ ∀ p ∈ l, ∃ r ∈ (l.foldl (fun s p => sendPage cid s p.1 (f p s)) s).klk.reqs, r.why = .migPage cid p.1 := by
  induction l generalizing s with
  | nil => exact ⟨.refl s, fun _ h => nomatch h⟩
  | cons p l ih =>
    obtain ⟨hone, r, hr, hwhy⟩ := asks_sendPage cid s p.1 (f p s)
    obtain ⟨hrest, hall⟩ := ih (sendPage cid s p.1 (f p s))
    rw [List.foldl_cons]
    refine ⟨hone.trans hrest, fun y hy => ?_⟩
    rcases List.mem_cons.1 hy with rfl | hy
    · exact ⟨r, hrest.reqs r hr, hwhy⟩
    · exact hall y hy

/-! ### OP 1, OP 2 and OP 4 (R123, R124) -/

/-- Whether an operation of PLC_MIG is refused at once: the VD is not there, or not in the state that it needs. -/
theorem refused {p : Prop} (h : hasVd s cid = false ∨ p) : (!hasVd s cid) = true ∨ p := h.imp_left fun h => by rw [h]; rfl

theorem not_refused {p : Prop} (h : hasVd s cid = true) (hp : ¬ p) : ¬ ((!hasVd s cid) = true ∨ p) := by
  rintro (h' | h')
  · rw [h] at h'
    exact Bool.false_ne_true h'
  · exact hp h'

theorem leavesAt_congr (hmem : t.mem = s.mem) (hbad : t.memPoison = s.memPoison) (l : List Nat) (tab va : Nat) :
    leavesAt t l tab va = leavesAt s l tab va := by
  have hread : readEntry t = readEntry s := by
    unfold readEntry preadLe pread ppoison
    rw [hmem, hbad]
  have hlist : listedEntries t = listedEntries s := by
    unfold listedEntries
    rw [hmem]
  induction l generalizing tab va with
  | nil => rfl
  | cons lv l ih =>
    rw [leavesAt, leavesAt, hread, hlist]
    simp only [ih]

theorem pagesOf_congr (hmem : t.mem = s.mem) (hbad : t.memPoison = s.memPoison) (hroot : (t.vd cid).root = (s.vd cid).root) :
    pagesOf t cid = pagesOf s cid := by
  unfold pagesOf leavesOf
  rw [hroot, leavesAt_congr hmem hbad]

/-- Two states that differ at most in memory and in the translations held. -/
def Marked (s t : State) : Prop := t = { s with mem := t.mem, tlb := t.tlb }

theorem marked_setDt (cid : Nat) (on : Bool) (s : State) : Marked s (setDt cid on s) := by
  unfold setDt
  have hfold : ∀ (l : List Leaf) (s : State), Marked s (l.foldl (fun s l =>
      { s with mem := cset s.mem l.at_ (if on then cget s.mem l.at_ ||| 16 else cget s.mem l.at_ &&& 0xEF) }) s) := by
    intro l
    induction l with
    | nil => exact fun _ => rfl
    | cons x l ih =>
      intro s
      rw [List.foldl_cons, Marked, ih]
  rw [Marked, tlbDrop]
  dsimp only
  rw [hfold]

section Commands

variable (hcid : s.plc.migCid.toNat = cid)
include hcid

theorem execMigrationStart_refused (h : hasVd s cid = false ∨ (s.vd cid).state ≠ .active) :
    exec .migrationStart s = .next (migSay 2 s) := by
  show execMigrationStart s = _
  unfold execMigrationStart
  dsimp only
  rw [hcid, if_pos (refused h)]

theorem execMigrationStart_no_route (hvd : hasVd s cid = true) (hst : (s.vd cid).state = .active)
    (hr : migRoute s s.plc.migDev.toNat = false) : exec .migrationStart s = .next (migSay 4 s) := by
  have hr' : migRoute s (migTo s).1 = false := hr
  show execMigrationStart s = _
  unfold execMigrationStart
  dsimp only
  rw [hcid, if_neg (not_refused hvd (not_not.2 hst)), hr', if_pos (show (!false) = true from rfl)]

theorem execMigrationStart_denied (hvd : hasVd s cid = true) (hst : (s.vd cid).state = .active)
    (hr : migRoute s s.plc.migDev.toNat = true) (hok : destOk s = false) : exec .migrationStart s = .next (migSay 3 s.tick1) := by
  have hr' : migRoute s (migTo s).1 = true := hr
  show execMigrationStart s = _
  unfold execMigrationStart
  dsimp only
  rw [hcid, if_neg (not_refused hvd (not_not.2 hst)), hr', if_neg (show ¬ (!true) = true from nofun), hok,
    if_pos (show (!false) = true from rfl)]

/-- The state in which a migration has begun. -/
def begun (cid : Nat) (s : State) : State :=
  let a := setDt cid true s.tick1
  ({ a with dirty := sall ((pagesOf a cid).map fun p : Nat × Nat => p.2) a.dirty }).setVd cid { a.vd cid with state := .migOut, dest := migTo s }

theorem execMigrationStart_begins (hvd : hasVd s cid = true) (hst : (s.vd cid).state = .active)
    (hr : migRoute s s.plc.migDev.toNat = true) (hok : destOk s = true) :
    exec .migrationStart s = .next (migSay 1 (begun cid s)) := by
  have hr' : migRoute s (migTo s).1 = true := hr
  have hto : migTo (setDt cid true s.tick1) = migTo s := by
    rw [marked_setDt]
    rfl
  show execMigrationStart s = _
  unfold execMigrationStart
  dsimp only
  rw [hcid, if_neg (not_refused hvd (not_not.2 hst)), hr', if_neg (show ¬ (!true) = true from nofun), hok,
    if_neg (show ¬ (!true) = true from nofun), begun, ← hto]
  rfl

theorem execMigrationPrecopyRound_refused (h : hasVd s cid = false ∨ (s.vd cid).state ≠ .migOut ∨ (s.vd cid).suspended = true) :
    exec .migrationPrecopyRound s = .next (migSay 2 s) := by
  show execMigrationPrecopyRound s = _
  unfold execMigrationPrecopyRound
  dsimp only
  rw [hcid, if_pos (refused h)]

theorem execMigrationAbort_refused (h : hasVd s cid = false ∨ (s.vd cid).state ≠ .migOut ∨ (s.vd cid).suspended = true) :
    exec .migrationAbort s = .next (migSay 2 s) := by
  show execMigrationAbort s = _
  unfold execMigrationAbort
  dsimp only
  rw [hcid, if_pos (refused h)]

section Out

variable (hvd : hasVd s cid = true) (hst : (s.vd cid).state = .migOut) (hs : (s.vd cid).suspended = false)
include hvd hst hs

omit hcid in
theorem goesOut : ¬ ((!hasVd s cid) = true ∨ (s.vd cid).state ≠ .migOut ∨ (s.vd cid).suspended = true) :=
  not_refused hvd (by simp [hst, hs])

theorem execMigrationPrecopyRound_no_route (hr : migRoute s (s.vd cid).dest.1 = false) :
    exec .migrationPrecopyRound s = .next (migSay 4 s) := by
  show execMigrationPrecopyRound s = _
  unfold execMigrationPrecopyRound
  dsimp only
  rw [hcid, if_neg (goesOut hvd hst hs), hr, if_pos (show (!false) = true from rfl)]

theorem execMigrationPrecopyRound_sends (hr : migRoute s (s.vd cid).dest.1 = true) :
    exec .migrationPrecopyRound s = .next (if pagesSent (copyRound cid s) cid then
      { copyRound cid s with plc := { (copyRound cid s).plc with migBusy := true, migVd := cid } } else migSay 1 (copyRound cid s)) := by
  show execMigrationPrecopyRound s = _
  unfold execMigrationPrecopyRound
  dsimp only
  rw [hcid, if_neg (goesOut hvd hst hs), hr, if_neg (show ¬ (!true) = true from nofun)]

theorem execMigrationAbort_ends : ∃ t, exec .migrationAbort s = .next t ∧ (t.vd cid).state = .active ∧ t.plc.migSt = 1
    ∧ (s.plc.migVd = cid → t.plc.migBusy = false) := by
  have hmark := marked_setDt cid false (s.setVd cid { s.vd cid with state := .active })
  have hexec : exec .migrationAbort s = .next (
      let a := setDt cid false (s.setVd cid { s.vd cid with state := .active })
      if a.plc.migVd = cid then migDone 1 a else migSay 1 a) := by
    show execMigrationAbort s = _
    unfold execMigrationAbort
    dsimp only
    rw [hcid, if_neg (goesOut hvd hst hs)]
  rw [hexec]
  dsimp only
  generalize setDt cid false (s.setVd cid { s.vd cid with state := .active }) = a at hmark
  have hvda : a.vd cid = { s.vd cid with state := .active } := by
    rw [hmark]
    exact vd_setVd_self ..
  have hplc : a.plc = s.plc := by
    rw [hmark]
    rfl
  rw [hplc]
  split
  next hmine => exact ⟨_, rfl, congrArg Vd.state hvda, rfl, fun _ => rfl⟩
  next hother => exact ⟨_, rfl, congrArg Vd.state hvda, rfl, fun h => absurd h hother⟩

end Out

end Commands

theorem copyRound_spec (cid : Nat) (s : State) : (copyRound cid s).plc = { s.plc with migPages := bv 32 (dirtyPages s cid).length }
    ∧ (∀ p ∈ dirtyPages s cid, p.2 ∉ (copyRound cid s).dirty ∧ ∃ r ∈ (copyRound cid s).klk.reqs, r.why = .migPage cid p.1)
    ∧ (dirtyPages s cid = [] → (copyRound cid s).klk = s.klk) := by
  unfold copyRound
  dsimp only
  generalize hb : ({ s with dirty := _, plc := _ } : State) = b
  obtain ⟨hasks, hall⟩ := asks_sendPages cid (fun p s => pageAt s p.2) (dirtyPages s cid) b
  refine ⟨?_, fun p hp => ⟨?_, hall p hp⟩, fun hnone => ?_⟩
  · rw [hasks.plc, ← hb]
  · rw [hasks.dirty, ← hb]
    dsimp only
    rw [List.mem_filter]
    rintro ⟨_, hkeep⟩
    rw [Bool.not_eq_true', List.contains_eq_mem, decide_eq_false_iff_not] at hkeep
    exact hkeep (List.mem_map_of_mem hp)
  · rw [hnone, List.foldl_nil, ← hb]

theorem pagesSent_of_mem {r : RemoteReq} (hr : r ∈ s.klk.reqs) (hwhy : r.why = .migPage cid page) : pagesSent s cid = true := by
  unfold pagesSent
  refine List.any_eq_true.2 ⟨r, hr, ?_⟩
  rw [hwhy]
  exact decide_eq_true rfl

theorem begun_spec (cid : Nat) (s : State) : ((migSay 1 (begun cid s)).vd cid).state = .migOut
    ∧ ((migSay 1 (begun cid s)).vd cid).dest = migTo s ∧ (migSay 1 (begun cid s)).plc.migBusy = s.plc.migBusy
    ∧ ∀ p ∈ pagesOf (migSay 1 (begun cid s)) cid, p.2 ∈ (migSay 1 (begun cid s)).dirty := by
  have hmark := marked_setDt cid true s.tick1
  unfold begun
  generalize setDt cid true s.tick1 = a at hmark
  have hbusy : a.plc.migBusy = s.plc.migBusy := by
    rw [hmark]
    rfl
  dsimp only
  generalize hb : (({ a with dirty := sall ((pagesOf a cid).map fun p : Nat × Nat => p.2) a.dirty } : State).setVd cid _) = b
  have hvd : b.vd cid = { a.vd cid with state := .migOut, dest := migTo s } := by
    rw [← hb]
    exact vd_setVd_self ..
  have hpages : pagesOf (migSay 1 b) cid = pagesOf a cid := by
    refine pagesOf_congr (by rw [← hb]; rfl) (by rw [← hb]; rfl) ?_
    show (b.vd cid).root = _
    rw [hvd]
  refine ⟨congrArg Vd.state hvd, congrArg Vd.dest hvd, by rw [← hbusy, ← hb]; rfl, fun p hp => ?_⟩
  rw [hpages] at hp
  rw [← hb]
  exact mem_sall.2 (.inl (List.mem_map_of_mem hp))

/-! ### OP 3 (R125) -/

/-- The stop tries its next step in the next cycle. -/
def stopAgain (s : State) : State := (s.cancel .migrationStop).at (s.cycle + 1) .migrationStop

theorem mem_timers_stopAgain (s : State) : (s.cycle + 1, .migrationStop) ∈ (stopAgain s).timers :=
  List.mem_append_right _ (List.mem_singleton_self _)

theorem stopVd_of_not_stopping (h : stopping s = false) : stopVd s = s.plc.migCid.toNat := by
  rw [stopVd, h, if_neg Bool.false_ne_true]

theorem stopVd_of_stopping (h : stopping s = true) : stopVd s = s.plc.migVd := by
  rw [stopVd, h, if_pos rfl]

theorem execMigrationStop_refused (hcid : stopVd s = cid) (h : hasVd s cid = false ∨ (s.vd cid).state ≠ .migOut ∧ (s.vd cid).state ≠ .stopped) :
    exec .migrationStop s = .next (migSay 2 s) := by
  show execMigrationStop s = _
  unfold execMigrationStop
  dsimp only
  rw [hcid, if_pos (refused h)]

theorem execMigrationStop_begins (hcid : stopVd s = cid) (hvd : hasVd s cid = true) (hst : (s.vd cid).state = .migOut)
    (hidle : stopping s = false) (hok : (s.vd cid).dest = migTo s ∨ destOk s = true) :
    exec .migrationStop s = .next (stopAgain (beginStop cid s.tick1)) := by
  show execMigrationStop s = _
  unfold execMigrationStop
  dsimp only
  rw [hcid, if_neg (not_refused hvd (by simp [hst])), hidle, if_pos (show (!false) = true from rfl), if_neg]
  · rfl
  · rcases hok with h | h <;> simp [h]

/-- The VD that is stopped is suspended, and the stop goes on in the next cycle. -/
theorem begunStop_spec (cid : Nat) (s : State) : let t := stopAgain (beginStop cid s.tick1)
    (t.vd cid).suspended = true ∧ t.plc.migBusy = true ∧ t.plc.migVd = cid ∧ (t.vd cid).dest = migTo s
      ∧ (s.cycle + 1, .migrationStop) ∈ t.timers := by
  unfold beginStop
  dsimp only
  generalize hmark : (if (s.tick1.vd cid).dest = migTo s.tick1 then s.tick1 else _ : State) = a
  have ha : a.plc = s.plc ∧ a.cycle = s.cycle := by
    rw [← hmark]
    split <;> exact ⟨rfl, rfl⟩
  obtain ⟨hplc, hcycle⟩ := ha
  have hto : migTo a = migTo s := by
    unfold migTo
    rw [hplc]
  rw [← hto, ← hcycle]
  generalize hb : a.setVd cid { s.tick1.vd cid with suspended := true, dest := migTo a } = b
  have hvd : b.vd cid = { s.tick1.vd cid with suspended := true, dest := migTo a } := by
    rw [← hb]
    exact vd_setVd_self ..
  refine ⟨congrArg Vd.suspended hvd, rfl, rfl, congrArg Vd.dest hvd, ?_⟩
  rw [show a.cycle = b.cycle by rw [← hb]; rfl]
  exact mem_timers_stopAgain _

section Stopping

variable (hstop : stopping s = true) (hmine : s.plc.migVd = cid) (hvd : hasVd s cid = true)
include hstop hmine hvd

theorem execMigrationStop_stops (hst : (s.vd cid).state = .migOut) (hstrands : s.strands = []) (hruns : s.runs = [])
    (hmeters : s.wm.meters = []) :
    exec .migrationStop s = .next (stopAgain (s.setVd cid { s.vd cid with state := .stopped })) := by
  have hcid : stopVd s = cid := (stopVd_of_stopping hstop).trans hmine
  have hstill : stopStrands cid s = s := by
    rw [stopStrands, hstrands]
    rfl
  have hready : stopReady s cid = true := by
    rw [stopReady, hstrands, hruns, metersOf, hmeters]
    rfl
  have hoff : ∀ u : State, u.wm.meters = [] → handOff cid u = u := fun u hu => by
    unfold handOff metersOf
    dsimp only
    rw [hu, meterEvent_of_no_meter _ _ hu]
    rfl
  show execMigrationStop s = _
  unfold execMigrationStop
  dsimp only
  rw [hcid, if_neg (not_refused hvd (by simp [hst])), hstop, if_neg (show ¬ (!true) = true from nofun), if_pos (by rw [hst]; nofun),
    hstill, if_pos hready, hoff (s.setVd cid { s.vd cid with state := .stopped }) hmeters]
  rfl

section Stopped

variable (hst : (s.vd cid).state = .stopped) (hwaits : meterWaits s cid = false)
include hst hwaits

theorem execMigrationStop_stopped : exec .migrationStop s = .next (
    if s.plc.migLost || !migRoute s (s.vd cid).dest.1 then migDone 4 s
    else if !s.plc.migFinal then
      let s := sendFinal cid s
      if s.plc.migBusy then stopAgain s else s
    else if finalUnderWay s cid then stopAgain s
    else finalSent cid s) := by
  have hcid : stopVd s = cid := (stopVd_of_stopping hstop).trans hmine
  show execMigrationStop s = _
  unfold execMigrationStop
  dsimp only
  rw [hcid, if_neg (not_refused hvd (by simp [hst])), hstop, if_neg (show ¬ (!true) = true from nofun), if_neg (not_not.2 hst), hwaits,
    if_neg Bool.false_ne_true]
  rfl

theorem execMigrationStop_lost (h : s.plc.migLost = true ∨ migRoute s (s.vd cid).dest.1 = false) :
    exec .migrationStop s = .next (migDone 4 s) := by
  rw [execMigrationStop_stopped hstop hmine hvd hst hwaits, if_pos]
  rcases h with h | h <;> simp [h]

variable (hlost : s.plc.migLost = false) (hroute : migRoute s (s.vd cid).dest.1 = true)
include hlost hroute

theorem execMigrationStop_sends (hfinal : s.plc.migFinal = false) : exec .migrationStop s = .next (
    if (sendFinal cid s).plc.migBusy then stopAgain (sendFinal cid s) else sendFinal cid s) := by
  rw [execMigrationStop_stopped hstop hmine hvd hst hwaits, hlost, hroute, hfinal]
  rfl

theorem execMigrationStop_waits (hfinal : s.plc.migFinal = true) (hway : finalUnderWay s cid = true) :
    exec .migrationStop s = .next (stopAgain s) := by
  rw [execMigrationStop_stopped hstop hmine hvd hst hwaits, hlost, hroute, hfinal, hway]
  rfl

theorem execMigrationStop_sent (hfinal : s.plc.migFinal = true) (hway : finalUnderWay s cid = false) :
    exec .migrationStop s = .next (finalSent cid s) := by
  rw [execMigrationStop_stopped hstop hmine hvd hst hwaits, hlost, hroute, hfinal, hway]
  rfl

end Stopped

end Stopping

theorem migBusy_of_stopping (h : stopping s = true) : s.plc.migBusy = true := (Bool.and_eq_true_iff.1 h).1

/-- The final round as it leaves: what is to be pulled stays with the VD. -/
def leaving (cid : Nat) (s : State) : State :=
  let a := s.setVd cid { s.vd cid with outstanding := (finalImage cid s).outstanding }
  { a with plc := { a.plc with migPages := bv 32 (finalImage cid s).pages.length } }

theorem vd_leaving (cid : Nat) (s : State) : (leaving cid s).vd cid = { s.vd cid with outstanding := (finalImage cid s).outstanding } :=
  vd_setVd_self ..

theorem kept_leaving (cid : Nat) (s : State) : (leaving cid s).klk = s.klk ∧ (leaving cid s).plc.migBusy = s.plc.migBusy
    ∧ (leaving cid s).cycle = s.cycle := ⟨rfl, rfl, rfl⟩

theorem sendFinal_eq (cid : Nat) (s : State) : sendFinal cid s =
    if (s.vd cid).dest.1 ≠ s.klk.dev.toNat then
      { sendPayloads 0 (s.vd cid).dest.1 cid 0 (Config.imagePayloads (finalImage cid s))
          ((leaving cid s).emit (.migImage (s.vd cid).dest.1 (s.vd cid).dest.2 (finalImage cid s))) with
        plc := { (leaving cid s).plc with migFinal := true } }
    else if !migGranted s (s.vd cid).dest.1 (s.vd cid).dest.2 then
      migDone 3 (migDenied (finalImage cid s).src (s.vd cid).dest.2 0 (leaving cid s))
    else finalSent cid ((leaving cid s).push (.migrationFinalArrival (s.vd cid).dest.2 (finalImage cid s))) := rfl

/-- To another device the final round goes over the link. -/
theorem sendFinal_remote (hfar : (s.vd cid).dest.1 ≠ s.klk.dev.toNat) : (sendFinal cid s).plc.migFinal = true
    ∧ (sendFinal cid s).plc.migBusy = s.plc.migBusy ∧ (sendFinal cid s).cycle = s.cycle
    ∧ .migImage (s.vd cid).dest.1 (s.vd cid).dest.2 (finalImage cid s) ∈ (sendFinal cid s).out
    ∧ ((sendFinal cid s).vd cid).outstanding = (finalImage cid s).outstanding := by
  obtain ⟨_, hbusy, hcycle⟩ := kept_leaving cid s
  have hvd := vd_leaving cid s
  rw [sendFinal_eq, if_pos hfar]
  dsimp only
  generalize leaving cid s = a at hbusy hcycle hvd
  generalize (finalImage cid s) = img at hvd ⊢
  obtain ⟨heq, hout⟩ := sends_sendPayloads 0 (s.vd cid).dest.1 cid 0 (Config.imagePayloads img)
    (a.emit (.migImage (s.vd cid).dest.1 (s.vd cid).dest.2 img))
  have hin := hout _ (List.mem_append_right a.out (List.mem_singleton_self _))
  generalize sendPayloads 0 (s.vd cid).dest.1 cid 0 (Config.imagePayloads img)
    (a.emit (.migImage (s.vd cid).dest.1 (s.vd cid).dest.2 img)) = b at heq hin
  refine ⟨rfl, hbusy, ?_, hin, ?_⟩
  · rw [← hcycle, heq]
    rfl
  · rw [heq]
    exact congrArg Vd.outstanding hvd

/-- To this device itself the final round arrives at once. -/
theorem sendFinal_here (hnear : (s.vd cid).dest.1 = s.klk.dev.toNat) (hgrant : migGranted s (s.vd cid).dest.1 (s.vd cid).dest.2 = true)
    (hkeep : s.plc.migKeep = false) : (sendFinal cid s).plc.migSt = 1 ∧ (sendFinal cid s).plc.migBusy = false
    ∧ .migrationFinalArrival (s.vd cid).dest.2 (finalImage cid s) ∈ (sendFinal cid s).agenda := by
  have hnone : (((leaving cid s).push (.migrationFinalArrival (s.vd cid).dest.2 (finalImage cid s))).vd cid).outstanding = [] := by
    refine (congrArg Vd.outstanding (vd_leaving cid s)).trans ?_
    unfold finalImage
    dsimp only
    rw [hkeep, if_neg Bool.false_ne_true]
  rw [sendFinal_eq, if_neg (not_not.2 hnear), hgrant, if_neg (show ¬ (!true) = true from nofun), finalSent, hnone]
  exact ⟨rfl, rfl, List.mem_append_right _ (List.mem_singleton_self _)⟩

theorem finalSent_of_none (h : (s.vd cid).outstanding = []) : finalSent cid s = migDone 1 s := by
  rw [finalSent, h]
  rfl

/-! ### A lost link (R125) -/

section LinkLost

variable (hmine : s.plc.migVd = cid) (hbusy : s.plc.migBusy = true) (hvd : hasVd s cid = true)
include hmine hbusy hvd

theorem execMigrationLinkLost_stopping (hs : (s.vd cid).suspended = true) (hst : (s.vd cid).state ≠ .stopped) :
    exec .migrationLinkLost s = .next { s with plc := { s.plc with migLost := true } } := by
  show execMigrationLinkLost s = _
  unfold execMigrationLinkLost
  dsimp only
  rw [hmine, hbusy, if_neg (not_or.2 ⟨nofun, by simp [hvd]⟩), hs, decide_eq_true hst, if_pos (show (true && true) = true from rfl)]

theorem execMigrationLinkLost_ends (h : (s.vd cid).suspended = false ∨ (s.vd cid).state = .stopped) :
    exec .migrationLinkLost s = .next (migDone 4 s) := by
  show execMigrationLinkLost s = _
  unfold execMigrationLinkLost
  dsimp only
  rw [hmine, hbusy, if_neg (not_or.2 ⟨nofun, by simp [hvd]⟩), if_neg]
  rcases h with h | h <;> simp [h]

end LinkLost

theorem execMigrationLinkLost_idle (h : s.plc.migBusy = false) : exec .migrationLinkLost s = .next s := by
  show execMigrationLinkLost s = _
  unfold execMigrationLinkLost
  dsimp only
  rw [h, if_pos (.inl rfl)]

/-! ### What the end of a LAUNCH leaves of the VDs -/

/-- The second state leaves every VD in its state. -/
structure Standing (s t : State) : Prop where
  state : ∀ c, (t.vd c).state = (s.vd c).state
  failStatus : ∀ c, (t.vd c).failStatus = (s.vd c).failStatus

theorem Standing.refl (s : State) : Standing s s := ⟨fun _ => rfl, fun _ => rfl⟩

theorem Standing.trans (h : Standing s t) (h' : Standing t u) : Standing s u :=
  ⟨fun c => (h'.state c).trans (h.state c), fun c => (h'.failStatus c).trans (h.failStatus c)⟩

theorem standing_of_vds (h : t.vds = s.vds) : Standing s t :=
  ⟨fun _ => congrArg Vd.state (vd_of_vds h _), fun _ => congrArg Vd.failStatus (vd_of_vds h _)⟩

theorem standing_setVd {c : Nat} {x : Vd} (hst : x.state = (s.vd c).state) (hfail : x.failStatus = (s.vd c).failStatus) :
    Standing s (s.setVd c x) := by
  refine ⟨fun d => ?_, fun d => ?_⟩ <;> rw [State.setVd, State.vd, tget_tset]
  · split
    next hd => rw [hd, hst]
    next => rfl
  · split
    next hd => rw [hd, hfail]
    next => rfl

theorem vds_pwrite (s : State) (pa : Nat) (b : List Byte) (poison : List Nat) (dt : Bool) : (pwrite s pa b poison dt).vds = s.vds := by
  unfold pwrite
  dsimp only
  split <;> rfl

theorem vds_writeParts (poison : List Nat) (l : List (Nat × Nat × Bool)) (s : State) (i : Nat) (bs : List Byte) :
    (writeParts s poison i l bs).vds = s.vds := by
  induction l generalizing s i bs with
  | nil => rfl
  | cons p l ih =>
    obtain ⟨pa, n, dt⟩ := p
    exact (ih ..).trans (vds_pwrite ..)

theorem vds_hubPut {a : Nat} {b : List Byte} (h : hubPut s cid a b = .ok t) : t.vds = s.vds := by
  unfold hubPut vwrite vwriteBy at h
  split at h
  · cases h
  next hw =>
    cases h
    split at hw
    · cases hw
    · cases hw
      exact vds_writeParts ..

theorem vds_hubPutHbm {a : Nat} {b : List Byte} (h : hubPutHbm s a b = .ok t) : t.vds = s.vds := by
  unfold hubPutHbm at h
  split at h
  · cases h
    exact vds_pwrite ..
  · cases h

theorem vds_hwrite (s : State) (fn a : Nat) (b : List Byte) (poison : List Nat) : (hwrite s fn a b poison).vds = s.vds := by
  unfold hwrite
  dsimp only
  exact foldl_eq (fun s (x : Nat × Nat) => hostTlp fn true x.1 x.2 false s) State.vds (fun _ _ => rfl) _ s

theorem vds_fnWrite {fn a : Nat} {host : Bool} {b : List Byte} (h : fnWrite s fn host a b = .ok t) : t.vds = s.vds := by
  unfold fnWrite at h
  split at h
  · cases h
    exact vds_hwrite s fn a b []
  · split at h
    · split at h
      · cases h
        exact vds_pwrite ..
      · cases h
    · exact vds_hubPut h

theorem standing_pageRequest (s : State) (cid page : Nat) (write : Bool) : Standing s (pageRequest cid page write s) := by
  unfold pageRequest
  dsimp only
  split
  · split
    · exact .refl s
    · exact standing_of_vds rfl
  · split
    · exact standing_setVd rfl rfl
    · refine Standing.trans (t := s.setVd cid _) ?_ (standing_of_vds rfl)
      exact standing_setVd rfl rfl

theorem vds_cqCoalesce (s : State) (fn n : Nat) : (cqCoalesce fn n s).vds = s.vds := by
  unfold cqCoalesce
  dsimp only
  split
  · exact vds_msix ..
  · split <;> rfl

theorem standing_cqWrite (s : State) (fn n : Nat) (w0 w1 : W64) : Standing s (cqWrite fn n w0 w1 s) := by
  unfold cqWrite
  dsimp only
  split
  · exact standing_of_vds rfl
  · split
    · exact standing_of_vds rfl
    · split
      next h =>
        have hvds := vds_fnWrite h
        exact standing_of_vds ((vds_cqCoalesce ..).trans hvds)
      · exact standing_of_vds rfl
      · refine Standing.trans (t := s.setCq fn n _) ?_ (standing_pageRequest ..)
        exact standing_of_vds rfl

theorem standing_cqPost (fn n : Nat) (w0 w1 : W64) (s : State) : Standing s (cqPost fn n w0 w1 s) := by
  unfold cqPost cqSend
  split
  · unfold cqPostNow
    dsimp only
    split
    · exact (standing_cqWrite ..).trans (standing_cqWrite ..)
    · exact standing_cqWrite ..
  · exact standing_of_vds rfl

theorem vds_trcWrite {put : State → Nat → List Byte → Except VaErr State} (hput : ∀ s a b t, put s a b = .ok t → t.vds = s.vds) (tick : Nat)
    (words : List W64) (r : Trc) (s : State) : (trcWrite put tick words r s).1.vds = s.vds := by
  unfold trcWrite
  dsimp only
  split
  · rfl
  split
  · split
    · rfl
    next h => exact hput _ _ _ _ h
  split
  · rfl
  split
  · rfl
  next s1 hpad =>
    have hs : s1.vds = s.vds := by
      split at hpad
      · exact hput _ _ _ _ hpad
      · cases hpad
        rfl
    split
    · exact hs
    next h => exact (hput _ _ _ _ h).trans hs

theorem standing_trcWrite {put : State → Nat → List Byte → Except VaErr State} (hput : ∀ s a b t, put s a b = .ok t → t.vds = s.vds)
    (tick : Nat) (words : List W64) (r : Trc) (s : State) : Standing s (trcWrite put tick words r s).1 :=
  standing_of_vds (vds_trcWrite hput ..)

theorem standing_trace (cid type tick : Nat) (words mfWords : List W64) (s : State) : Standing s (trace cid type tick words mfWords s) := by
  unfold trace
  dsimp only
  split
  · exact .refl s
  generalize hown : trcWrite (fun u a b => hubPut u cid ((s.vd cid).trc.base.toNat + a) b) tick _ _ s = r
  have h1 : Standing s r.1 := hown ▸ standing_trcWrite (fun _ _ _ _ h => vds_hubPut h) ..
  generalize hset : r.1.setVd cid _ = b
  have h2 : Standing s b := h1.trans (hset ▸ standing_setVd rfl rfl)
  split
  · exact h2
  · generalize hmf : trcWrite (fun u a x => hubPutHbm u ((tget {} b.optrc cid).base.toNat + a) x) tick _ _ b = q
    have h3 : Standing b q.1 := hmf ▸ standing_trcWrite (fun _ _ _ _ h => vds_hubPutHbm h) ..
    exact (h2.trans h3).trans (standing_of_vds rfl)

theorem standing_dbgEnd (sid st : Nat) (s : State) : Standing s (dbgEnd sid st s) := by
  unfold dbgEnd
  dsimp only
  split
  · exact standing_setVd rfl rfl
  · exact .refl s

theorem standing_noteLaunch (x : Strand) (s : State) : Standing s (noteLaunch x s) := by
  unfold noteLaunch
  dsimp only
  generalize hreads : s.setVd x.cid _ = a
  have h1 : Standing s a := hreads ▸ standing_setVd rfl rfl
  split
  · exact h1
  · refine h1.trans (standing_of_vds ?_)
    rw [moved_placeTiers]

theorem standing_launchTold (sid status : Nat) (s : State) : Standing s (launchTold sid status s) := by
  unfold launchTold
  dsimp only
  generalize htrace : trace (s.strand sid).cid 3 (s.strand sid).tick _ _ s = a
  have ha : Standing s a := htrace ▸ standing_trace ..
  generalize hvd : a.setVd (s.strand sid).cid _ = b
  have hb : Standing s b := ha.trans (hvd ▸ standing_setVd rfl rfl)
  have hnoted : Standing b (metersNoted (s.strand sid).cid b) := standing_of_vds rfl
  have htold := (hb.trans hnoted).trans (standing_dbgEnd sid 2 _)
  split
  · exact htold.trans (standing_cqPost ..)
  · exact htold

theorem standing_finishLaunch (sid status : Nat) (s : State) : Standing s (finishLaunch sid status s) := by
  have htold := standing_launchTold sid status s
  rw [finishLaunch_eq]
  generalize launchTold sid status s = a at htold
  generalize hb : ({ a with runs := a.runs.map (endedRun (s.strand sid) status), strands := tdel a.strands sid } : State) = b
  have hab : Standing s b := htold.trans (standing_of_vds (by rw [← hb]))
  exact (hab.trans (standing_noteLaunch (s.strand sid) b)).trans (standing_of_vds rfl)

/-! ### The final round arrives (R126) -/

variable {img : MigImage}

theorem charged_chargeOper (s : State) (pj : Nat) : (chargeOper s pj).vds = s.vds ∧ (chargeOper s pj).mem = s.mem := ⟨rfl, rfl⟩

theorem vds_putPage (p : Nat) (b : List Byte × List Nat) (s : State) : (putPage p b s).vds = s.vds := rfl

theorem vds_installPage (cid : Nat) (s : State) (p : Nat × List Byte × List Nat) : (installPage cid s p).vds = s.vds := by
  unfold installPage
  split
  · rfl
  · exact (vds_putPage ..).trans (charged_chargeOper ..).1

theorem vds_installImage (h : img.mailbox = []) (s : State) :
    (installImage cid img s).vds = tset s.vds cid { s.vd cid with source := img.src } := by
  unfold installImage
  dsimp only
  rw [h, List.foldl_nil]
  have hcqs := fun u => foldl_eq (fun s (x : Nat × List W64) => s.setCq cid x.1 (cqOfWords x.2)) State.vds (fun _ _ => rfl) img.cqs u
  have hqcbs := fun u => foldl_eq (fun s (x : Nat × List W64) => s.setQueue cid x.1 (queueOfWords x.2)) State.vds (fun _ _ => rfl) img.qcbs u
  exact (hcqs _).trans ((hqcbs _).trans ((vds_pwrite ..).trans (foldl_eq (installPage cid) State.vds (vds_installPage cid) img.pages _)))

theorem execMigrationFinalArrival_gone (h : hasVd s cid = false ∨ (s.vd cid).state ≠ .incoming) :
    exec (.migrationFinalArrival cid img) s = .next s := by
  show execMigrationFinalArrival cid img s = _
  rw [execMigrationFinalArrival, if_pos (refused h)]

section Arrives

variable (hvd : hasVd s cid = true) (hst : (s.vd cid).state = .incoming)
include hvd hst

theorem execMigrationFinalArrival_denied (hg : migGranted s img.src.1 cid = false) :
    exec (.migrationFinalArrival cid img) s = .next (migDenied img.src cid 0 s) := by
  show execMigrationFinalArrival cid img s = _
  rw [execMigrationFinalArrival, if_neg (not_refused hvd (not_not.2 hst)), hg, if_pos (show (!false) = true from rfl)]

variable (hg : migGranted s img.src.1 cid = true)
include hg

theorem execMigrationFinalArrival_fails (hgot : receiveHandoffs cid img.src.1 img.handoffs (installImage cid img s) = none) :
    exec (.migrationFinalArrival cid img) s = .next (img.strands.foldl (takeStrand cid (some 0x0403))
      ((installImage cid img s).setVd cid { (installImage cid img s).vd cid with state := .failed, failStatus := 0x0403 })) := by
  show execMigrationFinalArrival cid img s = _
  rw [execMigrationFinalArrival, if_neg (not_refused hvd (not_not.2 hst)), hg, if_neg (show ¬ (!true) = true from nofun)]
  dsimp only
  rw [hgot]

/-- The VD of a final round without a post-copy is ACTIVE, with nothing left to pull. -/
def arrived (cid : Nat) (w : State) : State := w.setVd cid { w.vd cid with state := .active, outstanding := [] }

theorem execMigrationFinalArrival_lands {w : State}
    (hgot : receiveHandoffs cid img.src.1 img.handoffs (installImage cid img s) = some w) (hpost : img.post = false) :
    ∃ l, exec (.migrationFinalArrival cid img) s = .next (grantsChanged
      ((img.copies.foldl (resumeCopy cid) (img.strands.foldl (takeStrand cid none) (arrived cid w))).pushAll l)) := by
  refine ⟨img.qcbs.map fun (q, _) => Instr.packetFetch cid q, ?_⟩
  show execMigrationFinalArrival cid img s = _
  rw [execMigrationFinalArrival, if_neg (not_refused hvd (not_not.2 hst)), hg, if_neg (show ¬ (!true) = true from nofun)]
  dsimp only
  rw [hgot]
  dsimp only
  rw [hpost]
  rfl

end Arrives

/-- The run of a strand that is taken up. -/
def takenRun (cid : Nat) (s : State) (x : Strand × Packet) : Run :=
  { id := s.nextRun, fn := cid, q := x.1.q, pkt := x.2, cq := (s.queue cid x.1.q).cq, ecq := (s.queue cid x.1.q).ecq, sid := s.nextSid }

/-- A strand that is taken up. -/
def takenStrand (cid : Nat) (s : State) (x : Strand × Packet) : Strand :=
  { x.1 with run := s.nextRun, fn := cid, cid := cid, state := .evicted, tried := false, order := s.plc.orders
             wids := x.1.wids.map fun _ => 8, hbmFree := [], modFree := 0 }

/-- The state with a strand taken up. -/
def taken (cid : Nat) (s : State) (x : Strand × Packet) : State :=
  { s with runs := s.runs ++ [takenRun cid s x], nextRun := s.nextRun + 1, nextSid := s.nextSid + 1
           plc := { s.plc with orders := s.plc.orders + 1 }, strands := tset s.strands s.nextSid (takenStrand cid s x) }

theorem takeStrand_none (cid : Nat) (s : State) (x : Strand × Packet) : takeStrand cid none s x = taken cid s x := rfl

theorem takeStrand_some (cid st : Nat) (s : State) (x : Strand × Packet) :
    takeStrand cid (some st) s x = finishLaunch s.nextSid st (taken cid s x) := rfl

theorem strand_taken (cid : Nat) (s : State) (x : Strand × Packet) : (taken cid s x).strand s.nextSid = takenStrand cid s x :=
  tget_tset_self ..

/-- Where the migration has failed, the LAUNCH of a strand completes. -/
theorem takeStrand_failed (cid st : Nat) (s : State) (x : Strand × Packet) :
    ∃ r ∈ (takeStrand cid (some st) s x).runs, r.pkt = x.2 ∧ r.status = st ∧ r.ended = true := by
  obtain ⟨_, hruns, _, _⟩ := finishLaunch_spec s.nextSid st (taken cid s x)
  rw [takeStrand_some, hruns, strand_taken]
  refine ⟨endedRun (takenStrand cid s x) st (takenRun cid s x), List.mem_map_of_mem (List.mem_append_right _ (List.mem_singleton_self _)), ?_⟩
  have hended : endedRun (takenStrand cid s x) st (takenRun cid s x)
      = { takenRun cid s x with status := st, data := bv 64 (microJoule (takenStrand cid s x).energy), ended := true } := if_pos rfl
  rw [hended]
  exact ⟨rfl, rfl, rfl⟩

theorem Standing.foldl {α : Type} {f : State → α → State} (hf : ∀ s a, Standing s (f s a)) (l : List α) (s : State) :
    Standing s (l.foldl f s) := by
  induction l generalizing s with
  | nil => exact .refl s
  | cons a l ih => exact (hf s a).trans (ih _)

theorem standing_takeStrand (cid st : Nat) (s : State) (x : Strand × Packet) : Standing s (takeStrand cid (some st) s x) := by
  rw [takeStrand_some]
  exact (standing_of_vds (s := s) (t := taken cid s x) rfl).trans (standing_finishLaunch ..)

/-- What a final round without a post-copy leaves of the VD, of the meters and of memory. -/
theorem arrived_spec {w : State} (l : List Instr) (xs : List (Strand × Packet)) (cs : List (List W64)) :
    let t := grantsChanged ((cs.foldl (resumeCopy cid) (xs.foldl (takeStrand cid none) (arrived cid w))).pushAll l)
    t.vd cid = { w.vd cid with state := .active, outstanding := [] } ∧ t.wm = w.wm ∧ t.mem = w.mem := by
  have hcopies := fun u : State => foldl_eq (resumeCopy cid) (fun s => (s.vds, s.wm, s.mem)) (fun _ _ => rfl) cs u
  have hstrands := foldl_eq (takeStrand cid none) (fun s => (s.vds, s.wm, s.mem)) (fun _ _ => rfl) xs (arrived cid w)
  have hall := (hcopies _).trans hstrands
  generalize cs.foldl (resumeCopy cid) (xs.foldl (takeStrand cid none) (arrived cid w)) = d at hall
  obtain ⟨hvds, hrest⟩ := Prod.ext_iff.1 hall
  obtain ⟨hwm, hmem⟩ := Prod.ext_iff.1 hrest
  refine ⟨?_, hwm, hmem⟩
  show tget {} d.vds cid = _
  rw [show d.vds = tset w.vds cid _ from hvds]
  exact tget_tset_self ..

/-- A strand that is taken up stands evicted, as it was saved. -/
theorem taken_spec (l : List Instr) (x : Strand × Packet) (s : State) :
    let t := grantsChanged ((taken cid s x).pushAll l)
    ∃ r ∈ t.runs, r.pkt = x.2 ∧ r.fn = cid ∧ r.ended = false ∧ (t.strand r.sid).run = r.id ∧ (t.strand r.sid).state = .evicted
      ∧ (t.strand r.sid).cid = cid ∧ (t.strand r.sid).savedOwners = x.1.savedOwners ∧ (t.strand r.sid).savedTick = x.1.savedTick
      ∧ (t.strand r.sid).ctxRecs = x.1.ctxRecs := by
  have hstrand : ∀ {β : Type} (g : Strand → β), (∀ t : Strand, g { t with tried := false } = g t) →
      g ((grantsChanged ((taken cid s x).pushAll l)).strand s.nextSid) = g (takenStrand cid s x) := fun g hg =>
    (Starts.strand_grantsChanged g hg _ _).trans (congrArg g (strand_taken cid s x))
  exact ⟨takenRun cid s x, List.mem_append_right _ (List.mem_singleton_self _), rfl, rfl, rfl, hstrand Strand.run fun _ => rfl,
    hstrand Strand.state fun _ => rfl, hstrand Strand.cid fun _ => rfl, hstrand Strand.savedOwners fun _ => rfl,
    hstrand Strand.savedTick fun _ => rfl, hstrand Strand.ctxRecs fun _ => rfl⟩

/-! ### Post-copy (R126, R127) -/

theorem contains_of_mem {l : List Nat} (h : page ∈ l) : l.contains page = true := by simpa using h

theorem contains_of_not_mem {l : List Nat} (h : page ∉ l) : l.contains page = false := by simpa using h

theorem execPostcopyPagePull_asks (hout : page ∈ (s.vd cid).outstanding) (hnew : page ∉ (s.vd cid).pulls) :
    ∃ t, exec (.postcopyPagePull cid page) s = .next t ∧ page ∈ (t.vd cid).pulls
      ∧ (s.ref + (s.vd cid).pullMs * 1000000, .postcopyPullTimeout cid page) ∈ t.nsTimers := by
  have hexec : exec (.postcopyPagePull cid page) s = .next (sendRequest (s.vd cid).source.1 cid (s.vd cid).source.2 0 (page * 65536)
      (.read 65536) (.pull cid page) ((s.setVd cid { s.vd cid with pulls := sins page (s.vd cid).pulls }).afterNs
        ((s.vd cid).pullMs * 1000000) (.postcopyPullTimeout cid page))) := by
    show execPostcopyPagePull cid page s = _
    unfold execPostcopyPagePull
    dsimp only
    rw [contains_of_mem hout, contains_of_not_mem hnew, if_neg (by simp)]
  have hasks := (asks_sendRequest (s.vd cid).source.1 cid (s.vd cid).source.2 0 (page * 65536) (.read 65536) (.pull cid page)
    ((s.setVd cid { s.vd cid with pulls := sins page (s.vd cid).pulls }).afterNs ((s.vd cid).pullMs * 1000000)
      (.postcopyPullTimeout cid page))).1
  refine ⟨_, hexec, ?_, hasks.timers _ (List.mem_append_right _ (List.mem_singleton_self _))⟩
  rw [vd_of_vds hasks.vds]
  show page ∈ ((s.setVd cid _).vd cid).pulls
  rw [vd_setVd_self]
  exact mem_sins.2 (.inl rfl)

theorem execPostcopyPagePull_none (h : page ∉ (s.vd cid).outstanding) : exec (.postcopyPagePull cid page) s = .next s := by
  show execPostcopyPagePull cid page s = _
  unfold execPostcopyPagePull
  dsimp only
  rw [contains_of_not_mem h, if_pos (.inl rfl)]

theorem execPostcopyPagePush_sends {l : List Nat} (hout : (s.vd cid).outstanding = page :: l) (hst : (s.vd cid).state = .stopped) :
    ∃ t, exec (.postcopyPagePush cid) s = .next t ∧ (t.vd cid).outstanding = l ∧ ∃ r ∈ t.klk.reqs, r.why = .migPage cid page := by
  have hexec : ∃ c, exec (.postcopyPagePush cid) s = .next ((sendPage cid (s.setVd cid { s.vd cid with outstanding := l }) page
      (pageData s cid page)).at c (.postcopyPagePush cid)).tick1 := by
    refine ⟨s.cycle + 1 + Config.hubCycles (sendPage cid (s.setVd cid { s.vd cid with outstanding := l }) page (pageData s cid page)).free, ?_⟩
    have hcycle : (sendPage cid (s.setVd cid { s.vd cid with outstanding := l }) page (pageData s cid page)).cycle = s.cycle := by
      rw [(asks_sendPage ..).1.frame]
      rfl
    show execPostcopyPagePush cid s = _
    unfold execPostcopyPagePush
    dsimp only
    rw [hout]
    dsimp only
    rw [if_neg (not_not.2 hst), hcycle]
  obtain ⟨c, hexec⟩ := hexec
  obtain ⟨hasks, hreq⟩ := asks_sendPage cid (s.setVd cid { s.vd cid with outstanding := l }) page (pageData s cid page)
  refine ⟨_, hexec, ?_, hreq⟩
  have hvd := (vd_of_vds hasks.vds cid).trans (vd_setVd_self ..)
  generalize sendPage cid _ page _ = b at hvd
  exact congrArg Vd.outstanding hvd

theorem execPostcopyPagePush_none (h : (s.vd cid).outstanding = []) : exec (.postcopyPagePush cid) s = .next s := by
  show execPostcopyPagePush cid s = _
  unfold execPostcopyPagePush
  dsimp only
  rw [h]

section PageArrives

variable {data : List Byte} {poison : List Nat}

theorem execPostcopyPageArrival_none (h : page ∉ (s.vd cid).outstanding) : exec (.postcopyPageArrival cid page ⟨data, poison⟩) s = .next s := by
  show execPostcopyPageArrival cid page ⟨data, poison⟩ s = _
  unfold execPostcopyPageArrival
  dsimp only
  rw [contains_of_not_mem h, if_pos (.inr rfl)]

/-- Telling the source changes no VD and no memory, and takes nothing from the agenda. -/
theorem tellSource_spec (cid : Nat) (s : State) : (tellSource cid s).vds = s.vds ∧ (tellSource cid s).mem = s.mem
    ∧ ∀ i ∈ s.agenda, i ∈ (tellSource cid s).agenda := by
  unfold tellSource
  dsimp only
  split
  · exact ⟨rfl, rfl, fun _ h => List.mem_append_left _ h⟩
  · obtain ⟨heq, _⟩ := (sends_emit (.migDone (s.vd cid).source.1 (s.vd cid).source.2) s).trans
      (sends_sendPayloads 0 (s.vd cid).source.1 cid 0 [Config.freePayload (s.vd cid).source.2] _)
    rw [heq]
    exact ⟨rfl, rfl, fun _ h => h⟩

/-- The bytes of a frame that a page fills, and of the others. -/
theorem cget_putPage (p : Nat) (b : List Byte × List Nat) (h : b.1.length = 65536) (s : State) :
    (∀ i < 65536, cget (putPage p b s).mem (p * 65536 + i) = b.1.getD i 0)
      ∧ ∀ a, a / 65536 ≠ p → cget (putPage p b s).mem a = cget s.mem a := by
  refine ⟨fun i hi => ?_, fun a ha => ?_⟩
  · rw [putPage, cget_csets, if_pos (by omega), Nat.add_sub_cancel_left]
  · rw [putPage, cget_csets, if_neg (by omega), zeroFrames, cget_czero, if_neg (by omega)]

theorem padTo_self {b : List Byte} {n : Nat} (h : b.length = n) : padTo n b = b := by
  rw [padTo, List.take_append_of_le_length (Nat.le_of_eq h.symm), ← h, List.take_length]

/-- A page that the tables map is put into its frame. -/
theorem installPage_some {p : Nat × List Byte × List Nat} {pa : Nat} (hpa : pagePa s cid p.1 = some pa) :
    ∃ u, installPage cid s p = putPage (pa / 65536) (padTo 65536 p.2.1, p.2.2) u ∧ u.mem = s.mem := by
  rw [installPage, hpa]
  exact ⟨_, rfl, (charged_chargeOper ..).2⟩

theorem mem_installPage {pa : Nat} (hpa : pagePa s cid page = some pa) (h : data.length = 65536) :
    (∀ i < 65536, cget (installPage cid s (page, data, poison)).mem (pa / 65536 * 65536 + i) = data.getD i 0)
      ∧ ∀ a, a / 65536 ≠ pa / 65536 → cget (installPage cid s (page, data, poison)).mem a = cget s.mem a := by
  obtain ⟨u, hu, hmem⟩ := installPage_some (s := s) (p := (page, data, poison)) hpa
  rw [hu, padTo_self h, ← hmem]
  exact cget_putPage _ (data, poison) h u

section Granted

variable (hst : (s.vd cid).state = .postcopy) (hout : page ∈ (s.vd cid).outstanding)
include hst hout

theorem execPostcopyPageArrival_denied (hg : migGranted s (s.vd cid).source.1 cid = false) :
    exec (.postcopyPageArrival cid page ⟨data, poison⟩) s = .next (migDenied (s.vd cid).source cid page s) := by
  show execPostcopyPageArrival cid page ⟨data, poison⟩ s = _
  unfold execPostcopyPageArrival
  dsimp only
  rw [contains_of_mem hout, if_neg (by simp [hst]), hg, if_pos (show (!false) = true from rfl)]

/-- The VD of a page that has arrived. -/
def gotVd (page : Nat) (v : Vd) : Vd :=
  { v with outstanding := sdel page v.outstanding, pulls := sdel page v.pulls
           state := if (sdel page v.outstanding).isEmpty ∧ v.state = .postcopy then .active else v.state }

/-- The state in which a page has arrived. -/
def got (cid page : Nat) (data : PageImage) (s : State) : State :=
  (((installPage cid s (page, data.bytes, data.poison)).setVd cid (gotVd page (s.vd cid))).cancel (.postcopyPullTimeout cid page)).push
    (.pageDone cid page)

omit hst hout in
theorem got_spec (cid page : Nat) (data : PageImage) (s : State) : (got cid page data s).vd cid = gotVd page (s.vd cid)
    ∧ (got cid page data s).mem = (installPage cid s (page, data.bytes, data.poison)).mem ∧ .pageDone cid page ∈ (got cid page data s).agenda :=
by
  unfold got
  generalize installPage cid s (page, data.bytes, data.poison) = a
  exact ⟨vd_setVd_self .., rfl, List.mem_append_right _ (List.mem_singleton_self _)⟩

theorem execPostcopyPageArrival_installs (hg : migGranted s (s.vd cid).source.1 cid = true) :
    exec (.postcopyPageArrival cid page ⟨data, poison⟩) s = .next (
      if (sdel page (s.vd cid).outstanding).isEmpty ∧ (s.vd cid).state = .postcopy then tellSource cid (got cid page ⟨data, poison⟩ s)
      else got cid page ⟨data, poison⟩ s) := by
  show execPostcopyPageArrival cid page ⟨data, poison⟩ s = _
  unfold execPostcopyPageArrival
  dsimp only
  rw [contains_of_mem hout, if_neg (by simp [hst]), hg, if_neg (show ¬ (!true) = true from nofun)]
  rfl

/-- A page that has arrived is in its frame, is not outstanding any more, and what held on it is tried again; with the last page the
VD is ACTIVE. -/
theorem pageArrival_spec (hg : migGranted s (s.vd cid).source.1 cid = true) :
    ∃ t, exec (.postcopyPageArrival cid page ⟨data, poison⟩) s = .next t
      ∧ page ∉ (t.vd cid).outstanding ∧ .pageDone cid page ∈ t.agenda
      ∧ ((s.vd cid).outstanding = [page] → (t.vd cid).state = .active)
      ∧ ∀ pa, pagePa s cid page = some pa → data.length = 65536 →
        (∀ i < 65536, cget t.mem (pa / 65536 * 65536 + i) = data.getD i 0)
        ∧ ∀ a, a / 65536 ≠ pa / 65536 → cget t.mem a = cget s.mem a := by
  obtain ⟨hvd, hmem, hdone⟩ := got_spec cid page ⟨data, poison⟩ s
  obtain ⟨tvds, tmem, tagenda⟩ := tellSource_spec cid (got cid page ⟨data, poison⟩ s)
  refine ⟨_, execPostcopyPageArrival_installs hst hout hg, ?_⟩
  have hall : ∀ t : State, t.vd cid = gotVd page (s.vd cid) → t.mem = (installPage cid s (page, data, poison)).mem →
      .pageDone cid page ∈ t.agenda → page ∉ (t.vd cid).outstanding ∧ .pageDone cid page ∈ t.agenda
      ∧ ((s.vd cid).outstanding = [page] → (t.vd cid).state = .active)
      ∧ ∀ pa, pagePa s cid page = some pa → data.length = 65536 →
        (∀ i < 65536, cget t.mem (pa / 65536 * 65536 + i) = data.getD i 0)
        ∧ ∀ a, a / 65536 ≠ pa / 65536 → cget t.mem a = cget s.mem a := by
    intro t ht hm hd
    rw [ht, hm]
    refine ⟨not_mem_sdel page _, hd, fun hlast => ?_, fun pa hpa hlen => mem_installPage hpa hlen⟩
    rw [gotVd, hlast, hst]
    exact if_pos ⟨by simp [sdel], rfl⟩
  split
  · exact hall _ ((vd_of_vds tvds cid).trans hvd) (tmem.trans hmem) (tagenda _ hdone)
  · exact hall _ hvd hmem hdone

end Granted

end PageArrives

/-- Freeing the frames of a leaf makes it invalid, and no other valid. -/
theorem valid_freeLeaf (s : State) (l : Leaf) (a : Nat) (h : a = l.at_ ∨ (cget s.mem a).getLsbD 0 = false) :
    (cget (freeLeaf s l).mem a).getLsbD 0 = false := by
  unfold freeLeaf
  dsimp only
  rw [cget_cset]
  split
  · simp
  next hother =>
    rw [zeroFrames, cget_czero]
    split
    · rfl
    · exact h.resolve_left hother

theorem freeLeaves_spec (ls : List Leaf) (s : State) : (ls.foldl freeLeaf s).vds = s.vds
    ∧ ∀ a, (∃ l ∈ ls, l.at_ = a) ∨ (cget s.mem a).getLsbD 0 = false → (cget (ls.foldl freeLeaf s).mem a).getLsbD 0 = false := by
  induction ls generalizing s with
  | nil => exact ⟨rfl, fun a h => h.resolve_left fun ⟨_, hl, _⟩ => nomatch hl⟩
  | cons x ls ih =>
    obtain ⟨hvds, hbits⟩ := ih (freeLeaf s x)
    refine ⟨hvds, fun a h => hbits a ?_⟩
    rcases h with ⟨l, hl, hla⟩ | h
    · rcases List.mem_cons.1 hl with rfl | hl
      · exact .inr (valid_freeLeaf s _ a (.inl hla.symm))
      · exact .inl ⟨l, hl, hla⟩
    · exact .inr (valid_freeLeaf s x a (.inr h))

theorem execPostcopySourceFree_none (h : (s.vd cid).state ≠ .stopped) : exec (.postcopySourceFree cid) s = .next s := by
  show execPostcopySourceFree cid s = _
  rw [execPostcopySourceFree, if_pos (.inr h)]

theorem execPostcopySourceFree_frees (hvd : hasVd s cid = true) (hst : (s.vd cid).state = .stopped) :
    ∃ t, exec (.postcopySourceFree cid) s = .next t ∧ (t.vd cid).outstanding = []
      ∧ ∀ l ∈ leavesOf s cid, (cget t.mem l.at_).getLsbD 0 = false := by
  have hexec : ∃ dirty, exec (.postcopySourceFree cid) s = .next (tlbDrop cid ((leavesOf s cid).foldl freeLeaf
      { s.setVd cid { s.vd cid with outstanding := [] } with dirty := dirty })) := by
    refine ⟨s.dirty.filter fun p => !((pagesOf s cid).map (·.2)).contains p, ?_⟩
    show execPostcopySourceFree cid s = _
    rw [execPostcopySourceFree, if_neg (not_refused hvd (not_not.2 hst))]
  obtain ⟨dirty, hexec⟩ := hexec
  generalize hb : ({ s.setVd cid { s.vd cid with outstanding := [] } with dirty := dirty } : State) = b at hexec
  have hnone : (b.vd cid).outstanding = [] := by
    rw [← hb]
    exact congrArg Vd.outstanding (vd_setVd_self ..)
  obtain ⟨hvds, hbits⟩ := freeLeaves_spec (leavesOf s cid) b
  exact ⟨_, hexec, (congrArg Vd.outstanding (vd_of_vds hvds cid)).trans hnone, fun l hl => hbits _ (.inl ⟨l, hl, rfl⟩)⟩

theorem vds_gapRecord (s : State) (i : Nat) : (gapRecord s i).vds = s.vds := by
  unfold gapRecord meterTrigger
  dsimp only
  split
  · rfl
  · split
    · rfl
    · split <;> rfl

/-- The VD of a page that has not come. -/
def lostVd (page : Nat) (v : Vd) : Vd :=
  { v with outstanding := sdel page v.outstanding, pulls := sdel page v.pulls, lost := sins page v.lost, state := .failed, failStatus := 0x0404 }

theorem strands_poisonPage (cid page : Nat) (s : State) : (poisonPage cid page s).strands = s.strands := by
  unfold poisonPage
  split <;> rfl

/-- What follows the failure of a VD whose page has not come: its strands fault, its meters record the gap, and its COPYs end. -/
def lost (cid page : Nat) (a : State) : State :=
  let b := ((a.strands.filter fun (_, t) => t.cid = cid).map (·.1)).foldl loseStrand a
  let c := (metersOf b cid).foldl gapRecord b
  ((c.runs.filter fun r => decide (r.fn = cid ∧ r.pkt.type = 4) && !r.ended).foldl
    (fun s r => endRun r 0x0404 (bv 64 (microJoule r.energy)) s) c).push (.pageDone cid page)

theorem lost_spec (cid page : Nat) (h : s.strands = []) : (lost cid page s).vds = s.vds ∧ .pageDone cid page ∈ (lost cid page s).agenda := by
  unfold lost
  dsimp only
  rw [h, List.filter_nil, List.map_nil, List.foldl_nil]
  refine ⟨?_, List.mem_append_right _ (List.mem_singleton_self _)⟩
  exact (foldl_eq (fun s (r : Run) => endRun r 0x0404 (bv 64 (microJoule r.energy)) s) State.vds (fun _ _ => rfl) _ _).trans
    (foldl_eq gapRecord State.vds vds_gapRecord _ s)

/-- A page that does not come is lost, and its VD fails. -/
theorem execPostcopyPullTimeout_loses (hout : page ∈ (s.vd cid).outstanding) (hpull : page ∈ (s.vd cid).pulls) (hstrands : s.strands = []) :
    ∃ t, exec (.postcopyPullTimeout cid page) s = .next t ∧ t.vd cid = lostVd page (s.vd cid) ∧ .pageDone cid page ∈ t.agenda := by
  have hexec : exec (.postcopyPullTimeout cid page) s
      = .next (lost cid page ((poisonPage cid page s).setVd cid (lostVd page (s.vd cid)))) := by
    show execPostcopyPullTimeout cid page s = _
    unfold execPostcopyPullTimeout
    dsimp only
    rw [contains_of_mem hout, contains_of_mem hpull, if_neg (by simp)]
    rfl
  obtain ⟨hvds, hdone⟩ := lost_spec (s := (poisonPage cid page s).setVd cid (lostVd page (s.vd cid))) cid page
    ((strands_poisonPage ..).trans hstrands)
  exact ⟨_, hexec, (vd_of_vds hvds cid).trans (vd_setVd_self ..), hdone⟩

theorem execPostcopyPullTimeout_none (h : page ∉ (s.vd cid).pulls) : exec (.postcopyPullTimeout cid page) s = .next s := by
  show execPostcopyPullTimeout cid page s = _
  unfold execPostcopyPullTimeout
  dsimp only
  rw [contains_of_not_mem h, if_pos (.inr rfl)]

/-- Settles O54: the commands of PLC_MIG case by case, with the requests that a round makes (`asks_sendPages`), the final round by what
each of its parts leaves of the VD (`arrived_spec`, `taken_spec`, `Standing`), and a page by the bytes of its frame
(`pageArrival_spec`). -/
theorem migrationSteps : Obligations.MigrationSteps := by
  unfold Obligations.MigrationSteps
  intro cid page s
  dsimp only
  refine ⟨fun hcid => ⟨?_, ?_, ?_, ?_, ?_, ?_, ?_, ?_, ?_, ?_, ?_, ?_⟩, fun hstop hmine hvd => ⟨?_, ?_, ?_, ?_, ?_⟩,
    fun hmine hbusy hvd => ⟨?_, ?_⟩, ?_, ?_, ?_, ?_, ?_, ?_, ?_, ?_, ?_, ?_, ?_, ?_, ?_, ?_, ?_, ?_⟩
  case refine_1 => exact execMigrationStart_refused hcid
  case refine_2 => exact execMigrationStart_no_route hcid
  case refine_3 => exact fun hvd hst hr hok => ⟨_, execMigrationStart_denied hcid hvd hst hr hok, rfl, hst⟩
  case refine_4 =>
    intro hvd hst hr hok
    obtain ⟨hstate, hdest, hbusy, hdirty⟩ := begun_spec cid s
    exact ⟨_, execMigrationStart_begins hcid hvd hst hr hok, hstate, hdest, rfl, hbusy, hdirty⟩
  case refine_5 => exact execMigrationPrecopyRound_refused hcid
  case refine_6 => exact execMigrationPrecopyRound_no_route hcid
  case refine_7 =>
    intro hvd hst hs hr hnone hreqs
    obtain ⟨hplc, _, hklk⟩ := copyRound_spec cid s
    have hsent : pagesSent (copyRound cid s) cid = false := by
      rw [pagesSent, hklk hnone, hreqs]
      rfl
    refine ⟨_, execMigrationPrecopyRound_sends hcid hvd hst hs hr, ?_⟩
    rw [if_neg (by rw [hsent]; exact Bool.false_ne_true), migSay, hplc, hnone]
    exact ⟨rfl, rfl⟩
  case refine_8 =>
    intro hvd hst hs hr hsome
    obtain ⟨hplc, hall, _⟩ := copyRound_spec cid s
    obtain ⟨p, hp⟩ := List.exists_mem_of_ne_nil _ hsome
    obtain ⟨_, r, hreq, hwhy⟩ := hall p hp
    refine ⟨_, execMigrationPrecopyRound_sends hcid hvd hst hs hr, ?_⟩
    rw [if_pos (pagesSent_of_mem hreq hwhy), hplc]
    exact ⟨rfl, rfl, hall⟩
  case refine_9 => exact fun hvd hst hs => execMigrationAbort_ends hcid hvd hst hs
  case refine_10 => exact execMigrationAbort_refused hcid
  case refine_11 => exact fun hidle => execMigrationStop_refused ((stopVd_of_not_stopping hidle).trans hcid)
  case refine_12 =>
    exact fun hidle hvd hst hok =>
      ⟨_, execMigrationStop_begins ((stopVd_of_not_stopping hidle).trans hcid) hvd hst hidle hok, begunStop_spec cid s⟩
  case refine_13 =>
    exact fun hst hstrands hruns hmeters => ⟨_, execMigrationStop_stops hstop hmine hvd hst hstrands hruns hmeters,
      congrArg Vd.state (vd_setVd_self ..), mem_timers_stopAgain _⟩
  case refine_14 => exact execMigrationStop_lost hstop hmine hvd
  case refine_15 =>
    intro hst hwaits hlost hroute hfinal hkeep hnear hgrant
    obtain ⟨hsay, hbusy, hin⟩ := sendFinal_here hnear hgrant hkeep
    refine ⟨_, execMigrationStop_sends hstop hmine hvd hst hwaits hlost hroute hfinal, ?_⟩
    rw [if_neg (by rw [hbusy]; exact Bool.false_ne_true)]
    exact ⟨hsay, hbusy, hin⟩
  case refine_16 =>
    intro hst hwaits hlost hroute hfinal hfar
    obtain ⟨hsent, hbusy, hcycle, hin, hout⟩ := sendFinal_remote hfar
    have hbusy' : (sendFinal cid s).plc.migBusy = true := hbusy.trans (migBusy_of_stopping hstop)
    refine ⟨_, execMigrationStop_sends hstop hmine hvd hst hwaits hlost hroute hfinal, ?_⟩
    rw [if_pos hbusy']
    exact ⟨hsent, hbusy', hin, hout, hcycle ▸ mem_timers_stopAgain _⟩
  case refine_17 =>
    intro hst hwaits hlost hroute hfinal
    refine ⟨fun hway => ⟨_, execMigrationStop_waits hstop hmine hvd hst hwaits hlost hroute hfinal hway, rfl, mem_timers_stopAgain s⟩,
      fun hway hnone => ?_⟩
    rw [execMigrationStop_sent hstop hmine hvd hst hwaits hlost hroute hfinal hway, finalSent_of_none hnone]
    rfl
  case refine_18 => exact execMigrationLinkLost_stopping hmine hbusy hvd
  case refine_19 => exact execMigrationLinkLost_ends hmine hbusy hvd
  case refine_20 => exact execMigrationLinkLost_idle
  case refine_21 => exact fun img => execMigrationFinalArrival_gone
  case refine_22 => exact fun img => execMigrationFinalArrival_denied
  case refine_23 =>
    intro img hvd hst hg hnone hpost hmail _
    have hgot : receiveHandoffs cid img.src.1 img.handoffs (installImage cid img s) = some (installImage cid img s) := by
      rw [hnone]
      rfl
    obtain ⟨l, hexec⟩ := execMigrationFinalArrival_lands hvd hst hg hgot hpost
    obtain ⟨hvda, _⟩ := arrived_spec (cid := cid) (w := installImage cid img s) l img.strands img.copies
    refine ⟨_, hexec, ?_⟩
    rw [hvda]
    refine ⟨rfl, rfl, ?_⟩
    show ((installImage cid img s).vd cid).source = img.src
    rw [vd_of_vds (s := s.setVd cid { s.vd cid with source := img.src }) (vds_installImage hmail s) cid, vd_setVd_self]
  case refine_24 =>
    intro img hvd hst hg hpost hcopies
    refine ⟨fun hgot => ⟨_, execMigrationFinalArrival_fails hvd hst hg hgot, fun x p hx => ?_, ?_⟩, fun w hgot => ?_⟩
    · rw [hx]
      exact takeStrand_failed ..
    · obtain ⟨hstate, hfail⟩ := Standing.foldl (standing_takeStrand cid 0x0403) img.strands
        ((installImage cid img s).setVd cid { (installImage cid img s).vd cid with state := .failed, failStatus := 0x0403 })
      rw [hstate cid, hfail cid, vd_setVd_self]
      exact ⟨rfl, rfl⟩
    · obtain ⟨l, hexec⟩ := execMigrationFinalArrival_lands hvd hst hg hgot hpost
      obtain ⟨hvda, hwm, hmem⟩ := arrived_spec (cid := cid) (w := w) l img.strands img.copies
      refine ⟨_, hexec, by rw [hvda], congrArg _ hwm, hmem, fun x p hx => ?_⟩
      rw [hx, hcopies, List.foldl_cons, takeStrand_none]
      exact taken_spec l (x, p) (arrived cid w)
  case refine_25 => exact execPostcopyPagePull_asks
  case refine_26 => exact execPostcopyPagePull_none
  case refine_27 => exact fun l => execPostcopyPagePush_sends
  case refine_28 => exact execPostcopyPagePush_none
  case refine_29 => exact fun data poison => execPostcopyPageArrival_denied
  case refine_30 => exact fun data poison => pageArrival_spec
  case refine_31 => exact fun data poison => execPostcopyPageArrival_none
  case refine_32 => exact execPostcopySourceFree_frees
  case refine_33 => exact execPostcopySourceFree_none
  case refine_34 =>
    intro hout hpull hstrands
    obtain ⟨t, hexec, hvd, hdone⟩ := execPostcopyPullTimeout_loses hout hpull hstrands
    refine ⟨t, hexec, ?_⟩
    rw [hvd]
    exact ⟨rfl, rfl, mem_sins.2 (.inl rfl), not_mem_sdel page _, hdone⟩
  case refine_35 => exact execPostcopyPullTimeout_none

end Sys2Proof.Laws.Migrating
end
